-- ==== Sys2Proof/Word.lean ====
section
/-!
DEFINITION. The words of the TLX-2400: bytes, 32-bit and 64-bit words (R1 to R3), and the plainest conversions between them.
-/
namespace Sys2Proof

abbrev Byte := BitVec 8
abbrev Word32 := BitVec 32
abbrev Word64 := BitVec 64

/-- The two's complement value of the low `n` bits of `x` (`SignExt` of R8). -/
def signedOf (n x : Nat) : Int :=
  let y := x % 2 ^ n
  if y < 2 ^ (n - 1) then (y : Int) else (y : Int) - 2 ^ n

/-- The low `n` bits of an integer. -/
def wrapTo (n : Nat) (x : Int) : Nat := (x % 2 ^ n).toNat

end Sys2Proof
end

