-- ==== Sys2Proof/Syntax.lean ====
section
/-!
DEFINITION. The instruction set of the TLX-2400 as data: one constructor for each row of the opcode table. A row with an encoding
(the lane and group sets, R347 to R357) carries its decoded fields as plain numbers; a row that is an event of the part carries the
unit it happens in and, where it comes from outside, its data.
-/

namespace Sys2Proof

/-- The guard of a lane-set word (R352): predicate `p`, negated when `neg`. -/
structure Guard where
  neg : Bool
  p : Nat
  deriving DecidableEq, Repr, Inhabited

/-- The second word of a long load, store, gather or scatter (R349). -/
structure MemX where
  space : Nat
  cls : Nat
  scope : Nat
  ord : Nat
  swz : Nat
  imm : Nat
  deriving DecidableEq, Repr, Inhabited

/-- The second word of an atomic (R403): IMM16 is divided into TYPE and a 12-bit offset. -/
structure AtomX where
  space : Nat
  scope : Nat
  ord : Nat
  swz : Nat
  typ : Nat
  off : Nat
  deriving DecidableEq, Repr, Inhabited

/-- What a request from another module asks for (R45, R189, R224). -/
inductive DomainKind
  | read
  | write
  | atomic (fn typ : Nat)
  deriving DecidableEq, Repr, Inhabited

/-- A request that arrives on a scale-up port (R45): its port, the sending module, the issuing partition's number (R37, R189),
what it asks, the physical address within this module, its length in bytes and its data. -/
structure DomainRequest where
  port : Nat
  src : Nat
  part : Nat
  kind : DomainKind
  addr : Nat
  len : Nat
  data : Nat
  deriving DecidableEq, Repr, Inhabited

/-- One sample that Caddy reads from sensor `n` (R56). -/
structure SensorSample where
  n : Nat
  value : Nat
  kind : Nat
  valid : Bool
  deriving DecidableEq, Repr, Inhabited

/-- The BODY of a configuration image (R59, R345): the failed symbol regions by die and number and the threshold of R29, the scrub period in
ns, the repaired lanes of each Hinge module, the settings of the LPDDR6 and CXL ports, the default pre-emption deadline in µs, the disabled
cores, and the threshold of shadow mismatches. -/
structure ConfigBody where
  failedRegions : List (Nat × Nat)
  threshold : Nat
  scrubPeriod : Nat
  hingeRepairs : List Nat
  ports : List Nat
  deadline : Nat
  disabled : List Nat
  mismatchLimit : Nat
  deriving DecidableEq, Repr, Inhabited

/-- A configuration image (R59). `spare` is bytes 12 to 15, `sig` its signature, `signed` whether that verifies under a key that R60 names, and
`bodyZero` whether every reserved field of its BODY is zero. -/
structure ConfigImage where
  magic : Nat
  svn : Nat
  spare : Nat
  coremap0 : List Nat
  coremap1 : List Nat
  l2ret0 : Nat
  l2ret1 : Nat
  body : ConfigBody
  sig : List Byte
  signed : Bool
  bodyZero : Bool
  deriving DecidableEq, Repr, Inhabited

/-- A Caddy firmware image (R64): its security version, its bytes, and whether its signature verifies. -/
structure FirmwareImage where
  svn : Nat
  bytes : List Byte
  signed : Bool
  deriving DecidableEq, Repr, Inhabited

/-- Where a soft error struck (R188): an L2 slice of a die, a core's scratchpad or lane slices, or a die's chip scratchpad, and the address
of the 64-bit word there: physical, within the scratchpad, or within the slice of a lane of the group in a slot. -/
inductive SramUnit
  | l2 (die slice : Nat)
  | scratchpad (core : Nat)
  | laneSlice (core slot lane : Nat)
  | chip (die : Nat)
  deriving DecidableEq, Repr, Inhabited

/-- The errors that the memory controllers of a die and the codes of its SRAMs have found (R28, R29, R188): corrected errors of GDDR7 by symbol
region and count, 64-byte blocks that hold more errors than the code corrects, corrected soft errors, and words beyond correction. -/
structure ErrorReport where
  regions : List (Nat × Nat)
  blocks : List Nat
  corrected : List SramUnit
  words : List (SramUnit × Nat)
  deriving DecidableEq, Repr, Inhabited

/-- The component that an update session brings (R64). -/
inductive UpdateImage
  | firmware (i : FirmwareImage)
  | config (i : ConfigImage)
  deriving DecidableEq, Repr, Inhabited

/-- A PLDM update session (R64): its requester, whether the message finishes the session it opened, and the component it transfers. -/
structure UpdateRequest where
  requester : Nat
  finish : Bool
  image : UpdateImage
  deriving DecidableEq, Repr, Inhabited

/-- What the hardware finds while a bring-up step runs (R65): whether the step itself succeeds, whether the derived identity key is
the certified one (R62), the channels and Hinge modules that fail to train, the scale-up ports that fail, and the CXL memory ports
that train with their capacities in bytes. `modid` is the module number that the switch assigns at link-up (R45). -/
structure BringupResult where
  ok : Bool
  keyMatches : Bool
  failedChannels : List Nat
  repairedModules : List Nat
  retiredModules : List Nat
  portsDown : List Nat
  cxlPorts : List (Nat × Nat)
  modid : Nat
  deriving DecidableEq, Repr, Inhabited

/-- The PCI function whose register page is written (R73): the physical function or the function of a partition. -/
inductive RegFn
  | pf
  | part (p : Nat)
  deriving DecidableEq, Repr, Inhabited

/-- Why the Deadbolt is asked to act (R338). -/
inductive DbKind
  | cut
  | migrate
  | rollback
  | checkpoint
  deriving DecidableEq, Repr, Inhabited

/-- One constructor per row of the opcode table. -/
inductive Instr
  /-- `ADD_B32` (R367). -/
  | addB32 (g : Guard) (d a b : Nat)
  /-- `SUB_B32` (R367). -/
  | subB32 (g : Guard) (d a b : Nat)
  /-- `MUL_B32` (R367). -/
  | mulB32 (g : Guard) (d a b : Nat)
  /-- `MULHI_S32` (R367). -/
  | mulhiS32 (g : Guard) (d a b : Nat)
  /-- `MULHI_N32` (R367). -/
  | mulhiN32 (g : Guard) (d a b : Nat)
  /-- `ABS_S32` (R367). -/
  | absS32 (g : Guard) (d a : Nat)
  /-- `NEG_S32` (R367). -/
  | negS32 (g : Guard) (d a : Nat)
  /-- `MIN_S32` (R368). -/
  | minS32 (g : Guard) (d a b : Nat)
  /-- `MAX_S32` (R368). -/
  | maxS32 (g : Guard) (d a b : Nat)
  /-- `MIN_N32` (R368). -/
  | minN32 (g : Guard) (d a b : Nat)
  /-- `MAX_N32` (R368). -/
  | maxN32 (g : Guard) (d a b : Nat)
  /-- `MIN_S64` (R368). -/
  | minS64 (g : Guard) (d a b : Nat)
  /-- `MAX_S64` (R368). -/
  | maxS64 (g : Guard) (d a b : Nat)
  /-- `MIN_N64` (R368). -/
  | minN64 (g : Guard) (d a b : Nat)
  /-- `MAX_N64` (R368). -/
  | maxN64 (g : Guard) (d a b : Nat)
  /-- `ADD_B64` (R367). -/
  | addB64 (g : Guard) (d a b : Nat)
  /-- `SUB_B64` (R367). -/
  | subB64 (g : Guard) (d a b : Nat)
  /-- `MUL_B64` (R367). -/
  | mulB64 (g : Guard) (d a b : Nat)
  /-- `MULHI_S64` (R367). -/
  | mulhiS64 (g : Guard) (d a b : Nat)
  /-- `MULHI_N64` (R367). -/
  | mulhiN64 (g : Guard) (d a b : Nat)
  /-- `ABS_S64` (R367). -/
  | absS64 (g : Guard) (d a : Nat)
  /-- `NEG_S64` (R367). -/
  | negS64 (g : Guard) (d a : Nat)
  /-- `AND_B32` (R369). -/
  | andB32 (g : Guard) (d a b : Nat)
  /-- `OR_B32` (R369). -/
  | orB32 (g : Guard) (d a b : Nat)
  /-- `XOR_B32` (R369). -/
  | xorB32 (g : Guard) (d a b : Nat)
  /-- `NOT_B32` (R369). -/
  | notB32 (g : Guard) (d a : Nat)
  /-- `POPC_B32` (R369). -/
  | popcB32 (g : Guard) (d a : Nat)
  /-- `CLZ_B32` (R369). -/
  | clzB32 (g : Guard) (d a : Nat)
  /-- `CTZ_B32` (R369). -/
  | ctzB32 (g : Guard) (d a : Nat)
  /-- `BREV_B32` (R369). -/
  | brevB32 (g : Guard) (d a : Nat)
  /-- `SHL_B32` (R370). -/
  | shlB32 (g : Guard) (d a b : Nat)
  /-- `SHR_B32` (R370). -/
  | shrB32 (g : Guard) (d a b : Nat)
  /-- `SRA_B32` (R370). -/
  | sraB32 (g : Guard) (d a b : Nat)
  /-- `ROT_B32` (R370). -/
  | rotB32 (g : Guard) (d a b : Nat)
  /-- `SHL_B64` (R370). -/
  | shlB64 (g : Guard) (d a b : Nat)
  /-- `SHR_B64` (R370). -/
  | shrB64 (g : Guard) (d a b : Nat)
  /-- `SRA_B64` (R370). -/
  | sraB64 (g : Guard) (d a b : Nat)
  /-- `ROT_B64` (R370). -/
  | rotB64 (g : Guard) (d a b : Nat)
  /-- `BFE_S32` (R372). -/
  | bfeS32 (g : Guard) (d a b : Nat)
  /-- `BFE_N32` (R372). -/
  | bfeN32 (g : Guard) (d a b : Nat)
  /-- `LEA` (R367). -/
  | lea (g : Guard) (f d a b : Nat)
  /-- `CMP_S32` (R375). -/
  | cmpS32 (g : Guard) (c d a b : Nat)
  /-- `CMP_N32` (R375). -/
  | cmpN32 (g : Guard) (c d a b : Nat)
  /-- `CMP_S64` (R375). -/
  | cmpS64 (g : Guard) (c d a b : Nat)
  /-- `CMP_N64` (R375). -/
  | cmpN64 (g : Guard) (c d a b : Nat)
  /-- `ADD_B32_IMM` (R371). -/
  | addB32Imm (g : Guard) (d a imm : Nat)
  /-- `AND_B32_IMM` (R371). -/
  | andB32Imm (g : Guard) (d a imm : Nat)
  /-- `OR_B32_IMM` (R371). -/
  | orB32Imm (g : Guard) (d a imm : Nat)
  /-- `XOR_B32_IMM` (R371). -/
  | xorB32Imm (g : Guard) (d a imm : Nat)
  /-- `SHL_B32_IMM` (R371). -/
  | shlB32Imm (g : Guard) (d a imm : Nat)
  /-- `SHR_B32_IMM` (R371). -/
  | shrB32Imm (g : Guard) (d a imm : Nat)
  /-- `SRA_B32_IMM` (R371). -/
  | sraB32Imm (g : Guard) (d a imm : Nat)
  /-- `FADD_F32` (R377). -/
  | faddF32 (g : Guard) (d a b : Nat)
  /-- `FSUB_F32` (R377). -/
  | fsubF32 (g : Guard) (d a b : Nat)
  /-- `FMUL_F32` (R377). -/
  | fmulF32 (g : Guard) (d a b : Nat)
  /-- `FMIN_F32` (R378). -/
  | fminF32 (g : Guard) (d a b : Nat)
  /-- `FMAX_F32` (R378). -/
  | fmaxF32 (g : Guard) (d a b : Nat)
  /-- `FABS_F32` (R378). -/
  | fabsF32 (g : Guard) (d a : Nat)
  /-- `FNEG_F32` (R378). -/
  | fnegF32 (g : Guard) (d a : Nat)
  /-- `FADD_F16X2` (R377). -/
  | faddF16x2 (g : Guard) (d a b : Nat)
  /-- `FSUB_F16X2` (R377). -/
  | fsubF16x2 (g : Guard) (d a b : Nat)
  /-- `FMUL_F16X2` (R377). -/
  | fmulF16x2 (g : Guard) (d a b : Nat)
  /-- `FMIN_F16X2` (R378). -/
  | fminF16x2 (g : Guard) (d a b : Nat)
  /-- `FMAX_F16X2` (R378). -/
  | fmaxF16x2 (g : Guard) (d a b : Nat)
  /-- `FABS_F16X2` (R378). -/
  | fabsF16x2 (g : Guard) (d a : Nat)
  /-- `FNEG_F16X2` (R378). -/
  | fnegF16x2 (g : Guard) (d a : Nat)
  /-- `FADD_BF16X2` (R377). -/
  | faddBf16x2 (g : Guard) (d a b : Nat)
  /-- `FSUB_BF16X2` (R377). -/
  | fsubBf16x2 (g : Guard) (d a b : Nat)
  /-- `FMUL_BF16X2` (R377). -/
  | fmulBf16x2 (g : Guard) (d a b : Nat)
  /-- `FMIN_BF16X2` (R378). -/
  | fminBf16x2 (g : Guard) (d a b : Nat)
  /-- `FMAX_BF16X2` (R378). -/
  | fmaxBf16x2 (g : Guard) (d a b : Nat)
  /-- `FABS_BF16X2` (R378). -/
  | fabsBf16x2 (g : Guard) (d a : Nat)
  /-- `FNEG_BF16X2` (R378). -/
  | fnegBf16x2 (g : Guard) (d a : Nat)
  /-- `FCMP_F32` (R381). -/
  | fcmpF32 (g : Guard) (c d a b : Nat)
  /-- `FRND_F32` (R382). -/
  | frndF32 (g : Guard) (m d a : Nat)
  /-- `RCP` (R383). -/
  | rcp (g : Guard) (d a : Nat)
  /-- `RSQ` (R383). -/
  | rsq (g : Guard) (d a : Nat)
  /-- `SQRT` (R383). -/
  | sqrt (g : Guard) (d a : Nat)
  /-- `DIV` (R383). -/
  | div (g : Guard) (d a b : Nat)
  /-- `EXP2` (R383). -/
  | exp2 (g : Guard) (d a : Nat)
  /-- `LOG2` (R383). -/
  | log2 (g : Guard) (d a : Nat)
  /-- `SIN` (R383). -/
  | sin (g : Guard) (d a : Nat)
  /-- `COS` (R383). -/
  | cos (g : Guard) (d a : Nat)
  /-- `RCPX` (R254). -/
  | rcpx (g : Guard) (d a : Nat)
  /-- `RSQX` (R254). -/
  | rsqx (g : Guard) (d a : Nat)
  /-- `SQRTX` (R254). -/
  | sqrtx (g : Guard) (d a : Nat)
  /-- `DIVX` (R254). -/
  | divx (g : Guard) (d a b : Nat)
  /-- `EXP2X` (R254). -/
  | exp2x (g : Guard) (d a : Nat)
  /-- `LOG2X` (R254). -/
  | log2x (g : Guard) (d a : Nat)
  /-- `SINX` (R254). -/
  | sinx (g : Guard) (d a : Nat)
  /-- `COSX` (R254). -/
  | cosx (g : Guard) (d a : Nat)
  /-- `TANH` (R383). -/
  | tanh (g : Guard) (d a : Nat)
  /-- `TANHX` (R254). -/
  | tanhx (g : Guard) (d a : Nat)
  /-- `SHFL_IDX` (R388). -/
  | shflIdx (g : Guard) (d a b : Nat)
  /-- `SHFL_UP` (R388). -/
  | shflUp (g : Guard) (d a b : Nat)
  /-- `SHFL_DOWN` (R388). -/
  | shflDown (g : Guard) (d a b : Nat)
  /-- `SHFL_XOR` (R388). -/
  | shflXor (g : Guard) (d a b : Nat)
  /-- `VOTE_ANY` (R389). -/
  | voteAny (g : Guard) (d a : Nat)
  /-- `VOTE_ALL` (R389). -/
  | voteAll (g : Guard) (d a : Nat)
  /-- `VOTE_BALLOT` (R389). -/
  | voteBallot (g : Guard) (d a : Nat)
  /-- `REDUX_INT` (R390). -/
  | reduxInt (g : Guard) (f d a : Nat)
  /-- `REDUX_F32` (R390). -/
  | reduxF32 (g : Guard) (f d a : Nat)
  /-- `SCAN_INT` (R391). -/
  | scanInt (g : Guard) (f d a : Nat)
  /-- `SCAN_F32` (R391). -/
  | scanF32 (g : Guard) (f d a : Nat)
  /-- `COMPRESS` (R392). -/
  | compress (g : Guard) (d a b : Nat)
  /-- `EXPAND` (R393). -/
  | expand (g : Guard) (d a b : Nat)
  /-- `LD_LS_B32` (R397). -/
  | ldLsB32 (g : Guard) (d a swz off : Nat)
  /-- `LD_LS_B64` (R397). -/
  | ldLsB64 (g : Guard) (d a swz off : Nat)
  /-- `ST_LS_B32` (R397). -/
  | stLsB32 (g : Guard) (d a swz off : Nat)
  /-- `ST_LS_B64` (R397). -/
  | stLsB64 (g : Guard) (d a swz off : Nat)
  /-- `LD_SP_B32` (R397). -/
  | ldSpB32 (g : Guard) (d a swz off : Nat)
  /-- `LD_SP_B64` (R397). -/
  | ldSpB64 (g : Guard) (d a swz off : Nat)
  /-- `ST_SP_B32` (R397). -/
  | stSpB32 (g : Guard) (d a swz off : Nat)
  /-- `ST_SP_B64` (R397). -/
  | stSpB64 (g : Guard) (d a swz off : Nat)
  /-- `LD_GM_B32` (R397). -/
  | ldGmB32 (g : Guard) (d a swz off : Nat)
  /-- `LD_GM_B64` (R397). -/
  | ldGmB64 (g : Guard) (d a swz off : Nat)
  /-- `ST_GM_B32` (R397). -/
  | stGmB32 (g : Guard) (d a swz off : Nat)
  /-- `ST_GM_B64` (R397). -/
  | stGmB64 (g : Guard) (d a swz off : Nat)
  /-- `RNG` (R453). -/
  | rng (g : Guard) (d k : Nat)
  /-- `RNGN_BM` (R453). -/
  | rngnBm (g : Guard) (d : Nat)
  /-- `RNGN_INV` (R453). -/
  | rngnInv (g : Guard) (d : Nat)
  /-- `RNGK` (R453). -/
  | rngk (g : Guard) (d a b : Nat)
  /-- `RESN` (R454). -/
  | resn (g : Guard) (d : Nat)
  /-- `RESLD` (R455). -/
  | resld (g : Guard) (d a : Nat)
  /-- `RESST` (R455). -/
  | resst (g : Guard) (d a : Nat)
  /-- `HITATTR` (R460). -/
  | hitattr (g : Guard) (d n : Nat)
  /-- `HITATTR_PG` (R460). -/
  | hitattrPg (g : Guard) (d b : Nat)
  /-- `ACCEPT` (R276). -/
  | accept (g : Guard) (a b : Nat)
  /-- `IGNORE` (R276). -/
  | ignore (g : Guard)
  /-- `TERM` (R276). -/
  | term (g : Guard) (a b : Nat)
  /-- `LWALK` (R456). -/
  | lwalk (g : Guard) (d a b : Nat)
  /-- `LD_LX` (R398). -/
  | ldLx (g : Guard) (f d a b : Nat) (m : MemX)
  /-- `ST_LX` (R398). -/
  | stLx (g : Guard) (f d a b : Nat) (m : MemX)
  /-- `ATOM_ADD` (R404). -/
  | atomAdd (g : Guard) (d a b : Nat) (m : AtomX)
  /-- `ATOM_MIN` (R404). -/
  | atomMin (g : Guard) (d a b : Nat) (m : AtomX)
  /-- `ATOM_MAX` (R404). -/
  | atomMax (g : Guard) (d a b : Nat) (m : AtomX)
  /-- `ATOM_AND` (R404). -/
  | atomAnd (g : Guard) (d a b : Nat) (m : AtomX)
  /-- `ATOM_OR` (R404). -/
  | atomOr (g : Guard) (d a b : Nat) (m : AtomX)
  /-- `ATOM_XOR` (R404). -/
  | atomXor (g : Guard) (d a b : Nat) (m : AtomX)
  /-- `ATOM_EXCH` (R404). -/
  | atomExch (g : Guard) (d a b : Nat) (m : AtomX)
  /-- `CAS` (R405). -/
  | cas (g : Guard) (d a b : Nat) (m : AtomX)
  /-- `LDG` (R401). -/
  | ldg (g : Guard) (d a b : Nat) (m : MemX)
  /-- `STG` (R401). -/
  | stg (g : Guard) (d a b : Nat) (m : MemX)
  /-- `PREFETCH` (R402). -/
  | prefetch (g : Guard) (a b sp imm : Nat)
  /-- `MAD_B32` (R373). -/
  | madB32 (g : Guard) (d a b c : Nat)
  /-- `MAD_B64` (R373). -/
  | madB64 (g : Guard) (d a b c : Nat)
  /-- `FMA_F32` (R379). -/
  | fmaF32 (g : Guard) (d a b c r : Nat)
  /-- `FMA_F16X2` (R379). -/
  | fmaF16x2 (g : Guard) (d a b c r : Nat)
  /-- `BFI_B32` (R372). -/
  | bfiB32 (g : Guard) (d a b c : Nat)
  /-- `SEL_B32` (R374). -/
  | selB32 (g : Guard) (d a b p : Nat)
  /-- `FCLAMP_F32` (R380). -/
  | fclampF32 (g : Guard) (d a b c : Nat)
  /-- `CVT` (R384). -/
  | cvt (g : Guard) (d a st dt r : Nat)
  /-- `CVTQ` (R385). -/
  | cvtq (g : Guard) (d a c n : Nat)
  /-- `DQV` (R386). -/
  | dqv (g : Guard) (d a b n : Nat)
  /-- `MXSIGN` (R440). -/
  | mxsign (g : Guard) (key a : Nat)
  /-- `MXSIGN_WAIT` (R440). -/
  | mxsignWait (g : Guard) (key a : Nat)
  /-- `MXDRAIN` (R447). -/
  | mxdrain (g : Guard) (m d a b : Nat)
  /-- `NEVAL` (R449). -/
  | neval (g : Guard) (d a b : Nat)
  /-- `KSIGN` (R412). -/
  | ksign (g : Guard) (key : Nat)
  /-- `KSIGN_WAIT` (R412). -/
  | ksignWait (g : Guard) (key : Nat)
  /-- `KSIGN_DECL` (R412). -/
  | ksignDecl (g : Guard) (key a : Nat)
  /-- `TRACE` (R457). -/
  | trace (g : Guard) (fl d a b c : Nat)
  /-- `OCCL` (R457). -/
  | occl (g : Guard) (fl d a b c : Nat)
  /-- `MARCH` (R459). -/
  | march (g : Guard) (d a b : Nat)
  /-- `MARCH_RES` (R459). -/
  | marchRes (g : Guard) (d a b : Nat)
  /-- `RESU` (R454). -/
  | resu (g : Guard) (d a b c : Nat)
  /-- `RESM` (R454). -/
  | resm (g : Guard) (src d a b c : Nat)
  /-- `GADD` (R418). -/
  | gadd (q d a b : Nat)
  /-- `GSUB` (R418). -/
  | gsub (q d a b : Nat)
  /-- `GMUL` (R418). -/
  | gmul (q d a b : Nat)
  /-- `GAND` (R418). -/
  | gand (q d a b : Nat)
  /-- `GOR` (R418). -/
  | gor (q d a b : Nat)
  /-- `GXOR` (R418). -/
  | gxor (q d a b : Nat)
  /-- `GSHL` (R418). -/
  | gshl (q d a b : Nat)
  /-- `GSHR` (R418). -/
  | gshr (q d a b : Nat)
  /-- `GMOV` (R418). -/
  | gmov (q d a : Nat)
  /-- `GCMP` (R420). -/
  | gcmp (q c d a b : Nat)
  /-- `GMOV_IMM` (R419). -/
  | gmovImm (q d imm : Nat)
  /-- `GADD_IMM` (R419). -/
  | gaddImm (q d imm : Nat)
  /-- `GOR_IMM` (R419). -/
  | gorImm (q d imm : Nat)
  /-- `GSHL_IMM` (R419). -/
  | gshlImm (q d imm : Nat)
  /-- `GLD` (R421). -/
  | gld (q d a off : Nat)
  /-- `GST` (R421). -/
  | gst (q d a off : Nat)
  /-- `GBC` (R421). -/
  | gbc (q d a : Nat)
  /-- `BR` (R422). -/
  | br (q cond off : Nat)
  /-- `JMP` (R422). -/
  | jmp (off : Nat)
  /-- `CALL` (R423). -/
  | call (q cond off : Nat)
  /-- `RET` (R423). -/
  | ret (q a : Nat)
  /-- `RCV_SET` (R157). -/
  | rcvSet (q n : Nat)
  /-- `RCV_JOIN` (R158). -/
  | rcvJoin (q n : Nat)
  /-- `LOOP` (R160). -/
  | loop (q d len : Nat)
  /-- `ENDLOOP` (R426). -/
  | endloop (q : Nat)
  /-- `YIELD` (R428). -/
  | yield (q : Nat)
  /-- `EXIT` (R428). -/
  | exit (q : Nat)
  /-- `SEGW` (R427). -/
  | segw (q a : Nat)
  /-- `VIEW` (R427). -/
  | view (q a : Nat)
  /-- `GROW` (R170). -/
  | grow (q n : Nat)
  /-- `SHRINK` (R170). -/
  | shrink (q n : Nat)
  /-- `WAIT` (R217). -/
  | wait (all : Bool) (ld st cp mx : Nat)
  /-- `XFENCE` (R220). -/
  | xfence (q p1 p2 sc : Nat)
  /-- `BAR_TEAM` (R409). -/
  | barTeam (q : Nat)
  /-- `BAR_CL` (R409). -/
  | barCl (q : Nat)
  /-- `TDEC` (R415). -/
  | tdec (q sc a b : Nat)
  /-- `TWAIT` (R416). -/
  | twait (q sc a b : Nat)
  /-- `WTIME` (R429). -/
  | wtime (q a : Nat)
  /-- `RTIME` (R429). -/
  | rtime (q d : Nat)
  /-- `CSRR` (R433). -/
  | csrr (q r csr : Nat)
  /-- `CSRW` (R433). -/
  | csrw (q r csr : Nat)
  /-- `TRAP` (R433). -/
  | trap (q code : Nat)
  /-- `TRET` (R329). -/
  | tret (q : Nat)
  /-- `TMASK` (R433). -/
  | tmask (q : Nat)
  /-- `TUNMASK` (R433). -/
  | tunmask (q : Nat)
  /-- `BRK` (R433). -/
  | brk (q : Nat)
  /-- `LAUNCH` (R431). -/
  | launch (q x y irq tag : Nat)
  /-- `COPY_BLOCK_CMD` (R432). -/
  | copyBlockCmd (q x : Nat)
  /-- `COPY_DIRECT` (R432). -/
  | copyDirect (q x y n : Nat)
  /-- `COLL` (R432). -/
  | coll (q x : Nat)
  /-- `STRN` (R432). -/
  | strn (q x : Nat)
  /-- `CHAIN` (R432). -/
  | chain (q x : Nat)
  /-- `HINGE_READ_REQUEST` (R37). -/
  | hingeReadRequest (id : Nat)
  /-- `HINGE_READ_DATA` (R37). -/
  | hingeReadData (id : Nat)
  /-- `HINGE_WRITE` (R37). -/
  | hingeWrite (id : Nat)
  /-- `HINGE_WRITE_ACKNOWLEDGE` (R37). -/
  | hingeWriteAcknowledge (id : Nat)
  /-- `HINGE_ATOMIC` (R37). -/
  | hingeAtomic (id : Nat)
  /-- `HINGE_ATOMIC_RESULT` (R37). -/
  | hingeAtomicResult (id : Nat)
  /-- `HINGE_HALO_WRITE` (R42). -/
  | hingeHaloWrite (id : Nat)
  /-- `HINGE_TIME_SIDEBAND` (R37). -/
  | hingeTimeSideband (id : Nat)
  /-- `STAMPED_MESSAGE_APPLY` (R38). -/
  | stampedMessageApply (id : Nat)
  /-- `HINGE_LANE_REPAIR` (R34). -/
  | hingeLaneRepair (n lanes : Nat)
  /-- `HINGE_MODULE_RETIRE` (R34). -/
  | hingeModuleRetire (n : Nat)
  /-- `HNG_CRCERR_CLEAR` (R35). -/
  | hngCrcerrClear (n : Nat)
  /-- `SCALEUP_PORT_RETRAIN` (R46). -/
  | scaleupPortRetrain (port : Nat)
  /-- `SCALEUP_PORT_DOWN` (R46). -/
  | scaleupPortDown (port : Nat)
  /-- `DOMAIN_REQUEST_ARRIVAL` (R189). -/
  | domainRequestArrival (r : DomainRequest)
  /-- `CXL_PORT_TRAINED` (R31). -/
  | cxlPortTrained (port cap : Nat)
  /-- `CXL_PORT_DOWN` (R70). -/
  | cxlPortDown (port : Nat)
  /-- `HOST_LINK_TRAINED` (R67). -/
  | hostLinkTrained (width rate : Nat)
  /-- `HOST_LINK_DOWN` (R69). -/
  | hostLinkDown
  /-- `HOST_MEM_ACCESS` (R72). -/
  | hostMemAccess (write : Bool) (addr len data : Nat)
  /-- `PKG_SCREEN_WRITE` (R41). -/
  | pkgScreenWrite (p v : Nat)
  /-- `RES_GEOM_WRITE` (R301). -/
  | resGeomWrite (p v : Nat)
  /-- `DEVICE_TIME_TICK` (R48). -/
  | deviceTimeTick
  /-- `TIM_ADJ_WRITE` (R48). -/
  | timAdjWrite (v : Nat)
  /-- `TIM_STEP_WRITE` (R49). -/
  | timStepWrite (v : Nat)
  /-- `PPS_EDGE` (R50). -/
  | ppsEdge
  /-- `PTP_MESSAGE` (R51). -/
  | ptpMessage (kind seq remote : Nat)
  /-- `SENSOR_REFRESH` (R56). -/
  | sensorRefresh (samples : List SensorSample)
  /-- `CLOCK_STEP` (R52). -/
  | clockStep
  /-- `PKG_PWRCAP_WRITE` (R54). -/
  | pkgPwrcapWrite (v : Nat)
  /-- `CADDY_LOCKSTEP_MISMATCH` (R55). -/
  | caddyLockstepMismatch
  /-- `LOG_FLUSH` (R57). -/
  | logFlush
  /-- `LOG_READ` (R58). -/
  | logRead (seq : Nat)
  /-- `ATTEST_REQUEST` (R63). -/
  | attestRequest (nonce : Nat)
  /-- `ATTEST_REPORT` (R63). -/
  | attestReport
  /-- `FIRMWARE_UPDATE` (R64). -/
  | firmwareUpdate (u : UpdateRequest)
  /-- `MODULE_RESET` (R65). -/
  | moduleReset
  /-- `BRINGUP_STEP_COMPLETE` (R65). -/
  | bringupStepComplete (r : BringupResult)
  /-- `SCRUB_PERIOD` (R29). -/
  | scrubPeriod (die : Nat) (r : ErrorReport)
  /-- `CORE_RETIRE` (R345). -/
  | coreRetire (core : Nat)
  /-- `L2_SLICE_RETIRE` (R346). -/
  | l2SliceRetire (die slice : Nat)
  /-- `PARTITION_CREATE` (R87). -/
  | partitionCreate (p : Nat)
  /-- `PARTITION_RESIZE` (R88). -/
  | partitionResize (p : Nat)
  /-- `PARTITION_RESET` (R89). -/
  | partitionReset (p : Nat) (scrub : Bool)
  /-- `PARTITION_DESTROY` (R89). -/
  | partitionDestroy (p : Nat) (scrub : Bool)
  /-- `PARTITION_CMD_BAD_OP` (R84). -/
  | partitionCmdBadOp (p : Nat)
  /-- `PARTITION_APPLY_COMPLETE` (R87). -/
  | partitionApplyComplete (p : Nat)
  /-- `PARTITION_RESET_COMPLETE` (R87). -/
  | partitionResetComplete (p : Nat)
  /-- `PARTITION_FLR` (R87). -/
  | partitionFlr (p : Nat)
  /-- `PF_FLR` (R87). -/
  | pfFlr
  /-- `PFIVMAP_WRITE` (R79). -/
  | pfivmapWrite (n v : Nat)
  /-- `FBHEAD_WRITE` (R90). -/
  | fbheadWrite (p v : Nat)
  /-- `FLTREPLAY_ALL` (R93). -/
  | fltreplayAll (p : Nat)
  /-- `FLTREPLAY_TOKEN` (R93). -/
  | fltreplayToken (p token : Nat)
  /-- `FLTREPLAY_UNRECOVERABLE` (R93). -/
  | fltreplayUnrecoverable (p token : Nat)
  /-- `TLBINV_ALL` (R94). -/
  | tlbinvAll (p : Nat)
  /-- `TLBINV_PAGE` (R94). -/
  | tlbinvPage (p va : Nat)
  /-- `TLBINV_COMPLETE` (R94). -/
  | tlbinvComplete (p : Nat)
  /-- `ODR_HEAD_WRITE` (R148). -/
  | odrHeadWrite (p v : Nat)
  /-- `RF_HEAD_WRITE` (R199). -/
  | rfHeadWrite (p v : Nat)
  /-- `SCH_AREA_WRITE` (R149). -/
  | schAreaWrite (p area v : Nat)
  /-- `MEM_RFAREA_WRITE` (R199). -/
  | memRfareaWrite (p v : Nat)
  /-- `SCH_PREEMPT_WRITE` (R144). -/
  | schPreemptWrite (p v : Nat)
  /-- `REGISTER_WRITE` (R77): an access of software to a register, a write of `v` or, without a value, a read (log entry 73). -/
  | registerWrite (fn : RegFn) (off width : Nat) (v : Option Nat)
  /-- `DOORBELL` (R95). -/
  | doorbell (p st v : Nat)
  /-- `TAIL_WORD_CHANGE` (R104). -/
  | tailWordChange (p st : Nat)
  /-- `QCTL_ENABLE` (R105). -/
  | qctlEnable (p st : Nat)
  /-- `QCTL_DISABLE` (R105). -/
  | qctlDisable (p st : Nat)
  /-- `QCTL_ZERO` (R97). -/
  | qctlZero (p st : Nat)
  /-- `STAT_RESUME` (R98). -/
  | statResume (p st : Nat)
  /-- `STAT_SKIP` (R98). -/
  | statSkip (p st : Nat)
  /-- `HEADER_REREAD` (R105). -/
  | headerReread (p st : Nat)
  /-- `NOP_PACKET` (R101). -/
  | nopPacket (p st : Nat)
  /-- `LAUNCH_PACKET` (R109). -/
  | launchPacket (p st : Nat)
  /-- `GRAPH_PACKET` (R128). -/
  | graphPacket (p st : Nat)
  /-- `COPY_PACKET` (R120). -/
  | copyPacket (p st : Nat)
  /-- `COLL_PACKET` (R121). -/
  | collPacket (p st : Nat)
  /-- `SEMWAIT_PACKET` (R102). -/
  | semwaitPacket (p st : Nat)
  /-- `SEMSIG_PACKET` (R102). -/
  | semsigPacket (p st : Nat)
  /-- `TIMEWAIT_PACKET` (R102). -/
  | timewaitPacket (p st : Nat)
  /-- `FENCE_PACKET` (R102). -/
  | fencePacket (p st : Nat)
  /-- `JUMP_PACKET` (R102). -/
  | jumpPacket (p st : Nat)
  /-- `WAIT_CONDITION_MET` (R105). -/
  | waitConditionMet (p st : Nat)
  /-- `TUMBLER_POLL` (R416). -/
  | tumblerPoll (core slot lane : Nat)
  /-- `GRID_COMPLETE` (R113). -/
  | gridComplete (p gs : Nat)
  /-- `NODE_DISPATCH` (R133). -/
  | nodeDispatch (graph node : Nat)
  /-- `NODE_COMPLETE` (R133). -/
  | nodeComplete (graph node : Nat)
  /-- `TEAM_PLACE` (R134). -/
  | teamPlace (p gs : Nat)
  /-- `GROUP_END` (R428). -/
  | groupEnd (core slot : Nat)
  /-- `CHAIN_TAIL_SEEN` (R117). -/
  | chainTailSeen (id : Nat)
  /-- `CHAIN_BLOCK_COMPLETE` (R117). -/
  | chainBlockComplete (id : Nat)
  /-- `CHAIN_RESUME` (R125). -/
  | chainResume (id : Nat)
  /-- `COPY_BLOCK_COPY` (R120). -/
  | copyBlockCopy (id : Nat)
  /-- `COPY_BLOCK_FILL` (R120). -/
  | copyBlockFill (id : Nat)
  /-- `COPY_BLOCK_HALO` (R120). -/
  | copyBlockHalo (id : Nat)
  /-- `COPY_CHUNK` (R120). -/
  | copyChunk (id : Nat)
  /-- `COLL_ALL_REDUCE` (R121). -/
  | collAllReduce (id : Nat)
  /-- `COLL_REDUCE_SCATTER` (R121). -/
  | collReduceScatter (id : Nat)
  /-- `COLL_ALL_GATHER` (R121). -/
  | collAllGather (id : Nat)
  /-- `COLL_BROADCAST` (R121). -/
  | collBroadcast (id : Nat)
  /-- `COLL_MESSAGE_INGRESS` (R344). -/
  | collMessageIngress (id attempt member : Nat) (data : List Nat)
  /-- `COLL_ABORT_TOKEN` (R344). -/
  | collAbortToken (id attempt : Nat)
  /-- `COLL_ATTEMPT_TIMEOUT` (R344). -/
  | collAttemptTimeout (id : Nat)
  /-- `MATRIX_BLOCK` (R116). -/
  | matrixBlock (id : Nat)
  /-- `MATRIX_KSTEP` (R437). -/
  | matrixKstep (id : Nat)
  /-- `MATRIX_JOB_COMPLETE` (R444). -/
  | matrixJobComplete (id : Nat)
  /-- `BLEND_TILE_CLOSE` (R450). -/
  | blendTileClose (id : Nat)
  /-- `BLEND_ROW_WRITEBACK` (R449). -/
  | blendRowWriteback (id : Nat)
  /-- `STRAINER_PASS` (R306). -/
  | strainerPass (id : Nat)
  /-- `STRAINER_PIXEL` (R307). -/
  | strainerPixel (id : Nat)
  /-- `STRAINER_VIS_RAY_RESULT` (R310). -/
  | strainerVisRayResult (id : Nat)
  /-- `STRAINER_PASS_COMPLETE` (R316). -/
  | strainerPassComplete (id : Nat)
  /-- `STRAINER_ADVANCE` (R302). -/
  | strainerAdvance (id : Nat)
  /-- `RAY_NODE_READ` (R267). -/
  | rayNodeRead (id : Nat)
  /-- `RAY_RESULT_WRITE` (R262). -/
  | rayResultWrite (id : Nat)
  /-- `MARCH_EVENT` (R283). -/
  | marchEvent (id : Nat)
  /-- `LWALK_NODE_READ` (R320). -/
  | lwalkNodeRead (id : Nat)
  /-- `LANE_SWAP` (R278). -/
  | laneSwap (core sa sb lane : Nat)
  /-- `ORDERED_ACCESS_ARRIVAL` (R288). -/
  | orderedAccessArrival (id : Nat)
  /-- `ORDERED_ACCESS_RELEASE` (R288). -/
  | orderedAccessRelease (id : Nat)
  /-- `PAGE_WALK_COMPLETE` (R192). -/
  | pageWalkComplete (id : Nat)
  /-- `LOAD_DATA_RETURN` (R398). -/
  | loadDataReturn (id data : Nat) (ok : Bool)
  /-- `POISON_RETURN` (R478). -/
  | poisonReturn (id : Nat)
  /-- `WRITE_PERFORMED` (R215). -/
  | writePerformed (id : Nat) (ok : Bool)
  /-- `STORE_BUFFER_DRAIN` (R206). -/
  | storeBufferDrain (id : Nat)
  /-- `SLICE_MOVE` (R177). -/
  | sliceMove (core slot : Nat)
  /-- `LOOP_END_STEP` (R161). -/
  | loopEndStep (core slot : Nat)
  /-- `GROW_GRANT` (R170). -/
  | growGrant (core slot : Nat)
  /-- `ALLOCATOR_IMPASSE` (R171). -/
  | allocatorImpasse (core : Nat)
  /-- `ACTIVE_SET_ROTATE` (R156). -/
  | activeSetRotate (core slot : Nat)
  /-- `GROUP_ENTER_ACTIVE` (R156). -/
  | groupEnterActive (core slot : Nat)
  /-- `WTIME_RELEASE` (R429). -/
  | wtimeRelease (core slot lane : Nat)
  /-- `WTIME_PREENTRY` (R429). -/
  | wtimePreentry (core slot : Nat)
  /-- `PERIOD_BOUNDARY` (R141). -/
  | periodBoundary (p : Nat)
  /-- `MIGRATION_START` (R138). -/
  | migrationStart (team core : Nat)
  /-- `MIGRATION_COPY_DONE` (R137). -/
  | migrationCopyDone (team : Nat)
  /-- `FORWARD_ENTRY_EXPIRE` (R139). -/
  | forwardEntryExpire (core entry : Nat)
  /-- `FORWARDED_MESSAGE` (R139). -/
  | forwardedMessage (id core slot : Nat)
  /-- `PREEMPT_CLASS_TRIGGER` (R144). -/
  | preemptClassTrigger (p gs : Nat)
  /-- `PREEMPT_DEADLINE_EXPIRE` (R337). -/
  | preemptDeadlineExpire (team : Nat)
  /-- `WITHHOLD_EXPIRE` (R146). -/
  | withholdExpire (p : Nat)
  /-- `SAVE_AREA_AVAILABLE` (R146). -/
  | saveAreaAvailable (team : Nat)
  /-- `DEADBOLT_REQUEST` (R338). -/
  | deadboltRequest (team : Nat) (kind : DbKind)
  /-- `SHADOW_QUEUES_EMPTY` (R338). -/
  | shadowQueuesEmpty (team : Nat)
  /-- `DEADBOLT_FREEZE` (R338). -/
  | deadboltFreeze (team : Nat)
  /-- `DEADBOLT_SCAN_DONE` (R338). -/
  | deadboltScanDone (team : Nat)
  /-- `DEADBOLT_DRAIN_DONE` (R338). -/
  | deadboltDrainDone (team : Nat)
  /-- `SHADOW_MISMATCH` (R343). -/
  | shadowMismatch (core slot lane : Nat)
  /-- `ASYNC_ERROR_DELIVERY` (R330). -/
  | asyncErrorDelivery (core slot lane : Nat)
  /-- `HOST_CACHE_SNOOP` (R71). -/
  | hostCacheSnoop (addr data : Nat)
  /-- `HINGE_CRC_RETRY` (R35). -/
  | hingeCrcRetry (n : Nat)
  /-- `HINGE_MODULE_RETRAINED` (R35). -/
  | hingeModuleRetrained (n : Nat)
  /-- `HINGE_REQUEST_TIMEOUT` (R37). -/
  | hingeRequestTimeout (id : Nat)
  /-- `CADDY_RESTART_COMPLETE` (R55). -/
  | caddyRestartComplete
  /-- `POWER_FAIL` (R58). -/
  | powerFail
  deriving DecidableEq, Repr

end Sys2Proof
end

