-- ==== Sys2Proof/Config.lean ====
section
/-!
DEFINITION. What an implementation fixes, and the free values: constants without a body, so that nothing can be proved of their value.
Each is named in a row of the assumption log.
-/
namespace Sys2Proof.Config

/-- The FP32 code that a fast transcendental offers for its operands (R254): a fixed function of them, which the spec bounds and does
not give. It is used only where it lies within the bound of R253. (DESIGN CHOICE, log entry 11) -/
opaque fastResult : (fn a b : Nat) → BitVec 32

/-- The event code of a log record (R57): the spec defines no codes. The argument is the number of the event in the model. (DESIGN CHOICE, log entry 12) -/
opaque logCode : Nat → BitVec 16

/-- The DATA field of a log record (R57), defined by CODE: 40 bytes, for an event of the model and its two arguments. (DESIGN CHOICE, log entry 12) -/
opaque logData : (event x y : Nat) → List (BitVec 8)

/-- The 29,792-byte signature by the device identity key over a message (R61, R63), one byte at a time. (DESIGN CHOICE, log entry 13) -/
opaque signatureByte : List (BitVec 8) → Nat → BitVec 8

/-- The bytes of the Caddy firmware that the module is shipped with (R64). (DESIGN CHOICE, log entry 13) -/
opaque shippedFirmware : List (BitVec 8)

/-- The certificate of the device identity key (R62). (DESIGN CHOICE, log entry 13) -/
opaque certificate : List (BitVec 8)

/-- The signature of the configuration image that the module is shipped with (R59). (DESIGN CHOICE, log entry 10) -/
opaque shippedSignature : List (BitVec 8)

/-- The threshold of R29 and the port settings in that image (R59). (DESIGN CHOICE, log entry 10) -/
opaque shippedThreshold : Nat
/-- The LPDDR6 and CXL port settings in that image (R59). (DESIGN CHOICE, log entry 10) -/
opaque shippedPorts : List Nat

/-- The bytes of the BODY of a configuration image (R59), whose layout the spec does not give. (DESIGN CHOICE, log entry 10) -/
opaque configBody : ConfigBody → List (BitVec 8)

/-- Whether the first buffered record of the log is being written as the power fails (R58), for a count of what the model has done. (DESIGN CHOICE, log entry 69) -/
opaque tornRecord : Nat → Bool

/-- The default pre-emption deadline of a partition whose setup record gives none, in the configuration image that the module is shipped with (R59), in µs. (DESIGN CHOICE, log entry 10) -/
opaque defaultDeadline : BitVec 32

/-- The up Hinge module that a die's hash chooses for a line, among `n` (R36). (DESIGN CHOICE, log entry 19) -/
opaque hingeHash : (die line n : Nat) → Nat

/-- The scale-up port that a die's hash chooses for a line address, among `n` up ports (R45). (DESIGN CHOICE, log entry 19) -/
opaque portHash : (die line n : Nat) → Nat

/-- The lane of a Strainer's evaluator on which a candidate runs, modulo 8 (R312, R314): the spec does not say which. (DESIGN CHOICE, log entry 18) -/
opaque evaluatorLane : (pix position : Nat) → Nat

/-- The code of a ray slot's state in a spill record (R261): the spec names the states of R262 and gives no codes. (DESIGN CHOICE, log entry 14) -/
opaque rayStateCode : Nat → BitVec 8

/-- Byte `index` of a march slot's 64 bytes (R281, R340), whose layout the spec does not give: a function of what the slot holds. (DESIGN CHOICE, log entry 14) -/
opaque marchByte : (contents : List Nat) → (index : Nat) → BitVec 8

/-- What a march slot holds after a restore from bytes that are not those of its save (R281, R340), whose layout the spec does not give. (DESIGN CHOICE, log entry 14) -/
opaque marchContents : List (BitVec 8) → List Nat

end Sys2Proof.Config
end

