-- ==== Sys2Proof/Machine/Flags.lean ====
section
/-!
DEFINITION. The sticky arithmetic flags of R359 that one instruction raises, and how the flags of several lanes or elements combine.
-/
namespace Sys2Proof.Machine

/-- The flags of `STKY` (R359). -/
structure FlagSet where
  ainv : Bool
  nv : Bool
  of : Bool
  uf : Bool
  nx : Bool
  dz : Bool
  sat : Bool
  deriving DecidableEq, Repr, Inhabited

/-- No flag. -/
def noFlags : FlagSet := ⟨false, false, false, false, false, false, false⟩

/-- The OR of two sets of flags (R365, R376). -/
def orFlags (a b : FlagSet) : FlagSet :=
  ⟨a.ainv || b.ainv, a.nv || b.nv, a.of || b.of, a.uf || b.uf, a.nx || b.nx, a.dz || b.dz, a.sat || b.sat⟩

/-- The OR of a list of sets of flags. -/
def orAllFlags (l : List FlagSet) : FlagSet := l.foldl orFlags noFlags

/-- A flag as a bit. -/
def bitOf (b : Bool) : Nat := if b then 1 else 0

/-- The bits of `STKY` (R359): AINV 0, NV 1, OF 2, UF 3, NX 4, DZ 5, SAT 6. -/
def flagBits (f : FlagSet) : Nat :=
  bitOf f.ainv + 2 * bitOf f.nv + 4 * bitOf f.of + 8 * bitOf f.uf + 16 * bitOf f.nx + 32 * bitOf f.dz + 64 * bitOf f.sat

/-- `Flag(f)` of R360 for every flag of a set: the new value of `STKY`. -/
def raiseFlags (stky : Nat) (f : FlagSet) : Nat := stky ||| flagBits f

/-- NV alone. -/
def flagNV : FlagSet := { noFlags with nv := true }
/-- DZ alone. -/
def flagDZ : FlagSet := { noFlags with dz := true }
/-- AINV alone. -/
def flagAINV : FlagSet := { noFlags with ainv := true }
/-- SAT alone. -/
def flagSAT : FlagSet := { noFlags with sat := true }
/-- NX alone. -/
def flagNX : FlagSet := { noFlags with nx := true }

end Sys2Proof.Machine
end

