-- ==== Sys2Proof/Machine/Formats.lean ====
section
/-!
DEFINITION. Number formats (R225 to R234): decoding a code into an exact value, exact addition and multiplication, and rounding an exact
value once to a code of a format in each of the five modes, with the flags of R376.
-/
namespace Sys2Proof.Machine

/-- The value of a code (R227): a NaN, a signed infinity, or `±m × 2^e`. -/
inductive Val
  | nan
  | inf (neg : Bool)
  | fin (neg : Bool) (m : Nat) (e : Int)
  deriving DecidableEq, Repr, Inhabited

/-- A floating format (R226): exponent and mantissa bits, and the bias. -/
structure Fmt where
  ebits : Nat
  mbits : Nat
  bias : Nat
  deriving DecidableEq, Repr, Inhabited

def fmtFP32 : Fmt := ⟨8, 23, 127⟩
def fmtFP16 : Fmt := ⟨5, 10, 15⟩
def fmtBF16 : Fmt := ⟨8, 7, 127⟩
def fmtE4M3 : Fmt := ⟨4, 3, 7⟩
def fmtE5M2 : Fmt := ⟨5, 2, 15⟩
def fmtE2M1 : Fmt := ⟨2, 1, 1⟩

/-- The float formats by the element code of R230. -/
def fmtOf (c : Nat) : Fmt :=
  match c with
  | 0 => fmtFP32 | 1 => fmtFP16 | 2 => fmtBF16 | 3 => fmtE4M3 | 4 => fmtE5M2 | _ => fmtE2M1

/-- The bits of one code. -/
def Fmt.width (f : Fmt) : Nat := 1 + f.ebits + f.mbits
/-- Formats narrower than 16 bits saturate instead of overflowing (R232). -/
def Fmt.narrow (f : Fmt) : Bool := decide (f.ebits + f.mbits < 8)
/-- E4M3 and E2M1 have no infinity (R226). -/
def Fmt.hasInf (f : Fmt) : Bool := !(decide (f = fmtE4M3) || decide (f = fmtE2M1))
/-- The magnitude code of the largest finite value (R226). -/
def Fmt.maxCode (f : Fmt) : Nat :=
  if f = fmtE2M1 then 7 else if f = fmtE4M3 then 126 else (2 ^ f.ebits - 1) * 2 ^ f.mbits - 1
/-- The magnitude code of infinity. -/
def Fmt.infCode (f : Fmt) : Nat := (2 ^ f.ebits - 1) * 2 ^ f.mbits
/-- The canonical quiet NaN (R228); an unscaled E2M1 takes 0 (R234). -/
def Fmt.nanCode (f : Fmt) : Nat :=
  if f = fmtE2M1 then 0 else if f = fmtE4M3 then 127 else (2 ^ f.ebits - 1) * 2 ^ f.mbits + 2 ^ (f.mbits - 1)
/-- The exponent of the unit in the last place of a subnormal. -/
def Fmt.minUnit (f : Fmt) : Int := 1 - (f.bias : Int) - f.mbits
/-- Places a sign on a magnitude code. E2M1 has no negative zero (R227). -/
def Fmt.signed (f : Fmt) (neg : Bool) (mag : Nat) : Nat :=
  if f = fmtE2M1 && decide (mag = 0) then 0 else if neg then 2 ^ (f.ebits + f.mbits) + mag else mag

/-- `Dec(f, x)` (R227, R229): E2M1 code `0b1000` reads as +0 here. -/
def decodeVal (f : Fmt) (x : Nat) : Val :=
  let neg := decide (x / 2 ^ (f.ebits + f.mbits) % 2 = 1)
  let e := x / 2 ^ f.mbits % 2 ^ f.ebits
  let m := x % 2 ^ f.mbits
  if f = fmtE2M1 then
    (if e = 0 && m = 0 then .fin false 0 0
     else if e = 0 then .fin neg m f.minUnit else .fin neg (2 + m) (f.minUnit + e - 1))
  else if f = fmtE4M3 && e = 15 && m = 7 then .nan
  else if f.hasInf && e = 2 ^ f.ebits - 1 then (if m = 0 then .inf neg else .nan)
  else if e = 0 then .fin neg m f.minUnit
  else .fin neg (2 ^ f.mbits + m) (f.minUnit + e - 1)

namespace Val

def isNan : Val → Bool
  | .nan => true
  | _ => false
def isInf : Val → Bool
  | .inf _ => true
  | _ => false
def isZero : Val → Bool
  | .fin _ m _ => m = 0
  | _ => false
def sign : Val → Bool
  | .nan => false
  | .inf n => n
  | .fin n _ _ => n
def neg : Val → Val
  | .nan => .nan
  | .inf n => .inf !n
  | .fin n m e => .fin (!n) m e
def abs : Val → Val
  | .nan => .nan
  | .inf _ => .inf false
  | .fin _ m e => .fin false m e

/-- Zero with a sign. -/
def zero (n : Bool) : Val := .fin n 0 0

/-- The signed mantissa of a finite value at exponent `e0 ≤ e`. -/
def scaled (n : Bool) (m : Nat) (e e0 : Int) : Int :=
  let k : Int := (m : Int) * 2 ^ (e - e0).toNat
  if n then -k else k

/-- The value of an integer times a power of two; a zero takes the given sign. -/
def ofInt (i : Int) (e : Int) (zneg : Bool) : Val :=
  if i = 0 then .fin zneg 0 e else .fin (decide (i < 0)) i.natAbs e

/-- The exact sum (R376). An exact zero of opposite signs is +0, or −0 where rounding is down (R379). ∞ − ∞ is NaN. -/
def add (down : Bool) : Val → Val → Val
  | .nan, _ => .nan
  | _, .nan => .nan
  | .inf a, .inf b => if a = b then .inf a else .nan
  | .inf a, _ => .inf a
  | _, .inf b => .inf b
  | .fin na ma ea, .fin nb mb eb =>
    let e0 := min ea eb
    ofInt (scaled na ma ea e0 + scaled nb mb eb e0) e0 (if na = nb then na else down)

/-- The exact product (R244). Zero times ∞ is NaN. -/
def mul : Val → Val → Val
  | .nan, _ => .nan
  | _, .nan => .nan
  | .inf a, .inf b => .inf (xor a b)
  | .inf a, .fin b m _ => if m = 0 then .nan else .inf (xor a b)
  | .fin a m _, .inf b => if m = 0 then .nan else .inf (xor a b)
  | .fin na ma ea, .fin nb mb eb => .fin (xor na nb) (ma * mb) (ea + eb)

/-- Times a power of two. -/
def scale2 (k : Int) : Val → Val
  | .fin n m e => .fin n m (e + k)
  | v => v

/-- Exact comparison of two values that are not NaN; −0 equals +0. -/
def cmp : Val → Val → Ordering
  | .inf a, .inf b => if a = b then .eq else if a then .lt else .gt
  | .inf a, _ => if a then .lt else .gt
  | _, .inf b => if b then .gt else .lt
  | .fin na ma ea, .fin nb mb eb =>
    let e0 := min ea eb
    compare (scaled na ma ea e0) (scaled nb mb eb e0)
  | _, _ => .eq

/-- `a < b`, false on a NaN. -/
def lt (a b : Val) : Bool := !a.isNan && !b.isNan && cmp a b == .lt
/-- `a ≤ b`, false on a NaN. -/
def le (a b : Val) : Bool := !a.isNan && !b.isNan && cmp a b != .gt
/-- `a = b` as values, false on a NaN. -/
def eq (a b : Val) : Bool := !a.isNan && !b.isNan && cmp a b == .eq

end Val

/-- The rounding modes of R231. -/
inductive Mode
  | nearest | zero | down | up | stochastic
  deriving DecidableEq, Repr, Inhabited

/-- The mode that a code names (R231). -/
def modeOf (c : Nat) : Mode :=
  match c with
  | 0 => .nearest | 1 => .zero | 2 => .down | 3 => .up | _ => .stochastic

/-- A rounded result: its code and the flags of R376 that it raises. -/
structure Rounded where
  code : Nat
  flags : FlagSet
  deriving DecidableEq, Repr, Inhabited

/-- Whether the magnitude `q + (rem + ε) / 2^shift` rounds up to `q + 1` (R231, R233). `more` says that ε is not 0. -/
def roundsUp (mode : Mode) (neg : Bool) (q rem shift draw : Nat) (more : Bool) : Bool :=
  if rem = 0 && !more then false
  else match mode with
    | .nearest => decide (2 ^ shift < 2 * rem) || (decide (2 ^ shift = 2 * rem) && (more || decide (q % 2 = 1)))
    | .zero => false
    | .down => neg
    | .up => !neg
    | .stochastic =>
      let d := draw / 256 % 16777216
      if neg then !decide (d * 2 ^ shift < (2 ^ shift - rem) * 16777216) else decide (d * 2 ^ shift < rem * 16777216)

/-- The rounded magnitude of `(m + ε) × 2^e` in units of `2^unit`, with that unit, whether it is inexact, and whether it lies below the
smallest normal (R231, with the exponent unbounded above). -/
def roundMag (f : Fmt) (mode : Mode) (neg : Bool) (m : Nat) (e : Int) (more : Bool) (draw : Nat) : Nat × Int × Bool × Bool :=
  let unit := max ((Nat.log2 m : Int) + e - f.mbits) f.minUnit
  let tiny := decide ((Nat.log2 m : Int) + e < 1 - (f.bias : Int))
  if unit ≤ e then (m * 2 ^ (e - unit).toNat, unit, more, tiny)
  else
    let shift := (unit - e).toNat
    let q := m / 2 ^ shift
    let rem := m % 2 ^ shift
    (if roundsUp mode neg q rem shift draw more then q + 1 else q, unit, decide (rem ≠ 0) || more, tiny)

/-- `Rnd(v, f, mode, draw)` of R241 for the value `v`, or for a value just beyond it in magnitude when `more`. -/
def roundVal (f : Fmt) (mode : Mode) (draw : Nat) (v : Val) (more : Bool := false) : Rounded :=
  match v with
  | .nan => ⟨f.nanCode, noFlags⟩
  | .inf neg =>
    if f.hasInf then ⟨f.signed neg f.infCode, noFlags⟩
    else ⟨f.signed neg f.maxCode, { noFlags with sat := true, nx := true }⟩
  | .fin neg m e =>
    if m = 0 then ⟨f.signed neg 0, noFlags⟩
    else
      let (q, unit, inexact, tiny) := roundMag f mode neg m e more draw
      let code := (unit - f.minUnit).toNat * 2 ^ f.mbits + q
      if f.narrow then
        let big := match decodeVal f f.maxCode with
          | .fin _ mm me => Val.lt (.fin false mm me) (.fin false m e) || (more && Val.eq (.fin false mm me) (.fin false m e))
          | _ => false
        let past := decide (f.maxCode < code)
        if big then ⟨f.signed neg f.maxCode, { noFlags with of := past, sat := true, nx := true }⟩
        else ⟨f.signed neg code, { noFlags with uf := tiny && inexact, nx := inexact }⟩
      else if f.maxCode < code then
        let toInf := match mode with
          | .nearest | .stochastic => true
          | .zero => false
          | .down => neg
          | .up => !neg
        ⟨f.signed neg (if toInf then f.infCode else f.maxCode), { noFlags with of := true, nx := true }⟩
      else ⟨f.signed neg code, { noFlags with uf := tiny && inexact, nx := inexact }⟩

/-- NV when operands that are not NaN gave a NaN (R376). -/
def invalidOf (ops : List Val) (r : Val) : FlagSet :=
  if r.isNan && ops.all (fun v => !v.isNan) then flagNV else noFlags

/-- An exact operation on decoded operands, rounded once (R376). (in part DEDUCED, log entry 26) -/
def finish (f : Fmt) (mode : Mode) (draw : Nat) (ops : List Val) (r : Val) : Rounded :=
  let x := roundVal f mode draw r
  ⟨x.code, orFlags x.flags (invalidOf ops r)⟩

/-- `fadd` (R377). -/
def fAdd (f : Fmt) (a b : Nat) : Rounded :=
  let x := decodeVal f a; let y := decodeVal f b
  finish f .nearest 0 [x, y] (Val.add false x y)
/-- `fsub` (R377). -/
def fSub (f : Fmt) (a b : Nat) : Rounded :=
  let x := decodeVal f a; let y := decodeVal f b
  finish f .nearest 0 [x, y] (Val.add false x y.neg)
/-- `fmul` (R377). -/
def fMul (f : Fmt) (a b : Nat) : Rounded :=
  let x := decodeVal f a; let y := decodeVal f b
  finish f .nearest 0 [x, y] (Val.mul x y)
/-- `fma` (R379): formed exactly and rounded once. -/
def fFma (f : Fmt) (mode : Mode) (draw a b c : Nat) : Rounded :=
  let x := decodeVal f a; let y := decodeVal f b; let z := decodeVal f c
  let p := Val.mul x y
  let r := Val.add (decide (mode = .down)) p z
  let rr := roundVal f mode draw r
  ⟨rr.code, orFlags rr.flags (if z.isNan then noFlags else invalidOf [x, y] r)⟩
/-- The order of R377 on operands that are not NaN: −0 is less than +0. -/
def fLess (x y : Val) : Bool := Val.lt x y || (Val.eq x y && x.sign && !y.sign)
/-- `fmin` (R377, R378). -/
def fMin (f : Fmt) (a b : Nat) : Nat :=
  let x := decodeVal f a; let y := decodeVal f b
  if x.isNan && y.isNan then f.nanCode else if x.isNan then b else if y.isNan then a else if fLess y x then b else a
/-- `fmax` (R377, R378). -/
def fMax (f : Fmt) (a b : Nat) : Nat :=
  let x := decodeVal f a; let y := decodeVal f b
  if x.isNan && y.isNan then f.nanCode else if x.isNan then b else if y.isNan then a else if fLess x y then b else a
/-- `fabs` clears the sign bit alone (R378). -/
def fAbs (f : Fmt) (a : Nat) : Nat := a % 2 ^ (f.ebits + f.mbits)
/-- `fneg` inverts the sign bit alone (R378). -/
def fNeg (f : Fmt) (a : Nat) : Nat := (a + 2 ^ (f.ebits + f.mbits)) % 2 ^ f.width

/-- The relation of an `fcmp` by its FN (R381). -/
def fCompare (fn a b : Nat) : Bool :=
  let x := decodeVal fmtFP32 a; let y := decodeVal fmtFP32 b
  match fn with
  | 0 => Val.eq x y
  | 1 => !Val.eq x y
  | 2 => Val.lt x y
  | 3 => Val.le x y
  | 4 => Val.lt y x
  | 5 => Val.le y x
  | 6 => x.isNan || y.isNan
  | _ => !(x.isNan || y.isNan)

/-- The integer nearest `v` in a mode (R231), for a finite value, and whether it differs from `v`. -/
def roundToInt (mode : Mode) (draw : Nat) (neg : Bool) (m : Nat) (e : Int) : Int × Bool :=
  if 0 ≤ e then ((if neg then -((m : Int) * 2 ^ e.toNat) else (m : Int) * 2 ^ e.toNat), false)
  else
    let shift := (-e).toNat
    let q := m / 2 ^ shift
    let rem := m % 2 ^ shift
    let r := if roundsUp mode neg q rem shift draw false then q + 1 else q
    ((if neg then -(r : Int) else (r : Int)), decide (rem ≠ 0))

/-- `frnd` (R382). -/
def fRoundIntegral (mode : Mode) (a : Nat) : Nat :=
  match decodeVal fmtFP32 a with
  | .nan => fmtFP32.nanCode
  | .inf _ => a
  | .fin neg m e =>
    if 0 ≤ e || m = 0 then a
    else
      let (i, _) := roundToInt mode 0 neg m e
      (roundVal fmtFP32 .nearest 0 (.fin neg i.natAbs 0)).code

/-- Whether an element code of R230 is a float format. -/
def isFloatCode (c : Nat) : Bool := decide (c < 6)
/-- The bits of an element code (R225, R230). -/
def codeBits (c : Nat) : Nat :=
  match c with
  | 0 => 32 | 1 => 16 | 2 => 16 | 3 => 8 | 4 => 8 | 5 => 4 | 6 => 8 | 7 => 8 | 8 => 16 | 9 => 16 | 10 => 32 | 11 => 32 | _ => 64
/-- The even integer codes of R230 are signed. -/
def codeSigned (c : Nat) : Bool := decide (c % 2 = 0)

/-- `SatS` and `SatN` of R8: the nearest value of the integer format, and whether it saturated. (in part DEDUCED, log entry 26) -/
def saturateTo (dt : Nat) (i : Int) : Int × Bool :=
  let n := codeBits dt
  let lo : Int := if codeSigned dt then -(2 ^ (n - 1)) else 0
  let hi : Int := if codeSigned dt then 2 ^ (n - 1) - 1 else 2 ^ n - 1
  if i < lo then (lo, true) else if hi < i then (hi, true) else (i, false)

/-- An integer result in its register: s8 and s16 sign-extended to 32 bits, others zero-extended (R384). (in part DEDUCED, log entry 26) -/
def placeInt (dt : Nat) (i : Int) : Nat :=
  if codeBits dt = 64 then wrapTo 64 i
  else if codeSigned dt then wrapTo 32 i else wrapTo (codeBits dt) i

/-- `cvt` (R384): the destination value and the flags. (in part DEDUCED, log entry 26) -/
def convert (st dt : Nat) (mode : Mode) (draw x : Nat) : Rounded :=
  if isFloatCode st then
    let v := decodeVal (fmtOf st) (x % 2 ^ codeBits st)
    if isFloatCode dt then
      -- a NaN input sets no flag, an infinity that is held sets SAT and NX: as `roundVal` gives them
      roundVal (fmtOf dt) mode draw v
    else match v with
      | .nan => ⟨0, flagNV⟩
      | .inf neg => 
        let n := codeBits dt
        let i : Int := if neg then (if codeSigned dt then -(2 ^ (n - 1)) else 0) else (if codeSigned dt then 2 ^ (n - 1) - 1 else 2 ^ n - 1)
        ⟨placeInt dt i, { noFlags with nv := true, sat := true }⟩
      | .fin neg m e =>
        let (i, inexact) := roundToInt mode draw neg m e
        let (j, sat) := saturateTo dt i
        ⟨placeInt dt j, { noFlags with sat := sat, nx := inexact }⟩
  else
    let i : Int := if codeSigned st then signedOf (codeBits st) x else (x % 2 ^ codeBits st : Nat)
    if isFloatCode dt then
      -- R384 lists OF and NX alone for this row
      let r := roundVal (fmtOf dt) mode draw (Val.ofInt i 0 false)
      ⟨r.code, { noFlags with of := r.flags.of, nx := r.flags.nx }⟩
    else
      let (j, sat) := saturateTo dt i
      ⟨placeInt dt j, { noFlags with sat := sat }⟩

/-- Whether a conversion takes its draw (R384): under `.sr`, unless it is from integer to integer. -/
def convertDraws (st dt : Nat) (mode : Mode) : Bool :=
  decide (mode = .stochastic) && (isFloatCode st || isFloatCode dt)

end Sys2Proof.Machine
end

