-- ==== Sys2Proof/Machine/Xfn.lean ====
section
/-!
DEFINITION. The transcendental functions of R253 to R255: the reproducible opcodes, which round the exact value once to FP32, and the
fast opcodes, whose result is a free value within the bound that the spec gives. The exact value is bracketed in fixed point at more than
500 bits after the point, far beyond what any FP32 rounding decision needs (DESIGN CHOICE, log entry 20).
-/
namespace Sys2Proof.Machine

/-- The integer square root, one bit at a time from bit `k - 1` down. -/
def isqrtFrom : Nat → Nat → Nat → Nat
  | 0, acc, _ => acc
  | k + 1, acc, n => isqrtFrom k (if (acc + 2 ^ k) * (acc + 2 ^ k) ≤ n then acc + 2 ^ k else acc) n

/-- The largest integer whose square is at most `n`. -/
def isqrt (n : Nat) : Nat := isqrtFrom (Nat.log2 n / 2 + 1) 0 n

/-- The bits after the point of the fixed-point values below. (in part DESIGN CHOICE, log entry 20) -/
def fixBits : Nat := 768
/-- π in fixed point, rounded down. -/
def fixPi : Nat := 4877379433337147730785367636783184438106629544617005312117094624703067483921226022338309556503443306860806188903176291743533035472145733148871978886168796592731366023201732593643478734362637387390638076433575349658271570922316398230
/-- ln 2 in fixed point, rounded down. -/
def fixLn2 : Nat := 1076123538446541333968489415169508432842224177958106255750164252522041785147201710082978113221671954702078954257097489908144997250800824807918110090822149185963696392723534394238453863706452940795345033951805530581513038384565057355

/-- The sum of `t^k / k!` from `k` on, where `term` is the term of index `k - 1`. -/
def expTail : Nat → Nat → Nat → Nat → Nat
  | 0, _, _, _ => 0
  | n + 1, k, term, t =>
    let u := term * t / 2 ^ fixBits / k
    u + expTail n (k + 1) u t

/-- `e^t` for `0 ≤ t < 1`, in fixed point. -/
def fixExp (t : Nat) : Nat := 2 ^ fixBits + expTail 160 1 (2 ^ fixBits) t

/-- The sum of `z^(2k+1) / (2k+1)`, where `p` is `z^(2k+1)`. -/
def atanhTail : Nat → Nat → Nat → Nat → Nat
  | 0, _, _, _ => 0
  | n + 1, k, p, zz => p / k + atanhTail n (k + 2) (p * zz / 2 ^ fixBits) zz

/-- `2 atanh z` for `0 ≤ z < 1/2`, in fixed point. -/
def fixTwoAtanh (z : Nat) : Nat := 2 * atanhTail 260 1 z (z * z / 2 ^ fixBits)

/-- The alternating series `term - term·rr/(k(k+1)) + …` of the sine and the cosine. -/
def trigTail : Nat → Nat → Int → Int → Int
  | 0, _, _, _ => 0
  | n + 1, k, term, rr =>
    let u := -(term * rr / 2 ^ fixBits / (k * (k + 1) : Nat))
    u + trigTail n (k + 2) u rr

/-- `sin r` for `0 ≤ r < 2`, in fixed point. -/
def fixSin (r : Nat) : Int := (r : Int) + trigTail 100 2 r ((r : Int) * r / 2 ^ fixBits)
/-- `cos r` for `0 ≤ r < 2`, in fixed point. -/
def fixCos (r : Nat) : Int := (2 ^ fixBits : Int) + trigTail 100 1 (2 ^ fixBits) ((r : Int) * r / 2 ^ fixBits)

/-- The exact result of a function: a special case of R255 with its flags, or a real whose magnitude is `m × 2^e`, or lies just above
that where `more`. -/
inductive XRes
  | special (code : Nat) (flags : FlagSet)
  | real (neg : Bool) (m : Nat) (e : Int) (more : Bool)
  deriving DecidableEq, Repr, Inhabited

/-- The canonical NaN with NV: an invalid argument (R255). -/
def xInvalid : XRes := .special fmtFP32.nanCode flagNV
/-- A NaN operand gives the canonical NaN (R255). -/
def xNan : XRes := .special fmtFP32.nanCode noFlags
/-- A signed infinity, with DZ or without. -/
def xInf (neg dz : Bool) : XRes := .special (fmtFP32.signed neg fmtFP32.infCode) (if dz then flagDZ else noFlags)
/-- A signed zero. -/
def xZero (neg : Bool) : XRes := .special (fmtFP32.signed neg 0) noFlags

/-- The quotient of two nonzero magnitudes. -/
def xQuot (neg : Bool) (ma : Nat) (ea : Int) (mb : Nat) (eb : Int) : XRes :=
  let k := Nat.log2 mb + 80
  .real neg (ma * 2 ^ k / mb) (ea - eb - k) (decide (ma * 2 ^ k % mb ≠ 0))

/-- `a / b` (R255). -/
def xDiv : Val → Val → XRes
  | .nan, _ => xNan
  | _, .nan => xNan
  | .inf _, .inf _ => xInvalid
  | .inf a, .fin b _ _ => xInf (xor a b) false
  | .fin a _ _, .inf b => xZero (xor a b)
  | .fin a ma ea, .fin b mb eb =>
    if mb = 0 then (if ma = 0 then xInvalid else xInf (xor a b) true)
    else if ma = 0 then xZero (xor a b)
    else xQuot (xor a b) ma ea mb eb

/-- `√x` (R255). -/
def xSqrt : Val → XRes
  | .nan => xNan
  | .inf n => if n then xInvalid else xInf false false
  | .fin n m e =>
    if m = 0 then xZero n
    else if n then xInvalid
    else
      let m' := if e % 2 = 0 then m else 2 * m
      let e' := if e % 2 = 0 then e else e - 1
      let r := isqrt (m' * 2 ^ 160)
      .real false r (e' / 2 - 80) (decide (r * r ≠ m' * 2 ^ 160))

/-- `1 / √x` (R255). -/
def xRsq : Val → XRes
  | .nan => xNan
  | .inf n => if n then xInvalid else xZero false
  | .fin n m e =>
    if m = 0 then xInf n true
    else if n then xInvalid
    else
      let m' := if e % 2 = 0 then m else 2 * m
      let e' := if e % 2 = 0 then e else e - 1
      let k := Nat.log2 m' + 100
      let r := isqrt (2 ^ (2 * k) / m')
      .real false r (-(e' / 2) - k) (decide (r * r * m' ≠ 2 ^ (2 * k)))

/-- `2^x` (R255). Beyond ±400 the result lies beyond every finite or nonzero FP32 value, and a bound stands for it. -/
def xExp2 : Val → XRes
  | .nan => xNan
  | .inf n => if n then xZero false else xInf false false
  | .fin n m e =>
    let sm : Int := if n then -(m : Int) else m
    if 0 ≤ e then
      let i : Int := sm * 2 ^ e.toNat
      if 400 < i then .real false 1 400 false else if i < -400 then .real false 1 (-400) false else .real false 1 i false
    else
      let d : Int := 2 ^ (-e).toNat
      let i := sm / d
      let fr := (sm % d).toNat
      if 400 < i then .real false 1 400 true
      else if i < -400 then .real false 1 (-400) true
      else if fr = 0 then .real false 1 i false
      else .real false (fixExp (fr * 2 ^ fixBits / d.toNat * fixLn2 / 2 ^ fixBits)) (i - fixBits) true

/-- `log2 x` (R255). -/
def xLog2 : Val → XRes
  | .nan => xNan
  | .inf n => if n then xInvalid else xInf false false
  | .fin n m e =>
    if m = 0 then xInf true true
    else if n then xInvalid
    else
      let l := Nat.log2 m
      let w : Int := l + e
      if m = 2 ^ l then (if w = 0 then xZero false else .real (decide (w < 0)) w.natAbs 0 false)
      else
        let z := (m - 2 ^ l) * 2 ^ fixBits / (m + 2 ^ l)
        let t : Int := w * 2 ^ fixBits + (fixTwoAtanh z * 2 ^ fixBits / fixLn2 : Nat)
        .real (decide (t < 0)) (t.natAbs - 2 ^ 20) (-(fixBits : Int)) true

/-- The quadrant of a finite magnitude and its distance above it, in fixed point. -/
def trigReduce (m : Nat) (e : Int) : Nat × Nat :=
  let x := m * 2 ^ (e + fixBits).toNat
  (x / (fixPi / 2) % 4, x % (fixPi / 2))

/-- A real from a signed fixed-point value, taken just below its magnitude. -/
def xOfFix (flip : Bool) (t : Int) : XRes := .real (xor flip (decide (t < 0))) (t.natAbs - 2 ^ 150) (-(fixBits : Int)) true

/-- `sin x`, x in radians (R255). -/
def xSin : Val → XRes
  | .nan => xNan
  | .inf _ => xInvalid
  | .fin n m e =>
    if m = 0 then xZero n
    else
      let (q, r) := trigReduce m e
      xOfFix n (match q with | 0 => fixSin r | 1 => fixCos r | 2 => -fixSin r | _ => -fixCos r)

/-- `cos x`, x in radians (R255). -/
def xCos : Val → XRes
  | .nan => xNan
  | .inf _ => xInvalid
  | .fin _ m e =>
    if m = 0 then .special 0x3F800000 noFlags
    else
      let (q, r) := trigReduce m e
      xOfFix false (match q with | 0 => fixCos r | 1 => -fixSin r | 2 => -fixCos r | _ => fixSin r)

/-- `tanh x` (R255). Above 64 the result lies between 1 − 2^−100 and 1. -/
def xTanh : Val → XRes
  | .nan => xNan
  | .inf n => .special (fmtFP32.signed n 0x3F800000) noFlags
  | .fin n m e =>
    if m = 0 then xZero n
    else if Val.lt (.fin false 64 0) (.fin false m e) then .real n (2 ^ 100 - 1) (-100) true
    else
      let u := 2 * (m * 2 ^ (e + fixBits).toNat)
      let ex := fixExp (u % fixLn2) * 2 ^ (u / fixLn2)
      .real n ((ex - 2 ^ fixBits) * 2 ^ fixBits / (ex + 2 ^ fixBits) - 2 ^ 150) (-(fixBits : Int)) true

/-- The function of an XFN code: 0 to 7 as R383 numbers them, 8 for tanh. (in part DESIGN CHOICE, log entry 20) -/
def xExact (fn a b : Nat) : XRes :=
  let x := decodeVal fmtFP32 a
  match fn with
  | 0 => xDiv (.fin false 1 0) x
  | 1 => xRsq x
  | 2 => xSqrt x
  | 3 => xDiv x (decodeVal fmtFP32 b)
  | 4 => xExp2 x
  | 5 => xLog2 x
  | 6 => xSin x
  | 7 => xCos x
  | _ => xTanh x

/-- A reproducible opcode (R254): the exact value rounded once, with the flags of R383. (in part DESIGN CHOICE, log entry 20) -/
def xReproducible (fn a b : Nat) : Rounded :=
  match xExact fn a b with
  | .special c f => ⟨c, f⟩
  | .real n m e more => roundVal fmtFP32 .nearest 0 (.fin n m e) more

/-- The bound of a fast opcode in ulps (R253). -/
def fastUlps (fn : Nat) : Nat :=
  match fn with
  | 0 => 1 | 1 => 2 | 2 => 1 | _ => 2

/-- Whether `|cand − exact| ≤ k × 2^u`, where the exact magnitude is `m × 2^e` or just above it. -/
def withinUnits (cand : Val) (neg : Bool) (m : Nat) (e : Int) (more : Bool) (k : Nat) (u : Int) : Bool :=
  match cand with
  | .fin cn cm ce =>
    let e0 := min (min ce e) u
    let c := Val.scaled cn cm ce e0
    let x := Val.scaled neg m e e0
    let lim := Val.scaled false k u e0
    let d := (if neg then -1 else 1) * (c - x)
    if more && decide (d ≤ 0) then decide (-d < lim) else decide (d.natAbs ≤ lim)
  | _ => false

/-- Whether a code lies within the bound of R253 for a real result. (in part DESIGN CHOICE, log entry 11) -/
def fastWithin (fn a cand : Nat) (neg : Bool) (m : Nat) (e : Int) (more : Bool) : Bool :=
  let c := decodeVal fmtFP32 cand
  if fn = 6 || fn = 7 then
    (if Val.le (decodeVal fmtFP32 a).abs (.fin false (100 * fixPi) (-(fixBits : Int))) then withinUnits c neg m e more 1 (-21)
     else Val.le c.abs (.fin false 1 0))
  else
    let unit := max ((Nat.log2 m : Int) + e - 23) (-149)
    withinUnits c neg m e more (fastUlps fn) unit ||
      (decide (fn = 5) && Val.lt (.fin false 3 (-2)) (decodeVal fmtFP32 a) && Val.lt (decodeVal fmtFP32 a) (.fin false 5 (-2)) &&
        withinUnits c neg m e more 1 (-22))

/-- A fast opcode (R254): the part's own code where it lies within the bound of R253, else the reproducible one. The special results of
R255, an overflow and an underflow are fixed. Only NV and DZ are raised (R383). (in part DESIGN CHOICE, log entry 11) -/
def xFast (fn a b : Nat) : Rounded :=
  match xExact fn a b with
  | .special c f => ⟨c, f⟩
  | .real n m e more =>
    let r := roundVal fmtFP32 .nearest 0 (.fin n m e) more
    if (decodeVal fmtFP32 r.code).isInf || (decide (fn = 4) && Val.lt (.fin false m e) (.fin false 1 (-126))) then ⟨r.code, noFlags⟩
    else
      let cand := (Config.fastResult fn a b).toNat
      ⟨if fastWithin fn a cand n m e more then cand else r.code, noFlags⟩

end Sys2Proof.Machine
end

