-- ==== Sys2Proof/Machine/Blocks.lean ====
section
/-!
DEFINITION. Format slots (R242, R243), scaled blocks (R235 to R241), the fixed order of sums (R244 to R246), split accumulators
(R247 to R249) and the arithmetic of a drain (R250).
-/
namespace Sys2Proof.Machine

/-- A format slot (R242). -/
structure Slot where
  efmt : Nat
  blk : Nat
  sfmt : Nat
  spen : Bool
  rnd : Nat
  deriving DecidableEq, Repr, Inhabited

/-- The fields of a descriptor (R242). -/
def slotOf (x : Nat) : Slot := ⟨x % 16, x / 16 % 2, x / 32 % 4, decide (x / 128 % 2 = 1), x / 256 % 8⟩

/-- A descriptor that holds no reserved encoding (R243). -/
def slotLegal (x : Nat) : Bool :=
  let s := slotOf x
  decide (x < 2048) && decide (s.efmt < 6) && decide (s.sfmt < 2) && decide (s.rnd < 5) &&
    !(decide (s.sfmt = 1) && decide (s.efmt < 3)) && !(decide (s.sfmt = 0) && (decide (s.blk = 1) || s.spen)) &&
    !(s.spen && decide (s.efmt ≠ 5))

/-- Elements of a block of the slot (R236, R238). -/
def Slot.len (s : Slot) : Nat := if s.blk = 0 then 32 else 16

/-- Codes packed into bytes (R236): two E2M1 codes share a byte, the even element in bits [3:0]. -/
def packCodes (efmt : Nat) (cs : List Nat) : List Nat :=
  match codeBits efmt with
  | 4 => (List.range ((cs.length + 1) / 2)).map fun i => cs.getD (2 * i) 0 % 16 + 16 * (cs.getD (2 * i + 1) 0 % 16)
  | n => cs.flatMap fun c => (List.range (n / 8)).map fun k => c / 256 ^ k % 256

/-- Element `i` of an array of codes packed in bytes (R236). -/
def codeAt (efmt : Nat) (bytes : List Nat) (i : Nat) : Nat :=
  match codeBits efmt with
  | 4 => bytes.getD (i / 2) 0 / (if i % 2 = 0 then 1 else 16) % 16
  | n => ((List.range (n / 8)).map fun k => bytes.getD (n / 8 * i + k) 0 * 256 ^ k).sum

/-- The special value of a special byte (R237). -/
def specialOf (sp : Nat) : Option Val :=
  if sp % 128 = 0 || sp % 128 = 127 then none else some (decodeVal fmtE4M3 sp)

/-- The value of an element code, where `0b1000` of E2M1 decodes to the special value (R237). -/
def decodeElem (efmt sp c : Nat) : Val :=
  if efmt = 5 && c % 16 = 8 then (specialOf sp).getD (.fin false 0 0) else decodeVal (fmtOf efmt) c

/-- `Dec` of an element of a scaled or unscaled array, its scale included (R240, R244): no rounding. -/
def elemValue (s : Slot) (scale sp c : Nat) : Val :=
  if s.sfmt = 0 then decodeVal (fmtOf s.efmt) c
  else if scale = 255 then .nan else (decodeElem s.efmt sp c).scale2 ((scale : Int) - 127)

/-- A value as a whole number of units of `2^e0`, where `e0` is no larger than its exponent. -/
def unitsOf (v : Val) (e0 : Int) : Int :=
  match v with
  | .fin n m e => Val.scaled n m e e0
  | _ => 0

/-- The standard values of E2M1 in halves, with their codes (R229). -/
def e2m1Standard : List (Int × Nat) :=
  [(-12, 15), (-8, 14), (-6, 13), (-4, 12), (-3, 11), (-2, 10), (-1, 9), (0, 0), (1, 1), (2, 2), (3, 3), (4, 4), (6, 5), (8, 6), (12, 7)]

/-- The nearer of two candidates to `v`; a tie goes to the code whose bit 0 is 0. -/
def nearer (v : Int) (a b : Int × Nat) : Int × Nat :=
  if (v - b.1).natAbs < (v - a.1).natAbs || (decide ((v - b.1).natAbs = (v - a.1).natAbs) && decide (b.2 % 2 = 0)) then b else a

/-- `RoundE2M1S` (R239): the code, whether it is inexact, and whether it was held at an extreme candidate. -/
def roundE2M1S (v : Val) (sp : Nat) (mode : Mode) (draw : Nat) : Nat × Bool × Bool :=
  match v with
  | .fin _ _ ve =>
    let e0 := min ve (-9)
    let x := unitsOf v e0
    let std := e2m1Standard.map fun c => (c.1 * 2 ^ (-1 - e0).toNat, c.2)
    let s : List (Int × Nat) :=
      match specialOf sp with
      | none => []
      | some w => if std.any (fun c => c.1 == unitsOf w e0) then [] else [(unitsOf w e0, 8)]
    let all := std ++ s
    let lo := (all.filter fun c => decide (c.1 ≤ x)).foldl (fun a c => match a with
      | none => some c | some b => if b.1 < c.1 then some c else some b) (none : Option (Int × Nat))
    let hi := (all.filter fun c => decide (x ≤ c.1)).foldl (fun a c => match a with
      | none => some c | some b => if c.1 < b.1 then some c else some b) (none : Option (Int × Nat))
    match lo, hi with
    | none, none => (0, false, false)
    | some l, none => (l.2, true, true)
    | none, some h => (h.2, true, true)
    | some l, some h =>
      if l.1 = h.1 then (l.2, false, false)
      else match mode with
        | .nearest =>
          let c := std.foldl (nearer x) (0, 0)
          match s with
          | sv :: _ => if (x - sv.1).natAbs < (x - c.1).natAbs then (sv.2, true, false) else (c.2, true, false)
          | [] => (c.2, true, false)
        | .zero => (if 0 < x then l.2 else h.2, true, false)
        | .down => (l.2, true, false)
        | .up => (h.2, true, false)
        | .stochastic =>
          (if ((draw / 256 % 16777216 : Nat) : Int) * (h.1 - l.1) < (x - l.1) * 16777216 then h.2 else l.2, true, false)
  | .inf n => (if n then 15 else 7, true, true)
  | .nan => (0, false, false)

/-- EMAX of R238. -/
def emaxOf (efmt : Nat) : Int :=
  match efmt with
  | 3 => 8 | 4 => 15 | _ => 2

/-- A quantised block: codes, scale byte, special byte, and the flags NX, SAT and NV of R385. -/
structure QBlock where
  codes : List Nat
  scale : Nat
  special : Nat
  flags : FlagSet
  deriving DecidableEq, Repr, Inhabited

/-- The larger of two magnitudes. -/
def maxMag (a b : Val) : Val := if Val.lt a.abs b.abs then b.abs else a.abs

/-- Whether a block is resolved by step 1 of R238, and so takes no draw. -/
def blockNonFinite (xs : List Val) : Bool := xs.any fun x => x.isNan || x.isInf

/-- `QuantBlock` (R238, R241). -/
def quantBlock (s : Slot) (xs : List Val) (draws : List Nat) : QBlock :=
  if blockNonFinite xs then
    ⟨List.replicate xs.length 0, 255, 0, if xs.any Val.isInf then flagNV else noFlags⟩
  else
    let amax := xs.foldl maxMag (.fin false 0 0)
    let e : Int := match amax with
      | .fin _ m ex => if m = 0 then 127 else max 0 (min 254 ((Nat.log2 m : Int) + ex - emaxOf s.efmt + 127))
      | _ => 127
    let k := 127 - e
    let sp := if s.efmt = 5 && s.spen && !amax.isZero then
        match xs.find? (fun x => Val.eq x.abs amax) with
        | some x => (roundVal fmtE4M3 .nearest 0 (x.scale2 k)).code
        | none => 0
      else 0
    let one (i : Nat) (x : Val) : Nat × FlagSet :=
      if s.efmt = 5 then
        let (c, nx, sat) := roundE2M1S (x.scale2 k) sp (modeOf s.rnd) (draws.getD i 0)
        (c, { noFlags with nx := nx, sat := sat })
      else
        let r := roundVal (fmtOf s.efmt) (modeOf s.rnd) (draws.getD i 0) (x.scale2 k)
        (r.code, { noFlags with nx := r.flags.nx, sat := r.flags.sat })
    let rs := xs.mapIdx one
    ⟨rs.map Prod.fst, e.toNat, sp, orAllFlags (rs.map Prod.snd)⟩

/-- One element of `DequantBlock` (R240), with the flags of its rounding (R386). -/
def dequantElem (s : Slot) (scale sp c : Nat) : Rounded :=
  roundVal fmtFP32 .nearest 0 (elemValue s scale sp c)

/-! ## Sum order -/

/-- The rounded sum of two values as a value, with its flags (R245). -/
def addRounded (a b : Val) : Val × FlagSet :=
  let r := finish fmtFP32 .nearest 0 [a, b] (Val.add false a b)
  (decodeVal fmtFP32 r.code, r.flags)

/-- One level of `Tree32` (R245); an absent leaf passes its sibling through. -/
def treeLevel : List (Option Val) → List (Option Val) × FlagSet
  | [] => ([], noFlags)
  | [a] => ([a], noFlags)
  | a :: b :: rest =>
    let (tl, f) := treeLevel rest
    match a, b with
    | none, b => (b :: tl, f)
    | some x, none => (some x :: tl, f)
    | some x, some y =>
      let (s, g) := addRounded x y
      (some s :: tl, orFlags f g)

/-- `Tree32` (R245) on 32 leaves, and the flags of its additions. -/
def tree32 (t : List (Option Val)) : Option Val × FlagSet :=
  let (t1, f1) := treeLevel t
  let (t2, f2) := treeLevel t1
  let (t3, f3) := treeLevel t2
  let (t4, f4) := treeLevel t3
  let (t5, f5) := treeLevel t4
  (t5.getD 0 none, orAllFlags [f1, f2, f3, f4, f5])

/-- One block of `SumK` (R245). -/
def sumBlock (acc : Val) (t : List (Option Val)) : Val :=
  match (tree32 t).1 with
  | none => acc
  | some s => (addRounded acc s).1

/-- `SumK` (R245): blocks of 32 terms, taken in ascending K. `blocks` bounds their number. -/
def sumK : Nat → Val → List Val → Val
  | 0, acc, _ => acc
  | n + 1, acc, ts =>
    if ts.isEmpty then acc
    else
      let b := ts.take 32
      sumK n (sumBlock acc (b.map some ++ List.replicate (32 - b.length) none)) (ts.drop 32)

/-! ## Split accumulators -/

/-- U24 (R248) read as a format with 16 mantissa bits and no sign. -/
def fmtU24 : Fmt := ⟨8, 16, 127⟩
/-- The canonical U24 NaN (R248). -/
def u24Nan : Nat := 0xFF8000
/-- The U24 infinity. -/
def u24Inf : Nat := 0xFF0000

/-- A split element (R247). -/
structure SplitElem where
  pmag : Nat
  pcnt : Nat
  nmag : Nat
  ncnt : Nat
  deriving DecidableEq, Repr, Inhabited

/-- The element of its two words (R247). -/
def splitOf (lo hi : Nat) : SplitElem := ⟨lo % 16777216, lo / 16777216 % 256, hi % 16777216, hi / 16777216 % 256⟩
/-- The first word of an element. -/
def SplitElem.word0 (e : SplitElem) : Nat := e.pmag + 16777216 * e.pcnt
/-- The second word of an element. -/
def SplitElem.word1 (e : SplitElem) : Nat := e.nmag + 16777216 * e.ncnt

/-- The flags of AG3 (R251). -/
structure AgFlags where
  rovf : Bool
  ssat : Bool
  csat : Bool
  snan : Bool
  deriving DecidableEq, Repr, Inhabited

def noAg : AgFlags := ⟨false, false, false, false⟩
def orAg (a b : AgFlags) : AgFlags := ⟨a.rovf || b.rovf, a.ssat || b.ssat, a.csat || b.csat, a.snan || b.snan⟩
/-- The bits of AG3 (R251). -/
def agBits (f : AgFlags) : Nat := bitOf f.rovf + 2 * bitOf f.ssat + 4 * bitOf f.csat + 8 * bitOf f.snan

/-- `RndU24` (R248), and whether it saturates. -/
def rndU24 (v : Val) : Nat × Bool :=
  if Val.lt (decodeVal fmtU24 fmtU24.maxCode) v then (fmtU24.maxCode, true) else ((roundVal fmtU24 .nearest 0 v).code, false)

/-- `AddU24` (R249). -/
def addU24 (h : Nat) (s : Option Val) : Nat × Bool :=
  match s with
  | none => (h, false)
  | some v =>
    let d := decodeVal fmtU24 h
    if d.isNan then (h, false) else if d.isInf || v.isInf then (u24Inf, false) else rndU24 (Val.add false d v)

/-- `SplitBlock` (R249). -/
def splitBlock (e : SplitElem) (t : List (Option Val)) : SplitElem × AgFlags :=
  if t.any (fun x => match x with | some .nan => true | _ => false) then
    ({ e with pmag := u24Nan, nmag := u24Nan }, { noAg with snan := true })
  else
    let pl := t.map fun x => match x with | some v => if Val.lt (.fin false 0 0) v then some v else none | none => none
    let nl := t.map fun x => match x with | some v => if Val.lt v (.fin false 0 0) then some v.neg else none | none => none
    let np := (pl.filter Option.isSome).length
    let nn := (nl.filter Option.isSome).length
    let (p, sp) := addU24 e.pmag (tree32 pl).1
    let (n, sn) := addU24 e.nmag (tree32 nl).1
    (⟨p, min 255 (e.pcnt + np), n, min 255 (e.ncnt + nn)⟩,
      { noAg with ssat := sp || sn, csat := decide (255 < e.pcnt + np) || decide (255 < e.ncnt + nn) })

/-- The four modes of a drain (R250). -/
inductive DrainMode
  | norm | diff | ratio | gate
  deriving DecidableEq, Repr, Inhabited

/-- Whether an entry is gated (R250). -/
def gated (thr floor : Nat) (e : SplitElem) (p n : Val) : Bool :=
  (decide (e.pcnt < floor) && decide (e.ncnt < floor)) || (Val.add false p n).isZero ||
    (!p.isInf && !n.isInf &&
      Val.lt ((Val.add false p n.neg).abs.scale2 16) (Val.mul (.fin false thr 0) (Val.add false p n)))

/-- The FP32 code of an exact value, rounded to nearest-even. -/
def code32 (v : Val) : Nat := (roundVal fmtFP32 .nearest 0 v).code

/-- The drain of one element (R250): one code, or two for `norm`, and the AG3 flags. -/
def drainElem (mode : DrainMode) (rovfpol thr floor : Nat) (e : SplitElem) : List Nat × AgFlags :=
  let p := decodeVal fmtU24 e.pmag
  let n := decodeVal fmtU24 e.nmag
  let qnan := fmtFP32.nanCode
  let snan := { noAg with snan := true }
  let one (c : Nat) : List Nat × AgFlags := ([c], noAg)
  let two : List Nat × AgFlags := ([code32 p, code32 n], noAg)
  let diff := code32 (Val.add false p n.neg)
  let gateRes := if gated thr floor e p n then one 0 else one diff
  if p.isNan || n.isNan then (match mode with | .norm => ([qnan, qnan], snan) | _ => ([qnan], snan))
  else if p.isInf && n.isInf then (match mode with | .norm => two | _ => ([qnan], snan))
  else if p.isZero && n.isZero then (match mode with | .norm => ([0, 0], noAg) | _ => one 0)
  else match mode with
    | .norm => two
    | .diff => one diff
    | .gate => gateRes
    | .ratio =>
      if p.isZero then
        ([match rovfpol with | 0 => 0x7F7FFFFF | 1 => 0x7F800000 | _ => 0], { noAg with rovf := true })
      else if p.isInf then one 0
      else match xDiv n p with
        | .special c _ => one c
        | .real s m ex more => one (roundVal fmtFP32 .nearest 0 (.fin s m ex) more).code

end Sys2Proof.Machine
end

