-- ==== Sys2Proof/WellFormed.lean ====
section
/-!
DEFINITION. Which instructions the encodings admit: the register classes of R351, the unassigned codes of R353, and the field rules
that each instruction of the lane and group sets states. A word whose fields break one of these raises ILLOP (R354).
-/

namespace Sys2Proof
namespace Wf

/-- The guard names one of eight predicates (R349). -/
def guard (g : Guard) : Bool := decide (g.p < 8)
/-- Class V as a destination (R351): 61 to 63 are read-only. -/
def dstV (k : Nat) : Bool := decide (k ≤ 60)
/-- Class V as a source (R351). -/
def srcV (k : Nat) : Bool := decide (k < 64)
/-- Class W (R351): 0 to 29, and 60 for the zero pair. -/
def regW (k : Nat) : Bool := decide (k < 30) || decide (k = 60)
/-- Class T (R351). -/
def regT (k : Nat) : Bool := decide (k < 16)
/-- Class A (R351). -/
def regA (k : Nat) : Bool := decide (k < 8)
/-- Class P (R351). -/
def regP (k : Nat) : Bool := decide (k < 8)
/-- Class G (R351). -/
def regG (k : Nat) : Bool := decide (k < 64)
/-- Class Q (R351). -/
def regQ (k : Nat) : Bool := decide (k < 8)
/-- Four consecutive V registers V(D) to V(D+3) (R453), or 60. -/
def run4 (k : Nat) : Bool := decide (k ≤ 56) || decide (k = 60)
/-- Three consecutive V registers V(B) to V(B+2) (R456). -/
def run3 (k : Nat) : Bool := decide (k ≤ 57)
/-- A record field (R454): the half of a T register. -/
def recF (k : Nat) : Bool := decide (k < 32)
/-- A W pair of a b128 access (R351): an even code whose pair exists, or 60. -/
def pairW (k : Nat) : Bool := (decide (k < 29) && decide (k % 2 = 0)) || decide (k = 60)
/-- The destination of a long load by its FN (R398). -/
def ldDst (f d : Nat) : Bool := if f < 5 then dstV d else if f = 5 then regW d else pairW d
/-- The data of a long store by its FN (R398). -/
def stSrc (f d : Nat) : Bool := if f < 3 then srcV d else if f = 3 then regW d else pairW d
/-- A nonzero swizzle is legal in `.sp`, `.cl` and `.ch` alone (R181). -/
def swzOk (space swz : Nat) : Bool := decide (swz < 8) && (decide (swz = 0) || (decide (1 ≤ space) && decide (space ≤ 3)))
/-- The pixel class of R400: only in `.gm`, and then with ORD 0. -/
def clsOk (m : MemX) : Bool := decide (m.cls = 0) || (decide (m.cls ≤ 2) && decide (m.space = 4) && decide (m.ord = 0))
/-- The second word of a load (R396, R399, R400): ORD `.rlx` or `.acq`. -/
def okLoad (m : MemX) : Bool :=
  decide (m.space < 6) && clsOk m && decide (m.scope < 10) && decide (m.ord < 2) && swzOk m.space m.swz && decide (m.imm < 65536)
/-- The second word of a store (R396, R399, R400): not `.kc`, ORD `.rlx` or `.rel`. -/
def okStore (m : MemX) : Bool :=
  decide (m.space < 5) && clsOk m && decide (m.scope < 10) && (decide (m.ord = 0) || decide (m.ord = 2)) &&
    swzOk m.space m.swz && decide (m.imm < 65536)
/-- The second word of a gather or scatter (R396, R401). -/
def okGather (m : MemX) : Bool :=
  decide (1 ≤ m.space) && decide (m.space ≤ 4) && decide (m.cls = 0) && decide (m.scope < 10) && decide (m.ord = 0) &&
    swzOk m.space m.swz && decide (m.imm < 65536)
/-- The second word of an atomic (R396, R403, R406). -/
def okAtom (m : AtomX) : Bool :=
  decide (1 ≤ m.space) && decide (m.space ≤ 4) && decide (m.scope < 10) && decide (m.ord < 4) &&
    swzOk m.space m.swz && decide (m.typ < 8) && decide (m.off < 4096)
/-- The types that each atomic takes (R404), and its data register by the type. -/
def atomTyped (fn typ d : Nat) : Bool :=
  (match fn with
   | 0 => decide (typ = 0) || decide (typ = 3) || decide (typ = 4)
   | 1 | 2 => decide (typ = 1) || decide (typ = 2) || decide (typ = 3) || decide (typ = 5) || decide (typ = 6)
   | 6 => decide (typ = 0) || decide (typ = 4) || decide (typ = 7)
   | _ => decide (typ = 0) || decide (typ = 4)) &&
  (if typ < 4 then dstV d else if typ < 7 then regW d else pairW d)
/-- The types of `cas` and its register run (R404). -/
def casTyped (typ d : Nat) : Bool :=
  (decide (typ = 4) && decide (d ≤ 28)) || (decide (typ = 7) && decide (d ≤ 26) && decide (d % 2 = 0))
/-- The destination of `cvt` by its format (R384). -/
def cvtDst (dt d : Nat) : Bool := if dt < 12 then dstV d else regW d
/-- The source of `cvt` by its format (R384). -/
def cvtSrc (st a : Nat) : Bool := if st < 12 then srcV a else regW a
/-- The control registers of R358. -/
def csrListed (c : Nat) : Bool :=
  decide (c ∈ [0x10, 0x11, 0x12, 0x14, 0x15, 0x16, 0x18, 0x19, 0x1a, 0x20, 0x21, 0x22, 0x23, 0x24, 0x25, 0x30, 0x31, 0x32])

end Wf

open Wf in
/-- Every field of the instruction is one that its encoding and its description admit (R351, R353). A row that is an event of the
part has no encoding and nothing to check here. -/
def Instr.wf : Instr → Bool
  | .addB32 g d a b => guard g && dstV d && srcV a && srcV b
  | .subB32 g d a b => guard g && dstV d && srcV a && srcV b
  | .mulB32 g d a b => guard g && dstV d && srcV a && srcV b
  | .mulhiS32 g d a b => guard g && dstV d && srcV a && srcV b
  | .mulhiN32 g d a b => guard g && dstV d && srcV a && srcV b
  | .absS32 g d a => guard g && dstV d && srcV a
  | .negS32 g d a => guard g && dstV d && srcV a
  | .minS32 g d a b => guard g && dstV d && srcV a && srcV b
  | .maxS32 g d a b => guard g && dstV d && srcV a && srcV b
  | .minN32 g d a b => guard g && dstV d && srcV a && srcV b
  | .maxN32 g d a b => guard g && dstV d && srcV a && srcV b
  | .minS64 g d a b => guard g && regW d && regW a && regW b
  | .maxS64 g d a b => guard g && regW d && regW a && regW b
  | .minN64 g d a b => guard g && regW d && regW a && regW b
  | .maxN64 g d a b => guard g && regW d && regW a && regW b
  | .addB64 g d a b => guard g && regW d && regW a && regW b
  | .subB64 g d a b => guard g && regW d && regW a && regW b
  | .mulB64 g d a b => guard g && regW d && regW a && regW b
  | .mulhiS64 g d a b => guard g && regW d && regW a && regW b
  | .mulhiN64 g d a b => guard g && regW d && regW a && regW b
  | .absS64 g d a => guard g && regW d && regW a
  | .negS64 g d a => guard g && regW d && regW a
  | .andB32 g d a b => guard g && dstV d && srcV a && srcV b
  | .orB32 g d a b => guard g && dstV d && srcV a && srcV b
  | .xorB32 g d a b => guard g && dstV d && srcV a && srcV b
  | .notB32 g d a => guard g && dstV d && srcV a
  | .popcB32 g d a => guard g && dstV d && srcV a
  | .clzB32 g d a => guard g && dstV d && srcV a
  | .ctzB32 g d a => guard g && dstV d && srcV a
  | .brevB32 g d a => guard g && dstV d && srcV a
  | .shlB32 g d a b => guard g && dstV d && srcV a && srcV b
  | .shrB32 g d a b => guard g && dstV d && srcV a && srcV b
  | .sraB32 g d a b => guard g && dstV d && srcV a && srcV b
  | .rotB32 g d a b => guard g && dstV d && srcV a && srcV b
  | .shlB64 g d a b => guard g && regW d && regW a && srcV b
  | .shrB64 g d a b => guard g && regW d && regW a && srcV b
  | .sraB64 g d a b => guard g && regW d && regW a && srcV b
  | .rotB64 g d a b => guard g && regW d && regW a && srcV b
  | .bfeS32 g d a b => guard g && dstV d && srcV a && srcV b
  | .bfeN32 g d a b => guard g && dstV d && srcV a && srcV b
  | .lea g f d a b => guard g && decide (f < 5) && regW d && regW a && srcV b
  | .cmpS32 g c d a b => guard g && decide (c < 6) && regP d && srcV a && srcV b
  | .cmpN32 g c d a b => guard g && decide (c < 6) && regP d && srcV a && srcV b
  | .cmpS64 g c d a b => guard g && decide (c < 6) && regP d && regW a && regW b
  | .cmpN64 g c d a b => guard g && decide (c < 6) && regP d && regW a && regW b
  | .addB32Imm g d a imm => guard g && dstV d && srcV a && decide (imm < 512)
  | .andB32Imm g d a imm => guard g && dstV d && srcV a && decide (imm < 512)
  | .orB32Imm g d a imm => guard g && dstV d && srcV a && decide (imm < 512)
  | .xorB32Imm g d a imm => guard g && dstV d && srcV a && decide (imm < 512)
  | .shlB32Imm g d a imm => guard g && dstV d && srcV a && decide (imm < 32)
  | .shrB32Imm g d a imm => guard g && dstV d && srcV a && decide (imm < 32)
  | .sraB32Imm g d a imm => guard g && dstV d && srcV a && decide (imm < 32)
  | .faddF32 g d a b => guard g && dstV d && srcV a && srcV b
  | .fsubF32 g d a b => guard g && dstV d && srcV a && srcV b
  | .fmulF32 g d a b => guard g && dstV d && srcV a && srcV b
  | .fminF32 g d a b => guard g && dstV d && srcV a && srcV b
  | .fmaxF32 g d a b => guard g && dstV d && srcV a && srcV b
  | .fabsF32 g d a => guard g && dstV d && srcV a
  | .fnegF32 g d a => guard g && dstV d && srcV a
  | .faddF16x2 g d a b => guard g && dstV d && srcV a && srcV b
  | .fsubF16x2 g d a b => guard g && dstV d && srcV a && srcV b
  | .fmulF16x2 g d a b => guard g && dstV d && srcV a && srcV b
  | .fminF16x2 g d a b => guard g && dstV d && srcV a && srcV b
  | .fmaxF16x2 g d a b => guard g && dstV d && srcV a && srcV b
  | .fabsF16x2 g d a => guard g && dstV d && srcV a
  | .fnegF16x2 g d a => guard g && dstV d && srcV a
  | .faddBf16x2 g d a b => guard g && dstV d && srcV a && srcV b
  | .fsubBf16x2 g d a b => guard g && dstV d && srcV a && srcV b
  | .fmulBf16x2 g d a b => guard g && dstV d && srcV a && srcV b
  | .fminBf16x2 g d a b => guard g && dstV d && srcV a && srcV b
  | .fmaxBf16x2 g d a b => guard g && dstV d && srcV a && srcV b
  | .fabsBf16x2 g d a => guard g && dstV d && srcV a
  | .fnegBf16x2 g d a => guard g && dstV d && srcV a
  | .fcmpF32 g c d a b => guard g && decide (c < 8) && regP d && srcV a && srcV b
  | .frndF32 g m d a => guard g && decide (m < 4) && dstV d && srcV a
  | .rcp g d a => guard g && dstV d && srcV a
  | .rsq g d a => guard g && dstV d && srcV a
  | .sqrt g d a => guard g && dstV d && srcV a
  | .div g d a b => guard g && dstV d && srcV a && srcV b
  | .exp2 g d a => guard g && dstV d && srcV a
  | .log2 g d a => guard g && dstV d && srcV a
  | .sin g d a => guard g && dstV d && srcV a
  | .cos g d a => guard g && dstV d && srcV a
  | .rcpx g d a => guard g && dstV d && srcV a
  | .rsqx g d a => guard g && dstV d && srcV a
  | .sqrtx g d a => guard g && dstV d && srcV a
  | .divx g d a b => guard g && dstV d && srcV a && srcV b
  | .exp2x g d a => guard g && dstV d && srcV a
  | .log2x g d a => guard g && dstV d && srcV a
  | .sinx g d a => guard g && dstV d && srcV a
  | .cosx g d a => guard g && dstV d && srcV a
  | .tanh g d a => guard g && dstV d && srcV a
  | .tanhx g d a => guard g && dstV d && srcV a
  | .shflIdx g d a b => guard g && dstV d && srcV a && srcV b
  | .shflUp g d a b => guard g && dstV d && srcV a && srcV b
  | .shflDown g d a b => guard g && dstV d && srcV a && srcV b
  | .shflXor g d a b => guard g && dstV d && srcV a && srcV b
  | .voteAny g d a => guard g && regP d && regP a
  | .voteAll g d a => guard g && regP d && regP a
  | .voteBallot g d a => guard g && dstV d && regP a
  | .reduxInt g f d a => guard g && decide (f < 8) && dstV d && srcV a
  | .reduxF32 g f d a => guard g && decide (f < 3) && dstV d && srcV a
  | .scanInt g f d a => guard g && decide (f < 8) && dstV d && srcV a
  | .scanF32 g f d a => guard g && decide (f < 3) && dstV d && srcV a
  | .compress g d a b => guard g && dstV d && srcV a && regP b
  | .expand g d a b => guard g && dstV d && srcV a && regP b
  | .ldLsB32 g d a swz off => guard g && dstV d && regW a && decide (swz = 0) && decide (off < 64)
  | .ldLsB64 g d a swz off => guard g && regW d && regW a && decide (swz = 0) && decide (off < 64)
  | .stLsB32 g d a swz off => guard g && srcV d && regW a && decide (swz = 0) && decide (off < 64)
  | .stLsB64 g d a swz off => guard g && regW d && regW a && decide (swz = 0) && decide (off < 64)
  | .ldSpB32 g d a swz off => guard g && dstV d && regW a && decide (swz < 8) && decide (off < 64)
  | .ldSpB64 g d a swz off => guard g && regW d && regW a && decide (swz < 8) && decide (off < 64)
  | .stSpB32 g d a swz off => guard g && srcV d && regW a && decide (swz < 8) && decide (off < 64)
  | .stSpB64 g d a swz off => guard g && regW d && regW a && decide (swz < 8) && decide (off < 64)
  | .ldGmB32 g d a swz off => guard g && dstV d && regW a && decide (swz = 0) && decide (off < 64)
  | .ldGmB64 g d a swz off => guard g && regW d && regW a && decide (swz = 0) && decide (off < 64)
  | .stGmB32 g d a swz off => guard g && srcV d && regW a && decide (swz = 0) && decide (off < 64)
  | .stGmB64 g d a swz off => guard g && regW d && regW a && decide (swz = 0) && decide (off < 64)
  | .rng g d k => guard g && dstV d && decide (k < 3)
  | .rngnBm g d => guard g && run4 d
  | .rngnInv g d => guard g && run4 d
  | .rngk g d a b => guard g && srcV d && regW a && regW b
  | .resn g d => guard g && recF d
  | .resld g d a => guard g && recF d && srcV a
  | .resst g d a => guard g && recF d && srcV a
  | .hitattr g d n => guard g && dstV d && decide (n < 24)
  | .hitattrPg g d b => guard g && dstV d && srcV b
  | .accept g a b => guard g && srcV a && regT b
  | .ignore g => guard g
  | .term g a b => guard g && srcV a && regT b
  | .lwalk g d a b => guard g && regW d && regW a && run3 b
  | .ldLx g f d a b m => guard g && decide (f < 7) && ldDst f d && regW a && srcV b && okLoad m
  | .stLx g f d a b m => guard g && decide (f < 5) && stSrc f d && regW a && srcV b && okStore m
  | .atomAdd g d a b m => guard g && okAtom m && atomTyped 0 m.typ d && regW a && srcV b
  | .atomMin g d a b m => guard g && okAtom m && atomTyped 1 m.typ d && regW a && srcV b
  | .atomMax g d a b m => guard g && okAtom m && atomTyped 2 m.typ d && regW a && srcV b
  | .atomAnd g d a b m => guard g && okAtom m && atomTyped 3 m.typ d && regW a && srcV b
  | .atomOr g d a b m => guard g && okAtom m && atomTyped 4 m.typ d && regW a && srcV b
  | .atomXor g d a b m => guard g && okAtom m && atomTyped 5 m.typ d && regW a && srcV b
  | .atomExch g d a b m => guard g && okAtom m && atomTyped 6 m.typ d && regW a && srcV b
  | .cas g d a b m => guard g && okAtom m && casTyped m.typ d && regW a && srcV b
  | .ldg g d a b m => guard g && decide (d < 15) && regW a && srcV b && okGather m
  | .stg g d a b m => guard g && decide (d < 15) && regW a && srcV b && okGather m
  | .prefetch g a b sp imm => guard g && regW a && srcV b && (decide (sp = 4) || decide (sp = 5)) && decide (imm < 65536)
  | .madB32 g d a b c => guard g && dstV d && srcV a && srcV b && srcV c
  | .madB64 g d a b c => guard g && regW d && regW a && regW b && regW c
  | .fmaF32 g d a b c r => guard g && dstV d && srcV a && srcV b && srcV c && decide (r < 5)
  | .fmaF16x2 g d a b c r => guard g && dstV d && srcV a && srcV b && srcV c && decide (r < 5)
  | .bfiB32 g d a b c => guard g && dstV d && srcV a && srcV b && srcV c
  | .selB32 g d a b p => guard g && dstV d && srcV a && srcV b && decide (p < 16)
  | .fclampF32 g d a b c => guard g && dstV d && srcV a && srcV b && srcV c
  | .cvt g d a st dt r => guard g && cvtDst dt d && cvtSrc st a && decide (st < 14) && decide (dt < 14) && decide (r < 5)
  | .cvtq g d a c n => guard g && regT d && regA a && dstV c && decide (n < 8)
  | .dqv g d a b n => guard g && regA d && regT a && srcV b && decide (n < 8)
  | .mxsign g key a => guard g && decide (key < 16) && regG a
  | .mxsignWait g key a => guard g && decide (key < 16) && regG a
  | .mxdrain g m d a b => guard g && decide (m < 4) && regA d && (decide (m ≠ 0) || decide (d % 2 = 0)) && regA a && decide (a % 2 = 0) && regW b
  | .neval g d a b => guard g && regA d && regA a && regW b
  | .ksign g key => guard g && decide (key < 16)
  | .ksignWait g key => guard g && decide (key < 16)
  | .ksignDecl g key a => guard g && decide (key < 16) && srcV a
  | .trace g fl d a b c => guard g && decide (fl < 16) && regT d && regT a && regW b && regW c
  | .occl g fl d a b c => guard g && decide (fl < 16) && dstV d && regT a && regW b && regW c
  | .march g d a b => guard g && decide (d < 15) && regT a && regW b
  | .marchRes g d a b => guard g && decide (d < 15) && regT a && regW b
  | .resu g d a b c => guard g && recF d && regW a && regW b && srcV c
  | .resm g src d a b c => guard g && decide (src < 4) && recF d && recF a && srcV b && srcV c
  | .gadd q d a b => regQ q && regG d && regG a && regG b
  | .gsub q d a b => regQ q && regG d && regG a && regG b
  | .gmul q d a b => regQ q && regG d && regG a && regG b
  | .gand q d a b => regQ q && regG d && regG a && regG b
  | .gor q d a b => regQ q && regG d && regG a && regG b
  | .gxor q d a b => regQ q && regG d && regG a && regG b
  | .gshl q d a b => regQ q && regG d && regG a && regG b
  | .gshr q d a b => regQ q && regG d && regG a && regG b
  | .gmov q d a => regQ q && regG d && regG a
  | .gcmp q c d a b => regQ q && decide (c < 10) && regQ d && regG a && regG b
  | .gmovImm q d imm => regQ q && regG d && decide (imm < 65536)
  | .gaddImm q d imm => regQ q && regG d && decide (imm < 65536)
  | .gorImm q d imm => regQ q && regG d && decide (imm < 65536)
  | .gshlImm q d imm => regQ q && regG d && decide (imm < 64)
  | .gld q d a off => regQ q && regG d && regG a && decide (off < 64)
  | .gst q d a off => regQ q && regG d && regG a && decide (off < 64)
  | .gbc q d a => regQ q && decide (d < 2) && regG a
  | .br q cond off => regQ q && decide (cond < 4) && decide (off < 524288)
  | .jmp off => decide (off < 524288)
  | .call q cond off => regQ q && decide (cond < 2) && decide (off < 524288)
  | .ret q a => regQ q && regG a
  | .rcvSet q n => regQ q && decide (n < 16)
  | .rcvJoin q n => regQ q && decide (n < 16)
  | .loop q d len => regQ q && regG d && decide (0 < len) && decide (len ≤ 256)
  | .endloop q => regQ q
  | .yield q => regQ q
  | .exit q => regQ q
  | .segw q a => regQ q && regG a
  | .view q a => regQ q && regG a
  | .grow q n => regQ q && decide (0 < n) && decide (n < 8)
  | .shrink q n => regQ q && decide (0 < n) && decide (n < 8)
  | .wait _ ld st cp mx => decide (ld < 64) && decide (st < 64) && decide (cp < 64) && decide (mx < 64)
  | .xfence q p1 p2 sc => regQ q && decide (p1 < 8) && decide (p2 < 8) && decide (sc < 10)
  | .barTeam q => regQ q
  | .barCl q => regQ q
  | .tdec q sc a b => regQ q && decide (sc < 10) && regG a && regG b
  | .twait q sc a b => regQ q && decide (sc < 10) && regG a && regG b
  | .wtime q a => regQ q && regG a
  | .rtime q d => regQ q && regG d
  | .csrr q r csr => regQ q && regG r && csrListed csr
  | .csrw q r csr => regQ q && regG r && csrListed csr
  | .trap q code => regQ q && decide (code < 4096)
  | .tret q => regQ q
  | .tmask q => regQ q
  | .tunmask q => regQ q
  | .brk q => regQ q
  | .launch q x y irq tag => regQ q && regG x && regG y && decide (irq < 2) && decide (tag < 4294967296)
  | .copyBlockCmd q x => regQ q && regG x
  | .copyDirect q x y n => regQ q && regG x && regG y && decide (0 < n) && decide (n < 4294967296)
  | .coll q x => regQ q && regG x
  | .strn q x => regQ q && regG x
  | .chain q x => regQ q && regG x
  | .hingeReadRequest _ => true
  | .hingeReadData _ => true
  | .hingeWrite _ => true
  | .hingeWriteAcknowledge _ => true
  | .hingeAtomic _ => true
  | .hingeAtomicResult _ => true
  | .hingeHaloWrite _ => true
  | .hingeTimeSideband _ => true
  | .stampedMessageApply _ => true
  | .hingeLaneRepair _ _ => true
  | .hingeModuleRetire _ => true
  | .hngCrcerrClear _ => true
  | .scaleupPortRetrain _ => true
  | .scaleupPortDown _ => true
  | .domainRequestArrival _ => true
  | .cxlPortTrained _ _ => true
  | .cxlPortDown _ => true
  | .hostLinkTrained _ _ => true
  | .hostLinkDown => true
  | .hostMemAccess _ _ _ _ => true
  | .pkgScreenWrite _ _ => true
  | .resGeomWrite _ _ => true
  | .deviceTimeTick => true
  | .timAdjWrite _ => true
  | .timStepWrite _ => true
  | .ppsEdge => true
  | .ptpMessage _ _ _ => true
  | .sensorRefresh _ => true
  | .clockStep => true
  | .pkgPwrcapWrite _ => true
  | .caddyLockstepMismatch => true
  | .logFlush => true
  | .logRead _ => true
  | .attestRequest _ => true
  | .attestReport => true
  | .firmwareUpdate _ => true
  | .moduleReset => true
  | .bringupStepComplete _ => true
  | .scrubPeriod _ _ => true
  | .coreRetire _ => true
  | .l2SliceRetire _ _ => true
  | .partitionCreate _ => true
  | .partitionResize _ => true
  | .partitionReset _ _ => true
  | .partitionDestroy _ _ => true
  | .partitionCmdBadOp _ => true
  | .partitionApplyComplete _ => true
  | .partitionResetComplete _ => true
  | .partitionFlr _ => true
  | .pfFlr => true
  | .pfivmapWrite _ _ => true
  | .fbheadWrite _ _ => true
  | .fltreplayAll _ => true
  | .fltreplayToken _ _ => true
  | .fltreplayUnrecoverable _ _ => true
  | .tlbinvAll _ => true
  | .tlbinvPage _ _ => true
  | .tlbinvComplete _ => true
  | .odrHeadWrite _ _ => true
  | .rfHeadWrite _ _ => true
  | .schAreaWrite _ _ _ => true
  | .memRfareaWrite _ _ => true
  | .schPreemptWrite _ _ => true
  | .registerWrite _ _ _ _ => true
  | .doorbell _ _ _ => true
  | .tailWordChange _ _ => true
  | .qctlEnable _ _ => true
  | .qctlDisable _ _ => true
  | .qctlZero _ _ => true
  | .statResume _ _ => true
  | .statSkip _ _ => true
  | .headerReread _ _ => true
  | .nopPacket _ _ => true
  | .launchPacket _ _ => true
  | .graphPacket _ _ => true
  | .copyPacket _ _ => true
  | .collPacket _ _ => true
  | .semwaitPacket _ _ => true
  | .semsigPacket _ _ => true
  | .timewaitPacket _ _ => true
  | .fencePacket _ _ => true
  | .jumpPacket _ _ => true
  | .waitConditionMet _ _ => true
  | .tumblerPoll _ _ _ => true
  | .gridComplete _ _ => true
  | .nodeDispatch _ _ => true
  | .nodeComplete _ _ => true
  | .teamPlace _ _ => true
  | .groupEnd _ _ => true
  | .chainTailSeen _ => true
  | .chainBlockComplete _ => true
  | .chainResume _ => true
  | .copyBlockCopy _ => true
  | .copyBlockFill _ => true
  | .copyBlockHalo _ => true
  | .copyChunk _ => true
  | .collAllReduce _ => true
  | .collReduceScatter _ => true
  | .collAllGather _ => true
  | .collBroadcast _ => true
  | .collMessageIngress _ _ _ _ => true
  | .collAbortToken _ _ => true
  | .collAttemptTimeout _ => true
  | .matrixBlock _ => true
  | .matrixKstep _ => true
  | .matrixJobComplete _ => true
  | .blendTileClose _ => true
  | .blendRowWriteback _ => true
  | .strainerPass _ => true
  | .strainerPixel _ => true
  | .strainerVisRayResult _ => true
  | .strainerPassComplete _ => true
  | .strainerAdvance _ => true
  | .rayNodeRead _ => true
  | .rayResultWrite _ => true
  | .marchEvent _ => true
  | .lwalkNodeRead _ => true
  | .laneSwap _ _ _ _ => true
  | .orderedAccessArrival _ => true
  | .orderedAccessRelease _ => true
  | .pageWalkComplete _ => true
  | .loadDataReturn _ _ _ => true
  | .poisonReturn _ => true
  | .writePerformed _ _ => true
  | .storeBufferDrain _ => true
  | .sliceMove _ _ => true
  | .loopEndStep _ _ => true
  | .growGrant _ _ => true
  | .allocatorImpasse _ => true
  | .activeSetRotate _ _ => true
  | .groupEnterActive _ _ => true
  | .wtimeRelease _ _ _ => true
  | .wtimePreentry _ _ => true
  | .periodBoundary _ => true
  | .migrationStart _ _ => true
  | .migrationCopyDone _ => true
  | .forwardEntryExpire _ _ => true
  | .forwardedMessage _ _ _ => true
  | .preemptClassTrigger _ _ => true
  | .preemptDeadlineExpire _ => true
  | .withholdExpire _ => true
  | .saveAreaAvailable _ => true
  | .deadboltRequest _ _ => true
  | .shadowQueuesEmpty _ => true
  | .deadboltFreeze _ => true
  | .deadboltScanDone _ => true
  | .deadboltDrainDone _ => true
  | .shadowMismatch _ _ _ => true
  | .asyncErrorDelivery _ _ _ => true
  | .hostCacheSnoop _ _ => true
  | .hingeCrcRetry _ => true
  | .hingeModuleRetrained _ => true
  | .hingeRequestTimeout _ => true
  | .caddyRestartComplete => true
  | .powerFail => true

end Sys2Proof
end

