-- ==== Sys2Proof/Decode.lean ====
section
/-!
DEFINITION. Decoding of instruction words, total on any bytes, and the encoder written from the same tables (R347 to R357). A word is
rejected by name: an unassigned code, an operand that its class does not admit, or a nonzero unused field. Each of these raises ILLOP on
the issuing lanes (R354).
-/

namespace Sys2Proof

/-- Why a word is no instruction (R353, R354). -/
inductive DecodeError
  /-- Fewer bytes than the form has. -/
  | tooShort
  /-- An unassigned major, FN or COND (R355 to R357). -/
  | reservedCode
  /-- A register code, a qualifier or a value that the instruction does not admit (R351, R353). -/
  | illegalOperand
  /-- A field that the instruction does not use holds a nonzero value (R353). -/
  | unusedField
  deriving DecidableEq, Repr

namespace Enc

/-- Bits `lo` to `lo + len - 1` of `w`. -/
def field (w lo len : Nat) : Nat := w / 2 ^ lo % 2 ^ len
/-- The guard bits of a lane-set word (R349). -/
def guardBits (g : Guard) : Nat := (if g.neg then 16777216 else 0) + 2097152 * g.p
/-- Format LR (R349). -/
def lr (maj : Nat) (g : Guard) (d a b fn : Nat) : Nat := 33554432 * maj + guardBits g + 32768 * d + 512 * a + 8 * b + fn
/-- Format LI (R349). -/
def li (maj : Nat) (g : Guard) (d a imm : Nat) : Nat := 33554432 * maj + guardBits g + 32768 * d + 512 * a + imm
/-- Format LM (R349). -/
def lm (maj : Nat) (g : Guard) (d a swz off : Nat) : Nat := 33554432 * maj + guardBits g + 32768 * d + 512 * a + 64 * swz + off
/-- The second word of format LX (R349). -/
def lx (c scope ord aux imm : Nat) : Nat := 67108864 * c + 4194304 * scope + 1048576 * ord + 65536 * aux + imm
/-- Format GR (R350). -/
def gr (maj q d a b fn : Nat) : Nat := 2147483648 + 33554432 * maj + 4194304 * q + 65536 * d + 1024 * a + 16 * b + fn
/-- Format GI (R350). -/
def gi (maj q d imm : Nat) : Nat := 2147483648 + 33554432 * maj + 4194304 * q + 65536 * d + imm
/-- Format GJ (R350). -/
def gj (maj q cond off : Nat) : Nat := 2147483648 + 33554432 * maj + 4194304 * q + 524288 * cond + off
/-- Format GW (R350). -/
def gw (all : Bool) (ld st cp mx : Nat) : Nat :=
  2147483648 + 33554432 * 16 + (if all then 16777216 else 0) + 262144 * ld + 4096 * st + 64 * cp + mx
/-- Format GS (R350). -/
def gs (maj fn q g imm : Nat) : Nat := 2147483648 + 33554432 * maj + 4194304 * q + 65536 * g + 16 * imm + fn
/-- The first word of format GE (R350). -/
def ge (maj q x y opt : Nat) : Nat := 2147483648 + 33554432 * maj + 4194304 * q + 65536 * x + 1024 * y + opt

end Enc

/-- Whether the word is the first of a two-word form (R347): majors 0x38 to 0x3F of either set. -/
def isTwoWord (w1 : Nat) : Bool := decide (56 ≤ Enc.field w1 25 6)

/-- The bytes that the instruction beginning with `w1` occupies (R347, `Len` of R360). -/
def wordLen (w1 : Nat) : Nat := if isTwoWord w1 then 8 else 4

open Enc in
/-- The words of an instruction (the second is 0 for a one-word form), and nothing for a row that is an event of the part. -/
def encode : Instr → Option (Nat × Nat)
  | .addB32 g d a b => some (lr 0 g d a b 0, 0)
  | .subB32 g d a b => some (lr 0 g d a b 1, 0)
  | .mulB32 g d a b => some (lr 0 g d a b 2, 0)
  | .mulhiS32 g d a b => some (lr 0 g d a b 3, 0)
  | .mulhiN32 g d a b => some (lr 0 g d a b 4, 0)
  | .absS32 g d a => some (lr 0 g d a 0 5, 0)
  | .negS32 g d a => some (lr 0 g d a 0 6, 0)
  | .minS32 g d a b => some (lr 1 g d a b 0, 0)
  | .maxS32 g d a b => some (lr 1 g d a b 1, 0)
  | .minN32 g d a b => some (lr 1 g d a b 2, 0)
  | .maxN32 g d a b => some (lr 1 g d a b 3, 0)
  | .minS64 g d a b => some (lr 1 g d a b 4, 0)
  | .maxS64 g d a b => some (lr 1 g d a b 5, 0)
  | .minN64 g d a b => some (lr 1 g d a b 6, 0)
  | .maxN64 g d a b => some (lr 1 g d a b 7, 0)
  | .addB64 g d a b => some (lr 2 g d a b 0, 0)
  | .subB64 g d a b => some (lr 2 g d a b 1, 0)
  | .mulB64 g d a b => some (lr 2 g d a b 2, 0)
  | .mulhiS64 g d a b => some (lr 2 g d a b 3, 0)
  | .mulhiN64 g d a b => some (lr 2 g d a b 4, 0)
  | .absS64 g d a => some (lr 2 g d a 0 5, 0)
  | .negS64 g d a => some (lr 2 g d a 0 6, 0)
  | .andB32 g d a b => some (lr 3 g d a b 0, 0)
  | .orB32 g d a b => some (lr 3 g d a b 1, 0)
  | .xorB32 g d a b => some (lr 3 g d a b 2, 0)
  | .notB32 g d a => some (lr 3 g d a 0 3, 0)
  | .popcB32 g d a => some (lr 3 g d a 0 4, 0)
  | .clzB32 g d a => some (lr 3 g d a 0 5, 0)
  | .ctzB32 g d a => some (lr 3 g d a 0 6, 0)
  | .brevB32 g d a => some (lr 3 g d a 0 7, 0)
  | .shlB32 g d a b => some (lr 4 g d a b 0, 0)
  | .shrB32 g d a b => some (lr 4 g d a b 1, 0)
  | .sraB32 g d a b => some (lr 4 g d a b 2, 0)
  | .rotB32 g d a b => some (lr 4 g d a b 3, 0)
  | .shlB64 g d a b => some (lr 4 g d a b 4, 0)
  | .shrB64 g d a b => some (lr 4 g d a b 5, 0)
  | .sraB64 g d a b => some (lr 4 g d a b 6, 0)
  | .rotB64 g d a b => some (lr 4 g d a b 7, 0)
  | .bfeS32 g d a b => some (lr 5 g d a b 0, 0)
  | .bfeN32 g d a b => some (lr 5 g d a b 1, 0)
  | .lea g f d a b => some (lr 6 g d a b f, 0)
  | .cmpS32 g c d a b => some (lr 7 g d a b c, 0)
  | .cmpN32 g c d a b => some (lr 8 g d a b c, 0)
  | .cmpS64 g c d a b => some (lr 9 g d a b c, 0)
  | .cmpN64 g c d a b => some (lr 10 g d a b c, 0)
  | .addB32Imm g d a imm => some (li 11 g d a imm, 0)
  | .andB32Imm g d a imm => some (li 12 g d a imm, 0)
  | .orB32Imm g d a imm => some (li 13 g d a imm, 0)
  | .xorB32Imm g d a imm => some (li 14 g d a imm, 0)
  | .shlB32Imm g d a imm => some (li 15 g d a imm, 0)
  | .shrB32Imm g d a imm => some (li 16 g d a imm, 0)
  | .sraB32Imm g d a imm => some (li 17 g d a imm, 0)
  | .faddF32 g d a b => some (lr 19 g d a b 0, 0)
  | .fsubF32 g d a b => some (lr 19 g d a b 1, 0)
  | .fmulF32 g d a b => some (lr 19 g d a b 2, 0)
  | .fminF32 g d a b => some (lr 19 g d a b 3, 0)
  | .fmaxF32 g d a b => some (lr 19 g d a b 4, 0)
  | .fabsF32 g d a => some (lr 19 g d a 0 5, 0)
  | .fnegF32 g d a => some (lr 19 g d a 0 6, 0)
  | .faddF16x2 g d a b => some (lr 20 g d a b 0, 0)
  | .fsubF16x2 g d a b => some (lr 20 g d a b 1, 0)
  | .fmulF16x2 g d a b => some (lr 20 g d a b 2, 0)
  | .fminF16x2 g d a b => some (lr 20 g d a b 3, 0)
  | .fmaxF16x2 g d a b => some (lr 20 g d a b 4, 0)
  | .fabsF16x2 g d a => some (lr 20 g d a 0 5, 0)
  | .fnegF16x2 g d a => some (lr 20 g d a 0 6, 0)
  | .faddBf16x2 g d a b => some (lr 21 g d a b 0, 0)
  | .fsubBf16x2 g d a b => some (lr 21 g d a b 1, 0)
  | .fmulBf16x2 g d a b => some (lr 21 g d a b 2, 0)
  | .fminBf16x2 g d a b => some (lr 21 g d a b 3, 0)
  | .fmaxBf16x2 g d a b => some (lr 21 g d a b 4, 0)
  | .fabsBf16x2 g d a => some (lr 21 g d a 0 5, 0)
  | .fnegBf16x2 g d a => some (lr 21 g d a 0 6, 0)
  | .fcmpF32 g c d a b => some (lr 22 g d a b c, 0)
  | .frndF32 g m d a => some (lr 23 g d a 0 m, 0)
  | .rcp g d a => some (lr 24 g d a 0 0, 0)
  | .rsq g d a => some (lr 24 g d a 0 1, 0)
  | .sqrt g d a => some (lr 24 g d a 0 2, 0)
  | .div g d a b => some (lr 24 g d a b 3, 0)
  | .exp2 g d a => some (lr 24 g d a 0 4, 0)
  | .log2 g d a => some (lr 24 g d a 0 5, 0)
  | .sin g d a => some (lr 24 g d a 0 6, 0)
  | .cos g d a => some (lr 24 g d a 0 7, 0)
  | .rcpx g d a => some (lr 25 g d a 0 0, 0)
  | .rsqx g d a => some (lr 25 g d a 0 1, 0)
  | .sqrtx g d a => some (lr 25 g d a 0 2, 0)
  | .divx g d a b => some (lr 25 g d a b 3, 0)
  | .exp2x g d a => some (lr 25 g d a 0 4, 0)
  | .log2x g d a => some (lr 25 g d a 0 5, 0)
  | .sinx g d a => some (lr 25 g d a 0 6, 0)
  | .cosx g d a => some (lr 25 g d a 0 7, 0)
  | .tanh g d a => some (lr 26 g d a 0 0, 0)
  | .tanhx g d a => some (lr 26 g d a 0 1, 0)
  | .shflIdx g d a b => some (lr 28 g d a b 0, 0)
  | .shflUp g d a b => some (lr 28 g d a b 1, 0)
  | .shflDown g d a b => some (lr 28 g d a b 2, 0)
  | .shflXor g d a b => some (lr 28 g d a b 3, 0)
  | .voteAny g d a => some (lr 29 g d a 0 0, 0)
  | .voteAll g d a => some (lr 29 g d a 0 1, 0)
  | .voteBallot g d a => some (lr 29 g d a 0 2, 0)
  | .reduxInt g f d a => some (lr 30 g d a 0 f, 0)
  | .reduxF32 g f d a => some (lr 31 g d a 0 f, 0)
  | .scanInt g f d a => some (lr 32 g d a 0 f, 0)
  | .scanF32 g f d a => some (lr 33 g d a 0 f, 0)
  | .compress g d a b => some (lr 34 g d a b 0, 0)
  | .expand g d a b => some (lr 34 g d a b 1, 0)
  | .ldLsB32 g d a swz off => some (lm 35 g d a swz off, 0)
  | .ldLsB64 g d a swz off => some (lm 36 g d a swz off, 0)
  | .stLsB32 g d a swz off => some (lm 37 g d a swz off, 0)
  | .stLsB64 g d a swz off => some (lm 38 g d a swz off, 0)
  | .ldSpB32 g d a swz off => some (lm 39 g d a swz off, 0)
  | .ldSpB64 g d a swz off => some (lm 40 g d a swz off, 0)
  | .stSpB32 g d a swz off => some (lm 41 g d a swz off, 0)
  | .stSpB64 g d a swz off => some (lm 42 g d a swz off, 0)
  | .ldGmB32 g d a swz off => some (lm 43 g d a swz off, 0)
  | .ldGmB64 g d a swz off => some (lm 44 g d a swz off, 0)
  | .stGmB32 g d a swz off => some (lm 45 g d a swz off, 0)
  | .stGmB64 g d a swz off => some (lm 46 g d a swz off, 0)
  | .rng g d k => some (lr 47 g d k 0 0, 0)
  | .rngnBm g d => some (lr 47 g d 0 0 1, 0)
  | .rngnInv g d => some (lr 47 g d 0 0 2, 0)
  | .rngk g d a b => some (lr 47 g d a b 3, 0)
  | .resn g d => some (lr 48 g d 0 0 0, 0)
  | .resld g d a => some (lr 48 g d a 0 1, 0)
  | .resst g d a => some (lr 48 g d a 0 2, 0)
  | .hitattr g d n => some (lr 49 g d n 0 0, 0)
  | .hitattrPg g d b => some (lr 49 g d 32 b 0, 0)
  | .accept g a b => some (lr 49 g 0 a b 1, 0)
  | .ignore g => some (lr 49 g 0 0 0 2, 0)
  | .term g a b => some (lr 49 g 0 a b 3, 0)
  | .lwalk g d a b => some (lr 50 g d a b 0, 0)
  | .ldLx g f d a b m => some (lr 56 g d a b f, lx (m.space + 8 * m.cls) m.scope m.ord m.swz m.imm)
  | .stLx g f d a b m => some (lr 57 g d a b f, lx (m.space + 8 * m.cls) m.scope m.ord m.swz m.imm)
  | .atomAdd g d a b m => some (lr 58 g d a b 0, lx m.space m.scope m.ord m.swz (4096 * m.typ + m.off))
  | .atomMin g d a b m => some (lr 58 g d a b 1, lx m.space m.scope m.ord m.swz (4096 * m.typ + m.off))
  | .atomMax g d a b m => some (lr 58 g d a b 2, lx m.space m.scope m.ord m.swz (4096 * m.typ + m.off))
  | .atomAnd g d a b m => some (lr 58 g d a b 3, lx m.space m.scope m.ord m.swz (4096 * m.typ + m.off))
  | .atomOr g d a b m => some (lr 58 g d a b 4, lx m.space m.scope m.ord m.swz (4096 * m.typ + m.off))
  | .atomXor g d a b m => some (lr 58 g d a b 5, lx m.space m.scope m.ord m.swz (4096 * m.typ + m.off))
  | .atomExch g d a b m => some (lr 58 g d a b 6, lx m.space m.scope m.ord m.swz (4096 * m.typ + m.off))
  | .cas g d a b m => some (lr 58 g d a b 7, lx m.space m.scope m.ord m.swz (4096 * m.typ + m.off))
  | .ldg g d a b m => some (lr 59 g d a b 0, lx m.space m.scope 0 m.swz m.imm)
  | .stg g d a b m => some (lr 59 g d a b 1, lx m.space m.scope 0 m.swz m.imm)
  | .prefetch g a b sp imm => some (lr 59 g 0 a b 2, lx sp 0 0 0 imm)
  | .madB32 g d a b c => some (lr 60 g d a b 0, lx c 0 0 0 0)
  | .madB64 g d a b c => some (lr 60 g d a b 1, lx c 0 0 0 0)
  | .fmaF32 g d a b c r => some (lr 60 g d a b 2, lx c 0 0 r 0)
  | .fmaF16x2 g d a b c r => some (lr 60 g d a b 3, lx c 0 0 r 0)
  | .bfiB32 g d a b c => some (lr 60 g d a b 4, lx c 0 0 0 0)
  | .selB32 g d a b p => some (lr 60 g d a b 5, lx 0 0 0 p 0)
  | .fclampF32 g d a b c => some (lr 60 g d a b 6, lx c 0 0 0 0)
  | .cvt g d a st dt r => some (lr 61 g d a 0 0, lx 0 0 0 r (st + 16 * dt))
  | .cvtq g d a c n => some (lr 61 g d a 0 1, lx c 0 0 n 0)
  | .dqv g d a b n => some (lr 61 g d a b 2, lx 0 0 0 n 0)
  | .mxsign g key a => some (lr 62 g 0 a 0 0, lx 0 0 0 key 0)
  | .mxsignWait g key a => some (lr 62 g 0 a 0 0, lx 0 0 0 key 1)
  | .mxdrain g m d a b => some (lr 62 g d a b 1, lx 0 0 0 m 0)
  | .neval g d a b => some (lr 62 g d a b 2, lx 0 0 0 0 0)
  | .ksign g key => some (lr 62 g 0 0 0 3, lx 0 0 0 key 0)
  | .ksignWait g key => some (lr 62 g 0 0 0 3, lx 0 0 0 key 1)
  | .ksignDecl g key a => some (lr 62 g 0 a 0 3, lx 0 0 0 key 2)
  | .trace g fl d a b c => some (lr 63 g d a b 0, lx c 0 0 0 fl)
  | .occl g fl d a b c => some (lr 63 g d a b 1, lx c 0 0 0 fl)
  | .march g d a b => some (lr 63 g d a b 2, lx 0 0 0 0 0)
  | .marchRes g d a b => some (lr 63 g d a b 2, lx 0 0 0 0 1)
  | .resu g d a b c => some (lr 63 g d a b 3, lx c 0 0 0 0)
  | .resm g src d a b c => some (lr 63 g d a b 4, lx c 0 0 src 0)
  | .gadd q d a b => some (gr 0 q d a b 0, 0)
  | .gsub q d a b => some (gr 0 q d a b 1, 0)
  | .gmul q d a b => some (gr 0 q d a b 2, 0)
  | .gand q d a b => some (gr 0 q d a b 3, 0)
  | .gor q d a b => some (gr 0 q d a b 4, 0)
  | .gxor q d a b => some (gr 0 q d a b 5, 0)
  | .gshl q d a b => some (gr 0 q d a b 6, 0)
  | .gshr q d a b => some (gr 0 q d a b 7, 0)
  | .gmov q d a => some (gr 0 q d a 0 8, 0)
  | .gcmp q c d a b => some (gr 1 q d a b c, 0)
  | .gmovImm q d imm => some (gi 2 q d imm, 0)
  | .gaddImm q d imm => some (gi 3 q d imm, 0)
  | .gorImm q d imm => some (gi 4 q d imm, 0)
  | .gshlImm q d imm => some (gi 5 q d imm, 0)
  | .gld q d a off => some (gr 6 q d a off 0, 0)
  | .gst q d a off => some (gr 6 q d a off 1, 0)
  | .gbc q d a => some (gr 6 q d a 0 2, 0)
  | .br q cond off => some (gj 8 q cond off, 0)
  | .jmp off => some (gj 9 7 0 off, 0)
  | .call q cond off => some (gj 10 q cond off, 0)
  | .ret q a => some (gr 11 q 0 a 0 0, 0)
  | .rcvSet q n => some (gr 12 q n 0 0 0, 0)
  | .rcvJoin q n => some (gr 12 q n 0 0 1, 0)
  | .loop q d len => some (gi 13 q d len, 0)
  | .endloop q => some (gr 14 q 0 0 0 0, 0)
  | .yield q => some (gr 14 q 0 0 0 1, 0)
  | .exit q => some (gr 14 q 0 0 0 2, 0)
  | .segw q a => some (gr 15 q 0 a 0 0, 0)
  | .view q a => some (gr 15 q 0 a 0 1, 0)
  | .grow q n => some (gr 15 q 0 0 n 2, 0)
  | .shrink q n => some (gr 15 q 0 0 n 3, 0)
  | .wait all ld st cp mx => some (gw all ld st cp mx, 0)
  | .xfence q p1 p2 sc => some (gr 17 q (8 * p1 + p2) sc 0 0, 0)
  | .barTeam q => some (gr 17 q 0 0 0 1, 0)
  | .barCl q => some (gr 17 q 0 0 0 2, 0)
  | .tdec q sc a b => some (gr 18 q sc a b 0, 0)
  | .twait q sc a b => some (gr 18 q sc a b 1, 0)
  | .wtime q a => some (gr 19 q 0 a 0 0, 0)
  | .rtime q d => some (gr 19 q d 0 0 1, 0)
  | .csrr q r csr => some (gs 20 0 q r csr, 0)
  | .csrw q r csr => some (gs 20 1 q r csr, 0)
  | .trap q code => some (gs 20 2 q 0 code, 0)
  | .tret q => some (gs 20 3 q 0 0, 0)
  | .tmask q => some (gs 20 4 q 0 0, 0)
  | .tunmask q => some (gs 20 5 q 0 0, 0)
  | .brk q => some (gs 20 6 q 0 0, 0)
  | .launch q x y irq tag => some (ge 56 q x y irq, tag)
  | .copyBlockCmd q x => some (ge 57 q x 0 0, 0)
  | .copyDirect q x y n => some (ge 57 q x y 1, n)
  | .coll q x => some (ge 58 q x 0 0, 0)
  | .strn q x => some (ge 59 q x 0 0, 0)
  | .chain q x => some (ge 60 q x 0 0, 0)
  | .hingeReadRequest _ => none
  | .hingeReadData _ => none
  | .hingeWrite _ => none
  | .hingeWriteAcknowledge _ => none
  | .hingeAtomic _ => none
  | .hingeAtomicResult _ => none
  | .hingeHaloWrite _ => none
  | .hingeTimeSideband _ => none
  | .stampedMessageApply _ => none
  | .hingeLaneRepair _ _ => none
  | .hingeModuleRetire _ => none
  | .hngCrcerrClear _ => none
  | .scaleupPortRetrain _ => none
  | .scaleupPortDown _ => none
  | .domainRequestArrival _ => none
  | .cxlPortTrained _ _ => none
  | .cxlPortDown _ => none
  | .hostLinkTrained _ _ => none
  | .hostLinkDown => none
  | .hostMemAccess _ _ _ _ => none
  | .pkgScreenWrite _ _ => none
  | .resGeomWrite _ _ => none
  | .deviceTimeTick => none
  | .timAdjWrite _ => none
  | .timStepWrite _ => none
  | .ppsEdge => none
  | .ptpMessage _ _ _ => none
  | .sensorRefresh _ => none
  | .clockStep => none
  | .pkgPwrcapWrite _ => none
  | .caddyLockstepMismatch => none
  | .logFlush => none
  | .logRead _ => none
  | .attestRequest _ => none
  | .attestReport => none
  | .firmwareUpdate _ => none
  | .moduleReset => none
  | .bringupStepComplete _ => none
  | .scrubPeriod _ _ => none
  | .coreRetire _ => none
  | .l2SliceRetire _ _ => none
  | .partitionCreate _ => none
  | .partitionResize _ => none
  | .partitionReset _ _ => none
  | .partitionDestroy _ _ => none
  | .partitionCmdBadOp _ => none
  | .partitionApplyComplete _ => none
  | .partitionResetComplete _ => none
  | .partitionFlr _ => none
  | .pfFlr => none
  | .pfivmapWrite _ _ => none
  | .fbheadWrite _ _ => none
  | .fltreplayAll _ => none
  | .fltreplayToken _ _ => none
  | .fltreplayUnrecoverable _ _ => none
  | .tlbinvAll _ => none
  | .tlbinvPage _ _ => none
  | .tlbinvComplete _ => none
  | .odrHeadWrite _ _ => none
  | .rfHeadWrite _ _ => none
  | .schAreaWrite _ _ _ => none
  | .memRfareaWrite _ _ => none
  | .schPreemptWrite _ _ => none
  | .registerWrite _ _ _ _ => none
  | .doorbell _ _ _ => none
  | .tailWordChange _ _ => none
  | .qctlEnable _ _ => none
  | .qctlDisable _ _ => none
  | .qctlZero _ _ => none
  | .statResume _ _ => none
  | .statSkip _ _ => none
  | .headerReread _ _ => none
  | .nopPacket _ _ => none
  | .launchPacket _ _ => none
  | .graphPacket _ _ => none
  | .copyPacket _ _ => none
  | .collPacket _ _ => none
  | .semwaitPacket _ _ => none
  | .semsigPacket _ _ => none
  | .timewaitPacket _ _ => none
  | .fencePacket _ _ => none
  | .jumpPacket _ _ => none
  | .waitConditionMet _ _ => none
  | .tumblerPoll _ _ _ => none
  | .gridComplete _ _ => none
  | .nodeDispatch _ _ => none
  | .nodeComplete _ _ => none
  | .teamPlace _ _ => none
  | .groupEnd _ _ => none
  | .chainTailSeen _ => none
  | .chainBlockComplete _ => none
  | .chainResume _ => none
  | .copyBlockCopy _ => none
  | .copyBlockFill _ => none
  | .copyBlockHalo _ => none
  | .copyChunk _ => none
  | .collAllReduce _ => none
  | .collReduceScatter _ => none
  | .collAllGather _ => none
  | .collBroadcast _ => none
  | .collMessageIngress _ _ _ _ => none
  | .collAbortToken _ _ => none
  | .collAttemptTimeout _ => none
  | .matrixBlock _ => none
  | .matrixKstep _ => none
  | .matrixJobComplete _ => none
  | .blendTileClose _ => none
  | .blendRowWriteback _ => none
  | .strainerPass _ => none
  | .strainerPixel _ => none
  | .strainerVisRayResult _ => none
  | .strainerPassComplete _ => none
  | .strainerAdvance _ => none
  | .rayNodeRead _ => none
  | .rayResultWrite _ => none
  | .marchEvent _ => none
  | .lwalkNodeRead _ => none
  | .laneSwap _ _ _ _ => none
  | .orderedAccessArrival _ => none
  | .orderedAccessRelease _ => none
  | .pageWalkComplete _ => none
  | .loadDataReturn _ _ _ => none
  | .poisonReturn _ => none
  | .writePerformed _ _ => none
  | .storeBufferDrain _ => none
  | .sliceMove _ _ => none
  | .loopEndStep _ _ => none
  | .growGrant _ _ => none
  | .allocatorImpasse _ => none
  | .activeSetRotate _ _ => none
  | .groupEnterActive _ _ => none
  | .wtimeRelease _ _ _ => none
  | .wtimePreentry _ _ => none
  | .periodBoundary _ => none
  | .migrationStart _ _ => none
  | .migrationCopyDone _ => none
  | .forwardEntryExpire _ _ => none
  | .forwardedMessage _ _ _ => none
  | .preemptClassTrigger _ _ => none
  | .preemptDeadlineExpire _ => none
  | .withholdExpire _ => none
  | .saveAreaAvailable _ => none
  | .deadboltRequest _ _ => none
  | .shadowQueuesEmpty _ => none
  | .deadboltFreeze _ => none
  | .deadboltScanDone _ => none
  | .deadboltDrainDone _ => none
  | .shadowMismatch _ _ _ => none
  | .asyncErrorDelivery _ _ _ => none
  | .hostCacheSnoop _ _ => none
  | .hingeCrcRetry _ => none
  | .hingeModuleRetrained _ => none
  | .hingeRequestTimeout _ => none
  | .caddyRestartComplete => none
  | .powerFail => none

namespace Dec

open Enc

/-- The guard of a lane-set word (R349). -/
def guard (w : Nat) : Guard := ⟨decide (field w 24 1 = 1), field w 21 3⟩
/-- Field D of LR, LI and LM. -/
def laneD (w : Nat) : Nat := field w 15 6
/-- Field A of LR, LI and LM. -/
def laneA (w : Nat) : Nat := field w 9 6
/-- Field B of LR. -/
def laneB (w : Nat) : Nat := field w 3 6
/-- Field QI of the group set. -/
def groupQ (w : Nat) : Nat := field w 22 3
/-- Field D of GR and GI, G of GS, X of GE. -/
def groupD (w : Nat) : Nat := field w 16 6
/-- Field A of GR, Y of GE. -/
def groupA (w : Nat) : Nat := field w 10 6
/-- Field B of GR. -/
def groupB (w : Nat) : Nat := field w 4 6
/-- Field C of an LX second word. -/
def lxC (w : Nat) : Nat := field w 26 6
/-- Field SCOPE of an LX second word. -/
def lxScope (w : Nat) : Nat := field w 22 4
/-- Field ORD of an LX second word. -/
def lxOrd (w : Nat) : Nat := field w 20 2
/-- Field AUX of an LX second word. -/
def lxAux (w : Nat) : Nat := field w 16 4
/-- Field IMM16 of an LX second word. -/
def lxImm (w : Nat) : Nat := field w 0 16
/-- The memory roles of an LX second word (R349). C[5] lies above CLASS, and AUX[3] above SWZ, so that a nonzero one is no legal value. -/
def memX (w : Nat) : MemX := ⟨lxC w % 8, lxC w / 8, lxScope w, lxOrd w, lxAux w, lxImm w⟩
/-- The roles of an atomic's second word (R403). C[5:3] must be zero, which the comparison with the encoder's word checks. -/
def atomX (w : Nat) : AtomX := ⟨lxC w % 8, lxScope w, lxOrd w, lxAux w, lxImm w / 4096, lxImm w % 4096⟩

/-- The codes of lane-set major 0x00 (R356). -/
def lane00 (w v fn : Nat) : Option Instr :=
  match fn with
  | 0 => some (.addB32 (guard w) (laneD w) (laneA w) (laneB w))
  | 1 => some (.subB32 (guard w) (laneD w) (laneA w) (laneB w))
  | 2 => some (.mulB32 (guard w) (laneD w) (laneA w) (laneB w))
  | 3 => some (.mulhiS32 (guard w) (laneD w) (laneA w) (laneB w))
  | 4 => some (.mulhiN32 (guard w) (laneD w) (laneA w) (laneB w))
  | 5 => some (.absS32 (guard w) (laneD w) (laneA w))
  | 6 => some (.negS32 (guard w) (laneD w) (laneA w))
  | _ => none

/-- The codes of lane-set major 0x01 (R356). -/
def lane01 (w v fn : Nat) : Option Instr :=
  match fn with
  | 0 => some (.minS32 (guard w) (laneD w) (laneA w) (laneB w))
  | 1 => some (.maxS32 (guard w) (laneD w) (laneA w) (laneB w))
  | 2 => some (.minN32 (guard w) (laneD w) (laneA w) (laneB w))
  | 3 => some (.maxN32 (guard w) (laneD w) (laneA w) (laneB w))
  | 4 => some (.minS64 (guard w) (laneD w) (laneA w) (laneB w))
  | 5 => some (.maxS64 (guard w) (laneD w) (laneA w) (laneB w))
  | 6 => some (.minN64 (guard w) (laneD w) (laneA w) (laneB w))
  | 7 => some (.maxN64 (guard w) (laneD w) (laneA w) (laneB w))
  | _ => none

/-- The codes of lane-set major 0x02 (R356). -/
def lane02 (w v fn : Nat) : Option Instr :=
  match fn with
  | 0 => some (.addB64 (guard w) (laneD w) (laneA w) (laneB w))
  | 1 => some (.subB64 (guard w) (laneD w) (laneA w) (laneB w))
  | 2 => some (.mulB64 (guard w) (laneD w) (laneA w) (laneB w))
  | 3 => some (.mulhiS64 (guard w) (laneD w) (laneA w) (laneB w))
  | 4 => some (.mulhiN64 (guard w) (laneD w) (laneA w) (laneB w))
  | 5 => some (.absS64 (guard w) (laneD w) (laneA w))
  | 6 => some (.negS64 (guard w) (laneD w) (laneA w))
  | _ => none

/-- The codes of lane-set major 0x03 (R356). -/
def lane03 (w v fn : Nat) : Option Instr :=
  match fn with
  | 0 => some (.andB32 (guard w) (laneD w) (laneA w) (laneB w))
  | 1 => some (.orB32 (guard w) (laneD w) (laneA w) (laneB w))
  | 2 => some (.xorB32 (guard w) (laneD w) (laneA w) (laneB w))
  | 3 => some (.notB32 (guard w) (laneD w) (laneA w))
  | 4 => some (.popcB32 (guard w) (laneD w) (laneA w))
  | 5 => some (.clzB32 (guard w) (laneD w) (laneA w))
  | 6 => some (.ctzB32 (guard w) (laneD w) (laneA w))
  | 7 => some (.brevB32 (guard w) (laneD w) (laneA w))
  | _ => none

/-- The codes of lane-set major 0x04 (R356). -/
def lane04 (w v fn : Nat) : Option Instr :=
  match fn with
  | 0 => some (.shlB32 (guard w) (laneD w) (laneA w) (laneB w))
  | 1 => some (.shrB32 (guard w) (laneD w) (laneA w) (laneB w))
  | 2 => some (.sraB32 (guard w) (laneD w) (laneA w) (laneB w))
  | 3 => some (.rotB32 (guard w) (laneD w) (laneA w) (laneB w))
  | 4 => some (.shlB64 (guard w) (laneD w) (laneA w) (laneB w))
  | 5 => some (.shrB64 (guard w) (laneD w) (laneA w) (laneB w))
  | 6 => some (.sraB64 (guard w) (laneD w) (laneA w) (laneB w))
  | 7 => some (.rotB64 (guard w) (laneD w) (laneA w) (laneB w))
  | _ => none

/-- The codes of lane-set major 0x05 (R356). -/
def lane05 (w v fn : Nat) : Option Instr :=
  match fn with
  | 0 => some (.bfeS32 (guard w) (laneD w) (laneA w) (laneB w))
  | 1 => some (.bfeN32 (guard w) (laneD w) (laneA w) (laneB w))
  | _ => none

/-- The codes of lane-set major 0x13 (R356). -/
def lane13 (w v fn : Nat) : Option Instr :=
  match fn with
  | 0 => some (.faddF32 (guard w) (laneD w) (laneA w) (laneB w))
  | 1 => some (.fsubF32 (guard w) (laneD w) (laneA w) (laneB w))
  | 2 => some (.fmulF32 (guard w) (laneD w) (laneA w) (laneB w))
  | 3 => some (.fminF32 (guard w) (laneD w) (laneA w) (laneB w))
  | 4 => some (.fmaxF32 (guard w) (laneD w) (laneA w) (laneB w))
  | 5 => some (.fabsF32 (guard w) (laneD w) (laneA w))
  | 6 => some (.fnegF32 (guard w) (laneD w) (laneA w))
  | _ => none

/-- The codes of lane-set major 0x14 (R356). -/
def lane14 (w v fn : Nat) : Option Instr :=
  match fn with
  | 0 => some (.faddF16x2 (guard w) (laneD w) (laneA w) (laneB w))
  | 1 => some (.fsubF16x2 (guard w) (laneD w) (laneA w) (laneB w))
  | 2 => some (.fmulF16x2 (guard w) (laneD w) (laneA w) (laneB w))
  | 3 => some (.fminF16x2 (guard w) (laneD w) (laneA w) (laneB w))
  | 4 => some (.fmaxF16x2 (guard w) (laneD w) (laneA w) (laneB w))
  | 5 => some (.fabsF16x2 (guard w) (laneD w) (laneA w))
  | 6 => some (.fnegF16x2 (guard w) (laneD w) (laneA w))
  | _ => none

/-- The codes of lane-set major 0x15 (R356). -/
def lane15 (w v fn : Nat) : Option Instr :=
  match fn with
  | 0 => some (.faddBf16x2 (guard w) (laneD w) (laneA w) (laneB w))
  | 1 => some (.fsubBf16x2 (guard w) (laneD w) (laneA w) (laneB w))
  | 2 => some (.fmulBf16x2 (guard w) (laneD w) (laneA w) (laneB w))
  | 3 => some (.fminBf16x2 (guard w) (laneD w) (laneA w) (laneB w))
  | 4 => some (.fmaxBf16x2 (guard w) (laneD w) (laneA w) (laneB w))
  | 5 => some (.fabsBf16x2 (guard w) (laneD w) (laneA w))
  | 6 => some (.fnegBf16x2 (guard w) (laneD w) (laneA w))
  | _ => none

/-- The codes of lane-set major 0x18 (R356). -/
def lane18 (w v fn : Nat) : Option Instr :=
  match fn with
  | 0 => some (.rcp (guard w) (laneD w) (laneA w))
  | 1 => some (.rsq (guard w) (laneD w) (laneA w))
  | 2 => some (.sqrt (guard w) (laneD w) (laneA w))
  | 3 => some (.div (guard w) (laneD w) (laneA w) (laneB w))
  | 4 => some (.exp2 (guard w) (laneD w) (laneA w))
  | 5 => some (.log2 (guard w) (laneD w) (laneA w))
  | 6 => some (.sin (guard w) (laneD w) (laneA w))
  | 7 => some (.cos (guard w) (laneD w) (laneA w))
  | _ => none

/-- The codes of lane-set major 0x19 (R356). -/
def lane19 (w v fn : Nat) : Option Instr :=
  match fn with
  | 0 => some (.rcpx (guard w) (laneD w) (laneA w))
  | 1 => some (.rsqx (guard w) (laneD w) (laneA w))
  | 2 => some (.sqrtx (guard w) (laneD w) (laneA w))
  | 3 => some (.divx (guard w) (laneD w) (laneA w) (laneB w))
  | 4 => some (.exp2x (guard w) (laneD w) (laneA w))
  | 5 => some (.log2x (guard w) (laneD w) (laneA w))
  | 6 => some (.sinx (guard w) (laneD w) (laneA w))
  | 7 => some (.cosx (guard w) (laneD w) (laneA w))
  | _ => none

/-- The codes of lane-set major 0x1A (R356). -/
def lane1A (w v fn : Nat) : Option Instr :=
  match fn with
  | 0 => some (.tanh (guard w) (laneD w) (laneA w))
  | 1 => some (.tanhx (guard w) (laneD w) (laneA w))
  | _ => none

/-- The codes of lane-set major 0x1C (R356). -/
def lane1C (w v fn : Nat) : Option Instr :=
  match fn with
  | 0 => some (.shflIdx (guard w) (laneD w) (laneA w) (laneB w))
  | 1 => some (.shflUp (guard w) (laneD w) (laneA w) (laneB w))
  | 2 => some (.shflDown (guard w) (laneD w) (laneA w) (laneB w))
  | 3 => some (.shflXor (guard w) (laneD w) (laneA w) (laneB w))
  | _ => none

/-- The codes of lane-set major 0x1D (R356). -/
def lane1D (w v fn : Nat) : Option Instr :=
  match fn with
  | 0 => some (.voteAny (guard w) (laneD w) (laneA w))
  | 1 => some (.voteAll (guard w) (laneD w) (laneA w))
  | 2 => some (.voteBallot (guard w) (laneD w) (laneA w))
  | _ => none

/-- The codes of lane-set major 0x22 (R356). -/
def lane22 (w v fn : Nat) : Option Instr :=
  match fn with
  | 0 => some (.compress (guard w) (laneD w) (laneA w) (laneB w))
  | 1 => some (.expand (guard w) (laneD w) (laneA w) (laneB w))
  | _ => none

/-- The codes of lane-set major 0x2F (R356). -/
def lane2F (w v fn : Nat) : Option Instr :=
  match fn with
  | 0 => some (.rng (guard w) (laneD w) (laneA w))
  | 1 => some (.rngnBm (guard w) (laneD w))
  | 2 => some (.rngnInv (guard w) (laneD w))
  | 3 => some (.rngk (guard w) (laneD w) (laneA w) (laneB w))
  | _ => none

/-- The codes of lane-set major 0x30 (R356). -/
def lane30 (w v fn : Nat) : Option Instr :=
  match fn with
  | 0 => some (.resn (guard w) (laneD w))
  | 1 => some (.resld (guard w) (laneD w) (laneA w))
  | 2 => some (.resst (guard w) (laneD w) (laneA w))
  | _ => none

/-- The codes of lane-set major 0x31 (R356). -/
def lane31 (w v fn : Nat) : Option Instr :=
  match fn with
  | 0 => if laneA w = 32 then some (.hitattrPg (guard w) (laneD w) (laneB w)) else some (.hitattr (guard w) (laneD w) (laneA w))
  | 1 => some (.accept (guard w) (laneA w) (laneB w))
  | 2 => some (.ignore (guard w))
  | 3 => some (.term (guard w) (laneA w) (laneB w))
  | _ => none

/-- The codes of lane-set major 0x32 (R356). -/
def lane32 (w v fn : Nat) : Option Instr :=
  match fn with
  | 0 => some (.lwalk (guard w) (laneD w) (laneA w) (laneB w))
  | _ => none

/-- The codes of lane-set major 0x3A (R356). -/
def lane3A (w v fn : Nat) : Option Instr :=
  match fn with
  | 0 => some (.atomAdd (guard w) (laneD w) (laneA w) (laneB w) (atomX v))
  | 1 => some (.atomMin (guard w) (laneD w) (laneA w) (laneB w) (atomX v))
  | 2 => some (.atomMax (guard w) (laneD w) (laneA w) (laneB w) (atomX v))
  | 3 => some (.atomAnd (guard w) (laneD w) (laneA w) (laneB w) (atomX v))
  | 4 => some (.atomOr (guard w) (laneD w) (laneA w) (laneB w) (atomX v))
  | 5 => some (.atomXor (guard w) (laneD w) (laneA w) (laneB w) (atomX v))
  | 6 => some (.atomExch (guard w) (laneD w) (laneA w) (laneB w) (atomX v))
  | 7 => some (.cas (guard w) (laneD w) (laneA w) (laneB w) (atomX v))
  | _ => none

/-- The codes of lane-set major 0x3B (R356). -/
def lane3B (w v fn : Nat) : Option Instr :=
  match fn with
  | 0 => some (.ldg (guard w) (laneD w) (laneA w) (laneB w) (memX v))
  | 1 => some (.stg (guard w) (laneD w) (laneA w) (laneB w) (memX v))
  | 2 => some (.prefetch (guard w) (laneA w) (laneB w) (lxC v) (lxImm v))
  | _ => none

/-- The codes of lane-set major 0x3C (R356). -/
def lane3C (w v fn : Nat) : Option Instr :=
  match fn with
  | 0 => some (.madB32 (guard w) (laneD w) (laneA w) (laneB w) (lxC v))
  | 1 => some (.madB64 (guard w) (laneD w) (laneA w) (laneB w) (lxC v))
  | 2 => some (.fmaF32 (guard w) (laneD w) (laneA w) (laneB w) (lxC v) (lxAux v))
  | 3 => some (.fmaF16x2 (guard w) (laneD w) (laneA w) (laneB w) (lxC v) (lxAux v))
  | 4 => some (.bfiB32 (guard w) (laneD w) (laneA w) (laneB w) (lxC v))
  | 5 => some (.selB32 (guard w) (laneD w) (laneA w) (laneB w) (lxAux v))
  | 6 => some (.fclampF32 (guard w) (laneD w) (laneA w) (laneB w) (lxC v))
  | _ => none

/-- The codes of lane-set major 0x3D (R356). -/
def lane3D (w v fn : Nat) : Option Instr :=
  match fn with
  | 0 => some (.cvt (guard w) (laneD w) (laneA w) (lxImm v % 16) (lxImm v / 16) (lxAux v))
  | 1 => some (.cvtq (guard w) (laneD w) (laneA w) (lxC v) (lxAux v))
  | 2 => some (.dqv (guard w) (laneD w) (laneA w) (laneB w) (lxAux v))
  | _ => none

/-- The codes of lane-set major 0x3E (R356). -/
def lane3E (w v fn : Nat) : Option Instr :=
  match fn with
  | 0 => if lxImm v = 1 then some (.mxsignWait (guard w) (lxAux v) (laneA w)) else some (.mxsign (guard w) (lxAux v) (laneA w))
  | 1 => some (.mxdrain (guard w) (lxAux v) (laneD w) (laneA w) (laneB w))
  | 2 => some (.neval (guard w) (laneD w) (laneA w) (laneB w))
  | 3 => if lxImm v = 0 then some (.ksign (guard w) (lxAux v)) else if lxImm v = 1 then some (.ksignWait (guard w) (lxAux v)) else if lxImm v = 2 then some (.ksignDecl (guard w) (lxAux v) (laneA w)) else none
  | _ => none

/-- The codes of lane-set major 0x3F (R356). -/
def lane3F (w v fn : Nat) : Option Instr :=
  match fn with
  | 0 => some (.trace (guard w) (lxImm v) (laneD w) (laneA w) (laneB w) (lxC v))
  | 1 => some (.occl (guard w) (lxImm v) (laneD w) (laneA w) (laneB w) (lxC v))
  | 2 => if lxImm v = 1 then some (.marchRes (guard w) (laneD w) (laneA w) (laneB w)) else some (.march (guard w) (laneD w) (laneA w) (laneB w))
  | 3 => some (.resu (guard w) (laneD w) (laneA w) (laneB w) (lxC v))
  | 4 => some (.resm (guard w) (lxAux v) (laneD w) (laneA w) (laneB w) (lxC v))
  | _ => none

/-- The codes of group-set major 0x00 (R357). -/
def group00 (w v fn : Nat) : Option Instr :=
  match fn with
  | 0 => some (.gadd (groupQ w) (groupD w) (groupA w) (groupB w))
  | 1 => some (.gsub (groupQ w) (groupD w) (groupA w) (groupB w))
  | 2 => some (.gmul (groupQ w) (groupD w) (groupA w) (groupB w))
  | 3 => some (.gand (groupQ w) (groupD w) (groupA w) (groupB w))
  | 4 => some (.gor (groupQ w) (groupD w) (groupA w) (groupB w))
  | 5 => some (.gxor (groupQ w) (groupD w) (groupA w) (groupB w))
  | 6 => some (.gshl (groupQ w) (groupD w) (groupA w) (groupB w))
  | 7 => some (.gshr (groupQ w) (groupD w) (groupA w) (groupB w))
  | 8 => some (.gmov (groupQ w) (groupD w) (groupA w))
  | _ => none

/-- The codes of group-set major 0x06 (R357). -/
def group06 (w v fn : Nat) : Option Instr :=
  match fn with
  | 0 => some (.gld (groupQ w) (groupD w) (groupA w) (groupB w))
  | 1 => some (.gst (groupQ w) (groupD w) (groupA w) (groupB w))
  | 2 => some (.gbc (groupQ w) (groupD w) (groupA w))
  | _ => none

/-- The codes of group-set major 0x0B (R357). -/
def group0B (w v fn : Nat) : Option Instr :=
  match fn with
  | 0 => some (.ret (groupQ w) (groupA w))
  | _ => none

/-- The codes of group-set major 0x0C (R357). -/
def group0C (w v fn : Nat) : Option Instr :=
  match fn with
  | 0 => some (.rcvSet (groupQ w) (groupD w))
  | 1 => some (.rcvJoin (groupQ w) (groupD w))
  | _ => none

/-- The codes of group-set major 0x0E (R357). -/
def group0E (w v fn : Nat) : Option Instr :=
  match fn with
  | 0 => some (.endloop (groupQ w))
  | 1 => some (.yield (groupQ w))
  | 2 => some (.exit (groupQ w))
  | _ => none

/-- The codes of group-set major 0x0F (R357). -/
def group0F (w v fn : Nat) : Option Instr :=
  match fn with
  | 0 => some (.segw (groupQ w) (groupA w))
  | 1 => some (.view (groupQ w) (groupA w))
  | 2 => some (.grow (groupQ w) (groupB w))
  | 3 => some (.shrink (groupQ w) (groupB w))
  | _ => none

/-- The codes of group-set major 0x11 (R357). -/
def group11 (w v fn : Nat) : Option Instr :=
  match fn with
  | 0 => some (.xfence (groupQ w) (groupD w / 8) (groupD w % 8) (groupA w))
  | 1 => some (.barTeam (groupQ w))
  | 2 => some (.barCl (groupQ w))
  | _ => none

/-- The codes of group-set major 0x12 (R357). -/
def group12 (w v fn : Nat) : Option Instr :=
  match fn with
  | 0 => some (.tdec (groupQ w) (groupD w) (groupA w) (groupB w))
  | 1 => some (.twait (groupQ w) (groupD w) (groupA w) (groupB w))
  | _ => none

/-- The codes of group-set major 0x13 (R357). -/
def group13 (w v fn : Nat) : Option Instr :=
  match fn with
  | 0 => some (.wtime (groupQ w) (groupA w))
  | 1 => some (.rtime (groupQ w) (groupD w))
  | _ => none

/-- The codes of group-set major 0x14 (R357). -/
def group14 (w v fn : Nat) : Option Instr :=
  match fn with
  | 0 => some (.csrr (groupQ w) (groupD w) (field w 4 12))
  | 1 => some (.csrw (groupQ w) (groupD w) (field w 4 12))
  | 2 => some (.trap (groupQ w) (field w 4 12))
  | 3 => some (.tret (groupQ w))
  | 4 => some (.tmask (groupQ w))
  | 5 => some (.tunmask (groupQ w))
  | 6 => some (.brk (groupQ w))
  | _ => none

/-- Copy command forms by OPT (R430). -/
def copyForm (w v : Nat) : Option Instr :=
  if field w 0 10 = 0 then some (.copyBlockCmd (groupQ w) (groupD w)) else if field w 0 10 = 1 then some (.copyDirect (groupQ w) (groupD w) (groupA w) v) else none

/-- The lane-set majors (R355). -/
def laneWord (w v : Nat) : Option Instr :=
  match field w 25 6 with
  | 0 => lane00 w v (field w 0 3)
  | 1 => lane01 w v (field w 0 3)
  | 2 => lane02 w v (field w 0 3)
  | 3 => lane03 w v (field w 0 3)
  | 4 => lane04 w v (field w 0 3)
  | 5 => lane05 w v (field w 0 3)
  | 6 => some (.lea (guard w) (field w 0 3) (laneD w) (laneA w) (laneB w))
  | 7 => some (.cmpS32 (guard w) (field w 0 3) (laneD w) (laneA w) (laneB w))
  | 8 => some (.cmpN32 (guard w) (field w 0 3) (laneD w) (laneA w) (laneB w))
  | 9 => some (.cmpS64 (guard w) (field w 0 3) (laneD w) (laneA w) (laneB w))
  | 10 => some (.cmpN64 (guard w) (field w 0 3) (laneD w) (laneA w) (laneB w))
  | 11 => some (.addB32Imm (guard w) (laneD w) (laneA w) (field w 0 9))
  | 12 => some (.andB32Imm (guard w) (laneD w) (laneA w) (field w 0 9))
  | 13 => some (.orB32Imm (guard w) (laneD w) (laneA w) (field w 0 9))
  | 14 => some (.xorB32Imm (guard w) (laneD w) (laneA w) (field w 0 9))
  | 15 => some (.shlB32Imm (guard w) (laneD w) (laneA w) (field w 0 9))
  | 16 => some (.shrB32Imm (guard w) (laneD w) (laneA w) (field w 0 9))
  | 17 => some (.sraB32Imm (guard w) (laneD w) (laneA w) (field w 0 9))
  | 19 => lane13 w v (field w 0 3)
  | 20 => lane14 w v (field w 0 3)
  | 21 => lane15 w v (field w 0 3)
  | 22 => some (.fcmpF32 (guard w) (field w 0 3) (laneD w) (laneA w) (laneB w))
  | 23 => some (.frndF32 (guard w) (field w 0 3) (laneD w) (laneA w))
  | 24 => lane18 w v (field w 0 3)
  | 25 => lane19 w v (field w 0 3)
  | 26 => lane1A w v (field w 0 3)
  | 28 => lane1C w v (field w 0 3)
  | 29 => lane1D w v (field w 0 3)
  | 30 => some (.reduxInt (guard w) (field w 0 3) (laneD w) (laneA w))
  | 31 => some (.reduxF32 (guard w) (field w 0 3) (laneD w) (laneA w))
  | 32 => some (.scanInt (guard w) (field w 0 3) (laneD w) (laneA w))
  | 33 => some (.scanF32 (guard w) (field w 0 3) (laneD w) (laneA w))
  | 34 => lane22 w v (field w 0 3)
  | 35 => some (.ldLsB32 (guard w) (laneD w) (laneA w) (field w 6 3) (field w 0 6))
  | 36 => some (.ldLsB64 (guard w) (laneD w) (laneA w) (field w 6 3) (field w 0 6))
  | 37 => some (.stLsB32 (guard w) (laneD w) (laneA w) (field w 6 3) (field w 0 6))
  | 38 => some (.stLsB64 (guard w) (laneD w) (laneA w) (field w 6 3) (field w 0 6))
  | 39 => some (.ldSpB32 (guard w) (laneD w) (laneA w) (field w 6 3) (field w 0 6))
  | 40 => some (.ldSpB64 (guard w) (laneD w) (laneA w) (field w 6 3) (field w 0 6))
  | 41 => some (.stSpB32 (guard w) (laneD w) (laneA w) (field w 6 3) (field w 0 6))
  | 42 => some (.stSpB64 (guard w) (laneD w) (laneA w) (field w 6 3) (field w 0 6))
  | 43 => some (.ldGmB32 (guard w) (laneD w) (laneA w) (field w 6 3) (field w 0 6))
  | 44 => some (.ldGmB64 (guard w) (laneD w) (laneA w) (field w 6 3) (field w 0 6))
  | 45 => some (.stGmB32 (guard w) (laneD w) (laneA w) (field w 6 3) (field w 0 6))
  | 46 => some (.stGmB64 (guard w) (laneD w) (laneA w) (field w 6 3) (field w 0 6))
  | 47 => lane2F w v (field w 0 3)
  | 48 => lane30 w v (field w 0 3)
  | 49 => lane31 w v (field w 0 3)
  | 50 => lane32 w v (field w 0 3)
  | 56 => some (.ldLx (guard w) (field w 0 3) (laneD w) (laneA w) (laneB w) (memX v))
  | 57 => some (.stLx (guard w) (field w 0 3) (laneD w) (laneA w) (laneB w) (memX v))
  | 58 => lane3A w v (field w 0 3)
  | 59 => lane3B w v (field w 0 3)
  | 60 => lane3C w v (field w 0 3)
  | 61 => lane3D w v (field w 0 3)
  | 62 => lane3E w v (field w 0 3)
  | 63 => lane3F w v (field w 0 3)
  | _ => none

/-- The group-set majors (R357). -/
def groupWord (w v : Nat) : Option Instr :=
  match field w 25 6 with
  | 0 => group00 w v (field w 0 4)
  | 1 => some (.gcmp (groupQ w) (field w 0 4) (groupD w) (groupA w) (groupB w))
  | 2 => some (.gmovImm (groupQ w) (groupD w) (field w 0 16))
  | 3 => some (.gaddImm (groupQ w) (groupD w) (field w 0 16))
  | 4 => some (.gorImm (groupQ w) (groupD w) (field w 0 16))
  | 5 => some (.gshlImm (groupQ w) (groupD w) (field w 0 16))
  | 6 => group06 w v (field w 0 4)
  | 8 => some (.br (groupQ w) (field w 19 3) (field w 0 19))
  | 9 => some (.jmp (field w 0 19))
  | 10 => some (.call (groupQ w) (field w 19 3) (field w 0 19))
  | 11 => group0B w v (field w 0 4)
  | 12 => group0C w v (field w 0 4)
  | 13 => some (.loop (groupQ w) (groupD w) (field w 0 16))
  | 14 => group0E w v (field w 0 4)
  | 15 => group0F w v (field w 0 4)
  | 16 => some (.wait (decide (field w 24 1 = 1)) (field w 18 6) (field w 12 6) (field w 6 6) (field w 0 6))
  | 17 => group11 w v (field w 0 4)
  | 18 => group12 w v (field w 0 4)
  | 19 => group13 w v (field w 0 4)
  | 20 => group14 w v (field w 0 4)
  | 56 => some (.launch (groupQ w) (groupD w) (groupA w) (field w 0 10) v)
  | 57 => copyForm w v
  | 58 => some (.coll (groupQ w) (groupD w))
  | 59 => some (.strn (groupQ w) (groupD w))
  | 60 => some (.chain (groupQ w) (groupD w))
  | _ => none

end Dec

/-- The instruction whose codes the words carry, its operands not yet checked. -/
def decodeRaw (w1 w2 : Nat) : Option Instr :=
  if Enc.field w1 31 1 = 0 then Dec.laneWord w1 w2 else Dec.groupWord w1 w2

/-- The instruction of the words `w1` and `w2` (`w2` is ignored by a one-word form), or why they are none (R353, R354). -/
def decodeWords (w1 w2 : Nat) : Except DecodeError Instr :=
  match decodeRaw w1 w2 with
  | none => .error .reservedCode
  | some i =>
    if i.wf then
      if encode i = some (w1, if isTwoWord w1 then w2 else 0) then .ok i else .error .unusedField
    else .error .illegalOperand

/-- The little-endian word at the head of a list of bytes, and the rest (R347). -/
def wordOfBytes : List Nat → Option (Nat × List Nat)
  | b0 :: b1 :: b2 :: b3 :: rest => some (b0 % 256 + 256 * (b1 % 256) + 65536 * (b2 % 256) + 16777216 * (b3 % 256), rest)
  | _ => none

/-- The instruction at the head of any list of bytes, and the bytes after it. -/
def decodeBytes (bs : List Nat) : Except DecodeError (Instr × List Nat) :=
  match wordOfBytes bs with
  | none => .error .tooShort
  | some (w1, r1) =>
    if isTwoWord w1 then
      match wordOfBytes r1 with
      | none => .error .tooShort
      | some (w2, r2) => (decodeWords w1 w2).map fun i => (i, r2)
    else (decodeWords w1 0).map fun i => (i, r1)

/-- The bytes of a word, low byte first (R347). -/
def bytesOfWord (w : Nat) : List Nat := [w % 256, w / 256 % 256, w / 65536 % 256, w / 16777216 % 256]

/-- The eight bytes in which an instruction numbered as the opcode table numbers its bits stands in memory: its first word, then its
second. Bits above `nbits` are zero. -/
def tableBytes (nbits w : Nat) : List Nat :=
  bytesOfWord (w % 2 ^ nbits % 4294967296) ++ bytesOfWord (w % 2 ^ nbits / 4294967296)

/-- The instruction that the decoder reads from a word numbered as the opcode table numbers it. -/
def decodeTableWord (nbits w : Nat) : Option Instr :=
  match decodeBytes (tableBytes nbits w) with
  | .ok (i, _) => some i
  | .error _ => none

end Sys2Proof
end

