-- ==== Sys2Proof/Machine/Mem.lean ====
section
/-!
DEFINITION. Byte memories in one canonical form: a list of (address, byte) pairs, addresses strictly rising, no entry equal to what an
unlisted address reads as. Module memory, the scratchpads, the lane slices and the register spaces are all held this way. An unlisted byte
reads as 0 (DESIGN CHOICE, log entry 8).
-/
namespace Sys2Proof.Machine

/-- A memory: see the file's head. -/
abbrev Mem := List Host.Cell

/-- What an unlisted byte reads as. (in part DESIGN CHOICE, log entry 8) -/
def unlistedByte : Byte := 0

namespace Mem

/-- Addresses strictly rise from above `lo`, and no entry holds what an unlisted byte reads as. -/
def wfAbove (lo : Option Nat) : Mem → Bool
  | [] => true
  | (a, b) :: rest => (match lo with | none => true | some l => decide (l < a)) && decide (b ≠ unlistedByte) && wfAbove (some a) rest

/-- The canonical form. (in part DESIGN CHOICE, log entry 8) -/
def wf (m : Mem) : Bool := wfAbove none m

/-- The byte at an address. -/
def read : Mem → Nat → Byte
  | [], _ => unlistedByte
  | (a, b) :: rest, x => if x < a then unlistedByte else if x = a then b else read rest x

/-- Writes one byte and keeps the canonical form. -/
def write : Mem → Nat → Byte → Mem
  | [], x, v => if v = unlistedByte then [] else [(x, v)]
  | (a, b) :: rest, x, v =>
    if x < a then (if v = unlistedByte then (a, b) :: rest else (x, v) :: (a, b) :: rest)
    else if x = a then (if v = unlistedByte then rest else (x, v) :: rest)
    else (a, b) :: write rest x v

/-- The little-endian number in `n` bytes from `a` (R3). -/
def readN (m : Mem) (a : Nat) : Nat → Nat
  | 0 => 0
  | n + 1 => (read m a).toNat + 256 * readN m (a + 1) n

/-- Writes `n` bytes of a number from `a`, low byte first. -/
def writeN (m : Mem) (a : Nat) : Nat → Nat → Mem
  | 0, _ => m
  | n + 1, v => writeN (write m a (BitVec.ofNat 8 v)) (a + 1) n (v / 256)

/-- The bytes from `a`. -/
def bytes (m : Mem) (a n : Nat) : List Byte := (List.range n).map fun k => read m (a + k)

/-- Writes a list of bytes from `a`. -/
def writeBytes (m : Mem) (a : Nat) : List Byte → Mem
  | [] => m
  | b :: rest => writeBytes (write m a b) (a + 1) rest

/-- Sets every byte from `a` to below `a + n` to 0: their entries go. -/
def clear (m : Mem) (a n : Nat) : Mem := m.filter fun c => decide (c.1 < a) || decide (a + n ≤ c.1)

/-- The entries from `a` to below `a + n`, counted from `a`. -/
def slice (m : Mem) (a n : Nat) : Mem :=
  (m.filter fun c => decide (a ≤ c.1) && decide (c.1 < a + n)).map fun c => (c.1 - a, c.2)

end Mem

/-- The number of a list of bytes, low byte first. -/
def numOfBytes : List Byte → Nat
  | [] => 0
  | b :: rest => b.toNat + 256 * numOfBytes rest

/-- `n` bytes of a number, low byte first. -/
def bytesOfNum : Nat → Nat → List Byte
  | 0, _ => []
  | n + 1, v => BitVec.ofNat 8 v :: bytesOfNum n (v / 256)

end Sys2Proof.Machine
end

