-- ==== Sys2Proof/Machine/State.lean ====
section
/-!
DEFINITION. The state of the module, as plain data, and the state right after module reset. INVENTORY.md lists each piece with the rule
that names it.
-/
namespace Sys2Proof.Machine

/-! ## Accesses -/

/-- Where the bytes of an access stand, once its address is checked (R174, R189): module physical memory, the host window included; a
scratchpad byte of a core; a chip scratchpad byte; a lane slice; or a domain address of another module. -/
inductive Place
  | phys (a : Nat)
  | sp (core off : Nat)
  | chip (die off : Nat)
  | slice (core slot lane off : Nat)
  | remote (a : Nat)
  deriving DecidableEq, Repr, Inhabited

/-- Where returned data goes, as it was named at issue: byte offsets of the lane's register space (R162, R166). -/
inductive Dest
  | none
  /-- The 32-bit word at `at_`, from the low `n` bytes, sign-extended or not (R398). -/
  | word (at_ n : Nat) (signed : Bool)
  /-- `n` bytes from `at_`. -/
  | bytes (at_ n : Nat)
  /-- G(k) of the group, for the whole cohort (R421). -/
  | g (k : Nat)
  deriving DecidableEq, Repr, Inhabited

/-- Which entry an access lowers when it completes (R215). -/
inductive Counter
  | ld | st | cp | mx | none
  deriving DecidableEq, Repr, Inhabited

/-- One part of a read: where it stands, its length, and its data once read. -/
structure ReadPart where
  place : Place
  len : Nat
  got : Option Nat
  poison : Bool
  deriving DecidableEq, Repr, Inhabited

/-- An ordered pixel access (R287, R288). `arrived` says that it waits at the scoreboard, and `held` that it found the scoreboard full,
which blocks its lane. -/
structure PixelAccess where
  id : Nat
  core : Nat
  slot : Nat
  lane : Nat
  part : Nat
  pixel : Nat
  order : Nat
  strict : Bool
  write : Bool
  word : Place
  place : Place
  len : Nat
  data : List Byte
  dest : Dest
  scope : Nat
  addr : Nat
  arrived : Bool
  held : Bool
  deriving DecidableEq, Repr, Inhabited

/-- What an access in flight still has to do. -/
inductive FlightKind
  /-- A read whose parts are read at their homes, then delivered. -/
  | read (dest : Dest)
  /-- An atomic (R404): operation, type, operand, and the second operand of `cas`. -/
  | atomic (fn typ x y : Nat) (dest : Dest)
  /-- A write: its parts name the places, in order, that the bytes of `data` go to. -/
  | write
  /-- A tumbler decrement (R415) by `x`. -/
  | tdec (x : Nat)
  /-- A halo write (R42) with its tag. -/
  | halo (tag : Nat)
  /-- A time sideband message (R47). -/
  | time
  /-- An ordered pixel access on its way to the scoreboard of the other die (R287). -/
  | pixel (p : PixelAccess)
  deriving DecidableEq, Repr, Inhabited

/-- Where a flight stands. -/
inductive Stage
  /-- A request that travels across the Hinge to the die of its home. -/
  | request
  /-- Performed at the other die; the answer travels back. -/
  | answer
  /-- Sent to another module or to the host; its answer comes from outside. -/
  | outside
  /-- Sent to another module or to the host by the other die; the answer that comes there then travels back. -/
  | beyond
  /-- Discarded by its receiver (R37): it is never answered, and its time runs out. -/
  | lost
  /-- Performed: the result is to be delivered or the counter lowered. -/
  | performed
  deriving DecidableEq, Repr, Inhabited

/-- One access that has left its issuer (R37, R215). `die` is the issuing die and `lanes` the lanes whose entry it lowers; `engine` names
the engine command it belongs to, if any. `stamp` is the stamp of R38 when the message carries one, `tag` its TAG, and `pc` the instruction.
`viaOther` says that the other die sends its requests to other modules (R46), and `reply` names the port and number of a request of another
module that it serves (R45). -/
structure Flight where
  id : Nat
  kind : FlightKind
  stage : Stage
  part : Nat
  die : Nat
  core : Nat
  slot : Nat
  lanes : List Nat
  path : Nat
  scope : Nat
  acquire : Bool
  release : Bool
  counter : Counter
  addr : Nat
  reads : List ReadPart
  data : List Byte
  seqNo : Nat
  stamp : Option (Nat × Nat)
  tag : Nat
  pc : Word64
  viaOther : Bool
  reply : Option (Nat × Nat)
  engine : Option Nat
  deriving DecidableEq, Repr, Inhabited

/-! ## Lanes -/

/-- A pending slot of a lane (R326), in the fields of the trap frame (R327). -/
structure PendSlot where
  cause : Nat
  info : Nat
  epc : Word64
  val : Word64
  token : Nat
  deriving DecidableEq, Repr, Inhabited

/-- What a replay asked of a lane whose team was saved (R341): nothing, to issue again, or to enter its handler (R324). -/
inductive Release
  | none | replay | unrecoverable
  deriving DecidableEq, Repr, Inhabited

/-- An error of class 0 that reached a lane after it had moved on, and parks it at its next boundary (R323, R478): cause, ACCESS, address, the
token of a record that is written already, and the access that a replay repeats. -/
structure LateErr where
  cause : Nat
  access : Nat
  addr : Word64
  token : Option Nat
  redo : Option Flight
  deriving DecidableEq, Repr, Inhabited

/-- Why a lane is parked (R325, R91, R478): its cause, the replay token of its record (0 when the ring was full), the address and access
that faulted, and whether it parked at a boundary for an asynchronous error. `more` holds the tokens of its records for further pages.
`released` is what a replay asked of it while its team was saved, and `redo` the access that a replay repeats for it. -/
structure Park where
  cause : Nat
  token : Nat
  more : List Nat
  addr : Word64
  access : Nat
  boundary : Bool
  released : Release
  redo : Option Flight
  deriving DecidableEq, Repr, Inhabited

/-- What a lane that is not parked waits for (R155). -/
inductive LaneWait
  /-- It is ready to issue. -/
  | none
  /-- Its instruction could not complete: it issues again with exactly these lanes. -/
  | cohort (lanes : List Nat)
  /-- A `wait` of these lanes whose limits are not met (R217). -/
  | limits (lanes : List Nat) (all : Bool) (ld st cp mx : Nat)
  /-- `rcv.join` of a barrier (R158). -/
  | join (n : Nat)
  /-- The end step of a loop level (R161). -/
  | loopEnd (n : Nat)
  /-- `bar.team` (R409). -/
  | barTeam
  /-- `bar.cl` (R409). -/
  | barCl
  /-- A sign that cannot be recorded yet (R413), with the card it supplies and whether the lane then waits for the round. -/
  | keySign (n : Nat) (card : Option Nat) (thenWait : Bool)
  /-- A signed lane that waits for the end of the round (R412). -/
  | keyRound (n : Nat)
  /-- A declare that waits for the keyring to be IDLE (R413). -/
  | keyDecl (n mask : Nat)
  /-- `wtime` until a device time (R429). -/
  | time (target : Nat)
  /-- `twait` until a tumbler is at most a bound (R416). -/
  | tumbler (id : Nat) (addr bound : Word64) (scope : Nat)
  /-- `grow` by some steps, in the order in which the requests were made (R170). -/
  | grow (steps order : Nat)
  /-- A calling ray, until its result is written (R260). -/
  | ray (id : Nat)
  /-- A row of the Blend unit, until it is accepted (R449). -/
  | neval (row : Nat)
  /-- A light walk, until it returns (R456). -/
  | lwalk (id : Nat)
  deriving DecidableEq, Repr, Inhabited

/-- One lane (R165, R257, R276, R326). `reserved` is the slot that its `launch` has reserved while it is parked there (R431), and `home` the
slot of its home group while it is swapped (R278); `glob` is its global index (R257). -/
structure Lane where
  pc : Word64
  regs : Mem
  preds : BitVec 8
  rngKey : Word64
  rngPos : Word64
  rngStr : Word32
  sret : Word64
  shader : Bool
  exited : Bool
  frozen : Bool
  parked : Option Park
  tdep : Nat
  tmsk : Bool
  pend : List (Option PendSlot)
  late : List LateErr
  reserved : Option Nat
  slice : Mem
  ld : Nat
  st : Nat
  cp : Nat
  mx : Nat
  wait : LaneWait
  home : Option Nat
  glob : Nat
  deriving DecidableEq, Repr, Inhabited

/-! ## Groups -/

/-- A reconvergence barrier (R157). -/
structure Barrier where
  mask : BitVec 32
  arr : BitVec 32
  deriving DecidableEq, Repr, Inhabited

/-- One loop level (R160): COUNT and LEN of LCn, LEn, the start of the body, and the member mask. -/
structure LoopLevel where
  count : Nat
  len : Nat
  last : Word64
  members : BitVec 32
  deriving DecidableEq, Repr, Inhabited

/-- The cohort that issues (R152), and the words at its program counter. -/
structure Issue where
  core : Nat
  slot : Nat
  lanes : List Nat
  pc : Word64
  w1 : Nat
  w2 : Nat
  deriving DecidableEq, Repr, Inhabited

/-- One group (R165, R172). `shadow` is the slot of its shadow group (R342). `sln` holds, for each keyring, the lanes that signed in its round, and `mxs` those of them that signed by `mxsign` (R411, R440). -/
structure Group where
  core : Nat
  slot : Nat
  team : Nat
  index : Nat
  steps : Nat
  vbase : Nat
  tbase : Nat
  abase : Nat
  wlog : Nat
  segen : Nat
  g : List Word64
  q : BitVec 8
  gb0 : Word32
  gb1 : Word32
  ldep : Nat
  loops : List LoopLevel
  bars : List Barrier
  ag0 : Nat
  ag1 : Nat
  ag2 : Nat
  ag3 : Nat
  rmcap : Nat
  stky : Nat
  tvec : Word64
  tframe : Nat
  invalidA : BitVec 8
  sln : List (BitVec 32)
  mxs : List (BitVec 32)
  stampRun : Bool
  active : Bool
  activeSince : Nat
  slowSince : Nat
  current : Bool
  readyAt : Nat
  inStore : Bool
  storeUse : Nat
  shadow : Option Nat
  lanes : List Lane
  deriving DecidableEq, Repr, Inhabited


/-- An entry of the queue from a group to its shadow (R342): an instruction that the shadow executes, or the group before and after something
that it takes from the queue: a result, a fault, a trap entry, a replay release. -/
inductive ShadowEntry
  | issue (i : Issue)
  | follow (before after : Group)
  deriving DecidableEq, Repr, Inhabited

/-- A shadow group (R342): the slot of its leading group on its core, its own state, which names its own slot, and the entries of its queue. -/
structure Shadow where
  lead : Nat
  group : Group
  queue : List ShadowEntry
  deriving DecidableEq, Repr, Inhabited

/-! ## Memory accesses in flight -/

/-- One entry of a core's store buffer (R206). -/
structure BufEntry where
  id : Nat
  core : Nat
  slot : Nat
  lanes : List Nat
  part : Nat
  place : Place
  data : List Byte
  scope : Nat
  stamped : Bool
  addr : Nat
  deriving DecidableEq, Repr, Inhabited

/-- A TLB entry (R193): `core` is none for an entry of a die's shared TLB. -/
structure TlbEntry where
  die : Nat
  core : Option Nat
  part : Nat
  vbase : Nat
  size : Nat
  phys : Nat
  w : Bool
  at_ : Bool
  rt : Bool
  attr : Nat
  deriving DecidableEq, Repr, Inhabited

/-- A page walk that waits (R194), for a prefetch or an engine. (in part DESIGN CHOICE, log entry 70) -/
structure Walk where
  id : Nat
  die : Nat
  core : Option Nat
  part : Nat
  va : Nat
  deriving DecidableEq, Repr, Inhabited

/-- A recorded copy into a scratchpad (R183): the command, the core of a core scratchpad (none for a chip scratchpad), its die, and the
span. -/
structure RangeEntry where
  cmd : Nat
  core : Option Nat
  die : Nat
  first : Nat
  last : Nat
  deriving DecidableEq, Repr, Inhabited

/-- The answer to a request that a unit of the module sent to the other die or to another module (R37, R45), with the unit's identifier: the
data, or the cause of its failure; `wr` says that it answers a write. -/
structure Arrived where
  owner : Nat
  addr : Nat
  len : Nat
  data : Nat
  cause : Nat
  wr : Bool
  deriving DecidableEq, Repr, Inhabited

/-- A unit that waits for a replay (R91): the token of its record, its cause and the address. -/
structure Pause where
  token : Nat
  cause : Nat
  addr : Nat
  deriving DecidableEq, Repr, Inhabited
/-! ## Partitions -/

/-- The setup record of a partition as the module holds it (R82). -/
structure Setup where
  shadow : Bool
  rollback : Bool
  ptroot : Nat
  fbbase : Nat
  fblog2 : Nat
  nstream : Nat
  predl : Nat
  qmask0 : Nat
  qmask1 : Nat
  l2mask0 : Nat
  l2mask1 : Nat
  carve0 : Nat
  carve1 : Nat
  chsp0 : Nat
  chsp1 : Nat
  cpymask : Nat
  colmask : Nat
  period : Nat
  budget : List Nat
  ranges : List (Nat × Nat)
  deriving DecidableEq, Repr, Inhabited

/-- STATE of `HIF_PSTAT` (R85). -/
inductive PartState
  | free | busy | active | resetting
  deriving DecidableEq, Repr, Inhabited

/-- A queued invalidation of `HIF_TLBINV` (R94): every entry, or the page that holds an address. -/
inductive TlbInv
  | all
  | page (va : Nat)
  deriving DecidableEq, Repr, Inhabited

/-- A ring area register in the layout of `SCH_ODRAREA` (R149, R199). -/
structure AreaReg where
  log2 : Nat
  base : Nat
  deriving DecidableEq, Repr, Inhabited

/-- An area that is absent. -/
def AreaReg.none : AreaReg := ⟨0, 0⟩

/-- The residency feedback ring of a partition (R199). -/
structure ResFeed where
  area : AreaReg
  head : Nat
  tail : Nat
  thresh : Nat
  ovf : Bool
  touchen : Bool
  deriving DecidableEq, Repr, Inhabited

/-- A value with its written copy and the copy in force on each die (R41, R301). -/
structure PerDie where
  written : Nat
  die0 : Nat
  die1 : Nat
  deriving DecidableEq, Repr, Inhabited

/-- One meter (R143). -/
structure Meter where
  used : Nat
  held : Bool
  deriving DecidableEq, Repr, Inhabited

/-- The scheduler registers of a partition (R149), the cores that a request vacates (R144), and those withheld after it (R146). -/
structure SchRegs where
  preen : Bool
  migen : Bool
  odrovf : Bool
  oversub : Bool
  migidle : Nat
  ctx : AreaReg
  odr : AreaReg
  odrHead : Nat
  odrTail : Nat
  ls : AreaReg
  peState : Nat
  vacated : Nat
  vacating : List Nat
  keep : Bool
  withheld : List Nat
  withheldClass : Nat
  withheldUntil : Nat
  meters : List Meter
  periodNext : Nat
  deriving DecidableEq, Repr, Inhabited

/-- The pixel-order registers (R286). -/
structure PixelRegs where
  base : Nat
  bpp : Nat
  tcols : Nat
  trows : Nat
  ord : Nat
  stat : Nat
  deriving DecidableEq, Repr, Inhabited

/-- The reservoir registers of a partition (R301): the backing base of each die, the geometry, the frame and phase of each die, and the
halo window each die has open. -/
structure ResRegs where
  back0 : Nat
  back1 : Nat
  geom : PerDie
  frame0 : Nat
  phase0 : Nat
  frame1 : Nat
  phase1 : Nat
  deriving DecidableEq, Repr, Inhabited

/-! ## Streams -/

/-- The states of a front end (R105). -/
inductive FeState
  | disabled | idle | reading | waiting | halted
  deriving DecidableEq, Repr, Inhabited

/-- A packet that has been read and not yet dispatched (R99). -/
structure Packet where
  addr : Nat
  nslot : Nat
  bytes : List Byte
  deriving DecidableEq, Repr, Inhabited

/-- The buffer of a `JUMP` (R102): its address, its length in slots, the next slot, and IRQ of its packet. -/
structure Jump where
  buf : Nat
  count : Nat
  pos : Nat
  irq : Bool
  deriving DecidableEq, Repr, Inhabited

/-- What a dispatched packet started (R102): a grid, a graph, an engine's command, or a decrement that another module has not yet
acknowledged. -/
inductive WorkRef
  | grid (id : Nat)
  | graph (id : Nat)
  | command (id : Nat)
  | signal (flight : Nat)
  deriving DecidableEq, Repr, Inhabited

/-- Dispatched work that a later `FENCE` or `SEMSIG` waits for (R102, R336). -/
structure Work where
  ref : WorkRef
  irq : Bool
  failed : Bool
  deriving DecidableEq, Repr, Inhabited

/-- One stream (R96 to R105). `seen` is the tail as the front end last saw it, and `haltSlots` the slots of a failed packet. -/
structure Stream where
  num : Nat
  qbase : Nat
  qlog2 : Nat
  en : Bool
  mtail : Bool
  tailaddr : Nat
  erraddr : Nat
  head : Nat
  tail : Nat
  seen : Nat
  state : FeState
  ecode : Nat
  haltSlots : Nat
  packet : Option Packet
  jump : Option Jump
  work : List Work
  deriving DecidableEq, Repr, Inhabited

/-- One entry of an MSI-X table (R75): message address, data and mask. -/
structure MsixEntry where
  addr : Nat
  data : Nat
  masked : Bool
  deriving DecidableEq, Repr, Inhabited

/-- One partition (R80 to R94). -/
structure Partition where
  num : Nat
  state : PartState
  done : Bool
  err : Nat
  flrpend : Bool
  destroying : Bool
  scrub : Bool
  setup : Setup
  next : Option Setup
  pendBudget : Option (Nat × List Nat)
  fbHead : Nat
  fbTail : Nat
  fbThresh : Nat
  nptrap : Bool
  fbOvf : Bool
  nextToken : Nat
  tlbPend : List (TlbInv × Nat)
  screenBandw : PerDie
  screenHalod : PerDie
  istat : Nat
  ivmap : List Nat
  msix : List MsixEntry
  msixPend : Nat
  sch : SchRegs
  rf : ResFeed
  px : PixelRegs
  res : ResRegs
  blendWin : Nat
  blendMaxg : Nat
  chip0 : List Nat
  chip1 : List Nat
  gens : List (Nat × Nat)
  streams : List Stream
  deriving DecidableEq, Repr, Inhabited
/-! ## Grids, teams and graphs -/

/-- A launch record as the front end read it (R108). -/
structure LaunchRec where
  entry : Nat
  gridx : Nat
  gridy : Nat
  gridz : Nat
  gpt : Nat
  clw : Nat
  clh : Nat
  detm : Bool
  vbase : Nat
  tbase : Nat
  abase : Nat
  regsz : Nat
  bclass : Nat
  tscope : Nat
  spfoot : Nat
  args : Nat
  tumb : Nat
  amount : Nat
  fs : List Nat
  kcbase : Nat
  deriving DecidableEq, Repr, Inhabited

/-- One grid (R110 to R114, R476). `id` is the model's own name for it; slot and generation make its handle. -/
structure Grid where
  id : Nat
  part : Nat
  slot : Nat
  gen : Nat
  rcd : LaunchRec
  die : Nat
  stream : Option Nat
  node : Option (Nat × Nat)
  parent : Option Nat
  depth : Nat
  children : Nat
  childFailed : Bool
  nextTeam : Nat
  teamsDone : Nat
  order : Nat
  deriving DecidableEq, Repr, Inhabited

/-- STATE of a keyring (R411). -/
structure Keyring where
  open_ : Bool
  decl : BitVec 32
  sgrp : BitVec 32
  card : Nat
  deriving DecidableEq, Repr, Inhabited

/-- The states of a team (R137). HELD is PLACED while the core-cycle meter of its partition is held. -/
inductive TeamState
  | pending | placed | migrating | stopping | saving
  deriving DecidableEq, Repr, Inhabited

/-- The states of the Deadbolt of a team (R338). -/
inductive DbState
  | idle | drainShd | freeze | scan | complete | close
  deriving DecidableEq, Repr, Inhabited

/-- One team of a grid that has been placed or saved (R136). `latched` is a request that waits for a mask to clear (R337), with the time
at which its deadline passes, `due` says that a checkpoint is due (R333), and `frozenAt` is the time of the last freeze. -/
structure Team where
  id : Nat
  grid : Nat
  part : Nat
  linear : Nat
  core : Nat
  slots : List Nat
  spbase : Nat
  spfoot : Nat
  state : TeamState
  keyrings : List Keyring
  repeatable : Bool
  rollbacks : Nat
  db : DbState
  dbKind : DbKind
  latched : Option (DbKind × Nat)
  dest : Option Nat
  parktok : Nat
  since : Nat
  due : Bool
  frozenAt : Nat
  deriving DecidableEq, Repr, Inhabited

/-- A forwarding entry (R139). -/
structure FwdEntry where
  core : Nat
  slots : List Nat
  team : Nat
  until_ : Nat
  spbase : Nat
  spfoot : Nat
  deriving DecidableEq, Repr, Inhabited

/-- The kinds of a graph node (R127). -/
inductive NodeKind
  | grid | copy | collective | strainer | matrix
  deriving DecidableEq, Repr, Inhabited

/-- The states of a graph node (R133). -/
inductive NodeState
  | reserved | ready | dispatched | complete | aborted
  deriving DecidableEq, Repr, Inhabited

/-- A tile operand (R127). -/
structure Operand where
  base : Nat
  pitch : Nat
  rowb : Nat
  rows : Nat
  write : Bool
  deriving DecidableEq, Repr, Inhabited

/-- A node of a graph (R127, R133), with the die chosen for it, the launch record of a grid node (R128), and the TAIL that a matrix chain
must reach (R131). -/
structure GNode where
  kind : NodeKind
  die : Nat
  cls : Nat
  payload : Nat
  rcd : Option LaunchRec
  succs : List Nat
  ops : List Operand
  preds : Nat
  state : NodeState
  order : Nat
  tailAt : Nat
  deriving DecidableEq, Repr, Inhabited

/-- A graph (R126 to R133). `pool` says that its pool slots are reserved; until then its `GRAPH` packet waits. -/
structure Graph where
  id : Nat
  part : Nat
  stream : Nat
  tumb : Nat
  amount : Nat
  scope : Nat
  pool : Bool
  failed : Bool
  nodes : List GNode
  deriving DecidableEq, Repr, Inhabited

/-- A line's order-dependence record (R148): the first team that wrote it in the interval, and the count of distinct writing teams. -/
structure LineRec where
  grid : Nat
  line : Nat
  first : Nat
  writers : List Nat
  count : Nat
  deriving DecidableEq, Repr, Inhabited

/-! ## Engines -/

/-- The engines that run blocks (R115). -/
inductive EngKind
  | copy | collective | strainer | matrix
  deriving DecidableEq, Repr, Inhabited

/-- Who gave an engine its work: a packet of a stream with its address and first bytes, a chain, a node of a graph, or a group. -/
inductive Issuer
  | packet (stream addr : Nat) (head32 : List Byte)
  | chain (id : Nat)
  | node (graph node : Nat)
  | group (core slot : Nat) (lanes : List Nat)
  deriving DecidableEq, Repr, Inhabited

/-- A copy in progress (R120): the next byte of the current row. -/
structure CopyJob where
  op : Nat
  rowBytes : Nat
  rows : Nat
  src : Nat
  dst : Nat
  sstride : Nat
  dstride : Nat
  htag : Nat
  row : Nat
  off : Nat
  recorded : Bool
  deriving DecidableEq, Repr, Inhabited

/-- A contribution of a member to the attempt that runs, or one held for a later attempt (R344). -/
structure CollMsg where
  attempt : Nat
  member : Nat
  data : List Nat
  deriving DecidableEq, Repr, Inhabited

/-- What a collective engine keeps of a block whose attempt it aborted (R344): the command, the block's address, the current attempt, and the
messages held for it. -/
structure CollBuf where
  id : Nat
  part : Nat
  block : Nat
  attempt : Nat
  held : List CollMsg
  deriving DecidableEq, Repr, Inhabited

/-- A collective in progress (R121, R344): `mods` holds the modules of its members, `next` is the next member to send to, `src0` holds its own
elements once read, and `written` the bytes of its result that are written. -/
structure CollJob where
  op : Nat
  red : Nat
  fmt : Nat
  nmem : Nat
  memtab : Nat
  src : Nat
  dst : Nat
  count : Nat
  attempt : Nat
  root : Nat
  self : Nat
  mods : List Nat
  next : Nat
  sent : Bool
  got : List CollMsg
  heldMsgs : List CollMsg
  lastMsg : Nat
  src0 : List Nat
  written : Nat
  deriving DecidableEq, Repr, Inhabited

/-- A chain attached to an engine (R115 to R119): the engine's own copies of HEAD, SEQ and STATUS. `waiting` names the lanes whose `chain`
waits for the attach (R432), and `paused` a fault at the descriptor or at a block that is read (R91). `loaded` says that the descriptor has been read; the private chain of
a node (R131) has none. `owed` holds the descriptor writes that wait for a fault of its page. -/
structure Chain where
  id : Nat
  desc : Nat
  part : Nat
  kind : EngKind
  engine : Nat
  head : Nat
  seq : Nat
  tail : Nat
  halted : Bool
  needNext : Bool
  errAddr : Nat
  scope : Nat
  stream : Option Nat
  node : Option (Nat × Nat)
  running : Option Nat
  attached : Bool
  loaded : Bool
  waiting : Option (Nat × Nat × List Nat)
  paused : Option Pause
  owed : List (Nat × List Byte)
  deriving DecidableEq, Repr, Inhabited


/-- A reservoir record (R290). -/
structure Reservoir where
  handle : Nat
  phat : Nat
  wsum : Nat
  w : Nat
  m : Nat
  flags : Nat
  rctr : Nat
  ftag : Nat
  deriving DecidableEq, Repr, Inhabited

/-- A pixel that a pass works on (R307): the record under way, the candidates that remain with their source codes, the position of the
next, and the target value and ray of a candidate whose visibility is tested. -/
structure PixelWork where
  pix : Nat
  rcd : Reservoir
  cands : List (Reservoir × Nat)
  pos : Nat
  testing : Option (Nat × Nat)
  deriving DecidableEq, Repr, Inhabited

/-- A Strainer block in progress (R305, R309): its bytes, what it latched at its start, with its die, the callable's words, the pixels that
remain, and the results; `sent` says that the first of them is being written. -/
structure StrainJob where
  bytes : List Byte
  die : Nat
  frame : Nat
  tcols : Nat
  trows : Nat
  bandw : Nat
  halod : Nat
  words : List Nat
  pixels : List Nat
  work : Option PixelWork
  results : List (Nat × Reservoir)
  sent : Bool
  deriving DecidableEq, Repr, Inhabited

/-- The body of a command (R120, R121, R305, R116). -/
inductive EngBody
  | copy (j : CopyJob)
  | coll (j : CollJob)
  | strainer (j : StrainJob)
  | matrix (card : List Byte)
  deriving DecidableEq, Repr, Inhabited

/-- A command that an engine holds (R102, R117, R120, R121, R305, R477): its block's first 32 bytes and its body. `started` says that its
work has begun, and `paused` that it waits on a translation fault (R91). -/
structure EngCmd where
  id : Nat
  kind : EngKind
  engine : Nat
  part : Nat
  issuer : Issuer
  blockAddr : Nat
  head32 : List Byte
  tdec : Bool
  tscope : Nat
  tumb : Nat
  amount : Nat
  body : EngBody
  started : Bool
  paused : Option Pause
  deriving DecidableEq, Repr, Inhabited

/-- The engines, the buffers of aborted collectives, and the count of dropped collective messages (R344). -/
structure Engines where
  chains : List Chain
  cmds : List EngCmd
  bufs : List CollBuf
  dropped : Nat
  deriving DecidableEq, Repr, Inhabited

/-- No engine work. -/
def Engines.reset : Engines := ⟨[], [], [], 0⟩

/-! ## Rays, marches, light walks -/

/-- A ray as it was given, in FP32 codes (R261, R457). TMAX falls at each commit. -/
structure RayGeom where
  ox : Nat
  oy : Nat
  oz : Nat
  dx : Nat
  dy : Nat
  dz : Nat
  tmin : Nat
  tmax : Nat
  deriving DecidableEq, Repr, Inhabited

/-- A hit or a candidate (R458, R269): `key` is the page, or the reference of a procedural hit. -/
structure Hit where
  t : Nat
  key : Nat
  tri : Nat
  proc : Bool
  proxy : Bool
  bu : Nat
  bv : Nat
  inst : Nat
  ref : Nat
  primid : Nat
  hgroup : Nat
  attr : List Nat
  deriving DecidableEq, Repr, Inhabited

/-- Who sent a ray: a lane, a Strainer's command, or a march. -/
inductive RayOwner
  | lane (core slot lane : Nat)
  | strainer (cmd : Nat)
  | march (id : Nat)
  deriving DecidableEq, Repr, Inhabited

/-- STATE of a ray slot (R262). -/
inductive RayState
  | walk | awaitShd | done
  | faulted (p : Pause)
  deriving DecidableEq, Repr, Inhabited

/-- The cluster reference that a ray works on (R264, R265): its address and bytes, whether its page's header has been read, that page, whether
it is the proxy's, the triangles still to test in order, and ANYHIT of its hit group record once read. -/
structure PageWork where
  ref : Nat
  bytes : List Byte
  opened : Bool
  page : Nat
  proxy : Bool
  tris : List Nat
  hg : Option Nat
  deriving DecidableEq, Repr, Inhabited

/-- An exact quotient, its denominator positive. -/
structure Frac where
  num : Int
  den : Nat
  deriving DecidableEq, Repr, Inhabited

/-- One ray slot (R261, R262). `dest` is where the result goes, as first byte and length; `stack` has CUR first, then the traversal
stack from its top, an entry being a node address and whether it is a cluster reference. `clip` narrows the interval exactly (R283). -/
structure RaySlot where
  id : Nat
  core : Nat
  part : Nat
  owner : RayOwner
  pc : Word64
  dest : Option (Nat × Nat)
  calling : Bool
  geom : RayGeom
  clip : Option (Frac × Frac)
  flags : Nat
  root : Nat
  htab : Nat
  steps : Nat
  state : RayState
  stack : List (Nat × Bool)
  page : Option PageWork
  hit : Option Hit
  cand : Option Hit
  deriving DecidableEq, Repr, Inhabited

/-- STATE of a march slot (R281): it works, its event has landed, its surface cell is traced, or it waits for a replay. -/
inductive MarchState
  | run | landed
  | tracing (ray : Nat)
  | faulted (p : Pause)
  deriving DecidableEq, Repr, Inhabited

/-- One march slot (R281). `dest` is the first byte of T(D). -/
structure MarchSlot where
  id : Nat
  core : Nat
  slot : Nat
  lane : Nat
  part : Nat
  pc : Word64
  dest : Nat
  geom : RayGeom
  grid : Nat
  status : Nat
  k : Nat
  cells : Nat
  cell : Option (Nat × Nat × Nat)
  state : MarchState
  deriving DecidableEq, Repr, Inhabited

/-- One light walk (R320): where it stands and the draws that it has made. -/
structure LightWalk where
  id : Nat
  core : Nat
  slot : Nat
  lane : Nat
  part : Nat
  dest : Option Nat
  base : Nat
  px : Nat
  py : Nat
  pz : Nat
  node : Nat
  depth : Nat
  pdf : Nat
  draws : Nat
  deriving DecidableEq, Repr, Inhabited

/-! ## Matrix jobs and the Blend unit -/

/-- The registers of one declared group as a job's round ended (R441): the group's index, the first byte of A0, and the register space of
each lane, empty for a lane that has exited. -/
structure RankSnap where
  group : Nat
  base : Nat
  lanes : List Mem
  deriving DecidableEq, Repr, Inhabited

/-- One matrix job (R436 to R446): of a keyring's round, or of a block of a chain (`cmd`). `accs` holds the tiles in rank-major order, 1,024
elements each; `signed` the lanes of each rank that signed by `mxsign`. -/
structure MatrixJob where
  id : Nat
  core : Nat
  part : Nat
  team : Nat
  key : Nat
  cmd : Option Nat
  cardAddr : Nat
  card : Option (List Byte)
  decl : BitVec 32
  signed : List (Nat × BitVec 32)
  step : Nat
  regs : List RankSnap
  accs : List (List Nat)
  flags : Nat
  paused : Option Pause
  deriving DecidableEq, Repr, Inhabited

/-- One row of the Blend unit (R449): its lane, the first bytes of A(A) and A(D) with their codes, the address and words of the `neval`,
and its inputs once it is accepted. -/
structure BlendRow where
  id : Nat
  core : Nat
  slot : Nat
  lane : Nat
  src : Nat
  srcCode : Nat
  dst : Nat
  dstCode : Nat
  pc : Word64
  word : Word64
  inputs : Option (List Nat)
  deriving DecidableEq, Repr, Inhabited

/-- One tile of the Blend unit (R450): its grid and handle, when it opened, WIN and MAXG as they stood then (R451), its rows in order, the
descriptor once it has closed, and whether its step has been charged. -/
structure BlendTile where
  id : Nat
  core : Nat
  part : Nat
  grid : Nat
  handle : Nat
  opened : Nat
  win : Nat
  maxg : Nat
  rows : List BlendRow
  desc : Option (List Byte)
  ran : Bool
  deriving DecidableEq, Repr, Inhabited

/-- The units of rendering and the matrix engines. -/
structure Render where
  pixels : List PixelAccess
  rays : List RaySlot
  marches : List MarchSlot
  walks : List LightWalk
  jobs : List MatrixJob
  tiles : List BlendTile
  deriving DecidableEq, Repr, Inhabited

/-- No rendering work. -/
def Render.reset : Render := ⟨[], [], [], [], [], []⟩
/-- Whether a ray belongs to a lane of some groups, or to a march of such a lane. -/
def RaySlot.goesWith (r : RaySlot) (ms : List MarchSlot) (gone : Nat → Nat → Bool) : Bool :=
  match r.owner with
  | .lane c s _ => gone c s
  | .march id => ms.any fun m => m.id == id && gone m.core m.slot
  | .strainer _ => false

/-- The units' work for some groups and teams is discarded (R335, R336). -/
def dropUnits (r : Render) (gone : Nat → Nat → Bool) (teams : List Nat) : Render :=
  { pixels := r.pixels.filter fun p => !gone p.core p.slot
    rays := r.rays.filter fun x => !x.goesWith r.marches gone
    marches := r.marches.filter fun m => !gone m.core m.slot
    walks := r.walks.filter fun w => !gone w.core w.slot
    jobs := r.jobs.filter fun j => j.cmd.isSome || !teams.contains j.team
    tiles := (r.tiles.map fun t => { t with rows := t.rows.filter fun x => !gone x.core x.slot }).filter fun t => !t.rows.isEmpty }
/-- A context image or checkpoint (R333, R340): where it stands in the context area, and what goes with it. Its bytes stand in memory, and a
restore reads there what the layout places; what it does not place, and the units' records, are kept here (DESIGN CHOICE, log entry 14). `written` is false for the checkpoint
of a placement, of which no copy is made (R333). -/
structure Image where
  team : Nat
  part : Nat
  addr : Nat
  len : Nat
  checkpoint : Bool
  written : Bool
  record : Team
  groups : List Group
  rays : List RaySlot
  marches : List MarchSlot
  jobs : List MatrixJob
  tiles : List BlendTile
  deriving DecidableEq, Repr, Inhabited
/-! ## The module -/

/-- The time base (R47 to R51): the count with its 32-bit fraction, TIM_ADJ, what TIM_STEP adds at the next tick, the pulse-per-second latch,
cycles of the arithmetic clock in whole and in hundredths (R4, R52), and the last message of R51 with its timestamp. -/
structure TimeBase where
  now : Nat
  frac : Nat
  adj : Int
  step : Nat
  pps : Nat
  ppsv : Bool
  cycle : Nat
  cycFrac : Nat
  ptp : Option (Nat × Nat × Nat × Nat)
  deriving DecidableEq, Repr, Inhabited

/-- Thermal and power registers (R52 to R54) and the sensors (R56). The clock is the lower of what temperature and CAP call for, in 10 MHz. -/
structure Thermal where
  temp : Nat
  sensor : Nat
  state : Nat
  heatClock : Nat
  capClock : Nat
  cap : Nat
  meas : Nat
  trip : Bool
  lastStep : Nat
  sensors : List SensorSample
  deriving DecidableEq, Repr, Inhabited

/-- One record of the event log (R57); `crcOk` is false for one that was being written when power failed (R58). -/
structure LogRec where
  time : Nat
  seqNo : Nat
  event : Nat
  cls : Nat
  source : Nat
  part : Nat
  x : Nat
  y : Nat
  crcOk : Bool
  deriving DecidableEq, Repr, Inhabited

/-- Caddy (R55 to R66): `nextFw` and `nextCfg` are the slots that a bring-up tries first, `regionErrs` the corrected errors of a symbol region
of a die (R29), `softErrs` the corrected soft errors (R188) and `sliceErrs` those of an L2 slice of a die (R346), and `mismatches` the cores and times of shadow mismatches (R345). -/
structure Caddy where
  running : Bool
  mismatch : Bool
  logBuf : List LogRec
  flash : List LogRec
  nextSeq : Nat
  logSeq : Nat
  logDrop : Nat
  bootStep : Nat
  ready : Bool
  stopped : Bool
  slotFw : Nat
  slotCfg : Nat
  nextFw : Nat
  nextCfg : Nat
  spares0 : Nat
  spares1 : Nat
  cfgA : Option ConfigImage
  cfgB : Option ConfigImage
  fwA : Option FirmwareImage
  fwB : Option FirmwareImage
  minSvn : Nat
  pendFw : Bool
  pendCfg : Bool
  trialFw : Bool
  failedBoots : Nat
  mayReport : Bool
  attest : List Nat
  session : Option Nat
  failedRegions : List (Nat × Nat)
  failedChannels : List Nat
  regionErrs : List (Nat × Nat × Nat)
  softErrs : Nat
  sliceErrs : List (Nat × Nat × Nat)
  lastScrub : List Nat
  mismatches : List (Nat × Nat)
  deriving DecidableEq, Repr, Inhabited

/-- One Hinge module (R34, R35). -/
structure HingeMod where
  state : Nat
  repaired : Nat
  crcerr : Nat
  deriving DecidableEq, Repr, Inhabited

/-- Links and ports (R31, R34 to R46, R68). Ports hold 8, 4 or 0 lanes. -/
structure Links where
  hinge : List HingeMod
  halodrop : Nat
  ports : List Nat
  modid : Nat
  cxlUp : List Bool
  cxlCap : List Nat
  width : Nat
  rate : Nat
  downev : Bool
  deriving DecidableEq, Repr, Inhabited

/-- The physical function's registers (R79, R84). (in part PRESUMED, log entry 7) -/
structure PfRegs where
  prec : Nat
  istat : Nat
  ivmap : List Nat
  msix : List MsixEntry
  msixPend : Nat
  deriving DecidableEq, Repr, Inhabited

/-- A message that leaves the module (DESIGN CHOICE, log entry 3). -/
inductive OutMsg
  /-- An MSI-X message of a function (R78, R79). -/
  | msix (fn : RegFn) (vec : Nat)
  /-- A request to another module (R45): the flight, the port, and what it asks. -/
  | request (flight port : Nat) (kind : DomainKind) (addr len data : Nat)
  /-- A reply to a request of another module (R189): whether the address lies in the partition's ranges, whether the data are poisoned, and
  the data. -/
  | reply (port src : Nat) (ok poison : Bool) (data : Nat)
  /-- A collective message to a member of another module (R344). -/
  | coll (cmd attempt member : Nat) (data : List Nat)
  /-- An abort token (R344). -/
  | abort (cmd attempt member : Nat)
  /-- A PTP timestamp for the firmware of the fabric (R51). -/
  | ptp (kind seqNo time : Nat)
  /-- An attestation report (R63), its signature with it. -/
  | report (bytes : List Byte)
  /-- A busy answer (R63, R64). -/
  | busy (what : Nat)
  /-- Records of the event log (R58). -/
  | log (bytes : List Byte)
  /-- A host read's data and whether it is poisoned (R72). -/
  | hostData (addr data : Nat) (poison : Bool)
  /-- A back-invalidation or write of a host line (R71). -/
  | hostWrite (addr : Nat) (data : List Byte)
  /-- The answer to a read of a register (R77). -/
  | regData (fn : RegFn) (off width value : Nat)
  /-- A configuration access that completes with configuration-retry status (R65). -/
  | configRetry (p : Nat)
  deriving DecidableEq, Repr, Inhabited
/-! ## The machine -/

/-- What moves next (DESIGN CHOICE, log entry 1): the cohort of a lane of a group, or an event of the part. -/
inductive Act
  | issue (core slot lane : Nat)
  | event (i : Instr)
  deriving DecidableEq, Repr

/-- Accesses in flight, buffers and translation. -/
structure MemSys where
  sb : List BufEntry
  flights : List Flight
  sent : List Nat
  applied : List Nat
  tlb : List TlbEntry
  walks : List Walk
  ranges : List RangeEntry
  filter : List (Nat × Nat × Nat)
  arrived : List Arrived
  deriving DecidableEq, Repr, Inhabited

/-- The whole machine. `l2ret0` and `l2ret1` are the retired L2 slices of the dies (R59, R65). -/
structure State where
  agenda : List Act
  turn : Nat
  issue : Issue
  fresh : Nat
  out : List OutMsg
  mem : Mem
  scratch : Mem
  chip : Mem
  poison : List Nat
  sramPoison : List Place
  ms : MemSys
  parts : List Partition
  grids : List Grid
  teams : List Team
  groups : List Group
  shadows : List Shadow
  graphs : List Graph
  fwd : List FwdEntry
  lines : List LineRec
  eng : Engines
  render : Render
  images : List Image
  time : TimeBase
  therm : Thermal
  caddy : Caddy
  links : Links
  pf : PfRegs
  disabledCores : List Nat
  retiring : List Nat
  vacant : List (Nat × Nat)
  l2ret0 : Nat
  l2ret1 : Nat
  powered : Bool
  deriving DecidableEq, Repr

/-- Why the machine stops. -/
inductive Fault
  /-- Raised by `step` after the power has failed and nothing is left to do (R58; DESIGN CHOICE, log entry 69). Safe: nothing runs without power. -/
  | powerOff
  deriving DecidableEq, Repr

/-- Why an instruction has no meaning. -/
inductive Refusal
  /-- Raised by an arm of `exec` for an instruction that has no meaning yet. Safe: nothing is said about it. -/
  | notModelled (mnemonic : String)
  deriving DecidableEq, Repr
/-! ## Reset -/

/-- A setup record of a partition that holds none: all zero (DESIGN CHOICE, log entry 4). -/
def Setup.none : Setup :=
  ⟨false, false, 0, 0, 0, 0, 0, 0, 0, 0, 0, 0, 0, 0, 0, 0, 0, 0, List.replicate 6 0, []⟩

/-- The scheduler registers after reset (R149). (in part DESIGN CHOICE, log entry 4) -/
def SchRegs.reset : SchRegs :=
  { preen := false, migen := true, odrovf := false, oversub := false, migidle := 4, ctx := .none, odr := .none, odrHead := 0,
    odrTail := 0, ls := .none, peState := 0, vacated := 0, vacating := [], keep := false, withheld := [], withheldClass := 0, withheldUntil := 0,
    meters := List.replicate 6 ⟨0, false⟩, periodNext := 0 }

/-- A partition after module reset (R85, R41, R92, R199, R286, R301). (in part DESIGN CHOICE, log entry 4) (in part PRESUMED, log entry 7) -/
def Partition.reset (p : Nat) : Partition :=
  { num := p, state := .free, done := false, err := 0, flrpend := false, destroying := false, scrub := false, setup := .none, next := none, pendBudget := none,
    fbHead := 0, fbTail := 0, fbThresh := 1, nptrap := false, fbOvf := false, nextToken := 1, tlbPend := [],
    screenBandw := ⟨2, 2, 2⟩, screenHalod := ⟨1, 1, 1⟩, istat := 0, ivmap := List.replicate 261 0, msix := List.replicate 32 ⟨0, 0, true⟩, msixPend := 0,
    sch := .reset, rf := ⟨.none, 0, 0, 1, false, false⟩, px := ⟨0, 0, 0, 0, 0, 0⟩, res := ⟨0, 0, ⟨0, 0, 0⟩, 0, 0, 0, 0⟩,
    blendWin := 128, blendMaxg := 8, chip0 := [], chip1 := [], gens := [], streams := [] }

/-- The time base after reset (R47, R48, R65). (in part DESIGN CHOICE, log entry 4) -/
def TimeBase.reset : TimeBase :=
  { now := 0, frac := 0, adj := 0, step := 0, pps := 0, ppsv := false, cycle := 0, cycFrac := 0, ptp := none }

/-- Thermal and power registers after reset (R52 to R54). (in part DESIGN CHOICE, log entry 4) -/
def Thermal.reset : Thermal :=
  { temp := 0, sensor := 0, state := 0, heatClock := 250, capClock := 250, cap := 1800, meas := 0, trip := false, lastStep := 0,
    sensors := (List.range 128).map fun n => ⟨n, 0, 0, false⟩ }

/-- The cores in mesh order: the first 144 carry logical indices, the last eight are spares (DESIGN CHOICE, log entry 10). -/
def defaultCoremap : List Nat := List.range 144 ++ List.replicate 8 0xFFFE

/-- MAGIC of a configuration image (R59). -/
def configMagic : Nat := 0x43464744

/-- The BODY of the image in slot A (R29, R345). (DESIGN CHOICE, log entry 10) -/
def defaultBody : ConfigBody :=
  { failedRegions := [], threshold := Config.shippedThreshold, scrubPeriod := 86400000000000, hingeRepairs := List.replicate 40 0,
    ports := Config.shippedPorts, deadline := Config.defaultDeadline.toNat, disabled := [], mismatchLimit := 3 }

/-- The configuration image in slot A (DESIGN CHOICE, log entry 10). -/
def defaultImage : ConfigImage :=
  { magic := configMagic, svn := 0, spare := 0, coremap0 := defaultCoremap, coremap1 := defaultCoremap, l2ret0 := 0, l2ret1 := 0,
    body := defaultBody, sig := Config.shippedSignature, signed := true, bodyZero := true }

/-- Caddy after reset (R66), as the module is shipped (R64): firmware slot A holds a signed image of SVN 0, slot B none, and the stored minimum
security version is 0. (in part DESIGN CHOICE, log entry 4; in part DESIGN CHOICE, log entry 10) -/
def Caddy.reset : Caddy :=
  { running := true, mismatch := false, logBuf := [], flash := [], nextSeq := 0, logSeq := 0, logDrop := 0, bootStep := 1, ready := false,
    stopped := false, slotFw := 0, slotCfg := 0, nextFw := 0, nextCfg := 0, spares0 := 0, spares1 := 0, cfgA := some defaultImage, cfgB := none,
    fwA := some ⟨0, Config.shippedFirmware, true⟩, fwB := none, minSvn := 0, pendFw := false, pendCfg := false, trialFw := false, failedBoots := 0, mayReport := false,
    attest := [], session := none, failedRegions := [], failedChannels := [], regionErrs := [],
    softErrs := 0, sliceErrs := [], lastScrub := [0, 0], mismatches := [] }

/-- Links after reset (R35, R46, R68). (in part DESIGN CHOICE, log entry 4) (in part DESIGN CHOICE, log entry 9) -/
def Links.reset : Links :=
  { hinge := List.replicate 40 ⟨0, 0, 0⟩, halodrop := 0, ports := List.replicate 16 8, modid := 0, cxlUp := List.replicate 4 false,
    cxlCap := List.replicate 4 0, width := 0, rate := 0, downev := false }

/-- No cohort. -/
def Issue.none : Issue := ⟨0, 0, [], 0, 0, 0⟩

/-- The memory system with nothing in flight. (in part DESIGN CHOICE, log entry 4) -/
def MemSys.reset : MemSys :=
  { sb := [], flights := [], sent := List.replicate 32 0, applied := List.replicate 32 0, tlb := [], walks := [], ranges := [],
    filter := [], arrived := [] }

/-- The machine right after module reset (R65, R87): nothing is placed, every partition is FREE, and bring-up stands at step 1. (in part DESIGN CHOICE, log entry 4) -/
def State.reset : State :=
  { agenda := [], turn := 0, issue := .none, fresh := 0, out := [], mem := [], scratch := [], chip := [], poison := [],
    sramPoison := [], ms := .reset, parts := (List.range 16).map Partition.reset, grids := [], teams := [], groups := [], shadows := [], graphs := [],
    fwd := [], lines := [], eng := Engines.reset, render := Render.reset, images := [], time := .reset, therm := .reset, caddy := .reset,
    links := .reset, pf := ⟨0, 0, List.replicate 64 0, List.replicate 16 ⟨0, 0, false⟩, 0⟩, disabledCores := [], retiring := [], vacant := [], l2ret0 := 0, l2ret1 := 0, powered := true }

end Sys2Proof.Machine
end

