-- ==== Sys2Proof/Machine/Access.lean ====
section
/-!
DEFINITION. Finding and replacing the parts of the state: groups and lanes by core and slot, partitions, teams, grids, and the derived
facts about them that many rules use.
-/
namespace Sys2Proof.Machine

/-- What a meaning answers. -/
abbrev Result := Host.Outcome State Fault Refusal

/-! ## Groups and lanes -/

/-- Whether `g` is the group in a slot of a core. -/
def Group.isAt (g : Group) (core slot : Nat) : Bool := decide (g.core = core) && decide (g.slot = slot)

/-- The group in a slot of a core. -/
def State.group? (s : State) (core slot : Nat) : Option Group := s.groups.find? fun g => g.isAt core slot

/-- Changes the group in a slot of a core. -/
def State.updGroup (s : State) (core slot : Nat) (f : Group → Group) : State :=
  { s with groups := s.groups.map fun g => if g.isAt core slot then f g else g }

/-- Lane `l` of a group. -/
def Group.lane (g : Group) (l : Nat) : Lane := g.lanes.getD l default

/-- Replaces lane `l`. -/
def Group.setLane (g : Group) (l : Nat) (x : Lane) : Group := { g with lanes := g.lanes.set l x }

/-- Changes lane `l`. -/
def Group.updLane (g : Group) (l : Nat) (f : Lane → Lane) : Group := { g with lanes := g.lanes.modify l f }

/-- Changes a lane of a group in a slot. -/
def State.updLane (s : State) (core slot l : Nat) (f : Lane → Lane) : State :=
  s.updGroup core slot fun g => g.updLane l f

/-- Changes each of some lanes. -/
def State.updLanes (s : State) (core slot : Nat) (ls : List Nat) (f : Lane → Lane) : State :=
  s.updGroup core slot fun g => { g with lanes := g.lanes.mapIdx fun l x => if ls.contains l then f x else x }

/-- A lane of the state, a default lane where there is none. -/
def State.lane (s : State) (core slot l : Nat) : Lane :=
  match s.group? core slot with
  | some g => g.lane l
  | none => default

/-- The mask of a list of lanes. -/
def maskOf (ls : List Nat) : BitVec 32 := ls.foldl (fun m l => m ||| (1#32 <<< l)) 0

/-- The lanes of a mask, ascending. -/
def lanesOf (m : BitVec 32) : List Nat := (List.range 32).filter fun l => m.getLsbD l

/-- Whether a lane can still run: it has not exited and is not frozen. -/
def Lane.live (x : Lane) : Bool := !x.exited && !x.frozen

/-- Whether a lane is not parked, and waits for nothing or stands at an instruction that it issues again (R152, R155). -/
def Lane.ready (x : Lane) : Bool := x.live && x.parked.isNone && (match x.wait with
  | .none | .cohort _ | .limits _ _ _ _ _ _ => true
  | _ => false)

/-- RSIZE (R162). -/
def Group.rsize (g : Group) : Nat := 256 * g.steps

/-- The segment width (R159). -/
def Group.width (g : Group) : Nat := 2 ^ g.wlog

/-- Whether a lane lies in an enabled segment (R159). -/
def Group.inSegment (g : Group) (l : Nat) : Bool := g.segen.testBit (l / g.width)

/-! ## Partitions, grids and teams -/

/-- Partition `p`. -/
def State.part (s : State) (p : Nat) : Partition := s.parts.getD p (Partition.reset p)

/-- Changes partition `p`. -/
def State.updPart (s : State) (p : Nat) (f : Partition → Partition) : State := { s with parts := s.parts.modify p f }

/-- A team by the model's name for it. -/
def State.team? (s : State) (id : Nat) : Option Team := s.teams.find? fun t => t.id == id

/-- Changes a team. -/
def State.updTeam (s : State) (id : Nat) (f : Team → Team) : State :=
  { s with teams := s.teams.map fun t => if t.id == id then f t else t }

/-- A grid by the model's name for it. -/
def State.grid? (s : State) (id : Nat) : Option Grid := s.grids.find? fun g => g.id == id

/-- Changes a grid. -/
def State.updGrid (s : State) (id : Nat) (f : Grid → Grid) : State :=
  { s with grids := s.grids.map fun g => if g.id == id then f g else g }

/-- A grid's handle (R110). -/
def Grid.handle (g : Grid) : Nat := g.slot + 65536 * g.gen + 4294967296 * g.part

/-- The team of a group. -/
def State.teamOf (s : State) (g : Group) : Option Team := s.team? g.team

/-- The grid of a group. -/
def State.gridOf (s : State) (g : Group) : Option Grid :=
  match s.teamOf g with
  | some t => s.grid? t.grid
  | none => none

/-- The partition that a group belongs to. -/
def State.partOf (s : State) (g : Group) : Nat :=
  match s.teamOf g with
  | some t => t.part
  | none => 0

/-- The stream that started a group's grid, 0xFFFF when none did (R91). -/
def State.streamOf (s : State) (g : Group) : Nat :=
  match s.gridOf g with
  | some gr => gr.stream.getD 0xFFFF
  | none => 0xFFFF

/-- The die of a core (R14): cores 0 to 143 are die 0's. -/
def dieOfCore (core : Nat) : Nat := core / 144

/-- The groups of a team, in group order. -/
def State.groupsOf (s : State) (team : Nat) : List Group := s.groups.filter fun g => g.team == team

/-- The teams of a cluster (R109): `CLW × CLH` consecutive linear indices. -/
def State.clusterTeams (s : State) (t : Team) : List Team :=
  match s.grid? t.grid with
  | some g =>
    let n := g.rcd.clw * g.rcd.clh
    s.teams.filter fun u => u.grid == t.grid && u.linear / n == t.linear / n
  | none => [t]

/-- A fresh identifier (DESIGN CHOICE, log entry 2), and the state after it. -/
def State.take (s : State) : Nat × State := (s.fresh, { s with fresh := s.fresh + 1 })

/-- The group, if any, that issues now. -/
def State.issuing? (s : State) : Option Group := s.group? s.issue.core s.issue.slot

/-- The arithmetic clock in 10 MHz (R54): the lower of the two settings. (in part DEDUCED, log entry 64) -/
def Thermal.clock (t : Thermal) : Nat := min t.heatClock t.capClock

/-- Appends a message to the outside. (in part DESIGN CHOICE, log entry 3) -/
def State.send (s : State) (m : OutMsg) : State := { s with out := s.out ++ [m] }

end Sys2Proof.Machine
end

