-- ==== Sys2Proof/Machine/Regions.lean ====
section
/-!
DEFINITION. Physical memory: the region map (R70), homes (R185), poison (R28, R188), and the reading and writing of a checked place (R174).
-/
namespace Sys2Proof.Machine

/-! ## The region map -/

/-- The regions of R70. -/
inductive Region
  | gddr (die : Nat)
  | chip (die : Nat)
  | lpddr (die : Nat)
  | cxl (port : Nat)
  | cxlDown (port : Nat)
  | host
  | outside
  deriving DecidableEq, Repr

/-- 120 GiB. -/
def gddrSize : Nat := 128849018880
/-- 768 GB (R4: GB are powers of 1,000). -/
def lpddrSize : Nat := 768000000000
/-- First address of CXL memory port 0, and the window of a port. -/
def cxlBase : Nat := 0x100000000000
def cxlWindow : Nat := 0x40000000000
/-- First address of the host window, and its size. -/
def hostBase : Nat := 0x8000000000000
def hostSize : Nat := 2251799813685248
/-- First address of die 0's chip scratchpad, and its size. -/
def chipBase : Nat := 0x8000000000
def chipSize : Nat := 33554432

/-- The region of a physical address (R70). -/
def regionOf (k : Links) (a : Nat) : Region :=
  if a < gddrSize then .gddr 0
  else if 0x2000000000 ≤ a && a < 0x2000000000 + gddrSize then .gddr 1
  else if chipBase ≤ a && a < chipBase + chipSize then .chip 0
  else if chipBase + chipSize ≤ a && a < chipBase + 2 * chipSize then .chip 1
  else if 0x10000000000 ≤ a && a < 0x10000000000 + lpddrSize then .lpddr 0
  else if 0x20000000000 ≤ a && a < 0x20000000000 + lpddrSize then .lpddr 1
  else if cxlBase ≤ a && a < cxlBase + 4 * cxlWindow then
    let p := (a - cxlBase) / cxlWindow
    if !k.cxlUp.getD p false then .cxlDown p
    else if (a - cxlBase) % cxlWindow < k.cxlCap.getD p 0 then .cxl p
    else .outside
  else if hostBase ≤ a && a < hostBase + hostSize then .host
  else .outside

/-- Whether a span lies wholly inside one region other than a chip scratchpad (R83, R192). A down port counts for the capacity of its
last training (R70). -/
def spanInRegion (k : Links) (a len : Nat) : Bool :=
  let fits (lo size : Nat) : Bool := decide (lo ≤ a) && decide (a + len ≤ lo + size)
  fits 0 gddrSize || fits 0x2000000000 gddrSize || fits 0x10000000000 lpddrSize || fits 0x20000000000 lpddrSize ||
    fits hostBase hostSize || (List.range 4).any fun p => fits (cxlBase + p * cxlWindow) (k.cxlCap.getD p 0)

/-- The home die of a physical address (R185). -/
def homeDie (a : Nat) : Nat :=
  if 0x2000000000 ≤ a && a < 0x2000000000 + gddrSize then 1
  else if chipBase + chipSize ≤ a && a < chipBase + 2 * chipSize then 1
  else if 0x20000000000 ≤ a && a < 0x20000000000 + lpddrSize then 1
  else if cxlBase + 2 * cxlWindow ≤ a && a < cxlBase + 4 * cxlWindow then 1
  else 0

/-- The home die of a place. -/
def Place.die : Place → Nat
  | .phys a => homeDie a
  | .sp c _ => dieOfCore c
  | .chip d _ => d
  | .slice c _ _ _ => dieOfCore c
  | .remote _ => 0

/-- Whether a place stands in another module. -/
def Place.isRemote : Place → Bool
  | .remote _ => true
  | _ => false

/-- A number for a place, by which messages and their answers name it: a physical or domain address as it is, a chip scratchpad byte by its physical address (R70). -/
def Place.key : Place → Nat
  | .phys a => a
  | .remote a => a
  | .sp c o => 2 ^ 53 + c * 2 ^ 20 + o
  | .chip d o => 549755813888 + d * 33554432 + o
  | .slice c t l o => 2 ^ 55 + ((c * 48 + t) * 32 + l) * 2048 + o

/-- Whether a Hinge module carries messages (R34, R35): it is not retired. One that retrains keeps its messages. (in part DEDUCED, log entry 65) -/
def HingeMod.up (m : HingeMod) : Bool := decide (m.state ≠ 3)

/-- Whether the Hinge runs: at least one module is up (R34). -/
def hingeUp (k : Links) : Bool := k.hinge.any HingeMod.up

/-- Up scale-up ports of a die (R46). -/
def upPorts (k : Links) (die : Nat) : List Nat := (List.range 8).map (· + 8 * die) |>.filter fun p => decide (0 < k.ports.getD p 0)

/-- Whether a die's requests to other modules cross the Hinge first (R46): its own ports are all down. -/
def portsAcross (k : Links) (die : Nat) : Bool := (upPorts k die).isEmpty

/-- Whether an up scale-up port leads a die's requests to other modules (R46): its own, or the other die's across the Hinge (R34). -/
def scaleUpReach (k : Links) (die : Nat) : Bool := !portsAcross k die || (hingeUp k && !portsAcross k (1 - die))

/-- Whether an agent of a die reaches a physical address: a down CXL port, a down host link or a dead Hinge makes it unreachable (R34,
R69, R70). -/
def reaches (k : Links) (die a : Nat) : Bool :=
  match regionOf k a with
  | .outside => true
  | .cxlDown _ => false
  | .host => decide (k.width ≠ 0) && (decide (homeDie a = die) || hingeUp k)
  | _ => decide (homeDie a = die) || hingeUp k

/-- The slices of a partition on a die, ascending (R185). -/
def Setup.slices (u : Setup) (die : Nat) : List Nat :=
  (List.range 64).filter fun i => (if die = 0 then u.l2mask0 else u.l2mask1).testBit i

/-- H of R185: the XOR hash of a physical address. -/
def lineHash (a : Nat) : Nat := a / 128 % 4096 ^^^ a / 524288 % 4096 ^^^ a / 2147483648 % 4096 ^^^ a / 8796093022208 % 512

/-- The slice of a partition that homes the line of a physical address (R185), as its die and its number there; none where the partition
has no slice on that die. -/
def Setup.homeSlice (u : Setup) (a : Nat) : Option (Nat × Nat) :=
  let ss := u.slices (homeDie a)
  (ss[lineHash a % ss.length]?).map fun i => (homeDie a, i)

/-! ## Poison -/

/-- The 64-byte block of a physical address (R28). -/
def blockOf (a : Nat) : Nat := a / 64

/-- The 64-bit SRAM word that holds a byte (R188): of a scratchpad, a lane slice, or the L2 slice that homes a physical address. -/
def Place.word : Place → Place
  | .phys a => .phys (a / 8 * 8)
  | .sp c o => .sp c (o / 8 * 8)
  | .chip d o => .chip d (o / 8 * 8)
  | .slice c t l o => .slice c t l (o / 8 * 8)
  | p => p

/-- The place `k` bytes on. -/
def Place.plus (p : Place) (k : Nat) : Place :=
  match p with
  | .phys a => .phys (a + k)
  | .sp c o => .sp c (o + k)
  | .chip d o => .chip d (o + k)
  | .slice c t l o => .slice c t l (o + k)
  | .remote a => .remote (a + k)

/-- Whether a byte reads as poison: a marked block or word, or an address outside every region (R28, R70, R188). -/
def bytePoison (s : State) (p : Place) : Bool :=
  match p with
  | .phys a => s.poison.contains (blockOf a) || s.sramPoison.contains p.word || decide (regionOf s.links a = .outside)
  | .remote _ => false
  | p => s.sramPoison.contains p.word

/-- Offset of a core's scratchpad in the scratchpad memory. -/
def scratchAt (core off : Nat) : Nat := core * 1048576 + off
/-- Offset of a die's chip scratchpad in the chip memory. -/
def chipAt (die off : Nat) : Nat := die * chipSize + off

/-- One byte of a place. A byte of another module is not held here. -/
def readByte (s : State) (p : Place) : Byte :=
  match p with
  | .phys a =>
    match regionOf s.links a with
    | .chip d => s.chip.read (chipAt d ((a - chipBase) % chipSize))
    | .outside => 0
    | _ => s.mem.read a
  | .sp c o => s.scratch.read (scratchAt c o)
  | .chip d o => s.chip.read (chipAt d o)
  | .slice c t l o => (s.lane c t l).slice.read o
  | .remote _ => 0

/-- `n` bytes of a place as a number, and whether any is poisoned. -/
def readPlace (s : State) (p : Place) (n : Nat) : Nat × Bool :=
  (numOfBytes ((List.range n).map fun k => readByte s (p.plus k)), (List.range n).any fun k => bytePoison s (p.plus k))

/-- Writes one byte of a place; a write outside every region is dropped (R70). -/
def writeByte (s : State) (p : Place) (b : Byte) : State :=
  match p with
  | .phys a =>
    match regionOf s.links a with
    | .chip d => { s with chip := s.chip.write (chipAt d ((a - chipBase) % chipSize)) b }
    | .outside => s
    | _ => { s with mem := s.mem.write a b }
  | .sp c o => { s with scratch := s.scratch.write (scratchAt c o) b }
  | .chip d o => { s with chip := s.chip.write (chipAt d o) b }
  | .slice c t l o => s.updLane c t l fun x => { x with slice := x.slice.write o b }
  | .remote _ => s

/-- Writes bytes from a place on. -/
def writeFrom (s : State) (p : Place) : List Byte → State
  | [] => s
  | b :: rest => writeFrom (writeByte s p b) (p.plus 1) rest

/-- Whether a write of `n` bytes at a place covers a 64-bit word whole (R188). -/
def coversWord (p : Place) (n : Nat) (w : Place) : Bool :=
  (List.range n).any fun k => decide (p.plus k = w) && decide (k + 8 ≤ n)

/-- Clears the poison of what a write covers whole: a 64-byte block of memory, a 64-bit word of SRAM (R28, R188). -/
def clearPoison (s : State) (p : Place) (n : Nat) : State :=
  { s with
    poison := match p with
      | .phys a => s.poison.filter fun b => !(decide (a ≤ 64 * b) && decide (64 * b + 64 ≤ a + n))
      | _ => s.poison
    sramPoison := s.sramPoison.filter fun w => !coversWord p n w }

/-- A write performed at its place: the bytes, and the poison it clears. -/
def performWrite (s : State) (p : Place) (bs : List Byte) : State := clearPoison (writeFrom s p bs) p bs.length

/-- A write by the module at a physical address: a host line is also written at the host (R71). -/
def writePhys (s : State) (a : Nat) (bs : List Byte) : State :=
  let s := performWrite s (.phys a) bs
  if regionOf s.links a = .host then s.send (.hostWrite (a - hostBase) bs) else s

end Sys2Proof.Machine
end

