-- ==== Sys2Proof/Machine/Report.lean ====
section
/-!
DEFINITION. What the module tells the outside: interrupts (R78, R79), the event log (R57), and the three rings of records, which share one
rule (R90): the fault buffer (R91), the residency ring (R198) and the order-dependence ring (R148).
-/
namespace Sys2Proof.Machine

/-! ## Interrupts -/

/-- Raises source `n` of a function whose pending bits, map and MSI-X table are given (R78): the new pending bits, the new MSI-X pending
bits, and the vector of the message to send. (in part PRESUMED, log entry 7) -/
def raiseSource (istat msixPend : Nat) (ivmap : List Nat) (msix : List MsixEntry) (n : Nat) : Nat × Nat × Option Nat :=
  let ent := ivmap.getD n 0
  let vec := ent % 32
  if istat.testBit n || ent / 128 % 2 = 0 then (istat ||| 2 ^ n, msixPend, none)
  else if (msix.getD vec ⟨0, 0, true⟩).masked then (istat ||| 2 ^ n, msixPend ||| 2 ^ vec, none)
  else (istat ||| 2 ^ n, msixPend, some vec)

/-- Partition `p` raises source `n` (R78). -/
def raisePart (s : State) (p n : Nat) : State :=
  let q := s.part p
  let (i, m, v) := raiseSource q.istat q.msixPend q.ivmap q.msix n
  let s := s.updPart p fun q => { q with istat := i, msixPend := m }
  match v with
  | some vec => s.send (.msix (.part p) vec)
  | none => s

/-- The physical function raises source `n` (R79). -/
def raisePf (s : State) (n : Nat) : State :=
  let (i, m, v) := raiseSource s.pf.istat s.pf.msixPend s.pf.ivmap s.pf.msix n
  let s := { s with pf := { s.pf with istat := i, msixPend := m } }
  match v with
  | some vec => s.send (.msix .pf vec)
  | none => s

/-! ## The event log -/

/-- The events that the model logs; each has a code of Config (DESIGN CHOICE, log entry 12). -/
inductive LogEvent
  | groupFatal | rollback | hostLinkDown | hingeDiscard | hingeRetire | portDown | cxlDown | scrubFail | poison | unwritableRecord
  | failedDecrement | shadowMismatch | coreRetire | sliceRetire | attemptDrop | imageRejected | keyMismatch | lockstep | bootFallback
  | thermal | trip | symbolRegion | timeLost | crc | softError
  deriving DecidableEq, Repr

/-- A number for an event of the log. -/
def LogEvent.num : LogEvent → Nat
  | .groupFatal => 0 | .rollback => 1 | .hostLinkDown => 2 | .hingeDiscard => 3 | .hingeRetire => 4 | .portDown => 5 | .cxlDown => 6
  | .scrubFail => 7 | .poison => 8 | .unwritableRecord => 9 | .failedDecrement => 10 | .shadowMismatch => 11 | .coreRetire => 12
  | .sliceRetire => 13 | .attemptDrop => 14 | .imageRejected => 15 | .keyMismatch => 16 | .lockstep => 17 | .bootFallback => 18
  | .thermal => 19 | .trip => 20 | .symbolRegion => 21 | .timeLost => 22 | .crc => 23 | .softError => 24

/-- SOURCE of a log record (R57): the die and the unit. (in part DESIGN CHOICE, log entry 12) -/
def logSource (die unit : Nat) : Nat := 128 * die + unit

/-- Logs an event (R57): into Caddy's buffer, or dropped and counted when the buffer is full; nothing while Caddy restarts (R55). A
logged event of class 2 or higher raises physical-function source 32 (R79). (in part DESIGN CHOICE, log entry 12) -/
def logEvent (s : State) (e : LogEvent) (cls source part x y : Nat) : State :=
  if !s.caddy.running then s
  else
    let c := s.caddy
    if c.logBuf.length < 256 then
      let s := { s with caddy := { c with
        logBuf := c.logBuf ++ [⟨s.time.now, c.nextSeq, e.num, cls, source, part, x, y, true⟩]
        nextSeq := (c.nextSeq + 1) % 4294967296 } }
      if 2 ≤ cls then raisePf s 32 else s
    else { s with caddy := { c with logDrop := min 4294967295 (c.logDrop + 1) } }

/-! ## Rings -/

/-- Whether a ring of `n` records is full (R90). -/
def ringFull (head tail n : Nat) : Bool := decide (n = 0) || decide ((tail + 1) % n = head)
/-- The records that a ring holds. -/
def ringCount (head tail n : Nat) : Nat := if n = 0 then 0 else (tail + n - head) % n

/-- Whether `h` lies in the occupied span from the head to the tail (R90). -/
def ringHeadOk (head tail n h : Nat) : Bool := decide (h < n) && decide ((h + n - head) % n ≤ ringCount head tail n)

/-- Records of the fault buffer (R90). -/
def Setup.fbRecords (u : Setup) : Nat := 2 ^ (u.fblog2 - 6)

/-- The fields of a fault record (R91). -/
structure FaultRec where
  vaddr : Nat
  lmask : Nat
  core : Nat
  unit : Nat
  cause : Nat
  access : Nat
  level : Nat
  stream : Nat
  token : Nat
  pc : Nat
  deriving DecidableEq, Repr

/-- The 64 bytes of a fault record (R91). -/
def FaultRec.bytes (r : FaultRec) (now : Nat) : List Byte :=
  bytesOfNum 8 now ++ bytesOfNum 8 r.vaddr ++ bytesOfNum 4 r.lmask ++ bytesOfNum 2 r.core ++ bytesOfNum 1 r.unit ++
    bytesOfNum 1 r.cause ++ bytesOfNum 1 r.access ++ bytesOfNum 1 r.level ++ bytesOfNum 2 r.stream ++ bytesOfNum 4 r.token ++
    bytesOfNum 8 r.pc ++ List.replicate 24 0

/-- Writes a fault record, or sets OVF when the ring is full (R90 to R92). -/
def putFault (s : State) (p : Nat) (r : FaultRec) : State :=
  let q := s.part p
  let n := q.setup.fbRecords
  if ringFull q.fbHead q.fbTail n then raisePart (s.updPart p fun q => { q with fbOvf := true }) p 257
  else
    let s := writePhys s (q.setup.fbbase + 64 * q.fbTail) (r.bytes s.time.now)
    let t := (q.fbTail + 1) % n
    let s := s.updPart p fun q => { q with fbTail := t }
    if max 1 q.fbThresh ≤ ringCount q.fbHead t n then raisePart s p 256 else s

/-- A replay token of a partition (R93, DESIGN CHOICE, log entry 6): it rises by one and is never 0. When the ring is full no record carries one, and
the token is 0. -/
def newToken (s : State) (p : Nat) : Nat × State :=
  let q := s.part p
  if ringFull q.fbHead q.fbTail q.setup.fbRecords then (0, s)
  else
    let t := q.nextToken
    (t, s.updPart p fun q => { q with nextToken := if t + 1 = 4294967296 then 1 else t + 1 })

/-- Records of a ring area of `2^LOG2` bytes and 32-byte records (R149, R199). -/
def AreaReg.records (a : AreaReg) : Nat := if a.log2 = 0 then 0 else 2 ^ (a.log2 - 5)

/-- Writes a 32-byte record to the residency ring (R198, R199). A ring without an area takes none. -/
def putResidency (s : State) (p : Nat) (bytes : List Byte) : State :=
  let q := s.part p
  let n := q.rf.area.records
  if n = 0 then s
  else if ringFull q.rf.head q.rf.tail n then s.updPart p fun q => { q with rf := { q.rf with ovf := true } }
  else
    let s := writePhys s (q.rf.area.base + 32 * q.rf.tail) bytes
    let t := (q.rf.tail + 1) % n
    let s := s.updPart p fun q => { q with rf := { q.rf with tail := t } }
    if max 1 q.rf.thresh ≤ ringCount q.rf.head t n then raisePf s (16 + p) else s

/-- Writes an order-dependence report (R148). -/
def putReport (s : State) (p : Nat) (bytes : List Byte) : State :=
  let q := s.part p
  let n := q.sch.odr.records
  if n = 0 then s
  else if ringFull q.sch.odrHead q.sch.odrTail n then s.updPart p fun q => { q with sch := { q.sch with odrovf := true } }
  else
    let s := writePhys s (q.sch.odr.base + 32 * q.sch.odrTail) bytes
    s.updPart p fun q => { q with sch := { q.sch with odrTail := (q.sch.odrTail + 1) % n } }

end Sys2Proof.Machine
end

