-- ==== Sys2Proof/Machine/Phys.lean ====
section
/-!
DEFINITION. Translation: the ranges of a partition (R81), the page-table walk (R190 to R192), the TLBs (R193), residency records (R197, R198),
and `.gm` addresses (R189).
-/
namespace Sys2Proof.Machine

/-! ## Translation -/

/-- The kinds of access that a walk checks (R91: 0 read, 1 write, 2 atomic, 3 fetch). -/
inductive Acc
  | read | write | atomic | fetch
  deriving DecidableEq, Repr

def Acc.code : Acc → Nat
  | .read => 0 | .write => 1 | .atomic => 2 | .fetch => 3

/-- Whether a span lies wholly inside one range of a partition (R81). -/
def inRanges (u : Setup) (a len : Nat) : Bool :=
  u.ranges.any fun r => decide (0 < r.2) && decide (r.1 ≤ a) && decide (a + len ≤ r.1 + r.2)

/-- The end of a walk (R192): a fault with its cause, LEVEL and the entry read (for cause 4, the address of the entry that is out of reach), or
a leaf. -/
inductive WalkEnd
  | fault (cause level entry : Nat)
  | leaf (phys size level entry : Nat)
  deriving DecidableEq, Repr

/-- Bits of a page at the level of its leaf (R190). -/
def pageBits (level : Nat) : Nat :=
  match level with
  | 1 => 16 | 2 => 21 | _ => 30

/-- The index of a virtual address at a level (R190). -/
def walkIndex (level va : Nat) : Nat :=
  match level with
  | 4 => va / 549755813888 % 512
  | 3 => va / 1073741824 % 512
  | 2 => va / 2097152 % 512
  | _ => va / 65536 % 32

/-- The physical address that an entry holds (R191): bits [51:8]. -/
def entryAddr (e : Nat) : Nat := e % 2 ^ 52 / 256 * 256

/-- Bytes of a table of a level (R190). (in part DEDUCED, log entry 22) (in part DEDUCED, log entry 44) -/
def tableBytesAt (level : Nat) : Nat := if level = 1 then 256 else 4096

/-- The walk from a table down (R190 to R192); the first argument is the level. (in part DEDUCED, log entry 22) (in part DEDUCED, log entry 44) -/
def walkFrom (s : State) (u : Setup) (die va : Nat) : Nat → Nat → WalkEnd
  | 0, _ => .fault 3 1 0
  | level + 1, table =>
    let lv := level + 1
    let at_ := table + 8 * walkIndex lv va
    if !reaches s.links die at_ then .fault 4 lv at_
    else
      let (e, bad) := readPlace s (.phys at_) 8
      let leaf := decide (e / 8 % 2 = 1)
      if bad then .fault 5 lv e
      else if e % 2 = 0 then .fault 1 lv e
      else if e / 128 % 2 = 1 then .fault 3 lv e
      else if lv = 4 && leaf || (lv = 1 && !leaf) then .fault 3 lv e
      else if leaf then
        let size := 2 ^ pageBits lv
        if e / 32 % 4 = 3 || entryAddr e % size ≠ 0 then .fault 3 lv e
        else if !spanInRegion s.links (entryAddr e) size || !inRanges u (entryAddr e) size then .fault 3 lv e
        else .leaf (entryAddr e) size lv e
      else if 2 < lv && entryAddr e % 4096 ≠ 0 then .fault 3 lv e
      else if !spanInRegion s.links (entryAddr e) (tableBytesAt level) then .fault 3 lv e
      else walkFrom s u die va level (entryAddr e)

/-- The walk of a virtual address (R192). (in part DEDUCED, log entry 22) -/
def walk (s : State) (p die va : Nat) : WalkEnd :=
  let u := (s.part p).setup
  if spanInRegion s.links u.ptroot (tableBytesAt 4) then walkFrom s u die va 4 u.ptroot else .fault 3 4 0

/-- The TLB entry of a leaf (R193). -/
def leafEntry (die : Nat) (core : Option Nat) (p va phys size e : Nat) : TlbEntry :=
  ⟨die, core, p, va / size * size, size, phys, decide (e / 2 % 2 = 1), decide (e / 4 % 2 = 1), decide (e / 16 % 2 = 1), e / 32 % 4⟩

/-- Whether an entry maps an address for a partition. -/
def TlbEntry.maps (t : TlbEntry) (p va : Nat) : Bool := t.part == p && t.vbase == va / t.size * t.size

/-- Keeps at most `n` entries of a TLB that a test selects: the oldest goes first. (in part DESIGN CHOICE, log entry 70) -/
def capTlb (n : Nat) (f : TlbEntry → Bool) (l : List TlbEntry) : List TlbEntry :=
  if (l.filter f).length ≤ n then l
  else match l.find? f with
    | some t => l.erase t
    | none => l

/-- Adds an entry to the shared TLB of its die, or to a core's TLB (R193). (in part DESIGN CHOICE, log entry 70) -/
def addTlb (s : State) (t : TlbEntry) : State :=
  let same (x : TlbEntry) : Bool := x.die == t.die && x.core == t.core
  let n := if t.core.isSome then 256 else 16384
  { s with ms := { s.ms with tlb := capTlb n same (s.ms.tlb.filter (fun x => !(same x && x.part == t.part && x.vbase == t.vbase)) ++ [t]) } }

/-- The 32 bytes of a residency record (R198). -/
def residencyBytes (now va kind access level die core entry : Nat) : List Byte :=
  bytesOfNum 8 now ++ bytesOfNum 8 va ++ bytesOfNum 1 kind ++ bytesOfNum 1 access ++ bytesOfNum 1 level ++ bytesOfNum 1 die ++
    bytesOfNum 2 core ++ bytesOfNum 2 0 ++ bytesOfNum 8 entry

/-- Writes a residency record unless the die's filter holds its page from the last 10 µs (R197). -/
def noteResidency (s : State) (p die va kind access level core entry : Nat) : State :=
  if (s.part p).rf.area.records = 0 then s
  else if s.ms.filter.any (fun f => f.1 == die && f.2.1 == va * 16 + p && decide (s.time.now < f.2.2 + 10000)) then s
  else
    let mine := (s.ms.filter.filter fun f => f.1 == die && f.2.1 != va * 16 + p)
    let others := s.ms.filter.filter fun f => f.1 != die
    let kept := (mine ++ [(die, va * 16 + p, s.time.now)]).drop (mine.length + 1 - 256)
    putResidency { s with ms := { s.ms with filter := others ++ kept } } p
      (residencyBytes s.time.now va kind access level die core entry)

/-- Who translates: the die, the core for a lane or a core's unit, and the path code (R91, R198). A `quiet` access that misses writes no
record of KIND 0 (R197, R271, R402). -/
structure Who where
  die : Nat
  core : Option Nat
  part : Nat
  path : Nat
  quiet : Bool
  deriving DecidableEq, Repr

/-- ACCESS of a record (R91). -/
def Who.access (w : Who) (acc : Acc) : Nat := acc.code + 4 * w.path

/-- CORE of a record (R198). -/
def Who.coreField (w : Who) : Nat := w.core.getD 0xFFFF

/-- The result of a translation: a place, or a fault with its cause and LEVEL. -/
inductive Xlat
  | ok (p : Place)
  | fault (cause level : Nat)
  deriving DecidableEq, Repr

/-- The check of an access against its page (R192). -/
def permits (acc : Acc) (t : TlbEntry) : Option Nat :=
  match acc with
  | .read => none
  | .fetch => none
  | .write => if t.w then none else some 2
  | .atomic => if !t.w then some 2 else if !t.at_ then some 6 else none

/-- An access of a die to a physical address: unreachable (R34, R69, R70), outside every region (R70, cause 3), or a place. -/
def reachPhys (s : State) (die a : Nat) : Xlat :=
  if !reaches s.links die a then .fault 4 0 else if regionOf s.links a = .outside then .fault 3 0 else .ok (.phys a)

/-- The access through a TLB entry. -/
def throughEntry (s : State) (w : Who) (acc : Acc) (va : Nat) (t : TlbEntry) : Xlat :=
  match permits acc t with
  | some c => .fault c 0
  | none =>
    reachPhys s w.die (t.phys + va % t.size)

/-- Translates a 48-bit virtual address (R190 to R193): a core TLB, then the die's shared TLB, then a walk that fills both. (in part DESIGN CHOICE, log entry 70) -/
def translateVa (s : State) (w : Who) (acc : Acc) (va : Nat) : State × Xlat :=
  let core := s.ms.tlb.find? fun t => w.core.isSome && t.core == w.core && t.maps w.part va
  match core with
  | some t => (s, throughEntry s w acc va t)
  | none =>
    match s.ms.tlb.find? fun t => t.core.isNone && t.die == w.die && t.maps w.part va with
    | some t =>
      let s := if w.core.isSome then addTlb s { t with core := w.core } else s
      (s, throughEntry s w acc va t)
    | none =>
      match walk s w.part w.die va with
      | .fault c lv e =>
        let s := if c = 1 && e / 16 % 2 = 1 && !w.quiet then
            noteResidency s w.part w.die (va / 65536 * 65536) 0 (w.access acc) lv w.coreField e else s
        (s, .fault c lv)
      | .leaf phys size lv e =>
        let t := leafEntry w.die none w.part va phys size e
        let s := if t.rt && (s.part w.part).rf.touchen then
            noteResidency s w.part w.die (va / size * size) 1 (w.access acc) lv w.coreField e else s
        let s := addTlb s t
        let s := if w.core.isSome then addTlb s { t with core := w.core } else s
        (s, throughEntry s w acc va t)

/-- A `.gm` address (R189): bit 63, a domain address (R45), or a virtual address. -/
def translate (s : State) (w : Who) (acc : Acc) (a : Nat) : State × Xlat :=
  if 2 ^ 63 ≤ a then (s, .fault 3 4)
  else if 2 ^ 62 ≤ a then
    let m := a / 2 ^ 52 % 1024
    let x := a % 2 ^ 52
    if m = s.links.modid then
      (s, if inRanges (s.part w.part).setup x 1 then reachPhys s w.die x else .fault 3 0)
    else (s, if scaleUpReach s.links w.die then .ok (.remote a) else .fault 4 0)
  else if 2 ^ 48 ≤ a then (s, .fault 3 4)
  else translateVa s w acc a

/-- Bytes of the page that an address lies in, as a fault sees it (R91): of the entry or the leaf that maps it, of a leaf that the walk
refused, and of a granule of 64 KiB where there is no page. (in part DEDUCED, log entry 22) -/
def pageSize (s : State) (w : Who) (va : Nat) : Nat :=
  if 2 ^ 48 ≤ va then 65536
  else match s.ms.tlb.find? fun t => t.die == w.die && t.maps w.part va with
    | some t => t.size
    | none => match walk s w.part w.die va with
      | .leaf _ size _ _ => size
      | .fault c lv e => if decide (c = 3) && decide (lv < 4) && decide (e / 8 % 2 = 1) then 2 ^ pageBits lv else 65536

/-- A read by the module of `n` bytes at a `.gm` address, one page, for an engine or front end: the data, or a cause. -/
def fetchGm (s : State) (w : Who) (a n : Nat) : State × Except Nat (List Byte) :=
  match translate s w .read a with
  | (s, .fault c _) => (s, .error c)
  | (s, .ok p) =>
    let (v, bad) := readPlace s p n
    (s, if bad then .error 5 else .ok (bytesOfNum n v))

end Sys2Proof.Machine
end

