-- ==== Sys2Proof/Machine/Abort.lean ====
section
/-!
DEFINITION. Work that ends without completing: teams discarded, grids aborted with their descendants and graphs (R133, R336), grids that
fail (R476), and requests to the Deadbolt (R337, R338).
-/
namespace Sys2Proof.Machine

/-- The lowest core number under which the model keeps the groups of a saved team: no core of the module has it (DESIGN CHOICE, log entry 14). -/
def savedBase : Nat := 1000

/-- A slot number that no group has: accesses of a discarded group are completed for it. -/
def noSlot : Nat := 255

/-- Whether a core and slot belong to one of some groups. -/
def inGroups (gs : List Group) (core slot : Nat) : Bool := gs.any fun g => g.isAt core slot

/-- Accesses already issued by some groups complete, and lower no counter and write no register. -/
def orphanAccesses (s : State) (gs : List Group) : State :=
  { s with
    ms := { s.ms with
      sb := s.ms.sb.map fun e => if inGroups gs e.core e.slot then { e with slot := noSlot } else e
      flights := s.ms.flights.map fun f => if inGroups gs f.core f.slot then { f with slot := noSlot, lanes := [] } else f }
    eng :=
      { s.eng with
        chains := s.eng.chains.map fun c => match c.waiting with
          | some (core, slot, _) => if inGroups gs core slot then { c with waiting := none } else c
          | none => c
        cmds := s.eng.cmds.map fun c => match c.issuer with
          | .group core slot _ => if inGroups gs core slot then { c with issuer := .group core noSlot [] } else c
          | _ => c }
    render := dropUnits s.render (fun core slot => inGroups gs core slot) (gs.map Group.team) }

/-- Notes that groups have left a core now (R138). -/
def noteVacant (s : State) (core : Nat) : State :=
  { s with vacant := (core, s.time.now) :: s.vacant.filter fun x => x.1 != core }

/-- Whether a team holds resources of a core. -/
def coreHeld (s : State) (core : Nat) : Bool := s.teams.any fun t => t.core == core

/-- A partition's request to vacate cores is met once no team stands on them (R144, R146): those that `SCH_PREEMPT` named are withheld for
1 ms, and VACATED counts them. -/
def Partition.settled (held : Nat → Bool) (now : Nat) (q : Partition) : Partition :=
  if q.sch.vacating.isEmpty || q.sch.vacating.any held then q
  else
    let w := if q.sch.keep then q.sch.vacating else []
    { q with sch := { q.sch with
        vacated := q.sch.vacating.length, vacating := [], withheld := w, withheldUntil := now + 1000000
        peState := if w.isEmpty then 0 else 2 } }

/-- Settles the request of every partition, after teams have left their cores. (in part DEDUCED, log entry 58) -/
def settleVacated (s : State) : State := { s with parts := s.parts.map (Partition.settled (coreHeld s) s.time.now) }

/-- Discards the contexts of some teams (R336): their groups, images and forwarding entries. -/
def discardTeams (s : State) (ids : List Nat) : State :=
  let gs := s.groups.filter fun g => ids.contains g.team
  let s := (gs.map Group.core).foldl noteVacant (orphanAccesses s gs)
  settleVacated { s with
    groups := s.groups.filter fun g => !ids.contains g.team
    teams := s.teams.filter fun t => !ids.contains t.id
    images := s.images.filter fun i => !ids.contains i.team
    fwd := s.fwd.filter fun f => !ids.contains f.team }

/-- Removes a command: its range entries go (R183), and its rays and job; accesses that it has sent complete for nobody. -/
def dropCmd (s : State) (id : Nat) : State :=
  { s with
    render := { s.render with
      rays := s.render.rays.filter fun r => r.owner != .strainer id
      jobs := s.render.jobs.filter fun j => j.cmd != some id }
    eng := { s.eng with cmds := s.eng.cmds.filter fun c => c.id != id }
    ms := { s.ms with
      ranges := s.ms.ranges.filter fun r => r.cmd != id
      arrived := s.ms.arrived.filter fun x => x.owner != id
      flights := s.ms.flights.map fun f => if f.engine == some id then { f with engine := none } else f } }

/-- Removes the commands and chains of the nodes of some graphs (R133). -/
def dropNodes (s : State) (graphs : List Nat) : State :=
  let mine (n : Option (Nat × Nat)) : Bool := match n with
    | some (g, _) => graphs.contains g
    | none => false
  let gone := s.eng.chains.filter fun c => mine c.node
  let cmds := (s.eng.cmds.filter fun c => match c.issuer with
    | .node g _ => graphs.contains g
    | .chain id => gone.any fun c => c.id == id
    | _ => false).map EngCmd.id
  let s := cmds.foldl dropCmd s
  { s with eng := { s.eng with chains := s.eng.chains.filter fun c => !mine c.node } }

/-- Marks work of every stream as failed (R336). -/
def failWork (s : State) (bad : WorkRef → Bool) : State :=
  { s with parts := s.parts.map fun p => { p with streams := p.streams.map fun st =>
      { st with work := st.work.map fun w => if bad w.ref then { w with failed := true } else w } } }

/-- The graphs that hold one of some grids as a node. -/
def graphsOf (s : State) (grids : List Nat) : List Nat :=
  s.grids.filterMap fun g => if grids.contains g.id then g.node.map Prod.fst else none

/-- One round of the closure of an abort: descendants, and the grids of graphs that lose a node (R133, R336). -/
def abortRound (s : State) (set : List Nat) (graphs : List Nat) : List Nat :=
  s.grids.filterMap fun g =>
    if set.contains g.id || (match g.parent with | some p => set.contains p | none => false) ||
        (match g.node with | some n => graphs.contains n.1 || (graphsOf s set).contains n.1 | none => false)
    then some g.id else none

/-- The closure of an abort, by rounds. -/
def abortClosure (s : State) (graphs : List Nat) : Nat → List Nat → List Nat
  | 0, set => set
  | n + 1, set => abortClosure s graphs n (abortRound s set graphs)

/-- Lowers the child count of the parents, outside the set, of some grids, and notes a failed child (R476). -/
def noteFailedChildren (s : State) (set : List Nat) : State :=
  { s with grids := s.grids.map fun g =>
      let n := (s.grids.filter fun c => set.contains c.id && c.parent == some g.id).length
      if n = 0 || set.contains g.id then g else { g with children := g.children - n, childFailed := true } }

/-- A graph whose every node is complete or aborted goes (R133). -/
def dropDeadGraphs (s : State) : State :=
  { s with graphs := s.graphs.filter fun g => !(g.failed && g.nodes.all fun n => n.state = .complete || n.state = .aborted) }

/-- Aborts grids and graphs (R133, R336): every team of the closure stops, nodes that have not completed become ABORTED, commands of the
graphs' nodes are dropped. The partitions concerned, and the state. -/
def abortParts (s : State) (grids graphs : List Nat) : List Nat × State :=
  let set := abortClosure s graphs (s.grids.length + 1) grids
  let gr := graphs ++ graphsOf s set
  let parts := (s.grids.filterMap fun g => if set.contains g.id then some g.part else none) ++
    s.graphs.filterMap fun g => if graphs.contains g.id then some g.part else none
  let s := noteFailedChildren s set
  let s := discardTeams s (s.teams.filterMap fun t => if set.contains t.grid then some t.id else none)
  let s := { s with
    grids := s.grids.filter fun g => !set.contains g.id
    lines := s.lines.filter fun l => !set.contains l.grid
    graphs := s.graphs.map fun g => if gr.contains g.id then
        { g with failed := true, nodes := g.nodes.map fun n => if n.state = .complete then n else { n with state := .aborted } } else g }
  let s := dropNodes s gr
  let s := failWork s fun w => match w with
    | .grid id => set.contains id
    | .graph id => gr.contains id
    | .command _ => false
    | .signal _ => false
  (parts.dedup, dropDeadGraphs s)

/-- An abort that raises source 259 in each partition concerned (R133, R336). -/
def abortWork (s : State) (grids graphs : List Nat) : State :=
  let r := abortParts s grids graphs
  r.1.foldl (fun s p => raisePart s p 259) r.2

/-- Aborts the grid of a team (R336). -/
def abortGrid (s : State) (grid : Nat) : State := abortWork s [grid] []

/-- A grid fails at its completion (R476): it performs no decrement, its parent's count falls, and its graph node becomes ABORTED. Where its own
decrement failed, source 259 is raised; a grid that fails for a child and is no node of a graph raises none. -/
def failGrid (s : State) (grid : Nat) (decrement : Bool) : State :=
  let node := match s.grid? grid with
    | some g => g.node.isSome
    | none => false
  if decrement || node then abortWork s [grid] [] else (abortParts s [grid] []).2

/-! ## The Deadbolt's requests -/

/-- Whether a lane of a team has TMSK 1 (R337). -/
def teamMasked (s : State) (team : Nat) : Bool :=
  (s.groupsOf team).any fun g => g.lanes.any fun x => x.live && x.tmsk

/-- Whether a team belongs to a grid in deterministic mode. -/
def teamDetm (s : State) (t : Team) : Bool :=
  match s.grid? t.grid with
  | some g => g.rcd.detm
  | none => false

/-- The configuration image in force (R60): the one in the slot that the module booted from. -/
def State.config (s : State) : ConfigImage := (if s.caddy.slotCfg = 0 then s.caddy.cfgA else s.caddy.cfgB).getD defaultImage

/-- The pre-emption deadline of a partition in ticks (R82): PREDL in µs, or that of the configuration image (R59). -/
def predlTicks (s : State) (p : Nat) : Nat :=
  let d := (s.part p).setup.predl
  1000 * (if d = 0 then s.config.body.deadline else d)

/-- Whether a request moves its team: a cut or a migration, which alone are latched (R337). -/
def dbMoves : DbKind → Bool
  | .cut | .migrate => true
  | _ => false

/-- The team stops issuing and the Deadbolt begins (R338). A checkpoint or a rollback leaves a latched cut or migration latched. (in part DEDUCED, log entry 57) -/
def beginDeadbolt (s : State) (team : Nat) (k : DbKind) : State :=
  s.updTeam team fun t => { t with
    db := .drainShd, dbKind := k, latched := if dbMoves k then none else t.latched, due := t.due && decide (k ≠ .checkpoint),
    state := match k with
      | .cut => .stopping
      | .migrate => .migrating
      | _ => t.state }

/-- Whether a group stands at a safe point (R147): its counters are zero, no matrix job of its team runs or is partly signed (R414), no lane
waits in a Blend gather, none of its rays holds a slot, and no ordered pixel access is pending. -/
def atSafePoint (s : State) (g : Group) : Bool :=
  let gathers (x : Lane) : Bool := match x.wait with
    | .neval _ => true
    | _ => false
  g.lanes.all (fun x => x.ld = 0 && x.st = 0 && x.cp = 0 && x.mx = 0 && !gathers x) &&
    !(s.render.jobs.any fun j => j.cmd.isNone && j.team == g.team) &&
    !(match s.team? g.team with
      | some t => t.keyrings.any fun k => k.open_ && decide (k.card ≠ 0)
      | none => false) &&
    !(s.render.rays.any fun r => r.goesWith s.render.marches fun c t => g.isAt c t) &&
    !s.render.pixels.any fun p => g.isAt p.core p.slot

/-- Whether a latched request may be taken (R337, R145): every group of a deterministic team stands at a safe point, and no lane of another
has its mask set. (in part DEDUCED, log entry 57) -/
def latchOpen (s : State) (t : Team) : Bool :=
  if teamDetm s t then (s.groupsOf t.id).all (atSafePoint s) else !teamMasked s t.id

/-- A cut or migration that reaches a team (R337): taken, or latched until it may be taken; the deadline runs from its first request. A cut
takes the place of a latched migration. (in part DEDUCED, log entry 57) -/
def cutOrLatch (s : State) (t : Team) (k : DbKind) : State :=
  let s := if k = .cut then s.updTeam t.id fun t => { t with dest := none } else s
  if latchOpen s t then beginDeadbolt s t.id k
  else
    let until_ := match t.latched with
      | some (_, d) => d
      | none => s.time.now + predlTicks s t.part
    s.updTeam t.id fun t => { t with latched := some (k, until_) }

/-- A request to the Deadbolt (R337, R338): a cut or a migration is latched until it may be taken; rollbacks and checkpoints begin at once.
A Deadbolt that is not IDLE takes no further request, but for a rollback that a compare asks for while the shadows drain (R342, R343): it
takes the place of what was begun, and a cut that was begun is latched. A checkpoint that finds it busy falls due once it is IDLE (R333). -/
def requestDeadbolt (s : State) (team : Nat) (k : DbKind) : State :=
  match s.team? team with
  | none => s
  | some t =>
    match k with
    | .cut => if t.db = .idle && t.state = .placed then cutOrLatch s t .cut else s
    | .migrate => if t.db = .idle && t.state = .placed && t.latched.isNone then cutOrLatch s t .migrate else s
    | .rollback =>
      if (t.db = .idle && t.state = .placed) || t.db = .drainShd then
        beginDeadbolt (s.updTeam team fun t => { t with
          state := .placed
          dest := if t.db = .drainShd then none else t.dest
          latched := if t.db = .drainShd && decide (t.dbKind = .cut) then some (.cut, s.time.now) else t.latched
          due := t.due || (decide (t.db = .drainShd) && decide (t.dbKind = .checkpoint)) }) team .rollback
      else s
    | .checkpoint =>
      if t.db = .idle && t.state = .placed then beginDeadbolt s team .checkpoint else s.updTeam team fun t => { t with due := true }

/-- Takes the latched request of a team, where it may be taken. -/
def takeLatch (s : State) (team : Nat) : State :=
  match s.team? team with
  | none => s
  | some t => match t.latched with
    | some (k, _) => if t.db = .idle && latchOpen s t then beginDeadbolt s team k else s
    | none => s

/-- Whether rollback acts in a partition (R333): ROLLBACK is set and there is a context area. (in part DEDUCED, log entry 27) -/
def rollbackOn (s : State) (p : Nat) : Bool :=
  (s.part p).setup.rollback && decide ((s.part p).sch.ctx.log2 ≠ 0)

/-- Rolls a team back (R335), or aborts its grid: when rollback is off, when the interval is unrepeatable, or at the third rollback
within one interval. (in part DEDUCED, log entry 27) (in part DEDUCED, log entry 67) -/
def recoverTeam (s : State) (team : Nat) : State :=
  match s.team? team with
  | none => s
  | some t =>
    if rollbackOn s t.part && t.repeatable && decide (t.rollbacks < 2) then
      let s := logEvent s .rollback 2 (logSource (dieOfCore t.core) 1) t.part t.core t.linear
      let s := s.updTeam team fun t => { t with rollbacks := t.rollbacks + 1 }
      requestDeadbolt s team .rollback
    else abortGrid s t.grid

end Sys2Proof.Machine
end

