-- ==== Sys2Proof/Machine/Operands.lean ====
section
/-!
DEFINITION. Operand forms: the register classes of R351 as they read and write a lane (R162 to R164), predicates and group registers
(R165), the memory address of each form (R349, R360) and its swizzle (R181).
-/
namespace Sys2Proof.Machine

/-! ## Lane registers -/

/-- First byte of V(k) (R162). -/
def Group.vAt (g : Group) (k : Nat) : Nat := g.vbase * 64 + 4 * k
/-- First byte of T(k). -/
def Group.tAt (g : Group) (k : Nat) : Nat := g.tbase * 64 + 64 * k
/-- First byte of A(k). -/
def Group.aAt (g : Group) (k : Nat) : Nat := g.abase * 64 + 128 * k

/-- `SrcV(l, k)` (R164, R351). -/
def srcV (g : Group) (l : Nat) (x : Lane) (k : Nat) : Word32 :=
  if k < 60 then BitVec.ofNat 32 (x.regs.readN (g.vAt k) 4)
  else if k = 60 then 0
  else if k = 61 then BitVec.ofNat 32 l
  else if k = 62 then g.gb0
  else g.gb1

/-- `SrcW(l, k)` (R351): 60 is the zero pair. -/
def srcW (g : Group) (x : Lane) (k : Nat) : Word64 :=
  if k < 30 then BitVec.ofNat 64 (x.regs.readN (g.vAt (2 * k)) 8) else 0

/-- `DstV(l, k, v)` (R360): 60 discards. -/
def dstV (g : Group) (x : Lane) (k : Nat) (v : Word32) : Lane :=
  if k < 60 then { x with regs := x.regs.writeN (g.vAt k) 4 v.toNat } else x

/-- `DstW(l, k, v)` (R360): 60 discards. -/
def dstW (g : Group) (x : Lane) (k : Nat) (v : Word64) : Lane :=
  if k < 30 then { x with regs := x.regs.writeN (g.vAt (2 * k)) 8 v.toNat } else x

/-- `Tr(l, k)` as bytes (R360). -/
def readT (g : Group) (x : Lane) (k : Nat) : List Byte := x.regs.bytes (g.tAt k) 64
/-- `Ar(l, k)` as bytes (R360). -/
def readA (g : Group) (x : Lane) (k : Nat) : List Byte := x.regs.bytes (g.aAt k) 128
/-- Writes a T register. -/
def writeT (g : Group) (x : Lane) (k : Nat) (bs : List Byte) : Lane := { x with regs := x.regs.writeBytes (g.tAt k) bs }
/-- Writes an A register. -/
def writeA (g : Group) (x : Lane) (k : Nat) (bs : List Byte) : Lane := { x with regs := x.regs.writeBytes (g.aAt k) bs }

/-- 32-bit word `j` of a list of bytes. -/
def wordAt (bs : List Byte) (j : Nat) : Nat := numOfBytes ((bs.drop (4 * j)).take 4)
/-- The bytes of a list of 32-bit words. -/
def bytesOfWords (ws : List Nat) : List Byte := ws.flatMap fun w => bytesOfNum 4 w

/-- `P(l, i)` (R165): P7 reads 1. -/
def predP (x : Lane) (i : Nat) : Bool := decide (i = 7) || x.preds.getLsbD i
/-- Writes a predicate; a write to P7 is discarded (R165). -/
def setP (x : Lane) (i : Nat) (v : Bool) : Lane :=
  if i < 7 then
    let m : BitVec 8 := 1#8 <<< i
    { x with preds := if v then x.preds ||| m else x.preds &&& ~~~m }
  else x

/-- `Q(i)` (R165): Q7 reads 1. -/
def predQ (g : Group) (i : Nat) : Bool := decide (i = 7) || g.q.getLsbD i
/-- Writes a group predicate; a write to Q7 is discarded (R165). -/
def setQ (g : Group) (i : Nat) (v : Bool) : Group :=
  if i < 7 then
    let m : BitVec 8 := 1#8 <<< i
    { g with q := if v then g.q ||| m else g.q &&& ~~~m }
  else g

/-- `G(i)` (R360). -/
def regG (g : Group) (i : Nat) : Word64 := g.g.getD i 0
/-- Writes a group register. -/
def setG (g : Group) (i : Nat) (v : Word64) : Group := { g with g := g.g.set i v }

/-- Whether the guard of a lane-set word reads 1 in a lane (R352). -/
def guardReads (gd : Guard) (x : Lane) : Bool := xor gd.neg (predP x gd.p)

/-! ## Named registers -/

/-- A register that a lane-set word names. -/
inductive Named
  | v (k : Nat)
  | w (k : Nat)
  | t (k : Nat)
  | a (k : Nat)
  deriving DecidableEq, Repr

/-- The byte span of a named register in the register space: first byte and length; nothing for the codes that are no register. -/
def Named.span (g : Group) : Named → Option (Nat × Nat)
  | .v k => if k < 60 then some (g.vAt k, 4) else none
  | .w k => if k < 30 then some (g.vAt (2 * k), 8) else none
  | .t k => some (g.tAt k, 64)
  | .a k => some (g.aAt k, 128)

/-- Whether a named register runs past RSIZE (R163). -/
def Named.past (g : Group) (r : Named) : Bool :=
  match r.span g with
  | some (lo, n) => decide (g.rsize < lo + n)
  | none => false

/-- Whether a named source is one of the broadcast latches, which shader state refuses (R277). -/
def Named.isLatch : Named → Bool
  | .v k => decide (62 ≤ k)
  | _ => false

/-- Whether a named register shares a byte with an A register that is marked invalid (R124). -/
def Named.meetsInvalid (g : Group) (r : Named) : Bool :=
  match r.span g with
  | some (lo, n) => (List.range 8).any fun k =>
      g.invalidA.getLsbD k && decide (lo < g.aAt k + 128) && decide (g.aAt k < lo + n)
  | none => false

/-! ## Addresses -/

/-- Applies swizzle `swz` to bits [6:4] of an address (R181). -/
def swizzle (swz a : Nat) : Nat :=
  let b (i n : Nat) : Nat := a / 2 ^ i % 2 ^ n
  let x := match swz with
    | 0 => 0
    | 1 => b 7 1
    | 2 => b 7 2
    | 3 => b 7 3
    | 4 => b 8 3
    | 5 => b 9 3
    | 6 => b 10 3
    | _ => b 7 3 ^^^ b 10 3
  a ^^^ (16 * x)

/-- A sign-extended field as a 64-bit word. -/
def sext64 (n x : Nat) : Word64 := BitVec.ofInt 64 (signedOf n x)

/-- The address of an LM form (R349, R397): the pair plus OFF6 times the size, then the swizzle. -/
def addrLM (g : Group) (x : Lane) (a off size swz : Nat) : Word64 :=
  BitVec.ofNat 64 (swizzle swz (srcW g x a + BitVec.ofNat 64 (off * size)).toNat)

/-- The address of an LX form (R349): the pair, the index unless the access is `strict`, the signed offset, then the swizzle. -/
def addrLX (g : Group) (l : Nat) (x : Lane) (a b immBits imm swz : Nat) (strict : Bool) : Word64 :=
  let idx : Word64 := if strict then 0 else sext64 32 (srcV g l x b).toNat
  BitVec.ofNat 64 (swizzle swz (srcW g x a + idx + sext64 immBits imm).toNat)

end Sys2Proof.Machine
end

