-- ==== Sys2Proof/Machine/Random.lean ====
section
/-!
DEFINITION. The random generator: the Steep function (R256), the counter of a lane's draw (R257), uniforms (R258) and normals by both
methods (R259).
-/
namespace Sys2Proof.Machine

/-- `Rotl` of R256. -/
def rotl32 (x s : Nat) : Nat := (x * 2 ^ s + x / 2 ^ (32 - s)) % 4294967296

/-- The four words of the generator. -/
structure Quad where
  y0 : Nat
  y1 : Nat
  y2 : Nat
  y3 : Nat
  deriving DecidableEq, Repr, Inhabited

/-- One round of Steep (R256). -/
def steepRound (k0 k1 r : Nat) (x : Quad) : Quad :=
  let a := (k0 + r * 0x7A3C9D15) % 4294967296
  let b := (k1 + r * 0x51E9B6C3) % 4294967296
  let p := x.y0 * 0xD2B74407
  let x1 := x.y1 ^^^ rotl32 ((p % 4294967296) ^^^ (p / 4294967296)) 7
  let q := x.y2 * 0xC8A15F33
  let x3 := x.y3 ^^^ rotl32 ((q % 4294967296) ^^^ (q / 4294967296)) 13
  let x0 := (x.y0 + x3 + a) % 4294967296
  let x2 := (x.y2 + x1 + b) % 4294967296
  ⟨x1, x2, x3, x0⟩

/-- The rounds from `r` on. -/
def steepRounds : Nat → Nat → Nat → Nat → Quad → Quad
  | 0, _, _, _, x => x
  | n + 1, k0, k1, r, x => steepRounds n k0 k1 (r + 1) (steepRound k0 k1 r x)

/-- `Steep` (R256): ten rounds and the final key addition. -/
def steep (c0 c1 c2 c3 k0 k1 : Nat) : Quad :=
  let x := steepRounds 10 k0 k1 0 ⟨c0, c1, c2, c3⟩
  ⟨(x.y0 + k0) % 4294967296, x.y1 ^^^ k1, (x.y2 + k1) % 4294967296, x.y3 ^^^ k0⟩

/-- The draw of global lane `gl` at position `pos` (R257). -/
def drawAt (key pos str gl : Nat) : Quad :=
  let mid := (gl * 256 + pos / 4294967296 % 4294967296) % 18446744073709551616
  steep (pos % 4294967296) (mid % 4294967296) (mid / 4294967296) (str % 4294967296) (key % 4294967296) (key / 4294967296 % 4294967296)

/-- The uniform FP32 value in [0, 1) of a word (R258), as an exact value. -/
def uniformVal (y : Nat) : Val := .fin false (y / 256 % 16777216) (-24)
/-- The uniform FP32 value in (0, 1] of a word (R258). -/
def uniformVal1 (y : Nat) : Val := .fin false (y / 256 % 16777216 + 1) (-24)

/-- The product of two FP32 codes, rounded to nearest-even. -/
def mul32 (a b : Nat) : Nat := (fMul fmtFP32 a b).code

/-- Box–Muller on one pair of words (R259, method 0). -/
def boxMuller (ya yb : Nat) : Nat × Nat :=
  let u1 := (roundVal fmtFP32 .nearest 0 (uniformVal1 ya)).code
  let u2 := (roundVal fmtFP32 .nearest 0 (uniformVal yb)).code
  let m0 := mul32 (xReproducible 5 u1 0).code 0xBFB17218
  let m := if m0 = 0x80000000 then 0 else m0
  let rr := (xReproducible 2 m 0).code
  let t := mul32 u2 0x40C90FDB
  (mul32 rr (xReproducible 7 t 0).code, mul32 rr (xReproducible 6 t 0).code)

/-- The bits after the point of the normal distribution function below. -/
def phiBits : Nat := 320

/-- The alternating sum of `z^(2k+1) / (2^k k! (2k+1))` from `k` on, where `term` is `z^(2k-1) / (2^(k-1) (k-1)!)`. -/
def phiTail : Nat → Nat → Int → Int → Int
  | 0, _, _, _ => 0
  | n + 1, k, term, zz =>
    let u := -(term * zz / 2 ^ phiBits / (2 * k : Nat))
    u / (2 * k + 1 : Nat) + phiTail n (k + 1) u zz

/-- `√(2π) (Φ(z) − 1/2)` for `0 ≤ z < 4`, in fixed point. -/
def phiOdd (z : Nat) : Int := (z : Int) + phiTail 160 1 z ((z : Int) * z / 2 ^ phiBits)

/-- `√(2π)` in fixed point. -/
def fixSqrtTwoPi : Nat := isqrt (2 * (fixPi / 2 ^ (fixBits - phiBits)) * 2 ^ phiBits)

/-- Whether the midpoint above the positive FP32 code `c` lies below the point where `Φ` is `1/2 + k/8192`, for odd `k`. -/
def midpointBelow (k c : Nat) : Bool :=
  match decodeVal fmtFP32 c with
  | .fin _ m e =>
    if 0x40800000 ≤ c then false else decide (phiOdd ((2 * m + 1) * 2 ^ (e - 1 + phiBits).toNat) < ((k * fixSqrtTwoPi / 8192 : Nat) : Int))
  | _ => false

/-- The smallest code whose midpoint above does not lie below the point, found one bit at a time. -/
def invSearch : Nat → Nat → Nat → Nat
  | 0, acc, _ => acc
  | n + 1, acc, k => invSearch n (if midpointBelow k (acc + 2 ^ n - 1) then acc + 2 ^ n else acc) k

/-- `T[i]` of R259: the FP32 code nearest to `Φ⁻¹((i + 0.5) / 4096)`. The upper half mirrors the lower. -/
def normTable (i : Nat) : Nat :=
  let k := if i < 2048 then 4095 - 2 * i else 2 * i - 4095
  let mag := invSearch 31 0 k
  if i < 2048 then 2147483648 + mag else mag

/-- Inversion on one word (R259, method 1). -/
def normInverse (y : Nat) : Nat :=
  let i := y / 1048576 % 4096
  let t := normTable i
  if i = 4095 then t
  else
    let f := (roundVal fmtFP32 .nearest 0 (.fin false (y % 1048576) (-20))).code
    let d := (fSub fmtFP32 (normTable (i + 1)) t).code
    (fAdd fmtFP32 t (mul32 f d)).code

/-- The four normals of a draw (R259). -/
def normals (method : Nat) (y : Quad) : List Nat :=
  if method = 0 then
    let (z0, z1) := boxMuller y.y0 y.y1
    let (z2, z3) := boxMuller y.y2 y.y3
    [z0, z1, z2, z3]
  else [normInverse y.y0, normInverse y.y1, normInverse y.y2, normInverse y.y3]

end Sys2Proof.Machine
end

