-- ==== Sys2Proof/Machine/Ops.lean ====
section
/-!
DEFINITION. The shared operations: taking an exception and returning from one (R327 to R332), parking (R325, R91), the wrappers in which
every instruction issues (R354, R352, R155), counters (R215) and the check of a lane's address (R394).
-/
namespace Sys2Proof.Machine

/-! ## The slice store -/

/-- Brings a group's slices into its core's store (R177): at most four groups stand there, and the one used longest ago leaves. -/
def sliceIn (s : State) (core slot : Nat) : State :=
  let here := s.groups.filter fun g => g.core == core && g.inStore && !(g.slot == slot)
  let leave := if here.length < 4 then none
    else (here.foldl (fun a g => match a with
      | none => some g
      | some b => if g.storeUse < b.storeUse then some g else some b) none).map fun g => g.slot
  let s := match leave with
    | some t => s.updGroup core t fun g => { g with inStore := false }
    | none => s
  { (s.updGroup core slot fun g => { g with inStore := true, storeUse := s.fresh }) with fresh := s.fresh + 1 }

/-! ## Taking an exception and returning -/

/-- The 32 bytes of a trap frame (R327). -/
def frameBytes (epc val : Word64) (cause info token : Nat) : List Byte :=
  bytesOfNum 8 epc.toNat ++ bytesOfNum 8 val.toNat ++ bytesOfNum 1 cause ++ bytesOfNum 1 info ++ bytesOfNum 2 0 ++ bytesOfNum 4 token ++
    bytesOfNum 8 0

/-- Where the frame of depth `d` stands in the slice (R327). -/
def frameAt (g : Group) (d : Nat) : Nat := g.tframe * 64 + 32 * (d - 1)

/-- INFO with PMSK (R327): bit 3 is TMSK before entry. -/
def infoWith (info : Nat) (tmsk : Bool) : Nat := info % 8 + (if tmsk then 8 else 0)

/-- Whether entering the handler is group-fatal for a lane (R328): depth 2, or no handler. -/
def entryFatal (g : Group) (x : Lane) : Bool := decide (2 ≤ x.tdep) || decide (g.tvec = 0)

/-- A lane that enters its handler (R328), when entry is not group-fatal. (in part DEDUCED, log entry 67) -/
def laneEnters (g : Group) (x : Lane) (cause info : Nat) (epc val : Word64) (token : Nat) : Lane :=
  { x with
    slice := x.slice.writeBytes (frameAt g (x.tdep + 1)) (frameBytes epc val cause (infoWith info x.tmsk) token)
    tdep := x.tdep + 1
    pc := g.tvec
    parked := none
    wait := .none }

/-- `GroupFatal` (R332) for the lanes that raised it together: freeze, record, recovery. -/
def groupFatal (s : State) (core slot : Nat) (ls : List Nat) (cause : Nat) (pc vaddr : Word64) : State :=
  match s.group? core slot with
  | none => s
  | some g =>
    let p := s.partOf g
    let s := s.updLanes core slot ls fun x => { x with frozen := true, wait := .none, parked := none }
    let s := putFault s p
      { vaddr := if 9 < cause then 0 else vaddr.toNat, lmask := (maskOf ls).toNat, core := core, unit := slot, cause := 128 + cause,
        access := 0, level := 0, stream := s.streamOf g, token := 0, pc := pc.toNat }
    let s := raisePart s p 259
    let s := logEvent s .groupFatal 3 (logSource (dieOfCore core) 1) p core cause
    recoverTeam s g.team

/-- What a lane brings to its handler: its index, the return address, VAL and the replay token. -/
structure Entry where
  lane : Nat
  epc : Word64
  val : Word64
  token : Nat
  deriving DecidableEq, Repr

/-- The home group of a lane (R278): the group it stands in, unless it is swapped. -/
def homeOf (s : State) (g : Group) (l : Nat) : Group :=
  match (g.lane l).home with
  | none => g
  | some t => (s.group? g.core t).getD g

/-- PC of a group-fatal record (R332): the instruction, whose address is EPC but for causes 11 and 12. -/
def fatalPc (s : State) (cause : Nat) (e : Entry) : Word64 := if cause = 11 || cause = 12 then s.issue.pc else e.epc

/-- `TrapEnter` (R328) of some lanes of a group for one cause: those that can enter do; the others are group-fatal together. -/
def trapEnter (s : State) (core slot cause info : Nat) (es : List Entry) : State :=
  match s.group? core slot with
  | none => s
  | some g =>
    let enter := es.filter fun e => !entryFatal (homeOf s g e.lane) (g.lane e.lane)
    let dead := es.filter fun e => entryFatal (homeOf s g e.lane) (g.lane e.lane)
    let s := if enter.isEmpty || g.inStore then s else sliceIn s core slot
    let s := enter.foldl (fun s e =>
      s.updLane core slot e.lane fun x => laneEnters (homeOf s g e.lane) x cause info e.epc e.val e.token) s
    match dead with
    | [] => s
    | d :: _ => groupFatal s core slot (dead.map Entry.lane) cause (fatalPc s cause d) d.val

/-- VAL of causes 10 to 12 (R327): the instruction's words. -/
def Issue.word (i : Issue) : Word64 :=
  BitVec.ofNat 64 (i.w1 + (if isTwoWord i.w1 then 4294967296 * i.w2 else 0))

/-- The bytes that the issuing instruction occupies (`Len` of R360). -/
def Issue.len (i : Issue) : Nat := wordLen i.w1

/-- The address after the issuing instruction. -/
def Issue.next (i : Issue) : Word64 := i.pc + BitVec.ofNat 64 i.len

/-- `Trap(l, 10, …)` of some lanes: ILLOP (R354). -/
def illop (s : State) (ls : List Nat) : State :=
  trapEnter s s.issue.core s.issue.slot 10 0 (ls.map fun l => ⟨l, s.issue.pc, s.issue.word, 0⟩)

/-- `tret` of one lane (R329), at depth 1 or 2: the return address from the frame with its low bits cleared, TMSK from PMSK, and the
depth lowered. -/
def laneReturns (g : Group) (x : Lane) : Lane :=
  let f := frameAt g x.tdep
  { x with
    pc := BitVec.ofNat 64 (x.slice.readN f 8) &&& ~~~3#64
    tmsk := (x.slice.read (f + 17)).getLsbD 3
    tdep := x.tdep - 1 }

/-- `tret` (R329) on the issuing lanes; a lane at depth 0 raises cause 10. -/
def trapReturn (s : State) : State :=
  match s.issuing? with
  | none => s
  | some g =>
    let ls := s.issue.lanes
    let s := if g.inStore then s else sliceIn s s.issue.core s.issue.slot
    let s := (ls.filter fun l => decide ((g.lane l).tdep ≠ 0)).foldl (fun s l =>
      s.updLane s.issue.core s.issue.slot l fun x => laneReturns (homeOf s g l) x) s
    illop s (ls.filter fun l => decide ((g.lane l).tdep = 0))

/-! ## Parking -/

/-- A lane that faults in translation: its cause, LEVEL and address. -/
structure Faulting where
  lane : Nat
  cause : Nat
  level : Nat
  addr : Word64
  deriving DecidableEq, Repr

/-- The first fault of each lane of a list. -/
def firstPerLane (fs : List Faulting) : List Faulting :=
  fs.foldl (fun acc f => if (acc.any fun t => t.lane == f.lane) then acc else acc ++ [f]) []

/-- Writes the record of some lanes of a group (R91), with a token for it. -/
def laneRecord (s : State) (g : Group) (ls : List Nat) (cause access level : Nat) (addr pc : Word64) : Nat × State :=
  let p := s.partOf g
  let (tok, s) := newToken s p
  (tok, putFault s p
    { vaddr := addr.toNat, lmask := (maskOf ls).toNat, core := g.core, unit := g.slot, cause := cause, access := access,
      level := level, stream := s.streamOf g, token := tok, pc := pc.toNat })

/-- Parks the lanes of one cause and one page under one record (R91, R325). -/
def parkOne (s : State) (core slot access : Nat) (fs : List Faulting) : State :=
  match s.group? core slot, fs with
  | some g, f :: _ =>
    let r := laneRecord s g ((fs.map Faulting.lane).dedup) f.cause access f.level f.addr (g.lane f.lane).pc
    (firstPerLane fs).foldl (fun s f => s.updLane core slot f.lane fun x =>
      { x with
        parked := some (match x.parked with
          | some k => { k with more := k.more ++ [r.1] }
          | none => ⟨f.cause, r.1, [], f.addr, access, false, .none, none⟩)
        wait := .none }) r.2
  | _, _ => s

/-- Who a lane of a group translates for. -/
def whoLane (s : State) (g : Group) (path : Nat) : Who := ⟨dieOfCore g.core, some g.core, s.partOf g, path, false⟩

/-- The page of a fault (R91): its cause, the page's size and its number. -/
def Faulting.key (s : State) (g : Group) (f : Faulting) : Nat × Nat × Nat :=
  let n := pageSize s (whoLane s g 0) f.addr.toNat
  (f.cause, n, f.addr.toNat / n)

/-- `Fault(l, cause)` of some lanes of one instruction, with one record for each distinct page and cause (R91, R325). A not-present fault
goes to the handler instead when NPTRAP is 1 (R92). -/
def parkLanes (s : State) (core slot access : Nat) (fs : List Faulting) : State :=
  match s.group? core slot with
  | none => s
  | some g =>
    let nptrap := (s.part (s.partOf g)).nptrap
    let toTrap := firstPerLane (fs.filter fun f => nptrap && f.cause == 1)
    let toPark := fs.filter fun f => !toTrap.any fun t => t.lane == f.lane
    let keyed := toPark.map fun f => (f.key s g, f)
    let s := (keyed.map Prod.fst).dedup.foldl (fun s k =>
      parkOne s core slot access ((keyed.filter fun x => x.1 == k).map Prod.snd)) s
    trapEnter s core slot 1 0 (toTrap.map fun f => ⟨f.lane, (g.lane f.lane).pc, f.addr, 0⟩)

/-! ## Errors that arise after a lane has moved on -/

/-- Whether a lane stands at an instruction boundary at which an error that arose elsewhere can reach it (R323, DEDUCED, log entry 16). -/
def Lane.atBoundary (x : Lane) : Bool :=
  x.parked.isNone && (match x.wait with
    | .none | .cohort _ | .limits _ _ _ _ _ _ => true
    | _ => false)

/-- The lowest-numbered occupied pending slot of a lane (R331). -/
def Lane.firstPend (x : Lane) : Option (Nat × PendSlot) :=
  (List.range 4).findSome? fun c => ((x.pend.getD c none).map fun p => (c, p))

/-- Whether a pending slot of a lane can be delivered now (R331): a boundary, TMSK 0 and TDEP below 2. (in part DEDUCED, log entry 16) -/
def Lane.takesPend (x : Lane) : Bool := x.live && x.atBoundary && !x.tmsk && decide (x.tdep < 2) && x.firstPend.isSome

/-- Whether an error of class 0 parks a lane now (R323). -/
def Lane.takesLate (x : Lane) : Bool := x.live && x.atBoundary && !x.late.isEmpty

/-- A lane parks at its boundary for an error under a token (R323, R478): one whose access a replay repeats counts as synchronous. -/
def Lane.parksLate (x : Lane) (e : LateErr) (tok : Nat) : Lane :=
  { x with parked := some ⟨e.cause, tok, [], e.addr, e.access, e.redo.isNone, .none, e.redo⟩, wait := .none }

/-- A lane takes the first error that waits for its boundary (R323): its record carries the boundary as PC, or the instruction whose access a
replay repeats. (in part DEDUCED, log entry 29) -/
def parkLate (s : State) (core slot l : Nat) : State :=
  match s.group? core slot with
  | none => s
  | some g =>
    let x := g.lane l
    match x.late with
    | [] => s
    | e :: rest =>
      let s := s.updLane core slot l fun x => { x with late := rest }
      match e.token with
      | some tok => s.updLane core slot l fun x => x.parksLate e tok
      | none =>
        let r := laneRecord s g [l] e.cause e.access 0 e.addr (match e.redo with
          | some f => f.pc
          | none => x.pc)
        r.2.updLane core slot l fun x => x.parksLate e r.1

/-- An error that arose elsewhere reaches some lanes (R323, R478): those at a boundary park, and the others do at their next. A lane that has
exited or is frozen does not park. (in part DEDUCED, log entry 16) -/
def raiseLate (s : State) (core slot : Nat) (ls : List Nat) (e : LateErr) : State :=
  let ls := ls.filter fun l => (s.lane core slot l).live
  let s := s.updLanes core slot ls fun x => { x with late := x.late ++ [e] }
  ls.foldl (fun s l => if (s.lane core slot l).takesLate then parkLate s core slot l else s) s

/-- Replays a parked lane (R93, R325): it issues its instruction again. -/
def Lane.replayed (x : Lane) : Lane := { x with parked := none, wait := .none }

/-- The return address of a parked lane that enters its handler (R324): the parked instruction, or the boundary. -/
def Park.epc (k : Park) (pc : Word64) : Word64 :=
  match k.redo with
  | some f => f.pc
  | none => pc

/-- The parked lanes of a group that a condition names enter their handlers with their causes and UNREC (R324, R478): those that parked at a
boundary after an asynchronous error have ASYNC too. -/
def unrecoverable (s : State) (core slot : Nat) (which : Park → Bool) : State :=
  match s.group? core slot with
  | none => s
  | some g =>
    let lost : List (Nat × Park) := (List.range 32).filterMap fun l => match (g.lane l).parked with
      | some k => if which k then some (l, k) else none
      | none => none
    let s := s.updLanes core slot (lost.map Prod.fst) fun x => { x with reserved := none }
    let kinds := (lost.map fun x => (x.2.cause, x.2.boundary)).dedup
    kinds.foldl (fun s k =>
      let es := lost.filter fun x => decide ((x.2.cause, x.2.boundary) = k)
      trapEnter s core slot k.1 (if k.2 then 3 else 1) (es.map fun x => ⟨x.1, x.2.epc (g.lane x.1).pc, x.2.addr, x.2.token⟩)) s

/-! ## Issue -/

/-- Moves the issuing lanes past the instruction, ready to issue again. -/
def advance (s : State) : State :=
  s.updLanes s.issue.core s.issue.slot s.issue.lanes fun x => { x with pc := s.issue.next, wait := .none }

/-- Puts some lanes back at the instruction. -/
def hold (s : State) (ls : List Nat) : State :=
  s.updLanes s.issue.core s.issue.slot ls fun x => { x with pc := s.issue.pc }

/-- Blocks some lanes at the instruction (R155): they issue it again together. -/
def block (s : State) (ls : List Nat) : State :=
  s.updLanes s.issue.core s.issue.slot ls fun x => { x with pc := s.issue.pc, wait := .cohort ls }

/-! ## Loops -/

/-- The live level `k` whose removal shifts a wait of a higher level down (R161). -/
def LaneWait.shifted (gone : Nat → Bool) (w : LaneWait) : LaneWait :=
  match w with
  | .loopEnd n => .loopEnd (n - ((List.range n).filter gone).length)
  | w => w

/-- Removes the live levels without members (R161). Those that remain move down; the registers of the levels above keep what they hold. -/
def Group.closeLevels (g : Group) : Group :=
  let live := (g.loops.take g.ldep).filter fun v => v.members ≠ 0
  if live.length = g.ldep then g
  else
    let gone (n : Nat) : Bool := decide (n < g.ldep) && decide ((g.loops.getD n default).members = 0)
    { g with
      loops := live ++ g.loops.drop live.length
      ldep := live.length
      lanes := g.lanes.map fun x => { x with wait := x.wait.shifted gone } }

/-- Lanes leave a live level and every level inside it (R161). -/
def Group.leaveFrom (g : Group) (k : Nat) (m : BitVec 32) : Group :=
  ({ g with loops := g.loops.mapIdx fun i v => if k ≤ i && i < g.ldep then { v with members := v.members &&& ~~~m } else v } : Group).closeLevels

/-- Whether an address lies in the body of a level: from S to E (R160). -/
def LoopLevel.holds (v : LoopLevel) (a : Word64) : Bool :=
  decide (v.last.toNat ≤ a.toNat + 4 * v.len) && decide (a.toNat ≤ v.last.toNat)

/-- The outermost live level that some lane leaves by going from one address to another (R161). (in part DEDUCED, log entry 25) -/
def Group.levelLeft (g : Group) (l : Nat) (from_ target : Word64) : Option Nat :=
  (List.range g.ldep).find? fun k =>
    let v := g.loops.getD k default
    v.members.getLsbD l && v.holds from_ && !v.holds target

/-- Some lanes go from one address to another: each leaves the levels whose body it goes out of (R161). -/
def Group.leaveBy (g : Group) (ls : List Nat) (from_ : Word64) (target : Nat → Word64) : Group :=
  ls.foldl (fun g l => match g.levelLeft l from_ (target l) with
    | some k => g.leaveFrom k (maskOf [l])
    | none => g) g

/-- The innermost live level that a lane is a member of. -/
def Group.levelOf (g : Group) (l : Nat) : Option Nat :=
  ((List.range g.ldep).filter fun k => (g.loops.getD k default).members.getLsbD l).getLast?

/-- What a lane that goes on in sequence at `next` waits for: the end step of its level, where `next` is E + 4 (R161). -/
def Group.waitAt (g : Group) (l : Nat) (shader : Bool) (next : Word64) : LaneWait :=
  match g.levelOf l with
  | some k => if (g.loops.getD k default).last + 4 = next && !shader then .loopEnd k else .none
  | none => .none

/-- Lanes that went on in sequence from a two-word form at E leave its loop (R161). -/
def Group.passTail (g : Group) (ls : List Nat) (pc : Word64) : Group :=
  g.leaveBy (ls.filter fun l => !(g.lane l).shader && (match g.levelOf l with
    | some k => decide ((g.loops.getD k default).last = pc)
    | none => false)) pc fun _ => pc + 8

/-- The lanes of a list that completed the issuing instruction in sequence: those at E + 4 of their level wait for its end step, and those
that passed a two-word form at E leave the loop (R161). (in part DEDUCED, log entry 25) -/
def markLoopEnd (s : State) (ls : List Nat) : State :=
  s.updGroup s.issue.core s.issue.slot fun g =>
    let on (l : Nat) (x : Lane) : Bool :=
      ls.contains l && decide (x.pc = s.issue.next) && x.parked.isNone && x.live && decide (x.wait = .none)
    let h := { g with lanes := g.lanes.mapIdx fun l x => if on l x then { x with wait := g.waitAt l x.shader x.pc } else x }
    if s.issue.len = 8 then h.passTail (ls.filter fun l => on l (g.lane l)) s.issue.pc else h

/-- One instruction: the lanes move past it, the body acts, and a loop end is noted (R354, R161). -/
def runIssue (s : State) (body : State → State) : State := markLoopEnd (body (advance s)) s.issue.lanes

/-- One instruction that transfers control of some lanes, which the body answers: the others go on in sequence (R161). -/
def runTransfer (s : State) (body : State → State × List Nat) : State :=
  let r := body (advance s)
  markLoopEnd r.1 (s.issue.lanes.filter fun l => !r.2.contains l)

/-- Whether the issuing cohort is in shader state (R277): its lanes all are or none is. -/
def inShader (s : State) : Bool :=
  match s.issuing?, s.issue.lanes with
  | some g, l :: _ => (g.lane l).shader
  | _, _ => false

/-- The issuing lanes inside the segment mask (R354, R159) of their home groups (R277). -/
def segLanes (g : Group) (s : State) : List Nat := s.issue.lanes.filter fun l => (homeOf s g l).inSegment l

/-- `Active(l)` of R8 for a lane-set word: in the cohort, in the segment mask, and its guard reads 1. -/
def activeLanes (g : Group) (gd : Guard) (s : State) : List Nat :=
  (segLanes g s).filter fun l => guardReads gd (g.lane l)

/-- The flags that some lanes of group `g` raise in the group of a slot: each lane's go to its home group (R279). -/
def homeFlags (g : Group) (act : List Nat) (f : Nat → FlagSet) (slot : Nat) : FlagSet :=
  orAllFlags ((act.filter fun l => decide ((g.lane l).home.getD g.slot = slot)).map f)

/-- A group with the flags that lanes of group `g` raise in it. -/
def Group.raised (h g : Group) (act : List Nat) (f : Nat → FlagSet) : Group :=
  if h.core = g.core then { h with stky := raiseFlags h.stky (homeFlags g act f h.slot) } else h

/-- Some lanes of group `g` raise flags (R359). -/
def raiseOf (g : Group) (act : List Nat) (f : Nat → FlagSet) (s : State) : State :=
  { s with groups := s.groups.map fun h => h.raised g act f }

/-- What a lane-set word names and where it is refused: source and destination registers, and whether shader state allows it (R277). -/
structure LaneForm where
  srcs : List Named
  dsts : List Named
  shaderOk : Bool
  deriving DecidableEq, Repr

/-- The flag of a lane that reads a register marked invalid in its home group (R124, R279). -/
def readsInvalid (s : State) (g : Group) (form : LaneForm) (l : Nat) : FlagSet :=
  if form.srcs.any fun r => r.meetsInvalid (homeOf s g l) then flagAINV else noFlags

/-- The issue of a lane-set word (R354): ILLOP where a named register runs past RSIZE (R163) or shader state refuses it (R277); else the
body acts on the Active lanes. A read of a register marked invalid raises AINV (R124). -/
def laneIssue (s : State) (gd : Guard) (form : LaneForm) (body : Group → List Nat → State → State) : State :=
  match s.issuing? with
  | none => s
  | some g =>
    runIssue s fun s' =>
      let bad := (form.srcs ++ form.dsts).any fun r => r.past g
      let refused := inShader s && (!form.shaderOk || form.srcs.any Named.isLatch)
      if bad || refused then illop s' (segLanes g s)
      else
        let act := activeLanes g gd s
        raiseOf g act (readsInvalid s g form) (body g act s')

/-- A lane's own computation: the group and the lane as they stood at issue give the lane's new registers and flags. -/
abbrev LaneFn := Group → Nat → Lane → Lane × FlagSet

/-- Applies a computation to the Active lanes; every source is read before any destination is written (R7, R365). -/
def applyLanes (f : LaneFn) (g : Group) (act : List Nat) (s : State) : State :=
  raiseOf g act (fun l => (f g l (g.lane l)).2) (s.updGroup s.issue.core s.issue.slot fun h =>
    { h with lanes := h.lanes.mapIdx fun l x => if act.contains l then (f g l x).1 else x })

/-- A group with the registers that a lane of it reads from its home group (R166, R279): AG0 to AG2, RMCAP and the invalid marks. -/
def asHome (s : State) (g : Group) (l : Nat) : Group :=
  let h := homeOf s g l
  { g with ag0 := h.ag0, ag1 := h.ag1, ag2 := h.ag2, rmcap := h.rmcap, invalidA := h.invalidA }

/-- A computation that reads such registers. -/
def homed (s : State) (f : LaneFn) : LaneFn := fun g l x => f (asHome s g l) l x

/-- Whether 32 Active lanes are those of one group: a register that they all write is written in every lane (R124). -/
def coversGroup (g : Group) (act : List Nat) : Bool := decide (act.length = 32) && g.lanes.all fun x => x.home.isNone

/-- A lane-set word that only computes (R365). -/
def laneCompute (s : State) (gd : Guard) (form : LaneForm) (f : LaneFn) : Result := .next (laneIssue s gd form (applyLanes f))

/-- The group-set instructions that shader state allows (R277). -/
structure GroupForm where
  shaderOk : Bool
  namesG : Bool
  namesQ : List Nat
  deriving DecidableEq, Repr

/-- Whether shader state refuses a group-set word (R277): a G register, or a Q register other than Q7. -/
def GroupForm.refused (f : GroupForm) (q : Nat) : Bool := !f.shaderOk || f.namesG || (q :: f.namesQ).any fun k => decide (k ≠ 7)

/-- The issue of a group-set word with a guard (R352, R354): when Q(QI) reads 0 it has no effect. -/
def groupIssue (s : State) (q : Nat) (form : GroupForm) (body : Group → State → State) : State :=
  match s.issuing? with
  | none => s
  | some g =>
    runIssue s fun s' =>
      if inShader s && form.refused q then illop s' s.issue.lanes
      else if predQ g q then body g s'
      else s'

/-- A group-set word that changes the group alone. -/
def groupCompute (s : State) (q : Nat) (form : GroupForm) (f : Group → Group) : Result :=
  .next (groupIssue s q form fun _ s' => s'.updGroup s.issue.core s.issue.slot f)

/-- A lane-set word whose computation needs facts of its grid. -/
def laneComputeWith (s : State) (gd : Guard) (form : LaneForm) (f : Group → LaneFn) : Result :=
  .next (laneIssue s gd form fun g act s' => applyLanes (f g) g act s')

/-! ## Facts of the grid -/

/-- The launch record of a group's grid; a record of zeros where there is none. -/
def recordOf (s : State) (g : Group) : LaunchRec :=
  match s.gridOf g with
  | some gr => gr.rcd
  | none => default

/-- Whether a group runs in deterministic mode. -/
def detmOf (s : State) (g : Group) : Bool := (recordOf s g).detm

/-- Format slot `n` of a group's grid (R242). -/
def formatOf (s : State) (g : Group) (n : Nat) : Nat := (recordOf s g).fs.getD n 0

/-- The team linear index of a group. -/
def linearOf (s : State) (g : Group) : Nat :=
  match s.teamOf g with
  | some t => t.linear
  | none => 0

/-! ## Draws -/

/-- One draw of a lane (R257): the four words, and the lane one position on. -/
def laneDraw (x : Lane) (gl : Nat) : Quad × Lane :=
  (drawAt x.rngKey.toNat x.rngPos.toNat x.rngStr.toNat gl, { x with rngPos := x.rngPos + 1 })

/-- `n` draws of a lane, each giving its word y0 (R257), and the lane after them. -/
def laneDraws (x : Lane) (gl : Nat) : Nat → List Nat × Lane
  | 0 => ([], x)
  | n + 1 =>
    let (y, x) := laneDraw x gl
    let (ys, x) := laneDraws x gl n
    (y.y0 :: ys, x)

/-! ## Counters -/

/-- The entry of a counter (R215). -/
def Lane.count (x : Lane) : Counter → Nat
  | .ld => x.ld | .st => x.st | .cp => x.cp | .mx => x.mx | .none => 0

/-- Changes the entry of a counter. -/
def Lane.updCount (x : Lane) (c : Counter) (f : Nat → Nat) : Lane :=
  match c with
  | .ld => { x with ld := f x.ld }
  | .st => { x with st := f x.st }
  | .cp => { x with cp := f x.cp }
  | .mx => { x with mx := f x.mx }
  | .none => x

/-- `Count(c, 1)` for some lanes. -/
def countUp (s : State) (core slot : Nat) (ls : List Nat) (c : Counter) : State :=
  s.updLanes core slot ls fun x => x.updCount c (· + 1)

/-- `Count(c, -1)` for some lanes. -/
def countDown (s : State) (core slot : Nat) (ls : List Nat) (c : Counter) : State :=
  s.updLanes core slot ls fun x => x.updCount c (· - 1)

/-- Whether raising an entry would take some lane above 63 (R216). -/
def countFull (g : Group) (ls : List Nat) (c : Counter) : Bool := ls.any fun l => decide (63 ≤ (g.lane l).count c)

/-! ## Teams that run -/

/-- Whether a team runs: it is placed, the Deadbolt does not hold it (R338), no checkpoint is due (R333), and the cores are not held in reset
after a trip (R52). -/
def teamRuns (s : State) (team : Nat) : Bool :=
  match s.team? team with
  | none => false
  | some t => !s.therm.trip && decide (t.state = .placed) && decide (t.db = .idle) && !t.due

/-- Whether the Deadbolt lets the work of a team go on (R338): it does until the team freezes, and not while it is saved, nor after a trip (R52). -/
def teamUnitsRun (s : State) (t : Team) : Bool := !s.therm.trip && decide (t.state ≠ .pending) && (decide (t.db = .idle) || decide (t.db = .drainShd))

/-- Acts on a group whose team runs. -/
def onRunning (s : State) (core slot : Nat) (k : Group → State) : State :=
  match s.group? core slot with
  | none => s
  | some g => if teamRuns s g.team then k g else s

/-! ## Checked addresses -/

/-- The outcome of the checks of R394. -/
inductive Check
  | ok (p : Place)
  | trap (cause : Nat)
  /-- It parks with a cause, LEVEL and address. -/
  | park (cause level : Nat) (va : Word64)
  /-- The access reaches nothing: its target is stale (R139), and the lane parks at its boundary. -/
  | stale
  deriving DecidableEq, Repr

/-- The spaces of R174 by their code. -/
def spaceLs : Nat := 0
def spaceSp : Nat := 1
def spaceCl : Nat := 2
def spaceCh : Nat := 3
def spaceGm : Nat := 4
def spaceKc : Nat := 5

/-- Byte `o` of the partition's chip scratchpad on a die (R178). -/
def chipPlace (q : Partition) (die o : Nat) : Place :=
  .chip die ((if die = 0 then q.chip0 else q.chip1).getD (o / 1048576) 0 * 1048576 + o % 1048576)

/-- CHSP of a die in bytes. -/
def chipBytes (q : Partition) (die : Nat) : Nat := (if die = 0 then q.setup.chsp0 else q.setup.chsp1) * 1048576

/-- The place of a space's address that is not translated (R174), or its bounds fault. (in part DEDUCED, log entry 28) -/
def localPlace (s : State) (g : Group) (l sp a : Nat) : Check :=
  match s.teamOf g with
  | none => .trap 8
  | some t =>
    if sp = spaceLs then (if a < 2048 then .ok (.slice g.core g.slot l a) else .trap 8)
    else if sp = spaceSp then (if a < t.spfoot then .ok (.sp g.core (t.spbase + a)) else .trap 8)
    else if sp = spaceCl then
      (match s.grid? t.grid with
       | none => .trap 8
       | some gr =>
         let n := gr.rcd.clw * gr.rcd.clh
         let m := a / 524288
         if 8388608 ≤ a || n ≤ m || t.spfoot ≤ a % 524288 then .trap 8
         else match s.teams.find? fun u => u.grid == t.grid && u.linear == t.linear / n * n + m with
           | some u => .ok (.sp u.core (u.spbase + a % 524288))
           | none => .stale)
    else
      let q := s.part t.part
      let die := a / chipSize
      if a < 2 * chipSize && decide (a % chipSize < chipBytes q die) then .ok (chipPlace q die (a % chipSize)) else .trap 8

/-- The checks of R394 on a lane's address: alignment, then bounds, then translation. (in part DEDUCED, log entry 28) -/
def checkAddr (s : State) (g : Group) (l sp : Nat) (a : Word64) (n : Nat) (acc : Acc) (path : Nat) : State × Check :=
  if a.toNat % n ≠ 0 then (s, .trap 9)
  else if sp = spaceGm then
    match translate s (whoLane s g path) acc a.toNat with
    | (s, .ok p) => (s, .ok p)
    | (s, .fault c lv) => (s, .park c lv a)
  else if sp = spaceKc then
    if 4294967296 ≤ a.toNat then (s, .trap 8)
    else
      let base := match s.gridOf g with
        | some gr => gr.rcd.kcbase
        | none => 0
      let va := (base + a.toNat) % 2 ^ 64
      match translate s (whoLane s g path) .read va with
      | (s, .ok p) => (s, .ok p)
      | (s, .fault c lv) => (s, .park c lv (BitVec.ofNat 64 va))
  else match localPlace s g l sp a.toNat with
    | .ok p => (s, if hingeUp s.links || p.die = dieOfCore g.core then .ok p else .park 4 0 a)
    | c => (s, c)

end Sys2Proof.Machine
end

