-- ==== Sys2Proof/Machine/LaneInt.lean ====
section
/-!
DEFINITION. Lane integer instructions (R367 to R375): arithmetic cut to the destination width, logic and bit counts, shifts, bit fields,
select and compare. None sets a flag.
-/
namespace Sys2Proof.Machine

/-! ## Shapes -/

/-- V, V, V. -/
def laneVVV (f : Word32 → Word32 → Word32) (d a b : Nat) : LaneFn := fun g l x =>
  (dstV g x d (f (srcV g l x a) (srcV g l x b)), noFlags)
/-- V, V. -/
def laneVV (f : Word32 → Word32) (d a : Nat) : LaneFn := fun g l x => (dstV g x d (f (srcV g l x a)), noFlags)
/-- W, W, W. -/
def laneWWW (f : Word64 → Word64 → Word64) (d a b : Nat) : LaneFn := fun g _ x =>
  (dstW g x d (f (srcW g x a) (srcW g x b)), noFlags)
/-- W, W. -/
def laneWW (f : Word64 → Word64) (d a : Nat) : LaneFn := fun g _ x => (dstW g x d (f (srcW g x a)), noFlags)
/-- W, W and a V count. -/
def laneWWV (f : Word64 → Nat → Word64) (d a b : Nat) : LaneFn := fun g l x =>
  (dstW g x d (f (srcW g x a) (srcV g l x b).toNat), noFlags)
/-- V, V and a V count. -/
def laneVVN (f : Word32 → Nat → Word32) (d a b : Nat) : LaneFn := fun g l x =>
  (dstV g x d (f (srcV g l x a) (srcV g l x b).toNat), noFlags)
/-- V, V and a constant. -/
def laneVVI (f : Word32 → Word32) (d a : Nat) : LaneFn := laneVV f d a

/-- The form of a word that names V registers alone. -/
def formV (d : Nat) (srcs : List Nat) : LaneForm := ⟨srcs.map .v, [.v d], true⟩
/-- The form of a word that names W registers alone. -/
def formW (d : Nat) (srcs : List Nat) : LaneForm := ⟨srcs.map .w, [.w d], true⟩

/-! ## Operations -/

/-- `mulhi.s` at width `n` (R367): the high half of the product of the signed values. -/
def mulhiS (n : Nat) (a b : BitVec n) : BitVec n := BitVec.ofInt n (a.toInt * b.toInt / 2 ^ n)
/-- `mulhi.n` (R367): the high half of the product of the unsigned values. -/
def mulhiN (n : Nat) (a b : BitVec n) : BitVec n := BitVec.ofNat n (a.toNat * b.toNat / 2 ^ n)
/-- `abs.s` (R367): the most negative value stays. -/
def absS (n : Nat) (a : BitVec n) : BitVec n := if a.msb then -a else a
/-- `min.s` (R368). -/
def minS (n : Nat) (a b : BitVec n) : BitVec n := if a.slt b then a else b
/-- `max.s` (R368). -/
def maxS (n : Nat) (a b : BitVec n) : BitVec n := if a.slt b then b else a
/-- `min.n` (R368). -/
def minN (n : Nat) (a b : BitVec n) : BitVec n := if a < b then a else b
/-- `max.n` (R368). -/
def maxN (n : Nat) (a b : BitVec n) : BitVec n := if a < b then b else a
/-- `popc` (R369). -/
def popc32 (a : Word32) : Word32 := BitVec.ofNat 32 ((List.range 32).filter fun i => a.getLsbD i).length
/-- `clz` (R369): 32 for 0. -/
def clz32 (a : Word32) : Word32 := if a = 0 then 32 else BitVec.ofNat 32 (31 - Nat.log2 a.toNat)
/-- `ctz` (R369): 32 for 0. -/
def ctz32 (a : Word32) : Word32 := BitVec.ofNat 32 (((List.range 32).find? fun i => a.getLsbD i).getD 32)
/-- `brev` (R369): bit i goes to bit 31 − i. -/
def brev32 (a : Word32) : Word32 := BitVec.ofNat 32 ((List.range 32).foldl (fun n i => if a.getLsbD i then n + 2 ^ (31 - i) else n) 0)
/-- `shl` (R370): 0 from the width on. -/
def shlN (n : Nat) (a : BitVec n) (c : Nat) : BitVec n := if c < n then a <<< c else 0
/-- `shr` (R370). -/
def shrN (n : Nat) (a : BitVec n) (c : Nat) : BitVec n := if c < n then a >>> c else 0
/-- `sra` (R370): every bit the sign from the width on. -/
def sraN (n : Nat) (a : BitVec n) (c : Nat) : BitVec n := a.sshiftRight (min c (n - 1))
/-- `rot` (R370): left by the count modulo the width. -/
def rotN (n : Nat) (a : BitVec n) (c : Nat) : BitVec n := a.rotateLeft (c % n)

/-- pos and the clipped length k of a bit field (R372). -/
def fieldSpec (p : Word32) : Nat × Nat :=
  let pos := p.toNat % 32
  (pos, min (min 32 (p.toNat / 256 % 64)) (32 - pos))
/-- `bfe` (R372). -/
def bfe32 (signed : Bool) (a p : Word32) : Word32 :=
  let (pos, k) := fieldSpec p
  let f := a.toNat / 2 ^ pos % 2 ^ k
  if k = 0 then 0 else if signed then BitVec.ofInt 32 (signedOf k f) else BitVec.ofNat 32 f
/-- `bfi` (R372). -/
def bfi32 (a b p : Word32) : Word32 :=
  let (pos, k) := fieldSpec p
  let mask : Word32 := BitVec.ofNat 32 ((2 ^ k - 1) * 2 ^ pos)
  (a &&& ~~~mask) ||| ((b <<< pos) &&& mask)
/-- `lea` (R367). -/
def lea64 (f : Nat) (a : Word64) (b : Word32) : Word64 := a + BitVec.ofInt 64 (b.toInt * 2 ^ f)

/-- The relation of an integer compare by its FN (R375). -/
def relOf (c : Nat) (lt eq : Bool) : Bool :=
  match c with
  | 0 => eq | 1 => !eq | 2 => lt | 3 => lt || eq | 4 => !(lt || eq) | _ => !lt
/-- A signed compare. -/
def cmpS (n c : Nat) (a b : BitVec n) : Bool := relOf c (a.slt b) (decide (a = b))
/-- An unsigned compare. -/
def cmpN (n c : Nat) (a b : BitVec n) : Bool := relOf c (decide (a < b)) (decide (a = b))
/-- A compare of V registers into P. -/
def laneCmpV (f : Word32 → Word32 → Bool) (d a b : Nat) : LaneFn := fun g l x => (setP x d (f (srcV g l x a) (srcV g l x b)), noFlags)
/-- A compare of W registers into P. -/
def laneCmpW (f : Word64 → Word64 → Bool) (d a b : Nat) : LaneFn := fun g _ x => (setP x d (f (srcW g x a) (srcW g x b)), noFlags)

/-- IMM9 sign-extended (R371). -/
def immS (imm : Nat) : Word32 := BitVec.ofInt 32 (signedOf 9 imm)
/-- IMM9 zero-extended (R371). -/
def immN (imm : Nat) : Word32 := BitVec.ofNat 32 imm

/-! ## Computations -/

/-- (A + B) mod 2^n (R367). -/
def effAddB32 (d a b : Nat) : LaneFn := laneVVV (fun x y => x + y) d a b
/-- `ADD_B32`. -/
def execAddB32 (gd : Guard) (d a b : Nat) (s : State) : Result := laneCompute s gd (formV d [a, b]) (effAddB32 d a b)
/-- (A − B) mod 2^n (R367). -/
def effSubB32 (d a b : Nat) : LaneFn := laneVVV (fun x y => x - y) d a b
/-- `SUB_B32`. -/
def execSubB32 (gd : Guard) (d a b : Nat) (s : State) : Result := laneCompute s gd (formV d [a, b]) (effSubB32 d a b)
/-- (A × B) mod 2^n (R367). -/
def effMulB32 (d a b : Nat) : LaneFn := laneVVV (fun x y => x * y) d a b
/-- `MUL_B32`. -/
def execMulB32 (gd : Guard) (d a b : Nat) (s : State) : Result := laneCompute s gd (formV d [a, b]) (effMulB32 d a b)
/-- The high half of the signed product (R367). -/
def effMulhiS32 (d a b : Nat) : LaneFn := laneVVV (mulhiS 32) d a b
/-- `MULHI_S32`. -/
def execMulhiS32 (gd : Guard) (d a b : Nat) (s : State) : Result := laneCompute s gd (formV d [a, b]) (effMulhiS32 d a b)
/-- The high half of the unsigned product (R367). -/
def effMulhiN32 (d a b : Nat) : LaneFn := laneVVV (mulhiN 32) d a b
/-- `MULHI_N32`. -/
def execMulhiN32 (gd : Guard) (d a b : Nat) (s : State) : Result := laneCompute s gd (formV d [a, b]) (effMulhiN32 d a b)
/-- |A| mod 2^n (R367). -/
def effAbsS32 (d a : Nat) : LaneFn := laneVV (absS 32) d a
/-- `ABS_S32`. -/
def execAbsS32 (gd : Guard) (d a : Nat) (s : State) : Result := laneCompute s gd (formV d [a]) (effAbsS32 d a)
/-- −A mod 2^n (R367). -/
def effNegS32 (d a : Nat) : LaneFn := laneVV (fun x => -x) d a
/-- `NEG_S32`. -/
def execNegS32 (gd : Guard) (d a : Nat) (s : State) : Result := laneCompute s gd (formV d [a]) (effNegS32 d a)
/-- The lesser or greater of A and B (R368). -/
def effMinS32 (d a b : Nat) : LaneFn := laneVVV (minS 32) d a b
/-- `MIN_S32`. -/
def execMinS32 (gd : Guard) (d a b : Nat) (s : State) : Result := laneCompute s gd (formV d [a, b]) (effMinS32 d a b)
/-- The lesser or greater of A and B (R368). -/
def effMaxS32 (d a b : Nat) : LaneFn := laneVVV (maxS 32) d a b
/-- `MAX_S32`. -/
def execMaxS32 (gd : Guard) (d a b : Nat) (s : State) : Result := laneCompute s gd (formV d [a, b]) (effMaxS32 d a b)
/-- The lesser or greater of A and B (R368). -/
def effMinN32 (d a b : Nat) : LaneFn := laneVVV (minN 32) d a b
/-- `MIN_N32`. -/
def execMinN32 (gd : Guard) (d a b : Nat) (s : State) : Result := laneCompute s gd (formV d [a, b]) (effMinN32 d a b)
/-- The lesser or greater of A and B (R368). -/
def effMaxN32 (d a b : Nat) : LaneFn := laneVVV (maxN 32) d a b
/-- `MAX_N32`. -/
def execMaxN32 (gd : Guard) (d a b : Nat) (s : State) : Result := laneCompute s gd (formV d [a, b]) (effMaxN32 d a b)
/-- (A + B) mod 2^n (R367). -/
def effAddB64 (d a b : Nat) : LaneFn := laneWWW (fun x y => x + y) d a b
/-- `ADD_B64`. -/
def execAddB64 (gd : Guard) (d a b : Nat) (s : State) : Result := laneCompute s gd (formW d [a, b]) (effAddB64 d a b)
/-- (A − B) mod 2^n (R367). -/
def effSubB64 (d a b : Nat) : LaneFn := laneWWW (fun x y => x - y) d a b
/-- `SUB_B64`. -/
def execSubB64 (gd : Guard) (d a b : Nat) (s : State) : Result := laneCompute s gd (formW d [a, b]) (effSubB64 d a b)
/-- (A × B) mod 2^n (R367). -/
def effMulB64 (d a b : Nat) : LaneFn := laneWWW (fun x y => x * y) d a b
/-- `MUL_B64`. -/
def execMulB64 (gd : Guard) (d a b : Nat) (s : State) : Result := laneCompute s gd (formW d [a, b]) (effMulB64 d a b)
/-- The high half of the signed product (R367). -/
def effMulhiS64 (d a b : Nat) : LaneFn := laneWWW (mulhiS 64) d a b
/-- `MULHI_S64`. -/
def execMulhiS64 (gd : Guard) (d a b : Nat) (s : State) : Result := laneCompute s gd (formW d [a, b]) (effMulhiS64 d a b)
/-- The high half of the unsigned product (R367). -/
def effMulhiN64 (d a b : Nat) : LaneFn := laneWWW (mulhiN 64) d a b
/-- `MULHI_N64`. -/
def execMulhiN64 (gd : Guard) (d a b : Nat) (s : State) : Result := laneCompute s gd (formW d [a, b]) (effMulhiN64 d a b)
/-- |A| mod 2^n (R367). -/
def effAbsS64 (d a : Nat) : LaneFn := laneWW (absS 64) d a
/-- `ABS_S64`. -/
def execAbsS64 (gd : Guard) (d a : Nat) (s : State) : Result := laneCompute s gd (formW d [a]) (effAbsS64 d a)
/-- −A mod 2^n (R367). -/
def effNegS64 (d a : Nat) : LaneFn := laneWW (fun x => -x) d a
/-- `NEG_S64`. -/
def execNegS64 (gd : Guard) (d a : Nat) (s : State) : Result := laneCompute s gd (formW d [a]) (effNegS64 d a)
/-- The lesser or greater of A and B (R368). -/
def effMinS64 (d a b : Nat) : LaneFn := laneWWW (minS 64) d a b
/-- `MIN_S64`. -/
def execMinS64 (gd : Guard) (d a b : Nat) (s : State) : Result := laneCompute s gd (formW d [a, b]) (effMinS64 d a b)
/-- The lesser or greater of A and B (R368). -/
def effMaxS64 (d a b : Nat) : LaneFn := laneWWW (maxS 64) d a b
/-- `MAX_S64`. -/
def execMaxS64 (gd : Guard) (d a b : Nat) (s : State) : Result := laneCompute s gd (formW d [a, b]) (effMaxS64 d a b)
/-- The lesser or greater of A and B (R368). -/
def effMinN64 (d a b : Nat) : LaneFn := laneWWW (minN 64) d a b
/-- `MIN_N64`. -/
def execMinN64 (gd : Guard) (d a b : Nat) (s : State) : Result := laneCompute s gd (formW d [a, b]) (effMinN64 d a b)
/-- The lesser or greater of A and B (R368). -/
def effMaxN64 (d a b : Nat) : LaneFn := laneWWW (maxN 64) d a b
/-- `MAX_N64`. -/
def execMaxN64 (gd : Guard) (d a b : Nat) (s : State) : Result := laneCompute s gd (formW d [a, b]) (effMaxN64 d a b)
/-- Bitwise (R369). -/
def effAndB32 (d a b : Nat) : LaneFn := laneVVV (fun x y => x &&& y) d a b
/-- `AND_B32`. -/
def execAndB32 (gd : Guard) (d a b : Nat) (s : State) : Result := laneCompute s gd (formV d [a, b]) (effAndB32 d a b)
/-- Bitwise (R369). -/
def effOrB32 (d a b : Nat) : LaneFn := laneVVV (fun x y => x ||| y) d a b
/-- `OR_B32`. -/
def execOrB32 (gd : Guard) (d a b : Nat) (s : State) : Result := laneCompute s gd (formV d [a, b]) (effOrB32 d a b)
/-- Bitwise (R369). -/
def effXorB32 (d a b : Nat) : LaneFn := laneVVV (fun x y => x ^^^ y) d a b
/-- `XOR_B32`. -/
def execXorB32 (gd : Guard) (d a b : Nat) (s : State) : Result := laneCompute s gd (formV d [a, b]) (effXorB32 d a b)
/-- Bits of A (R369). -/
def effNotB32 (d a : Nat) : LaneFn := laneVV (fun x => ~~~x) d a
/-- `NOT_B32`. -/
def execNotB32 (gd : Guard) (d a : Nat) (s : State) : Result := laneCompute s gd (formV d [a]) (effNotB32 d a)
/-- Bits of A (R369). -/
def effPopcB32 (d a : Nat) : LaneFn := laneVV popc32 d a
/-- `POPC_B32`. -/
def execPopcB32 (gd : Guard) (d a : Nat) (s : State) : Result := laneCompute s gd (formV d [a]) (effPopcB32 d a)
/-- Bits of A (R369). -/
def effClzB32 (d a : Nat) : LaneFn := laneVV clz32 d a
/-- `CLZ_B32`. -/
def execClzB32 (gd : Guard) (d a : Nat) (s : State) : Result := laneCompute s gd (formV d [a]) (effClzB32 d a)
/-- Bits of A (R369). -/
def effCtzB32 (d a : Nat) : LaneFn := laneVV ctz32 d a
/-- `CTZ_B32`. -/
def execCtzB32 (gd : Guard) (d a : Nat) (s : State) : Result := laneCompute s gd (formV d [a]) (effCtzB32 d a)
/-- Bits of A (R369). -/
def effBrevB32 (d a : Nat) : LaneFn := laneVV brev32 d a
/-- `BREV_B32`. -/
def execBrevB32 (gd : Guard) (d a : Nat) (s : State) : Result := laneCompute s gd (formV d [a]) (effBrevB32 d a)
/-- Shift by V(B) (R370). -/
def effShlB32 (d a b : Nat) : LaneFn := laneVVN (shlN 32) d a b
/-- `SHL_B32`. -/
def execShlB32 (gd : Guard) (d a b : Nat) (s : State) : Result := laneCompute s gd (formV d [a, b]) (effShlB32 d a b)
/-- Shift by V(B) (R370). -/
def effShrB32 (d a b : Nat) : LaneFn := laneVVN (shrN 32) d a b
/-- `SHR_B32`. -/
def execShrB32 (gd : Guard) (d a b : Nat) (s : State) : Result := laneCompute s gd (formV d [a, b]) (effShrB32 d a b)
/-- Shift by V(B) (R370). -/
def effSraB32 (d a b : Nat) : LaneFn := laneVVN (sraN 32) d a b
/-- `SRA_B32`. -/
def execSraB32 (gd : Guard) (d a b : Nat) (s : State) : Result := laneCompute s gd (formV d [a, b]) (effSraB32 d a b)
/-- Shift by V(B) (R370). -/
def effRotB32 (d a b : Nat) : LaneFn := laneVVN (rotN 32) d a b
/-- `ROT_B32`. -/
def execRotB32 (gd : Guard) (d a b : Nat) (s : State) : Result := laneCompute s gd (formV d [a, b]) (effRotB32 d a b)
/-- Shift by V(B) (R370). -/
def effShlB64 (d a b : Nat) : LaneFn := laneWWV (shlN 64) d a b
/-- `SHL_B64`. -/
def execShlB64 (gd : Guard) (d a b : Nat) (s : State) : Result := laneCompute s gd ⟨[.w a, .v b], [.w d], true⟩ (effShlB64 d a b)
/-- Shift by V(B) (R370). -/
def effShrB64 (d a b : Nat) : LaneFn := laneWWV (shrN 64) d a b
/-- `SHR_B64`. -/
def execShrB64 (gd : Guard) (d a b : Nat) (s : State) : Result := laneCompute s gd ⟨[.w a, .v b], [.w d], true⟩ (effShrB64 d a b)
/-- Shift by V(B) (R370). -/
def effSraB64 (d a b : Nat) : LaneFn := laneWWV (sraN 64) d a b
/-- `SRA_B64`. -/
def execSraB64 (gd : Guard) (d a b : Nat) (s : State) : Result := laneCompute s gd ⟨[.w a, .v b], [.w d], true⟩ (effSraB64 d a b)
/-- Shift by V(B) (R370). -/
def effRotB64 (d a b : Nat) : LaneFn := laneWWV (rotN 64) d a b
/-- `ROT_B64`. -/
def execRotB64 (gd : Guard) (d a b : Nat) (s : State) : Result := laneCompute s gd ⟨[.w a, .v b], [.w d], true⟩ (effRotB64 d a b)
/-- Signed bit-field extract (R372). -/
def effBfeS32 (d a b : Nat) : LaneFn := laneVVV (bfe32 true) d a b
/-- `BFE_S32`. -/
def execBfeS32 (gd : Guard) (d a b : Nat) (s : State) : Result := laneCompute s gd (formV d [a, b]) (effBfeS32 d a b)
/-- Unsigned bit-field extract (R372). -/
def effBfeN32 (d a b : Nat) : LaneFn := laneVVV (bfe32 false) d a b
/-- `BFE_N32`. -/
def execBfeN32 (gd : Guard) (d a b : Nat) (s : State) : Result := laneCompute s gd (formV d [a, b]) (effBfeN32 d a b)
/-- Address arithmetic (R367). -/
def effLea (f d a b : Nat) : LaneFn := fun g l x => (dstW g x d (lea64 f (srcW g x a) (srcV g l x b)), noFlags)
/-- `LEA`. -/
def execLea (gd : Guard) (f d a b : Nat) (s : State) : Result := laneCompute s gd ⟨[.w a, .v b], [.w d], true⟩ (effLea f d a b)
/-- Integer compare (R375). -/
def effCmpS32 (c d a b : Nat) : LaneFn := laneCmpV (cmpS 32 c) d a b
/-- `CMP_S32`. -/
def execCmpS32 (gd : Guard) (c d a b : Nat) (s : State) : Result := laneCompute s gd ⟨[.v a, .v b], [], true⟩ (effCmpS32 c d a b)
/-- Integer compare (R375). -/
def effCmpN32 (c d a b : Nat) : LaneFn := laneCmpV (cmpN 32 c) d a b
/-- `CMP_N32`. -/
def execCmpN32 (gd : Guard) (c d a b : Nat) (s : State) : Result := laneCompute s gd ⟨[.v a, .v b], [], true⟩ (effCmpN32 c d a b)
/-- Integer compare (R375). -/
def effCmpS64 (c d a b : Nat) : LaneFn := laneCmpW (cmpS 64 c) d a b
/-- `CMP_S64`. -/
def execCmpS64 (gd : Guard) (c d a b : Nat) (s : State) : Result := laneCompute s gd ⟨[.w a, .w b], [], true⟩ (effCmpS64 c d a b)
/-- Integer compare (R375). -/
def effCmpN64 (c d a b : Nat) : LaneFn := laneCmpW (cmpN 64 c) d a b
/-- `CMP_N64`. -/
def execCmpN64 (gd : Guard) (c d a b : Nat) (s : State) : Result := laneCompute s gd ⟨[.w a, .w b], [], true⟩ (effCmpN64 c d a b)
/-- The constant form (R371). -/
def effAddB32Imm (d a imm : Nat) : LaneFn := laneVVI (fun x => x + immS imm) d a
/-- `ADD_B32_IMM`. -/
def execAddB32Imm (gd : Guard) (d a imm : Nat) (s : State) : Result := laneCompute s gd (formV d [a]) (effAddB32Imm d a imm)
/-- The constant form (R371). -/
def effAndB32Imm (d a imm : Nat) : LaneFn := laneVVI (fun x => x &&& immN imm) d a
/-- `AND_B32_IMM`. -/
def execAndB32Imm (gd : Guard) (d a imm : Nat) (s : State) : Result := laneCompute s gd (formV d [a]) (effAndB32Imm d a imm)
/-- The constant form (R371). -/
def effOrB32Imm (d a imm : Nat) : LaneFn := laneVVI (fun x => x ||| immN imm) d a
/-- `OR_B32_IMM`. -/
def execOrB32Imm (gd : Guard) (d a imm : Nat) (s : State) : Result := laneCompute s gd (formV d [a]) (effOrB32Imm d a imm)
/-- The constant form (R371). -/
def effXorB32Imm (d a imm : Nat) : LaneFn := laneVVI (fun x => x ^^^ immN imm) d a
/-- `XOR_B32_IMM`. -/
def execXorB32Imm (gd : Guard) (d a imm : Nat) (s : State) : Result := laneCompute s gd (formV d [a]) (effXorB32Imm d a imm)
/-- The constant form (R371). -/
def effShlB32Imm (d a imm : Nat) : LaneFn := laneVVI (fun x => shlN 32 x imm) d a
/-- `SHL_B32_IMM`. -/
def execShlB32Imm (gd : Guard) (d a imm : Nat) (s : State) : Result := laneCompute s gd (formV d [a]) (effShlB32Imm d a imm)
/-- The constant form (R371). -/
def effShrB32Imm (d a imm : Nat) : LaneFn := laneVVI (fun x => shrN 32 x imm) d a
/-- `SHR_B32_IMM`. -/
def execShrB32Imm (gd : Guard) (d a imm : Nat) (s : State) : Result := laneCompute s gd (formV d [a]) (effShrB32Imm d a imm)
/-- The constant form (R371). -/
def effSraB32Imm (d a imm : Nat) : LaneFn := laneVVI (fun x => sraN 32 x imm) d a
/-- `SRA_B32_IMM`. -/
def execSraB32Imm (gd : Guard) (d a imm : Nat) (s : State) : Result := laneCompute s gd (formV d [a]) (effSraB32Imm d a imm)
/-- (A × B + C) mod 2^32 (R373). -/
def effMadB32 (d a b c : Nat) : LaneFn := fun g l x => (dstV g x d (srcV g l x a * srcV g l x b + srcV g l x c), noFlags)
/-- `MAD_B32`. -/
def execMadB32 (gd : Guard) (d a b c : Nat) (s : State) : Result := laneCompute s gd (formV d [a, b, c]) (effMadB32 d a b c)
/-- (A × B + C) mod 2^64 (R373). -/
def effMadB64 (d a b c : Nat) : LaneFn := fun g _ x => (dstW g x d (srcW g x a * srcW g x b + srcW g x c), noFlags)
/-- `MAD_B64`. -/
def execMadB64 (gd : Guard) (d a b c : Nat) (s : State) : Result := laneCompute s gd (formW d [a, b, c]) (effMadB64 d a b c)
/-- Bit-field insert (R372). -/
def effBfiB32 (d a b c : Nat) : LaneFn := fun g l x => (dstV g x d (bfi32 (srcV g l x a) (srcV g l x b) (srcV g l x c)), noFlags)
/-- `BFI_B32`. -/
def execBfiB32 (gd : Guard) (d a b c : Nat) (s : State) : Result := laneCompute s gd (formV d [a, b, c]) (effBfiB32 d a b c)
/-- Select by a predicate, negated when AUX [3] is 1 (R374). -/
def effSelB32 (d a b p : Nat) : LaneFn := fun g l x => (dstV g x d (if xor (decide (8 ≤ p)) (predP x (p % 8)) then srcV g l x a else srcV g l x b), noFlags)
/-- `SEL_B32`. -/
def execSelB32 (gd : Guard) (d a b p : Nat) (s : State) : Result := laneCompute s gd (formV d [a, b]) (effSelB32 d a b p)

end Sys2Proof.Machine
end

