-- ==== Sys2Proof/Machine/MemAcc.lean ====
section
/-!
DEFINITION. Accesses on their way: the store buffers (R205, R206), Hinge messages with their counts and stamps (R36 to R38), what releases
and acquires wait for (R212, R213), and the delivery of results (R215, R216, R478).
-/
namespace Sys2Proof.Machine

/-! ## Meters -/

/-- Charges `n` units to an activity (R140, R143); a budget of 0 leaves it unmetered. -/
def charge (s : State) (p cls n : Nat) : State :=
  let b := (s.part p).setup.budget.getD cls 0
  if b = 0 then s
  else s.updPart p fun q => { q with sch := { q.sch with meters := q.sch.meters.modify cls fun m =>
    ⟨m.used + n, m.held || decide (b ≤ m.used + n)⟩ } }

/-- Whether an activity is held (R142). -/
def meterHeld (s : State) (p cls : Nat) : Bool := ((s.part p).sch.meters.getD cls ⟨0, false⟩).held

/-! ## Places -/

/-- The line of a place (R36): 128 bytes. -/
def Place.lineOf : Place → Place
  | .phys a => .phys (a / 128)
  | .sp c o => .sp c (o / 128)
  | .chip d o => .chip d (o / 128)
  | .slice c t l o => .slice c t l (o / 128)
  | .remote a => .remote (a / 128)

/-- Where an access of a die goes: to its own die, across the Hinge, or out of the module. -/
inductive Reach
  | here | across | outside
  deriving DecidableEq, Repr

/-- Where a place stands as seen from a die. -/
def Place.reach (p : Place) (die : Nat) : Reach :=
  match p with
  | .remote _ => .outside
  | p => if p.die = die then .here else .across

/-- Where an access of a die goes: one to another module crosses the Hinge first where the die's own ports are all down (R46). -/
def Links.reach (k : Links) (die : Nat) (p : Place) : Reach :=
  match p with
  | .remote _ => if portsAcross k die then .across else .outside
  | p => p.reach die

/-- Whether the traffic of a place is held for a partition (R142): Hinge bytes, or scale-up bytes. -/
def placeHeld (s : State) (part die : Nat) (p : Place) : Bool :=
  (match s.links.reach die p with
   | .across => meterHeld s part 4
   | _ => false) || (match p with
   | .remote _ => meterHeld s part 5
   | _ => false)

/-- Whether two spans of places share a line (R36). -/
def ReadPart.meets (p q : ReadPart) : Bool :=
  let near (a b : Nat) : Bool := decide (a / 128 ≤ (b + q.len - 1) / 128) && decide (b / 128 ≤ (a + p.len - 1) / 128)
  match p.place, q.place with
  | .phys a, .phys b => near a b
  | .sp c a, .sp d b => c == d && near a b
  | .chip c a, .chip d b => c == d && near a b
  | .slice c t l a, .slice d u m b => c == d && t == u && l == m && near a b
  | .remote a, .remote b => near a b
  | _, _ => false

/-- Whether a place is a line of the host's memory (R71). (in part DESIGN CHOICE, log entry 72) -/
def isHost (s : State) : Place → Bool
  | .phys a => decide (regionOf s.links a = .host)
  | _ => false

/-! ## Order dependence -/

/-- The grid and team linear index of a group in deterministic mode, for R148. -/
def detmWriter (s : State) (core slot : Nat) : Option (Grid × Nat) :=
  match s.group? core slot with
  | none => none
  | some g => match s.gridOf g with
    | some gr => if gr.rcd.detm then some (gr, linearOf s g) else none
    | none => none

/-- Notes a write to a line of module memory by a team of a grid in deterministic mode, and reports the second distinct writer of an
interval (R148). -/
def noteLine (s : State) (gr : Grid) (team line : Nat) : State :=
  match s.lines.find? fun r => r.grid == gr.id && r.line == line with
  | none => { s with lines := s.lines ++ [⟨gr.id, line, team, [team], 1⟩] }
  | some r =>
    if r.writers.contains team then s
    else
      let s := { s with lines := s.lines.map fun q => if q.grid == gr.id && q.line == line then
          { q with writers := q.writers ++ [team], count := min 3 (q.count + 1) } else q }
      if r.count = 1 then
        putReport s gr.part (bytesOfNum 8 s.time.now ++ bytesOfNum 8 (128 * line) ++ bytesOfNum 8 gr.handle ++ bytesOfNum 4 r.first ++
          bytesOfNum 4 team)
      else s

/-- Notes the lines of a write that is performed for a group (R148). -/
def noteWrite (s : State) (core slot : Nat) (p : Place) (n : Nat) : State :=
  match p, detmWriter s core slot with
  | .phys a, some (gr, t) => (List.range ((a + n - 1) / 128 - a / 128 + 1)).foldl (fun s k => noteLine s gr t (a / 128 + k)) s
  | _, _ => s

/-- A write of a group performed at its place: the bytes, and R148. -/
def performFor (s : State) (core slot : Nat) (p : Place) (bs : List Byte) : State :=
  noteWrite (performWrite s p bs) core slot p bs.length

/-! ## Flights -/

/-- Replaces a flight. -/
def setFlight (s : State) (f : Flight) : State :=
  { s with ms := { s.ms with flights := s.ms.flights.map fun x => if x.id == f.id then f else x } }
/-- Adds a flight. -/
def addFlight (s : State) (f : Flight) : State := { s with ms := { s.ms with flights := s.ms.flights ++ [f] } }
/-- Removes a flight. -/
def dropFlight (s : State) (id : Nat) : State :=
  { s with ms := { s.ms with flights := s.ms.flights.filter fun x => x.id != id } }
/-- A flight by its identifier. -/
def State.flight? (s : State) (id : Nat) : Option Flight := s.ms.flights.find? fun f => f.id == id

/-- A flight of some lanes of a group, before its kind and parts are set. -/
def laneFlight (s : State) (g : Group) (ls : List Nat) (path scope : Nat) (c : Counter) (addr : Nat) : Flight :=
  { id := s.fresh, kind := .write, stage := .performed, part := s.partOf g, die := dieOfCore g.core, core := g.core, slot := g.slot,
    lanes := ls, path := path, scope := scope, acquire := false, release := false, counter := c, addr := addr, reads := [], data := [],
    seqNo := 0, stamp := none, tag := 0, pc := s.issue.pc, viaOther := false, reply := none, engine := none }

/-- Puts a flight under a fresh identifier. -/
def launchFlight (s : State) (f : Flight) : State := { addFlight s { f with id := s.fresh } with fresh := s.fresh + 1 }

/-- The number in the parts of a read, first part lowest. -/
def partsValue : List ReadPart → Nat
  | [] => 0
  | p :: rest => p.got.getD 0 + 256 ^ p.len * partsValue rest

/-- Bytes in the parts. -/
def partsLen (ps : List ReadPart) : Nat := (ps.map ReadPart.len).sum

/-- Reads the parts that a test selects and that have no data yet. -/
def fillParts (s : State) (sel : Place → Bool) (ps : List ReadPart) : List ReadPart :=
  ps.map fun p =>
    if p.got.isNone && sel p.place then
      let (v, bad) := readPlace s p.place p.len
      { p with got := some v, poison := bad }
    else p

/-- Gives data from outside to the parts that have none, in order. -/
def feedParts (ps : List ReadPart) (data : Nat) : List ReadPart :=
  match ps with
  | [] => []
  | p :: rest =>
    if p.got.isNone then { p with got := some (data % 256 ^ p.len) } :: feedParts rest (data / 256 ^ p.len)
    else p :: feedParts rest data

/-! ## The Hinge -/

/-- Index of a partition and die in the counts of R38. -/
def countAt (part die : Nat) : Nat := 2 * part + die

/-- KIND of the message in which a flight travels (R37). -/
def Flight.hingeKind (f : Flight) : Option Nat :=
  match f.stage, f.kind with
  | .request, .read _ => some 0
  | .answer, .read _ => some 1
  | .request, .write => some 2
  | .answer, .write => some 3
  | .request, .atomic _ _ _ _ _ => some 4
  | .request, .tdec _ => some 4
  | .answer, .atomic _ _ _ _ _ => some 5
  | .answer, .tdec _ => some 5
  | .request, .halo _ => some 6
  | .request, .time => some 7
  | .request, .pixel _ => some (if f.release then 2 else 0)
  | _, _ => none

/-- Header words of a flight's message (R37): two, one for a halo tag, and one for a stamp. -/
def Flight.headerWords (f : Flight) (stamped : Bool) : Nat :=
  2 + (match f.kind with
    | .halo _ => 1
    | _ => 0) + (if stamped then 1 else 0)

/-- 256-byte slots of a message (R39, R37): its header and its payload. -/
def hingeSlots (headerWords payload : Nat) : Nat := (8 * headerWords + (payload + 15) / 16 * 16 + 255) / 256

/-- The die that a flight's message travels from, while it travels. -/
def Flight.sender (f : Flight) : Option Nat :=
  match f.stage with
  | .request => some f.die
  | .answer => some (1 - f.die)
  | _ => none

/-- The Hinge module that carries a flight's message (R36): by a hash over the up modules, of the first line that it names. (in part DESIGN CHOICE, log entry 19) -/
def carrier (s : State) (f : Flight) (from_ : Nat) : Nat :=
  let ups := (List.range 40).filter fun n => ((s.links.hinge.getD n ⟨3, 0, 0⟩).up)
  let line := match f.reads with
    | p :: _ => p.place.key / 128
    | [] => f.addr / 128
  ups.getD (Config.hingeHash from_ line ups.length % ups.length) 0

/-- A transaction tag that no outstanding request of a sender has on a module (R37). (in part DESIGN CHOICE, log entry 65) -/
def freeTag (s : State) (f : Flight) (from_ : Nat) : Nat :=
  let m := carrier s f from_
  let used := s.ms.flights.filterMap fun x => if x.sender == some from_ && carrier s x from_ == m then some x.tag else none
  ((List.range 1024).find? fun n => !used.contains n).getD 0

/-- Sends a message of a flight from a die (R38): it takes the next count, a stamp if asked, and its slots are charged (R140). A request takes
a tag, and its answer keeps it (R37). -/
def sendHinge (s : State) (f : Flight) (from_ : Nat) (stamped : Bool) (payload : Nat) : State × Flight :=
  let n := s.ms.sent.getD (countAt f.part from_) 0
  let m := s.ms.applied.getD (countAt f.part from_) 0
  let stamp := if stamped then some (if from_ = 0 then (n, m) else (m, n)) else none
  let tag := if f.stage = .request then freeTag s f from_ else f.tag
  let s := { s with ms := { s.ms with sent := s.ms.sent.set (countAt f.part from_) ((n + 1) % 4294967296) } }
  (charge s f.part 4 (hingeSlots (f.headerWords stamped) payload * 256), { f with seqNo := n, stamp := stamp, tag := tag })

/-- Header word 0 of a flight's message (R37). (in part DEDUCED, log entry 65) -/
def Flight.word0 (f : Flight) : Nat :=
  let n := match f.kind with
    | .write | .halo _ => f.data.length
    | _ => (f.reads.map ReadPart.len).sum
  let asks := f.hingeKind == some 0 || f.hingeKind == some 4
  f.hingeKind.getD 0 + 16 * f.path + 128 * (if f.stamp.isSome then 1 else 0) + 256 * f.scope + 4096 * f.part + 65536 * ((n + 15) / 16 - 1) +
    4194304 * f.tag + (if f.acquire && asks then 4294967296 else 0)

/-- The header words of a flight's message (R37). -/
def Flight.header (f : Flight) : List Nat :=
  [f.word0, match f.reads with
    | p :: _ => p.place.key % 2 ^ 52
    | [] => f.addr % 2 ^ 52] ++
    (match f.kind with
     | .halo tag => [tag]
     | _ => []) ++
    (match f.stamp with
     | some v => [v.1 + 4294967296 * v.2]
     | none => [])

/-- Whether a receiver applies a message with these header words (R37): KIND is 0 to 7, SCOPE 0 to 9, A stands on requests alone, and no
reserved field is set, in a halo tag (R42) either. -/
def headerOk (ws : List Nat) : Bool :=
  let w := ws.getD 0 0
  let kind := w % 16
  decide (kind < 8) && decide (w / 256 % 16 < 10) && decide (w < 2 ^ 33) && (decide (w < 2 ^ 32) || kind == 0 || kind == 4) &&
    decide (ws.getD 1 0 < 2 ^ 52) && (kind != 6 || (decide (ws.getD 2 0 / 2 ^ 52 % 4 < 2) && decide (ws.getD 2 0 < 2 ^ 54)))

/-- Whether count `a` comes before count `b` modulo 2^32 (R38). -/
def countBefore (a b : Nat) : Bool :=
  let d := (b + 4294967296 - a) % 4294967296
  decide (0 < d) && decide (d < 2147483648)

/-- The entry of a stamp for the sending die (R38). -/
def stampFor (f : Flight) (from_ : Nat) : Option Nat := f.stamp.map fun v => if from_ = 0 then v.1 else v.2

/-- Whether a message may be applied now (R34, R36, R38): a module is up, every message that its stamp counts is applied, and so is every
earlier message for one of its lines. -/
def mayApply (s : State) (f : Flight) : Bool :=
  match f.sender with
  | none => false
  | some d => hingeUp s.links && !s.ms.flights.any fun x =>
      x.id != f.id && x.part == f.part && x.sender == some d &&
        ((match stampFor f d with
          | some v => countBefore x.seqNo v
          | none => false) ||
         (countBefore x.seqNo f.seqNo && x.reads.any fun p => f.reads.any p.meets))

/-- Counts a message from a die as applied by the other (R38). -/
def countApplied (s : State) (part from_ : Nat) : State :=
  let i := countAt part (1 - from_)
  { s with ms := { s.ms with applied := s.ms.applied.set i ((s.ms.applied.getD i 0 + 1) % 4294967296) } }

/-! ## Requests to other modules -/

/-- The die whose ports carry a die's requests to other modules (R46). -/
def portDie (k : Links) (die : Nat) : Nat := if portsAcross k die then 1 - die else die

/-- The port that a request leaves on (R45, R46): by a hash over the up ports of its die, or of the other die when all are down. (in part DESIGN CHOICE, log entry 19) -/
def portFor (k : Links) (die a : Nat) : Nat :=
  let ps := upPorts k (portDie k die)
  ps.getD (Config.portHash die (a / 128) ps.length % ps.length) 0

/-- Sends a request of a flight to another module, and charges its slots (R140 class 5). -/
def sendOutside (s : State) (f : Flight) (kind : DomainKind) (a len data : Nat) : State :=
  charge (s.send (.request f.id (portFor s.links f.die a) kind a len data)) f.part 5 (hingeSlots 2 len * 256)

/-! ## Reads -/

/-- The byte of a place in a buffer entry. -/
def BufEntry.byteAt (e : BufEntry) (p : Place) : Option Byte :=
  match e.place, p with
  | .phys a, .phys x => if a ≤ x then e.data[x - a]? else none
  | .remote a, .remote x => if a ≤ x then e.data[x - a]? else none
  | _, _ => none

/-- The cores of a group's cluster (R202). -/
def clusterCores (s : State) (g : Group) : List Nat :=
  match s.teamOf g with
  | some t => ((g.core :: (s.clusterTeams t).map Team.core)).dedup
  | none => [g.core]

/-- The byte of a place in the buffers that a read searches (R206): the newest of its own core, then at scope `cluster` the newest of the
other cores of the cluster. -/
def bufferByte (s : State) (g : Group) (scope : Nat) (p : Place) : Option Byte :=
  let newest := s.ms.sb.reverse
  match newest.findSome? (fun e => if e.core == g.core then e.byteAt p else none) with
  | some b => some b
  | none =>
    if scope = 5 then newest.findSome? fun e => if e.core != g.core && (clusterCores s g).contains e.core then e.byteAt p else none
    else none

/-- The parts of a read: one, or one for each byte where a buffer holds some. -/
def readParts (s : State) (g : Group) (scope : Nat) (p : Place) (n : Nat) : List ReadPart :=
  let hits := (List.range n).map fun k => bufferByte s g scope (p.plus k)
  if hits.all Option.isNone then [⟨p, n, none, false⟩]
  else hits.mapIdx fun k h => ⟨p.plus k, 1, h.map BitVec.toNat, false⟩

/-- The next stage of a read whose parts on some die are read (R37, R45, R46): across the Hinge, out of the module, or done. -/
def readStage (k : Links) (die : Nat) (ps : List ReadPart) : Stage :=
  if (ps.any fun p => p.got.isNone && decide (k.reach die p.place = .across)) then .request
  else if (ps.any fun p => p.got.isNone) then .outside
  else .performed

/-- Asks other modules for the parts of a read that stand there and have no data. -/
def sendReads (s : State) (f : Flight) : State :=
  f.reads.foldl (fun s p => match p.place with
    | .remote a => if p.got.isNone then sendOutside s f .read a p.len 0 else s
    | _ => s) s

/-- Starts a read: its parts on its own die are read at once; a request crosses the Hinge for the others, and requests leave the module. -/
def startRead (s : State) (f : Flight) (dest : Dest) (ps : List ReadPart) : State :=
  let ps := fillParts s (fun p => decide (p.reach f.die = .here)) ps
  let f := { f with id := s.fresh, kind := .read dest, reads := ps, stage := readStage s.links f.die ps, viaOther := portsAcross s.links f.die }
  let (s, f) := if f.stage = .request then sendHinge s f f.die false 0 else (s, f)
  let s := { addFlight s f with fresh := s.fresh + 1 }
  if f.viaOther then s else sendReads s f

/-! ## Writes -/

/-- The bytes of the parts of a write, in order. -/
def splitData : List ReadPart → List Byte → List (ReadPart × List Byte)
  | [], _ => []
  | p :: rest, bs => (p, bs.take p.len) :: splitData rest (bs.drop p.len)

/-- Joins parts and their bytes again. -/
def joinData (l : List (ReadPart × List Byte)) : List ReadPart × List Byte := (l.map Prod.fst, l.flatMap Prod.snd)

/-- Performs one part of a write; a host line is written in the module's cache and sent to the host (R71). -/
def performPart (s : State) (f : Flight) (p : Place) (bs : List Byte) : State :=
  let s := performFor s f.core f.slot p bs
  match p with
  | .phys a => if isHost s p then s.send (.hostWrite (a - hostBase) bs) else s
  | _ => s

/-- Performs the writes of the parts that a test selects, and keeps the others. -/
def performParts (s : State) (f : Flight) (sel : Place → Bool) : State × Flight :=
  let l := splitData f.reads f.data
  let s := l.foldl (fun s x => if sel x.1.place then performPart s f x.1.place x.2 else s) s
  let (ps, bs) := joinData (l.filter fun x => !sel x.1.place)
  (s, { f with reads := ps, data := bs })

/-- Sends what leaves the module of a write to another module. -/
def sendWrites (s : State) (f : Flight) : State :=
  (splitData f.reads f.data).foldl (fun s x => match x.1.place with
    | .remote a => sendOutside s f .write a x.1.len (numOfBytes x.2)
    | _ => s) s

/-- Starts a write, under the identifier it has, that goes to its homes: parts on its own die are performed at once, a message carries those
of the other die, and requests leave the module. A host line is written in the module's cache and sent to the host, which acknowledges it
(R71, R215). -/
def sendWrite (s : State) (f : Flight) (stamped : Bool) : State :=
  let f := { f with kind := .write, viaOther := portsAcross s.links f.die }
  let host := f.reads.any fun p => isHost s p.place && decide (p.place.reach f.die = .here)
  let (s, f) := performParts s f fun p => decide (p.reach f.die = .here)
  let f := { f with stage :=
    if (f.reads.any fun p => decide (s.links.reach f.die p.place = .across)) then .request
    else if host || !f.reads.isEmpty then .outside else .performed }
  let (s, f) := if f.stage = .request then sendHinge s f f.die stamped (partsLen f.reads) else (s, f)
  let s := addFlight s f
  if f.viaOther then s else sendWrites s f

/-- Starts a write under a fresh identifier. -/
def startWrite (s : State) (f : Flight) (stamped : Bool) : State := sendWrite { s with fresh := s.fresh + 1 } { f with id := s.fresh } stamped

/-! ## Store buffers -/

/-- The flight of a buffer entry that drains: it keeps the entry's identifier. -/
def BufEntry.flight (e : BufEntry) : Flight :=
  { id := e.id, kind := .write, stage := .performed, part := e.part, die := dieOfCore e.core, core := e.core, slot := e.slot,
    lanes := if e.slot = noSlot then [] else e.lanes, path := 0, scope := e.scope, acquire := false, release := false, counter := .st,
    addr := e.addr, reads := [⟨e.place, e.data.length, none, false⟩], data := e.data, seqNo := 0, stamp := none, tag := 0, pc := 0, viaOther := false, reply := none, engine := none }

/-- Whether the traffic of an entry is held by its budget (R142). -/
def entryHeld (s : State) (e : BufEntry) : Bool := placeHeld s e.part (dieOfCore e.core) e.place

/-- Drains one entry to its home (R206). -/
def drainEntry (s : State) (e : BufEntry) : State :=
  sendWrite { s with ms := { s.ms with sb := s.ms.sb.filter fun x => x.id != e.id } } e.flight e.stamped

/-- Drains every entry of some cores whose traffic is not held, in the order in which they entered (R212). -/
def drainCores (s : State) (cores : List Nat) : State :=
  (s.ms.sb.filter fun e => cores.contains e.core).foldl (fun s e => if entryHeld s e then s else drainEntry s e) s

/-- Drains the entries of a core that share a byte with an access (R206, for atomics), in order, with the earlier entries of their
lines. (in part DEDUCED, log entry 30) -/
def drainOverlap (s : State) (core : Nat) (p : Place) : State :=
  (s.ms.sb.filter fun e => e.core == core && e.place.lineOf == p.lineOf).foldl drainEntry s

/-! ## Releases and acquires -/

/-- The scope at which an access acts (R203): a domain address acts at `domain` at least. -/
def effScope (a sc : Nat) : Nat := if 2 ^ 62 ≤ a && sc < 8 then 8 else sc

/-- Whether a write to another module or to the host, of either die, has not been acknowledged by its target: what a release at `domain` or
`system` waits for (R212). (in part DESIGN CHOICE, log entry 72) -/
def outsideWrites (s : State) (p : Nat) : Bool :=
  s.ms.flights.any fun f => f.part == p &&
    (decide (f.stage = .outside) || decide (f.stage = .beyond) ||
      (decide (f.stage = .request) && f.reads.any fun r => isHost s r.place || r.place.isRemote)) &&
    (match f.kind with
     | .read _ => false
     | _ => true)

/-- Whether an earlier `.ch` write of these lanes to the other die has not reached its SRAM (R205, R212). -/
def chipPending (s : State) (g : Group) (ls : List Nat) : Bool :=
  s.ms.flights.any fun f => f.core == g.core && f.slot == g.slot && f.lanes.any ls.contains && decide (f.stage = .request) &&
    (match f.kind with
     | .write => f.reads.any fun p => (match p.place with
       | .chip _ _ => true
       | _ => false)
     | _ => false)

/-- What a release by some lanes at a scope does before its own write (R212): the buffers of the cluster drain, and the writes that follow
carry stamps until the next `wait` or `xfence` (R38). (in part DEDUCED, log entry 30) -/
def releaseDrain (s : State) (g : Group) (scope : Nat) : State :=
  if scope < 6 then s
  else (drainCores s (clusterCores s g)).updGroup g.core g.slot fun h => { h with stampRun := true }

/-- Whether a release must still wait (R212), once its drains are done. (in part DEDUCED, log entry 30) -/
def releaseWaits (s : State) (g : Group) (ls : List Nat) (scope : Nat) : Bool :=
  chipPending s g ls ||
    (decide (6 ≤ scope) && s.ms.sb.any fun e => (clusterCores s g).contains e.core) ||
    (decide (8 ≤ scope) && outsideWrites s (s.partOf g))

/-- Whether an acquire of one of these lanes on a path has not been performed (R208): the accesses that follow it wait. (in part DEDUCED, log entry 30) -/
def acquirePending (s : State) (g : Group) (ls : List Nat) (path : Nat) : Bool :=
  (s.ms.flights.any fun f => f.acquire && f.path == path && f.core == g.core && f.slot == g.slot && f.lanes.any ls.contains &&
    decide (f.stage ≠ .performed)) ||
  (decide (path = 0) && s.render.pixels.any fun p => p.core == g.core && p.slot == g.slot && ls.contains p.lane && !p.write)

/-! ## Delivery -/

/-- Writes returned data to its destination (R398, R170): a destination above RSIZE is discarded. -/
def deliverLane (g : Group) (x : Lane) (d : Dest) (v : Nat) : Lane :=
  match d with
  | .word at_ n signed =>
    if at_ + 4 ≤ g.rsize then
      { x with regs := x.regs.writeN at_ 4 (if signed then wrapTo 32 (signedOf (8 * n) v) else v % 256 ^ n) } else x
  | .bytes at_ n => if at_ + n ≤ g.rsize then { x with regs := x.regs.writeN at_ n v } else x
  | .none => x
  | .g _ => x

/-- Delivers a performed read to its lanes and lowers their entry (R215). -/
def deliver (s : State) (f : Flight) (d : Dest) : State :=
  let v := partsValue f.reads
  let s := s.updGroup f.core f.slot fun g =>
    let g := match d with
      | .g k => setG g k (BitVec.ofNat 64 v)
      | _ => g
    { g with lanes := g.lanes.mapIdx fun l x => if f.lanes.contains l then deliverLane g x d v else x }
  dropFlight (countDown s f.core f.slot f.lanes f.counter) f.id

/-- The error of a poisoned access (R478). -/
def Flight.poisonErr (f : Flight) (acc : Nat) (tok : Option Nat) : LateErr :=
  ⟨5, acc + 4 * f.path, BitVec.ofNat 64 f.addr, tok, none⟩

/-- Whether a flight brings one result for a whole cohort. -/
def Flight.ofCohort (f : Flight) : Bool :=
  match f.kind with
  | .read (.g _) => true
  | _ => false

/-- Poisoned data (R478): the entry is lowered at once, no destination is written, and the lanes park at their next boundary with cause 5; the
cohort of a `gld` parks under one record. (in part DEDUCED, log entry 24) -/
def deliverPoison (s : State) (f : Flight) (acc : Nat) : State :=
  let s := dropFlight (countDown s f.core f.slot f.lanes f.counter) f.id
  if f.ofCohort then
    match s.group? f.core f.slot with
    | none => s
    | some g =>
      let ls := f.lanes.filter fun l => (g.lane l).live
      let e := f.poisonErr acc none
      let r := laneRecord s g ls 5 e.access 0 e.addr (g.lane (ls.headD 0)).pc
      if ls.isEmpty then s else raiseLate r.2 f.core f.slot ls (f.poisonErr acc (some r.1))
  else raiseLate s f.core f.slot f.lanes (f.poisonErr acc none)

/-- Whether a read holds poison. -/
def Flight.poisoned (f : Flight) : Bool := f.reads.any ReadPart.poison

/-! ## Checked lane accesses -/

/-- Checks some addresses of lanes in order (R394). -/
def checkAll (s : State) (g : Group) (sp n : Nat) (acc : Acc) (path : Nat) : List (Nat × Word64) → State × List (Nat × Word64 × Check)
  | [] => (s, [])
  | (l, a) :: rest =>
    let (s, c) := checkAddr s g l sp a n acc path
    let (s, cs) := checkAll s g sp n acc path rest
    (s, (l, a, c) :: cs)

/-- The lanes that pass every check, with their places and addresses. -/
def passed (cs : List (Nat × Word64 × Check)) : List (Nat × Place × Word64) :=
  cs.filterMap fun c => match c.2.2 with
    | .ok p => some (c.1, p, c.2.1)
    | _ => none

/-- The lanes that trap with a cause. -/
def trapped (cs : List (Nat × Word64 × Check)) (cause : Nat) : List (Nat × Word64) :=
  cs.filterMap fun c => match c.2.2 with
    | .trap k => if k = cause then some (c.1, c.2.1) else none
    | _ => none

/-- The lanes that park. -/
def parked (cs : List (Nat × Word64 × Check)) : List Faulting :=
  cs.filterMap fun c => match c.2.2 with
    | .park k lv va => some ⟨c.1, k, lv, va⟩
    | _ => none

/-- The lanes whose access reaches nothing (R139). -/
def stales (cs : List (Nat × Word64 × Check)) : List (Nat × Word64) :=
  cs.filterMap fun c => if c.2.2 = .stale then some (c.1, c.2.1) else none

/-- The lanes that fail their checks (R394, R395): causes 8 and 9 enter the handler, translation causes park, and an access whose target is
stale is dropped, with cause 7 at the next boundary (R139, R323). -/
def failLanes (s : State) (access : Nat) (cs : List (Nat × Word64 × Check)) : State :=
  let i := s.issue
  let bad := cs.filterMap fun c => match c.2.2 with
    | .ok _ | .stale => none
    | _ => some c.1
  let s := hold s bad
  let one (s : State) (cause : Nat) : State := match trapped cs cause with
    | [] => s
    | ts => trapEnter s i.core i.slot cause 0 (ts.map fun t => ⟨t.1, i.pc, t.2, 0⟩)
  (stales cs).foldl (fun s x => raiseLate s i.core i.slot [x.1] ⟨7, access, x.2, none, none⟩)
    (parkLanes (one (one s 9) 8) i.core i.slot access (parked cs))

/-- Whether the span of an access overlaps a recorded copy into its scratchpad (R183). -/
def overlapsRange (s : State) (p : Place) (n : Nat) : Bool :=
  s.ms.ranges.any fun r => match p with
    | .sp c o => r.core == some c && decide (o ≤ r.last) && decide (r.first < o + n)
    | .chip d o => r.core.isNone && r.die == d && decide (o ≤ r.last) && decide (r.first < o + n)
    | _ => false

/-- Whether an access's traffic is held by a budget (R142): nothing is sent for it. -/
def trafficHeld (s : State) (g : Group) (ps : List Place) : Bool := ps.any (placeHeld s (s.partOf g) (dieOfCore g.core))

end Sys2Proof.Machine
end

