-- ==== Sys2Proof/Machine/LaneMem.lean ====
section
/-!
DEFINITION. Lane memory instructions (R394 to R406): loads and stores, ordered pixel accesses, gathers and scatters, prefetches, atomics.
-/
namespace Sys2Proof.Machine

/-! ## What holds an access back -/

/-- Whether an instruction cannot issue now: a counter entry is full (R216), the slices are not in the store (R177), a recorded copy
overlaps (R183), an acquire of one of its lanes is still to be performed (R208), or a write to SRAM would overtake an earlier `.ch` write of
one of its lanes to the other die (R205). -/
def memBusy (s : State) (g : Group) (act : List Nat) (sp n path : Nat) (c : Counter) (addrs : List (Nat × Word64)) : Bool :=
  countFull g act c || (decide (sp = spaceLs) && !g.inStore && !act.isEmpty) ||
    addrs.any (fun x => match localPlace s g x.1 sp x.2.toNat with
      | .ok p => decide (sp < spaceGm) && overlapsRange s p n
      | _ => false) ||
    acquirePending s g act path || (decide (c = .st) && decide (sp < spaceGm) && chipPending s g act)

/-- The scope at which an instruction acts over all its addresses (R203). -/
def scopeOver (sc : Nat) (addrs : List (Nat × Word64)) : Nat := addrs.foldl (fun k x => effScope x.2.toNat k) sc

/-- Marks the interval of a group's team unrepeatable (R334). -/
def markInterval (s : State) (g : Group) : State := s.updTeam g.team fun t => { t with repeatable := false }

/-- Whether a write to a place makes the interval unrepeatable (R334). -/
def leavesModule (s : State) (p : Place) : Bool :=
  match p with
  | .remote _ => true
  | p => isHost s p

/-! ## Loads -/

/-- One lane's load (R398). -/
def loadOne (g : Group) (path sc : Nat) (acq : Bool) (n : Nat) (dest : Dest) (s : State) (x : Nat × Place × Word64) : State :=
  startRead s { laneFlight s g [x.1] path (effScope x.2.2.toNat sc) .ld x.2.2.toNat with acquire := acq } dest
    (readParts s g (effScope x.2.2.toNat sc) x.2.1 n)

/-- The address by which an access is known in records and for its scope: the virtual address, which for `.kc` starts from KCBASE (R174). -/
def spaceVa (s : State) (g : Group) (sp : Nat) (a : Word64) : Word64 :=
  if sp = spaceKc then BitVec.ofNat 64 ((recordOf s g).kcbase + a.toNat) else a

/-- The loads of the Active lanes (R394, R395, R398). -/
def loadLanes (s : State) (gd : Guard) (form : LaneForm) (sp n sc : Nat) (acq : Bool) (dest : Group → Dest)
    (addr : Group → Nat → Lane → Word64) : Result :=
  .next (laneIssue s gd form fun g act s' =>
    let addrs := act.map fun l => (l, addr g l (g.lane l))
    if memBusy s g act sp n 0 .ld addrs then block s' s.issue.lanes
    else
      let (s', cs) := checkAll s' g sp n .read 0 addrs
      let ok := passed cs
      if trafficHeld s' g (ok.map fun x => x.2.1) then block s' s.issue.lanes
      else
        let s' := countUp s' g.core g.slot (ok.map Prod.fst) .ld
        failLanes ((ok.map fun x => (x.1, x.2.1, spaceVa s g sp x.2.2)).foldl (loadOne g 0 sc acq n (dest g)) s') 0 cs)

/-- V(k) as the destination of a load of `n` bytes; code 60 discards (R398). -/
def destV (k n : Nat) (signed : Bool) (g : Group) : Dest := if k < 60 then .word (g.vAt k) n signed else .none
/-- W(k), or `n` bytes from W(k) on, as a destination. -/
def destW (k n : Nat) (g : Group) : Dest := if k < 30 then .bytes (g.vAt (2 * k)) n else .none

/-! ## Stores -/

/-- A lane's store to `.gm` enters the store buffer of its core (R206). -/
def bufferStore (s : State) (g : Group) (ls : List Nat) (p : Place) (sc : Nat) (stamped : Bool) (addr : Nat) (bs : List Byte) : State :=
  { s with
    ms := { s.ms with sb := s.ms.sb ++ [⟨s.fresh, g.core, g.slot, ls, s.partOf g, p, bs, sc, stamped, addr⟩] }
    fresh := s.fresh + 1 }

/-- Whether the writes of a group carry stamps now (R38). -/
def stampsNow (s : State) (g : Group) : Bool :=
  match s.group? g.core g.slot with
  | some h => h.stampRun
  | none => false

/-- One lane's store (R398): into the buffer for `.gm`, else to its SRAM. -/
def storeOne (g : Group) (sc : Nat) (rel : Bool) (data : Nat → List Byte) (s : State) (x : Nat × Place × Word64) : State :=
  let stamped := (rel && decide (6 ≤ sc)) || stampsNow s g
  let s := if leavesModule s x.2.1 then markInterval s g else s
  match x.2.1 with
  | .phys _ | .remote _ => bufferStore s g [x.1] x.2.1 (effScope x.2.2.toNat sc) stamped x.2.2.toNat (data x.1)
  | p => startWrite s { laneFlight s g [x.1] 0 sc .st x.2.2.toNat with
      reads := [⟨p, (data x.1).length, none, false⟩], data := data x.1 } stamped

/-- The stores of the Active lanes: data and addresses are read at issue (R395), and the highest lane wins a byte (R223). -/
def storeLanes (s : State) (gd : Guard) (form : LaneForm) (sp n sc : Nat) (rel : Bool) (data : Group → Nat → Lane → List Byte)
    (addr : Group → Nat → Lane → Word64) : Result :=
  .next (laneIssue s gd form fun g act s' =>
    let addrs := act.map fun l => (l, addr g l (g.lane l))
    let sc' := scopeOver sc addrs
    if memBusy s g act sp n 0 .st addrs then block s' s.issue.lanes
    else
      let s' := if rel && !act.isEmpty then releaseDrain s' g sc' else s'
      if rel && releaseWaits s' g act sc' then block s' s.issue.lanes
      else
        let (s', cs) := checkAll s' g sp n .write 0 addrs
        let ok := passed cs
        if (decide (sp ≠ spaceGm) && trafficHeld s' g (ok.map fun x => x.2.1)) then block s' s.issue.lanes
        else
          let s' := countUp s' g.core g.slot (ok.map Prod.fst) .st
          failLanes (ok.foldl (storeOne g sc rel fun l => data g l (g.lane l)) s') 1 cs)

/-- The low `n` bytes of V(k). -/
def bytesV (k n : Nat) (g : Group) (l : Nat) (x : Lane) : List Byte := bytesOfNum n (srcV g l x k).toNat
/-- The bytes of W(k). -/
def bytesW (k : Nat) (g : Group) (_l : Nat) (x : Lane) : List Byte := bytesOfNum 8 (srcW g x k).toNat
/-- The bytes of W(k), then W(k + 1); code 60 stores zeros (R398). -/
def bytesWW (k : Nat) (g : Group) (_l : Nat) (x : Lane) : List Byte :=
  bytesOfNum 8 (srcW g x k).toNat ++ bytesOfNum 8 (srcW g x (if k = 60 then 60 else k + 1)).toNat

/-! ## The short forms -/

/-- `LD_LS_B32` (R397). -/
def execLdLsB32 (gd : Guard) (d a swz off : Nat) (s : State) : Result :=
  loadLanes s gd ⟨[.w a], [.v d], true⟩ 0 4 0 false (destV d 4 false) fun g _ x => addrLM g x a off 4 swz
/-- `LD_LS_B64` (R397). -/
def execLdLsB64 (gd : Guard) (d a swz off : Nat) (s : State) : Result :=
  loadLanes s gd ⟨[.w a], [.w d], true⟩ 0 8 0 false (destW d 8) fun g _ x => addrLM g x a off 8 swz
/-- `LD_SP_B32` (R397). -/
def execLdSpB32 (gd : Guard) (d a swz off : Nat) (s : State) : Result :=
  loadLanes s gd ⟨[.w a], [.v d], true⟩ 1 4 3 false (destV d 4 false) fun g _ x => addrLM g x a off 4 swz
/-- `LD_SP_B64` (R397). -/
def execLdSpB64 (gd : Guard) (d a swz off : Nat) (s : State) : Result :=
  loadLanes s gd ⟨[.w a], [.w d], true⟩ 1 8 3 false (destW d 8) fun g _ x => addrLM g x a off 8 swz
/-- `LD_GM_B32` (R397). -/
def execLdGmB32 (gd : Guard) (d a swz off : Nat) (s : State) : Result :=
  loadLanes s gd ⟨[.w a], [.v d], true⟩ 4 4 7 false (destV d 4 false) fun g _ x => addrLM g x a off 4 swz
/-- `LD_GM_B64` (R397). -/
def execLdGmB64 (gd : Guard) (d a swz off : Nat) (s : State) : Result :=
  loadLanes s gd ⟨[.w a], [.w d], true⟩ 4 8 7 false (destW d 8) fun g _ x => addrLM g x a off 8 swz
/-- `ST_LS_B32` (R397). -/
def execStLsB32 (gd : Guard) (d a swz off : Nat) (s : State) : Result :=
  storeLanes s gd ⟨[.w a, .v d], [], true⟩ 0 4 0 false (bytesV d 4) fun g _ x => addrLM g x a off 4 swz
/-- `ST_LS_B64` (R397). -/
def execStLsB64 (gd : Guard) (d a swz off : Nat) (s : State) : Result :=
  storeLanes s gd ⟨[.w a, .w d], [], true⟩ 0 8 0 false (bytesW d) fun g _ x => addrLM g x a off 8 swz
/-- `ST_SP_B32` (R397). -/
def execStSpB32 (gd : Guard) (d a swz off : Nat) (s : State) : Result :=
  storeLanes s gd ⟨[.w a, .v d], [], true⟩ 1 4 3 false (bytesV d 4) fun g _ x => addrLM g x a off 4 swz
/-- `ST_SP_B64` (R397). -/
def execStSpB64 (gd : Guard) (d a swz off : Nat) (s : State) : Result :=
  storeLanes s gd ⟨[.w a, .w d], [], true⟩ 1 8 3 false (bytesW d) fun g _ x => addrLM g x a off 8 swz
/-- `ST_GM_B32` (R397). -/
def execStGmB32 (gd : Guard) (d a swz off : Nat) (s : State) : Result :=
  storeLanes s gd ⟨[.w a, .v d], [], true⟩ 4 4 7 false (bytesV d 4) fun g _ x => addrLM g x a off 4 swz
/-- `ST_GM_B64` (R397). -/
def execStGmB64 (gd : Guard) (d a swz off : Nat) (s : State) : Result :=
  storeLanes s gd ⟨[.w a, .w d], [], true⟩ 4 8 7 false (bytesW d) fun g _ x => addrLM g x a off 8 swz

/-! ## Ordered pixel accesses -/

/-- Where an ordered access falls: its pixel, when it lies wholly within one pixel of the target (R286, R287). -/
def pixelOf (q : PixelRegs) (a n : Nat) : Option Nat :=
  let b := 2 ^ q.bpp
  let total := q.tcols * q.trows * 256
  if q.trows = 0 || a < q.base then none
  else
    let k := (a - q.base) / b
    if k < total && (a - q.base) % b + n ≤ b then some k else none

/-- Sets a bit of `L2_PXSTAT` (R286). -/
def pixelError (s : State) (p bit : Nat) : State := s.updPart p fun q => { q with px := { q.px with stat := q.px.stat ||| 2 ^ bit } }

/-- The order words of the accesses that are ordered: translated like the access itself (DEDUCED, log entry 17). -/
def orderWords (s : State) (g : Group) (n : Nat) (acc : Acc) : List (Nat × Place × Word64) →
    State × List (Nat × Place × Word64 × Option (Nat × Place)) × List (Nat × Word64 × Check)
  | [] => (s, [], [])
  | (l, p, a) :: rest =>
    match pixelOf (s.part (s.partOf g)).px a.toNat n with
    | none =>
      let (s, ok, bad) := orderWords s g n acc rest
      (s, (l, p, a, none) :: ok, bad)
    | some k =>
      let w : Word64 := BitVec.ofNat 64 ((s.part (s.partOf g)).px.ord + 4 * k)
      let (s, c) := checkAddr s g l spaceGm w 4 acc 0
      let (s, ok, bad) := orderWords s g n acc rest
      match c with
      | .ok q => (s, (l, p, a, some (k, q)) :: ok, bad)
      | c => (s, ok, (l, w, c) :: bad)

/-- An ordered access leaves its core for the scoreboard of its order word (R287): the flight of its request crosses the Hinge to one of the
other die, a load's as an acquire and a store's as a release (R38). -/
def startPixel (s : State) (f : Flight) (p : PixelAccess) (stamped : Bool) : State :=
  if p.word.reach f.die = .across then
    let f := { f with
      id := s.fresh, kind := .pixel p, stage := .request, acquire := !p.write, release := p.write, reads := [⟨p.word, 4, none, false⟩],
      data := p.data }
    let (s, f) := sendHinge s f f.die stamped p.data.length
    { addFlight s f with fresh := s.fresh + 1 }
  else { s with render := { s.render with pixels := s.render.pixels ++ [p] } }

/-- A lane's ordered access (R287, R400). -/
def sendPixel (s : State) (g : Group) (l pixel : Nat) (word place : Place) (a : Nat) (order : Nat) (strict write : Bool) (n sc : Nat)
    (data : List Byte) (dest : Dest) : State :=
  let p : PixelAccess := ⟨s.fresh, g.core, g.slot, l, s.partOf g, pixel, order, strict, write, word, place, n, data, dest, sc, a, false, false⟩
  startPixel { s with fresh := s.fresh + 1 } (laneFlight s g [l] 0 sc (if write then .st else .ld) a) p
    ((write && decide (6 ≤ sc)) || stampsNow s g)

/-- Ordered loads (R400): those outside the target are performed unordered and set RANGEERR. -/
def orderedLoads (s : State) (gd : Guard) (form : LaneForm) (n sc b : Nat) (strict : Bool) (dest : Group → Dest)
    (addr : Group → Nat → Lane → Word64) : Result :=
  .next (laneIssue s gd form fun g act s' =>
    let addrs := act.map fun l => (l, addr g l (g.lane l))
    if memBusy s g act spaceGm n 0 .ld addrs then block s' s.issue.lanes
    else
      let (s', cs) := checkAll s' g spaceGm n .read 0 addrs
      let (s', ok, bad) := orderWords s' g n (if strict then .read else .write) (passed cs)
      if trafficHeld s' g (ok.map fun x => x.2.1) then block s' s.issue.lanes
      else
        let s' := countUp s' g.core g.slot (ok.map Prod.fst) .ld
        let s' := ok.foldl (fun s x => match x.2.2.2 with
          | none => loadOne g 0 sc false n (dest g) (pixelError s (s.partOf g) 2) (x.1, x.2.1, x.2.2.1)
          | some (k, w) => sendPixel s g x.1 k w x.2.1 x.2.2.1.toNat ((srcV g x.1 (g.lane x.1) b).toNat % 65536) strict false n sc []
              (dest g)) s'
        failLanes s' 0 (cs ++ bad))

/-- Ordered stores (R400): each is a release at its scope and makes the interval unrepeatable (R334). -/
def orderedStores (s : State) (gd : Guard) (form : LaneForm) (n sc b : Nat) (strict : Bool) (data : Group → Nat → Lane → List Byte)
    (addr : Group → Nat → Lane → Word64) : Result :=
  .next (laneIssue s gd form fun g act s' =>
    let addrs := act.map fun l => (l, addr g l (g.lane l))
    let sc' := scopeOver sc addrs
    if memBusy s g act spaceGm n 0 .st addrs then block s' s.issue.lanes
    else
      let s' := if act.isEmpty then s' else releaseDrain s' g sc'
      if releaseWaits s' g act sc' then block s' s.issue.lanes
      else
        let (s', cs) := checkAll s' g spaceGm n .write 0 addrs
        let (s', ok, bad) := orderWords s' g n .write (passed cs)
        if trafficHeld s' g (ok.map fun x => x.2.1) then block s' s.issue.lanes
        else
          let s' := countUp s' g.core g.slot (ok.map Prod.fst) .st
          let s' := ok.foldl (fun s x => match x.2.2.2 with
            | none => storeOne g sc false (fun l => data g l (g.lane l)) (pixelError s (s.partOf g) 2) (x.1, x.2.1, x.2.2.1)
            | some (k, w) => sendPixel (markInterval s g) g x.1 k w x.2.1 x.2.2.1.toNat ((srcV g x.1 (g.lane x.1) b).toNat % 65536) strict
                true n sc (data g x.1 (g.lane x.1)) .none) s'
          failLanes s' 1 (cs ++ bad))

/-! ## The long forms -/

/-- Size in bytes of a load by its FN (R356). -/
def loadSize (f : Nat) : Nat :=
  match f with
  | 0 | 1 => 1 | 2 | 3 => 2 | 4 => 4 | 5 => 8 | _ => 16
/-- Destination of a load by its FN (R398). -/
def loadDest (f d : Nat) (g : Group) : Dest :=
  match f with
  | 0 => destV d 1 false g
  | 1 => destV d 1 true g
  | 2 => destV d 2 false g
  | 3 => destV d 2 true g
  | 4 => destV d 4 false g
  | 5 => destW d 8 g
  | _ => destW d 16 g
/-- The registers of W(k) and W(k + 1). -/
def pairNamed (k : Nat) : List Named := if k = 60 then [] else [.w k, .w (k + 1)]
/-- The destination registers of a load by its FN. -/
def loadNamed (f d : Nat) : List Named := if f < 5 then [.v d] else if f = 5 then [.w d] else pairNamed d

/-- `LD_LX` (R398 to R400). -/
def execLdLx (gd : Guard) (f d a b : Nat) (m : MemX) (s : State) : Result :=
  let form : LaneForm := ⟨[.w a, .v b], loadNamed f d, true⟩
  let addr : Group → Nat → Lane → Word64 := fun g l x => addrLX g l x a b 16 m.imm m.swz (m.cls == 1)
  if m.cls = 0 then loadLanes s gd form m.space (loadSize f) m.scope (m.ord == 1) (loadDest f d) addr
  else orderedLoads s gd form (loadSize f) m.scope b (m.cls == 1) (loadDest f d) addr

/-- Size in bytes of a store by its FN (R356). -/
def storeSize (f : Nat) : Nat :=
  match f with
  | 0 => 1 | 1 => 2 | 2 => 4 | 3 => 8 | _ => 16
/-- Data of a store by its FN (R398). -/
def storeData (f d : Nat) : Group → Nat → Lane → List Byte :=
  match f with
  | 0 => bytesV d 1
  | 1 => bytesV d 2
  | 2 => bytesV d 4
  | 3 => bytesW d
  | _ => bytesWW d
/-- The data registers of a store by its FN. -/
def storeNamed (f d : Nat) : List Named := if f < 3 then [.v d] else if f = 3 then [.w d] else pairNamed d

/-- `ST_LX` (R398 to R400). -/
def execStLx (gd : Guard) (f d a b : Nat) (m : MemX) (s : State) : Result :=
  let form : LaneForm := ⟨[.w a, .v b] ++ storeNamed f d, [], true⟩
  let addr : Group → Nat → Lane → Word64 := fun g l x => addrLX g l x a b 16 m.imm m.swz (m.cls == 1)
  if m.cls = 0 then storeLanes s gd form m.space (storeSize f) m.scope (m.ord == 2) (storeData f d) addr
  else orderedStores s gd form (storeSize f) m.scope b (m.cls == 1) (storeData f d) addr

/-! ## Atomics -/

/-- Bytes of an atomic by its TYPE (R403). -/
def atomSize (typ : Nat) : Nat := if typ < 4 then 4 else if typ < 7 then 8 else 16

/-- The lesser of two values as a TYPE reads them, by `min` or `max` (R404). -/
def atomExtreme (isMin : Bool) (typ old x : Nat) : Nat :=
  let n := 8 * atomSize typ
  if typ = 3 then (if isMin then fMin fmtFP32 old x else fMax fmtFP32 old x)
  else
    let less := if typ = 1 || typ = 5 then decide (signedOf n old < signedOf n x) else decide (old < x)
    if isMin then (if less then old else x) else (if less then x else old)

/-- The value that an atomic writes (R404), or none for a `cas` that fails. -/
def atomValue (fn typ old x y : Nat) : Option Nat :=
  match fn with
  | 0 => some (if typ = 3 then (fAdd fmtFP32 old x).code else (old + x) % 256 ^ atomSize typ)
  | 1 => some (atomExtreme true typ old x)
  | 2 => some (atomExtreme false typ old x)
  | 3 => some (old &&& x)
  | 4 => some (old ||| x)
  | 5 => some (old ^^^ x)
  | 6 => some x
  | _ => if old = x then some y else none

/-- Whether an atomic counts as a write under R148: `f32` add, `exch` and `cas` do (R406). -/
def atomCounts (fn typ : Nat) : Bool := decide (fn = 7) || decide (fn = 6) || (decide (fn < 3) && decide (typ = 3))

/-- An atomic performed at its home as one event (R405): the old value, and whether it met poison, when it writes nothing (R478). -/
def performAtomic (s : State) (core slot : Nat) (p : Place) (fn typ x y : Nat) : State × Nat × Bool :=
  let n := atomSize typ
  let (old, bad) := readPlace s p n
  if bad then (s, old, true)
  else match atomValue fn typ old x y with
    | none => (s, old, false)
    | some v =>
      let bs := bytesOfNum n v
      let s := if atomCounts fn typ then performFor s core slot p bs else performWrite s p bs
      (if isHost s p then (match p with
        | .phys a => s.send (.hostWrite (a - hostBase) bs)
        | _ => s) else s, old, false)

/-- Starts an atomic of a flight at a place (R405): performed at once on its own die, across the Hinge, or in another module. -/
def startAtomic (s : State) (f : Flight) (fn typ x y : Nat) (dest : Dest) (p : Place) (stamped : Bool) : State :=
  let n := atomSize typ
  let f := { f with kind := .atomic fn typ x y dest, reads := [⟨p, n, none, false⟩], viaOther := p.isRemote }
  match s.links.reach f.die p with
  | .here =>
    let (s, old, bad) := performAtomic s f.core f.slot p fn typ x y
    launchFlight s { f with stage := .performed, reads := [⟨p, n, some old, bad⟩] }
  | .across =>
    let (s, f) := sendHinge s { f with id := s.fresh, stage := .request } f.die stamped (2 * n)
    { addFlight s f with fresh := s.fresh + 1 }
  | .outside =>
    let f := { f with id := s.fresh, stage := .outside }
    let s := { addFlight s f with fresh := s.fresh + 1 }
    match p with
    | .remote a => sendOutside s f (.atomic fn typ) a n (x + 256 ^ n * y)
    | _ => s

/-- One lane's atomic (R405): the core's buffered stores to its bytes drain first (R206). -/
def atomOne (g : Group) (sc ord fn typ : Nat) (dest : Dest) (opnd : Nat → Nat × Nat) (s : State) (x : Nat × Place × Word64) : State :=
  let s := drainOverlap s g.core x.2.1
  let stamped := (decide (2 ≤ ord) && decide (6 ≤ sc)) || stampsNow s g
  let f := { laneFlight s g [x.1] 0 (effScope x.2.2.toNat sc) .ld x.2.2.toNat with
    acquire := ord == 1 || ord == 3, release := decide (2 ≤ ord) }
  startAtomic s f fn typ (opnd x.1).1 (opnd x.1).2 dest x.2.1 stamped

/-- The atomics of the Active lanes, in ascending order (R405). -/
def atomLanes (s : State) (gd : Guard) (form : LaneForm) (fn : Nat) (m : AtomX) (dest : Group → Dest)
    (opnd : Group → Nat → Lane → Nat × Nat) (addr : Group → Nat → Lane → Word64) : Result :=
  .next (laneIssue s gd form fun g act s' =>
    let addrs := act.map fun l => (l, addr g l (g.lane l))
    let sc' := scopeOver m.scope addrs
    let rel := decide (2 ≤ m.ord)
    if memBusy s g act m.space (atomSize m.typ) 0 .ld addrs || (decide (m.space < spaceGm) && chipPending s g act) then block s' s.issue.lanes
    else
      let s' := if rel && !act.isEmpty then releaseDrain s' g sc' else s'
      if rel && releaseWaits s' g act sc' then block s' s.issue.lanes
      else
        let (s', cs) := checkAll s' g m.space (atomSize m.typ) .atomic 0 addrs
        let ok := passed cs
        if trafficHeld s' g (ok.map fun x => x.2.1) then block s' s.issue.lanes
        else
          let s' := countUp s' g.core g.slot (ok.map Prod.fst) .ld
          let s' := if ok.isEmpty then s' else markInterval s' g
          failLanes (ok.foldl (atomOne g m.scope m.ord fn m.typ (dest g) fun l => opnd g l (g.lane l)) s') 2 cs)

/-- The operand of an atomic, read from D (R404). -/
def atomOperand (typ d : Nat) (g : Group) (l : Nat) (x : Lane) : Nat × Nat :=
  if typ < 4 then ((srcV g l x d).toNat, 0)
  else if typ < 7 then ((srcW g x d).toNat, 0)
  else (numOfBytes (bytesWW d g l x), 0)
/-- The destination of an atomic by its type (R404). -/
def atomDest (typ d : Nat) (g : Group) : Dest := if typ < 4 then destV d 4 false g else if typ < 7 then destW d 8 g else destW d 16 g
/-- The registers of an atomic's D by its type. -/
def atomNamed (typ d : Nat) : List Named := if typ < 4 then [.v d] else if typ < 7 then [.w d] else pairNamed d
/-- What an atomic names. -/
def atomForm (d a b : Nat) (m : AtomX) : LaneForm := ⟨[.w a, .v b] ++ atomNamed m.typ d, atomNamed m.typ d, true⟩
/-- The address of an atomic (R403). -/
def atomAddr (a b : Nat) (m : AtomX) (g : Group) (l : Nat) (x : Lane) : Word64 := addrLX g l x a b 12 m.off m.swz false
/-- Expected and new value of a `cas` (R404). -/
def casOperand (typ d : Nat) (g : Group) (l : Nat) (x : Lane) : Nat × Nat :=
  if typ = 4 then ((srcW g x d).toNat, (srcW g x (d + 1)).toNat)
  else (numOfBytes (bytesWW d g l x), numOfBytes (bytesWW (d + 2) g l x))

/-- `ATOM_ADD` (R404). -/
def execAtomAdd (gd : Guard) (d a b : Nat) (m : AtomX) (s : State) : Result :=
  atomLanes s gd (atomForm d a b m) 0 m (atomDest m.typ d) (atomOperand m.typ d) (atomAddr a b m)
/-- `ATOM_MIN` (R404). -/
def execAtomMin (gd : Guard) (d a b : Nat) (m : AtomX) (s : State) : Result :=
  atomLanes s gd (atomForm d a b m) 1 m (atomDest m.typ d) (atomOperand m.typ d) (atomAddr a b m)
/-- `ATOM_MAX` (R404). -/
def execAtomMax (gd : Guard) (d a b : Nat) (m : AtomX) (s : State) : Result :=
  atomLanes s gd (atomForm d a b m) 2 m (atomDest m.typ d) (atomOperand m.typ d) (atomAddr a b m)
/-- `ATOM_AND` (R404). -/
def execAtomAnd (gd : Guard) (d a b : Nat) (m : AtomX) (s : State) : Result :=
  atomLanes s gd (atomForm d a b m) 3 m (atomDest m.typ d) (atomOperand m.typ d) (atomAddr a b m)
/-- `ATOM_OR` (R404). -/
def execAtomOr (gd : Guard) (d a b : Nat) (m : AtomX) (s : State) : Result :=
  atomLanes s gd (atomForm d a b m) 4 m (atomDest m.typ d) (atomOperand m.typ d) (atomAddr a b m)
/-- `ATOM_XOR` (R404). -/
def execAtomXor (gd : Guard) (d a b : Nat) (m : AtomX) (s : State) : Result :=
  atomLanes s gd (atomForm d a b m) 5 m (atomDest m.typ d) (atomOperand m.typ d) (atomAddr a b m)
/-- `ATOM_EXCH` (R404). -/
def execAtomExch (gd : Guard) (d a b : Nat) (m : AtomX) (s : State) : Result :=
  atomLanes s gd (atomForm d a b m) 6 m (atomDest m.typ d) (atomOperand m.typ d) (atomAddr a b m)
/-- `CAS` (R404). -/
def execCas (gd : Guard) (d a b : Nat) (m : AtomX) (s : State) : Result :=
  let more : List Named := if m.typ = 4 then [.w (d + 1)] else [.w (d + 2), .w (d + 3)]
  atomLanes s gd ⟨[.w a, .v b] ++ atomNamed m.typ d ++ more, [], true⟩ 7 m (atomDest m.typ d) (casOperand m.typ d) (atomAddr a b m)

/-! ## Gathers, scatters and prefetches -/

/-- The address of element `k` (R401), or none for an absent element. -/
def gatherAddr (d a b : Nat) (m : MemX) (g : Group) (l : Nat) (x : Lane) (k : Nat) : Option Word64 :=
  let i := wordAt (readT g x (d + 1)) k
  if i = 0x80000000 then none
  else
    let ea := addrLX g l x a b 16 m.imm 0 false
    some (BitVec.ofNat 64 (swizzle m.swz (ea + 4 * sext64 32 i).toNat))

/-- The 16 elements of a lane after their checks: present or absent. -/
abbrev Elems := List (Option (Word64 × Check))

/-- Checks the elements of a lane (R401). -/
def checkElems (s : State) (g : Group) (l sp : Nat) (acc : Acc) : List (Option Word64) → State × Elems
  | [] => (s, [])
  | none :: rest =>
    let (s, es) := checkElems s g l sp acc rest
    (s, none :: es)
  | some a :: rest =>
    let (s, c) := checkAddr s g l sp a 4 acc 3
    let (s, es) := checkElems s g l sp acc rest
    (s, some (a, c) :: es)

/-- Checks the elements of every lane. -/
def checkGather (s : State) (g : Group) (sp : Nat) (acc : Acc) : List (Nat × List (Option Word64)) → State × List (Nat × Elems)
  | [] => (s, [])
  | (l, as_) :: rest =>
    let (s, es) := checkElems s g l sp acc as_
    let (s, r) := checkGather s g sp acc rest
    (s, (l, es) :: r)

/-- The outcome of a lane's elements as failing checks (R401): the cause 8 or 9 of its lowest element that has one, else its translation
faults, else its first stale target; nothing when every present element passes. -/
def elemFails (x : Nat × Elems) : List (Nat × Word64 × Check) :=
  let fails := x.2.filterMap fun e => match e with
    | some (a, .trap c) => some (a, Check.trap c)
    | some (a, .park c lv va) => some (a, Check.park c lv va)
    | some (a, .stale) => some (a, Check.stale)
    | _ => none
  match fails.find? (fun f => match f.2 with
    | .trap _ => true
    | _ => false) with
  | some f => [(x.1, f.1, f.2)]
  | none =>
    let parks := fails.filter fun f => f.2 ≠ .stale
    (if parks.isEmpty then fails.take 1 else parks).map fun f => (x.1, f.1, f.2)

/-- The places of a lane's elements when all pass; none for an absent element. -/
def elemPlaces (es : Elems) : List (Option Place) :=
  es.map fun e => match e with
    | some (_, .ok p) => some p
    | _ => none

/-- The shared part of `ldg` and `stg` (R401). -/
def gatherLanes (s : State) (gd : Guard) (form : LaneForm) (d a b : Nat) (m : MemX) (acc : Acc) (c : Counter)
    (go : Group → State → Nat → Nat → List (Option Place) → State) : Result :=
  .next (laneIssue s gd form fun g act s' =>
    let per := act.map fun l => (l, (List.range 16).map (gatherAddr d a b m g l (g.lane l)))
    let flat := per.flatMap fun x => x.2.filterMap fun o => o.map fun w => (x.1, w)
    if memBusy s g act m.space 4 3 c flat then block s' s.issue.lanes
    else
      let (s', es) := checkGather s' g m.space acc per
      let fails := es.flatMap elemFails
      let ok := es.filter fun x => (elemFails x).isEmpty
      if trafficHeld s' g (ok.flatMap fun x => (elemPlaces x.2).filterMap id) then block s' s.issue.lanes
      else
        let s' := countUp s' g.core g.slot (ok.map Prod.fst) c
        let s' := ok.foldl (fun s x => go g s x.1 (addrLX g x.1 (g.lane x.1) a b 16 m.imm 0 false).toNat (elemPlaces x.2)) s'
        failLanes s' (acc.code + 12) fails)

/-- `LDG` (R401): every element is read at its home, and absent elements give 0. -/
def execLdg (gd : Guard) (d a b : Nat) (m : MemX) (s : State) : Result :=
  gatherLanes s gd ⟨[.w a, .v b, .t (d + 1)], [.t d], true⟩ d a b m .read .ld fun g s l ea ps =>
    startRead s (laneFlight s g [l] 3 m.scope .ld ea) (.bytes (g.tAt d) 64)
      (ps.map fun p => match p with
        | some q => ⟨q, 4, none, false⟩
        | none => ⟨.phys 0, 4, some 0, false⟩)

/-- The words of T(D) that a scatter stores, with their places. -/
def scatterParts (bs : List Byte) (ps : List (Option Place)) : List (ReadPart × List Byte) :=
  (ps.mapIdx fun k p => p.map fun q => ((⟨q, 4, none, false⟩ : ReadPart), (bs.drop (4 * k)).take 4)).filterMap id

/-- `STG` (R401): every element is performed at its home, without the store buffer. -/
def execStg (gd : Guard) (d a b : Nat) (m : MemX) (s : State) : Result :=
  gatherLanes s gd ⟨[.w a, .v b, .t d, .t (d + 1)], [], true⟩ d a b m .write .st fun g s l ea ps =>
    let (parts, data) := joinData (scatterParts (readT g (g.lane l) d) ps)
    let s := if (parts.any fun p => leavesModule s p.place) then markInterval s g else s
    startWrite s { laneFlight s g [l] 3 m.scope .st ea with reads := parts, data := data } (stampsNow s g)

/-- What a prefetch starts (R402): a walk where the core's TLB misses; a domain address is ignored. -/
def prefetchOne (s : State) (g : Group) (sp a : Nat) : State :=
  let va := if sp = spaceKc then ((recordOf s g).kcbase + a) % 2 ^ 64 else a
  if 2 ^ 48 ≤ va then s
  else
    let held := s.ms.tlb.any fun t => t.core == some g.core && t.maps (s.partOf g) va
    if held then s
    else { s with
      ms := { s.ms with walks := s.ms.walks ++ [⟨s.fresh, dieOfCore g.core, some g.core, s.partOf g, va⟩] }
      fresh := s.fresh + 1 }

/-- `PREFETCH` (R402): a miss starts a walk, and nothing is counted. -/
def execPrefetch (gd : Guard) (a b sp imm : Nat) (s : State) : Result :=
  .next (laneIssue s gd ⟨[.w a, .v b], [], true⟩ fun g act s' =>
    act.foldl (fun s l => prefetchOne s g sp (addrLX g l (g.lane l) a b 16 imm 0 false).toNat) s')

end Sys2Proof.Machine
end

