-- ==== Sys2Proof/Machine/EvMem.lean ====
section
/-!
DEFINITION. Events of memory: Hinge messages (R36 to R38), store-buffer drains and completions (R206, R215), ordered pixel accesses (R288),
page walks (R194), slice moves (R177), and requests from the host and other modules (R71, R72, R189).
-/
namespace Sys2Proof.Machine

/-! ## Answers -/

/-- The answer to a request of a unit, with the cause of its failure (0 for none): it waits for the unit that asked (R37, R45). -/
def arriveFor (s : State) (f : Flight) (owner data cause : Nat) (wr : Bool) : State :=
  let s := dropFlight s f.id
  { s with ms := { s.ms with arrived := s.ms.arrived ++ [⟨owner, f.addr, partsLen f.reads, data, cause, wr⟩] } }

/-- A decrement that its home has performed, or refused with a cause: a `SEMSIG` is complete (R102), or the unit that asked is told. -/
def decrementAnswered (s : State) (f : Flight) (cause : Nat) : State :=
  match f.engine with
  | some o => arriveFor s { f with reads := [] } o 0 cause false
  | none =>
    let s := dropFlight s f.id
    if cause ≠ 0 then failWork s fun r => r == .signal f.id
    else
      let hit := s.parts.flatMap fun q => (q.streams.filter fun st => st.work.any fun w => w.ref == .signal f.id && w.irq).map fun st => (q.num, st.num)
      let s := { s with parts := s.parts.map fun q => { q with streams := q.streams.map fun st =>
        { st with work := st.work.filter fun w => w.ref != .signal f.id } } }
      hit.foldl (fun s x => raisePart s x.1 x.2) s

/-- Whether a read holds poison, as the cause of its failure. -/
def Flight.poisonCause (f : Flight) : Nat := if f.poisoned then 5 else 0

/-- A read or atomic all of whose parts are known: another module is answered (R45), the unit that asked is told, or the result waits to be
delivered to its lanes. -/
def finishRead (s : State) (f : Flight) : State :=
  match f.reply, f.engine with
  | some (port, src), _ => (dropFlight s f.id).send (.reply port src true f.poisoned (partsValue f.reads))
  | none, some o => arriveFor s f o (partsValue f.reads) f.poisonCause false
  | none, none => setFlight s { f with stage := .performed }

/-- A write that is performed at its home or acknowledged by its target: the `st` entry falls (R215), or another module is answered. -/
def finishWrite (s : State) (f : Flight) : State :=
  let s := dropFlight (countDown s f.core f.slot f.lanes f.counter) f.id
  match f.reply with
  | some (port, src) => s.send (.reply port src true false 0)
  | none => s

/-! ## Accesses that fail -/

/-- ACCESS of a flight (R91). -/
def Flight.accessCode (f : Flight) : Nat :=
  (match f.kind with
   | .read _ => 0
   | .atomic _ _ _ _ _ | .tdec _ => 2
   | .pixel _ => if f.release then 1 else 0
   | _ => 1) + 4 * f.path

/-- Whether a flight writes. -/
def Flight.isWrite (f : Flight) : Bool :=
  match f.kind with
  | .write | .halo _ => true
  | _ => false

/-- An access that can never complete (R37, R189): its entry is lowered, its destination is not written, and its lanes park at their next boundary
(R323, R91), with the access for a replay to repeat; the unit that asked is told, and another module gets a poisoned answer. (in part DEDUCED, log entry 29) -/
def failFlight (s : State) (f : Flight) (cause : Nat) (again : Bool) : State :=
  match f.reply, f.engine, f.kind with
  | some (port, src), _, _ => (dropFlight s f.id).send (.reply port src true true 0)
  | none, _, .time => dropFlight s f.id
  | none, some _, .tdec _ => decrementAnswered s f cause
  | none, some o, _ => arriveFor s f o 0 cause f.isWrite
  | none, none, .tdec _ =>
    if f.lanes.isEmpty then decrementAnswered s f cause
    else raiseLate (dropFlight s f.id) f.core f.slot f.lanes ⟨cause, f.accessCode, BitVec.ofNat 64 f.addr, none, if again then some f else none⟩
  | none, none, _ =>
    raiseLate (dropFlight (countDown s f.core f.slot f.lanes f.counter) f.id) f.core f.slot f.lanes
      ⟨cause, f.accessCode, BitVec.ofNat 64 f.addr, none, if again then some f else none⟩

/-! ## Hinge messages -/

/-- Answers a message that has been applied: the answer travels back with a stamp if asked (R38). -/
def sendAnswer (s : State) (f : Flight) (stamped : Bool) (payload : Nat) : State :=
  let (s, f) := sendHinge s { f with stage := .answer } (1 - f.die) stamped payload
  setFlight s f

/-- Answers a message: the sender's message is applied, and the answer travels back. -/
def answerHinge (s : State) (f : Flight) (stamped : Bool) (payload : Nat) : State := sendAnswer (countApplied s f.part f.die) f stamped payload

/-- Whether the answer to a request carries a stamp (R38): the request was made by an acquire of scope `die` or wider. -/
def Flight.stampsAnswer (f : Flight) : Bool := f.acquire && decide (6 ≤ f.scope)

/-- A place that stands in this module. -/
def inModule (p : Place) : Bool :=
  match p with
  | .remote _ => false
  | _ => true

/-- Where a place of a team that has moved stands now, while a forwarding entry redirects messages for it (R139). -/
def forwarded (s : State) (p : Place) : Place :=
  match p with
  | .sp c o =>
    match s.fwd.find? fun e => e.core == c && decide (e.spbase ≤ o) && decide (o < e.spbase + e.spfoot) && decide (s.time.now < e.until_) with
    | some e => match s.team? e.team with
      | some t => .sp t.core (t.spbase + o - e.spbase)
      | none => p
    | none => p
  | p => p

/-- A flight whose parts go where forwarding entries redirect them (R139). -/
def Flight.redirected (s : State) (f : Flight) : Flight := { f with reads := f.reads.map fun r => { r with place := forwarded s r.place } }

/-- Whether a scratchpad byte lies in no team's span: a message for it is stale (R139). -/
def staleByte (s : State) (p : Place) : Bool :=
  match p with
  | .sp c o => !s.teams.any fun t => t.core == c && decide (t.state ≠ .pending) && decide (t.spbase ≤ o) && decide (o < t.spbase + t.spfoot)
  | _ => false

/-- Whether a message that travels is addressed to a team that has left its core, and no forwarding entry redirects it (R139). -/
def Flight.stale (s : State) (f : Flight) : Bool := decide (f.stage = .request) && (f.redirected s).reads.any fun r => staleByte s r.place

/-- A read request arrives (KIND 0): its parts are read at their home; those of other modules are asked for here where the sender could not
(R46). -/
def applyReadRequest (s : State) (f : Flight) : State :=
  let f := { f with reads := fillParts s inModule f.reads }
  if f.viaOther && (f.reads.any fun p => p.got.isNone) then
    sendReads (setFlight (countApplied s f.part f.die) { f with stage := .beyond }) f
  else answerHinge s f f.stampsAnswer (partsLen f.reads)

/-- A write arrives (KIND 2) and is performed; a host line then waits for the host's acknowledgement (R215), and a write to another module
that came here for its port waits for that module's (R46). -/
def applyWrite (s : State) (f : Flight) : State :=
  let host := f.reads.any fun p => isHost s p.place
  let (s, f) := performParts s f inModule
  if host || (f.viaOther && !f.reads.isEmpty) then
    let s := setFlight (countApplied s f.part f.die) { f with stage := .beyond }
    if f.viaOther then sendWrites s f else s
  else answerHinge s f false 0

/-- The tumbler at a place after a decrement (R106): modulo 2^64. -/
def decrement (s : State) (p : Place) (x : Nat) : State :=
  let (old, bad) := readPlace s p 8
  if bad then s else performWrite s p (bytesOfNum 8 ((old + 2 ^ 64 - x % 2 ^ 64) % 2 ^ 64))

/-- A decrement performed at a place of this module (R106); a host line is written at the host too (R71). -/
def decrementAt (s : State) (p : Place) (amount : Nat) : State :=
  let s := decrement s p amount
  match p with
  | .phys b => if isHost s p then s.send (.hostWrite (b - hostBase) (bytesOfNum 8 (readPlace s p 8).1)) else s
  | _ => s

/-- An atomic arrives (KIND 4) and is performed at its home, or goes on to another module (R46). -/
def applyAtomic (s : State) (f : Flight) : State :=
  match f.kind, f.reads with
  | .atomic fn typ x y _, p :: _ =>
    match p.place with
    | .remote a =>
      sendOutside (setFlight (countApplied s f.part f.die) { f with stage := .beyond }) f (.atomic fn typ) a p.len (x + 256 ^ p.len * y)
    | q =>
      let (s, old, bad) := performAtomic s f.core f.slot q fn typ x y
      answerHinge s { f with reads := [{ p with got := some old, poison := bad }] } f.stampsAnswer p.len
  | .tdec x, p :: _ =>
    match p.place with
    | .remote a =>
      sendOutside (setFlight (countApplied s f.part f.die) { f with stage := .beyond }) f (.atomic 0 1) a 8 ((2 ^ 64 - x % 2 ^ 64) % 2 ^ 64)
    | q => answerHinge (decrementAt s q x) { f with reads := [{ p with poison := (readPlace s q 8).2 }] } false 0
  | _, _ => s

/-- An answer to a read arrives (KIND 1). -/
def applyReadData (s : State) (f : Flight) : State :=
  let s := countApplied s f.part (1 - f.die)
  if f.reads.all fun p => p.got.isSome then finishRead s f else setFlight s { f with stage := .outside }

/-- A write acknowledge arrives (KIND 3). -/
def applyAck (s : State) (f : Flight) : State :=
  let s := countApplied s f.part (1 - f.die)
  if !f.reads.isEmpty then setFlight s { f with stage := .outside }
  else if f.reply.isSome then finishWrite s f
  else setFlight s { f with stage := .performed }

/-- An atomic result arrives (KIND 5); a tumbler decrement has nothing to deliver. -/
def applyAtomicResult (s : State) (f : Flight) : State :=
  let s := countApplied s f.part (1 - f.die)
  match f.kind with
  | .atomic _ _ _ _ _ => finishRead s f
  | _ => decrementAnswered s f f.poisonCause

/-- A halo write arrives (KIND 6, R42): accepted when FRAME and PHASE equal the open window of the receiving die, else dropped and
counted. -/
def applyHalo (s : State) (f : Flight) (tag : Nat) : State :=
  let s := countApplied s f.part f.die
  let r := (s.part f.part).res
  let (fr, ph) := if f.die = 0 then (r.frame1, r.phase1) else (r.frame0, r.phase0)
  let s := if tag / 2 ^ 32 % 65536 = fr % 65536 && tag / 2 ^ 48 % 16 = ph % 16 then (performParts s f inModule).1
    else { s with links := { s.links with halodrop := min 4294967295 (s.links.halodrop + 1) } }
  dropFlight s f.id

/-- A time sideband message arrives (KIND 7, R47): the two time bases are one in the model. -/
def applyTime (s : State) (f : Flight) : State := dropFlight (countApplied s f.part f.die) f.id

/-- The request of an ordered access arrives at the die of its scoreboard (R287). -/
def applyPixel (s : State) (f : Flight) (p : PixelAccess) : State :=
  let s := dropFlight (countApplied s f.part f.die) f.id
  { s with render := { s.render with pixels := s.render.pixels ++ [{ p with core := f.core, slot := f.slot }] } }

/-- A message is applied, by what it is and where it stands. -/
def applyMessage (s : State) (f : Flight) : State :=
  let f := f.redirected s
  match f.stage, f.kind with
  | .request, .read _ => applyReadRequest s f
  | .request, .write => applyWrite s f
  | .request, .atomic _ _ _ _ _ => applyAtomic s f
  | .request, .tdec _ => applyAtomic s f
  | .request, .halo tag => applyHalo s f tag
  | .request, .time => applyTime s f
  | .request, .pixel p => applyPixel s f p
  | .answer, .read _ => applyReadData s f
  | .answer, .write => applyAck s f
  | .answer, .atomic _ _ _ _ _ => applyAtomicResult s f
  | .answer, .tdec _ => applyAtomicResult s f
  | _, _ => s

/-- A message that its receiver does not apply (R37): it is discarded, CRCERR of the module that carried it rises, and Caddy logs it. A request
stays unanswered, until its time runs out. -/
def discardMessage (s : State) (f : Flight) (from_ : Nat) : State :=
  let n := carrier s f from_
  let s := { s with links := { s.links with hinge := s.links.hinge.modify n fun m => { m with crcerr := min 255 (m.crcerr + 1) } } }
  let s := logEvent s .hingeDiscard 1 (logSource (1 - from_) 6) f.part n (f.hingeKind.getD 0)
  setFlight s { f with stage := .lost }

/-- A message that may be applied is, where its header is in order (R37). -/
def receive (s : State) (f : Flight) : State :=
  match f.sender with
  | none => s
  | some d => if headerOk f.header then applyMessage s f else discardMessage s f d

/-- A message of some KIND arrives: it is applied when R36 and R38 allow it now, and else it is held; a stale one is not applied (R139). -/
def hingeArrives (s : State) (id kind : Nat) : State :=
  match s.flight? id with
  | none => s
  | some f => if f.hingeKind = some kind && mayApply s f && !f.stale s then receive s f else s

/-- `HINGE_READ_REQUEST`. -/
def execHingeReadRequest (id : Nat) (s : State) : Result := .next (hingeArrives s id 0)
/-- `HINGE_READ_DATA`. -/
def execHingeReadData (id : Nat) (s : State) : Result := .next (hingeArrives s id 1)
/-- `HINGE_WRITE`. -/
def execHingeWrite (id : Nat) (s : State) : Result := .next (hingeArrives s id 2)
/-- `HINGE_WRITE_ACKNOWLEDGE`. -/
def execHingeWriteAcknowledge (id : Nat) (s : State) : Result := .next (hingeArrives s id 3)
/-- `HINGE_ATOMIC`. -/
def execHingeAtomic (id : Nat) (s : State) : Result := .next (hingeArrives s id 4)
/-- `HINGE_ATOMIC_RESULT`. -/
def execHingeAtomicResult (id : Nat) (s : State) : Result := .next (hingeArrives s id 5)
/-- `HINGE_HALO_WRITE`. -/
def execHingeHaloWrite (id : Nat) (s : State) : Result := .next (hingeArrives s id 6)
/-- `HINGE_TIME_SIDEBAND`. -/
def execHingeTimeSideband (id : Nat) (s : State) : Result := .next (hingeArrives s id 7)
/-- `STAMPED_MESSAGE_APPLY`: a stamped message that was held is applied once the messages that its stamp counts are (R38). -/
def execStampedMessageApply (id : Nat) (s : State) : Result := .next (match s.flight? id with
  | none => s
  | some f => if f.stamp.isSome && mayApply s f && !f.stale s then receive s f else s)

/-! ## Completions -/

/-- `STORE_BUFFER_DRAIN`: an entry drains unless an earlier one of its line stands before it, or its traffic is held (R206). -/
def execStoreBufferDrain (id : Nat) (s : State) : Result := .next (match s.ms.sb.find? (fun e => e.id == id) with
  | none => s
  | some e =>
    let ahead := (s.ms.sb.takeWhile fun x => x.id != id).any fun x => x.core == e.core && x.place.lineOf == e.place.lineOf
    if ahead || entryHeld s e then s else drainEntry s e)

/-- `WRITE_PERFORMED`: a write performed at its home, or acknowledged by its target, lowers `st` (R215); an acknowledgement that comes to the
other die travels back. `ok` is false when the target of a domain address refuses it, a fault of cause 3 (R189). -/
def execWritePerformed (id : Nat) (ok : Bool) (s : State) : Result := .next (match s.flight? id with
  | none => s
  | some f => match f.kind, f.stage with
    | .write, .performed => finishWrite s f
    | .write, .outside =>
      if ok then finishWrite s f else failFlight s f 3 true
    | .write, .beyond => if ok then sendAnswer s { f with reads := [] } false 0 else failFlight s f 3 true
    | .tdec _, .outside => if ok then decrementAnswered s f 0 else failFlight s f 3 true
    | .tdec _, .beyond => if ok then sendAnswer s f false 0 else failFlight s f 3 true
    | _, _ => s)

/-- Whether a flight travels on the Hinge, or has been discarded there. -/
def Flight.onHinge (f : Flight) : Bool := decide (f.stage = .request) || decide (f.stage = .answer) || decide (f.stage = .lost)

/-- `HINGE_REQUEST_TIMEOUT`: the access faults with cause 4 (R37). (in part DEDUCED, log entry 29) -/
def execHingeRequestTimeout (id : Nat) (s : State) : Result := .next (match s.flight? id with
  | none => s
  | some f => if f.onHinge then failFlight s f 4 true else s)

/-- A read or atomic sent to another module whose data come back poisoned. -/
def poisonArrives (s : State) (f : Flight) (acc : Nat) : State :=
  let f := { f with reads := f.reads.map fun (p : ReadPart) => if p.got.isNone then { p with got := some 0, poison := true } else p }
  match f.stage, f.engine with
  | .beyond, _ => sendAnswer s f f.stampsAnswer (partsLen f.reads)
  | _, some o => arriveFor s f o 0 5 false
  | _, none => deliverPoison s f acc

/-- `POISON_RETURN`: poisoned data return for a load, gather or atomic (R478). (in part DEDUCED, log entry 24) -/
def execPoisonReturn (id : Nat) (s : State) : Result := .next (match s.flight? id with
  | none => s
  | some f => match f.kind, f.stage with
    | .read _, .performed => if f.engine.isNone && f.poisoned then deliverPoison s f 0 else s
    | .atomic _ _ _ _ _, .performed => if f.engine.isNone && f.poisoned then deliverPoison s f 2 else s
    | .read _, .outside | .read _, .beyond => poisonArrives s f 0
    | .atomic _ _ _ _ _, .outside | .atomic _ _ _ _ _, .beyond => poisonArrives s f 2
    | _, _ => s)

/-! ## Ordered pixel accesses -/

/-- Removes an ordered access from its unit. -/
def dropPixel (s : State) (id : Nat) : State :=
  { s with render := { s.render with pixels := s.render.pixels.filter fun p => p.id != id } }

/-- A flight that carries the result of an ordered access. -/
def pixelFlight (p : PixelAccess) : Flight :=
  { id := 0, kind := .write, stage := .performed, part := p.part, die := dieOfCore p.core, core := p.core, slot := p.slot,
    lanes := if p.slot = noSlot then [] else [p.lane], path := 0, scope := p.scope, acquire := !p.write, release := p.write,
    counter := if p.write then .st else .ld, addr := p.addr, reads := [], data := [], seqNo := 0, stamp := none, tag := 0, pc := 0,
    viaOther := false, reply := none, engine := none }

/-- The result of an ordered access goes to its core (R287): across the Hinge from a scoreboard of the other die, a load's with a stamp (R213). -/
def pixelAnswer (s : State) (p : PixelAccess) (f : Flight) (payload : Nat) : State :=
  if p.word.reach f.die = .across then
    let (s, f) := sendHinge s { f with id := s.fresh, stage := .answer } (1 - f.die) f.stampsAnswer payload
    { addFlight s f with fresh := s.fresh + 1 }
  else launchFlight s f

/-- An ordered load performed at its home. -/
def pixelLoad (s : State) (p : PixelAccess) : State :=
  let (v, bad) := readPlace s p.place p.len
  pixelAnswer (dropPixel s p.id) p { pixelFlight p with kind := .read p.dest, reads := [⟨p.place, p.len, some v, bad⟩] } p.len

/-- An ordered store performed at its home. -/
def pixelStore (s : State) (p : PixelAccess) : State :=
  pixelAnswer (performFor (dropPixel s p.id) p.core p.slot p.place p.data) p (pixelFlight p) 0

/-- Writes an order word. (in part DEDUCED, log entry 17) -/
def setOrderWord (s : State) (p : PixelAccess) (w : Nat) : State := performWrite s p.word (bytesOfNum 4 w)

/-- An ordered access at the scoreboard (R288): the state after it, or nothing while it waits. (in part DEDUCED, log entry 17) -/
def pixelTry (s : State) (p : PixelAccess) : Option State :=
  let w := (readPlace s p.word 4).1
  let next := w % 65536
  let lock := w / 65536 % 2
  if p.strict then
    let δ := (p.order + 65536 - next) % 65536
    if δ = 0 then
      some (if p.write then setOrderWord (pixelStore s p) p ((next + 1) % 65536 + 65536 * (w / 65536)) else pixelLoad s p)
    else if δ < 32768 then none
    else
      let s := pixelError s p.part 0
      some (if p.write then countDown (dropPixel s p.id) p.core p.slot [p.lane] .st else pixelLoad s p)
  else if p.write then
    let s := if lock = 0 then pixelError s p.part 1 else s
    some (setOrderWord (pixelStore s p) p (next + w / 131072 * 131072))
  else if lock = 0 then some (setOrderWord (pixelLoad s p) p (w + 65536)) else none

/-- The scoreboard that an order word's home has (R185, R287): the slice of the partition, or none where the partition has no slice on that die. -/
def scoreboardOf (s : State) (p : PixelAccess) : Option (Nat × Nat) :=
  match p.word with
  | .phys a => (s.part p.part).setup.homeSlice a
  | _ => none

/-- Whether the scoreboard of an access has room for one that waits (R288): each slice's holds 512. (in part DESIGN CHOICE, log entry 31) -/
def scoreboardRoom (s : State) (p : PixelAccess) : Bool :=
  decide ((s.render.pixels.filter fun x => x.arrived && x.part == p.part && scoreboardOf s x == scoreboardOf s p).length < 512)

/-- Changes an ordered access. -/
def updPixel (s : State) (id : Nat) (f : PixelAccess → PixelAccess) : State :=
  { s with render := { s.render with pixels := s.render.pixels.map fun x => if x.id == id then f x else x } }

/-- `ORDERED_ACCESS_ARRIVAL`: performed at once, waiting when there is room, or held at its core (R288). (in part DESIGN CHOICE, log entry 31) -/
def execOrderedAccessArrival (id : Nat) (s : State) : Result := .next (match s.render.pixels.find? (fun p => p.id == id) with
  | none => s
  | some p =>
    if p.arrived then s
    else match pixelTry s p with
      | some s' => s'
      | none =>
        if scoreboardRoom s p then updPixel s id fun x => { x with arrived := true, held := false }
        else updPixel s id fun x => { x with held := true })

/-- `ORDERED_ACCESS_RELEASE`: a waiting access whose turn has come is performed (R288). (in part DESIGN CHOICE, log entry 31) -/
def execOrderedAccessRelease (id : Nat) (s : State) : Result := .next (match s.render.pixels.find? (fun p => p.id == id) with
  | none => s
  | some p => if p.arrived then (pixelTry s p).getD s else s)

/-! ## Walks and slices -/

/-- `PAGE_WALK_COMPLETE`: a walk for a prefetch ends in a fill, or in a fault that nobody sees (R192, R194, R402). (in part DESIGN CHOICE, log entry 70) -/
def execPageWalkComplete (id : Nat) (s : State) : Result := .next (match s.ms.walks.find? (fun w => w.id == id) with
  | none => s
  | some w =>
    let s := { s with ms := { s.ms with walks := s.ms.walks.filter fun x => x.id != id } }
    (translateVa s ⟨w.die, w.core, w.part, 0, true⟩ .read w.va).1)

/-- `SLICE_MOVE`: a group's slices come into the store (R177). -/
def execSliceMove (core slot : Nat) (s : State) : Result := .next (onRunning s core slot fun g =>
  if g.inStore then s else sliceIn s core slot)

/-! ## The host and other modules -/

/-- Whether the host reaches a physical address (R72): module memory, but no chip scratchpad and no CXL memory port; the other die's across
the Hinge (R34, R67). -/
def hostReaches (s : State) (a : Nat) : Bool :=
  (match regionOf s.links a with
   | .gddr _ => true
   | .lpddr _ => true
   | _ => false) && reaches s.links 0 a

/-- `HOST_MEM_ACCESS`: a host access through CXL.mem (R72, R214). (in part DESIGN CHOICE, log entry 72) -/
def execHostMemAccess (write : Bool) (addr len data : Nat) (s : State) : Result := .next (
  if ((List.range len).all fun k => hostReaches s (addr + k)) then
    if write then performWrite s (.phys addr) (bytesOfNum len data)
    else
      let (v, bad) := readPlace s (.phys addr) len
      s.send (.hostData addr v bad)
  else if write then s else s.send (.hostData addr 0 true))

/-- `HOST_CACHE_SNOOP`: the host's coherence traffic changes a 64-byte host line that the module may hold (R71). (in part DESIGN CHOICE, log entry 72) -/
def execHostCacheSnoop (addr data : Nat) (s : State) : Result := .next (
  let a := hostBase + addr % hostSize / 64 * 64
  performWrite s (.phys a) (bytesOfNum 64 data))

/-- The die of a scale-up port (R24). -/
def dieOfPort (port : Nat) : Nat := port / 8 % 2

/-- The flight of a request of another module that crosses the Hinge from the die of its port to its home (R45). (in part DEDUCED, log entry 65) -/
def requestFlight (s : State) (r : DomainRequest) : Flight :=
  { id := s.fresh, kind := .read .none, stage := .request, part := r.part, die := dieOfPort r.port, core := 0, slot := noSlot, lanes := [],
    path := 0, scope := 8, acquire := true, release := false, counter := .none, addr := r.addr, reads := [⟨.phys r.addr, r.len, none, false⟩],
    data := [], seqNo := 0, stamp := none, tag := 0, pc := 0, viaOther := false, reply := some (r.port, r.src), engine := none }

/-- A request of another module whose home is on the other die crosses the Hinge (R45). -/
def crossRequest (s : State) (r : DomainRequest) : State :=
  let f := requestFlight s r
  let (f, n) := match r.kind with
    | .read => (f, 0)
    | .write => ({ f with kind := .write, data := bytesOfNum r.len r.data }, r.len)
    | .atomic fn typ =>
      let k := atomSize typ
      ({ f with kind := .atomic fn typ (r.data % 256 ^ k) (r.data / 256 ^ k) .none, reads := [⟨.phys r.addr, k, none, false⟩] }, 2 * k)
  let (s, f) := sendHinge s f f.die false n
  { addFlight s f with fresh := s.fresh + 1 }

/-- `DOMAIN_REQUEST_ARRIVAL`: a request of another module, checked against the ranges of the partition with the issuer's number (R189)
and performed at its home, across the Hinge where its port is on the other die (R45). -/
def execDomainRequestArrival (r : DomainRequest) (s : State) : Result := .next (
  let q := s.part r.part
  if q.state = .free || !inRanges q.setup r.addr r.len then s.send (.reply r.port r.src false false 0)
  else if !reaches s.links (dieOfPort r.port) r.addr then s.send (.reply r.port r.src true true 0)
  else if homeDie r.addr ≠ dieOfPort r.port then crossRequest s r
  else match r.kind with
    | .read =>
      let (v, bad) := readPlace s (.phys r.addr) r.len
      s.send (.reply r.port r.src true bad v)
    | .write => (performWrite s (.phys r.addr) (bytesOfNum r.len r.data)).send (.reply r.port r.src true false 0)
    | .atomic fn typ =>
      let n := atomSize typ
      let (s, old, bad) := performAtomic s 0 noSlot (.phys r.addr) fn typ (r.data % 256 ^ n) (r.data / 256 ^ n)
      s.send (.reply r.port r.src true bad old))

/-! ## Decrements and accesses that are sent again -/

/-- Starts a decrement of a tumbler by a flight (R415, R224): at once on its own die, across the Hinge, or to another module. -/
def startDecrement (s : State) (f : Flight) (x : Nat) (p : Place) (stamped : Bool) : State :=
  let f := { f with id := s.fresh, kind := .tdec x, release := true, reads := [⟨p, 8, none, false⟩], viaOther := p.isRemote }
  match s.links.reach f.die p with
  | .here => decrementAt s p x
  | .across =>
    let (s, f) := sendHinge s { f with stage := .request } f.die stamped 16
    { addFlight s f with fresh := s.fresh + 1 }
  | .outside =>
    let f := { f with stage := .outside }
    match p with
    | .remote b => sendOutside { addFlight s f with fresh := s.fresh + 1 } f (.atomic 0 1) b 8 ((2 ^ 64 - x % 2 ^ 64) % 2 ^ 64)
    | _ => s

/-- How an access checks its page when it is sent again. -/
def Flight.acc (f : Flight) : Acc :=
  match f.kind with
  | .read _ => .read
  | .atomic _ _ _ _ _ | .tdec _ => .atomic
  | .pixel p => if p.write then .write else .read
  | _ => .write

/-- An access that a replay repeats starts again at its places (R93). -/
def restartFlight (s : State) (f : Flight) : State :=
  let stamped := f.stamp.isSome
  match f.kind, f.reads with
  | .read d, ps => startRead s f d (ps.map fun p => { p with poison := false })
  | .write, _ => startWrite s f stamped
  | .atomic fn typ x y d, p :: _ => startAtomic s f fn typ x y d p.place stamped
  | .tdec x, p :: _ => startDecrement s f x p.place stamped
  | .pixel p, _ => startPixel s f { p with core := f.core, slot := f.slot } stamped
  | _, _ => s

/-- A parked lane whose access failed after it had moved on sends that access again, and goes on where it stood (R93, R323); the one `.gm`
address of an access is translated afresh (R196). (in part DEDUCED, log entry 29) -/
def resendFlight (s : State) (g : Group) (l : Nat) (f : Flight) : State :=
  let f := { f with core := g.core, slot := g.slot, die := dieOfCore g.core, lanes := [l] }
  let go (s : State) (f : Flight) : State := restartFlight (countUp s g.core g.slot [l] f.counter) f
  match f.reads with
  | [p] => match p.place with
    | .phys _ | .remote _ => match translate s (whoLane s g f.path) f.acc f.addr with
      | (s, .ok q) => go s { f with reads := [{ p with place := q, got := none }] }
      | (s, .fault c _) => raiseLate s g.core g.slot [l] ⟨c, f.accessCode, BitVec.ofNat 64 f.addr, none, some f⟩
    | _ => go s f
  | _ => go s f

/-- A replay releases a parked lane (R93, R325): it issues its instruction again, or repeats the access that failed. -/
def replayLane (s : State) (core slot l : Nat) : State :=
  match s.group? core slot with
  | none => s
  | some g => match (g.lane l).parked with
    | none => s
    | some k =>
      let s := s.updLane core slot l Lane.replayed
      match k.redo with
      | some f => resendFlight s g l f
      | none => s

end Sys2Proof.Machine
end

