-- ==== Sys2Proof/Machine/GroupSync.lean ====
section
/-!
DEFINITION. How lanes that wait go on: passing an instruction (R161), reconvergence barriers (R157, R158), loop ends (R161), team and
cluster barriers (R409, R410), keyring rounds (R413, R440, R441), and leaving (R428).
-/
namespace Sys2Proof.Machine

/-! ## Passing an instruction -/

/-- Some lanes of a group that waited go on after their instruction of `len` bytes; at the end of a loop body they wait for the end step, and
from a two-word form at E they leave the loop (R161). -/
def Group.pass (g : Group) (ls : List Nat) (len : Nat) : Group :=
  let h := { g with lanes := g.lanes.mapIdx fun l x => if ls.contains l then
    let next := x.pc + BitVec.ofNat 64 len
    { x with pc := next, wait := g.waitAt l x.shader next } else x }
  if len = 8 then ls.foldl (fun h l => h.passTail [l] (g.lane l).pc) h else h

/-- Some lanes of the group in a slot go on after their instruction. -/
def passLanes (s : State) (core slot : Nat) (ls : List Nat) (len : Nat) : State := s.updGroup core slot fun g => g.pass ls len

/-- The lanes of a group that wait for something. -/
def Group.waiting (g : Group) (w : LaneWait → Bool) : List Nat := (List.range 32).filter fun l => w (g.lane l).wait

/-- The slot in which lane `l` of the group in a slot stands now (R278). -/
def whereIs (s : State) (core slot l : Nat) : Nat :=
  match s.groups.find? fun g => g.core == core && (g.lane l).home == some slot with
  | some g => g.slot
  | none => slot

/-- A lane of a group wherever it stands now. -/
def homeLane (s : State) (core slot l : Nat) : Lane := s.lane core (whereIs s core slot l) l

/-! ## Reconvergence barriers -/

/-- A barrier of a group. -/
def Group.bar (g : Group) (n : Nat) : Barrier := g.bars.getD n default

/-- The release test of a barrier (R158). -/
def Group.testBar (g : Group) (n : Nat) : Group :=
  let b := g.bar n
  if b.arr ≠ 0 && b.mask &&& ~~~b.arr = 0 then
    { g.pass (g.waiting fun w => w == .join n) 4 with bars := g.bars.set n { b with arr := 0 } }
  else g

/-- `rcv.set` (R157). -/
def Group.setBar (g : Group) (n : Nat) (ls : List Nat) : Group :=
  let b := g.bar n
  ({ g with bars := g.bars.set n { b with mask := b.arr ||| maskOf ls } } : Group).testBar n

/-- The lanes of MASK arrive at a barrier and wait (R158). The lanes stand at the instruction at `pc`. -/
def Group.joinBar (g : Group) (n : Nat) (ls : List Nat) (pc : Word64) : Group :=
  let b := g.bar n
  let arrive := ls.filter fun l => b.mask.getLsbD l
  ({ g with
    bars := g.bars.set n { b with arr := b.arr ||| maskOf arrive }
    lanes := g.lanes.mapIdx fun l x => if arrive.contains l then { x with pc := pc, wait := .join n } else x } : Group).testBar n

/-- Lanes that exit leave every barrier, and each release test is applied again (R158). (in part DEDUCED, log entry 71) -/
def Group.leaveBars (g : Group) (ls : List Nat) : Group :=
  let m := maskOf ls
  let g := { g with bars := g.bars.map fun b => ⟨b.mask &&& ~~~m, b.arr &&& ~~~m⟩ }
  (List.range 16).foldl Group.testBar g

/-! ## Loop ends -/

/-- Whether every member of the innermost live level waits at its end (R161). -/
def Group.loopReady (g : Group) : Bool :=
  decide (0 < g.ldep) &&
    (let k := g.ldep - 1
     let v := g.loops.getD k default
     (lanesOf v.members).all fun l => (g.lane l).wait == .loopEnd k)

/-- The end step of the innermost live level (R161), when it is ready. A COUNT of 0 acts as 1. (in part DEDUCED, log entry 25) -/
def Group.endStep (g : Group) : Group :=
  if !g.loopReady then g
  else
    let k := g.ldep - 1
    let v := g.loops.getD k default
    let ls := lanesOf v.members
    if 1 < v.count then
      let start := v.last - BitVec.ofNat 64 (4 * v.len)
      { g with
        loops := g.loops.set k { v with count := v.count - 1 }
        lanes := g.lanes.mapIdx fun l x => if ls.contains l then { x with pc := start, wait := .none } else x }
    else
      let u := g.loops.getD (k - 1) default
      let again := decide (0 < k) && decide (u.last = v.last)
      { g with
        ldep := k
        lanes := g.lanes.mapIdx fun l x =>
          if ls.contains l then { x with wait := if again && u.members.getLsbD l then .loopEnd (k - 1) else .none } else x }

/-! ## Team and cluster barriers -/

/-- Whether every lane of a team has arrived at a barrier or has exited (R409). -/
def teamArrived (s : State) (team : Nat) (w : LaneWait) : Bool :=
  (s.groupsOf team).all fun g => g.lanes.all fun x => x.exited || x.wait == w

/-- The lanes of a team that wait at a barrier go on. -/
def passTeam (s : State) (team : Nat) (w : LaneWait) : State :=
  { s with groups := s.groups.map fun g => if g.team = team then g.pass (g.waiting fun v => v == w) 4 else g }

/-- A completed barrier starts a new interval of its team (R333, R335), with a checkpoint where rollback acts (R410). -/
def newInterval (s : State) (team : Nat) : State :=
  match s.team? team with
  | none => s
  | some t =>
    let s := s.updTeam team fun t => { t with repeatable := true, rollbacks := 0 }
    if rollbackOn s t.part then requestDeadbolt s team .checkpoint else s

/-- Completes the team barrier when every lane is there (R409). -/
def testTeamBar (s : State) (team : Nat) : State :=
  let here := (s.groupsOf team).any fun g => g.lanes.any fun x => x.wait == .barTeam
  if here && teamArrived s team .barTeam then newInterval (passTeam s team .barTeam) team else s

/-- Ends the interval of the lines whose writers all belong to one cluster (R148). -/
def endLines (s : State) (grid n c : Nat) : State :=
  { s with lines := s.lines.filter fun r => !(r.grid == grid && r.writers.all fun w => w / n == c) }

/-- Completes the cluster barrier when every lane of every team of the cluster is there (R409, R410). While another team of the cluster is
saved it waits for its restore, which tests it afresh (R340). (in part DEDUCED, log entry 57) -/
def testClusterBar (s : State) (team : Nat) : State :=
  match s.team? team with
  | none => s
  | some t =>
    let ts := (s.clusterTeams t).map Team.id
    let here := s.groups.any fun g => ts.contains g.team && g.lanes.any fun x => x.wait == .barCl
    if here && ((s.clusterTeams t).all fun u => u.id == team || decide (u.state ≠ .pending)) && ts.all fun u => teamArrived s u .barCl then
      let s := ts.foldl (fun s u => newInterval (passTeam s u .barCl) u) s
      match s.grid? t.grid with
      | some gr =>
        let n := max 1 (gr.rcd.clw * gr.rcd.clh)
        endLines s gr.id n (t.linear / n)
      | none => s
    else s

/-! ## Keyrings -/

/-- A keyring of a team. -/
def Team.keyring (t : Team) (n : Nat) : Keyring := t.keyrings.getD n default
/-- Replaces a keyring of a team. -/
def setKeyring (s : State) (team n : Nat) (k : Keyring) : State :=
  s.updTeam team fun t => { t with keyrings := t.keyrings.set n k }

/-- A group of a team by its index. -/
def State.groupAt (s : State) (team index : Nat) : Option Group := s.groups.find? fun g => g.team == team && g.index == index

/-- Whether every lane of a declared group has signed or has exited (R411). A group that has ended has no lane left. -/
def groupSigned (s : State) (team index n : Nat) : Bool :=
  match s.groupAt team index with
  | none => true
  | some g => (List.range 32).all fun l => (g.sln.getD n 0).getLsbD l || (homeLane s g.core g.slot l).exited

/-- Whether a sign of lane `l` of group `index` can be recorded now (R413). -/
def canSign (s : State) (team index n l : Nat) : Bool :=
  match s.team? team, s.groupAt team index with
  | some t, some g => (t.keyring n).open_ && (t.keyring n).decl.getLsbD index && !(g.sln.getD n 0).getLsbD l
  | _, _ => false

/-- Records a sign (R413), with the card that an `mxsign` supplies (R440). -/
def recordSign (s : State) (team index n l : Nat) (card : Option Nat) : State :=
  match s.team? team, s.groupAt team index with
  | some t, some g =>
    let k := t.keyring n
    let s := s.updGroup g.core g.slot fun h => { h with
      sln := h.sln.set n ((h.sln.getD n 0) ||| maskOf [l])
      mxs := if card.isSome then h.mxs.set n ((h.mxs.getD n 0) ||| maskOf [l]) else h.mxs }
    let k := { k with card := if k.card = 0 then card.getD 0 else k.card }
    let done := groupSigned s team index n
    setKeyring s team n { k with sgrp := if done then k.sgrp ||| maskOf [index] else k.sgrp }
  | _, _ => s

/-- A waiting signer: the slot and lane where it stands, and its group's index and home slot. -/
structure Signer where
  core : Nat
  slot : Nat
  lane : Nat
  index : Nat
  deriving DecidableEq, Repr

/-- The lanes of a team that wait for something, in ascending group index, then ascending lane (R413). -/
def waiters (s : State) (team : Nat) (w : LaneWait → Bool) : List Signer :=
  let gs := (List.range 32).filterMap fun i => s.groupAt team i
  gs.flatMap fun g => (List.range 32).filterMap fun l =>
    let t := whereIs s g.core g.slot l
    if w (s.lane g.core t l).wait then some ⟨g.core, t, l, g.index⟩ else none

/-- Matrix jobs that a core's engine holds for its keyrings (R439). -/
def heldJobs (s : State) (core : Nat) : Nat := (s.render.jobs.filter fun j => j.core == core && j.cmd.isNone).length

/-- The registers of the declared groups as a round ends (R441). (in part DEDUCED, log entry 42) -/
def snapshot (s : State) (team : Nat) (decl : BitVec 32) : List RankSnap :=
  (lanesOf decl).map fun i => match s.groupAt team i with
    | none => ⟨i, 0, List.replicate 32 []⟩
    | some g => ⟨i, g.abase * 64, (List.range 32).map fun l =>
        let x := homeLane s g.core g.slot l
        if x.exited then [] else x.regs⟩

/-- The lanes of each declared group that signed by `mxsign`. -/
def signedLanes (s : State) (team n : Nat) (decl : BitVec 32) : List (Nat × BitVec 32) :=
  (lanesOf decl).map fun i => match s.groupAt team i with
    | none => (i, 0)
    | some g => (i, g.mxs.getD n 0)

/-- Lowers `mx` of the lanes that signed by `mxsign`, wherever they stand. -/
def lowerSigned (s : State) (team : Nat) (signed : List (Nat × BitVec 32)) : State :=
  signed.foldl (fun s x => match s.groupAt team x.1 with
    | none => s
    | some g => (lanesOf x.2).foldl (fun s l => countDown s g.core (whereIs s g.core g.slot l) [l] .mx) s) s

/-- The round of a keyring ends (R413): it is IDLE, the waiting lanes go on, and its job is taken, or the `mx` entries fall (R440). -/
def endRound (s : State) (t : Team) (n : Nat) : State :=
  let k := t.keyring n
  let s := setKeyring s t.id n { k with open_ := false }
  let signed := signedLanes s t.id n k.decl
  let s := if k.card = 0 then lowerSigned s t.id signed
    else { s with
      render := { s.render with jobs := s.render.jobs ++ [{
        id := s.fresh, core := t.core, part := t.part, team := t.id, key := n, cmd := none, cardAddr := k.card, card := none,
        decl := k.decl, signed := signed, step := 0, regs := snapshot s t.id k.decl, accs := [], flags := 0, paused := none }] }
      fresh := s.fresh + 1 }
  (waiters s t.id fun w => w == .keyRound n).foldl (fun s x => passLanes s x.core x.slot [x.lane] 8) s

/-- Declares a round (R413). -/
def declareRound (s : State) (t : Team) (n mask : Nat) : State :=
  if mask = 0 then s
  else
    let s := setKeyring s t.id n ⟨true, BitVec.ofNat 32 mask, 0, 0⟩
    { s with groups := s.groups.map fun g =>
        if g.team = t.id then { g with sln := g.sln.set n 0, mxs := g.mxs.set n 0 } else g }

/-- A signer whose sign has been recorded goes on, or waits for the round. -/
def signerGoes (s : State) (x : Signer) (n : Nat) (thenWait : Bool) : State :=
  if thenWait then s.updLane x.core x.slot x.lane fun y => { y with wait := .keyRound n } else passLanes s x.core x.slot [x.lane] 8

/-- One move of a keyring (R413), or none: a blocked signer is recorded, the round ends, or a blocked declare is taken. -/
def keyMove (s : State) (team n : Nat) : Option State :=
  match s.team? team with
  | none => none
  | some t =>
    let k := t.keyring n
    if k.open_ then
      let ready := (waiters s team fun w => match w with
        | .keySign m _ _ => m == n
        | _ => false).find? fun x => canSign s team x.index n x.lane
      match ready with
      | some x =>
        match (s.lane x.core x.slot x.lane).wait with
        | .keySign _ card w => some (signerGoes (recordSign s team x.index n x.lane card) x n w)
        | _ => none
      | none =>
        if (lanesOf k.decl).all (fun i => groupSigned s team i n) && (decide (k.card = 0) || decide (heldJobs s t.core < 16)) then
          some (endRound s t n)
        else none
    else
      let w := (waiters s team fun w => match w with
        | .keyDecl m _ => m == n
        | _ => false).head?
      match w with
      | none => none
      | some x =>
        let y := s.lane x.core x.slot x.lane
        match y.wait with
        | .keyDecl _ mask =>
          let ls := (List.range 32).filter fun l => let z := s.lane x.core x.slot l; z.wait == y.wait && decide (z.pc = y.pc)
          some (passLanes (declareRound s t n mask) x.core x.slot ls 8)
        | _ => none

/-- The moves of a keyring until there is none; each takes a waiting lane or ends a round. (in part DEDUCED, log entry 71) -/
def keyMoves : Nat → State → Nat → Nat → State
  | 0, s, _, _ => s
  | fuel + 1, s, team, n =>
    match keyMove s team n with
    | some s' => keyMoves fuel s' team n
    | none => s

/-- Every lane of a team moves a keyring at most a few times. -/
def keyFuel : Nat := 4096

/-- Moves a keyring as far as it goes. -/
def testKey (s : State) (team n : Nat) : State := keyMoves keyFuel s team n
/-- Moves every keyring of a team. -/
def testKeys (s : State) (team : Nat) : State := (List.range 16).foldl (fun s n => testKey s team n) s

/-! ## Leaving -/

/-- `exit` of some lanes (R428): they leave barriers, loops and pending slots, and count as arrived and signed. (in part DEDUCED, log entry 71) -/
def exitLanes (s : State) (core slot : Nat) (ls : List Nat) : State :=
  match s.group? core slot with
  | none => s
  | some g =>
    let s := s.updGroup core slot fun g =>
      let g : Group := { g with
        current := false
        lanes := g.lanes.mapIdx fun l x =>
          if ls.contains l then { x with exited := true, wait := .none, pend := List.replicate 4 none } else x }
      (g.leaveFrom 0 (maskOf ls)).leaveBars ls
    let s := testTeamBar s g.team
    let s := testClusterBar s g.team
    testKeys s g.team

/-! ## The quarter in deterministic mode -/

/-- The issue quarter of a slot (R150). -/
def quarterOf (slot : Nat) : Nat := slot % 4

/-- Whether a lane is blocked at a point that only another agent can end (R147). -/
def Lane.atOthers (x : Lane) : Bool :=
  x.parked.isSome || (match x.wait with
    | .keyRound _ | .keySign _ _ _ | .tumbler _ _ _ _ | .grow _ _ => true
    | _ => false)

/-- Whether the current group of a quarter keeps it (R147). (in part DEDUCED, log entry 35) -/
def Group.keepsQuarter (g : Group) : Bool := g.current && g.lanes.any fun x => x.live && !x.atOthers

/-- A group gives up its quarter (R147). (in part DEDUCED, log entry 35) -/
def yieldQuarter (s : State) (core slot : Nat) : State := s.updGroup core slot fun g => { g with current := false }

/-! ## Masks -/

/-- A mask has cleared: a latched request of a team outside deterministic mode may be taken (R337). -/
def testLatch (s : State) (team : Nat) : State :=
  match s.team? team with
  | none => s
  | some t => if teamDetm s t then s else takeLatch s team

end Sys2Proof.Machine
end

