-- ==== Sys2Proof/Machine/GroupUni.lean ====
section
/-!
DEFINITION. Group instructions that compute, move and branch (R418 to R427): uniform arithmetic and memory, branches, calls and returns,
reconvergence barriers, loops and layout.
-/
namespace Sys2Proof.Machine

/-- A form that names G registers, which shader state refuses (R277). -/
def formG : GroupForm := ⟨false, true, []⟩
/-- A form that shader state refuses whatever it names (R277). -/
def formRefused : GroupForm := ⟨false, false, []⟩
/-- A form that shader state allows. -/
def formPlain : GroupForm := ⟨true, false, []⟩

/-! ## Uniform arithmetic and compare -/

/-- `G(D) := f G(A) G(B)`. -/
def uniform2 (s : State) (q d a b : Nat) (f : Word64 → Word64 → Word64) : Result :=
  groupCompute s q formG fun g => setG g d (f (regG g a) (regG g b))
/-- `G(D) := f G(D)`. -/
def uniformImm (s : State) (q d : Nat) (f : Word64 → Word64) : Result := groupCompute s q formG fun g => setG g d (f (regG g d))

/-- `gshl` (R418): 0 for a count of 64 or more. -/
def shlG (a c : Word64) : Word64 := if c.toNat < 64 then a <<< c.toNat else 0
/-- `gshr` (R418). -/
def shrG (a c : Word64) : Word64 := if c.toNat < 64 then a >>> c.toNat else 0

/-- `GADD` (R418). -/
def execGadd (q d a b : Nat) (s : State) : Result := uniform2 s q d a b (· + ·)
/-- `GSUB` (R418). -/
def execGsub (q d a b : Nat) (s : State) : Result := uniform2 s q d a b (· - ·)
/-- `GMUL` (R418). -/
def execGmul (q d a b : Nat) (s : State) : Result := uniform2 s q d a b (· * ·)
/-- `GAND` (R418). -/
def execGand (q d a b : Nat) (s : State) : Result := uniform2 s q d a b (· &&& ·)
/-- `GOR` (R418). -/
def execGor (q d a b : Nat) (s : State) : Result := uniform2 s q d a b (· ||| ·)
/-- `GXOR` (R418). -/
def execGxor (q d a b : Nat) (s : State) : Result := uniform2 s q d a b (· ^^^ ·)
/-- `GSHL` (R418). -/
def execGshl (q d a b : Nat) (s : State) : Result := uniform2 s q d a b shlG
/-- `GSHR` (R418). -/
def execGshr (q d a b : Nat) (s : State) : Result := uniform2 s q d a b shrG
/-- `GMOV` (R418). -/
def execGmov (q d a : Nat) (s : State) : Result := groupCompute s q formG fun g => setG g d (regG g a)

/-- The relation of a `gcmp` by its FN (R420). -/
def relationG (c : Nat) (a b : Word64) : Bool :=
  match c with
  | 0 => a == b
  | 1 => a != b
  | 2 => decide (a.toInt < b.toInt)
  | 3 => decide (a.toInt ≤ b.toInt)
  | 4 => decide (b.toInt < a.toInt)
  | 5 => decide (b.toInt ≤ a.toInt)
  | 6 => decide (a.toNat < b.toNat)
  | 7 => decide (a.toNat ≤ b.toNat)
  | 8 => decide (b.toNat < a.toNat)
  | _ => decide (b.toNat ≤ a.toNat)

/-- `GCMP` (R420). -/
def execGcmp (q c d a b : Nat) (s : State) : Result :=
  groupCompute s q formG fun g => setQ g d (relationG c (regG g a) (regG g b))

/-- `GMOV_IMM` (R419). -/
def execGmovImm (q d imm : Nat) (s : State) : Result := uniformImm s q d fun _ => sext64 16 imm
/-- `GADD_IMM` (R419). -/
def execGaddImm (q d imm : Nat) (s : State) : Result := uniformImm s q d fun x => x + sext64 16 imm
/-- `GOR_IMM` (R419). -/
def execGorImm (q d imm : Nat) (s : State) : Result := uniformImm s q d fun x => x ||| BitVec.ofNat 64 imm
/-- `GSHL_IMM` (R419). -/
def execGshlImm (q d imm : Nat) (s : State) : Result := uniformImm s q d fun x => x <<< imm

/-! ## Uniform memory and the latches -/

/-- The one address of a uniform access: every lane of the cohort fails or passes with it (R421). -/
def checkUniform (s : State) (g : Group) (acc : Acc) (a : Word64) : State × Check :=
  checkAddr s g (s.issue.lanes.headD 0) spaceGm a 8 acc 0

/-- The cohort fails the check of its one address (R421): cause 9 enters the handlers, a translation fault parks the cohort. -/
def failUniform (s : State) (access : Nat) (a : Word64) (c : Check) : State := failLanes s access (s.issue.lanes.map fun l => (l, a, c))

/-- The address of a `gld` or `gst` (R421). -/
def addrG (g : Group) (a off : Nat) : Word64 := regG g a + BitVec.ofNat 64 (8 * off)

/-- `GLD` (R421): one access on path `lsu` at scope `pkg`, counted on every lane of the cohort. -/
def execGld (q d a off : Nat) (s : State) : Result := .next (groupIssue s q formG fun g s' =>
  let ls := s.issue.lanes
  let addr := addrG g a off
  if countFull g ls .ld || acquirePending s' g ls 0 then block s' ls
  else match checkUniform s' g .read addr with
    | (s', .ok p) =>
      if trafficHeld s' g [p] then block s' ls
      else
        startRead (countUp s' g.core g.slot ls .ld) (laneFlight s' g ls 0 (effScope addr.toNat 7) .ld addr.toNat) (.g d) (readParts s' g 7 p 8)
    | (s', c) => failUniform s' 0 addr c)

/-- `GST` (R421): one entry of the store buffer. -/
def execGst (q d a off : Nat) (s : State) : Result := .next (groupIssue s q formG fun g s' =>
  let ls := s.issue.lanes
  let addr := addrG g a off
  if countFull g ls .st || acquirePending s' g ls 0 then block s' ls
  else match checkUniform s' g .write addr with
    | (s', .ok p) =>
      let s' := if leavesModule s' p then markInterval s' g else s'
      bufferStore (countUp s' g.core g.slot ls .st) g ls p (effScope addr.toNat 7) (stampsNow s' g) addr.toNat (bytesOfNum 8 (regG g d).toNat)
    | (s', c) => failUniform s' 1 addr c)

/-- `GBC` (R421). -/
def execGbc (q d a : Nat) (s : State) : Result :=
  groupCompute s q formG fun g =>
    let v : Word32 := BitVec.ofNat 32 (regG g a).toNat
    if d = 0 then { g with gb0 := v } else { g with gb1 := v }

/-! ## Branches, calls and returns -/

/-- Some lanes go to their targets. Those outside shader state leave the loops whose bodies they go out of, unless the transfer is a call
(R161, R422). -/
def goTo (s : State) (ls : List Nat) (call : Bool) (target : Nat → Word64) : State :=
  s.updGroup s.issue.core s.issue.slot fun g =>
    let h := if call then g else g.leaveBy (ls.filter fun l => !(g.lane l).shader) s.issue.pc target
    { h with lanes := h.lanes.mapIdx fun l x => if ls.contains l then { x with pc := target l } else x }

/-- The target of a GJ word (R350). -/
def targetOf (i : Issue) (off : Nat) : Word64 := i.pc + BitVec.ofInt 64 (4 * signedOf 19 off)

/-- The lanes that a GJ word takes by COND and QI (R422). -/
def takenLanes (g : Group) (ls : List Nat) (q cond : Nat) : List Nat :=
  match cond with
  | 0 => if predQ g q then ls else []
  | 1 => if predQ g q then [] else ls
  | 2 => ls.filter fun l => predP (g.lane l) q
  | _ => ls.filter fun l => !predP (g.lane l) q

/-- The issue of a word that transfers control: `named` is the Q register that it names, 7 where none (R277). -/
def transferIssue (s : State) (form : GroupForm) (named : Nat) (body : Group → State → State × List Nat) : State :=
  match s.issuing? with
  | none => s
  | some g => runTransfer s fun s' => if inShader s && form.refused named then (illop s' s.issue.lanes, s.issue.lanes) else body g s'

/-- `BR` (R422). -/
def execBr (q cond off : Nat) (s : State) : Result := .next (transferIssue s formPlain (if cond < 2 then q else 7) fun g s' =>
  let ls := takenLanes g s.issue.lanes q cond
  (goTo s' ls false fun _ => targetOf s.issue off, ls))

/-- `JMP` (R422). -/
def execJmp (off : Nat) (s : State) : Result := .next (transferIssue s formPlain 7 fun _ s' =>
  (goTo s' s.issue.lanes false fun _ => targetOf s.issue off, s.issue.lanes))

/-- `CALL` (R423): the return address goes to G63, or to W29 of each lane in shader state. -/
def execCall (q cond off : Nat) (s : State) : Result := .next (transferIssue s formPlain q fun g s' =>
  let ls := takenLanes g s.issue.lanes q cond
  if inShader s && (Named.w 29).past g then (illop s' s.issue.lanes, s.issue.lanes)
  else if ls.isEmpty then (s', [])
  else
    let s' := if inShader s then s'.updLanes s.issue.core s.issue.slot ls fun x => dstW g x 29 s.issue.next
      else s'.updGroup s.issue.core s.issue.slot fun h => setG h 63 s.issue.next
    (goTo s' ls true fun _ => targetOf s.issue off, ls))

/-- The lanes whose target is misaligned enter their handlers with cause 9 and EPC the `ret` (R423). -/
def trapTarget (s : State) (ls : List Nat) (target : Nat → Word64) : State :=
  trapEnter s s.issue.core s.issue.slot 9 0 (ls.map fun l => ⟨l, s.issue.pc, target l, 0⟩)

/-- A `ret` in shader state reads W29 of its lanes (R124, R423): a register marked invalid raises AINV. -/
def raiseTarget (s : State) (g : Group) (ls : List Nat) (s' : State) : State :=
  if inShader s then raiseOf g ls (fun l => if (Named.w 29).meetsInvalid (homeOf s g l) then flagAINV else noFlags) s' else s'

/-- `RET` (R423). -/
def execRet (q a : Nat) (s : State) : Result := .next (transferIssue s formPlain q fun g s' =>
  let ls := s.issue.lanes
  if inShader s && (decide (a ≠ 29) || (Named.w 29).past g) then (illop s' ls, ls)
  else if !predQ g q then (s', [])
  else
    let target (l : Nat) : Word64 := if inShader s then srcW g (g.lane l) 29 else regG g a
    let bad := ls.filter fun l => decide ((target l).toNat % 4 ≠ 0)
    (raiseTarget s g ls <| trapTarget (goTo s' (ls.filter fun l => !bad.contains l) false target) bad target, ls))

/-! ## Reconvergence barriers and loops -/

/-- `RCV_SET` (R157, R424). -/
def execRcvSet (q n : Nat) (s : State) : Result := groupCompute s q formRefused fun g => g.setBar n s.issue.lanes

/-- `RCV_JOIN` (R158, R424). -/
def execRcvJoin (q n : Nat) (s : State) : Result := groupCompute s q formRefused fun g => g.joinBar n s.issue.lanes s.issue.pc

/-- The address of the last word of a body of `len` words after the issuing word (R425). -/
def loopEndAt (i : Issue) (len : Nat) : Word64 := i.pc + BitVec.ofNat 64 (4 * len)

/-- A group that has entered a loop (R160). -/
def Group.enterLoop (g : Group) (i : Issue) (count len : Nat) : Group :=
  { g with loops := g.loops.set g.ldep ⟨count, len - 1, loopEndAt i len, maskOf i.lanes⟩, ldep := g.ldep + 1 }

/-- `LOOP` (R160, R425): a count of 0 skips the body. (in part DEDUCED, log entry 25) -/
def execLoop (q d len : Nat) (s : State) : Result := .next (groupIssue s q formG fun g s' =>
  let e := loopEndAt s.issue len
  if g.ldep = 3 || (0 < g.ldep && decide ((g.loops.getD (g.ldep - 1) default).last.toNat < e.toNat)) then illop s' s.issue.lanes
  else if (regG g d).toNat % 4294967296 = 0 then
    s'.updGroup s.issue.core s.issue.slot fun h =>
      { h with lanes := h.lanes.mapIdx fun l x =>
          if s.issue.lanes.contains l then { x with pc := e + 4, wait := h.waitAt l x.shader (e + 4) } else x }
  else s'.updGroup s.issue.core s.issue.slot fun h => h.enterLoop s.issue ((regG g d).toNat % 4294967296) len)

/-- `ENDLOOP` (R161, R426). (in part DEDUCED, log entry 25) -/
def execEndloop (q : Nat) (s : State) : Result := .next (groupIssue s q formRefused fun g s' =>
  if g.ldep = 0 then illop s' s.issue.lanes
  else
    let k := g.ldep - 1
    let e := (g.loops.getD k default).last
    s'.updGroup s.issue.core s.issue.slot fun h =>
      let h := h.leaveFrom k (maskOf s.issue.lanes)
      { h with lanes := h.lanes.mapIdx fun l x =>
          if s.issue.lanes.contains l then { x with pc := e + 4, wait := h.waitAt l x.shader (e + 4) } else x })

/-! ## Layout -/

/-- SEGW as it reads (R173). -/
def Group.segw (g : Group) : Nat := g.wlog + 65536 * g.segen
/-- Sets SEGW (R173). -/
def Group.setSegw (g : Group) (v : Nat) : Group := { g with wlog := v % 8, segen := v / 65536 % 65536 }
/-- A WLOG that SEGW takes (R159). -/
def wlogOk (v : Nat) : Bool := decide (1 ≤ v % 8) && decide (v % 8 ≤ 5)

/-- `SEGW` (R427). -/
def execSegw (q a : Nat) (s : State) : Result := .next (groupIssue s q formG fun g s' =>
  let v := (regG g a).toNat
  if wlogOk v && decide (v / 8 % 8192 = 0) && decide (v < 4294967296) then
    s'.updGroup s.issue.core s.issue.slot fun h => h.setSegw v
  else illop s' s.issue.lanes)

/-- `VIEW` (R427, R163). -/
def execView (q a : Nat) (s : State) : Result := .next (groupIssue s q formG fun g s' =>
  let v := (regG g a).toNat
  let b0 := v % 32
  let b1 := v / 256 % 32
  let b2 := v / 65536 % 32
  if 64 * b0 < g.rsize && 64 * b1 < g.rsize && 64 * b2 < g.rsize then
    s'.updGroup s.issue.core s.issue.slot fun h => { h with vbase := b0, tbase := b1, abase := b2 }
  else illop s' s.issue.lanes)

/-- The bytes of the register home of a group (R167), twice over where it has a shadow (R342). -/
def Group.homeBytes (g : Group) : Nat := 32 * g.rsize * (if g.shadow.isSome then 2 else 1)

/-- Whether a core can extend the home of a group by some steps (R170): 1 MiB of slow file, and 64 KiB of fast file for its quarter while it
is active. -/
def growRoom (s : State) (g : Group) (n : Nat) : Bool :=
  let add := 32 * 256 * n * (if g.shadow.isSome then 2 else 1)
  let home := ((s.groups.filter fun h => h.core == g.core).map Group.homeBytes).sum
  let fast := ((s.groups.filter fun h => h.core == g.core && h.active && h.slot % 4 == g.slot % 4).map fun h => 32 * h.rsize).sum
  decide (home + add ≤ 1048576) && (!g.active || decide (fast + 32 * 256 * n ≤ 65536))

/-- Every waiting `grow` of a core: its order, slot and steps. -/
def growRequests (s : State) (core : Nat) : List (Nat × Nat × Nat) :=
  ((s.groups.filter fun g => g.core == core).flatMap fun g => g.lanes.filterMap fun x => match x.wait with
    | .grow n o => some (o, g.slot, n)
    | _ => none).dedup

/-- Adds steps to a group: the new bytes read zero (R170). -/
def Group.addSteps (g : Group) (n : Nat) : Group :=
  { g with
    steps := g.steps + n
    lanes := g.lanes.map fun x => { x with regs := x.regs.clear g.rsize (256 * n) } }

/-- `GROW` (R170, R427): it completes at once where RSIZE would pass 2,048, or where there is room and no older request waits. -/
def execGrow (q n : Nat) (s : State) : Result := .next (groupIssue s q formRefused fun g s' =>
  if 8 < g.steps + n then s'.updGroup s.issue.core s.issue.slot fun h => setQ h 6 true
  else if (growRequests s g.core).isEmpty && growRoom s g n then
    s'.updGroup s.issue.core s.issue.slot fun h => setQ (h.addSteps n) 6 false
  else
    { (s'.updLanes s.issue.core s.issue.slot s.issue.lanes fun x => { x with pc := s.issue.pc, wait := .grow n s.fresh }) with
      fresh := s.fresh + 1 })

/-- `SHRINK` (R170, R427): the bytes above the new RSIZE are lost. -/
def execShrink (q n : Nat) (s : State) : Result := .next (groupIssue s q formRefused fun g s' =>
  if g.steps ≤ n then illop s' s.issue.lanes
  else s'.updGroup s.issue.core s.issue.slot fun h => { h with
    steps := h.steps - n
    lanes := h.lanes.map fun x => { x with regs := x.regs.clear (256 * (h.steps - n)) (256 * n) } })

end Sys2Proof.Machine
end

