-- ==== Sys2Proof/Machine/Unit.lean ====
section
/-!
DEFINITION. The accesses of units beside the lane pipes (R91, R201): engines, the traversal and march units, the light walker, the matrix
engine and the Blend unit. What stands on the unit's own die is read and written at its home at once; the rest travels in messages and waits
for the answer of the other die or module (R37, R45). A unit that faults pauses under a record (R91).
-/
namespace Sys2Proof.Machine

/-- What a unit's read answers. -/
inductive UnitData
  | data (bs : List Byte)
  | fault (cause level addr : Nat)
  | pending
  deriving DecidableEq, Repr

/-- A flight of a unit, before its kind and parts are set; `acq` is the scope of an acquire (R202). -/
def unitFlight (owner : Nat) (w : Who) (a : Nat) (acq : Option Nat) : Flight :=
  { id := 0, kind := .write, stage := .outside, part := w.part, die := w.die, core := w.core.getD 0, slot := noSlot, lanes := [],
    path := w.path, scope := acq.getD 7, acquire := acq.isSome, release := false, counter := .none, addr := a, reads := [], data := [],
    seqNo := 0, stamp := none, tag := 0, pc := 0, viaOther := false, reply := none, engine := some owner }

/-- Asks the other die or another module for `n` bytes, once (R37, R45); nothing is sent while the traffic is held (R142). (in part DESIGN CHOICE, log entry 32) -/
def askAway (s : State) (owner : Nat) (w : Who) (acq : Option Nat) (p : Place) (n : Nat) : State :=
  if (s.ms.flights.any fun f => f.engine == some owner && f.addr == p.key) || placeHeld s w.part w.die p then s
  else startRead s (unitFlight owner w p.key acq) .none [⟨p, n, none, false⟩]

/-- The answer that has arrived for a unit's read. -/
def arrivedFor (s : State) (owner : Nat) (p : Place) (n : Nat) : Option Arrived :=
  s.ms.arrived.find? fun x => x.owner == owner && x.addr == p.key && x.len == n && !x.wr

/-- One message's part of a read that leaves the unit's die. -/
def awayPart (s : State) (owner : Nat) (w : Who) (acq : Option Nat) (p : Place) (a n : Nat) : State × UnitData :=
  match arrivedFor s owner p n with
  | some x => (s, if x.cause ≠ 0 then .fault x.cause 0 a else .data (bytesOfNum n x.data))
  | none => (askAway s owner w acq p n, .pending)

/-- Bytes that one message carries (R37). -/
def messageBytes : Nat := 1024

/-- A read that leaves the unit's die, in messages of 1,024 bytes (R37), one after the other. (in part DESIGN CHOICE, log entry 32) -/
def readAway (s : State) (owner : Nat) (w : Who) (acq : Option Nat) (a : Nat) : Nat → Place → Nat → State × UnitData
  | 0, _, _ => (s, .data [])
  | k + 1, p, n =>
    match awayPart s owner w acq p a (min n messageBytes) with
    | (s, .data b1) =>
      if n ≤ messageBytes then (s, .data b1)
      else match readAway s owner w acq (a + messageBytes) k (p.plus messageBytes) (n - messageBytes) with
        | (s, .data b2) => (s, .data (b1 ++ b2))
        | r => r
    | r => r

/-- A read of a unit at a checked place: at once on its own die, and by messages elsewhere. -/
def readAt (s : State) (owner : Nat) (w : Who) (acq : Option Nat) (p : Place) (a n : Nat) : State × UnitData :=
  match s.links.reach w.die p with
  | .here =>
    let (v, bad) := readPlace s p n
    (s, if bad then .fault 5 0 a else .data (bytesOfNum n v))
  | _ => readAway s owner w acq a (n / messageBytes + 1) p n

/-- One read of a unit within a page. -/
def unitReadPage (s : State) (owner : Nat) (w : Who) (acq : Option Nat) (acc : Acc) (a n : Nat) : State × UnitData :=
  match translate s w acc a with
  | (s, .fault c lv) => (s, .fault c lv a)
  | (s, .ok p) => readAt s owner w acq p a n

/-- A read of a unit, which may run into the next 64 KiB page. (in part DESIGN CHOICE, log entry 32) -/
def unitReadAs (s : State) (owner : Nat) (w : Who) (acq : Option Nat) (acc : Acc) (a n : Nat) : State × UnitData :=
  let k := 65536 - a % 65536
  if n ≤ k then unitReadPage s owner w acq acc a n
  else match unitReadPage s owner w acq acc a k with
    | (s, .data b1) => match unitReadPage s owner w acq acc (a + k) (n - k) with
      | (s, .data b2) => (s, .data (b1 ++ b2))
      | r => r
    | r => r

/-- A read of a unit that orders nothing. -/
def unitRead (s : State) (owner : Nat) (w : Who) (acc : Acc) (a n : Nat) : State × UnitData := unitReadAs s owner w none acc a n

/-- A read of a unit that acts as an acquire at a scope (R104, R106, R117). -/
def unitAcquire (s : State) (owner : Nat) (w : Who) (scope a n : Nat) : State × UnitData := unitReadAs s owner w (some scope) .read a n

/-- Several reads of a unit: the data of all, or the first that has none. (in part DESIGN CHOICE, log entry 32) -/
def unitReads (s : State) (owner : Nat) (w : Who) (acc : Acc) : List (Nat × Nat) → State × Except UnitData (List (List Byte))
  | [] => (s, .ok [])
  | (a, n) :: rest =>
    match unitRead s owner w acc a n with
    | (s, .data b) => match unitReads s owner w acc rest with
      | (s, .ok bs) => (s, .ok (b :: bs))
      | r => r
    | (s, r) => (s, .error r)

/-- Forgets the data that have arrived for a unit. (in part DESIGN CHOICE, log entry 32) -/
def dropArrived (s : State) (owner : Nat) : State :=
  { s with ms := { s.ms with arrived := s.ms.arrived.filter fun x => x.owner != owner } }

/-- Whether a unit still waits for the other die, other modules or the host. -/
def unitBusy (s : State) (owner : Nat) : Bool := s.ms.flights.any fun f => f.engine == some owner

/-- A write of a unit that its target has refused, or that has never been answered (R37, R189). -/
def failedWrite (s : State) (owner : Nat) : Option Arrived := s.ms.arrived.find? fun x => x.owner == owner && x.wr && x.cause ≠ 0

/-- Who writes: the unit that is told of a failure, if any, who translates for it, the group that it works for (R148), and the scope of a
release (R117). -/
structure UnitWrite where
  owner : Option Nat
  who : Who
  core : Nat
  slot : Nat
  release : Option Nat
  deriving DecidableEq, Repr

/-- A write for no group, that releases nothing. -/
def UnitWrite.plain (owner : Option Nat) (w : Who) : UnitWrite := ⟨owner, w, 0, noSlot, none⟩

/-- The flight of a unit's write. -/
def UnitWrite.flight (k : UnitWrite) : Flight :=
  { unitFlight 0 k.who 0 none with core := k.core, slot := k.slot, engine := k.owner, release := k.release.isSome, scope := k.release.getD 7 }

/-- A write that leaves the unit's die or goes to the host, in messages of 1,024 bytes (R37). -/
def writeAway (s : State) (f : Flight) : Nat → Nat → Place → List Byte → State
  | 0, _, _, _ => s
  | k + 1, a, p, bs =>
    let one := bs.take messageBytes
    let s := startWrite s { f with addr := a, reads := [⟨p, one.length, none, false⟩], data := one } f.release
    if bs.length ≤ messageBytes then s else writeAway s f k (a + messageBytes) (p.plus messageBytes) (bs.drop messageBytes)

/-- One write of a unit at a checked place: performed at its home at once, or sent where its home or target acknowledges it (R37, R215); `a`
is its address. -/
def unitWrite (s : State) (k : UnitWrite) (a : Nat) (p : Place) (bs : List Byte) : State :=
  if s.links.reach k.who.die p = .here && !isHost s p then performFor s k.core k.slot p bs
  else writeAway s k.flight (bs.length / messageBytes + 1) a p bs

/-- A unit pauses (R91): its record, and the pause. -/
def pauseUnit (s : State) (p : Nat) (r : FaultRec) : State × Pause :=
  let (tok, s) := newToken s p
  (putFault s p { r with token := tok }, ⟨tok, r.cause, r.vaddr⟩)

end Sys2Proof.Machine
end

