-- ==== Sys2Proof/Machine/GroupSys.lean ====
section
/-!
DEFINITION. Group instructions that wait, synchronise and act on the system (R407 to R416, R428, R429, R433), and `ksign` (R412).
-/
namespace Sys2Proof.Machine

/-! ## Flow -/

/-- The largest entry of a counter among some lanes (R217). -/
def maxCount (g : Group) (ls : List Nat) (c : Counter) : Nat := ls.foldl (fun m l => max m ((g.lane l).count c)) 0

/-- Whether the condition of a `wait` holds (R217). -/
def waitMet (g : Group) (ls : List Nat) (all : Bool) (ld st cp mx : Nat) : Bool :=
  let ok := [decide (maxCount g ls .ld ≤ ld), decide (maxCount g ls .st ≤ st), decide (maxCount g ls .cp ≤ cp), decide (maxCount g ls .mx ≤ mx)]
  if all then ok.all id else ok.any id

/-- Whether a lane of a group is not blocked (R155): it is ready, and the limits of the `wait` that it stands at are met. -/
def Group.laneUnblocked (g : Group) (x : Lane) : Bool :=
  x.ready && (match x.wait with
    | .limits ls all ld st cp mx => waitMet g ls all ld st cp mx
    | _ => true)

/-- Whether some lane of a group can issue (R155). -/
def Group.unblocked (g : Group) : Bool := g.lanes.any g.laneUnblocked

/-- Whether a pending group of the quarter of `g` has an unblocked lane (R156). -/
def rivalWaits (s : State) (g : Group) : Bool :=
  s.groups.any fun h => h.core == g.core && quarterOf h.slot == quarterOf g.slot && !h.active && h.unblocked

/-- A group leaves the active set (R156); when it next becomes ready is noted then. -/
def leaveActive (s : State) (core slot : Nat) : State :=
  s.updGroup core slot fun g => { g with active := false, slowSince := s.time.now, readyAt := 0 }

/-- `YIELD` (R428, R147). -/
def execYield (q : Nat) (s : State) : Result := .next (groupIssue s q formRefused fun g s' =>
  if detmOf s g then yieldQuarter s' g.core g.slot
  else if rivalWaits s' g then leaveActive s' g.core g.slot else s')

/-- `EXIT` (R428). (in part DEDUCED, log entry 71) -/
def execExit (q : Nat) (s : State) : Result := .next (groupIssue s q formRefused fun g s' =>
  testLatch (exitLanes s' g.core g.slot s.issue.lanes) g.team)

/-! ## Counters and fences -/

/-- A `wait` or `xfence` ends the stamping run (R38, R220). -/
def endStamps (s : State) (g : Group) : State := s.updGroup g.core g.slot fun h => { h with stampRun := false }

/-- Some lanes wait at the issuing instruction. -/
def waitHere (s : State) (ls : List Nat) (w : LaneWait) : State :=
  s.updLanes s.issue.core s.issue.slot ls fun x => { x with pc := s.issue.pc, wait := w }

/-- `WAIT` (R217, R407). -/
def execWait (all : Bool) (ld st cp mx : Nat) (s : State) : Result := .next (groupIssue s 7 formPlain fun g s' =>
  if waitMet g s.issue.lanes all ld st cp mx then endStamps s' g
  else waitHere s' s.issue.lanes (.limits s.issue.lanes all ld st cp mx))

/-- Whether an engine command belongs to some of these lanes. -/
def EngCmd.ofLanes (c : EngCmd) (g : Group) (ls : List Nat) : Bool :=
  match c.issuer with
  | .group core slot xs => core == g.core && slot == g.slot && xs.any ls.contains
  | _ => false

/-- Whether an access of some lanes on a path has not been performed (R220). (in part DEDUCED, log entry 30) -/
def pathBusy (s : State) (g : Group) (ls : List Nat) (path : Nat) : Bool :=
  let at_ (core slot lane : Nat) : Bool := core == g.core && slot == g.slot && ls.contains lane
  let flights := s.ms.flights.any fun f =>
    f.path == path && f.core == g.core && f.slot == g.slot && f.lanes.any ls.contains && f.stage != .performed && f.stage != .answer
  let cmds (k : EngKind) : Bool := s.eng.cmds.any fun c => c.kind == k && c.ofLanes g ls
  let march := s.render.marches.any fun m => at_ m.core m.slot m.lane && m.state != .landed
  flights || (match path with
    | 0 => s.render.pixels.any fun p => at_ p.core p.slot p.lane
    | 1 => cmds .copy
    | 2 => s.render.jobs.any fun j => j.team == g.team && j.signed.any fun x => ls.any fun l => x.1 == (homeOf s g l).index && (lanesOf x.2).contains l
    | 3 => march || (s.render.walks.any fun w => at_ w.core w.slot w.lane) ||
        s.render.tiles.any fun t => t.rows.any fun r => at_ r.core r.slot r.lane
    | 4 => cmds .collective
    | 5 => march || s.render.rays.any fun r => match r.owner with
        | .lane c t l => at_ c t l && r.state != .done
        | _ => false
    | 6 => cmds .strainer
    | _ => false)

/-- Whether a store of some lanes stands in the store buffer of their core. -/
def storePending (s : State) (g : Group) (ls : List Nat) : Bool :=
  s.ms.sb.any fun e => e.core == g.core && e.slot == g.slot && e.lanes.any ls.contains

/-- What an `xfence` drains below scope `die` (R220): another path reads past the store buffer, so the core's entries go to their homes. (in part DEDUCED, log entry 30) -/
def fenceDrain (s : State) (g : Group) (p1 p2 sc : Nat) : State :=
  if 6 ≤ sc then releaseDrain s g sc else if p1 = 0 && p2 ≠ 0 then drainCores s [g.core] else s

/-- `XFENCE` (R220, R408). (in part DEDUCED, log entry 30) -/
def execXfence (q p1 p2 sc : Nat) (s : State) : Result := .next (groupIssue s q formPlain fun g s' =>
  let ls := s.issue.lanes
  let s' := fenceDrain s' g p1 p2 sc
  if pathBusy s' g ls p1 || (p1 = 0 && p2 ≠ 0 && storePending s' g ls) || releaseWaits s' g ls sc then block s' ls else endStamps s' g)

/-! ## Barriers -/

/-- `BAR_TEAM` (R409, R410): an arrival is a release at scope `team`. -/
def execBarTeam (q : Nat) (s : State) : Result := .next (groupIssue s q formRefused fun g s' =>
  if releaseWaits s' g s.issue.lanes 3 then block s' s.issue.lanes
  else testTeamBar (yieldQuarter (waitHere s' s.issue.lanes .barTeam) g.core g.slot) g.team)

/-- `BAR_CL` (R409, R410): an arrival is a release at scope `cluster`. -/
def execBarCl (q : Nat) (s : State) : Result := .next (groupIssue s q formRefused fun g s' =>
  if releaseWaits s' g s.issue.lanes 5 then block s' s.issue.lanes
  else testClusterBar (yieldQuarter (waitHere s' s.issue.lanes .barCl) g.core g.slot) g.team)

/-! ## Tumblers -/

/-- Sends a decrement to the home of its tumbler (R415, R224): the core's entries that overlap it drain first (R206), and it is performed
there at once on the issuing die, across the Hinge, or at another module. A stamping run stamps its message (R38). -/
def sendDecrement (s : State) (g : Group) (p : Place) (a x scope : Nat) : State :=
  let s := drainOverlap s g.core p
  startDecrement s (laneFlight s g s.issue.lanes 0 scope .none a) x p (decide (6 ≤ scope) || stampsNow s g)

/-- `TDEC` (R415). -/
def execTdec (q sc a b : Nat) (s : State) : Result := .next (groupIssue s q formG fun g s' =>
  let ls := s.issue.lanes
  let addr := regG g a
  let scope := effScope addr.toNat sc
  if acquirePending s' g ls 0 then block s' ls
  else
    let s' := releaseDrain s' g scope
    if releaseWaits s' g ls scope then block s' ls
    else match checkUniform s' g .atomic addr with
      | (s', .ok p) =>
        if trafficHeld s' g [p] then block s' ls
        else sendDecrement (markInterval s' g) g p addr.toNat (regG g b).toNat scope
      | (s', c) => failUniform s' 2 addr c)

/-- Whether a tumbler's value satisfies a bound (R106, R416). -/
def tumblerMet (bs : List Byte) (bound : Word64) : Bool := decide ((BitVec.ofNat 64 (numOfBytes bs)).toInt ≤ bound.toInt)

/-- A tumbler's home is read (R416), so the stores of the core to its line that stand in the buffer go there first (R209). (in part DEDUCED, log entry 30) -/
def drainTumbler (s : State) (g : Group) (addr : Word64) : State :=
  match translate s (whoLane s g 0) .read addr.toNat with
  | (s, .ok p) => if trafficHeld s g [p] then s else drainOverlap s g.core p
  | (s, .fault _ _) => s

/-- A poll of the tumbler that some lanes of a group wait for (R416), an acquire at its scope: they go on, they park, or they wait. -/
def pollTumbler (s : State) (g : Group) (ls : List Nat) (id : Nat) (addr bound : Word64) (scope : Nat) : State × Bool :=
  match unitAcquire (drainTumbler s g addr) id (whoLane s g 0) scope addr.toNat 8 with
  | (s, .data bs) => if tumblerMet bs bound then (dropArrived s id, true) else (dropArrived s id, false)
  | (s, .fault c lv a) => (parkLanes (dropArrived s id) g.core g.slot 0 (ls.map fun l => ⟨l, c, lv, BitVec.ofNat 64 a⟩), false)
  | (s, .pending) => (s, false)

/-- `TWAIT` (R416): the tumbler is read at once, and again by `TUMBLER_POLL` while the cohort waits. (in part DESIGN CHOICE, log entry 33) -/
def execTwait (q sc a b : Nat) (s : State) : Result := .next (groupIssue s q formG fun g s' =>
  let ls := s.issue.lanes
  let addr := regG g a
  if acquirePending s' g ls 0 then block s' ls
  else if addr.toNat % 8 ≠ 0 then failUniform s' 0 addr (.trap 9)
  else
    let w := LaneWait.tumbler s.fresh addr (regG g b) (effScope addr.toNat sc)
    let s' := { waitHere s' ls w with fresh := s.fresh + 1 }
    match pollTumbler s' g ls s.fresh addr (regG g b) (effScope addr.toNat sc) with
    | (s', true) => s'.updLanes g.core g.slot ls fun x => { x with pc := s.issue.next, wait := .none }
    | (s', false) => s')

/-- `TUMBLER_POLL` (R416): the lanes that wait with this one. -/
def execTumblerPoll (core slot lane : Nat) (s : State) : Result := .next (onRunning s core slot fun g =>
  let x := g.lane lane
  match x.wait with
  | .tumbler id addr bound scope =>
    if x.parked.isSome then s
    else
      let ls := (List.range 32).filter fun l => (g.lane l).wait == x.wait && (g.lane l).parked.isNone
      match pollTumbler s g ls id addr bound scope with
      | (s, true) => passLanes s core slot ls 4
      | (s, false) => s
  | _ => s)

/-! ## Time -/

/-- `WTIME` (R429). (in part DESIGN CHOICE, log entry 33) -/
def execWtime (q a : Nat) (s : State) : Result := .next (groupIssue s q formG fun g s' =>
  if (regG g a).toNat ≤ s.time.now then s' else waitHere s' s.issue.lanes (.time (regG g a).toNat))

/-- `RTIME` (R429). -/
def execRtime (q d : Nat) (s : State) : Result := groupCompute s q formG fun g => setG g d (BitVec.ofNat 64 s.time.now)

/-- `WTIME_RELEASE` (R429): the lanes that wait with this one go on once the time has come, and their group is not held (R142). -/
def execWtimeRelease (core slot lane : Nat) (s : State) : Result := .next (onRunning s core slot fun g =>
  let x := g.lane lane
  match x.wait with
  | .time t =>
    if s.time.now < t || meterHeld s (s.partOf g) 0 then s
    else passLanes s core slot ((List.range 32).filter fun l => decide ((g.lane l).wait = x.wait) && decide ((g.lane l).pc = x.pc)) 4
  | _ => s)

/-! ## Control registers and traps -/

/-- A control register as it reads, for a lane of a group (R173, R251, R296, R326, R359). -/
def csrValue (g : Group) (x : Lane) (c : Nat) : Nat :=
  let lc (n : Nat) : Nat := let v := g.loops.getD n default; v.count + 4294967296 * v.len
  let le (n : Nat) : Nat := (g.loops.getD n default).last.toNat / 4 * 4
  match c with
  | 0x10 => g.segw
  | 0x11 => g.vbase + 256 * g.tbase + 65536 * g.abase + 16777216 * g.steps
  | 0x12 => g.ldep
  | 0x14 => lc 0
  | 0x15 => lc 1
  | 0x16 => lc 2
  | 0x18 => le 0
  | 0x19 => le 1
  | 0x1a => le 2
  | 0x20 => g.ag0
  | 0x21 => g.ag1
  | 0x22 => g.ag2
  | 0x23 => g.ag3
  | 0x24 => g.rmcap
  | 0x25 => g.stky
  | 0x30 => g.tvec.toNat
  | 0x31 => 64 * g.tframe
  | 0x32 => x.tdep + 4 * bitOf x.tmsk + 16 * ((List.range 4).map fun c => 2 ^ c * bitOf ((x.pend.getD c none).isSome)).sum
  | _ => 0

/-- The bits of `old` that a write-one-to-clear value leaves. -/
def clearOnes (old v : Nat) : Nat := old - (old &&& v)

/-- Writes LCn (R173): COUNT alone. -/
def Group.setCount (g : Group) (n v : Nat) : Group :=
  { g with loops := g.loops.modify n fun l => { l with count := v % 4294967296 } }

/-- Writes a control register (R433): a value that a field refuses leaves that field unchanged. -/
def csrWrite (g : Group) (c v : Nat) : Group :=
  match c with
  | 0x10 => { g with wlog := if wlogOk v then v % 8 else g.wlog, segen := v / 65536 % 65536 }
  | 0x14 => g.setCount 0 v
  | 0x15 => g.setCount 1 v
  | 0x16 => g.setCount 2 v
  | 0x20 => if v % 4 = 3 then g else { g with ag0 := v % 4 }
  | 0x21 => { g with ag1 := v % 65536 }
  | 0x22 => { g with ag2 := v % 256 }
  | 0x23 => { g with ag3 := clearOnes g.ag3 (v % 16) }
  | 0x24 => { g with rmcap := v % 65536 }
  | 0x25 => { g with stky := clearOnes g.stky (v % 128) }
  | 0x30 => { g with tvec := BitVec.ofNat 64 (v / 4 * 4) }
  | 0x31 => { g with tframe := v / 64 % 32 }
  | _ => g

/-- `CSRR` (R433): in shader state the field names W(G) of each lane, which receives the register of its home group. -/
def execCsrr (q r csr : Nat) (s : State) : Result := .next (groupIssue s q formPlain fun g s' =>
  let ls := s.issue.lanes
  let low := g.lane (ls.headD 0)
  if inShader s then
    (if 29 < r || (Named.w r).past g then illop s' ls
     else ls.foldl (fun t l => t.updLane g.core g.slot l fun x =>
       dstW g x r (BitVec.ofNat 64 (csrValue (homeOf s g l) low csr))) s')
  else s'.updGroup g.core g.slot fun h => setG h r (BitVec.ofNat 64 (csrValue g low csr)))

/-- `CSRW` (R433). -/
def execCsrw (q r csr : Nat) (s : State) : Result := groupCompute s q formG fun g => csrWrite g csr (regG g r).toNat

/-- The entry of the issuing lanes into their handlers for `trap` and `brk` (R327): EPC is the address after the word. -/
def softTrap (s : State) (cause : Nat) : State :=
  trapEnter s s.issue.core s.issue.slot cause 0 (s.issue.lanes.map fun l => ⟨l, s.issue.next, s.issue.word, 0⟩)

/-- `TRAP` (R433): cause 12, whose code stands in VAL. -/
def execTrap (q _code : Nat) (s : State) : Result := .next (transferIssue s formRefused q fun g s' =>
  if predQ g q then (softTrap s' 12, s.issue.lanes) else (s', []))
/-- `BRK` (R433): cause 11. -/
def execBrk (q : Nat) (s : State) : Result := .next (transferIssue s formRefused q fun g s' =>
  if predQ g q then (softTrap s' 11, s.issue.lanes) else (s', []))
/-- `TRET` (R329). -/
def execTret (q : Nat) (s : State) : Result := .next (transferIssue s formRefused q fun g s' =>
  if predQ g q then (testLatch (trapReturn s') g.team, s.issue.lanes) else (s', []))
/-- `TMASK` (R433). -/
def execTmask (q : Nat) (s : State) : Result := .next (groupIssue s q formRefused fun g s' =>
  s'.updLanes g.core g.slot s.issue.lanes fun x => { x with tmsk := true })
/-- `TUNMASK` (R433): a latched cut is taken once no mask is left (R337). -/
def execTunmask (q : Nat) (s : State) : Result := .next (groupIssue s q formRefused fun g s' =>
  testLatch (s'.updLanes g.core g.slot s.issue.lanes fun x => { x with tmsk := false }) g.team)

/-! ## Keyrings -/

/-- The Active lanes of a sign (R412, R413, R414): a release at scope `team`; each waits for its sign to be recorded, and the keyring moves. -/
def signLanes (s : State) (g : Group) (act : List Nat) (n : Nat) (card : Nat → Option Nat) (thenWait : Bool) : State :=
  let s := act.foldl (fun s l => s.updLane g.core g.slot l fun x => { x with pc := s.issue.pc, wait := .keySign n (card l) thenWait }) s
  testKey s g.team n

/-- `KSIGN` (R412). -/
def execKsign (gd : Guard) (key : Nat) (s : State) : Result := .next (laneIssue s gd ⟨[], [], true⟩ fun g act s' =>
  if releaseWaits s' g act 3 then block s' s.issue.lanes else signLanes s' g act key (fun _ => none) false)
/-- `KSIGN_WAIT` (R412). -/
def execKsignWait (gd : Guard) (key : Nat) (s : State) : Result := .next (laneIssue s gd ⟨[], [], true⟩ fun g act s' =>
  if releaseWaits s' g act 3 then block s' s.issue.lanes else signLanes s' g act key (fun _ => none) true)
/-- `KSIGN_DECL` (R412): the mask is V(A) of the lowest Active lane, with bits at or above GPT cleared. -/
def execKsignDecl (gd : Guard) (key a : Nat) (s : State) : Result := .next (laneIssue s gd ⟨[.v a], [], true⟩ fun g act s' =>
  match act with
  | [] => s'
  | l :: _ =>
    let mask := (srcV g l (g.lane l) a).toNat % 2 ^ (recordOf s g).gpt
    testKey (waitHere s' act (.keyDecl key mask)) g.team key)

end Sys2Proof.Machine
end

