-- ==== Sys2Proof/Machine/EvGroup.lean ====
section
/-!
DEFINITION. Events of groups: returning data (R215, R398, R478), loop ends (R161), growth (R170, R171), the active set (R156, R429), the end
of a group (R428), asynchronous errors (R331) and the compaction of shader lanes (R278).
-/
namespace Sys2Proof.Machine

/-! ## Returning data -/

/-- Data from outside for a read or an atomic: they go to the lanes or the unit that asked, or travel back from the other die (R46). `ok` is
false when the target refuses the request, a fault of cause 3 (R189). -/
def dataArrives (s : State) (f : Flight) (dest : Dest) (data : Nat) (ok : Bool) : State :=
  if !ok then failFlight s f 3 true
  else
    let f := { f with reads := feedParts f.reads data }
    match f.stage, f.engine with
    | .beyond, _ => sendAnswer s f f.stampsAnswer (partsLen f.reads)
    | _, some o => arriveFor s f o (partsValue f.reads) f.poisonCause false
    | _, none => if f.poisoned then setFlight s { f with stage := .performed } else deliver s f dest

/-- `LOAD_DATA_RETURN`: the data of a load, gather or atomic return and the `ld` entry falls (R215, R398). -/
def execLoadDataReturn (id data : Nat) (ok : Bool) (s : State) : Result := .next (match s.flight? id with
  | none => s
  | some f => match f.kind, f.stage with
    | .read d, .performed | .atomic _ _ _ _ d, .performed => if f.poisoned then s else deliver s f d
    | .read d, .outside | .read d, .beyond => dataArrives s f d data ok
    | .atomic _ _ _ _ d, .outside | .atomic _ _ _ _ d, .beyond => dataArrives s f d data ok
    | _, _ => s)

/-! ## Loop ends -/

/-- `LOOP_END_STEP` (R161). -/
def execLoopEndStep (core slot : Nat) (s : State) : Result := .next (onRunning s core slot fun _ => s.updGroup core slot Group.endStep)

/-! ## Growth -/

/-- The oldest waiting `grow` of a core: its order, slot and steps (R170). (in part DESIGN CHOICE, log entry 34) -/
def oldestGrow (s : State) (core : Nat) : Option (Nat × Nat × Nat) :=
  (growRequests s core).foldl (fun a r => match a with
    | none => some r
    | some b => if r.1 < b.1 then some r else some b) none

/-- A waiting `grow` completes: with its steps and Q6 0, or without change and Q6 1 (R170). -/
def finishGrow (s : State) (core : Nat) (r : Nat × Nat × Nat) (granted : Bool) : State :=
  let s := s.updGroup core r.2.1 fun g =>
    let h := if granted then g.addSteps r.2.2 else g
    setQ h 6 (!granted)
  match s.group? core r.2.1 with
  | some g => passLanes s core r.2.1 (g.waiting fun w => w == .grow r.2.2 r.1) 4
  | none => s

/-- Grants the oldest request of a core if there is room for it (R170). A request that would pass 2,048 bytes by now completes with Q6 1. (in part DESIGN CHOICE, log entry 34) -/
def grantOldest (s : State) (core : Nat) : Option State :=
  match oldestGrow s core with
  | none => none
  | some r => match s.group? core r.2.1 with
    | none => none
    | some g =>
      if 8 < g.steps + r.2.2 then some (finishGrow s core r false)
      else if growRoom s g r.2.2 then some (finishGrow s core r true) else none

/-- `GROW_GRANT` (R170). -/
def execGrowGrant (core slot : Nat) (s : State) : Result := .next (onRunning s core slot fun _ => match oldestGrow s core with
  | some r => if r.2.1 = slot then (grantOldest s core).getD s else s
  | none => s)

/-- Whether every lane of a group that has not exited waits in `grow`, at a team or cluster barrier, or is parked (R171). -/
def Group.atImpasse (g : Group) : Bool :=
  g.lanes.all fun x => x.exited || x.parked.isSome || (match x.wait with
    | .grow _ _ | .barTeam | .barCl => true
    | _ => false)

/-- Whether a group waits in `grow`. -/
def Group.growing (g : Group) : Bool := g.lanes.any fun x => match x.wait with
  | .grow _ _ => true
  | _ => false

/-- The rank of a group (R171): the greatest is the lowest ranked. -/
def rankOf (s : State) (g : Group) : Nat :=
  let r := recordOf s g
  (r.bclass * 4294967296 * 32 + (linearOf s g * 32 + g.index)) * 64 + g.slot

/-- The lowest-ranked of some groups. -/
def lowestRanked (s : State) (gs : List Group) : Option Group :=
  gs.foldl (fun a g => match a with
    | none => some g
    | some b => if rankOf s b < rankOf s g then some g else some b) none

/-- Whether a group is held (R142). -/
def groupHeld (s : State) (g : Group) : Bool := meterHeld s (s.partOf g) 0

/-- The lowest-ranked waiting group of a core completes its request with Q6 1 (R171). -/
def failLowest (s : State) (core : Nat) (waiting : List Group) : State :=
  match lowestRanked s waiting with
  | none => s
  | some g => match (growRequests s core).find? fun r => r.2.1 == g.slot with
    | some r => finishGrow s core r false
    | none => s

/-- `ALLOCATOR_IMPASSE` (R171): the lowest-ranked waiting group that is active is demoted and the grants are tried again; while there is none,
the lowest-ranked completes its request with Q6 1. (in part DESIGN CHOICE, log entry 34) -/
def execAllocatorImpasse (core : Nat) (s : State) : Result := .next (
  let here := s.groups.filter fun g => g.core == core && !groupHeld s g
  let waiting := here.filter Group.growing
  if waiting.isEmpty || !(here.all fun g => g.atImpasse && teamRuns s g.team) || (grantOldest s core).isSome then s
  else
    let s := match lowestRanked s (waiting.filter fun g => g.active) with
      | some g => leaveActive s core g.slot
      | none => s
    (grantOldest s core).getD (failLowest s core waiting))

/-! ## The active set -/

/-- The groups of a quarter of a core. -/
def inQuarter (s : State) (core slot : Nat) : List Group :=
  s.groups.filter fun h => h.core == core && quarterOf h.slot == quarterOf slot

/-- Whether a group has room in the active set of its quarter (R156). -/
def activeRoom (s : State) (g : Group) : Bool :=
  let act := (inQuarter s g.core g.slot).filter fun h => h.active
  decide (act.length < 4) && decide ((act.map fun h => 32 * h.rsize).sum + 32 * g.rsize ≤ 65536)

/-- A group enters the active set. -/
def enterActive (s : State) (core slot : Nat) : State :=
  s.updGroup core slot fun g => { g with active := true, activeSince := s.time.cycle }

/-- A wait of the first item of R155. -/
def LaneWait.leaves (w : LaneWait) : Bool :=
  match w with
  | .limits _ _ _ _ _ _ | .join _ | .loopEnd _ | .barTeam | .barCl | .tumbler _ _ _ _ | .time _ | .grow _ _ => true
  | _ => false

/-- Whether a lane waits in `wtime` for a target at most 500 ns away (R429). (in part DESIGN CHOICE, log entry 33) -/
def Lane.nearTime (x : Lane) (now : Nat) : Bool :=
  match x.wait with
  | .time t => decide (t ≤ now + 500)
  | _ => false

/-- Whether a group leaves the active set now (R156): every lane of it that has not exited waits or is parked, or it has been active for
1,024 cycles while a pending group of its quarter has an unblocked lane. The current group of deterministic mode never leaves. (in part DESIGN CHOICE, log entry 33) -/
def mayLeave (s : State) (g : Group) : Bool :=
  g.active && !(detmOf s g && g.current) &&
    ((g.lanes.all (fun x => x.exited || x.parked.isSome || (x.wait.leaves && !g.laneUnblocked x)) && !g.lanes.any fun x => x.nearTime s.time.now) ||
     (decide (g.activeSince + 1024 ≤ s.time.cycle) && rivalWaits s g))

/-- `ACTIVE_SET_ROTATE` (R156). (in part DESIGN CHOICE, log entry 34) -/
def execActiveSetRotate (core slot : Nat) (s : State) : Result := .next (onRunning s core slot fun g =>
  if mayLeave s g then leaveActive s core slot else s)

/-- Whether a pending group may enter (R156): it has an unblocked lane, and there is room; groups enter in the order in which they became
ready. (in part DESIGN CHOICE, log entry 34) -/
def mayEnter (s : State) (g : Group) : Bool :=
  let rivals := (inQuarter s g.core g.slot).filter fun h => !h.active && h.unblocked && teamRuns s h.team && !h.isAt g.core g.slot
  !g.active && g.unblocked && activeRoom s g && rivals.all fun h => g.readyAt < h.readyAt || (decide (g.readyAt = h.readyAt) && decide (g.slot < h.slot))

/-- `GROUP_ENTER_ACTIVE` (R156). (in part DESIGN CHOICE, log entry 34) -/
def execGroupEnterActive (core slot : Nat) (s : State) : Result := .next (onRunning s core slot fun g =>
  if mayEnter s g then enterActive s core slot else s)

/-- Displaces active groups of a quarter, longest active first, until a group has room (R429). -/
def makeRoom : Nat → State → Group → State
  | 0, s, _ => s
  | n + 1, s, g =>
    if activeRoom s g then s
    else
      let act := (inQuarter s g.core g.slot).filter fun h => h.active && !(detmOf s h && h.current)
      match act.foldl (fun a h => match a with
        | none => some h
        | some b => if h.activeSince < b.activeSince then some h else some b) (none : Option Group) with
      | none => s
      | some h => makeRoom n (leaveActive s h.core h.slot) g

/-- Whether a pending group waits in `wtime` for a target at most 500 ns away (R429). -/
def preentryDue (s : State) (g : Group) : Bool := !g.active && g.lanes.any fun x => x.live && x.parked.isNone && x.nearTime s.time.now

/-- `WTIME_PREENTRY` (R429). -/
def execWtimePreentry (core slot : Nat) (s : State) : Result := .next (onRunning s core slot fun g =>
  if preentryDue s g then
    let s := makeRoom 4 s g
    if activeRoom s g then enterActive s core slot else s
  else s)

/-! ## The end of a group -/

/-- Whether a group has ended (R428): its lanes stand in it and have exited, and every counter entry is zero. -/
def Group.ended (g : Group) : Bool :=
  g.lanes.all fun x => x.exited && x.home.isNone && x.ld == 0 && x.st == 0 && x.cp == 0 && x.mx == 0

/-- A team whose last group has ended is DONE (R137): its resources are free, and its grid counts it. -/
def endTeam (s : State) (t : Team) : State :=
  settleVacated { s with
    teams := s.teams.filter fun u => u.id != t.id
    images := s.images.filter fun i => i.team != t.id
    fwd := s.fwd.filter fun f => f.team != t.id
    grids := s.grids.map fun g => if g.id == t.grid then { g with teamsDone := g.teamsDone + 1 } else g }

/-- `GROUP_END` (R428). (in part DEDUCED, log entry 71) -/
def execGroupEnd (core slot : Nat) (s : State) : Result := .next (match s.group? core slot with
  | none => s
  | some g =>
    match s.teamOf g with
    | none => s
    | some t =>
      if g.ended && t.state = .placed && t.db = .idle then
        let s := noteVacant { s with groups := s.groups.filter fun h => !h.isAt core slot } core
        let s := s.updTeam t.id fun u => { u with slots := u.slots.filter fun n => n != slot }
        if (s.groupsOf t.id).isEmpty then endTeam s t else testKeys s t.id
      else s)

/-! ## Asynchronous errors -/

/-- `ASYNC_ERROR_DELIVERY` (R330, R331): ASYNC is set, and EPC is the lane's program counter. An error of class 0 that waits for the lane's
boundary parks it first (R323, R478). (in part DEDUCED, log entry 16) (in part DEDUCED, log entry 67) -/
def execAsyncErrorDelivery (core slot lane : Nat) (s : State) : Result := .next (onRunning s core slot fun _ =>
  let x := s.lane core slot lane
  if x.takesLate then parkLate s core slot lane
  else match x.firstPend with
  | none => s
  | some (c, p) =>
    if x.takesPend then
      trapEnter (s.updLane core slot lane fun y => { y with pend := y.pend.set c none }) core slot p.cause (p.info ||| 2)
        [⟨lane, x.pc, p.val, p.token⟩]
    else s)

/-! ## Compaction -/

/-- The slot that a reference to lane `l` names after slots `a` and `b` have exchanged that lane. -/
def swapSlot (core a b l c t k : Nat) : Nat :=
  if c = core && k = l then (if t = a then b else if t = b then a else t) else t

/-- A place after the exchange. -/
def swapPlace (core a b l : Nat) (p : Place) : Place :=
  match p with
  | .slice c t k o => .slice c (swapSlot core a b l c t k) k o
  | p => p

/-- The slot of a list of lanes after the exchange; the list names lane `l` alone or does not name it. -/
def swapList (core a b l c t : Nat) (ls : List Nat) : Nat :=
  match ls with
  | [k] => swapSlot core a b l c t k
  | _ => t

/-- The memory system after two slots have exchanged lane `l` (R279): results go to the lane's registers wherever they stand. -/
def swapMem (core a b l : Nat) (m : MemSys) : MemSys :=
  { m with
    sb := m.sb.map fun e => { e with slot := swapList core a b l e.core e.slot e.lanes }
    flights := m.flights.map fun f =>
      { f with
        slot := swapList core a b l f.core f.slot f.lanes
        reads := f.reads.map fun r => { r with place := swapPlace core a b l r.place } } }

/-- The units after the exchange. -/
def swapUnits (core a b l : Nat) (r : Render) : Render :=
  { r with
    pixels := r.pixels.map fun p => { p with slot := swapSlot core a b l p.core p.slot p.lane }
    rays := r.rays.map fun x => match x.owner with
      | .lane c t k => { x with owner := .lane c (swapSlot core a b l c t k) k }
      | _ => x
    marches := r.marches.map fun m => { m with slot := swapSlot core a b l m.core m.slot m.lane }
    walks := r.walks.map fun w => { w with slot := swapSlot core a b l w.core w.slot w.lane }
    tiles := r.tiles.map fun t =>
      { t with rows := t.rows.map fun w => { w with slot := swapSlot core a b l w.core w.slot w.lane } } }

/-- A lane that moves to slot `to_` from slot `from_`: its home is its first slot, or none when it is back. -/
def Lane.movedTo (x : Lane) (from_ to_ : Nat) : Lane :=
  { x with
    home := match x.home with
      | none => some from_
      | some h => if h = to_ then none else some h
    wait := match x.wait with
      | .cohort _ | .limits _ _ _ _ _ _ => .none
      | w => w }

/-- Exchanges lane `l` of two groups (R278). (in part DESIGN CHOICE, log entry 36) -/
def swapLanes (s : State) (core a b l : Nat) : State :=
  let x := s.lane core a l
  let y := s.lane core b l
  let s := (s.updLane core a l fun _ => y.movedTo b a).updLane core b l fun _ => x.movedTo a b
  { s with
    ms := swapMem core a b l s.ms
    render := swapUnits core a b l s.render
    sramPoison := s.sramPoison.map (swapPlace core a b l) }

/-- Takes a swapped lane back to its home (R278). (in part DESIGN CHOICE, log entry 36) -/
def swapBack (s : State) (core slot l : Nat) : State :=
  match (s.lane core slot l).home with
  | none => s
  | some h => swapLanes s core slot h l

/-- Whether something names lane `l` of a slot together with other lanes, or an engine's command names it: then it is not swapped. -/
def sharedWork (s : State) (core slot l : Nat) : Bool :=
  (s.ms.flights.any fun f => f.core == core && f.slot == slot && f.lanes.contains l && decide (1 < f.lanes.length)) ||
  (s.ms.sb.any fun e => e.core == core && e.slot == slot && e.lanes.contains l && decide (1 < e.lanes.length)) ||
  s.eng.cmds.any fun c => match c.issuer with
    | .group k t ls => k == core && t == slot && ls.contains l
    | _ => false

/-- Whether a lane has exited, or waits at a calling ray that has no call pending (R278). -/
def makesPlace (s : State) (x : Lane) : Bool :=
  x.exited || (match x.wait with
    | .ray id => x.parked.isNone && s.render.rays.any fun r => r.id == id && (r.state == .walk)
    | _ => false)

/-- The lanes of a group in shader state at an address. -/
def Group.shadersAt (g : Group) (pc : Word64) : Nat := (g.lanes.filter fun x => x.live && x.shader && decide (x.pc = pc)).length

/-- Whether `h` hosts lanes in shader state at an address before `g` does (R278): it has more of them, or as many and a lower slot. (in part DESIGN CHOICE, log entry 36) -/
def hostsBefore (h g : Group) (pc : Word64) : Bool :=
  decide (g.shadersAt pc < h.shadersAt pc) || (decide (g.shadersAt pc = h.shadersAt pc) && decide (h.slot < g.slot))

/-- Whether lane `l` of `g`, in shader state, may be swapped with lane `l` of the host `h` (R278). (in part DESIGN CHOICE, log entry 36) -/
def mayCompact (s : State) (g h : Group) (l : Nat) : Bool :=
  let x := g.lane l
  let y := h.lane l
  decide (g.slot ≠ h.slot) && g.team == h.team && quarterOf g.slot == quarterOf h.slot && g.steps == h.steps && g.vbase == h.vbase &&
    g.tbase == h.tbase && g.abase == h.abase && x.live && x.shader && x.parked.isNone && decide (x.wait = .none) && x.home.isNone && y.home.isNone &&
    makesPlace s y && decide (0 < h.shadersAt x.pc) && hostsBefore h g x.pc &&
    ((s.groupsOf g.team).all fun k => k.slot == h.slot || !decide (quarterOf k.slot = quarterOf h.slot) || !hostsBefore k h x.pc) &&
    !sharedWork s g.core g.slot l && !sharedWork s h.core h.slot l

/-- `LANE_SWAP` (R278): a lane of the first slot in shader state goes to the second. A lane that is swapped goes back where it must. (in part DESIGN CHOICE, log entry 36) -/
def execLaneSwap (core sa sb lane : Nat) (s : State) : Result := .next (onRunning s core sa fun g => onRunning s core sb fun h =>
  if (g.lane lane).home = some sb && !(g.lane lane).shader then swapBack s core sa lane
  else if mayCompact s g h lane then swapLanes s core sa sb lane else s)

end Sys2Proof.Machine
end

