-- ==== Sys2Proof/Machine/Engine.lean ====
section
/-!
DEFINITION. What every engine shares (R115 to R125, R430, R477): command blocks and their checks, chains and their descriptors, error
records, halts and failures, pauses (R91), the completion of a command, and the addresses that engines use (R182).
-/
namespace Sys2Proof.Machine

/-! ## Engines -/

/-- KIND of a descriptor (R115). -/
def EngKind.code : EngKind → Nat
  | .copy => 0 | .collective => 1 | .strainer => 2 | .matrix => 3

/-- The engine kind of a descriptor's KIND (R115). -/
def kindOf (c : Nat) : Option EngKind :=
  match c with
  | 0 => some .copy | 1 => some .collective | 2 => some .strainer | 3 => some .matrix | _ => none

/-- An engine that no command has yet. -/
def noEngine : Nat := 65535

/-- The die of an engine (R80): 16 copy engines, eight collective engines and 36 Strainers a die, and one matrix engine a core. -/
def engDie (k : EngKind) (e : Nat) : Nat :=
  match k with
  | .copy => e / 16 | .collective => e / 8 | .strainer => e / 36 | .matrix => dieOfCore e

/-- UNIT of a record (R91): a matrix engine's here is that of a chain job. -/
def engUnit (k : EngKind) (e : Nat) : Nat :=
  match k with
  | .copy => e | .collective => 64 + e | .strainer => 128 + e | .matrix => 224

/-- CORE of a record (R91). -/
def engCore (k : EngKind) (e : Nat) : Nat :=
  match k with
  | .matrix => e | _ => 0xFFFF

/-- The path of an engine's accesses (R201). -/
def engPath (k : EngKind) : Nat :=
  match k with
  | .copy => 1 | .collective => 4 | .strainer => 6 | .matrix => 2

/-- The budget class of an engine's work (R140). -/
def engClass (k : EngKind) : Nat :=
  match k with
  | .copy => 2 | .collective => 2 | .strainer => 3 | .matrix => 1

/-- The quad of a core (R80): of the module, 36 a die. -/
def quadOf (core : Nat) : Nat := core / 4

/-- Whether a partition owns an engine (R80, R82). -/
def ownsEngine (u : Setup) (k : EngKind) (e : Nat) : Bool :=
  match k with
  | .copy => u.cpymask.testBit e
  | .collective => u.colmask.testBit e
  | .strainer => if e < 36 then u.qmask0.testBit e else u.qmask1.testBit (e - 36)
  | .matrix => if e < 144 then u.qmask0.testBit (e / 4) else u.qmask1.testBit ((e - 144) / 4)

/-- Every engine of a kind on a die. -/
def enginesOn (k : EngKind) (die : Nat) : List Nat :=
  match k with
  | .copy => (List.range 16).map (· + 16 * die)
  | .collective => (List.range 8).map (· + 8 * die)
  | .strainer => (List.range 36).map (· + 36 * die)
  | .matrix => (List.range 144).map (· + 144 * die)

/-- The one of some engines with the least load, the lowest on a tie. (in part DEDUCED, log entry 38) -/
def leastLoaded (load : Nat → Nat) (es : List Nat) : Option Nat :=
  es.foldl (fun a e => match a with
    | none => some e
    | some b => if load e < load b then some e else some b) none

/-- Commands that an engine holds. -/
def cmdsAt (s : State) (k : EngKind) (e : Nat) : Nat := (s.eng.cmds.filter fun c => c.kind == k && c.engine == e).length
/-- Chains that an engine serves. -/
def chainsAt (s : State) (k : EngKind) (e : Nat) : Nat := (s.eng.chains.filter fun c => c.kind == k && c.engine == e && c.attached).length

/-- The partition's engine of a kind on a die, or on the other die, that holds the fewest commands (R432). (in part DEDUCED, log entry 38) -/
def pickEngine (s : State) (p die : Nat) (k : EngKind) : Option Nat :=
  let own (d : Nat) : List Nat := (enginesOn k d).filter (ownsEngine (s.part p).setup k)
  match leastLoaded (cmdsAt s k) (own die) with
  | some e => some e
  | none => leastLoaded (cmdsAt s k) (own (1 - die))

/-! ## Commands and chains -/

/-- A command by its identifier. -/
def State.cmd? (s : State) (id : Nat) : Option EngCmd := s.eng.cmds.find? fun c => c.id == id
/-- Changes a command. -/
def State.updCmd (s : State) (id : Nat) (f : EngCmd → EngCmd) : State :=
  { s with eng := { s.eng with cmds := s.eng.cmds.map fun c => if c.id == id then f c else c } }
/-- Whether a command waits for a replay (R91), is frozen with its team, which is saved (R219), or is stopped by a thermal trip (R52). -/
def EngCmd.stopped (s : State) (c : EngCmd) : Bool :=
  s.therm.trip || c.paused.isSome || (match c.issuer with
    | .group core _ _ => decide (savedBase ≤ core)
    | _ => false)
/-- A chain by its identifier. -/
def State.chain? (s : State) (id : Nat) : Option Chain := s.eng.chains.find? fun c => c.id == id
/-- Changes a chain. -/
def State.updChain (s : State) (id : Nat) (f : Chain → Chain) : State :=
  { s with eng := { s.eng with chains := s.eng.chains.map fun c => if c.id == id then f c else c } }
/-- The stream of a partition. -/
def State.stream? (s : State) (p st : Nat) : Option Stream := (s.part p).streams.find? fun x => x.num == st
/-- Changes a stream. -/
def State.updStream (s : State) (p st : Nat) (f : Stream → Stream) : State :=
  s.updPart p fun q => { q with streams := q.streams.map fun x => if x.num == st then f x else x }
/-- A graph by its identifier. -/
def State.graph? (s : State) (id : Nat) : Option Graph := s.graphs.find? fun g => g.id == id
/-- Changes a graph. -/
def State.updGraph (s : State) (id : Nat) (f : Graph → Graph) : State :=
  { s with graphs := s.graphs.map fun g => if g.id == id then f g else g }

/-- Who an engine translates for. -/
def whoEngine (k : EngKind) (e p : Nat) : Who :=
  ⟨if e = noEngine then 0 else engDie k e, match k with | .matrix => some e | _ => none, p, engPath k, false⟩

/-- Who a command translates for. -/
def EngCmd.who (c : EngCmd) : Who := whoEngine c.kind c.engine c.part

/-- The stream of a grid's group, 0xFFFF when none. -/
def issuerStream (s : State) (i : Issuer) : Nat :=
  match i with
  | .packet st _ _ => st
  | .chain id => (s.chain? id).bind Chain.stream |>.getD 0xFFFF
  | .node g _ => ((s.graph? g).map Graph.stream).getD 0xFFFF
  | .group core slot _ => match s.group? core slot with
    | some g => s.streamOf g
    | none => 0xFFFF

/-! ## Error records -/

/-- The fields of an error record (R122), and the stream or engine index by which its log entry names the writer. -/
structure ErrRec where
  addr : Nat
  pos : Nat
  code : Nat
  src : Nat
  unit : Nat
  part : Nat
  offset : Nat
  stream : Nat
  head32 : List Byte
  index : Nat
  deriving DecidableEq, Repr

/-- The 64 bytes of an error record (R122). -/
def ErrRec.bytes (r : ErrRec) (now : Nat) : List Byte :=
  bytesOfNum 8 now ++ bytesOfNum 8 r.addr ++ bytesOfNum 8 r.pos ++ bytesOfNum 1 r.code ++ bytesOfNum 1 r.src ++ bytesOfNum 1 r.unit ++
    bytesOfNum 1 r.part ++ bytesOfNum 2 r.offset ++ bytesOfNum 2 r.stream ++ (r.head32 ++ List.replicate 32 0).take 32

/-- The places of `n` bytes at a `.gm` address, one for each 64 KiB page, or the first fault. The first argument bounds the pages. -/
def unitPlaces : Nat → State → Who → Acc → Nat → Nat → State × Except (Nat × Nat × Nat) (List (Place × Nat))
  | 0, s, _, _, _, _ => (s, .ok [])
  | fuel + 1, s, w, acc, a, n =>
    if n = 0 then (s, .ok [])
    else
      let k := min n (65536 - a % 65536)
      match translate s w acc a with
      | (s, .fault c lv) => (s, .error (c, lv, a))
      | (s, .ok p) => match unitPlaces fuel s w acc (a + k) (n - k) with
        | (s, .ok ps) => (s, .ok ((p, k) :: ps))
        | r => r

/-- The places of a span. -/
def spanPlaces (s : State) (w : Who) (acc : Acc) (a n : Nat) : State × Except (Nat × Nat × Nat) (List (Place × Nat)) :=
  unitPlaces (n / 65536 + 2) s w acc a n

/-- Writes bytes over places in order, for a unit, from an address on. -/
def writeSpan (s : State) (k : UnitWrite) (a : Nat) : List (Place × Nat) → List Byte → State
  | [], _ => s
  | (p, n) :: rest, bs => writeSpan (unitWrite s k a p (bs.take n)) k (a + n) rest (bs.drop n)

/-- A read of a unit of any length, page by page. The first argument bounds the pages. -/
def unitSpan : Nat → State → Nat → Who → Acc → Nat → Nat → State × UnitData
  | 0, s, _, _, _, _, _ => (s, .data [])
  | fuel + 1, s, owner, w, acc, a, n =>
    if n = 0 then (s, .data [])
    else
      let k := min n (65536 - a % 65536)
      match unitReadPage s owner w none acc a k with
      | (s, .data b) => match unitSpan fuel s owner w acc (a + k) (n - k) with
        | (s, .data bs) => (s, .data (b ++ bs))
        | r => r
      | r => r

/-- A read of a unit of any length. -/
def readSpan (s : State) (owner : Nat) (w : Who) (a n : Nat) : State × UnitData := unitSpan (n / 65536 + 2) s owner w .read a n

/-- Writes an error record, for an address other than 0. A record that cannot be written is logged (R122). (in part DEDUCED, log entry 44) -/
def putError (s : State) (w : Who) (erraddr : Nat) (r : ErrRec) : State :=
  if erraddr = 0 then s
  else match spanPlaces s { w with quiet := true } .write erraddr 64 with
    | (s, .ok ps) =>
      if ps.any fun p => (readPlace s p.1 p.2).2 then logEvent s .unwritableRecord 3 (logSource w.die 2) r.part r.index erraddr
      else writeSpan s (UnitWrite.plain none w) erraddr ps (r.bytes s.time.now)
    | (s, .error _) => logEvent s .unwritableRecord 3 (logSource w.die 2) r.part r.index erraddr

/-! ## Halts and failures -/

/-- Who a chain translates for. -/
def Chain.who (ch : Chain) : Who := whoEngine ch.kind ch.engine ch.part

/-- A chain pauses on a fault at its descriptor or at a block (R119, R91). -/
def pauseChain (s : State) (ch : Chain) (cause level addr acc : Nat) : State :=
  let (s, p) := pauseUnit s ch.part ⟨addr, 0, engCore ch.kind ch.engine, engUnit ch.kind ch.engine, cause, acc + 4 * engPath ch.kind, level,
    ch.stream.getD 0xFFFF, 0, 0⟩
  s.updChain ch.id fun c => { c with paused := some p }

/-- A write of a chain's engine to its descriptor, a release at the descriptor's SCOPE (R117). -/
def Chain.write (ch : Chain) : UnitWrite := { UnitWrite.plain (some ch.id) ch.who with release := some ch.scope }

/-- Writes a field of a chain's descriptor. Where its page faults, the chain pauses and the write waits for the replay (R91, R119); the writes
after it wait with it. (in part DEDUCED, log entry 41) -/
def writeDesc (s : State) (ch : Chain) (off : Nat) (bs : List Byte) : State :=
  let owe (s : State) : State := s.updChain ch.id fun c => { c with owed := c.owed ++ [(off, bs)] }
  match s.chain? ch.id with
  | none => s
  | some now =>
    if !now.owed.isEmpty then owe s
    else match spanPlaces s ch.who .write (ch.desc + off) bs.length with
      | (s, .ok ps) => writeSpan s ch.write (ch.desc + off) ps bs
      | (s, .error (cause, lv, a)) => pauseChain (owe s) ch cause lv a 1

/-- The writes that a chain owes to its descriptor are made, in order, once its fault is replayed. -/
def payDesc (s : State) (ch : Chain) : State :=
  ch.owed.foldl (fun s x => writeDesc s ch x.1 x.2) (s.updChain ch.id fun c => { c with owed := [] })

/-- STATUS of a descriptor (R115). -/
def Chain.status (ch : Chain) : Nat := (if ch.halted then 1 else 0) + (if ch.attached then 2 else 0) + (if ch.needNext then 4 else 0)

/-- Whether a chain is the private chain of a copy, collective or Strainer node (R131). -/
def Chain.isPrivate (ch : Chain) : Bool := ch.node.isSome && decide (ch.kind ≠ .matrix)

/-- Marks work of a stream failed (R477, R336). -/
def failRef (s : State) (r : WorkRef) : State := failWork s fun x => x == r

/-- Aborts the graph of a failed node (R133): source 258 is raised in place of 259. -/
def abortGraph (s : State) (g : Nat) : State := (abortParts s [] [g]).2

/-- The record of a failed command of a packet or a node (R477). -/
def failRecord (s : State) (c : EngCmd) (st addr code off : Nat) (head32 : List Byte) : State :=
  match s.stream? c.part st with
  | none => s
  | some x => putError s c.who x.erraddr ⟨addr, x.head, code, 1 + c.kind.code, engUnit c.kind c.engine, c.part, off, st, head32, c.engine⟩

/-- The private chain of a node fails (R477): its record goes to the stream of the `GRAPH`, and the graph is aborted (R133). -/
def failPrivate (s : State) (ch : Chain) (g code off addr : Nat) (head32 : List Byte) : State :=
  let st := issuerStream s (.node g 0)
  let s := match s.stream? ch.part st with
    | none => s
    | some x => putError s ch.who x.erraddr
      ⟨addr, x.head, code, 1 + ch.kind.code, engUnit ch.kind ch.engine, ch.part, off, st, head32, ch.engine⟩
  raisePart (abortGraph s g) ch.part 258

/-- Halts a chain (R122): the error record, HALTED, and source 258. HEAD stays at the failed block and SEQ does not advance. (in part DEDUCED, log entry 41) -/
def haltChain (s : State) (id code off addr : Nat) (head32 : List Byte) : State :=
  match s.chain? id with
  | none => s
  | some ch => match ch.isPrivate, ch.node with
  | true, some (g, _) => failPrivate s ch g code off addr head32
  | _, _ =>
    let s := putError s ch.who ch.errAddr
      ⟨addr, ch.seq, code, 1 + ch.kind.code, engUnit ch.kind ch.engine, ch.part, off, 0xFFFF, head32, ch.engine⟩
    let s := match ch.running with
      | some c => dropCmd s c
      | none => s
    let ch := { ch with halted := true, running := none, paused := none }
    let s := s.updChain id fun _ => ch
    raisePart (writeDesc s ch 34 (bytesOfNum 1 ch.status)) ch.part 258

/-- A command fails (R122, R477): its chain halts, or its work ends without its decrement. -/
def failCmd (s : State) (c : EngCmd) (code off : Nat) : State :=
  match c.issuer with
  | .chain id => haltChain (dropCmd s c.id) id code off c.blockAddr c.head32
  | .packet st addr h =>
    raisePart (failRef (failRecord (dropCmd s c.id) c st addr code off h) (.command c.id)) c.part 258
  | .node g _ =>
    let s := failRecord (dropCmd s c.id) c (issuerStream s c.issuer) c.blockAddr code off c.head32
    raisePart (abortGraph s g) c.part 258
  | .group core slot ls => raisePart (countDown (dropCmd s c.id) core slot ls .cp) c.part 258

/-- A command pauses on a translation fault (R91). -/
def pauseCmd (s : State) (c : EngCmd) (cause level addr acc : Nat) : State :=
  let (s, p) := pauseUnit s c.part ⟨addr, 0, engCore c.kind c.engine, engUnit c.kind c.engine, cause, acc + 4 * engPath c.kind, level,
    issuerStream s c.issuer, 0, 0⟩
  s.updCmd c.id fun c => { c with paused := some p }

/-- The physical address that the end of a walk names for an address: through its leaf, one that the walk refuses for the place of its page
included. -/
def WalkEnd.names (e : WalkEnd) (va : Nat) : Option Nat :=
  match e with
  | .leaf phys size _ _ => some (phys + va % size)
  | .fault 3 lv x => if x % 16 / 8 = 1 && x % 2 = 1 && lv < 4 then some (entryAddr x + va % 2 ^ pageBits lv) else none
  | .fault _ _ _ => none

/-- The physical address that a `.gm` address names for a partition, where it names one. -/
def physOf (s : State) (p die va : Nat) : Option Nat :=
  if 2 ^ 63 ≤ va then none
  else if 2 ^ 62 ≤ va then (if va / 2 ^ 52 % 1024 = s.links.modid then some (va % 2 ^ 52) else none)
  else if 2 ^ 48 ≤ va then none
  else (walk s p die va).names va

/-- Whether an address lies outside every region, or in the window of a down CXL memory port (R70): an engine halts there. (in part DEDUCED, log entry 38) -/
def badRegion (s : State) (p die va : Nat) : Bool :=
  match physOf s p die va with
  | none => false
  | some a => match regionOf s.links a with
    | .outside => true
    | .cxlDown _ => true
    | _ => false

/-- What a fault of an engine's access does (R28, R70, R91): the code of a halt, or none for a pause. (in part DEDUCED, log entry 38) -/
def haltCode (s : State) (p die cause addr : Nat) : Option Nat :=
  if badRegion s p die addr then some 8 else if cause = 5 then some 7 else none

/-- A command's access faults: it fails, or it pauses. `off` is the byte of its block that named the address. -/
def cmdFault (s : State) (c : EngCmd) (cause level addr acc off : Nat) : State :=
  match haltCode s c.part c.who.die cause addr with
  | some code => failCmd s c code off
  | none => pauseCmd s c cause level addr acc

/-! ## Fields and codes -/

/-- Byte `i` of a block. -/
def byteAt (b : List Byte) (i : Nat) : Nat := (b.getD i 0).toNat
/-- `n` bytes of a block as a number. -/
def fieldAt (b : List Byte) (i n : Nat) : Nat := numOfBytes ((List.range n).map fun k => b.getD (i + k) 0)

/-- The codes of R123. -/
def errRsvd : Nat := 1
def errType : Nat := 2
def errAlign : Nat := 3
def errRange : Nat := 4
def errLink : Nat := 5
def errKind : Nat := 6
def errPoison : Nat := 7
def errFault : Nat := 8
def errParent : Nat := 9
def errDepth : Nat := 10
def errShape : Nat := 11
def errNest : Nat := 12
def errFormat : Nat := 13

/-! ## Completion -/

/-- What a decrement meets. -/
inductive Decrement
  | done (s : State)
  | pending (s : State)
  | fault (s : State) (cause level : Nat)

/-- The flight of a completion decrement (R107), a release at its scope; `owner` is told of its answer. -/
def decrementFlight (owner : Option Nat) (w : Who) (a scope : Nat) : Flight :=
  { unitFlight 0 w a none with scope := scope, release := true, engine := owner }

/-- A completion decrement (R106, R107) of work of a partition by an agent; a fault is told. One at `domain` or wider waits for the writes that
other modules and the host have still to acknowledge (R212), one whose traffic is held waits (R142), and one that leaves the die has been
performed once its answer has come to `owner`. -/
def completionDecrement (s : State) (owner : Nat) (w : Who) (tumb amount scope : Nat) : Decrement :=
  if tumb = 0 then .done s
  else match translate s w .atomic tumb with
    | (s, .fault c lv) => .fault s c lv
    | (s, .ok p) =>
      match arrivedFor s owner p 0 with
      | some x => if x.cause = 0 then .done (dropArrived s owner) else .fault (dropArrived s owner) x.cause 0
      | none =>
        if unitBusy s owner || (decide (8 ≤ scope) && outsideWrites s w.part) || placeHeld s w.part w.die p then .pending s
        else if s.links.reach w.die p = .here then
          (if (readPlace s p 8).2 then .fault s 5 0 else .done (decrementAt s p amount))
        else .pending (startDecrement s (decrementFlight (some owner) w p.key scope) amount p true)

/-- A packet's work is complete (R103): it leaves its stream's list, and source s is raised when IRQ asks for it. -/
def workDone (s : State) (p st : Nat) (r : WorkRef) : State :=
  match s.stream? p st with
  | none => s
  | some x =>
    let irq := x.work.any fun w => w.ref == r && w.irq
    let s := s.updStream p st fun x => { x with work := x.work.filter fun w => w.ref != r }
    if irq then raisePart s p st else s

/-- A read of a chain faults: it halts (R122) or pauses. -/
def chainFault (s : State) (ch : Chain) (cause level addr blockAddr : Nat) : State :=
  let s := dropArrived s ch.id
  match haltCode s ch.part ch.who.die cause addr with
  | some code => haltChain s ch.id code 0 blockAddr []
  | none => pauseChain s ch cause level addr 0

/-- A read of a chain's engine; `k` acts on the bytes. -/
def chainRead (s : State) (ch : Chain) (a n blockAddr : Nat) (k : State → List Byte → State) : State :=
  match readSpan s ch.id ch.who a n with
  | (s, .pending) => s
  | (s, .fault cause lv b) => chainFault s ch cause lv b blockAddr
  | (s, .data b) => k s b

/-- Whether an address can be a block's: not zero, and 64-byte aligned (R118). (in part DEDUCED, log entry 37) -/
def blockAddrOk (a : Nat) : Bool := decide (a ≠ 0) && decide (a % 64 = 0)

/-- Reads NEXT from the last completed block into HEAD (R117, R118); `k` goes on with the chain. -/
def readNext (s : State) (ch : Chain) (k : State → Chain → State) : State :=
  chainRead s ch ch.head 32 ch.head fun s h =>
    let next := fieldAt h 0 8
    let s := dropArrived s ch.id
    if !blockAddrOk next then haltChain s ch.id errLink 0 ch.head h
    else
      let ch := { ch with head := next, needNext := false }
      let s := s.updChain ch.id fun _ => ch
      k (writeDesc (writeDesc s ch 0 (bytesOfNum 8 next)) ch 34 (bytesOfNum 1 ch.status)) ch

/-- A chain goes on after a completed block (R117): SEQ, then NEXT into HEAD while TAIL is greater, or NEEDNEXT. (in part DEDUCED, log entry 41) -/
def advanceChain (s : State) (id : Nat) : State :=
  match s.chain? id with
  | none => s
  | some ch =>
    let ch := { ch with seq := ch.seq + 1, running := none, needNext := true }
    let s := s.updChain id fun _ => ch
    let s := writeDesc s ch 16 (bytesOfNum 8 ch.seq)
    match s.chain? id with
    | none => s
    | some ch => if ch.seq < ch.tail && ch.owed.isEmpty then readNext s ch fun s _ => s else writeDesc s ch 34 (bytesOfNum 1 ch.status)

/-- Whether the release of SEQ after a command waits (R117, R212). -/
def seqWaits (s : State) (c : EngCmd) : Bool :=
  match c.issuer with
  | .chain id => (s.chain? id).any fun ch => decide (8 ≤ ch.scope) && outsideWrites s c.part
  | _ => false

/-- A copy whose last write has been performed leaves the range scoreboard (R183). -/
def retireRanges (s : State) (id : Nat) : State :=
  { s with ms := { s.ms with ranges := s.ms.ranges.filter fun r => r.cmd != id } }

/-- A command whose last write has been performed completes (R102, R117, R120, R215): its decrement, then its issuer. -/
def completeCmd (s : State) (c : EngCmd) : State :=
  let s := retireRanges s c.id
  if !unitBusy s c.id && seqWaits s c then s
  else match (if c.tdec then completionDecrement s c.id c.who c.tumb c.amount c.tscope else .done s) with
  | .pending s => s
  | .fault s cause lv => cmdFault s c cause lv c.tumb 2 16
  | .done s =>
    let s := dropCmd s c.id
    match c.issuer with
    | .chain id => advanceChain s id
    | .packet st _ _ => workDone s c.part st (.command c.id)
    | .node _ _ => s
    | .group core slot ls => countDown s core slot ls .cp

/-! ## Block checks -/

/-- A check of a block: an error code and the offset of the field, or nothing. -/
abbrev BlockCheck := Option (Nat × Nat)

/-- A check that fails unless a condition holds. -/
def need (ok : Bool) (code off : Nat) : BlockCheck := if ok then none else some (code, off)

/-- Bytes `lo` to `hi - 1` must be zero; the offset is the first that is not. -/
def zeros (b : List Byte) (lo hi : Nat) : BlockCheck :=
  ((List.range (hi - lo)).find? fun k => byteAt b (lo + k) ≠ 0).map fun k => (errRsvd, lo + k)

/-- The first check that fails. The checks stand in byte order. (in part DEDUCED, log entry 37) -/
def firstBad (l : List BlockCheck) : BlockCheck := l.findSome? id

/-- The header of a block (R116), from OP on, for `nops` operations and a length. -/
def headerChecks (b : List Byte) (nops len : Nat) : List BlockCheck :=
  [need (byteAt b 8 < nops) errType 8, need (byteAt b 9 = len) errRange 9, need (byteAt b 10 < 2) errRsvd 10,
   need (6 ≤ byteAt b 11 && byteAt b 11 ≤ 9) errRange 11, zeros b 12 16, need (fieldAt b 16 8 % 8 = 0) errAlign 16]

/-- The form of a LOCAL address (R182): SPACE and the reserved bits. Other addresses pass. -/
def localForm (a off : Nat) : BlockCheck :=
  need (a < 2 ^ 63 || (decide (a / 2 ^ 60 % 8 ∈ [1, 2, 3]) && decide (a / 2 ^ 32 % 2 ^ 28 = 0))) errRange off

/-- The checks of the halo tag in HTAG (R42): CONTENT is 0 or 1, and the bits above are zero. (in part DEDUCED, log entry 37) -/
def haloTagCheck (b : List Byte) : BlockCheck :=
  firstBad [need (byteAt b 86 / 16 % 4 < 2) errRange 86, need (byteAt b 86 < 64) errRsvd 86, zeros b 87 88]

/-- The checks of a copy block (R120), bytes 8 on. (in part DEDUCED, log entry 37) -/
def copyChecks (b : List Byte) : BlockCheck :=
  let op := byteAt b 32
  firstBad (headerChecks b 3 2 ++
    [need (op < 3 && op = byteAt b 8) errType 32, zeros b 33 36,
     need (1 ≤ fieldAt b 36 4 && fieldAt b 36 4 ≤ 2147483648) errRange 36,
     need (1 ≤ fieldAt b 40 4 && fieldAt b 40 4 ≤ 65536) errRange 40, zeros b 44 48,
     if op = 1 then none else localForm (fieldAt b 48 8) 48, localForm (fieldAt b 56 8) 56,
     if op = 2 then haloTagCheck b else zeros b 80 88, zeros b 88 128])

/-- The copy that a block asks for (R120). -/
def copyJobOf (b : List Byte) : CopyJob :=
  { op := byteAt b 32, rowBytes := fieldAt b 36 4, rows := fieldAt b 40 4, src := fieldAt b 48 8, dst := fieldAt b 56 8,
    sstride := fieldAt b 64 8, dstride := fieldAt b 72 8, htag := fieldAt b 80 8, row := 0, off := 0, recorded := false }

/-- Whether a collective takes a format (R230): one that adds takes FP32, FP16 and BF16, and one that moves takes every code. -/
def collFmtOk (op fmt : Nat) : Bool := if op < 2 then decide (fmt < 3) else decide (fmt < 14)

/-- The checks of a collective block (R121, R230), bytes 8 on. (in part DEDUCED, log entry 37) -/
def collChecks (b : List Byte) : BlockCheck :=
  let op := byteAt b 32
  firstBad (headerChecks b 4 2 ++
    [need (op < 4 && op = byteAt b 8) errType 32, need (byteAt b 33 < 3 && (op < 2 || byteAt b 33 = 0)) errRange 33,
     need (collFmtOk op (byteAt b 34)) errRange 34, zeros b 35 36,
     need (2 ≤ fieldAt b 36 4 && fieldAt b 36 4 ≤ 1024) errRange 36, localForm (fieldAt b 40 8) 40, localForm (fieldAt b 48 8) 48,
     localForm (fieldAt b 56 8) 56, need (byteAt b 34 ≠ 5 || fieldAt b 64 8 % 2 = 0) errRange 64,
     if op = 3 then need (fieldAt b 76 2 < fieldAt b 36 4) errRange 76 else zeros b 76 78, zeros b 78 128])

/-- The collective that a block asks for (R121). -/
def collJobOf (b : List Byte) : CollJob :=
  { op := byteAt b 32, red := byteAt b 33, fmt := byteAt b 34, nmem := fieldAt b 36 4, memtab := fieldAt b 40 8, src := fieldAt b 48 8,
    dst := fieldAt b 56 8, count := fieldAt b 64 8, attempt := fieldAt b 72 4, root := fieldAt b 76 2, self := 0, mods := [], next := 0, sent := false,
    got := [], heldMsgs := [], lastMsg := 0, src0 := [], written := 0 }

/-- The checks of a Strainer block (R304, R305): a pass has LEN 4 and an advance LEN 2. -/
def strainerJobOf (b : List Byte) : StrainJob :=
  { bytes := b, die := 0, frame := 0, tcols := 0, trows := 0, bandw := 0, halod := 0, words := [], pixels := [], work := none, results := [], sent := false }

/-! ## Addresses of engines -/

/-- The group of a command that a group issued (R182). -/
def issuerGroup (s : State) (i : Issuer) : Option Group :=
  match i with
  | .group core slot _ => s.group? core slot
  | _ => none

/-- The place of a LOCAL address (R182, R174), or an error: RANGE, or FAULT for a cluster member that is gone. -/
def localEng (s : State) (i : Issuer) (p va n : Nat) : Except Nat Place :=
  let sp := va / 2 ^ 60 % 8
  let a := va % 2 ^ 32
  let chk (g : Group) (space : Nat) : Except Nat Place :=
    match localPlace s g 0 space a, localPlace s g 0 space (a + n - 1) with
    | .ok x, .ok y => if y = x.plus (n - 1) then .ok x else .error errRange
    | .stale, _ => .error errFault
    | _, _ => .error errRange
  if sp = 3 then
    let q := s.part p
    let die := a / chipSize
    if a < 2 * chipSize && a % chipSize + n ≤ chipBytes q die then .ok (chipPlace q die (a % chipSize)) else .error errRange
  else match issuerGroup s i with
    | none => .error errRange
    | some g => chk g (if sp = 1 then spaceSp else spaceCl)

/-- The places of a chip scratchpad span, MiB by MiB (R178). -/
def chipSpan (q : Partition) (die : Nat) : Nat → Nat → Nat → List (Place × Nat)
  | 0, _, _ => []
  | fuel + 1, o, n =>
    if n = 0 then []
    else
      let k := min n (1048576 - o % 1048576)
      (chipPlace q die o, k) :: chipSpan q die fuel (o + k) (n - k)

/-- What an engine's address answers. -/
inductive EngPlaces
  | ok (ps : List (Place × Nat))
  | bad (code : Nat)
  | fault (cause level addr : Nat)

/-- Whether some places of the other die are out of reach, since no Hinge module is up (R34). -/
def beyondHinge (s : State) (w : Who) (ps : List (Place × Nat)) : Bool :=
  !hingeUp s.links && ps.any fun p => decide (p.1.reach w.die = .across)

/-- The places of a LOCAL address of an engine (R182). -/
def localPlaces (s : State) (c : EngCmd) (va n : Nat) : EngPlaces :=
  match localEng s c.issuer c.part va n with
  | .error e => .bad e
  | .ok p =>
    let a := va % 2 ^ 32
    let ps := if va / 2 ^ 60 % 8 = 3 then chipSpan (s.part c.part) (a / chipSize) (n / 1048576 + 2) (a % chipSize) n else [(p, n)]
    if beyondHinge s c.who ps then .fault 4 0 va else .ok ps

/-- The places of an engine's span (R182, R189). -/
def engPlaces (s : State) (c : EngCmd) (acc : Acc) (va n : Nat) : State × EngPlaces :=
  if 2 ^ 63 ≤ va then (s, localPlaces s c va n)
  else match spanPlaces s c.who acc va n with
    | (s, .ok ps) => (s, .ok ps)
    | (s, .error (cause, lv, a)) => (s, .fault cause lv a)

/-- A read of a unit at places in order, of bytes from an address on. -/
def readPlaces (s : State) (owner : Nat) (w : Who) (a : Nat) : List (Place × Nat) → State × UnitData
  | [] => (s, .data [])
  | (p, n) :: rest => match readAt s owner w none p a n with
    | (s, .data b) => match readPlaces s owner w (a + n) rest with
      | (s, .data bs) => (s, .data (b ++ bs))
      | r => r
    | r => r

/-- What an engine's read answers. -/
inductive EngData
  | data (bs : List Byte)
  | bad (code : Nat)
  | fault (cause level addr : Nat)
  | pending

/-- What a unit's read tells a command. -/
def UnitData.toEng : UnitData → EngData
  | .data b => .data b
  | .fault cause lv a => .fault cause lv a
  | .pending => .pending

/-- A read by a command of `n` bytes (R120): LOCAL or `.gm`. -/
def engRead (s : State) (c : EngCmd) (va n : Nat) : State × EngData :=
  if 2 ^ 63 ≤ va then
    match localPlaces s c va n with
    | .ok ps => let (s, d) := readPlaces s c.id c.who va ps; (s, d.toEng)
    | .bad e => (s, .bad e)
    | .fault cause lv a => (s, .fault cause lv a)
  else
    let (s, d) := readSpan s c.id c.who va n
    (s, d.toEng)

/-- Whether the traffic of some places is held for an engine (R142). -/
def engTrafficHeld (s : State) (c : EngCmd) (ps : List (Place × Nat)) : Bool := ps.any fun p => placeHeld s c.part c.who.die p.1

/-- The core and slot of the group that a command works for (R148); no group otherwise. -/
def cmdGroup (c : EngCmd) : Nat × Nat :=
  match c.issuer with
  | .group core slot _ => (core, slot)
  | _ => (0, noSlot)

/-- Writes of a command at checked places, from an address on. -/
def engWrite (s : State) (c : EngCmd) (a : Nat) (ps : List (Place × Nat)) (bs : List Byte) : State :=
  writeSpan s ⟨some c.id, c.who, (cmdGroup c).1, (cmdGroup c).2, none⟩ a ps bs

end Sys2Proof.Machine
end

