-- ==== Sys2Proof/Machine/LaneFloat.lean ====
section
/-!
DEFINITION. Lane float instructions (R376 to R382) and the transcendental pairs (R383).
-/
namespace Sys2Proof.Machine

/-! ## Shapes -/

/-- A packed pair: the function on element 0 and on element 1 (R376), with the flags of both. -/
def packed2 (f : Nat → Nat → Rounded) (a b : Word32) : Rounded :=
  let lo := f (a.toNat % 65536) (b.toNat % 65536)
  let hi := f (a.toNat / 65536) (b.toNat / 65536)
  ⟨lo.code + 65536 * hi.code, orFlags lo.flags hi.flags⟩

/-- V, V, V with flags. -/
def laneR2 (f : Word32 → Word32 → Rounded) (d a b : Nat) : LaneFn := fun g l x =>
  let r := f (srcV g l x a) (srcV g l x b)
  (dstV g x d (BitVec.ofNat 32 r.code), r.flags)

/-- V, V with flags. -/
def laneR1 (f : Word32 → Rounded) (d a : Nat) : LaneFn := fun g l x =>
  let r := f (srcV g l x a)
  (dstV g x d (BitVec.ofNat 32 r.code), r.flags)

/-- A two-operand operation of FP32 codes. -/
def single2 (f : Nat → Nat → Rounded) (a b : Word32) : Rounded := f a.toNat b.toNat

/-- A result that raises no flag. -/
def plain (c : Nat) : Rounded := ⟨c, noFlags⟩

/-- `fclamp` (R380). -/
def clampF32 (a b c : Nat) : Nat := fMin fmtFP32 (fMax fmtFP32 a b) c

/-- A transcendental (R383): the reproducible result, or the fast one outside deterministic mode. -/
def xfn (fast : Bool) (fn : Nat) (a b : Word32) : Rounded :=
  if fast then xFast fn a.toNat b.toNat else xReproducible fn a.toNat b.toNat

/-! ## Computations -/
/-- A + B, rounded once to nearest-even (R377). -/
def effFaddF32 (d a b : Nat) : LaneFn := laneR2 (single2 (fAdd fmtFP32)) d a b
/-- `FADD_F32`. -/
def execFaddF32 (gd : Guard) (d a b : Nat) (s : State) : Result := laneCompute s gd (formV d [a, b]) (effFaddF32 d a b)
/-- A − B, rounded once to nearest-even (R377). -/
def effFsubF32 (d a b : Nat) : LaneFn := laneR2 (single2 (fSub fmtFP32)) d a b
/-- `FSUB_F32`. -/
def execFsubF32 (gd : Guard) (d a b : Nat) (s : State) : Result := laneCompute s gd (formV d [a, b]) (effFsubF32 d a b)
/-- A × B, rounded once to nearest-even (R377). -/
def effFmulF32 (d a b : Nat) : LaneFn := laneR2 (single2 (fMul fmtFP32)) d a b
/-- `FMUL_F32`. -/
def execFmulF32 (gd : Guard) (d a b : Nat) (s : State) : Result := laneCompute s gd (formV d [a, b]) (effFmulF32 d a b)
/-- The lesser operand; a NaN is passed over (R378). -/
def effFminF32 (d a b : Nat) : LaneFn := laneR2 (single2 (fun x y => plain (fMin fmtFP32 x y))) d a b
/-- `FMIN_F32`. -/
def execFminF32 (gd : Guard) (d a b : Nat) (s : State) : Result := laneCompute s gd (formV d [a, b]) (effFminF32 d a b)
/-- The greater operand; a NaN is passed over (R378). -/
def effFmaxF32 (d a b : Nat) : LaneFn := laneR2 (single2 (fun x y => plain (fMax fmtFP32 x y))) d a b
/-- `FMAX_F32`. -/
def execFmaxF32 (gd : Guard) (d a b : Nat) (s : State) : Result := laneCompute s gd (formV d [a, b]) (effFmaxF32 d a b)
/-- The sign bit alone changes (R378). -/
def effFabsF32 (d a : Nat) : LaneFn := laneR1 (fun x => single2 (fun x _ => plain (fAbs fmtFP32 x)) x 0) d a
/-- `FABS_F32`. -/
def execFabsF32 (gd : Guard) (d a : Nat) (s : State) : Result := laneCompute s gd (formV d [a]) (effFabsF32 d a)
/-- The sign bit alone changes (R378). -/
def effFnegF32 (d a : Nat) : LaneFn := laneR1 (fun x => single2 (fun x _ => plain (fNeg fmtFP32 x)) x 0) d a
/-- `FNEG_F32`. -/
def execFnegF32 (gd : Guard) (d a : Nat) (s : State) : Result := laneCompute s gd (formV d [a]) (effFnegF32 d a)
/-- A + B, rounded once to nearest-even (R377). -/
def effFaddF16x2 (d a b : Nat) : LaneFn := laneR2 (packed2 (fAdd fmtFP16)) d a b
/-- `FADD_F16X2`. -/
def execFaddF16x2 (gd : Guard) (d a b : Nat) (s : State) : Result := laneCompute s gd (formV d [a, b]) (effFaddF16x2 d a b)
/-- A − B, rounded once to nearest-even (R377). -/
def effFsubF16x2 (d a b : Nat) : LaneFn := laneR2 (packed2 (fSub fmtFP16)) d a b
/-- `FSUB_F16X2`. -/
def execFsubF16x2 (gd : Guard) (d a b : Nat) (s : State) : Result := laneCompute s gd (formV d [a, b]) (effFsubF16x2 d a b)
/-- A × B, rounded once to nearest-even (R377). -/
def effFmulF16x2 (d a b : Nat) : LaneFn := laneR2 (packed2 (fMul fmtFP16)) d a b
/-- `FMUL_F16X2`. -/
def execFmulF16x2 (gd : Guard) (d a b : Nat) (s : State) : Result := laneCompute s gd (formV d [a, b]) (effFmulF16x2 d a b)
/-- The lesser operand; a NaN is passed over (R378). -/
def effFminF16x2 (d a b : Nat) : LaneFn := laneR2 (packed2 (fun x y => plain (fMin fmtFP16 x y))) d a b
/-- `FMIN_F16X2`. -/
def execFminF16x2 (gd : Guard) (d a b : Nat) (s : State) : Result := laneCompute s gd (formV d [a, b]) (effFminF16x2 d a b)
/-- The greater operand; a NaN is passed over (R378). -/
def effFmaxF16x2 (d a b : Nat) : LaneFn := laneR2 (packed2 (fun x y => plain (fMax fmtFP16 x y))) d a b
/-- `FMAX_F16X2`. -/
def execFmaxF16x2 (gd : Guard) (d a b : Nat) (s : State) : Result := laneCompute s gd (formV d [a, b]) (effFmaxF16x2 d a b)
/-- The sign bit alone changes (R378). -/
def effFabsF16x2 (d a : Nat) : LaneFn := laneR1 (fun x => packed2 (fun x _ => plain (fAbs fmtFP16 x)) x 0) d a
/-- `FABS_F16X2`. -/
def execFabsF16x2 (gd : Guard) (d a : Nat) (s : State) : Result := laneCompute s gd (formV d [a]) (effFabsF16x2 d a)
/-- The sign bit alone changes (R378). -/
def effFnegF16x2 (d a : Nat) : LaneFn := laneR1 (fun x => packed2 (fun x _ => plain (fNeg fmtFP16 x)) x 0) d a
/-- `FNEG_F16X2`. -/
def execFnegF16x2 (gd : Guard) (d a : Nat) (s : State) : Result := laneCompute s gd (formV d [a]) (effFnegF16x2 d a)
/-- A + B, rounded once to nearest-even (R377). -/
def effFaddBf16x2 (d a b : Nat) : LaneFn := laneR2 (packed2 (fAdd fmtBF16)) d a b
/-- `FADD_BF16X2`. -/
def execFaddBf16x2 (gd : Guard) (d a b : Nat) (s : State) : Result := laneCompute s gd (formV d [a, b]) (effFaddBf16x2 d a b)
/-- A − B, rounded once to nearest-even (R377). -/
def effFsubBf16x2 (d a b : Nat) : LaneFn := laneR2 (packed2 (fSub fmtBF16)) d a b
/-- `FSUB_BF16X2`. -/
def execFsubBf16x2 (gd : Guard) (d a b : Nat) (s : State) : Result := laneCompute s gd (formV d [a, b]) (effFsubBf16x2 d a b)
/-- A × B, rounded once to nearest-even (R377). -/
def effFmulBf16x2 (d a b : Nat) : LaneFn := laneR2 (packed2 (fMul fmtBF16)) d a b
/-- `FMUL_BF16X2`. -/
def execFmulBf16x2 (gd : Guard) (d a b : Nat) (s : State) : Result := laneCompute s gd (formV d [a, b]) (effFmulBf16x2 d a b)
/-- The lesser operand; a NaN is passed over (R378). -/
def effFminBf16x2 (d a b : Nat) : LaneFn := laneR2 (packed2 (fun x y => plain (fMin fmtBF16 x y))) d a b
/-- `FMIN_BF16X2`. -/
def execFminBf16x2 (gd : Guard) (d a b : Nat) (s : State) : Result := laneCompute s gd (formV d [a, b]) (effFminBf16x2 d a b)
/-- The greater operand; a NaN is passed over (R378). -/
def effFmaxBf16x2 (d a b : Nat) : LaneFn := laneR2 (packed2 (fun x y => plain (fMax fmtBF16 x y))) d a b
/-- `FMAX_BF16X2`. -/
def execFmaxBf16x2 (gd : Guard) (d a b : Nat) (s : State) : Result := laneCompute s gd (formV d [a, b]) (effFmaxBf16x2 d a b)
/-- The sign bit alone changes (R378). -/
def effFabsBf16x2 (d a : Nat) : LaneFn := laneR1 (fun x => packed2 (fun x _ => plain (fAbs fmtBF16 x)) x 0) d a
/-- `FABS_BF16X2`. -/
def execFabsBf16x2 (gd : Guard) (d a : Nat) (s : State) : Result := laneCompute s gd (formV d [a]) (effFabsBf16x2 d a)
/-- The sign bit alone changes (R378). -/
def effFnegBf16x2 (d a : Nat) : LaneFn := laneR1 (fun x => packed2 (fun x _ => plain (fNeg fmtBF16 x)) x 0) d a
/-- `FNEG_BF16X2`. -/
def execFnegBf16x2 (gd : Guard) (d a : Nat) (s : State) : Result := laneCompute s gd (formV d [a]) (effFnegBf16x2 d a)
/-- The relation of the FN on the decoded values (R381). -/
def effFcmpF32 (c d a b : Nat) : LaneFn := laneCmpV (fun x y => fCompare c x.toNat y.toNat) d a b
/-- `FCMP_F32`. -/
def execFcmpF32 (gd : Guard) (c d a b : Nat) (s : State) : Result := laneCompute s gd ⟨[.v a, .v b], [], true⟩ (effFcmpF32 c d a b)
/-- The integral value chosen by the mode (R382). -/
def effFrndF32 (m d a : Nat) : LaneFn := laneR1 (fun x => plain (fRoundIntegral (modeOf m) x.toNat)) d a
/-- `FRND_F32`. -/
def execFrndF32 (gd : Guard) (m d a : Nat) (s : State) : Result := laneCompute s gd (formV d [a]) (effFrndF32 m d a)
/-- fmin(fmax(A, B), C) (R380). -/
def effFclampF32 (d a b c : Nat) : LaneFn := fun g l x =>
  (dstV g x d (BitVec.ofNat 32 (clampF32 (srcV g l x a).toNat (srcV g l x b).toNat (srcV g l x c).toNat)), noFlags)
/-- `FCLAMP_F32`. -/
def execFclampF32 (gd : Guard) (d a b c : Nat) (s : State) : Result := laneCompute s gd (formV d [a, b, c]) (effFclampF32 d a b c)
/-- A × B + C, rounded once in mode `r` (R379); `.sr` takes one draw. -/
def effFmaF32 (d a b c r : Nat) : LaneFn := fun g l x =>
  let (ys, x') := laneDraws x x.glob (if r = 4 then 1 else 0)
  let q := fFma fmtFP32 (modeOf r) (ys.getD 0 0) (srcV g l x a).toNat (srcV g l x b).toNat (srcV g l x c).toNat
  (dstV g x' d (BitVec.ofNat 32 q.code), q.flags)
/-- `FMA_F32`. -/
def execFmaF32 (gd : Guard) (d a b c r : Nat) (s : State) : Result :=
  laneCompute s gd (formV d [a, b, c]) (effFmaF32 d a b c r)
/-- A × B + C of each FP16 element (R379); `.sr` takes one draw per element, element 0 first. -/
def effFmaF16x2 (d a b c r : Nat) : LaneFn := fun g l x =>
  let (ys, x') := laneDraws x x.glob (if r = 4 then 2 else 0)
  let e (k : Nat) : Rounded := fFma fmtFP16 (modeOf r) (ys.getD k 0) ((srcV g l x a).toNat / 65536 ^ k % 65536)
    ((srcV g l x b).toNat / 65536 ^ k % 65536) ((srcV g l x c).toNat / 65536 ^ k % 65536)
  (dstV g x' d (BitVec.ofNat 32 ((e 0).code + 65536 * (e 1).code)), orFlags (e 0).flags (e 1).flags)
/-- `FMA_F16X2`. -/
def execFmaF16x2 (gd : Guard) (d a b c r : Nat) (s : State) : Result :=
  laneCompute s gd (formV d [a, b, c]) (effFmaF16x2 d a b c r)

/-! ## Transcendentals -/
/-- 1 / A (R383). -/
def effRcp (fast : Bool) (d a : Nat) : LaneFn := laneR1 (fun x => xfn fast 0 x 0) d a
/-- `RCP`: deterministic mode runs the reproducible opcode (R147). -/
def execRcp (gd : Guard) (d a : Nat) (s : State) : Result :=
  laneComputeWith s gd (formV d [a]) fun g => effRcp (!detmOf s g) d a
/-- `RCPX`. -/
def execRcpx (gd : Guard) (d a : Nat) (s : State) : Result := laneCompute s gd (formV d [a]) (effRcp false d a)
/-- 1 / √A (R383). -/
def effRsq (fast : Bool) (d a : Nat) : LaneFn := laneR1 (fun x => xfn fast 1 x 0) d a
/-- `RSQ`: deterministic mode runs the reproducible opcode (R147). -/
def execRsq (gd : Guard) (d a : Nat) (s : State) : Result :=
  laneComputeWith s gd (formV d [a]) fun g => effRsq (!detmOf s g) d a
/-- `RSQX`. -/
def execRsqx (gd : Guard) (d a : Nat) (s : State) : Result := laneCompute s gd (formV d [a]) (effRsq false d a)
/-- √A (R383). -/
def effSqrt (fast : Bool) (d a : Nat) : LaneFn := laneR1 (fun x => xfn fast 2 x 0) d a
/-- `SQRT`: deterministic mode runs the reproducible opcode (R147). -/
def execSqrt (gd : Guard) (d a : Nat) (s : State) : Result :=
  laneComputeWith s gd (formV d [a]) fun g => effSqrt (!detmOf s g) d a
/-- `SQRTX`. -/
def execSqrtx (gd : Guard) (d a : Nat) (s : State) : Result := laneCompute s gd (formV d [a]) (effSqrt false d a)
/-- A / B (R383). -/
def effDiv (fast : Bool) (d a b : Nat) : LaneFn := laneR2 (xfn fast 3) d a b
/-- `DIV`: deterministic mode runs the reproducible opcode (R147). -/
def execDiv (gd : Guard) (d a b : Nat) (s : State) : Result :=
  laneComputeWith s gd (formV d [a, b]) fun g => effDiv (!detmOf s g) d a b
/-- `DIVX`. -/
def execDivx (gd : Guard) (d a b : Nat) (s : State) : Result := laneCompute s gd (formV d [a, b]) (effDiv false d a b)
/-- 2^A (R383). -/
def effExp2 (fast : Bool) (d a : Nat) : LaneFn := laneR1 (fun x => xfn fast 4 x 0) d a
/-- `EXP2`: deterministic mode runs the reproducible opcode (R147). -/
def execExp2 (gd : Guard) (d a : Nat) (s : State) : Result :=
  laneComputeWith s gd (formV d [a]) fun g => effExp2 (!detmOf s g) d a
/-- `EXP2X`. -/
def execExp2x (gd : Guard) (d a : Nat) (s : State) : Result := laneCompute s gd (formV d [a]) (effExp2 false d a)
/-- log2 A (R383). -/
def effLog2 (fast : Bool) (d a : Nat) : LaneFn := laneR1 (fun x => xfn fast 5 x 0) d a
/-- `LOG2`: deterministic mode runs the reproducible opcode (R147). -/
def execLog2 (gd : Guard) (d a : Nat) (s : State) : Result :=
  laneComputeWith s gd (formV d [a]) fun g => effLog2 (!detmOf s g) d a
/-- `LOG2X`. -/
def execLog2x (gd : Guard) (d a : Nat) (s : State) : Result := laneCompute s gd (formV d [a]) (effLog2 false d a)
/-- sin A (R383). -/
def effSin (fast : Bool) (d a : Nat) : LaneFn := laneR1 (fun x => xfn fast 6 x 0) d a
/-- `SIN`: deterministic mode runs the reproducible opcode (R147). -/
def execSin (gd : Guard) (d a : Nat) (s : State) : Result :=
  laneComputeWith s gd (formV d [a]) fun g => effSin (!detmOf s g) d a
/-- `SINX`. -/
def execSinx (gd : Guard) (d a : Nat) (s : State) : Result := laneCompute s gd (formV d [a]) (effSin false d a)
/-- cos A (R383). -/
def effCos (fast : Bool) (d a : Nat) : LaneFn := laneR1 (fun x => xfn fast 7 x 0) d a
/-- `COS`: deterministic mode runs the reproducible opcode (R147). -/
def execCos (gd : Guard) (d a : Nat) (s : State) : Result :=
  laneComputeWith s gd (formV d [a]) fun g => effCos (!detmOf s g) d a
/-- `COSX`. -/
def execCosx (gd : Guard) (d a : Nat) (s : State) : Result := laneCompute s gd (formV d [a]) (effCos false d a)
/-- tanh A (R383). -/
def effTanh (fast : Bool) (d a : Nat) : LaneFn := laneR1 (fun x => xfn fast 8 x 0) d a
/-- `TANH`: deterministic mode runs the reproducible opcode (R147). -/
def execTanh (gd : Guard) (d a : Nat) (s : State) : Result :=
  laneComputeWith s gd (formV d [a]) fun g => effTanh (!detmOf s g) d a
/-- `TANHX`. -/
def execTanhx (gd : Guard) (d a : Nat) (s : State) : Result := laneCompute s gd (formV d [a]) (effTanh false d a)

end Sys2Proof.Machine
end

