-- ==== Sys2Proof/Machine/Reservoir.lean ====
section
/-!
DEFINITION. Reservoir records and their arithmetic (R290 to R296), the reservoir store (R297 to R300) and the instructions on records (R454,
R455).
-/
namespace Sys2Proof.Machine

/-! ## Records -/

/-- The empty record (R290). -/
def Reservoir.empty : Reservoir := ⟨0, 0, 0, 0, 0, 0, 0, 0⟩

/-- A record from its 32 bytes (R290). -/
def recordOfBytes (b : List Byte) : Reservoir :=
  let f (o n : Nat) : Nat := numOfBytes ((b.drop o).take n)
  ⟨f 0 8, f 8 4, f 12 4, f 16 4, f 20 2, f 22 2, f 24 4, f 28 4⟩

/-- The 32 bytes of a record. -/
def Reservoir.toBytes (r : Reservoir) : List Byte :=
  bytesOfNum 8 r.handle ++ bytesOfNum 4 r.phat ++ bytesOfNum 4 r.wsum ++ bytesOfNum 4 r.w ++ bytesOfNum 2 r.m ++ bytesOfNum 2 r.flags ++
    bytesOfNum 4 r.rctr ++ bytesOfNum 4 r.ftag

/-- VALID (R291). -/
def Reservoir.valid (r : Reservoir) : Bool := r.flags.testBit 0

/-- Sets a flag of R291; bits [15:7] are written as zero. -/
def Reservoir.setFlag (r : Reservoir) (n : Nat) : Reservoir := { r with flags := (r.flags % 128) ||| 2 ^ n }

/-- The largest finite FP32 code. -/
def maxF32 : Nat := 0x7F7FFFFF

/-- Whether a weight or target value is refused (R293): NaN, infinite, or below zero. −0 is not below zero. -/
def badWeight (c : Nat) : Bool :=
  match decodeVal fmtFP32 c with
  | .nan => true
  | .inf _ => true
  | .fin neg m _ => neg && decide (m ≠ 0)

/-- Clamps a code of +∞ to the largest finite value, and tells whether it did (R293). -/
def capInf (c : Nat) : Nat × Bool := if c = 0x7F800000 then (maxF32, true) else (c, false)

/-- `ResDraw` (R292). -/
def resDraw (r : Reservoir) (pix key : Nat) : Nat × Reservoir :=
  ((steep r.rctr pix r.ftag 0 (key % 4294967296) (key / 4294967296 % 4294967296)).y0, { r with rctr := (r.rctr + 1) % 4294967296 })

/-- The confidence cap in force (R296): 0 acts as 65,535. -/
def capOf (c : Nat) : Nat := if c % 65536 = 0 then 65535 else c % 65536

/-- `ResAdd` (R293). -/
def resAdd (s : Reservoir) (h pc w m src pix key cap : Nat) : Reservoir :=
  if badWeight w || badWeight pc then s.setFlag 1
  else
    let w := if w = 0x80000000 then 0 else w
    let (y, s) := resDraw s pix key
    let (t, sat) := capInf (fAdd fmtFP32 s.wsum w).code
    let s := { s with flags := s.flags % 128, wsum := t }
    let s := if sat then s.setFlag 2 else s
    let s := if Val.lt (Val.mul (uniformVal y) (decodeVal fmtFP32 t)) (decodeVal fmtFP32 w) then
        { s with handle := h, phat := pc, flags := s.flags % 32 / 2 * 2 + 1 + 32 * src } else s
    { s with m := min (s.m + m) (capOf cap) }

/-- `ResMerge` (R293). -/
def resMerge (s c : Reservoir) (pc src pix key cap : Nat) : Reservoir :=
  if !c.valid then resAdd s c.handle 0 0 c.m src pix key cap
  else if badWeight c.w then s.setFlag 1
  else
    let w0 := mul32 (mul32 pc c.w) (roundVal fmtFP32 .nearest 0 (.fin false c.m 0)).code
    let (w, sat) := capInf w0
    resAdd (if sat then s.setFlag 2 else s) c.handle pc w c.m src pix key cap

/-- `ResNorm` (R294). -/
def resNorm (s : Reservoir) : Reservoir :=
  let s := { s with flags := s.flags % 128 }
  if !s.valid || (decodeVal fmtFP32 s.phat).isZero || s.m = 0 then { s with w := 0 }
  else
    let d := mul32 (roundVal fmtFP32 .nearest 0 (.fin false s.m 0)).code s.phat
    let (q, sat) := capInf (xReproducible 3 s.wsum d).code
    let s := { s with w := q }
    if sat then s.setFlag 2 else s

/-! ## Record instructions -/

/-- First byte of a record field: half k mod 2 of T(k / 2) (R434). -/
def Group.recAt (g : Group) (k : Nat) : Nat := g.tAt (k / 2) + 32 * (k % 2)

/-- The record in a record field. -/
def recordIn (g : Group) (x : Lane) (k : Nat) : Reservoir := recordOfBytes (x.regs.bytes (g.recAt k) 32)

/-- Writes a record field. -/
def setRecord (g : Group) (x : Lane) (k : Nat) (r : Reservoir) : Lane := { x with regs := x.regs.writeBytes (g.recAt k) r.toBytes }

/-- `resu` (R454). -/
def effResu (d a b c : Nat) : LaneFn := fun g l x =>
  let pw := (srcW g x b).toNat
  (setRecord g x d (resAdd (recordIn g x d) (srcW g x a).toNat (pw % 4294967296) (pw / 4294967296) 1 0 (srcV g l x c).toNat x.rngKey.toNat
    g.rmcap), noFlags)

/-- `RESU`. -/
def execResu (gd : Guard) (d a b c : Nat) (s : State) : Result :=
  laneCompute s gd ⟨[.t (d / 2), .w a, .w b, .v c], [.t (d / 2)], true⟩ (homed s (effResu d a b c))

/-- `resm` (R454): the source record is read whole before the result is written. -/
def effResm (src d a b c : Nat) : LaneFn := fun g l x =>
  (setRecord g x d (resMerge (recordIn g x d) (recordIn g x a) (srcV g l x b).toNat src (srcV g l x c).toNat x.rngKey.toNat g.rmcap),
    noFlags)

/-- `RESM`. -/
def execResm (gd : Guard) (src d a b c : Nat) (s : State) : Result :=
  laneCompute s gd ⟨[.t (d / 2), .t (a / 2), .v b, .v c], [.t (d / 2)], true⟩ (homed s (effResm src d a b c))

/-- `resn` (R454). -/
def effResn (d : Nat) : LaneFn := fun g _ x => (setRecord g x d (resNorm (recordIn g x d)), noFlags)

/-- `RESN`. -/
def execResn (gd : Guard) (d : Nat) (s : State) : Result := laneCompute s gd ⟨[.t (d / 2)], [.t (d / 2)], true⟩ (effResn d)

/-! ## The reservoir store -/

/-- The backing base of a die. -/
def ResRegs.back (r : ResRegs) (die : Nat) : Nat := if die = 0 then r.back0 else r.back1
/-- FRAME in force on a die. -/
def ResRegs.frame (r : ResRegs) (die : Nat) : Nat := if die = 0 then r.frame0 else r.frame1
/-- The copy in force on a die. -/
def PerDie.on (v : PerDie) (die : Nat) : Nat := if die = 0 then v.die0 else v.die1

/-- The geometry and screen division that a die uses: tile columns and rows, band width in columns, and halo depth in columns (R41, R301). -/
structure Screen where
  tcols : Nat
  trows : Nat
  bandw : Nat
  halod : Nat
  deriving DecidableEq, Repr

/-- What is in force on a die. -/
def screenOn (q : Partition) (die : Nat) : Screen :=
  let geom := q.res.geom.on die
  ⟨geom % 2048, geom / 65536 % 2048, 2 ^ q.screenBandw.on die, q.screenHalod.on die⟩

/-- The die that owns a tile column (R15). -/
def Screen.owner (v : Screen) (tc : Nat) : Nat := tc / v.bandw % 2

/-- Whether the other die sends a tile column that it owns to `die` (R42): it lies within the halo depth of a band of `die`. -/
def Screen.inHalo (v : Screen) (die tc : Nat) : Bool :=
  decide (v.owner tc ≠ die) && (List.range (v.halod + 1)).any fun k =>
    decide (k ≠ 0) && ((decide (k ≤ tc) && decide (v.owner (tc - k) = die)) ||
      (decide (tc + k < v.tcols) && decide (v.owner (tc + k) = die)))

/-- The address of a record in physical plane `f` (R297). -/
def recordAddr (back : Nat) (v : Screen) (f tc tr pi : Nat) : Nat :=
  (back + ((f * v.trows + tr) * v.tcols + tc) * 8192 + pi * 32) % 2 ^ 64

/-- The physical plane of a logical plane (R299). -/
def physPlane (plane frame : Nat) : Nat := if plane < 2 then plane ^^^ (frame % 2) else 2

/-- The address that a reservoir coordinate names on a die, or none where it faults (R299, R301). -/
def coordAddr (q : Partition) (die c : Nat) : Option Nat :=
  let v := screenOn q die
  let tr := c / 2097152 % 2048
  let tc := c / 1024 % 2048
  let plane := c / 256 % 4
  let back := q.res.back die
  if back = 0 || plane = 3 || v.tcols ≤ tc || v.trows ≤ tr || (plane < 2 && v.owner tc ≠ die) || (plane = 2 && !v.inHalo die tc) then none
  else some (recordAddr back v (physPlane plane (q.res.frame die)) tc tr (c % 256))

/-- The checks of some lanes' coordinates, then of their addresses (R455). -/
def checkCoords (s : State) (g : Group) (acc : Acc) (cs : List (Nat × Word64)) : State × List (Nat × Word64 × Check) :=
  let q := s.part (s.partOf g)
  let die := dieOfCore g.core
  let bad := (cs.filter fun c => (coordAddr q die c.2.toNat).isNone).map fun c => (c.1, c.2, Check.trap 8)
  let good := cs.filterMap fun c => (coordAddr q die c.2.toNat).map fun a => (c.1, BitVec.ofNat 64 a)
  let (s, ok) := checkAll s g spaceGm 32 acc 0 good
  (s, bad ++ ok)

/-- The coordinate of a lane. -/
def coordOf (g : Group) (a l : Nat) : Nat × Word64 := (l, BitVec.ofNat 64 (srcV g l (g.lane l) a).toNat)

/-- `RESLD` (R455). -/
def execResld (gd : Guard) (d a : Nat) (s : State) : Result := .next (laneIssue s gd ⟨[.v a], [.t (d / 2)], true⟩ fun g act s' =>
  if memBusy s g act spaceGm 32 0 .ld [] then block s' s.issue.lanes
  else
    let (s', cs) := checkCoords s' g .read (act.map (coordOf g a))
    let ok := passed cs
    if trafficHeld s' g (ok.map fun x => x.2.1) then block s' s.issue.lanes
    else
      let s' := countUp s' g.core g.slot (ok.map Prod.fst) .ld
      failLanes (ok.foldl (loadOne g 0 7 false 32 (.bytes (g.recAt d) 32)) s') 0 cs)

/-- `RESST` (R455): it keeps the interval repeatable. -/
def execResst (gd : Guard) (d a : Nat) (s : State) : Result := .next (laneIssue s gd ⟨[.t (d / 2), .v a], [], true⟩ fun g act s' =>
  if memBusy s g act spaceGm 32 0 .st [] then block s' s.issue.lanes
  else
    let (s', cs) := checkCoords s' g .write (act.map (coordOf g a))
    let ok := passed cs
    let s' := countUp s' g.core g.slot (ok.map Prod.fst) .st
    let s' := ok.foldl (fun s x => bufferStore s g [x.1] x.2.1 7 (stampsNow s g) x.2.2.toNat ((g.lane x.1).regs.bytes (g.recAt d) 32)) s'
    failLanes s' 1 cs)

end Sys2Proof.Machine
end

