-- ==== Sys2Proof/Machine/EngCopy.lean ====
section
/-!
DEFINITION. Copies (R120, R182 to R184) and collectives (R121, R344): the work of copy and collective engines.
-/
namespace Sys2Proof.Machine

/-! ## Spans in scratchpads -/

/-- The spans of the rows of a copy on one side, in address order. -/
def rowSpans (j : CopyJob) (base stride : Nat) : List (Nat × Nat) :=
  (List.range j.rows).map fun r => ((base + r * stride) % 2 ^ 64, j.rowBytes)

/-- The first LOCAL span of a list that is out of bounds (R182): RANGE at the byte of the block. A member that is gone is met later. -/
def spansBad (s : State) (i : Issuer) (p off : Nat) (l : List (Nat × Nat)) : BlockCheck :=
  l.findSome? fun x => if x.1 < 2 ^ 63 then none else match localForm x.1 off, localEng s i p x.1 x.2 with
    | some e, _ => some e
    | none, .error e => if e = errRange then some (errRange, off) else none
    | none, .ok _ => none

/-- The LOCAL checks of a copy (R182). -/
def copySpanBad (s : State) (i : Issuer) (p : Nat) (j : CopyJob) : BlockCheck :=
  firstBad [if j.op = 1 then none else spansBad s i p 48 (rowSpans j j.src j.sstride), spansBad s i p 56 (rowSpans j j.dst j.dstride)]

/-- The span of a copy in one scratchpad (R183): its core, or none and its die for the partition's chip scratchpad there, with the first and
last offset. -/
structure ScratchSpan where
  core : Option Nat
  die : Nat
  first : Nat
  last : Nat
  deriving DecidableEq, Repr

/-- The span of `n` bytes at a LOCAL destination, widened to whole 128-byte blocks (R182, R183). -/
def scratchSpan (s : State) (c : EngCmd) (va n : Nat) : Option ScratchSpan :=
  let wide (core : Option Nat) (die o : Nat) : ScratchSpan := ⟨core, die, o / 128 * 128, (o + n - 1) / 128 * 128 + 127⟩
  if va < 2 ^ 63 then none
  else if va / 2 ^ 60 % 8 = 3 then some (wide none (va % 2 ^ 32 / chipSize) (va % 2 ^ 32 % chipSize))
  else match localEng s c.issuer c.part va n with
    | .ok (.sp k o) => some (wide (some k) (dieOfCore k) o)
    | _ => none

/-- Joins a span to those of its copy: one for each scratchpad, from its first byte to its last (R183). -/
def addSpan (es : List ScratchSpan) (x : ScratchSpan) : List ScratchSpan :=
  if es.any fun e => e.core == x.core && e.die == x.die then
    es.map fun e => if e.core == x.core && e.die == x.die then { e with first := min e.first x.first, last := max e.last x.last } else e
  else es ++ [x]

/-- The entries of a span: a chip scratchpad's stand unit by unit, where the partition's units lie (R178). -/
def ScratchSpan.entries (q : Partition) (cmd : Nat) (x : ScratchSpan) : List RangeEntry :=
  if x.core.isSome then [⟨cmd, x.core, x.die, x.first, x.last⟩]
  else
    let n := min x.last (chipBytes q x.die - 1) + 1 - x.first
    (chipSpan q x.die (n / 1048576 + 2) x.first n).filterMap fun p => match p.1 with
      | .chip d o => some ⟨cmd, none, d, o, o + p.2 - 1⟩
      | _ => none

/-- The scoreboard entries of a copy (R183). -/
def copyEntries (s : State) (c : EngCmd) (j : CopyJob) : List RangeEntry :=
  let spans := ((rowSpans j j.dst j.dstride).filterMap fun x => scratchSpan s c x.1 x.2).foldl addSpan []
  spans.flatMap (ScratchSpan.entries (s.part c.part) c.id)

/-- Whether the scoreboards have room for a copy's entries (R183): they hold 32 copies for a core, and 64 for a die. -/
def entriesFit (s : State) (es : List RangeEntry) : Bool :=
  es.all fun e =>
    let n := ((s.ms.ranges.filter fun r => r.core == e.core && r.die == e.die).map RangeEntry.cmd).dedup.length
    if e.core.isSome then n < 32 else n < 64

/-- Records the entries of a copy. -/
def recordEntries (s : State) (es : List RangeEntry) : State := { s with ms := { s.ms with ranges := s.ms.ranges ++ es } }

/-! ## Halo copies -/

/-- Whether a byte of a die's backing region lies in its halo plane, on a tile that the other die sends to it (R42, R297, R303). -/
def inHaloRegion (q : Partition) (die va : Nat) : Bool :=
  let v := screenOn q die
  let plane := v.tcols * v.trows * 8192
  let o := va - q.res.back die
  let tile := (o - 2 * plane) / 8192
  decide (q.res.back die ≠ 0) && decide (q.res.back die + 2 * plane ≤ va) && decide (o < 3 * plane) && v.inHalo die (tile % v.tcols)

/-- The destination of a halo copy (R120, R303): reservoir records go to the halo region of the other die's reservoir store, RANGE elsewhere;
G-buffer rows go to memory. (in part DEDUCED, log entry 37) -/
def haloBad (s : State) (c : EngCmd) (j : CopyJob) : BlockCheck :=
  let content := j.htag / 2 ^ 52 % 4
  let q := s.part c.part
  let ok (a : Nat) : Bool := if content = 0 then inHaloRegion q (1 - c.who.die) a else decide (a < 2 ^ 63)
  need (j.op ≠ 2 || (rowSpans j j.dst j.dstride).all fun x =>
    ok x.1 && ok (x.1 + x.2 - 1) && (List.range (x.2 / 8192)).all fun k => ok (x.1 + 8192 * k)) errRange 56

/-! ## Copies -/

/-- Replaces the copy of a command. -/
def setCopy (s : State) (id : Nat) (j : CopyJob) : State := s.updCmd id fun c => { c with body := .copy j }

/-- Whether an earlier copy of the same cohort has not started (R432). -/
def earlierWaits (s : State) (c : EngCmd) : Bool :=
  match c.issuer with
  | .group core slot ls => s.eng.cmds.any fun d => decide (d.id < c.id) && d.kind == .copy && !d.started &&
      (match d.issuer with
       | .group k t xs => k == core && t == slot && xs.any ls.contains
       | _ => false)
  | _ => false

/-- A copy of some operation starts (R120, R183): its spans are checked and its scratchpad destination is recorded; while the scoreboard is
full it waits. (in part DEDUCED, log entry 38) -/
def startCopy (s : State) (id op : Nat) : State :=
  match s.cmd? id with
  | none => s
  | some c => match c.body with
    | .copy j =>
      if c.started || c.stopped s || j.op ≠ op || earlierWaits s c then s
      else match firstBad [copySpanBad s c.issuer c.part j, haloBad s c j] with
        | some (code, off) => failCmd s c code off
        | none =>
          if j.recorded then s.updCmd id fun c => { c with started := true }
          else
            let es := copyEntries s c j
            if entriesFit s es then
              (recordEntries s es).updCmd id fun c => { c with started := true, body := .copy { j with recorded := true } }
            else s
    | _ => s

/-- `COPY_BLOCK_COPY` (R120). -/
def execCopyBlockCopy (id : Nat) (s : State) : Result := .next (startCopy s id 0)
/-- `COPY_BLOCK_FILL` (R120). -/
def execCopyBlockFill (id : Nat) (s : State) : Result := .next (startCopy s id 1)
/-- `COPY_BLOCK_HALO` (R120, R42). -/
def execCopyBlockHalo (id : Nat) (s : State) : Result := .next (startCopy s id 2)

/-- The 8-byte pattern of a fill, repeated from the row's start, for `n` bytes from offset `o` (R120). -/
def fillBytes (pattern o n : Nat) : List Byte :=
  (List.range n).map fun k => BitVec.ofNat 8 (pattern / 256 ^ ((o + k) % 8) % 256)

/-- The places of a span, message by message (R37). -/
def messagePlaces (ps : List (Place × Nat)) : List (Place × Nat) :=
  ps.flatMap fun p => (List.range ((p.2 + messageBytes - 1) / messageBytes)).map fun k =>
    (p.1.plus (messageBytes * k), min messageBytes (p.2 - messageBytes * k))

/-- One halo message of a copy (R42, R120): KIND 6, with the tag as a header word. -/
def haloMessage (s : State) (c : EngCmd) (tag : Nat) (p : Place) (bs : List Byte) : State :=
  let f := { unitFlight c.id c.who p.key none with id := s.fresh, kind := .halo tag, stage := .request, data := bs
                                                   reads := [⟨p, bs.length, none, false⟩] }
  let (s, f) := sendHinge s f f.die false bs.length
  { addFlight s f with fresh := s.fresh + 1 }

/-- The halo messages of a chunk, of at most 1,024 bytes each. -/
def sendHalo (s : State) (c : EngCmd) (tag : Nat) : List (Place × Nat) → List Byte → State
  | [], _ => s
  | (p, n) :: rest, bs => sendHalo (haloMessage s c tag p (bs.take n)) c tag rest (bs.drop n)

/-- A copy after `n` bytes of its row. -/
def CopyJob.past (j : CopyJob) (n : Nat) : CopyJob :=
  if j.rowBytes ≤ j.off + n then { j with row := j.row + 1, off := 0 } else { j with off := j.off + n }

/-- A copy before its last chunk. -/
def CopyJob.back (j : CopyJob) : CopyJob :=
  if j.off = 0 then { j with row := j.row - 1, off := (j.rowBytes - 1) / 4096 * 4096 } else { j with off := (j.off - 1) / 4096 * 4096 }

/-- Whether a copy's messages must wait (R142, R34): those of a halo copy cross the Hinge whatever their home. -/
def copyHeld (s : State) (c : EngCmd) (j : CopyJob) (ps : List (Place × Nat)) : Bool :=
  engTrafficHeld s c ps || (decide (j.op = 2) && meterHeld s c.part 4)

/-- One chunk of a copy: it is read whole, then written (R120). (in part DEDUCED, log entry 38) -/
def copyChunk (s : State) (c : EngCmd) (j : CopyJob) : State :=
  let n := min 4096 (j.rowBytes - j.off)
  let src := (j.src + j.row * j.sstride + j.off) % 2 ^ 64
  let dst := (j.dst + j.row * j.dstride + j.off) % 2 ^ 64
  match (if j.op = 1 then (s, EngData.data (fillBytes j.src j.off n)) else engRead s c src n) with
  | (s, .pending) => s
  | (s, .bad e) => failCmd s c e 48
  | (s, .fault cause lv a) => cmdFault (dropArrived s c.id) c cause lv a 0 48
  | (s, .data bs) => match engPlaces s c .write dst n with
    | (s, .bad e) => failCmd s c e 56
    | (s, .fault cause lv a) => cmdFault s c cause lv a 1 56
    | (s, .ok ps) =>
      if copyHeld s c j ps then s
      else if j.op = 2 && !hingeUp s.links then cmdFault (dropArrived s c.id) c 4 0 dst 1 56
      else
        let s := dropArrived s c.id
        let s := if j.op = 2 then sendHalo s c j.htag (messagePlaces ps) bs else engWrite s c dst ps bs
        charge (setCopy s c.id (j.past n)) c.part 2 n

/-! ## Collectives -/

/-- Bits of an element of a format (R230). -/
def elemBits (fmt : Nat) : Nat :=
  match fmt with
  | 0 | 10 | 11 => 32
  | 1 | 2 | 8 | 9 => 16
  | 5 => 4
  | 12 | 13 => 64
  | _ => 8

/-- Bytes of `n` elements of a format, packed from the low bits up (R230, R236). -/
def elemBytes (fmt n : Nat) : Nat := (n * elemBits fmt + 7) / 8

/-- The elements of a block of bytes. -/
def elemsOf (fmt n : Nat) (bs : List Byte) : List Nat :=
  let w := elemBits fmt
  (List.range n).map fun i => numOfBytes ((bs.drop (w * i / 8)).take ((w + 7) / 8)) / 2 ^ (w * i % 8) % 2 ^ w

/-- The bytes of some elements. -/
def elemsBytes (fmt : Nat) (cs : List Nat) : List Byte :=
  bytesOfNum (elemBytes fmt cs.length) (cs.foldr (fun c a => c % 2 ^ elemBits fmt + 2 ^ elemBits fmt * a) 0)

/-- Elements that a member reads at its SRCBUF (R121). -/
def CollJob.srcCount (j : CollJob) : Nat :=
  match j.op with
  | 1 => j.nmem * j.count
  | 3 => if j.self = j.root then j.count else 0
  | _ => j.count

/-- Elements that a member writes at its DSTBUF (R121). -/
def CollJob.dstCount (j : CollJob) : Nat := if j.op = 2 then j.nmem * j.count else j.count

/-- Replaces the collective of a command. -/
def setColl (s : State) (id : Nat) (j : CollJob) : State := s.updCmd id fun c => { c with body := .coll j }

/-- The module and die of a member's entry (R121). -/
def memberOf (bs : List Byte) (m : Nat) : Nat × Nat := let e := fieldAt bs (8 * m) 8; (e % 1024, e / 1024 % 2)

/-- The elements that a member sends to member `m` (R121). -/
def CollJob.sends (j : CollJob) (m : Nat) : List Nat := if j.op = 1 then (j.src0.drop (m * j.count)).take j.count else j.src0

/-- The members whose contribution this member awaits. -/
def CollJob.awaits (j : CollJob) : List Nat :=
  let all := (List.range j.nmem).filter fun m => m ≠ j.self && (j.op ≠ 3 || m = j.root)
  all.filter fun m => !j.got.any fun g => g.member == m

/-- The contribution of member `m` (R121). -/
def CollJob.contribution (j : CollJob) (m : Nat) : List Nat :=
  if m = j.self then j.sends m else ((j.got.find? fun g => g.member == m).map CollMsg.data).getD []

/-- One element of a reduction over the members, in ascending index, in FP32, converted once (R121). -/
def reduceElem (red fmt : Nat) (cs : List Nat) : Nat :=
  let as32 := cs.map fun c => code32 (decodeVal (fmtOf fmt) c)
  match as32 with
  | [] => 0
  | c :: rest =>
    let r := rest.foldl (fun a b => match red with
      | 0 => (fAdd fmtFP32 a b).code
      | 1 => fMax fmtFP32 a b
      | _ => fMin fmtFP32 a b) c
    (roundVal (fmtOf fmt) .nearest 0 (decodeVal fmtFP32 r)).code

/-- The elements of a member's result (R121). -/
def CollJob.result (j : CollJob) : List Nat :=
  let parts := (List.range j.nmem).map j.contribution
  match j.op with
  | 2 => parts.flatten
  | 3 => j.contribution j.root
  | _ => (List.range j.count).map fun i => reduceElem j.red j.fmt (parts.map fun p => p.getD i 0)

/-- Whether the members can be reached from a die (R34, R46). -/
def peersReachable (s : State) (die : Nat) (bs : List Byte) (n : Nat) : Bool :=
  (List.range n).all fun m =>
    if (memberOf bs m).1 = s.links.modid then (memberOf bs m).2 = die || hingeUp s.links else scaleUpReach s.links die

/-- What the engine keeps of a block whose attempt it aborts (R344): its current attempt is the next, and the messages held for later attempts
stay. (in part DEDUCED, log entry 39) -/
def keepAttempt (s : State) (c : EngCmd) (j : CollJob) : State :=
  let held := j.heldMsgs.filter fun m => decide (j.attempt < m.attempt)
  { s with eng := { s.eng with bufs := s.eng.bufs ++ [⟨c.id, c.part, c.blockAddr, j.attempt + 1, held⟩] } }

/-- A member aborts its attempt (R344): a token to every member, unless it acts on one, the halt, and the next attempt. (in part DEDUCED, log entry 39) -/
def abortAttempt (s : State) (c : EngCmd) (j : CollJob) (token : Bool) : State :=
  let s := if token then (List.range j.nmem).foldl (fun s m => if m = j.self then s else s.send (.abort c.id j.attempt m)) s else s
  keepAttempt (failCmd s c errFault 0) c j

/-- A fault of a collective's access: causes 3 to 5 of its own reads abort the attempt (R344). -/
def collFault (s : State) (c : EngCmd) (j : CollJob) (cause level addr acc off : Nat) : State :=
  if acc = 0 && 3 ≤ cause && cause ≤ 5 then abortAttempt s c j true else cmdFault s c cause level addr acc off

/-- The LOCAL checks of a collective (R182). -/
def collSpanBad (s : State) (i : Issuer) (p : Nat) (j : CollJob) : BlockCheck :=
  firstBad [spansBad s i p 40 [(j.memtab, 8 * j.nmem)], spansBad s i p 48 [(j.src, max 1 (elemBytes j.fmt j.srcCount))],
    spansBad s i p 56 [(j.dst, max 1 (elemBytes j.fmt j.dstCount))]]

/-- Gives a command that waits for an engine one (R432). -/
def giveEngine (s : State) (c : EngCmd) : EngCmd :=
  if c.engine = noEngine then
    match pickEngine s c.part 0 c.kind with
    | some e => { c with engine := e }
    | none => c
  else c

/-- Takes a contribution of the current attempt. (in part DEDUCED, log entry 39) -/
def takeMsg (j : CollJob) (now : Nat) (m : CollMsg) : CollJob :=
  if j.awaits.contains m.member then { j with got := j.got ++ [m], lastMsg := now } else j

/-- The messages that an engine holds for a block (R344): those for its command, and those kept since an attempt that was aborted. -/
def heldFor (s : State) (c : EngCmd) (j : CollJob) : List CollMsg :=
  j.heldMsgs ++ ((s.eng.bufs.filter fun b => b.part == c.part && b.block == c.blockAddr).flatMap CollBuf.held)

/-- A collective starts its attempt, once its members and its source are read (R121, R344): it takes the messages held for the attempt, drops
those of earlier ones, and keeps the others. (in part DEDUCED, log entry 39) -/
def beginColl (s : State) (c : EngCmd) (j : CollJob) : State :=
  let held := heldFor s c j
  let late := (held.filter fun m => decide (m.attempt < j.attempt)).length
  let j := { j with heldMsgs := held.filter fun m => decide (j.attempt < m.attempt), lastMsg := s.time.now
                    sent := decide (j.op = 3 && j.self ≠ j.root) }
  let j := (held.filter fun m => decide (m.attempt = j.attempt)).foldl (fun j m => takeMsg j s.time.now m) j
  let s := { s with eng := { s.eng with
    bufs := s.eng.bufs.filter fun b => !(b.part == c.part && b.block == c.blockAddr), dropped := s.eng.dropped + late } }
  s.updCmd c.id fun d => { d with started := true, engine := c.engine, body := .coll j }

/-- A collective of some operation starts (R121, R344): it reads its members and its source. (in part DEDUCED, log entry 39) -/
def startColl (s : State) (id op : Nat) : State :=
  match s.cmd? id with
  | none => s
  | some c0 =>
    let c := giveEngine s c0
    match c.body with
    | .coll j =>
      if c.started || c.stopped s || j.op ≠ op || c.engine = noEngine then s
      else match collSpanBad s c.issuer c.part j with
        | some (code, off) => failCmd s c code off
        | none => match engRead s c j.memtab (8 * j.nmem) with
          | (s, .pending) => s
          | (s, .bad e) => failCmd s c e 40
          | (s, .fault cause lv a) => collFault (dropArrived s c.id) c j cause lv a 0 40
          | (s, .data tab) =>
            let here (m : Nat) : Bool := memberOf tab m == (s.links.modid, engDie .collective c.engine)
            if (List.range j.nmem).any fun m => fieldAt tab (8 * m) 8 / 2048 ≠ 0 then failCmd s c errRsvd 40
            else match (List.range j.nmem).find? here with
              | none => failCmd s c errRange 40
              | some self =>
                let j := { j with self := self, mods := (List.range j.nmem).map fun m => (memberOf tab m).1 }
                if !peersReachable s c.who.die tab j.nmem then abortAttempt s c j true
                else match engRead s c j.src (elemBytes j.fmt j.srcCount) with
                  | (s, .pending) => s
                  | (s, .bad e) => failCmd s c e 48
                  | (s, .fault cause lv a) => collFault (dropArrived s c.id) c j cause lv a 0 48
                  | (s, .data bs) => beginColl (dropArrived s c.id) c { j with src0 := elemsOf j.fmt j.srcCount bs }
    | _ => s

/-- A collective sends its contribution to its next member (R121, R140, R142): by the Hinge to the other die, and by a port to another module;
it waits while that traffic is held. (in part DEDUCED, log entry 39) -/
def collSend (s : State) (c : EngCmd) (j : CollJob) : State :=
  let m := j.next
  if j.nmem ≤ m then setColl s c.id { j with sent := true, lastMsg := s.time.now }
  else if m = j.self then setColl s c.id { j with next := m + 1 }
  else
    let cls := if j.mods.getD m 0 = s.links.modid then 4 else 5
    if meterHeld s c.part cls then s
    else
      let s := charge (s.send (.coll c.id j.attempt m (j.sends m))) c.part cls (hingeSlots 2 (elemBytes j.fmt j.count) * 256)
      setColl s c.id { j with next := m + 1 }

/-- `COLL_ALL_REDUCE` (R121). -/
def execCollAllReduce (id : Nat) (s : State) : Result := .next (startColl s id 0)
/-- `COLL_REDUCE_SCATTER` (R121). -/
def execCollReduceScatter (id : Nat) (s : State) : Result := .next (startColl s id 1)
/-- `COLL_ALL_GATHER` (R121). -/
def execCollAllGather (id : Nat) (s : State) : Result := .next (startColl s id 2)
/-- `COLL_BROADCAST` (R121). -/
def execCollBroadcast (id : Nat) (s : State) : Result := .next (startColl s id 3)

/-- A message of an attempt that is over is dropped, counted and logged (R344). -/
def dropLate (s : State) (die p attempt member : Nat) : State :=
  logEvent { s with eng := { s.eng with dropped := s.eng.dropped + 1 } } .attemptDrop 1 (logSource die 2) p attempt member

/-- A message for a block that is not running any more: dropped, or held until the next attempt starts (R344). -/
def bufferMsg (s : State) (b : CollBuf) (m : CollMsg) : State :=
  if m.attempt < b.attempt then dropLate s 0 b.part m.attempt m.member
  else { s with eng := { s.eng with bufs := s.eng.bufs.map fun x => if x.id == b.id then { x with held := x.held ++ [m] } else x } }

/-- `COLL_MESSAGE_INGRESS`: a message is dropped, processed or held by its attempt (R344). One that comes before the block has started is held. -/
def execCollMessageIngress (id attempt member : Nat) (data : List Nat) (s : State) : Result := .next (
  let m : CollMsg := ⟨attempt, member, data⟩
  match s.cmd? id with
  | none => match s.eng.bufs.find? fun b => b.id == id with
    | none => s
    | some b => bufferMsg s b m
  | some c => match c.body with
    | .coll j =>
      if !c.started || j.attempt < attempt then setColl s id { j with heldMsgs := j.heldMsgs ++ [m] }
      else if attempt < j.attempt then dropLate s c.who.die c.part attempt member
      else setColl s id (takeMsg j s.time.now m)
    | _ => s)

/-- `COLL_ABORT_TOKEN`: a token of the current attempt halts the member (R344). -/
def execCollAbortToken (id attempt : Nat) (s : State) : Result := .next (match s.cmd? id with
  | none => s
  | some c => match c.body with
    | .coll j => if c.started && attempt = j.attempt then abortAttempt s c j false else s
    | _ => s)

/-- `COLL_ATTEMPT_TIMEOUT`: no message of the attempt for 1 ms while one is awaited (R344). -/
def execCollAttemptTimeout (id : Nat) (s : State) : Result := .next (match s.cmd? id with
  | none => s
  | some c => match c.body with
    | .coll j => if c.started && !j.awaits.isEmpty && j.lastMsg + 1000000 ≤ s.time.now then abortAttempt s c j true else s
    | _ => s)

/-- One chunk of a collective's result, once every contribution is there (R121, R140). (in part DEDUCED, log entry 39) -/
def collChunk (s : State) (c : EngCmd) (j : CollJob) : State :=
  let bs := ((elemsBytes j.fmt j.result).drop j.written).take 4096
  match engPlaces s c .write (j.dst + j.written) bs.length with
  | (s, .bad e) => failCmd s c e 56
  | (s, .fault cause lv a) => collFault s c j cause lv a 1 56
  | (s, .ok ps) =>
    if engTrafficHeld s c ps then s
    else charge (setColl (engWrite s c (j.dst + j.written) ps bs) c.id { j with written := j.written + bs.length }) c.part 2 bs.length

/-- What a collective does next: it sends, or it writes its result. -/
def collMove (s : State) (c : EngCmd) (j : CollJob) : State :=
  if !j.sent then collSend s c j
  else if j.awaits.isEmpty && j.written < elemBytes j.fmt j.dstCount then collChunk s c j else s

/-- A write of the last chunk was refused or never answered (R37, R189): the command fails or pauses, and a replay writes that chunk again. (in part DEDUCED, log entry 38) -/
def chunkRefused (s : State) (c : EngCmd) (x : Arrived) : State :=
  let s := dropArrived s c.id
  match c.body with
  | .copy j => cmdFault (setCopy s c.id j.back) { c with body := .copy j.back } x.cause 0 x.addr 1 56
  | .coll j =>
    let j := { j with written := (j.written - 1) / 4096 * 4096 }
    collFault (setColl s c.id j) { c with body := .coll j } j x.cause 0 x.addr 1 56
  | _ => s

/-- `COPY_CHUNK`: a copy or collective engine moves one chunk of at most 4 KiB, while its budget lasts (R120, R140); the next waits until the
messages of the last are answered. -/
def execCopyChunk (id : Nat) (s : State) : Result := .next (match s.cmd? id with
  | none => s
  | some c =>
    if !c.started || c.stopped s || unitBusy s id then s
    else match failedWrite s id with
      | some x => chunkRefused s c x
      | none =>
        if meterHeld s c.part 2 then s
        else match c.body with
          | .copy j => if j.row < j.rows then copyChunk s c j else s
          | .coll j => collMove s c j
          | _ => s)

/-- Whether a command's body has done its work. -/
def EngCmd.bodyDone (c : EngCmd) (s : State) : Bool :=
  c.started && !c.stopped s && !unitBusy s c.id && (failedWrite s c.id).isNone && (match c.body with
    | .copy j => decide (j.rows ≤ j.row)
    | .coll j => j.sent && j.awaits.isEmpty && decide (elemBytes j.fmt j.dstCount ≤ j.written)
    | .strainer j => j.pixels.isEmpty && j.work.isNone && j.results.isEmpty
    | .matrix _ => !s.render.jobs.any fun m => m.cmd == some c.id)

end Sys2Proof.Machine
end

