-- ==== Sys2Proof/Machine/GroupEng.lean ====
section
/-!
DEFINITION. The engine commands of groups (R430 to R432): `launch`, both forms of `copy`, `coll` and `chain`. `strn` stands beside the
Strainer.
-/
namespace Sys2Proof.Machine

/-! ## Reading a block -/

/-- A name for what the issuing cohort asks of other modules, the same each time it issues again. -/
def issueOwner (s : State) : Nat := 2 ^ 60 + (s.issue.core * 64 + s.issue.slot) * 32 + s.issue.lanes.headD 0

/-- The lines of some places, as the place of a byte of each. -/
def linesOf (ps : List (Place × Nat)) : List Place :=
  ps.flatMap fun p => (List.range (p.2 / 128 + 2)).map fun k => p.1.plus (min (128 * k) (p.2 - 1))

/-- Drains a core's entries that share a line with some places (R206, R430). -/
def drainSpan (s : State) (core : Nat) (ps : List (Place × Nat)) : State :=
  (linesOf ps).foldl (fun s p => drainOverlap s core p) s

/-- Whether a write of a core to one of some lines still travels. -/
def spanTravels (s : State) (core : Nat) (ps : List (Place × Nat)) : Bool :=
  let ls := (linesOf ps).map Place.lineOf
  s.ms.flights.any fun f => f.core == core && decide (f.stage = .request) && (match f.kind with
    | .write => f.reads.any fun r => ls.contains r.place.lineOf
    | _ => false)

/-- The cohort parks on a fault of a block or descriptor that it reads (R430, R421). -/
def parkCohort (s : State) (g : Group) (access cause level addr : Nat) : State :=
  let ls := s.issue.lanes
  parkLanes (hold s ls) g.core g.slot access (ls.map fun l => ⟨l, cause, level, BitVec.ofNat 64 addr⟩)

/-- Reads `n` bytes for an engine command (R430): the core's store buffer drains what overlaps them, a fault parks the cohort, and an
answer from another module is awaited. `k` acts on the bytes. (in part DEDUCED, log entry 37) -/
def withBlock (s : State) (g : Group) (a n : Nat) (k : State → List Byte → State) : State :=
  let ls := s.issue.lanes
  let w := whoLane s g 0
  match spanPlaces s w .read a n with
  | (s, .error (c, lv, b)) => parkCohort s g 0 c lv b
  | (s, .ok ps) =>
    let s := drainSpan s g.core ps
    if spanTravels s g.core ps then block s ls
    else match readSpan s (issueOwner s) w a n with
      | (s, .pending) => block s ls
      | (s, .fault c lv b) => parkCohort (dropArrived s (issueOwner s)) g 0 c lv b
      | (s, .data bs) => k (dropArrived s (issueOwner s)) bs

/-- An engine command (R430): it waits where `cp` has no room, and makes the interval unrepeatable when it acts. -/
def engineCommand (s : State) (q : Nat) (body : Group → State → State) : Result :=
  .next (groupIssue s q formG fun g s' => if countFull g s.issue.lanes .cp then block s' s.issue.lanes else body g s')

/-- A command of the issuing cohort from a block's bytes. -/
def cohortCmd (s : State) (g : Group) (k : EngKind) (engine addr : Nat) (b : List Byte) (body : EngBody) : EngCmd :=
  { id := s.fresh, kind := k, engine := engine, part := s.partOf g, issuer := .group g.core g.slot s.issue.lanes, blockAddr := addr,
    head32 := b.take 32, tdec := decide (byteAt b 10 % 2 = 1), tscope := byteAt b 11, tumb := fieldAt b 16 8, amount := fieldAt b 24 8,
    body := body, started := false, paused := none }

/-- Adds a command under a fresh identifier. -/
def addCmd (s : State) (c : EngCmd) : State :=
  { s with eng := { s.eng with cmds := s.eng.cmds ++ [{ c with id := s.fresh }] }, fresh := s.fresh + 1 }

/-- Sends a command of the issuing cohort: `cp` rises and the interval is unrepeatable (R430, R334). -/
def sendCmd (s : State) (g : Group) (c : EngCmd) : State :=
  addCmd (markInterval (countUp s g.core g.slot s.issue.lanes .cp) g) c

/-! ## Copies and collectives -/

/-- Sends a copy of the issuing cohort, recorded in the scoreboard first; a full scoreboard stalls the cohort (R183, R432). -/
def sendCopy (s : State) (g : Group) (addr : Nat) (b : List Byte) (j : CopyJob) : State :=
  let c := cohortCmd s g .copy ((pickEngine s (s.partOf g) (dieOfCore g.core) .copy).getD noEngine) addr b (.copy { j with recorded := true })
  match firstBad [copySpanBad s c.issuer c.part j, haloBad s c j] with
  | some _ => illop s s.issue.lanes
  | none =>
    let es := copyEntries s c j
    if entriesFit s es then sendCmd (recordEntries s es) g c else block s s.issue.lanes

/-- `COPY_BLOCK_CMD` (R432). -/
def execCopyBlockCmd (q x : Nat) (s : State) : Result := engineCommand s q fun g s' =>
  let a := (regG g x).toNat
  if a % 64 ≠ 0 then illop s' s.issue.lanes
  else withBlock s' g a 128 fun s' b =>
    if (copyChecks b).isSome then illop s' s.issue.lanes else sendCopy s' g a b (copyJobOf b)

/-- `COPY_DIRECT` (R432): one row of `n` bytes, without a tumbler. -/
def execCopyDirect (q x y n : Nat) (s : State) : Result := engineCommand s q fun g s' =>
  let src := (regG g x).toNat
  let dst := (regG g y).toNat
  if (localForm src 48).isSome || (localForm dst 56).isSome then illop s' s.issue.lanes
  else sendCopy s' g 0 [] ⟨0, n, 1, src, dst, 0, 0, 0, 0, 0, false⟩

/-- `COLL` (R432): without a collective engine in the partition the command waits. -/
def execColl (q x : Nat) (s : State) : Result := engineCommand s q fun g s' =>
  let a := (regG g x).toNat
  if a % 64 ≠ 0 then illop s' s.issue.lanes
  else withBlock s' g a 128 fun s' b =>
    let j := collJobOf b
    let c := cohortCmd s' g .collective ((pickEngine s' (s'.partOf g) (dieOfCore g.core) .collective).getD noEngine) a b (.coll j)
    if (collChecks b).isSome || (collSpanBad s' c.issuer c.part j).isSome then illop s' s.issue.lanes
    else sendCmd s' g c

/-! ## Chains -/

/-- The checks of a chain descriptor (R115): KIND, which `own` may narrow to the engine's, SCOPE, STATUS by a test, and the reserved bytes. (in part DEDUCED, log entry 37) -/
def descChecks (b : List Byte) (own : BlockCheck) (status : Nat → Bool) : BlockCheck :=
  firstBad [need (byteAt b 32 < 4) errType 32, own, need (6 ≤ byteAt b 33 && byteAt b 33 ≤ 9) errRange 33,
    need (status (byteAt b 34)) errRsvd 34, zeros b 35 64]

/-- The checks of a descriptor that is attached (R115, R432): HALTED and ATTACHED are 0. (in part DEDUCED, log entry 37) -/
def descBad (b : List Byte) : BlockCheck := descChecks b none fun st => decide (st % 4 = 0) && decide (st < 8)

/-- The chain of a descriptor. -/
def chainOf (id desc part engine : Nat) (k : EngKind) (b : List Byte) (stream : Option Nat) (node : Option (Nat × Nat))
    (lanes : Option (Nat × Nat × List Nat)) : Chain :=
  { id := id, desc := desc, part := part, kind := k, engine := engine, head := fieldAt b 0 8, seq := fieldAt b 16 8, tail := fieldAt b 8 8,
    halted := false, needNext := decide (byteAt b 34 / 4 % 2 = 1), errAddr := fieldAt b 24 8, scope := byteAt b 33, stream := stream,
    node := node, running := none, attached := false, loaded := true, waiting := lanes, paused := none, owed := [] }

/-- Adds a chain. -/
def addChain (s : State) (ch : Chain) : State := { s with eng := { s.eng with chains := s.eng.chains ++ [ch] } }

/-- Attaches a chain that waits (R432): its engine serves at most 16. ATTACHED is written, and the `cp` of its lanes falls. (in part DEDUCED, log entry 41) -/
def attachChain (s : State) (ch : Chain) : State :=
  let e := if ch.engine = noEngine then (pickEngine s ch.part 0 ch.kind).getD noEngine else ch.engine
  if ch.attached || e = noEngine || 16 ≤ chainsAt s ch.kind e then s
  else
    let ch2 := { ch with engine := e, attached := true, waiting := none }
    let s := writeDesc (s.updChain ch.id fun _ => ch2) ch2 34 (bytesOfNum 1 ch2.status)
    match ch.waiting with
    | some (core, slot, ls) => countDown s core slot ls .cp
    | none => s

/-- The engine that a group's `chain` goes to (R432). -/
def chainEngine (s : State) (g : Group) (k : EngKind) : Nat :=
  match k with
  | .strainer => quadOf g.core
  | .matrix => g.core
  | k =>
    let own (d : Nat) : List Nat := (enginesOn k d).filter (ownsEngine (s.part (s.partOf g)).setup k)
    let die := dieOfCore g.core
    ((leastLoaded (chainsAt s k) (own die)).or (leastLoaded (chainsAt s k) (own (1 - die)))).getD noEngine

/-- `CHAIN` (R432). -/
def execChain (q x : Nat) (s : State) : Result := engineCommand s q fun g s' =>
  let a := (regG g x).toNat
  let ls := s.issue.lanes
  if a % 64 ≠ 0 then illop s' ls
  else withBlock s' g a 64 fun s' b =>
    match descBad b, kindOf (byteAt b 32) with
    | none, some k =>
      let st := s'.streamOf g
      let ch := chainOf s'.fresh a (s'.partOf g) (chainEngine s' g k) k b (if st = 0xFFFF then none else some st) none (some (g.core, g.slot, ls))
      let s' := markInterval (countUp s' g.core g.slot ls .cp) g
      attachChain { addChain s' ch with fresh := s'.fresh + 1 } ch
    | _, _ => illop s' ls

/-! ## Launch -/

/-- The checks of a queue descriptor (R431). -/
def queueBad (b : List Byte) : Bool :=
  decide (fieldAt b 0 8 % 4096 ≠ 0) || decide (fieldAt b 8 8 % 8 ≠ 0) || decide (byteAt b 16 < 4) || decide (14 < byteAt b 16) ||
    (zeros b 17 32).isSome

/-- The packet that `launch` writes (R431, R100, R112). -/
def launchPacket (lrec handle : Nat) (irq tag : Nat) : List Byte :=
  bytesOfNum 8 (2 + 1024 * irq + 2048 + 4294967296 * tag) ++ bytesOfNum 8 lrec ++ bytesOfNum 8 handle ++ List.replicate 40 0

/-- The atomic add on a tail word by the issuing cohort (R431): the old value, or a fault, or nothing yet; it goes to the word's home (R224). -/
def addTail (s : State) (g : Group) (a : Nat) : State × UnitData :=
  let w := whoLane s g 0
  let owner := issueOwner s + 2 ^ 59
  match translate s w .atomic a with
  | (s, .fault c lv) => (s, .fault c lv a)
  | (s, .ok p) =>
    match arrivedFor s owner p 8 with
    | some x => (dropArrived s owner, if x.cause ≠ 0 then .fault x.cause 0 a else .data (bytesOfNum 8 x.data))
    | none =>
      let s := drainSpan s g.core [(p, 8)]
      if unitBusy s owner || trafficHeld s g [p] then (s, .pending)
      else if s.links.reach w.die p = .here then
        let (s, old, bad) := performAtomic s g.core g.slot p 0 1 1 0
        (s, if bad then .fault 5 0 a else .data (bytesOfNum 8 old))
      else (startAtomic s { unitFlight owner w p.key none with core := g.core, slot := g.slot } 0 1 1 0 .none p (stampsNow s g), .pending)

/-- Keeps the reserved slot with the lanes of the issuing cohort that parked (R431). (in part DEDUCED, log entry 40) -/
def keepReserved (s : State) (ls : List Nat) (t : Nat) : State :=
  s.updLanes s.issue.core s.issue.slot ls fun x => { x with reserved := if x.parked.isSome then some t else none }

/-- Steps 3 and 4 of `launch` (R431): the packet is written in slot `t`, and `cp` falls when it has been performed. -/
def writePacket (s : State) (g : Group) (b : List Byte) (t : Nat) (packet : List Byte) : State :=
  let ls := s.issue.lanes
  let a := (fieldAt b 0 8 + t % 2 ^ byteAt b 16 * 64) % 2 ^ 64
  match translate s (whoLane s g 0) .write a with
  | (s, .fault c lv) => keepReserved (parkCohort s g 1 c lv a) ls t
  | (s, .ok p) =>
    let s := s.updLanes g.core g.slot ls fun x => { x with reserved := none }
    startWrite (countUp s g.core g.slot ls .cp)
      { laneFlight s g ls 0 7 .cp a with release := true, reads := [⟨p, 64, none, false⟩], data := packet } true

/-- Takes a slot for `launch`: steps 1 and 2 (R431). (in part DEDUCED, log entry 40) -/
def takeSlot (s : State) (g : Group) (b : List Byte) (k : State → Nat → State) : State :=
  let ls := s.issue.lanes
  match s.gridOf g with
  | none => s
  | some gr =>
    if 65535 ≤ gr.children then block s ls
    else match addTail s g (fieldAt b 8 8) with
      | (s, .pending) => block s ls
      | (s, .fault c lv a) => parkCohort s g 2 c lv a
      | (s, .data v) => k (markInterval (s.updGrid gr.id fun h => { h with children := h.children + 1 }) g) (numOfBytes v)

/-- `LAUNCH` (R431, R112). A cohort that was replayed goes on with the slot that it reserved. (in part DEDUCED, log entry 30) (in part DEDUCED, log entry 40) -/
def execLaunch (q x y irq tag : Nat) (s : State) : Result := engineCommand s q fun g s' =>
  let ls := s.issue.lanes
  let a := regG g y
  let packet := launchPacket (regG g x).toNat ((s'.gridOf g).map Grid.handle |>.getD 0) irq tag
  if a.toNat % 32 ≠ 0 then failUniform s' 0 a (.trap 9)
  else withBlock s' g a.toNat 32 fun s' b =>
    if queueBad b then illop s' ls
    else
      let s' := releaseDrain s' g 7
      if releaseWaits s' g ls 7 then block s' ls
      else match (g.lane (ls.headD 0)).reserved with
        | some t => writePacket s' g b t packet
        | none => takeSlot s' g b fun s' t => writePacket s' g b t packet

end Sys2Proof.Machine
end

