-- ==== Sys2Proof/Machine/LaneConv.lean ====
section
/-!
DEFINITION. Conversion: `cvt` (R384), `cvtq` (R385) and `dqv` (R386).
-/
namespace Sys2Proof.Machine

/-! ## cvt -/

/-- A source of a conversion: class W for the 64-bit codes (R384). -/
def cvtSource (st a : Nat) (g : Group) (l : Nat) (x : Lane) : Nat :=
  if codeBits st = 64 then (srcW g x a).toNat else (srcV g l x a).toNat

/-- The register of a conversion's operand. -/
def cvtNamed (code k : Nat) : Named := if codeBits code = 64 then .w k else .v k

/-- `cvt` (R384). -/
def effCvt (d a st dt r : Nat) : LaneFn := fun g l x =>
  let (ys, x') := laneDraws x x.glob (if convertDraws st dt (modeOf r) then 1 else 0)
  let q := convert st dt (modeOf r) (ys.getD 0 0) (cvtSource st a g l x)
  (if codeBits dt = 64 then dstW g x' d (BitVec.ofNat 64 q.code) else dstV g x' d (BitVec.ofNat 32 q.code), q.flags)

/-- `CVT`. -/
def execCvt (gd : Guard) (d a st dt r : Nat) (s : State) : Result :=
  laneCompute s gd ⟨[cvtNamed st a], [cvtNamed dt d], true⟩ (effCvt d a st dt r)

/-! ## cvtq -/

/-- `0x7FC0_DEAD` (R124). -/
def invalidWord : Nat := 0x7FC0DEAD

/-- Whether register A(k) of a group is marked invalid (R124). -/
def Group.isInvalid (g : Group) (k : Nat) : Bool := g.invalidA.getLsbD k

/-- Row of A(k) as 32 FP32 codes; a marked register reads as `0x7FC0_DEAD` in every element (R385, R124). -/
def rowOfA (g : Group) (x : Lane) (k : Nat) : List Nat :=
  if g.isInvalid k then List.replicate 32 invalidWord else (List.range 32).map (wordAt (readA g x k))

/-- A block quantised into the bytes of a T register, the side word, the draws taken and the flags (R385). -/
def quantRow (sl : Slot) (xs : List Nat) (ys : List Nat) : List Nat × Nat × FlagSet :=
  let v := xs.map (decodeVal fmtFP32)
  if sl.sfmt = 1 then
    let q := quantBlock sl (v.take sl.len) ys
    (packCodes sl.efmt q.codes, q.scale + 256 * q.special, q.flags)
  else
    let one (i : Nat) (x : Val) : Rounded := roundVal (fmtOf sl.efmt) (modeOf sl.rnd) (ys.getD i 0) x
    let rs := (v.take (if sl.efmt = 0 then 16 else 32)).mapIdx one
    let fl := orAllFlags (rs.map Rounded.flags)
    let fl := if sl.efmt = 1 || sl.efmt = 2 then fl else { fl with of := false, uf := false }
    (packCodes sl.efmt (rs.map Rounded.code), 0x7F, fl)

/-- Draws that a row takes (R385): one for each element under stochastic rounding, none for a block that R238 step 1 resolves. -/
def quantDraws (sl : Slot) (xs : List Nat) : Nat :=
  if sl.rnd ≠ 4 then 0
  else if sl.sfmt = 1 then
    (if blockNonFinite ((xs.take sl.len).map (decodeVal fmtFP32)) then 0 else sl.len)
  else if sl.efmt = 0 then 16 else 32

/-- 64 bytes from some codes: every byte not filled is zero. -/
def fill64 (bs : List Nat) : List Byte := (List.range 64).map fun i => BitVec.ofNat 8 (bs.getD i 0)

/-- `cvtq` (R385). -/
def effCvtq (slot d a c : Nat) : LaneFn := fun g l x =>
  let sl := slotOf slot
  let xs := rowOfA g x a
  let (ys, x') := laneDraws x x.glob (quantDraws sl xs)
  let (bs, side, fl) := quantRow sl xs ys
  (dstV g (writeT g x' d (fill64 bs)) c (BitVec.ofNat 32 side), fl)

/-- `CVTQ`. -/
def execCvtq (gd : Guard) (d a c n : Nat) (s : State) : Result :=
  laneComputeWith s gd ⟨[.a a], [.t d, .v c], true⟩ fun g => homed s (effCvtq (formatOf s g n) d a c)

/-! ## dqv -/

/-- The 32 FP32 codes of a dequantised row and its flags (R386). -/
def dequantRow (sl : Slot) (bs : List Nat) (side : Nat) : List Nat × FlagSet :=
  let n := if sl.sfmt = 1 then sl.len else if sl.efmt = 0 then 16 else 32
  let rs := (List.range n).map fun i => dequantElem sl (side % 256) (side / 256 % 256) (codeAt sl.efmt bs i)
  (rs.map Rounded.code ++ List.replicate (32 - n) 0, orAllFlags (rs.map Rounded.flags))

/-- `dqv` (R386). -/
def effDqv (slot d a b : Nat) : LaneFn := fun g l x =>
  let (cs, fl) := dequantRow (slotOf slot) ((readT g x a).map BitVec.toNat) (srcV g l x b).toNat
  (writeA g x d (bytesOfWords cs), fl)

/-- Clears the invalid mark of A(k) (R124). -/
def Group.clearInvalid (g : Group) (k : Nat) : Group := { g with invalidA := g.invalidA &&& ~~~((1#8) <<< k) }

/-- What `dqv` names; V(B) is read only for a scaled slot (R386), but is checked like any register. -/
def dqvForm (s : State) (d a b n : Nat) : LaneForm :=
  let slot := match s.issuing? with
    | some g => formatOf s g n
    | none => 0
  ⟨.t a :: (if (slotOf slot).sfmt = 1 then [.v b] else []), [.a d, .v b], decide (b < 62)⟩

/-- `DQV`: an execution by all 32 lanes clears the mark of A(D). -/
def execDqv (gd : Guard) (d a b n : Nat) (s : State) : Result :=
  .next (laneIssue s gd (dqvForm s d a b n) fun g act s' =>
    let s' := applyLanes (effDqv (formatOf s g n) d a b) g act s'
    if coversGroup g act then s'.updGroup s.issue.core s.issue.slot fun h => h.clearInvalid d else s')

end Sys2Proof.Machine
end

