-- ==== Sys2Proof/Machine/Matrix.lean ====
section
/-!
DEFINITION. Matrix work (R436 to R447): job cards, signing with a card, K-steps, epilogues, results, faults, and drains.
-/
namespace Sys2Proof.Machine

/-! ## Job cards -/

/-- A field of 4 bytes as a signed number. -/
def signedField (b : List Byte) (i n : Nat) : Int := signedOf (8 * n) (fieldAt b i n)

/-- One level of a card's loop nest (R436). -/
structure CardLevel where
  ext : Nat
  cstr : Int
  astr : Int
  bstr : Int
  deriving DecidableEq, Repr

/-- A job card (R436). -/
structure Card where
  abase : Nat
  bbase : Nat
  aside : Nat
  bside : Nat
  epi : Nat
  apitch : Nat
  bpitch : Nat
  agstr : Int
  btstr : Int
  fmtA : Nat
  fmtB : Nat
  dst : Nat
  split : Bool
  acc : Bool
  mem : Bool
  nt : Nat
  levels : List CardLevel
  cbase : Nat
  cpitch : Nat
  deriving DecidableEq, Repr

/-- Level `n` of a card. -/
def cardLevel (b : List Byte) (n : Nat) : CardLevel :=
  let o := 64 + 12 * n
  ⟨fieldAt b o 2, signedField b (o + 2) 2, signedField b (o + 4) 4, signedField b (o + 8) 4⟩

/-- A bit of the DST byte. -/
def dstBit (b : List Byte) (k : Nat) : Bool := (byteAt b 53).testBit k

/-- The card of its bytes, with the format slots of the grid (R436). -/
def cardOf (b : List Byte) (fs : List Nat) : Card :=
  let inl := dstBit b 6
  { abase := fieldAt b 0 8, bbase := fieldAt b 8 8, aside := fieldAt b 16 8, bside := fieldAt b 24 8, epi := fieldAt b 32 8,
    apitch := fieldAt b 40 2, bpitch := fieldAt b 42 2, agstr := signedField b 44 4, btstr := signedField b 48 4,
    fmtA := if inl then fieldAt b 124 2 else fs.getD (byteAt b 52 % 8) 0,
    fmtB := if inl then fieldAt b 126 2 else fs.getD (byteAt b 52 / 8 % 8) 0,
    dst := byteAt b 53 % 8, split := dstBit b 3, acc := dstBit b 4, mem := dstBit b 5, nt := byteAt b 54,
    levels := (List.range (byteAt b 55)).map (cardLevel b), cbase := fieldAt b 56 8 % 2 ^ 48, cpitch := fieldAt b 62 2 }

/-- Whether an epilogue word is reserved (R443). -/
def epiReserved (e : Nat) : Bool :=
  decide (3 < e / 4 % 8) || decide (5 < e / 64 % 8) || decide (e / 512 % 128 ≠ 0) || decide (e / 2 ^ 63 % 2 = 1)

/-- A check of a side base against its format (R438). -/
def sideOk (side fmt : Nat) : Bool := if (slotOf fmt).sfmt = 0 then side = 0 else side ≠ 0

/-- Whether the destinations of a card fit (R438). -/
def cardFits (c : Card) : Bool :=
  if c.mem then c.dst = 0 && (if c.split then 32 * 8 else 32 * 4) ≤ 16 * c.cpitch
  else if c.split then c.dst % 2 = 0 && c.dst + 2 * c.nt ≤ 8 else c.dst + c.nt ≤ 8

/-- The checks of R438 in byte order; `chain` says that the card stands in a chain block. The error is a code and the byte of the card. -/
def cardChecks (b : List Byte) (fs : List Nat) (chain : Bool) : BlockCheck :=
  let c := cardOf b fs
  let al (off n : Nat) : BlockCheck := need (fieldAt b off n % 16 = 0) errAlign off
  let nlev := byteAt b 55
  let lev (n : Nat) : List BlockCheck :=
    let o := 64 + 12 * n
    if n < nlev then [need (1 ≤ fieldAt b o 2) errRange o, al (o + 4) 4, al (o + 8) 4] else [zeros b o (o + 12)]
  firstBad ([al 0 8, al 8 8, need (sideOk c.aside c.fmtA) errRange 16, need (sideOk c.bside c.fmtB) errRange 24,
      need (!epiReserved c.epi) errRsvd 32, need (!c.split || c.epi = 0) errRange 32, al 40 2, al 42 2, al 44 4, al 48 4,
      need (byteAt b 52 < 64) errRsvd 52,
      need (slotLegal c.fmtA && slotLegal c.fmtB && (slotOf c.fmtA).blk = 0 && (slotOf c.fmtB).blk = 0) errFormat 52,
      need (byteAt b 53 < 128) errRsvd 53, need (!chain || (c.mem && dstBit b 6)) errRange 53, need (cardFits c) errRange 53,
      need (1 ≤ c.nt && c.nt ≤ 8) errRange 54, need (1 ≤ nlev && nlev ≤ 5) errRange 55,
      if c.mem then need (c.cbase % 16 = 0) errAlign 56 else zeros b 56 64] ++
    (List.range 5).flatMap lev ++
    [if dstBit b 6 then need (fieldAt b 124 2 < 2048 && fieldAt b 126 2 < 2048) errRsvd 124 else zeros b 124 128])

/-! ## The loop nest -/

/-- K-steps of a card: the product of its extents (R437). -/
def Card.total (c : Card) : Nat := (c.levels.map CardLevel.ext).prod

/-- The offsets O_A, O_B and O_S of a step: its index vector in lexicographic order (R437). -/
def stepOffsets : List CardLevel → Nat → Int × Int × Int
  | [], _ => (0, 0, 0)
  | v :: rest, s =>
    let inner := (rest.map CardLevel.ext).prod
    let i : Int := (s / inner % v.ext : Nat)
    let (a, b, o) := stepOffsets rest (s % inner)
    (i * v.astr + a, i * v.bstr + b, i * v.cstr + o)

/-- An address and a signed offset, modulo 2^64. -/
def addrPlus (a : Nat) (o : Int) : Nat := (((a : Int) + o) % 2 ^ 64).toNat

/-- Bytes of 32 elements of a slot. -/
def rowBytes (fmt : Nat) : Nat := 4 * codeBits (slotOf fmt).efmt

/-- Side bytes of a block (R236, R437). -/
def sideBytes (fmt : Nat) : Nat := if (slotOf fmt).efmt = 5 then 2 else 1

/-- The spans of the A rows and side bytes of rank `r` in a step (R437). -/
def spansA (c : Card) (s r : Nat) : List (Nat × Nat) :=
  let (oa, _, os) := stepOffsets c.levels s
  (List.range 32).map (fun i => (addrPlus c.abase (r * c.agstr + oa + (i * c.apitch : Nat)), rowBytes c.fmtA)) ++
    (if (slotOf c.fmtA).sfmt = 0 then []
     else (List.range 32).map fun i => (addrPlus c.aside (os + ((32 * r + i) * sideBytes c.fmtA : Nat)), sideBytes c.fmtA))

/-- The spans of the B rows and side bytes of tile `t` in a step (R437). -/
def spansB (c : Card) (s t : Nat) : List (Nat × Nat) :=
  let (_, ob, os) := stepOffsets c.levels s
  (List.range 32).map (fun k => (addrPlus c.bbase (t * c.btstr + ob + (k * c.bpitch : Nat)), rowBytes c.fmtB)) ++
    (if (slotOf c.fmtB).sfmt = 0 then []
     else (List.range 32).map fun j => (addrPlus c.bside (os + ((32 * t + j) * sideBytes c.fmtB : Nat)), sideBytes c.fmtB))

/-- The scale and special bytes of a block. -/
def sideOf (b : List Byte) : Nat × Nat := (byteAt b 0, byteAt b 1)

/-- The values of an A tile: row `i`, element `k`. -/
def tileA (fmt : Nat) (d : List (List Byte)) : List (List Val) :=
  let sl := slotOf fmt
  (List.range 32).map fun i =>
    let row := (d.getD i []).map BitVec.toNat
    let (sc, sp) := sideOf (d.getD (32 + i) [])
    (List.range 32).map fun k => elemValue sl sc sp (codeAt sl.efmt row k)

/-- The values of a B tile: column `j`, element `k`. -/
def tileB (fmt : Nat) (d : List (List Byte)) : List (List Val) :=
  let sl := slotOf fmt
  (List.range 32).map fun j =>
    let (sc, sp) := sideOf (d.getD (32 + j) [])
    (List.range 32).map fun k => elemValue sl sc sp (codeAt sl.efmt ((d.getD k []).map BitVec.toNat) j)

/-- One element after a step: its word or pair of words, and the flags of a split block (R437, R245, R249). -/
def stepElem (split : Bool) (e : Nat) (a b : List Val) : Nat × AgFlags :=
  let terms := (a.zip b).map fun p => some (Val.mul p.1 p.2)
  if split then
    let (x, f) := splitBlock (splitOf (e % 2 ^ 32) (e / 2 ^ 32)) terms
    (x.word0 + 2 ^ 32 * x.word1, f)
  else (code32 (sumBlock (decodeVal fmtFP32 e) terms), noAg)

/-- One tile after a step. -/
def stepTile (split : Bool) (acc : List Nat) (a b : List (List Val)) : List Nat × Nat :=
  let rs := (List.range 1024).map fun n => stepElem split (acc.getD n 0) (a.getD (n / 32) []) (b.getD (n % 32) [])
  (rs.map Prod.fst, agBits ((rs.map Prod.snd).foldl orAg noAg))

/-! ## Epilogue -/

/-- `Epi` (R443) on an FP32 code. -/
def epilogue (e x : Nat) : Nat :=
  let bf (k : Nat) : Nat := code32 (decodeVal fmtBF16 (e / 2 ^ k % 65536))
  let neg (x : Nat) : Bool := Val.lt (decodeVal fmtFP32 x) (.fin false 0 0)
  let x := code32 (decodeVal fmtFP32 x)
  let x := if e.testBit 0 then (fMul fmtFP32 x (bf 16)).code else x
  let x := if e.testBit 1 then (fAdd fmtFP32 x (bf 32)).code else x
  let x := match e / 4 % 8 with
    | 1 => if neg x then 0 else x
    | 2 => (xfn false 8 (BitVec.ofNat 32 x) 0).code
    | 3 => if neg x then (fMul fmtFP32 x 0x3E000000).code else x
    | _ => x
  let x := if e.testBit 5 then clampF32 x (fNeg fmtFP32 (bf 48)) (bf 48) else x
  match e / 64 % 8 with
  | 0 => x
  | c => code32 (decodeVal (fmtOf c) (roundVal (fmtOf c) .nearest 0 (decodeVal fmtFP32 x)).code)

/-! ## Jobs -/

/-- A job by its identifier. -/
def State.job? (s : State) (id : Nat) : Option MatrixJob := s.render.jobs.find? fun j => j.id == id
/-- Changes a job. -/
def State.updJob (s : State) (id : Nat) (f : MatrixJob → MatrixJob) : State :=
  { s with render := { s.render with jobs := s.render.jobs.map fun j => if j.id == id then f j else j } }
/-- Removes a job. -/
def dropJob (s : State) (id : Nat) : State :=
  { s with render := { s.render with jobs := s.render.jobs.filter fun j => j.id != id } }

/-- Who a job translates for (R201, R445). -/
def MatrixJob.who (j : MatrixJob) : Who := ⟨dieOfCore j.core, some j.core, j.part, 2, false⟩

/-- The record of the grid that a job's team belongs to. -/
def jobRecord (s : State) (j : MatrixJob) : LaunchRec :=
  match s.team? j.team with
  | some t => match s.grid? t.grid with
    | some g => g.rcd
    | none => default
  | none => default

/-- The card of a job whose bytes have been read. -/
def jobCard (s : State) (j : MatrixJob) (b : List Byte) : Card := cardOf b (if j.cmd.isSome then [] else (jobRecord s j).fs)

/-- Groups of a job (R437). -/
def MatrixJob.ranks (j : MatrixJob) : Nat := if j.cmd.isSome then 1 else (lanesOf j.decl).length

/-- The stream of a job's record (R91). -/
def jobStream (s : State) (j : MatrixJob) : Nat :=
  match j.cmd with
  | some c => match s.cmd? c with
    | some d => issuerStream s d.issuer
    | none => 0xFFFF
  | none => match s.team? j.team with
    | some t => match s.grid? t.grid with
      | some g => g.stream.getD 0xFFFF
      | none => 0xFFFF
    | none => 0xFFFF

/-- First byte of a destination register of a rank, from the round's end, and the bytes it takes. -/
def dstSpan (c : Card) (r : RankSnap) (t : Nat) : Nat × Nat :=
  if c.split then (r.base + 128 * (c.dst + 2 * t), 256) else (r.base + 128 * (c.dst + t), 128)

/-- The accumulators of rank `r`, tile `t` at the start, from the snapshot or zero (R437, R441). -/
def startTile (c : Card) (r : RankSnap) (t : Nat) : List Nat :=
  let (o, _) := dstSpan c r t
  (List.range 1024).map fun n =>
    if c.acc then
      let m := r.lanes.getD (n / 32) []
      if c.split then m.readN (o + 8 * (n % 32)) 8 else m.readN (o + 4 * (n % 32)) 4
    else 0

/-- The address of row `i` of tile (r, t) in memory (R444). -/
def memRow (c : Card) (r t i : Nat) : Nat :=
  (c.cbase + (32 * r + i) * c.cpitch * 16 + 32 * t * (if c.split then 8 else 4)) % 2 ^ 64

/-- Bytes of an element. -/
def Card.elem (c : Card) : Nat := if c.split then 8 else 4

/-- The rows in memory of every tile, in rank-major order (R444). -/
def memRows (c : Card) (ranks : Nat) : List (Nat × Nat) :=
  (List.range ranks).flatMap fun r => (List.range c.nt).flatMap fun t => (List.range 32).map fun i => (memRow c r t i, 32 * c.elem)

/-- Words of a row of elements. -/
def rowElems (c : Card) (b : List Byte) : List Nat := (List.range 32).map fun j => fieldAt b (c.elem * j) c.elem

/-- Groups a flat list of rows into tiles of 32 rows. -/
def tilesOfRows (c : Card) (rows : List (List Byte)) : Nat → List (List Nat)
  | 0 => []
  | n + 1 => ((rows.take 32).flatMap (rowElems c)) :: tilesOfRows c (rows.drop 32) n

/-! ## Results -/

/-- The bytes of a row of a tile. -/
def rowData (c : Card) (tile : List Nat) (i : Nat) : List Byte :=
  (List.range 32).flatMap fun j => bytesOfNum c.elem (tile.getD (32 * i + j) 0)

/-- Writes tile `t` of a rank to the registers of its group (R444): wherever each lane stands, except lanes that have exited. A group
that no longer holds the destination receives nothing. `mark` sets the invalid mark of the registers (R124), else it is cleared. (in part DEDUCED, log entry 42) -/
def writeTile (s : State) (team : Nat) (c : Card) (r : RankSnap) (t : Nat) (tile : List Nat) (mark : Bool) : State :=
  match s.groupAt team r.group with
  | none => s
  | some g =>
    let (o, n) := dstSpan c r t
    if g.rsize < o + n then s
    else
      let s := (List.range 32).foldl (fun s i =>
        s.updLane g.core (whereIs s g.core g.slot i) i fun x =>
          if x.exited then x else { x with regs := x.regs.writeBytes o (rowData c tile i) }) s
      let regs : BitVec 8 := if c.split then 3#8 <<< (c.dst + 2 * t) else 1#8 <<< (c.dst + t)
      s.updGroup g.core g.slot fun h => { h with invalidA := if mark then h.invalidA ||| regs else h.invalidA &&& ~~~regs }

/-- Every tile of a job to registers; the tiles stand in rank-major order. -/
def writeTiles (s : State) (j : MatrixJob) (c : Card) (tiles : List (List Nat)) (mark : Bool) : State :=
  (List.range j.ranks).foldl (fun s r => (List.range c.nt).foldl (fun s t =>
    writeTile s j.team c (j.regs.getD r default) t (tiles.getD (r * c.nt + t) []) mark) s) s

/-- The places of every row in memory, or the first fault. -/
def rowPlaces (s : State) (w : Who) : List (Nat × Nat) → State × Except (Nat × Nat × Nat) (List (List (Place × Nat)))
  | [] => (s, .ok [])
  | (a, n) :: rest => match spanPlaces s w .write a n with
    | (s, .ok p) => match rowPlaces s w rest with
      | (s, .ok ps) => (s, .ok (p :: ps))
      | r => r
    | (s, .error e) => (s, .error e)

/-- Writes rows at their places. -/
def writeRows (s : State) (k : UnitWrite) (at_ : List Nat) (l : List (List (Place × Nat))) (rows : List (List Byte)) : State :=
  (at_.zip (l.zip rows)).foldl (fun s x => writeSpan s k x.1 x.2.1 x.2.2) s

/-- Every row of every tile. -/
def allRows (c : Card) (tiles : List (List Nat)) : List (List Byte) := tiles.flatMap fun tile => (List.range 32).map (rowData c tile)

/-- AG3 of every declared group receives the flags of a split job (R252). -/
def raiseAg (s : State) (j : MatrixJob) : State :=
  { s with groups := s.groups.map fun g =>
      if j.cmd.isNone && g.team = j.team && j.decl.getLsbD g.index then { g with ag3 := g.ag3 ||| j.flags } else g }

/-- Rounds that waited for the engine may end now (R439). -/
def retryKeys (s : State) (core : Nat) : State :=
  ((s.teams.filter fun t => t.core == core).map Team.id).foldl testKeys s

/-- A job of a keyring leaves the engine: its signers' `mx` entries fall (R444). -/
def leaveEngine (s : State) (j : MatrixJob) : State := retryKeys (lowerSigned (dropJob s j.id) j.team j.signed) j.core

/-- Writes `0x7FC0_DEAD` to what memory rows still can be written (R445). -/
def invalidRows (s : State) (j : MatrixJob) (c : Card) : State :=
  (memRows c j.ranks).foldl (fun s r => match spanPlaces s { j.who with quiet := true } .write r.1 r.2 with
    | (s, .ok ps) => writeSpan s (.plain none j.who) r.1 ps ((List.range (r.2 / 4)).flatMap fun _ => bytesOfNum 4 invalidWord)
    | (s, .error _) => s) s

/-- The destinations of a job that ends without being performed (R124, R445), where its card is known. -/
def invalidate (s : State) (j : MatrixJob) : State :=
  match j.card with
  | none => s
  | some b =>
    let c := jobCard s j b
    let c := { c with nt := min 8 c.nt }
    if c.mem then invalidRows s j c
    else
      let keep (t : Nat) : Bool := if c.split then c.dst + 2 * t + 2 ≤ 8 else c.dst + t + 1 ≤ 8
      let bad := invalidWord + (if c.split then 2 ^ 32 * invalidWord else 0)
      (List.range j.ranks).foldl (fun s r => (List.range c.nt).foldl (fun s t =>
        if keep t then writeTile s j.team c (j.regs.getD r default) t (List.replicate 1024 bad) true else s) s) s

/-- The job of a chain's matrix block, from its card (R116, R439). -/
def chainJob (id : Nat) (c : EngCmd) (card : List Byte) : MatrixJob :=
  { id := id, core := c.engine, part := c.part, team := 0, key := 0, cmd := some c.id, cardAddr := c.blockAddr + 64, card := some card,
    decl := 1, signed := [], step := 0, regs := [], accs := [], flags := 0, paused := none }

/-- The destinations of a matrix block whose chain halts (R124). -/
def invalidBlock (s : State) (c : EngCmd) : State :=
  match c.body with
  | .matrix card => invalidate s (chainJob 0 c card)
  | _ => s

/-- A command fails (R122, R477); a matrix block's destinations are invalid (R124). -/
def failBlock (s : State) (c : EngCmd) (code off : Nat) : State := failCmd (invalidBlock s c) c code off

/-- A command whose last write has been performed completes (R117); a matrix block whose decrement halts its chain leaves invalid destinations
(R124). -/
def completeBlock (s : State) (c : EngCmd) : State :=
  let t := completeCmd s c
  match c.issuer with
  | .chain id => if (t.chain? id).any Chain.halted then invalidBlock t c else t
  | _ => t

/-- `CHAIN_BLOCK_COMPLETE`: the last write of a block is performed; its decrement follows, and SEQ of its chain (R117). Work outside a chain
completes in the same way (R102, R131, R215). -/
def execChainBlockComplete (id : Nat) (s : State) : Result := .next (match s.cmd? id with
  | none => s
  | some c => if c.bodyDone s && c.paused.isNone then completeBlock s c else s)

/-- A job ends without being performed (R445); a chain job halts its chain with a code. -/
def endJob (s : State) (j : MatrixJob) (code off : Nat) : State :=
  let s := invalidate (dropArrived s j.id) j
  match j.cmd with
  | some c => match (dropJob s j.id).cmd? c with
    | some d => failCmd (dropJob s j.id) d code off
    | none => dropJob s j.id
  | none => raisePart (leaveEngine s j) j.part 258

/-- A fault of a job (R445): causes 1, 2 and 6 pause it; the others end it. -/
def jobFault (s : State) (j : MatrixJob) (cause level addr acc : Nat) : State :=
  if cause = 1 || cause = 2 || cause = 6 then
    let unit := if j.cmd.isSome then 224 else 208 + j.key
    let (s, p) := pauseUnit s j.part ⟨addr, 0, j.core, unit, cause, acc + 8, level, jobStream s j, 0, 0⟩
    s.updJob j.id fun j => { j with paused := some p }
  else endJob s j (if cause = 5 then errPoison else errFault) 0

/-! ## Steps -/

/-- Whether the work of a core's engine for a team may run (R142, R338, R439): the Deadbolt lets it, and its partition's matrix cycles are not
held. (in part DEDUCED, log entry 42) -/
def jobMayRun (s : State) (j : MatrixJob) : Bool :=
  j.paused.isNone && !meterHeld s j.part 1 && !s.therm.trip &&
    (j.cmd.isSome ||
      ((match s.team? j.team with
        | some t => teamUnitsRun s t
        | none => false) &&
       !(s.render.jobs.takeWhile fun k => k.id != j.id).any fun k => k.core == j.core && k.cmd.isNone && k.paused.isNone))

/-- The first elements of a job whose card was read (R437): zero, the snapshot, or memory. -/
def startAccs (s : State) (j : MatrixJob) (c : Card) : State × Except UnitData (List (List Nat)) :=
  if c.acc && c.mem then
    match unitReads s j.id j.who .read (memRows c j.ranks) with
    | (s, .ok rows) => (s, .ok (tilesOfRows c rows (j.ranks * c.nt)))
    | (s, .error e) => (s, .error e)
  else if c.mem then (s, .ok (List.replicate (j.ranks * c.nt) (List.replicate 1024 0)))
  else (s, .ok ((List.range j.ranks).flatMap fun r => (List.range c.nt).map fun t => startTile c (j.regs.getD r default) t))

/-- Reads the card of a job and starts its accumulators (R441). -/
def openJob (s : State) (j : MatrixJob) : State :=
  match (match j.card with
    | some b => (s, UnitData.data b)
    | none => unitRead s j.id j.who .read j.cardAddr 128) with
  | (s, .pending) => s
  | (s, .fault cause lv a) => jobFault (dropArrived s j.id) j cause lv a 0
  | (s, .data b) =>
    let j := { j with card := some b }
    let c := jobCard s j b
    match cardChecks b (if j.cmd.isSome then [] else (jobRecord s j).fs) j.cmd.isSome with
    | some (code, off) => endJob s j code (64 + off)
    | none => match startAccs s j c with
      | (s, .error (.fault cause lv a)) => jobFault (dropArrived (s.updJob j.id fun _ => j) j.id) j cause lv a 0
      | (s, .error _) => s.updJob j.id fun _ => j
      | (s, .ok accs) => (dropArrived s j.id).updJob j.id fun _ => { j with accs := accs }

/-- Cycles of one K-step of one tile (R439). -/
def stepCycles (fmt : Nat) : Nat :=
  match (slotOf fmt).efmt with
  | 5 => 1 | 3 => 2 | 4 => 2 | 0 => 16 | _ => 4

/-- Splits the data of some spans into parts of given lengths. -/
def splitParts {α : Type} (l : List α) : List Nat → List (List α)
  | [] => []
  | n :: rest => l.take n :: splitParts (l.drop n) rest

/-- One K-step of every tile of a job (R437). (in part DEDUCED, log entry 42) -/
def jobStep (s : State) (j : MatrixJob) (c : Card) : State :=
  let as := (List.range j.ranks).map fun r => spansA c j.step r
  let bs := (List.range c.nt).map fun t => spansB c j.step t
  match unitReads s j.id j.who .read (as ++ bs).flatten with
  | (s, .error (.fault cause lv a)) => jobFault (dropArrived s j.id) j cause lv a 0
  | (s, .error _) => s
  | (s, .ok d) =>
    let parts := splitParts d ((as ++ bs).map List.length)
    let ta := (List.range j.ranks).map fun r => tileA c.fmtA (parts.getD r [])
    let tb := (List.range c.nt).map fun t => tileB c.fmtB (parts.getD (j.ranks + t) [])
    let rs := (List.range (j.ranks * c.nt)).map fun n =>
      stepTile c.split (j.accs.getD n []) (ta.getD (n / c.nt) []) (tb.getD (n % c.nt) [])
    let s := (dropArrived s j.id).updJob j.id fun j =>
      { j with step := j.step + 1, accs := rs.map Prod.fst, flags := (rs.map Prod.snd).foldl (· ||| ·) j.flags }
    charge s j.part 1 (max (stepCycles c.fmtA) (stepCycles c.fmtB) * j.ranks * c.nt)

/-- `MATRIX_BLOCK`: the job card of a chain's block starts a job (R116, R439). -/
def execMatrixBlock (id : Nat) (s : State) : Result := .next (match s.cmd? id with
  | none => s
  | some c => match c.body with
    | .matrix card =>
      if c.started || c.paused.isSome then s
      else
        { (s.updCmd id fun c => { c with started := true }) with
          render := { s.render with jobs := s.render.jobs ++ [chainJob s.fresh c card] }
          fresh := s.fresh + 1 }
    | _ => s)

/-- `MATRIX_KSTEP`: one K-step of a job, whose card is read first (R437, R439). -/
def execMatrixKstep (id : Nat) (s : State) : Result := .next (match s.job? id with
  | none => s
  | some j =>
    if !jobMayRun s j then s
    else match j.card, j.accs with
      | some b, _ :: _ => if j.step < (jobCard s j b).total then jobStep s j (jobCard s j b) else s
      | _, _ => openJob s j)

/-- The results of a job after the epilogue (R443, R444). -/
def jobResults (s : State) (j : MatrixJob) (c : Card) : List (List Nat) :=
  if c.split then j.accs else j.accs.map fun t => t.map (epilogue c.epi)

/-- A job writes its results (R444); one to memory pauses or ends on a fault before it writes anything. (in part DEDUCED, log entry 42) -/
def writeResults (s : State) (j : MatrixJob) (c : Card) : State :=
  let tiles := jobResults s j c
  if !c.mem then (writeTiles s j c tiles false).updJob j.id fun j => { j with step := j.step + 1 }
  else match rowPlaces s j.who (memRows c j.ranks) with
    | (s, .error (cause, lv, a)) => jobFault s j cause lv a 1
    | (s, .ok ps) =>
      if ps.flatten.any fun p => placeHeld s j.part j.who.die p.1 then s
      else (writeRows s (.plain (some j.id) j.who) ((memRows c j.ranks).map Prod.fst) ps (allRows c tiles)).updJob j.id fun j =>
        { j with step := j.step + 1 }

/-- A job whose writes are performed completes (R444); one of whose writes was refused pauses or ends, and a replay writes its results again. -/
def finishJob (s : State) (j : MatrixJob) : State :=
  if unitBusy s j.id then s
  else match failedWrite s j.id with
    | some x =>
      let j := { j with step := j.step - 1 }
      jobFault ((dropArrived s j.id).updJob j.id fun _ => j) j x.cause 0 x.addr 1
    | none => match j.cmd with
      | some _ => dropJob s j.id
      | none => leaveEngine (raiseAg s j) j

/-- `MATRIX_JOB_COMPLETE`: the results are written, then the `mx` entries of the signers fall (R444). -/
def execMatrixJobComplete (id : Nat) (s : State) : Result := .next (match s.job? id with
  | none => s
  | some j => match j.card with
    | none => s
    | some b =>
      let c := jobCard s j b
      if !jobMayRun s j || j.accs.isEmpty || j.step < c.total then s
      else
        let s := if j.step = c.total then writeResults s j c else s
        match s.job? id with
        | some j => if c.total < j.step then finishJob s j else s
        | none => s)

/-! ## Signing with a card -/

/-- `mxsign` (R440): a misaligned card address sends the lane to its handler; the others sign, and their `mx` entries rise. -/
def mxSign (s : State) (gd : Guard) (key a : Nat) (thenWait : Bool) : Result := .next (laneIssue s gd ⟨[], [], true⟩ fun g act s' =>
  let card (l : Nat) : Nat := (regG (homeOf s g l) a).toNat
  let bad := act.filter fun l => card l % 64 ≠ 0
  let good := act.filter fun l => card l % 64 = 0
  if releaseWaits s' g good 3 || countFull g good .mx then block s' s.issue.lanes
  else
    let s' := signLanes (countUp s' g.core g.slot good .mx) g good key (fun l => some (card l)) thenWait
    trapEnter s' g.core g.slot 9 0 (bad.map fun l => ⟨l, s.issue.pc, regG (homeOf s g l) a, 0⟩))

/-- `MXSIGN` (R440). -/
def execMxsign (gd : Guard) (key a : Nat) (s : State) : Result := mxSign s gd key a false
/-- `MXSIGN_WAIT` (R440). -/
def execMxsignWait (gd : Guard) (key a : Nat) (s : State) : Result := mxSign s gd key a true

/-! ## Drains -/

/-- The mode of a drain (R447). -/
def drainMode (m : Nat) : DrainMode :=
  match m with
  | 0 => .norm | 1 => .diff | 2 => .ratio | _ => .gate

/-- The elements of a lane's split pair at A(a) (R247). -/
def splitRow (g : Group) (x : Lane) (a : Nat) : List SplitElem :=
  (List.range 32).map fun j => let o := g.aAt a + 8 * j; splitOf (x.regs.readN o 4) (x.regs.readN (o + 4) 4)

/-- The FP32 codes that a drain writes, in byte order, and its AG3 bits (R250). A source marked invalid gives `0x7FC0_DEAD`. The group holds
the registers of the lane's home (R279). -/
def drainRow (g : Group) (x : Lane) (m a : Nat) : List Nat × Nat :=
  if g.isInvalid a || g.isInvalid (a + 1) then (List.replicate (if m = 0 then 64 else 32) invalidWord, 0)
  else
    let rs := (splitRow g x a).map (drainElem (drainMode m) g.ag0 g.ag1 g.ag2)
    (rs.flatMap Prod.fst, agBits ((rs.map Prod.snd).foldl orAg noAg))

/-- The row that `mxdrain` writes (R447): its epilogue applies to each value, except to the invalid word. -/
def drainRegs (g : Group) (x : Lane) (m d a e : Nat) : Lane :=
  let inv := g.isInvalid a || g.isInvalid (a + 1)
  let cs := (drainRow g x m a).1.map fun c => if inv then c else epilogue e c
  { x with regs := x.regs.writeBytes (g.aAt d) (cs.flatMap (bytesOfNum 4)) }

/-- Raises AG3 bits in the home group of each lane (R252, R279). -/
def raiseAg3 (s : State) (g : Group) (bits : List (Nat × Nat)) : State :=
  bits.foldl (fun s x => s.updGroup g.core ((g.lane x.1).home.getD g.slot) fun h => { h with ag3 := h.ag3 ||| x.2 }) s

/-- The registers that a drain names. -/
def drainForm (m d a b : Nat) : LaneForm := ⟨[.a a, .a (a + 1), .w b], if m = 0 then [.a d, .a (d + 1)] else [.a d], true⟩

/-- Clears the invalid marks of a drain's destination (R124). -/
def Group.clearDrained (g : Group) (m d : Nat) : Group := if m = 0 then (g.clearInvalid d).clearInvalid (d + 1) else g.clearInvalid d

/-- `MXDRAIN` (R447). Its `mx` entry rises and falls with it. -/
def execMxdrain (gd : Guard) (m d a b : Nat) (s : State) : Result := .next (laneIssue s gd (drainForm m d a b) fun g act s' =>
  let e (l : Nat) : Nat := (srcW g (g.lane l) b).toNat
  let bad := act.filter fun l => epiReserved (e l)
  let good := act.filter fun l => !epiReserved (e l)
  if countFull g good .mx then block s' s.issue.lanes
  else
    let s' := good.foldl (fun s' l => s'.updLane g.core g.slot l fun x => drainRegs (asHome s g l) x m d a (e l)) s'
    let s' := if coversGroup g good then s'.updGroup g.core g.slot (fun h => h.clearDrained m d) else s'
    illop (raiseAg3 s' g (good.map fun l => (l, (drainRow (asHome s g l) (g.lane l) m a).2))) bad)

end Sys2Proof.Machine
end

