-- ==== Sys2Proof/Machine/Blend.lean ====
section
/-!
DEFINITION. The Blend unit and per-lane network evaluation (R448 to R452).
-/
namespace Sys2Proof.Machine

/-! ## Network descriptors -/

/-- One layer of a network (R448). -/
structure NetLayer where
  ow : Nat
  act : Nat
  woff : Nat
  soff : Nat
  deriving DecidableEq, Repr

/-- A network descriptor with its weights slot (R448). -/
structure Net where
  iw : Nat
  slot : Nat
  wbase : Nat
  wside : Nat
  bias : Nat
  layers : List NetLayer
  deriving DecidableEq, Repr

/-- The network of a descriptor's bytes, with the format slots of the grid. -/
def netOf (b : List Byte) (fs : List Nat) : Net :=
  { iw := byteAt b 2, slot := fs.getD (byteAt b 1 % 8) 0, wbase := fieldAt b 8 8, wside := fieldAt b 16 8, bias := fieldAt b 24 8,
    layers := (List.range (byteAt b 0)).map fun l =>
      let o := 32 + 12 * l
      ⟨byteAt b o, byteAt b (o + 1), fieldAt b (o + 4) 4, fieldAt b (o + 8) 4⟩ }

/-- Whether a descriptor is ill-formed (R448). -/
def netBad (b : List Byte) (fs : List Nat) : Bool :=
  let n := netOf b fs
  let nlay := byteAt b 0
  let lay (l : Nat) : BlockCheck :=
    let o := 32 + 12 * l
    if l < nlay then firstBad [need (1 ≤ byteAt b o && byteAt b o ≤ 64) errRange o, need (byteAt b (o + 1) < 4) errRange (o + 1), zeros b (o + 2) (o + 4)]
    else zeros b o (o + 12)
  (firstBad ([need (1 ≤ nlay && nlay ≤ 4) errRange 0, need (byteAt b 1 < 8) errRsvd 1, need (1 ≤ n.iw && n.iw ≤ 64) errRange 2,
      zeros b 3 8, need (n.wbase % 16 = 0) errAlign 8, need (sideOk n.wside n.slot) errRange 16, need (n.bias % 4 = 0) errAlign 24] ++
    (List.range 4).map lay ++
    [zeros b 80 256, need (slotLegal n.slot && ((slotOf n.slot).sfmt = 0 || (slotOf n.slot).blk = 0)) errFormat 1])).isSome

/-- Inputs of layer `l` (R448). -/
def Net.inputs (n : Net) (l : Nat) : Nat := if l = 0 then n.iw else ((n.layers[l - 1]?).map NetLayer.ow).getD 0
/-- The width of the last layer. -/
def Net.last (n : Net) : Nat := ((n.layers.getLast?).map NetLayer.ow).getD 0
/-- `Np` of R448. -/
def padded (ow : Nat) : Nat := (ow + 31) / 32 * 32

/-- The bytes of a row of weights. -/
def Net.rowLen (n : Net) (v : NetLayer) : Nat := padded v.ow * codeBits (slotOf n.slot).efmt / 8

/-- The weight rows of a layer (R448). -/
def Net.weightSpans (n : Net) (l : Nat) (v : NetLayer) : List (Nat × Nat) :=
  (List.range (n.inputs l)).map fun k => ((n.wbase + v.woff + k * n.rowLen v) % 2 ^ 64, n.rowLen v)

/-- The side bytes of a layer, block by block and unit by unit (R448). -/
def Net.sideSpans (n : Net) (l : Nat) (v : NetLayer) : List (Nat × Nat) :=
  if (slotOf n.slot).sfmt = 0 then []
  else (List.range ((n.inputs l + 31) / 32)).flatMap fun s => (List.range v.ow).map fun u =>
    ((n.wside + v.soff + (s * padded v.ow + u) * sideBytes n.slot) % 2 ^ 64, sideBytes n.slot)

/-- The biases of a layer (R448). -/
def Net.biasSpans (n : Net) (l : Nat) (v : NetLayer) : List (Nat × Nat) :=
  if n.bias = 0 then [] else [((n.bias + 256 * l) % 2 ^ 64, 4 * v.ow)]

/-- Everything that a layer reads. -/
def Net.layerSpans (n : Net) (l : Nat) (v : NetLayer) : List (Nat × Nat) := n.weightSpans l v ++ n.sideSpans l v ++ n.biasSpans l v

/-- Everything that a network reads, layer by layer. -/
def Net.spans (n : Net) : List (List (Nat × Nat)) := n.layers.mapIdx fun l v => n.layerSpans l v

/-! ## Evaluation -/

/-- One layer of `NetEval` (R449) on FP32 codes, with what it read: weight rows, then side bytes, then biases. -/
def evalLayer (n : Net) (l : Nat) (v : NetLayer) (d : List (List Byte)) (xs : List Nat) : List Nat :=
  let k := n.inputs l
  let sl := slotOf n.slot
  let x := (List.range k).map fun i => decodeVal fmtBF16 (roundVal fmtBF16 .nearest 0 (decodeVal fmtFP32 (xs.getD i 0))).code
  let sides := d.drop k
  let nsides := (n.sideSpans l v).length
  let bias := sides.getD nsides []
  (List.range v.ow).map fun u =>
    let w (i : Nat) : Val :=
      let (sc, sp) := sideOf (sides.getD (i / 32 * v.ow + u) [])
      elemValue sl sc sp (codeAt sl.efmt ((d.getD i []).map BitVec.toNat) u)
    let acc := if n.bias = 0 then Val.fin false 0 0 else decodeVal fmtFP32 (fieldAt bias (4 * u) 4)
    epilogue (4 * v.act) (code32 (sumK 2 acc ((List.range k).map fun i => Val.mul (x.getD i (.fin false 0 0)) (w i))))

/-- `NetEval` (R449): the results of the last layer. -/
def netEval (n : Net) : Nat → List NetLayer → List (List (List Byte)) → List Nat → List Nat
  | _, [], _, xs => xs
  | l, v :: rest, ds, xs => netEval n (l + 1) rest ds.tail (evalLayer n l v (ds.headD []) xs)

/-! ## Tiles -/

/-- Who the Blend unit of a tile translates for (R201, R452). -/
def BlendTile.who (t : BlendTile) : Who := ⟨dieOfCore t.core, some t.core, t.part, 3, false⟩
/-- A tile by its identifier. -/
def State.tile? (s : State) (id : Nat) : Option BlendTile := s.render.tiles.find? fun t => t.id == id
/-- Changes a tile. -/
def State.updTile (s : State) (id : Nat) (f : BlendTile → BlendTile) : State :=
  { s with render := { s.render with tiles := s.render.tiles.map fun t => if t.id == id then f t else t } }
/-- Removes a tile. -/
def dropTile (s : State) (id : Nat) : State :=
  { s with render := { s.render with tiles := s.render.tiles.filter fun t => t.id != id } }

/-- The open tiles of a core. -/
def openTiles (s : State) (core : Nat) : List BlendTile := s.render.tiles.filter fun t => t.core == core && t.desc.isNone

/-- The format slots of a grid. -/
def gridSlots (s : State) (grid : Nat) : List Nat :=
  match s.grid? grid with
  | some g => g.rcd.fs
  | none => []

/-- Whether a tile takes a row of a group (R450): fewer than 32 rows, and at most MAXG groups. -/
def BlendTile.takes (t : BlendTile) (slot : Nat) : Bool :=
  let gs := (t.rows.map BlendRow.slot).dedup
  decide (t.rows.length < 32) && (gs.contains slot || decide (gs.length < t.maxg))

/-- Puts a row into the open tile of its grid and handle, or into a new one; none while it must wait (R450). -/
def joinTile (s : State) (core part grid handle : Nat) (r : BlendRow) : Option State :=
  match (openTiles s core).find? fun t => t.grid == grid && t.handle == handle with
  | some t => if t.takes r.slot then some (s.updTile t.id fun t => { t with rows := t.rows ++ [r] }) else none
  | none =>
    if 4 ≤ (openTiles s core).length then none
    else
      let q := s.part part
      let t : BlendTile := { id := s.fresh, core := core, part := part, grid := grid, handle := handle, opened := s.time.cycle, win := q.blendWin,
                             maxg := q.blendMaxg, rows := [r], desc := none, ran := false }
      some { s with render := { s.render with tiles := s.render.tiles ++ [t] }, fresh := s.fresh + 1 }

/-- One lane's row at a `neval` (R449): it waits in a tile, or it is blocked. -/
def enterRow (s : State) (g : Group) (d a : Nat) (l handle : Nat) : State × Bool :=
  match s.gridOf g with
  | none => (s, false)
  | some gr =>
    let r : BlendRow := { id := s.fresh, core := g.core, slot := g.slot, lane := l, src := g.aAt a, srcCode := a, dst := g.aAt d, dstCode := d,
                          pc := s.issue.pc, word := s.issue.word, inputs := none }
    match joinTile { s with fresh := s.fresh + 1 } g.core (s.partOf g) gr.id handle r with
    | some s' => (s'.updLane g.core g.slot l fun x => { x with pc := s.issue.pc, wait := .neval r.id }, true)
    | none => (s, false)

/-- Some lanes' rows, in ascending lane; the lanes that must wait. -/
def enterRows (s : State) (g : Group) (d a : Nat) : List (Nat × Nat) → State × List Nat
  | [] => (s, [])
  | (l, h) :: rest =>
    let (s, ok) := enterRow s g d a l h
    let (s, ws) := enterRows s g d a rest
    (s, if ok then ws else l :: ws)

/-- `NEVAL` (R449). (in part DEDUCED, log entry 43) -/
def execNeval (gd : Guard) (d a b : Nat) (s : State) : Result := .next (laneIssue s gd ⟨[.a a, .w b], [.a d], true⟩ fun g act s' =>
  let handle (l : Nat) : Nat := (srcW g (g.lane l) b).toNat
  let bad := act.filter fun l => handle l % 256 ≠ 0
  let good := act.filter fun l => handle l % 256 = 0 && (g.lane l).mx < 63
  let full := act.filter fun l => handle l % 256 = 0 && 63 ≤ (g.lane l).mx
  let (s', ws) := enterRows s' g d a (good.map fun l => (l, handle l))
  let s' := block s' (ws ++ full)
  trapEnter s' g.core g.slot 9 0 (bad.map fun l => ⟨l, s.issue.pc, srcW g (g.lane l) b, 0⟩))

/-! ## Closing -/

/-- Whether a tile closes now (R450): 32 rows, or WIN cycles after its first row; WIN 0 closes it in the cycle after. -/
def BlendTile.closes (t : BlendTile) (cycle : Nat) : Bool :=
  t.desc.isNone && (decide (32 ≤ t.rows.length) || decide (t.opened + max 1 t.win ≤ cycle))

/-- Every lane of a tile enters its handler with cause 10 (R449). -/
def tileIllop (s : State) (t : BlendTile) : State :=
  t.rows.foldl (fun s r => trapEnter s r.core r.slot 10 0 [⟨r.lane, r.pc, r.word, 0⟩]) (dropTile s t.id)

/-- Every lane of a tile parks at its `neval`: one record for each group, with one token (R452). Where the rows of a group stand at different
`neval`, the record holds the PC of the first (DESIGN CHOICE, log entry 43). -/
def tileFault (s : State) (t : BlendTile) (cause level addr : Nat) : State :=
  let s := dropTile s t.id
  if cause = 1 && (s.part t.part).nptrap then
    t.rows.foldl (fun s r => trapEnter s r.core r.slot 1 0 [⟨r.lane, r.pc, BitVec.ofNat 64 addr, 0⟩]) s
  else
    let (tok, s) := newToken s t.part
    let slots := (t.rows.map BlendRow.slot).dedup
    let s := slots.foldl (fun s k =>
      let rs := t.rows.filter fun r => r.slot == k
      putFault s t.part
        { vaddr := addr, lmask := (maskOf (rs.map BlendRow.lane)).toNat, core := t.core, unit := k, cause := cause, access := 12, level := level,
          stream := (match s.group? t.core k with
            | some g => s.streamOf g
            | none => 0xFFFF),
          token := tok, pc := ((rs.head?).map fun r => r.pc.toNat).getD 0 }) s
    t.rows.foldl (fun s r => s.updLane r.core r.slot r.lane fun x =>
      { x with parked := some ⟨cause, tok, [], BitVec.ofNat 64 addr, 12, false, .none, none⟩, wait := .none }) s

/-- Whether a register of a row would pass A7 or RSIZE (R449): a second register is named where a width is above 32. -/
def rowPast (s : State) (n : Net) (r : BlendRow) : Bool :=
  match s.group? r.core r.slot with
  | none => false
  | some g =>
    let bad (first code width : Nat) : Bool := decide (32 < width) && (decide (7 ≤ code) || decide (g.rsize < first + 256))
    bad r.src r.srcCode n.iw || bad r.dst r.dstCode n.last

/-- The inputs of a row (R449): words of A(A), and of A(A + 1) when there are more than 32. -/
def rowInputs (s : State) (n : Net) (r : BlendRow) : List Nat :=
  let x := s.lane r.core r.slot r.lane
  (List.range n.iw).map fun j => x.regs.readN (r.src + 4 * j) 4

/-- A row whose inputs take a second register that is marked invalid raises AINV in its lane's home group (R124, R449). -/
def rowAinv (n : Net) (s : State) (r : BlendRow) : State :=
  match s.group? r.core r.slot with
  | none => s
  | some g =>
    if 32 < n.iw && (Named.a (r.srcCode + 1)).meetsInvalid (homeOf s g r.lane) then raiseOf g [r.lane] (fun _ => flagAINV) s else s

/-- Accepts the rows of a tile (R450): each lane raises its `mx` entry and goes on. (in part DEDUCED, log entry 43) -/
def acceptRows (s : State) (t : BlendTile) (n : Net) (b : List Byte) : State :=
  let rows := t.rows.map fun r => { r with inputs := some (rowInputs s n r) }
  let s := t.rows.foldl (rowAinv n) (s.updTile t.id fun t => { t with rows := rows, desc := some b })
  t.rows.foldl (fun s r => passLanes (countUp s r.core r.slot [r.lane] .mx) r.core r.slot [r.lane] 8) s

/-- Translates some spans: the state, or the first fault. -/
def checkSpans (s : State) (w : Who) : List (Nat × Nat) → State × Option (Nat × Nat × Nat)
  | [] => (s, none)
  | (a, n) :: rest => match spanPlaces s w .read a n with
    | (s, .error e) => (s, some e)
    | (s, .ok _) => checkSpans s w rest

/-- `BLEND_TILE_CLOSE`: a tile closes, reads the descriptor and accepts its rows, or faults them all (R450, R452). -/
def execBlendTileClose (id : Nat) (s : State) : Result := .next (match s.tile? id with
  | none => s
  | some t =>
    if !t.closes s.time.cycle then s
    else match unitRead s t.id t.who .read t.handle 256 with
      | (s, .pending) => s
      | (s, .fault cause lv a) => tileFault (dropArrived s t.id) t cause lv a
      | (s, .data b) =>
        let s := dropArrived s t.id
        let fs := gridSlots s t.grid
        let n := netOf b fs
        if netBad b fs || t.rows.any (rowPast s n) then tileIllop s t
        else match checkSpans s t.who n.spans.flatten with
          | (s, some (cause, lv, a)) => tileFault s t cause lv a
          | (s, none) => acceptRows s t n b)

/-! ## Results -/

/-- Cycles of a tile's step (R439, R450). (in part DEDUCED, log entry 43) -/
def netCycles (n : Net) : Nat :=
  max 4 (stepCycles n.slot) * (n.layers.mapIdx fun l v => (n.inputs l + 31) / 32 * ((v.ow + 31) / 32)).sum

/-- The results of a row, with zeros to the end of the registers written (R449); an unreadable weight gives the canonical NaN in each. (in part DEDUCED, log entry 43) -/
def rowResults (n : Net) (d : Option (List (List (List Byte)))) (xs : List Nat) : List Nat :=
  let len := if 32 < n.last then 64 else 32
  let ys := match d with
    | some d => netEval n 0 n.layers d xs
    | none => List.replicate n.last fmtFP32.nanCode
  (List.range len).map fun i => ys.getD i 0

/-- Writes a row's results to its lane and lowers its `mx` entry; bytes above RSIZE are discarded (R170). -/
def landRow (s : State) (t : BlendTile) (r : BlendRow) (ys : List Nat) : State :=
  let s := s.updGroup r.core r.slot fun g => g.updLane r.lane fun x =>
    if r.dst + 4 * ys.length ≤ g.rsize then { x with regs := x.regs.writeBytes r.dst (ys.flatMap (bytesOfNum 4)) } else x
  let s := countDown s r.core r.slot [r.lane] .mx
  if (t.rows.filter fun x => x.id != r.id).isEmpty then dropTile s t.id
  else s.updTile t.id fun t => { t with rows := t.rows.filter fun x => x.id != r.id }

/-- Cuts data into the lists of some spans. -/
def cutLike (ls : List (List (Nat × Nat))) (d : List (List Byte)) : List (List (List Byte)) := splitParts d (ls.map List.length)

/-- Whether the team of a row still runs on its core. -/
def rowRuns (s : State) (r : BlendRow) : Bool :=
  match s.group? r.core r.slot with
  | none => false
  | some g => match s.teamOf g with
    | some t => decide (t.db = .idle) && decide (t.state ≠ .pending) && !s.therm.trip
    | none => false

/-- A row that moved with its team before its result landed (R339, R452): its descriptor and its inputs are read again. A descriptor that
cannot be used any more gives the canonical NaN, as weights that cannot be read do. (in part DEDUCED, log entry 43) -/
def rereadRow (s : State) (t : BlendTile) (r : BlendRow) (b : List Byte) : State :=
  let put (s : State) (b : List Byte) (n : Net) : State := s.updTile t.id fun t => { t with
    desc := some b, rows := t.rows.map fun x => if x.id == r.id then { x with inputs := some (rowInputs s n r) } else x }
  match unitRead s r.id t.who .read t.handle 256 with
  | (s, .pending) => s
  | (s, .fault _ _ a) =>
    let s := logEvent (dropArrived s r.id) .poison 3 (logSource (dieOfCore t.core) 1) t.part t.core a
    landRow s t r (rowResults (netOf b (gridSlots s t.grid)) none [])
  | (s, .data new) =>
    let s := dropArrived s r.id
    let n := netOf new (gridSlots s t.grid)
    if netBad new (gridSlots s t.grid) || rowPast s n r then landRow s t r (rowResults (netOf b (gridSlots s t.grid)) none []) else put s new n

/-- `BLEND_ROW_WRITEBACK`: the result of an accepted row lands in its lane (R449). The tile is one step of its budget (R140). -/
def execBlendRowWriteback (id : Nat) (s : State) : Result := .next (match s.render.tiles.find? (fun t => t.rows.any fun r => r.id == id) with
  | none => s
  | some t => match t.desc, t.rows.find? fun r => r.id == id with
    | some b, some r =>
      if !rowRuns s r || (!t.ran && meterHeld s t.part 1) then s
      else if r.inputs.isNone then rereadRow s t r b
      else
        let n := netOf b (gridSlots s t.grid)
        match unitReads s r.id t.who .read n.spans.flatten with
        | (s, .error .pending) => s
        | (s, d) =>
          let s := dropArrived s r.id
          let s := if t.ran then s else charge (s.updTile t.id fun t => { t with ran := true }) t.part 1 (netCycles n)
          let (s, d) := match d with
            | .ok d => (s, some (cutLike n.spans d))
            | .error (.fault _ _ a) => (logEvent s .poison 3 (logSource (dieOfCore t.core) 1) t.part t.core a, none)
            | .error _ => (s, none)
          landRow s t r (rowResults n d (r.inputs.getD []))
    | _, _ => s)

end Sys2Proof.Machine
end

