-- ==== Sys2Proof/Machine/Clock.lean ====
section
/-!
DEFINITION. Device time (R47 to R51), the cycles of the arithmetic clock, and thermal and power limits (R52 to R54, R56).
-/
namespace Sys2Proof.Machine

/-! ## Ticks -/

/-- The cores that charge a core cycle in a cycle (R140): a group of a partition that is not held is resident. -/
def cycleCores (s : State) (p : Nat) : Nat :=
  if meterHeld s p 0 then 0
  else ((s.groups.filter fun g => decide (g.core < 288) && s.partOf g == p).map Group.core).dedup.length

/-- Charges the core cycles of one cycle to every partition (R140): a partition whose meter is held charges none. -/
def chargeCycle (s : State) : State := (List.range 16).foldl (fun s p => charge s p 0 (cycleCores s p)) s

/-- Charges core cycles for `n` cycles, one after another (R140): the overdraft is at most one cycle per core. -/
def chargeCycles (s : State) : Nat → State
  | 0 => s
  | n + 1 => chargeCycles (chargeCycle s) n

/-- The tick's sum of the fraction, one tick and ADJ (R48), in 2^-32 ns. -/
def tickSum (t : TimeBase) : Nat := (((t.frac + 4294967296 : Nat) : Int) + t.adj).toNat

/-- The count after a tick (R48, R49): 1 + ADJ × 2^-32 ns with the remainder carried, and what `TIM_STEP` adds. -/
def TimeBase.tick (t : TimeBase) (clock : Nat) : TimeBase :=
  { t with
    now := (t.now + tickSum t / 4294967296 + t.step) % 2 ^ 64
    frac := tickSum t % 4294967296
    step := 0
    cycle := t.cycle + (t.cycFrac + clock) / 100
    cycFrac := (t.cycFrac + clock) % 100 }

/-- Whether the device time base runs (R65): bring-up has started it in step 6. (in part DEDUCED, log entry 64) -/
def timeRuns (s : State) : Bool := decide (7 ≤ s.caddy.bootStep)

/-- `DEVICE_TIME_TICK` (R48, R49, R140): a nanosecond passes. -/
def execDeviceTimeTick (s : State) : Result := .next (
  if timeRuns s then
    let n := (s.time.cycFrac + s.therm.clock) / 100
    chargeCycles { s with time := s.time.tick s.therm.clock } n
  else s)

/-- The 32-bit two's complement value of a word. -/
def signed32 (v : Nat) : Int := if 2147483648 ≤ v % 4294967296 then (v % 4294967296 : Int) - 4294967296 else (v % 4294967296 : Int)

/-- ADJ of a written value, clamped to ±500 ppm (R48). -/
def clampAdj (v : Nat) : Int := max (-2147484) (min 2147484 (signed32 v))

/-- A write of `TIM_ADJ` (R48). -/
def writeAdj (s : State) (v : Nat) : State := { s with time := { s.time with adj := clampAdj v } }
/-- `TIM_ADJ_WRITE`. -/
def execTimAdjWrite (v : Nat) (s : State) : Result := .next (writeAdj s v)

/-- A write of `TIM_STEP` (R49): the value is added at the next tick. -/
def writeStep (s : State) (v : Nat) : State := { s with time := { s.time with step := (s.time.step + v) % 2 ^ 64 } }
/-- `TIM_STEP_WRITE`. -/
def execTimStepWrite (v : Nat) (s : State) : Result := .next (writeStep s v)

/-- `PPS_EDGE` (R50). (in part DEDUCED, log entry 64) -/
def execPpsEdge (s : State) : Result := .next { s with time := { s.time with pps := s.time.now, ppsv := true } }

/-- `PTP_MESSAGE` (R51): the message is timestamped in device time, for the servo that Caddy runs. (in part DEDUCED, log entry 64) -/
def execPtpMessage (kind seqNo remote : Nat) (s : State) : Result := .next (
  if s.caddy.running then
    { s with time := { s.time with ptp := some (kind, seqNo, remote, s.time.now) } }.send (.ptp kind seqNo s.time.now)
  else s)

/-! ## Sensors -/

/-- KIND of a sensor (R56): temperature, voltage, current, power, or none. -/
def sensorKind (n : Nat) : Nat := if n < 96 then 1 else if n < 120 then 2 else if n < 124 then 3 else if n = 124 then 4 else 0

/-- A sensor register takes a sample (R56), in the unit of its KIND: 125 to 127 are reserved, and 124 has the 12 bits of MEAS (R54). -/
def putSample (l : List SensorSample) (x : SensorSample) : List SensorSample :=
  let v := if x.n = 124 then x.value % 4096 else x.value % 65536
  if x.n < 125 then l.map fun y => if y.n = x.n then ⟨x.n, v, sensorKind x.n, true⟩ else y else l

/-- A 16-bit two's complement sample. -/
def signed16 (v : Nat) : Int := if 32768 ≤ v % 65536 then (v % 65536 : Int) - 65536 else (v % 65536 : Int)

/-- The hottest thermal sensor (R52, R53), the lowest index on a tie, with its sample in 0.125 °C. -/
def hottest (l : List SensorSample) : Option (Nat × Int) :=
  (l.filter fun x => decide (x.n < 96) && x.valid).foldl (fun a x => match a with
    | none => some (x.n, signed16 x.value)
    | some (n, v) => if v < signed16 x.value then some (x.n, signed16 x.value) else some (n, v)) none

/-- STATE of `PKG_THERM` for a reading in 0.125 °C (R52, R53). (in part DEDUCED, log entry 64) -/
def thermState (v : Int) : Nat := if v < 760 then 0 else if v < 800 then 1 else if v < 880 then 2 else 3

/-- MEAS (R54, R56): the module's input power, sensor 124. -/
def inputPower (l : List SensorSample) (old : Nat) : Nat :=
  match l.find? fun x => decide (x.n = 124) && x.valid with
  | some x => x.value
  | none => old

/-- Enters a thermal state (R52, R53): a change raises physical-function source 33, and the warning and the trip are logged. (in part DEDUCED, log entry 64) -/
def enterThermal (s : State) (v : Nat) : State :=
  let old := s.therm.state
  if v = old || s.therm.trip then s
  else
    let s := raisePf { s with therm := { s.therm with state := v, trip := decide (v = 3) } } 33
    if v = 3 then logEvent s .trip 5 (logSource 0 9) 255 s.therm.temp s.therm.sensor
    else if v = 1 then logEvent s .thermal 1 (logSource 0 9) 255 s.therm.temp s.therm.sensor
    else s

/-- The registers after the sensors were read (R53, R54). -/
def Thermal.refreshed (t : Thermal) (samples : List SensorSample) : Thermal :=
  let l := samples.foldl putSample t.sensors
  let t := { t with sensors := l, meas := inputPower l t.meas }
  match hottest l with
  | some (n, v) => { t with temp := (v / 8).toNat % 256, sensor := n }
  | none => t

/-- `SENSOR_REFRESH` (R52, R53, R56): Caddy reads the sensors. -/
def execSensorRefresh (samples : List SensorSample) (s : State) : Result := .next (
  if !s.caddy.running then s
  else
    let s := { s with therm := s.therm.refreshed samples }
    match hottest s.therm.sensors with
    | some (_, v) => enterThermal s (thermState v)
    | none => s)

/-- One step of a setting of the clock (R52): down while it must fall, else up, never above 2.5 GHz. -/
def stepClock (clock : Nat) (lower : Bool) : Nat := if lower then clock - 10 else min 250 (clock + 10)

/-- `CLOCK_STEP` (R52, R54): once per ms, each of the two settings moves by 100 MHz. (in part DEDUCED, log entry 64) -/
def execClockStep (s : State) : Result := .next (
  let t := s.therm
  if !s.caddy.running || s.time.now < t.lastStep + 1000000 then s
  else { s with therm := { t with
    heatClock := stepClock t.heatClock (decide (2 ≤ t.state)), capClock := stepClock t.capClock (decide (t.cap < t.meas)), lastStep := s.time.now } })

/-- A write of `PKG_PWRCAP` (R54). -/
def writePwrcap (s : State) (v : Nat) : State := { s with therm := { s.therm with cap := max 600 (min 1800 (v % 4096)) } }
/-- `PKG_PWRCAP_WRITE`. -/
def execPkgPwrcapWrite (v : Nat) (s : State) : Result := .next (writePwrcap s v)

end Sys2Proof.Machine
end

