-- ==== Sys2Proof/Machine/Links.lean ====
section
/-!
DEFINITION. The states of the Hinge modules (R34, R35), scale-up ports (R46), CXL memory ports (R31, R70) and the host link (R67 to R69).
-/
namespace Sys2Proof.Machine

/-! ## The Hinge -/

/-- Changes a Hinge module. -/
def updHinge (s : State) (n : Nat) (f : HingeMod → HingeMod) : State :=
  { s with links := { s.links with hinge := s.links.hinge.modify n f } }

/-- A module retires (R34). -/
def HingeMod.retire (m : HingeMod) : HingeMod := { m with state := 3 }

/-- Failed lanes of a module are repaired (R34): it runs on at full rate, or it is retired when it needs more than four. -/
def HingeMod.repair (m : HingeMod) (lanes : Nat) : HingeMod :=
  if m.state = 3 || lanes = 0 then m
  else if 4 < m.repaired + lanes then m.retire
  else { m with state := if m.state = 2 then 2 else 1, repaired := m.repaired + lanes }

/-- A module that has retrained (R35): up, or up with lanes repaired. -/
def HingeMod.retrained (m : HingeMod) : HingeMod :=
  if m.state = 2 then { m with state := if m.repaired = 0 then 0 else 1 } else m

/-- A CRC retry (R35): the count saturates at 255. -/
def HingeMod.crcRetry (m : HingeMod) : HingeMod := { m with crcerr := min 255 (m.crcerr + 1) }

/-- `HINGE_MODULE_RETRAINED` (R35). (in part DEDUCED, log entry 65) -/
def execHingeModuleRetrained (n : Nat) (s : State) : Result := .next (updHinge s n HingeMod.retrained)
/-- `HINGE_CRC_RETRY` (R35). -/
def execHingeCrcRetry (n : Nat) (s : State) : Result := .next (updHinge s n HingeMod.crcRetry)
/-- CLR of `HNG_MODSTAT`n (R35). -/
def clearCrc (s : State) (n : Nat) : State := updHinge s n fun m => { m with crcerr := 0 }
/-- `HNG_CRCERR_CLEAR` (R35). -/
def execHngCrcerrClear (n : Nat) (s : State) : Result := .next (clearCrc s n)

/-! ## Ports -/

/-- `SCALEUP_PORT_RETRAIN` (R46): a port with failed lanes goes on at four lanes. (in part DEDUCED, log entry 65) -/
def execScaleupPortRetrain (port : Nat) (s : State) : Result := .next
  { s with links := { s.links with ports := s.links.ports.modify port fun n => if n = 0 then 0 else 4 } }

/-- `SCALEUP_PORT_DOWN` (R46). -/
def execScaleupPortDown (port : Nat) (s : State) : Result := .next
  { s with links := { s.links with ports := s.links.ports.set port 0 } }

/-- A CXL memory port trains with an expander (R31): up to 1,152 GB. -/
def Links.cxlTrain (k : Links) (port cap : Nat) : Links :=
  { k with cxlUp := k.cxlUp.set port true, cxlCap := k.cxlCap.set port (min 1152000000000 cap) }

/-- `CXL_PORT_TRAINED` (R31, R70). -/
def execCxlPortTrained (port cap : Nat) (s : State) : Result := .next { s with links := s.links.cxlTrain port cap }

/-- `CXL_PORT_DOWN` (R70): the capacity of the last training stays for the range check. -/
def execCxlPortDown (port : Nat) (s : State) : Result := .next
  { s with links := { s.links with cxlUp := s.links.cxlUp.set port false } }

/-! ## The host link -/

/-- Whether the host link trains at a width and RATE (R67, R68). -/
def hostTrains (width rate : Nat) : Bool := (width == 4 || width == 8 || width == 16) && decide (1 ≤ rate) && decide (rate ≤ 3)

/-- `HOST_LINK_TRAINED` (R67, R68). -/
def execHostLinkTrained (width rate : Nat) (s : State) : Result := .next (
  if hostTrains width rate then { s with links := { s.links with width := width, rate := rate } } else s)

/-- `HOST_LINK_DOWN` (R68, R69): DOWNEV is set, which raises physical-function source 34, and Caddy logs it. -/
def execHostLinkDown (s : State) : Result := .next (
  if s.links.width = 0 then s
  else
    let s := raisePf { s with links := { s.links with width := 0, rate := 0, downev := true } } 34
    logEvent s .hostLinkDown 1 (logSource 0 8) 255 0 0)

end Sys2Proof.Machine
end

