-- ==== Sys2Proof/Machine/Rays.lean ====
section
/-!
DEFINITION. The exact geometry of rays (R267, R268) and the scene records (R263 to R266). FP32 values are multiples of 2^-149, and are held
as those multiples; a distance is a quotient of integers.
-/
namespace Sys2Proof.Machine

/-! ## Exact numbers -/

/-- A finite FP32 code as a multiple of 2^-149; 0 for the others. -/
def fx (c : Nat) : Int :=
  match decodeVal fmtFP32 c with
  | .fin n m e => Val.scaled n m e (-149)
  | _ => 0

/-- Whether an FP32 code is finite. -/
def finite32 (c : Nat) : Bool :=
  match decodeVal fmtFP32 c with
  | .fin _ _ _ => true
  | _ => false

/-- Whether an FP32 code is a positive normal. -/
def normal32 (c : Nat) : Bool := decide (0x00800000 ≤ c) && decide (c < 0x7F800000)

/-- The quotient of two integers, the second not 0. -/
def fracOf (n d : Int) : Frac := if d < 0 then ⟨-n, d.natAbs⟩ else ⟨n, d.natAbs⟩

namespace Frac

/-- `a < b`. -/
def lt (a b : Frac) : Bool := decide (a.num * (b.den : Int) < b.num * (a.den : Int))
/-- `a ≤ b`. -/
def le (a b : Frac) : Bool := decide (a.num * (b.den : Int) ≤ b.num * (a.den : Int))
/-- The greater. -/
def max (a b : Frac) : Frac := if a.lt b then b else a
/-- The lesser. -/
def min (a b : Frac) : Frac := if b.lt a then b else a
/-- The value of a finite FP32 code. -/
def ofCode (c : Nat) : Frac := ⟨fx c, 2 ^ 149⟩

/-- `Rnd(v, FP32, 0, none)`. -/
def round (a : Frac) : Nat :=
  if a.num = 0 then 0
  else
    let k := Nat.log2 a.den + 80
    (roundVal fmtFP32 .nearest 0 (.fin (decide (a.num < 0)) (a.num.natAbs * 2 ^ k / a.den) (-(k : Int)))
      (decide (a.num.natAbs * 2 ^ k % a.den ≠ 0))).code

/-- `a ≤ v` for the value of an FP32 code that may be infinite. -/
def leCode (a : Frac) (c : Nat) : Bool :=
  match decodeVal fmtFP32 c with
  | .nan => false
  | .inf neg => !neg
  | _ => a.le (ofCode c)

end Frac

/-! ## The interval of a ray -/

/-- A ray, and the exact interval it is narrowed to (R267, R283). -/
structure RayLine where
  geom : RayGeom
  clip : Option (Frac × Frac)
  deriving DecidableEq, Repr

/-- TMIN, or the narrowed start. -/
def RayLine.lo (r : RayLine) : Frac :=
  match r.clip with
  | some c => (Frac.ofCode r.geom.tmin).max c.1
  | none => Frac.ofCode r.geom.tmin

/-- `t ≤ TMAX`, and within the narrowed end. -/
def RayLine.below (r : RayLine) (t : Frac) : Bool :=
  t.leCode r.geom.tmax && (match r.clip with
    | some c => t.le c.2
    | none => true)

/-- Whether an exact distance lies in the ray's interval. -/
def RayLine.holds (r : RayLine) (t : Frac) : Bool := r.lo.le t && r.below t

/-- Origin on an axis. -/
def RayGeom.org (r : RayGeom) (a : Nat) : Int := fx (match a with | 0 => r.ox | 1 => r.oy | _ => r.oz)
/-- Direction on an axis. -/
def RayGeom.dir (r : RayGeom) (a : Nat) : Int := fx (match a with | 0 => r.dx | 1 => r.dy | _ => r.dz)

/-- Whether a ray is malformed (R457). -/
def RayGeom.bad (r : RayGeom) : Bool :=
  !([r.ox, r.oy, r.oz, r.dx, r.dy, r.dz, r.tmin].all finite32) || (decide (r.dir 0 = 0) && decide (r.dir 1 = 0) && decide (r.dir 2 = 0)) ||
    (decodeVal fmtFP32 r.tmax).isNan || Val.lt (decodeVal fmtFP32 r.tmax) (decodeVal fmtFP32 r.tmin)

/-- A ray from 32 bytes: ORG, DIR, TMIN and TMAX (R457). -/
def rayOfBytes (b : List Byte) : RayGeom :=
  ⟨fieldAt b 0 4, fieldAt b 4 4, fieldAt b 8 4, fieldAt b 12 4, fieldAt b 16 4, fieldAt b 20 4, fieldAt b 24 4, fieldAt b 28 4⟩

/-! ## Boxes -/

/-- The slab of an axis (R267): nothing where it is empty, no bounds where it is the whole line. -/
def axisSlab (o d lo hi : Int) : Option (Option (Frac × Frac)) :=
  if d = 0 then (if lo ≤ o ∧ o ≤ hi then some none else none)
  else if 0 < d then some (some (fracOf (lo - o) d, fracOf (hi - o) d))
  else some (some (fracOf (hi - o) d, fracOf (lo - o) d))

/-- The intersection of two spans. -/
def meetSpan (a b : Option (Frac × Frac)) : Option (Frac × Frac) :=
  match a, b with
  | none, b => b
  | a, none => a
  | some x, some y => some (x.1.max y.1, x.2.min y.2)

/-- tnear and tfar of a box, where no slab is empty (R267). -/
def boxSpan (r : RayGeom) (lo hi : Nat → Int) : Option (Frac × Frac) :=
  match axisSlab (r.org 0) (r.dir 0) (lo 0) (hi 0), axisSlab (r.org 1) (r.dir 1) (lo 1) (hi 1), axisSlab (r.org 2) (r.dir 2) (lo 2) (hi 2) with
  | some x, some y, some z => meetSpan (meetSpan x y) z
  | _, _, _ => none

/-- `max(tnear, TMIN)` of a box that the ray enters (R267). -/
def boxEntry (r : RayLine) (lo hi : Nat → Int) : Option Frac :=
  match boxSpan r.geom lo hi with
  | none => none
  | some (n, f) => if n.le f && r.lo.le f && r.below n then some (n.max r.lo) else none

/-! ## Triangles -/

/-- A candidate of a triangle test: the exact distance, and the barycentric weights. -/
structure TriHit where
  t : Frac
  bu : Frac
  bv : Frac
  deriving DecidableEq, Repr

/-- The axis that a projection drops (R268). -/
def dropAxis (r : RayGeom) : Nat :=
  let m (a : Nat) : Nat := (r.dir a).natAbs
  if m 0 ≤ m 2 && m 1 ≤ m 2 then 2 else if m 0 ≤ m 1 then 1 else 0

/-- Whether a point whose edge function is `e`, for an edge vector oriented with the interior to its left, lies inside (R268). -/
def edgeInside (e ex ey : Int) : Bool := decide (0 < e) || (decide (e = 0) && (decide (ey < 0) || (decide (ey = 0) && decide (0 < ex))))

/-- The triangle test (R268). `v i a` is vertex i on axis a. -/
def triangleHit (r : RayLine) (cullb : Bool) (v : Nat → Nat → Int) : Option TriHit :=
  let e (i a : Nat) : Int := v i a - v 0 a
  let n (a : Nat) : Int := let b := (a + 1) % 3; let c := (a + 2) % 3; e 1 b * e 2 c - e 1 c * e 2 b
  let o := r.geom.org
  let d := r.geom.dir
  let k := dropAxis r.geom
  let nd := n 0 * d 0 + n 1 * d 1 + n 2 * d 2
  if n k = 0 || nd = 0 || (cullb && decide (0 < nd)) then none
  else
    let tn := n 0 * (v 0 0 - o 0) + n 1 * (v 0 1 - o 1) + n 2 * (v 0 2 - o 2)
    let t := fracOf tn nd
    if !r.holds t then none
    else
      let x := (k + 1) % 3
      let y := (k + 2) % 3
      -- the point relative to a vertex, times `nd`
      let px (i : Nat) : Int := (o x - v i x) * nd + tn * d x
      let py (i : Nat) : Int := (o y - v i y) * nd + tn * d y
      let turn : Int := if 0 < n k then 1 else -1
      let sign : Int := if 0 < nd then 1 else -1
      let inside (i : Nat) : Bool :=
        let j := (i + 1) % 3
        let ex := v j x - v i x
        let ey := v j y - v i y
        edgeInside (turn * sign * (ex * py i - ey * px i)) (turn * ex) (turn * ey)
      if inside 0 && inside 1 && inside 2 then
        some ⟨t, fracOf (px 0 * e 2 y - py 0 * e 2 x) (nd * n k), fracOf (e 1 x * py 0 - e 1 y * px 0) (nd * n k)⟩
      else none

/-! ## Box nodes -/

/-- A child that the ray enters: its entry distance, its address and whether it is a cluster reference. -/
abbrev Child := Frac × Nat × Bool

/-- Inserts a child after those that are entered no later (R267). -/
def insertChild (c : Child) : List Child → List Child
  | [] => [c]
  | x :: rest => if c.1.lt x.1 then c :: x :: rest else x :: insertChild c rest

/-- Whether a box node is malformed as a whole (R263, R266). -/
def boxNodeBad (b : List Byte) : Bool :=
  (List.range 3).any (fun a => byteAt b (12 + a) = 0 || byteAt b (12 + a) = 255) || decide (6 < byteAt b 15) ||
    decide (4096 ≤ fieldAt b 20 2) || (zeros b 22 28).isSome || !((List.range 3).all fun a => finite32 (fieldAt b (4 * a) 4))

/-- Whether child `c` of a box node is malformed (R266). -/
def boxChildBad (b : List Byte) (c : Nat) : Bool :=
  decide (2 ≤ fieldAt b 20 2 / 4 ^ c % 4) || (List.range 3).any fun a => decide (byteAt b (31 + 6 * c + a) < byteAt b (28 + 6 * c + a))

/-- The children that a ray enters, in the order of their visits, and whether something was malformed (R263, R266, R267). -/
def boxChildren (r : RayLine) (addr : Nat) (b : List Byte) : List Child × Bool :=
  if boxNodeBad b then ([], true)
  else
    let end_ (o a : Nat) : Int := fx (fieldAt b (4 * a) 4) + (byteAt b (o + a) : Int) * 2 ^ (byteAt b (12 + a) + 22)
    let base := signedOf 32 (fieldAt b 16 4)
    let cs := List.range (byteAt b 15)
    let kids := cs.filterMap fun c =>
      if boxChildBad b c then none
      else (boxEntry r (end_ (28 + 6 * c)) (end_ (31 + 6 * c))).map fun t =>
        (t, wrapTo 64 ((addr : Int) + (base + c) * 64), decide (fieldAt b 20 2 / 4 ^ c % 4 = 1))
    (kids.foldl (fun l k => insertChild k l) [], cs.any (boxChildBad b))

/-! ## Cluster references and pages -/

/-- PAGE of a cluster reference. -/
def refPage (b : List Byte) : Nat := fieldAt b 24 8
/-- PROXYP. -/
def refProxy (b : List Byte) : Nat := fieldAt b 32 8
/-- PKIND, a malformed one acting as none (R266). -/
def refPkind (b : List Byte) : Nat := if byteAt b 40 / 4 % 4 = 3 then 0 else byteAt b 40 / 4 % 4
/-- Whether a reference is procedural. -/
def refProc (b : List Byte) : Bool := byteAt b 40 % 4 == 1
/-- HGROUP. -/
def refHgroup (b : List Byte) : Nat := fieldAt b 42 2
/-- INST. -/
def refInst (b : List Byte) : Nat := fieldAt b 44 4

/-- Six FP32 values that bound a box: malformed when one is not finite (R266). -/
def boundsBad (b : List Byte) : Bool := !((List.range 6).all fun i => finite32 (fieldAt b (4 * i) 4))
/-- Whether lo > hi on an axis (R266). -/
def boundsCrossed (b : List Byte) : Bool := (List.range 3).any fun a => decide (fx (fieldAt b (12 + 4 * a) 4) < fx (fieldAt b (4 * a) 4))

/-- Whether a cluster reference is skipped as malformed (R264, R266). -/
def refBad (b : List Byte) : Bool :=
  decide (byteAt b 41 ≠ 0) || (zeros b 48 64).isSome || decide (16 ≤ byteAt b 40) || decide (2 ≤ byteAt b 40 % 4) ||
    decide (refPage b % 65536 ≠ 0) || decide (refProxy b % 65536 ≠ 0) || (refProc b && decide (refPage b ≠ 0)) || boundsBad b

/-- Entry of a ray into the box that six FP32 values bound. -/
def boundsEntry (r : RayLine) (b : List Byte) : Option Frac :=
  boxEntry r (fun a => fx (fieldAt b (4 * a) 4)) (fun a => fx (fieldAt b (12 + 4 * a) 4))

/-- Whether a page's header is malformed (R265, R266). -/
def pageBad (b : List Byte) : Bool := decide (fieldAt b 0 2 = 0) || decide (128 < fieldAt b 0 2) || (zeros b 2 64).isSome

/-- Whether a sub-box is malformed (R265, R266). -/
def subBoxBad (b : List Byte) : Bool := boundsBad b || boundsCrossed b || (zeros b 24 32).isSome

/-- The triangles of the sub-boxes that a ray enters, sub-boxes in the order of their entries, and whether one was malformed (R267). -/
def pageTriangles (r : RayLine) (ntri : Nat) (boxes : List (List Byte)) : List Nat × Bool :=
  let kids := boxes.zipIdx.filterMap fun x => if subBoxBad x.1 then none else (boundsEntry r x.1).map fun t => ((t, x.2, false) : Child)
  let order := kids.foldl (fun l k => insertChild k l) []
  (order.flatMap fun c => (List.range 8).map (· + 8 * c.2.1) |>.filter fun i => decide (i < ntri), boxes.any subBoxBad)

/-- Whether a triangle record is malformed (R265, R266). -/
def triBad (b : List Byte) : Bool :=
  decide (2 ≤ byteAt b 40) || (zeros b 41 48).isSome || !((List.range 9).all fun i => finite32 (fieldAt b (4 * i) 4))

/-- The test of a triangle record. -/
def triTest (r : RayLine) (cullb : Bool) (b : List Byte) : Option TriHit :=
  triangleHit r cullb fun i a => fx (fieldAt b (12 * i + 4 * a) 4)

end Sys2Proof.Machine
end

