-- ==== Sys2Proof/Machine/Rng.lean ====
section
/-!
DEFINITION. The random instructions (R453).
-/
namespace Sys2Proof.Machine

/-- A run of V registers; code 60 names none. -/
def vRun (d n : Nat) : List Named := if d < 60 then (List.range n).map fun k => .v (d + k) else []

/-- Writes a run of V registers; code 60 discards it. -/
def dstRun (g : Group) (x : Lane) (d : Nat) (vs : List Nat) : Lane :=
  if d < 60 then { x with regs := x.regs.writeBytes (g.vAt d) (bytesOfWords vs) } else x

/-- The value of a word by the literal of `rng` (R453, R258). -/
def rngValue (k y : Nat) : Nat :=
  match k with
  | 0 => y
  | 1 => (roundVal fmtFP32 .nearest 0 (uniformVal y)).code
  | _ => (roundVal fmtFP32 .nearest 0 (uniformVal1 y)).code

/-- `rng` (R453): one draw, made with code 60 too. -/
def effRng (d k : Nat) : LaneFn := fun g _ x =>
  let (q, x') := laneDraw x x.glob
  (dstV g x' d (BitVec.ofNat 32 (rngValue k q.y0)), noFlags)

/-- `RNG`. -/
def execRng (gd : Guard) (d k : Nat) (s : State) : Result := laneCompute s gd ⟨[], [.v d], true⟩ (effRng d k)

/-- `rngn` (R453): one draw gives four normals. -/
def effRngn (method d : Nat) : LaneFn := fun g _ x =>
  let (q, x') := laneDraw x x.glob
  (dstRun g x' d (normals method q), noFlags)

/-- `RNGN_BM`. -/
def execRngnBm (gd : Guard) (d : Nat) (s : State) : Result := laneCompute s gd ⟨[], vRun d 4, true⟩ (effRngn 0 d)
/-- `RNGN_INV`. -/
def execRngnInv (gd : Guard) (d : Nat) (s : State) : Result := laneCompute s gd ⟨[], vRun d 4, true⟩ (effRngn 1 d)

/-- `rngk` (R453): the lane's random state; nothing is drawn. -/
def effRngk (d a b : Nat) : LaneFn := fun g l x =>
  ({ x with rngKey := srcW g x a, rngPos := srcW g x b, rngStr := srcV g l x d }, noFlags)

/-- `RNGK`. -/
def execRngk (gd : Guard) (d a b : Nat) (s : State) : Result :=
  laneCompute s gd ⟨[.v d, .w a, .w b], [], true⟩ (effRngk d a b)

end Sys2Proof.Machine
end

