-- ==== Sys2Proof/Machine/RayUnit.lean ====
section
/-!
DEFINITION. The traversal unit (R260 to R276, R457, R458): `trace` and `occl`, the walk of a ray one record at a time, shader calls, and the
writing of results.
-/
namespace Sys2Proof.Machine

/-! ## Slots -/

/-- A ray by its identifier. -/
def State.ray? (s : State) (id : Nat) : Option RaySlot := s.render.rays.find? fun r => r.id == id
/-- Changes a ray. -/
def State.updRay (s : State) (id : Nat) (f : RaySlot → RaySlot) : State :=
  { s with render := { s.render with rays := s.render.rays.map fun r => if r.id == id then f r else r } }
/-- Frees a slot. -/
def dropRay (s : State) (id : Nat) : State :=
  { s with render := { s.render with rays := s.render.rays.filter fun r => r.id != id } }
/-- Free slots of a core's unit (R260). -/
def raysFree (s : State) (core : Nat) : Nat := 256 - (s.render.rays.filter fun r => r.core == core).length

/-- The status bits of FLAGS (R261). -/
def flagRaylim : Nat := 18
def flagRestart : Nat := 19
def flagMalformed : Nat := 20
def flagNodeerr : Nat := 21
def flagProxymiss : Nat := 22

/-- Sets a status bit. -/
def RaySlot.set (r : RaySlot) (n : Nat) : RaySlot := { r with flags := r.flags ||| 2 ^ n }
/-- Sets a status bit where a condition holds. -/
def RaySlot.setIf (r : RaySlot) (b : Bool) (n : Nat) : RaySlot := if b then r.set n else r
/-- The FLAGS word of the slot (R261): HIT and PROXY tell the current hit. -/
def RaySlot.word (r : RaySlot) : Nat :=
  r.flags + (match r.hit with
    | some h => 65536 + (if h.proxy then 131072 else 0)
    | none => 0)

/-- The ray's line. -/
def RaySlot.line (r : RaySlot) : RayLine := ⟨r.geom, r.clip⟩
/-- FOPQ, FIRST, CULLB and NOSHD (R261). -/
def RaySlot.fopq (r : RaySlot) : Bool := r.flags.testBit 0
def RaySlot.first (r : RaySlot) : Bool := r.flags.testBit 1
def RaySlot.cullb (r : RaySlot) : Bool := r.flags.testBit 2
def RaySlot.noshd (r : RaySlot) : Bool := r.flags.testBit 3

/-- Whether flags make a ray calling (R260). -/
def callingFlags (fl : Nat) : Bool := !(fl.testBit 0 && fl.testBit 3)

/-- A ray as it enters its slot (R262, R457): a malformed one ends at once. (in part DEDUCED, log entry 45) -/
def startRay (id core part : Nat) (owner : RayOwner) (pc : Word64) (dest : Option (Nat × Nat)) (g : RayGeom) (fl root htab : Nat) : RaySlot :=
  let bad := g.bad || decide (root % 64 ≠ 0)
  { id := id, core := core, part := part, owner := owner, pc := pc, dest := dest, calling := callingFlags fl, geom := g, clip := none,
    flags := fl % 16 + (if bad then 2 ^ flagMalformed else 0), root := root, htab := htab, steps := 0,
    state := if bad then .done else .walk, stack := [(root, false)], page := none, hit := none, cand := none }

/-- Adds a ray, under the state's fresh identifier. -/
def addRay (s : State) (r : RaySlot) : State :=
  { s with render := { s.render with rays := s.render.rays ++ [r] }, fresh := s.fresh + 1 }

/-! ## `trace` and `occl` -/

/-- One lane's ray: a calling one keeps its lane at the instruction (R260, R457). -/
def sendRay (g : Group) (fl a b c : Nat) (dest : Option (Nat × Nat)) (s : State) (l : Nat) : State :=
  let x := g.lane l
  let call := callingFlags fl
  let r := startRay s.fresh g.core (s.partOf g) (.lane g.core g.slot l) s.issue.pc dest (rayOfBytes ((readT g x a).take 32)) fl (srcW g x b).toNat
    (if call then (srcW g x c).toNat else 0)
  let s := addRay s r
  if call then s.updLane g.core g.slot l fun x => { x with pc := s.issue.pc, wait := .ray r.id } else s

/-- The rays of the Active lanes: as many as there are free slots; the other lanes are blocked (R260). -/
def sendRays (s : State) (gd : Guard) (form : LaneForm) (fl a b c : Nat) (dest : Group → Option (Nat × Nat)) : Result :=
  .next (laneIssue s gd form fun g act s' =>
    if countFull g act .mx then block s' s.issue.lanes
    else
      let n := raysFree s g.core
      let s' := block s' (act.drop n)
      (act.take n).foldl (sendRay g fl a b c (dest g)) (countUp s' g.core g.slot (act.take n) .mx))

/-- `TRACE` (R457). -/
def execTrace (gd : Guard) (fl d a b c : Nat) (s : State) : Result :=
  sendRays s gd ⟨[.t a, .w b, .w c], [.t d], false⟩ fl a b c fun g => some (g.tAt d, 64)

/-- `OCCL` (R457): it forces FIRST and FOPQ. -/
def execOccl (gd : Guard) (fl d a b c : Nat) (s : State) : Result :=
  sendRays s gd ⟨[.t a, .w b, .w c], [.v d], false⟩ (fl ||| 3) a b c fun g => if d < 60 then some (g.vAt d, 4) else none

/-! ## Results -/

/-- The HIT field (R261): a procedural hit has no page. -/
def Hit.field (h : Hit) : Nat := if h.proc then 256 else h.key + (if h.proxy then 128 else 0) + h.tri

/-- The 16 words of a hit, or of none, in the layout of R458. -/
def resultWords (h : Option Hit) (flags steps : Nat) : List Nat :=
  match h with
  | none => [0x7F800000, 0, 0, 0, 0, 0, 0, 0, flags, 0, steps * 65536, 0, 0, 0, 0, 0]
  | some h =>
    [h.t, h.bu, h.bv, h.inst, h.field % 4294967296, h.field / 4294967296, h.ref % 4294967296, h.ref / 4294967296, flags, h.primid,
      h.hgroup + 65536 * steps, 0] ++ (List.range 4).map fun i => h.attr.getD i 0

/-- The result of a ray (R458). -/
def RaySlot.result (r : RaySlot) : List Byte := bytesOfWords (resultWords r.hit r.word r.steps)

/-! ## Commits -/

/-- Whether hit `a` comes before hit `b` (R269): by (Rnd(t), PAGE, triangle index). -/
def Hit.before (a b : Hit) : Bool :=
  let x := decodeVal fmtFP32 a.t
  let y := decodeVal fmtFP32 b.t
  Val.lt x y || (Val.eq x y && (decide (a.key < b.key) || (decide (a.key = b.key) && decide (a.tri < b.tri))))

/-- A commit (R269): TMAX and HIT, when the candidate comes before the current hit; a FIRST commit ends the ray (R262). -/
def RaySlot.commit (r : RaySlot) (h : Hit) : RaySlot :=
  if (match r.hit with
    | none => true
    | some c => h.before c) then
    { r with
      hit := some h
      geom := { r.geom with tmax := h.t }
      state := if r.first then .done else r.state }
  else r

/-- The end of a walk's step (R262, R270): the step limit, at which nothing more is done for the record just read, the restart, or the end. -/
def RaySlot.settle (r : RaySlot) : RaySlot :=
  if r.state ≠ .walk then r
  else if 4096 ≤ r.steps then { r.set flagRaylim with state := .done, page := none }
  else if r.page.isSome then r
  else if !r.stack.isEmpty then r
  else if r.flags.testBit flagRestart then { r with flags := r.flags - 2 ^ flagRestart, stack := [(r.root, false)] }
  else { r with state := .done }

/-- Leaves the reference or node under work. -/
def RaySlot.leave (r : RaySlot) : RaySlot := { r with page := none }.settle

/-! ## Faults -/

/-- Who a traversal unit translates for: path `ray`. `quiet` is for cluster pages, whose absence is told by a record of its own (R271). -/
def RaySlot.who (r : RaySlot) (quiet : Bool) : Who := ⟨dieOfCore r.core, some r.core, r.part, 5, quiet⟩

/-- The lane that a ray is traced for: core, slot and lane. -/
def rayLane (s : State) (o : RayOwner) : Option (Nat × Nat × Nat) :=
  match o with
  | .lane core slot l => some (core, slot, l)
  | .march id => (s.render.marches.find? fun m => m.id == id).map fun m => (m.core, m.slot, m.lane)
  | .strainer _ => none

/-- The fault record of a lane's unit (R272): LMASK the lane, UNIT its slot. -/
def laneUnitRec (s : State) (core slot l cause access level addr : Nat) (pc : Word64) : FaultRec :=
  ⟨addr, 2 ^ l, core, slot, cause, access, level, (match s.group? core slot with
    | some g => s.streamOf g
    | none => 0xFFFF), 0, pc.toNat⟩

/-- The record of a node read that faults with cause 1 (R272, R311). (in part DEDUCED, log entry 45) -/
def rayRecord (s : State) (r : RaySlot) (level addr : Nat) : FaultRec :=
  match r.owner with
  | .strainer id => match s.cmd? id with
    | some c => ⟨addr, 0, 0xFFFF, engUnit .strainer c.engine, 1, 20, level, issuerStream s c.issuer, 0, 0⟩
    | none => ⟨addr, 0, 0xFFFF, 0, 1, 20, level, 0xFFFF, 0, 0⟩
  | o => match rayLane s o with
    | some (core, slot, l) => laneUnitRec s core slot l 1 20 level addr r.pc
    | none => laneUnitRec s r.core 0 0 1 20 level addr r.pc

/-- A ray ends with NODEERR and the cause in FLAGS [31:24] (R262, R272). (in part DEDUCED, log entry 45) -/
def RaySlot.nodeErr (r : RaySlot) (cause : Nat) : RaySlot :=
  { r.set flagNodeerr with flags := (r.set flagNodeerr).flags % 16777216 + 16777216 * cause, state := .done, page := none }

/-- A read of a scene record faults: cause 1 pauses the slot (R272, R274), another cause ends the ray. (in part DEDUCED, log entry 45) -/
def rayFault (s : State) (r : RaySlot) (cause level addr : Nat) : State :=
  if cause = 1 then
    let (s, p) := pauseUnit s r.part (rayRecord s r level addr)
    s.updRay r.id fun _ => { r with state := .faulted p }
  else s.updRay r.id fun _ => r.nodeErr cause

/-! ## The walk -/

/-- Pushes the children of a box node: the nearest is visited at once, the others are popped in order; a full stack discards its bottom
entry and sets RESTART (R267, R270). -/
def RaySlot.push (r : RaySlot) (kids : List (Nat × Bool)) : RaySlot :=
  match kids with
  | [] => r
  | k :: rest =>
    let all := rest ++ r.stack
    { r with stack := k :: all.take 56 }.setIf (decide (56 < all.length)) flagRestart

/-- A cluster reference as it is read (R264, R266, R270, R275). A triangle reference whose BOUNDS are crossed loses its box: it is MALFORMED, and
its page is still tested. (in part DEDUCED, log entry 45) -/
def refStep (r : RaySlot) (a : Nat) (b : List Byte) : RaySlot :=
  if refBad b then (r.set flagMalformed).settle
  else
    let r := r.setIf (decide (byteAt b 40 / 4 % 4 = 3)) flagMalformed
    let work : PageWork := ⟨a, b, false, 0, false, [], none⟩
    if refProc b then
      if !r.calling || r.noshd then r.settle
      else if boundsCrossed b then (r.set flagMalformed).settle
      else match boundsEntry r.line b with
        | none => r.settle
        | some _ => { r with page := some work }.settle
    else { r.setIf (boundsCrossed b) flagMalformed with page := some work }.settle

/-- A record of KIND 2 for a cluster page that is not resident (R271, R197). -/
def noteAbsentPage (s : State) (r : RaySlot) (page : Nat) : State :=
  match walk s r.part (dieOfCore r.core) page with
  | .fault _ lv e => noteResidency s r.part (dieOfCore r.core) (page / 65536 * 65536) 2 20 lv r.core e
  | .leaf _ _ _ _ => s

/-- A hit on a proxy box (R271). -/
def proxyBoxHit (w : PageWork) (t : Nat) : Hit :=
  ⟨t, refPage w.bytes, 0, false, true, 0, 0, refInst w.bytes, w.ref, 0, refHgroup w.bytes, []⟩

/-- What a reference does when its page, or its proxy page, is not resident (R271). -/
def absentPage (s : State) (r : RaySlot) (w : PageWork) : State :=
  let page := if w.proxy then refProxy w.bytes else refPage w.bytes
  let s := noteAbsentPage s r page
  if w.proxy then s.updRay r.id fun _ => (r.set flagProxymiss).leave
  else match refPkind w.bytes with
    | 1 =>
      let r := if boundsCrossed w.bytes then r
        else match boundsEntry r.line w.bytes with
          | some t => r.commit (proxyBoxHit w t.round)
          | none => r
      s.updRay r.id fun _ => r.leave
    | 2 => s.updRay r.id fun _ => { r with page := some { w with proxy := true, opened := false, tris := [] } }
    | _ => s.updRay r.id fun _ => r.leave

/-- A read of a cluster page faults (R271, R272). (in part DEDUCED, log entry 45) -/
def pageFault (s : State) (r : RaySlot) (w : PageWork) (cause : Nat) : State :=
  if cause = 1 then absentPage s r w else s.updRay r.id fun _ => r.nodeErr cause

/-- The reads of a page's header (R265, R266): bytes 0 to 63, the sub-boxes of `n` triangles, and the reserved bytes before the records. -/
def boxSpans (page n : Nat) : List (Nat × Nat) := (List.range ((n + 7) / 8)).map fun k => (page + 64 + 32 * k, 32)

/-- The reserved bytes between a page's sub-boxes and its records (R265). -/
def pageGap (page : Nat) : List (Nat × Nat) := (List.range 7).map fun k => (page + 576 + 64 * k, 64)

/-- Reads a page's header, its reserved bytes and its sub-boxes (R265, R266, R267). (in part DEDUCED, log entry 45) -/
def openPage (s : State) (r : RaySlot) (w : PageWork) : State :=
  let page := if w.proxy then refProxy w.bytes else refPage w.bytes
  match unitRead s r.id (r.who true) .read page 64 with
  | (s, .pending) => s
  | (s, .fault c _ _) => pageFault (dropArrived s r.id) r w c
  | (s, .data h) =>
    if pageBad h then (dropArrived s r.id).updRay r.id fun _ => (r.set flagMalformed).leave
    else
      let n := fieldAt h 0 2
      match unitReads s r.id (r.who true) .read (boxSpans page n ++ pageGap page) with
      | (s, .error (.fault c _ _)) => pageFault (dropArrived s r.id) r w c
      | (s, .error _) => s
      | (s, .ok got) =>
        let boxes := got.take (boxSpans page n).length
        let (tris, bad) := pageTriangles r.line n boxes
        let gap := ((got.drop boxes.length).flatten.any (· ≠ 0))
        let r := r.setIf (bad || gap) flagMalformed
        (dropArrived s r.id).updRay r.id fun _ =>
          if gap || tris.isEmpty then r.leave else { r with page := some { w with opened := true, page := page, tris := tris } }

/-- The unit calls a shader (R276): the lane saves its program counter, enters shader state, and goes to the entry. -/
def callShader (s : State) (r : RaySlot) (h : Hit) (entry : Nat) : State :=
  let s := s.updRay r.id fun _ => { r with state := .awaitShd, cand := some h }
  match r.owner with
  | .lane core slot l => s.updLane core slot l fun x =>
      { x with sret := x.pc, shader := true, pc := BitVec.ofNat 64 entry, wait := .none }
  | _ => s

/-- What a hit group record answers (R274): ANYHIT and ISECT, or a malformed record. -/
def hitGroupOf (b : List Byte) : Option (Nat × Nat) :=
  let a := fieldAt b 0 8
  let i := fieldAt b 8 8
  if a % 4 ≠ 0 || i % 4 ≠ 0 || (zeros b 16 32).isSome then none else some (a, i)

/-- Where a reference's hit group record stands (R274). -/
def hitGroupAt (r : RaySlot) (w : PageWork) : Nat := (r.htab + 32 * refHgroup w.bytes) % 2 ^ 64

/-- The candidate of a procedural reference (R460). (in part DEDUCED, log entry 45) -/
def procCandidate (w : PageWork) : Hit :=
  ⟨0x7F800000, w.ref, 0, true, false, 0, 0, refInst w.bytes, w.ref, 0, refHgroup w.bytes, []⟩

/-- A procedural reference that a calling ray has entered: its hit group record, then the call (R274, R275). -/
def procStep (s : State) (r : RaySlot) (w : PageWork) : State :=
  match unitRead s r.id (r.who false) .read (hitGroupAt r w) 32 with
  | (s, .pending) => s
  | (s, .fault c lv a) => rayFault (dropArrived s r.id) r c lv a
  | (s, .data b) =>
    let s := dropArrived s r.id
    match hitGroupOf b with
    | some (_, i) =>
      if i = 0 then s.updRay r.id fun _ => (r.set flagMalformed).leave
      else callShader s { r with page := none } (procCandidate w) i
    | none => s.updRay r.id fun _ => (r.set flagMalformed).leave

/-- The hit of a triangle (R458): a proxy's has no barycentric weights. -/
def triangleHitOf (w : PageWork) (i : Nat) (b : List Byte) (h : TriHit) : Hit :=
  ⟨h.t.round, w.page, i, false, w.proxy, if w.proxy then 0 else h.bu.round, if w.proxy then 0 else h.bv.round, refInst w.bytes, w.ref,
    fieldAt b 36 4, refHgroup w.bytes, (List.range 4).map fun k => fieldAt b (48 + 4 * k) 4⟩

/-- After a triangle: the next one, or the end of the page. -/
def RaySlot.afterTri (r : RaySlot) (w : PageWork) (rest : List Nat) : RaySlot :=
  if r.state = .done then { r with page := none }
  else if rest.isEmpty then r.leave else { r with page := some { w with tris := rest } }

/-- A triangle candidate: its any-hit shader, or its commit (R269, R275). The hit group record is read once for a reference. -/
def candidateStep (s : State) (r : RaySlot) (w : PageWork) (rest : List Nat) (h : Hit) (opaque_ : Bool) : State :=
  if !r.calling || w.proxy || opaque_ || r.fopq then (dropArrived s r.id).updRay r.id fun _ => (r.commit h).afterTri w rest
  else
    let go (s : State) (w : PageWork) (anyhit : Nat) : State :=
      if anyhit = 0 then s.updRay r.id fun _ => (r.commit h).afterTri w rest
      else callShader s { r with page := if rest.isEmpty then none else some { w with tris := rest } } h anyhit
    match w.hg with
    | some a => go (dropArrived s r.id) w a
    | none => match unitRead s r.id (r.who false) .read (hitGroupAt r w) 32 with
      | (s, .pending) => s
      | (s, .fault c lv a) => rayFault (dropArrived s r.id) r c lv a
      | (s, .data b) =>
        let s := dropArrived s r.id
        match hitGroupOf b with
        | some (a, _) => go s { w with hg := some a } a
        | none => s.updRay r.id fun _ => (r.set flagMalformed).leave

/-- The next triangle of a page (R266, R268). -/
def triangleStep (s : State) (r : RaySlot) (w : PageWork) (i : Nat) (rest : List Nat) : State :=
  match unitRead s r.id (r.who true) .read (w.page + 1024 + 64 * i) 64 with
  | (s, .pending) => s
  | (s, .fault c _ _) => pageFault (dropArrived s r.id) r w c
  | (s, .data b) =>
    if triBad b then (dropArrived s r.id).updRay r.id fun _ => (r.set flagMalformed).afterTri w rest
    else match triTest r.line r.cullb b with
      | none => (dropArrived s r.id).updRay r.id fun _ => r.afterTri w rest
      | some h => candidateStep s r w rest (triangleHitOf w i b h) (decide (byteAt b 40 % 2 = 1))

/-- The reference under work. -/
def pageStep (s : State) (r : RaySlot) (w : PageWork) : State :=
  if refProc w.bytes then procStep s r w
  else if !w.opened then openPage s r w
  else match w.tris with
    | [] => s.updRay r.id fun _ => r.leave
    | i :: rest => triangleStep s r w i rest

/-- The next node or reference (R267, R270). -/
def nodeStep (s : State) (r : RaySlot) (a : Nat) (isRef : Bool) (rest : List (Nat × Bool)) : State :=
  match unitRead s r.id (r.who false) .read a 64 with
  | (s, .pending) => s
  | (s, .fault c lv b) => rayFault (dropArrived s r.id) r c lv b
  | (s, .data b) =>
    let r := { r with steps := r.steps + 1, stack := rest }
    (dropArrived s r.id).updRay r.id fun _ =>
      if isRef then refStep r a b
      else
        let (kids, bad) := boxChildren r.line a b
        ((r.setIf bad flagMalformed).push (kids.map Prod.snd)).settle

/-- Whether the work of a lane's unit goes on: not after a thermal trip (R52). -/
def laneUnitRuns (s : State) (core slot : Nat) : Bool :=
  match s.group? core slot with
  | none => false
  | some g => match s.teamOf g with
    | some t => teamUnitsRun s t
    | none => false

/-- Whether a ray goes on. -/
def rayRuns (s : State) (r : RaySlot) : Bool :=
  match r.owner with
  | .strainer _ => true
  | o => match rayLane s o with
    | some (core, slot, _) => laneUnitRuns s core slot
    | none => true

/-- `RAY_NODE_READ`: a ray reads its next record and tests it (R262, R266 to R275). -/
def execRayNodeRead (id : Nat) (s : State) : Result := .next (match s.ray? id with
  | none => s
  | some r =>
    if r.state ≠ .walk || !rayRuns s r then s
    else match r.page, r.stack with
      | some w, _ => pageStep s r w
      | none, (a, isRef) :: rest => nodeStep s r a isRef rest
      | none, [] => s.updRay id fun _ => r.settle)

/-- Writes returned bytes of a unit to a lane's register space; a destination above RSIZE is discarded (R170). -/
def writeDest (s : State) (core slot l : Nat) (dest : Option (Nat × Nat)) (bs : List Byte) : State :=
  match dest with
  | none => s
  | some (at_, n) => s.updGroup core slot fun g => g.updLane l fun x =>
      if at_ + n ≤ g.rsize then { x with regs := x.regs.writeBytes at_ (bs.take n) } else x

/-- The bytes that a ray's result writes: 16 words, or the FLAGS word for `occl` (R457, R458). -/
def RaySlot.resultBytes (r : RaySlot) : List Byte :=
  match r.dest with
  | some (_, 4) => bytesOfNum 4 r.word
  | _ => r.result

/-- A finished ray whose lane stands in a slot: its result is written, `mx` falls, the slot is free, and a calling lane goes on. -/
def giveResult (s : State) (id : Nat) (r : RaySlot) (core slot l : Nat) : State :=
  let s := dropRay (countDown (writeDest s core slot l r.dest r.resultBytes) core slot [l] .mx) id
  if r.calling then passLanes s core slot [l] 8 else s

/-- `RAY_RESULT_WRITE`: the result of a ray is written to its lane, `mx` falls, the slot is free, and a calling lane goes on (R260, R262,
R458), at its home, to which it is swapped back first (R278). -/
def execRayResultWrite (id : Nat) (s : State) : Result := .next (match s.ray? id with
  | none => s
  | some r => match r.owner with
    | .lane core slot l =>
      if r.state ≠ .done || !rayRuns s r then s
      else match r.calling, (s.lane core slot l).home with
        | true, some h => giveResult (swapBack s core slot l) id r core h l
        | _, _ => giveResult s id r core slot l
    | _ => s)

end Sys2Proof.Machine
end

