-- ==== Sys2Proof/Machine/Callable.lean ====
section
/-!
DEFINITION. Target callables (R312 to R315): which words a callable may hold, and its run for one candidate.
-/
namespace Sys2Proof.Machine

/-! ## What a callable may hold -/

/-- The computation of an instruction that a callable may hold, apart from its loads (R313); fast transcendentals run as their reproducible
opcodes (R314). -/
def evalFn (i : Instr) : Option (Guard × LaneFn) :=
  match i with
  | .addB32 gd d a b => some (gd, effAddB32 d a b)
  | .subB32 gd d a b => some (gd, effSubB32 d a b)
  | .mulB32 gd d a b => some (gd, effMulB32 d a b)
  | .mulhiS32 gd d a b => some (gd, effMulhiS32 d a b)
  | .mulhiN32 gd d a b => some (gd, effMulhiN32 d a b)
  | .absS32 gd d a => some (gd, effAbsS32 d a)
  | .negS32 gd d a => some (gd, effNegS32 d a)
  | .minS32 gd d a b => some (gd, effMinS32 d a b)
  | .maxS32 gd d a b => some (gd, effMaxS32 d a b)
  | .minN32 gd d a b => some (gd, effMinN32 d a b)
  | .maxN32 gd d a b => some (gd, effMaxN32 d a b)
  | .minS64 gd d a b => some (gd, effMinS64 d a b)
  | .maxS64 gd d a b => some (gd, effMaxS64 d a b)
  | .minN64 gd d a b => some (gd, effMinN64 d a b)
  | .maxN64 gd d a b => some (gd, effMaxN64 d a b)
  | .addB64 gd d a b => some (gd, effAddB64 d a b)
  | .subB64 gd d a b => some (gd, effSubB64 d a b)
  | .mulB64 gd d a b => some (gd, effMulB64 d a b)
  | .mulhiS64 gd d a b => some (gd, effMulhiS64 d a b)
  | .mulhiN64 gd d a b => some (gd, effMulhiN64 d a b)
  | .absS64 gd d a => some (gd, effAbsS64 d a)
  | .negS64 gd d a => some (gd, effNegS64 d a)
  | .andB32 gd d a b => some (gd, effAndB32 d a b)
  | .orB32 gd d a b => some (gd, effOrB32 d a b)
  | .xorB32 gd d a b => some (gd, effXorB32 d a b)
  | .notB32 gd d a => some (gd, effNotB32 d a)
  | .popcB32 gd d a => some (gd, effPopcB32 d a)
  | .clzB32 gd d a => some (gd, effClzB32 d a)
  | .ctzB32 gd d a => some (gd, effCtzB32 d a)
  | .brevB32 gd d a => some (gd, effBrevB32 d a)
  | .shlB32 gd d a b => some (gd, effShlB32 d a b)
  | .shrB32 gd d a b => some (gd, effShrB32 d a b)
  | .sraB32 gd d a b => some (gd, effSraB32 d a b)
  | .rotB32 gd d a b => some (gd, effRotB32 d a b)
  | .shlB64 gd d a b => some (gd, effShlB64 d a b)
  | .shrB64 gd d a b => some (gd, effShrB64 d a b)
  | .sraB64 gd d a b => some (gd, effSraB64 d a b)
  | .rotB64 gd d a b => some (gd, effRotB64 d a b)
  | .bfeS32 gd d a b => some (gd, effBfeS32 d a b)
  | .bfeN32 gd d a b => some (gd, effBfeN32 d a b)
  | .lea gd f d a b => some (gd, effLea f d a b)
  | .cmpS32 gd c d a b => some (gd, effCmpS32 c d a b)
  | .cmpN32 gd c d a b => some (gd, effCmpN32 c d a b)
  | .cmpS64 gd c d a b => some (gd, effCmpS64 c d a b)
  | .cmpN64 gd c d a b => some (gd, effCmpN64 c d a b)
  | .addB32Imm gd d a imm => some (gd, effAddB32Imm d a imm)
  | .andB32Imm gd d a imm => some (gd, effAndB32Imm d a imm)
  | .orB32Imm gd d a imm => some (gd, effOrB32Imm d a imm)
  | .xorB32Imm gd d a imm => some (gd, effXorB32Imm d a imm)
  | .shlB32Imm gd d a imm => some (gd, effShlB32Imm d a imm)
  | .shrB32Imm gd d a imm => some (gd, effShrB32Imm d a imm)
  | .sraB32Imm gd d a imm => some (gd, effSraB32Imm d a imm)
  | .faddF32 gd d a b => some (gd, effFaddF32 d a b)
  | .fsubF32 gd d a b => some (gd, effFsubF32 d a b)
  | .fmulF32 gd d a b => some (gd, effFmulF32 d a b)
  | .fminF32 gd d a b => some (gd, effFminF32 d a b)
  | .fmaxF32 gd d a b => some (gd, effFmaxF32 d a b)
  | .fabsF32 gd d a => some (gd, effFabsF32 d a)
  | .fnegF32 gd d a => some (gd, effFnegF32 d a)
  | .faddF16x2 gd d a b => some (gd, effFaddF16x2 d a b)
  | .fsubF16x2 gd d a b => some (gd, effFsubF16x2 d a b)
  | .fmulF16x2 gd d a b => some (gd, effFmulF16x2 d a b)
  | .fminF16x2 gd d a b => some (gd, effFminF16x2 d a b)
  | .fmaxF16x2 gd d a b => some (gd, effFmaxF16x2 d a b)
  | .fabsF16x2 gd d a => some (gd, effFabsF16x2 d a)
  | .fnegF16x2 gd d a => some (gd, effFnegF16x2 d a)
  | .faddBf16x2 gd d a b => some (gd, effFaddBf16x2 d a b)
  | .fsubBf16x2 gd d a b => some (gd, effFsubBf16x2 d a b)
  | .fmulBf16x2 gd d a b => some (gd, effFmulBf16x2 d a b)
  | .fminBf16x2 gd d a b => some (gd, effFminBf16x2 d a b)
  | .fmaxBf16x2 gd d a b => some (gd, effFmaxBf16x2 d a b)
  | .fabsBf16x2 gd d a => some (gd, effFabsBf16x2 d a)
  | .fnegBf16x2 gd d a => some (gd, effFnegBf16x2 d a)
  | .fcmpF32 gd c d a b => some (gd, effFcmpF32 c d a b)
  | .frndF32 gd m d a => some (gd, effFrndF32 m d a)
  | .rcp gd d a => some (gd, effRcp false d a)
  | .rsq gd d a => some (gd, effRsq false d a)
  | .sqrt gd d a => some (gd, effSqrt false d a)
  | .div gd d a b => some (gd, effDiv false d a b)
  | .exp2 gd d a => some (gd, effExp2 false d a)
  | .log2 gd d a => some (gd, effLog2 false d a)
  | .sin gd d a => some (gd, effSin false d a)
  | .cos gd d a => some (gd, effCos false d a)
  | .rcpx gd d a => some (gd, effRcp false d a)
  | .rsqx gd d a => some (gd, effRsq false d a)
  | .sqrtx gd d a => some (gd, effSqrt false d a)
  | .divx gd d a b => some (gd, effDiv false d a b)
  | .exp2x gd d a => some (gd, effExp2 false d a)
  | .log2x gd d a => some (gd, effLog2 false d a)
  | .sinx gd d a => some (gd, effSin false d a)
  | .cosx gd d a => some (gd, effCos false d a)
  | .tanh gd d a => some (gd, effTanh false d a)
  | .tanhx gd d a => some (gd, effTanh false d a)
  | .madB32 gd d a b c => some (gd, effMadB32 d a b c)
  | .madB64 gd d a b c => some (gd, effMadB64 d a b c)
  | .fmaF32 gd d a b c r => some (gd, effFmaF32 d a b c r)
  | .fmaF16x2 gd d a b c r => some (gd, effFmaF16x2 d a b c r)
  | .bfiB32 gd d a b c => some (gd, effBfiB32 d a b c)
  | .selB32 gd d a b p => some (gd, effSelB32 d a b p)
  | .fclampF32 gd d a b c => some (gd, effFclampF32 d a b c)
  | .cvt gd d a st dt r => some (gd, effCvt d a st dt r)
  | _ => none

/-- A load of a callable (R313): its guard, whether it is on `.kc`, its bytes, its destination and its address. -/
structure CallLoad where
  gd : Guard
  kc : Bool
  len : Nat
  dest : Dest
  addr : Nat → Lane → Word64

/-- The group that a callable's operands name (R314): 256 bytes of registers, the view at 0, latches that read zero. -/
def evalGroup : Group := { (default : Group) with steps := 1, wlog := 5, lanes := [] }

/-- A load that a callable may hold: `ld` on `.gm` or `.kc`. (in part DESIGN CHOICE, log entry 18) -/
def callLoad (i : Instr) : Option CallLoad :=
  match i with
  | .ldGmB32 gd d a swz off => some ⟨gd, false, 4, destV d 4 false evalGroup, fun _ x => addrLM evalGroup x a off 4 swz⟩
  | .ldGmB64 gd d a swz off => some ⟨gd, false, 8, destW d 8 evalGroup, fun _ x => addrLM evalGroup x a off 8 swz⟩
  | .ldLx gd f d a b m =>
    if m.space = spaceGm || m.space = spaceKc then
      some ⟨gd, decide (m.space = spaceKc), loadSize f, loadDest f d evalGroup, fun l x => addrLX evalGroup l x a b 16 m.imm m.swz (m.cls == 1)⟩
    else none
  | _ => none

/-- Whether a callable may hold an instruction (R313). -/
def callAllowed (i : Instr) : Bool := (evalFn i).isSome || (callLoad i).isSome

/-- The instructions of a callable's words, or none when a word is not allowed (R313). A two-word form takes two. -/
def callInstrs : Nat → List Nat → Option (List Instr)
  | 0, _ => some []
  | _, [] => some []
  | n + 1, w :: rest =>
    let two := isTwoWord w
    if two && rest.isEmpty then none
    else match decodeWords w (if two then rest.headD 0 else 0) with
      | .error _ => none
      | .ok i =>
        if callAllowed i then (callInstrs n (if two then rest.tail else rest)).map (i :: ·) else none

/-! ## A run -/

/-- What a run needs of its pass and candidate: key, FRAME, the base of `.kc`, its pixel position, and the candidate's position. -/
structure CallCtx where
  key : Nat
  frame : Nat
  kcb : Nat
  pix : Nat
  pos : Nat
  deriving DecidableEq, Repr

/-- The evaluator's lane before the first instruction (R314). (in part DESIGN CHOICE, log entry 18) -/
def callLane (x : CallCtx) (gbuf : List Byte) (c : Reservoir) (src : Nat) : Lane :=
  let w (k v : Nat) (m : Mem) : Mem := m.writeN (4 * k) 4 v
  let m : Mem := (Mem.writeBytes [] 0 (gbuf.take 64)).writeN 64 8 c.handle
  { (default : Lane) with
    regs := w 22 x.frame (w 21 src (w 20 (x.pix / 65536) (w 19 (x.pix % 65536) (w 18 c.phat m))))
    rngKey := BitVec.ofNat 64 x.key, rngPos := 0, rngStr := BitVec.ofNat 32 x.frame, glob := x.pix * 16 + x.pos }

/-- How a run ends: the lane, a failure (R315), a pause, or a wait for another module. -/
inductive CallEnd
  | ok (x : Lane)
  | failed
  | pause (cause level addr : Nat)
  | pending

/-- One load of a run (R314, R315). -/
def runLoad (s : State) (owner : Nat) (w : Who) (cx : CallCtx) (ld : CallLoad) (l : Nat) (x : Lane) : State × CallEnd :=
  let a := (ld.addr l x).toNat
  if a % ld.len ≠ 0 || (ld.kc && decide (4294967296 ≤ a)) then (s, .failed)
  else match unitRead s owner w .read (if ld.kc then (cx.kcb + a) % 2 ^ 64 else a) ld.len with
    | (s, .pending) => (s, .pending)
    | (s, .fault c lv b) => (s, if c = 1 then .pause c lv b else .failed)
    | (s, .data bs) => (s, .ok (deliverLane evalGroup x ld.dest (numOfBytes bs)))

/-- Runs the instructions of a callable, in order, once (R312). -/
def runCallable (s : State) (owner : Nat) (w : Who) (cx : CallCtx) (l : Nat) : List Instr → Lane → State × CallEnd
  | [], x => (s, .ok x)
  | i :: rest, x =>
    match callLoad i with
    | some ld =>
      if !guardReads ld.gd x then runCallable s owner w cx l rest x
      else match runLoad s owner w cx ld l x with
        | (s, .ok y) => runCallable s owner w cx l rest y
        | r => r
    | none => match evalFn i with
      | some (gd, f) => runCallable s owner w cx l rest (if guardReads gd x then (f evalGroup l x).1 else x)
      | none => (s, .failed)

end Sys2Proof.Machine
end

