-- ==== Sys2Proof/Machine/Strainer.lean ====
section
/-!
DEFINITION. The Strainer (R302 to R318): the checks of its blocks, passes pixel by pixel, visibility rays, results, and advances.
-/
namespace Sys2Proof.Machine

/-! ## Blocks -/

/-- A signed byte of a block. -/
def sbyteAt (b : List Byte) (i : Nat) : Int := signedOf 8 (byteAt b i)

/-- The offsets table of a pass (R306). -/
def ptabChecks (b : List Byte) : List BlockCheck :=
  let patt := byteAt b 42 / 8 % 2
  (List.range 8).map fun i =>
    let o := 112 + 2 * i
    if patt = 1 && i < byteAt b 40 then
      need (decide ((sbyteAt b o).natAbs ≤ byteAt b 41) && decide ((sbyteAt b (o + 1)).natAbs ≤ byteAt b 41)) errRange o
    else zeros b o (o + 2)

/-- The checks of a Strainer block that need the block alone (R305, R306). (in part DEDUCED, log entry 37) (in part DEDUCED, log entry 49) -/
def strainerChecks (b : List Byte) : BlockCheck :=
  if byteAt b 8 = 1 then firstBad (headerChecks b 2 1 ++ [need (byteAt b 36 < 16) errRsvd 36, zeros b 37 64])
  else firstBad (headerChecks b 2 3 ++
    [need (1 ≤ fieldAt b 36 2) errRange 36, need (1 ≤ fieldAt b 38 2 && fieldAt b 36 2 * fieldAt b 38 2 ≤ 16) errRange 38,
     need (byteAt b 40 ≤ 8) errRange 40, need (1 ≤ byteAt b 41 && byteAt b 41 ≤ 32) errRange 41, need (byteAt b 42 < 16) errRsvd 42,
     zeros b 43 44, need (fieldAt b 56 8 % 4 = 0) errAlign 56, need ([16, 32, 48, 64].contains (fieldAt b 72 2)) errRange 72, zeros b 74 80,
     need (fieldAt b 88 8 % 64 = 0) errAlign 88, zeros b 104 112] ++ ptabChecks b ++ [zeros b 128 192])

/-- `STRN` (R432): the Strainer of the issuing core's quad runs the block. -/
def execStrn (q x : Nat) (s : State) : Result := engineCommand s q fun g s' =>
  let a := (regG g x).toNat
  if a % 64 ≠ 0 then illop s' s.issue.lanes
  else withBlock s' g a 64 fun s' b0 =>
    withBlock s' g a (if byteAt b0 8 = 1 then 64 else 192) fun s' b =>
      if (strainerChecks b).isSome then illop s' s.issue.lanes
      else sendCmd s' g (cohortCmd s' g .strainer (quadOf g.core) a b (.strainer (strainerJobOf b)))

/-! ## A pass -/

/-- Fields of a pass block (R305). -/
def StrainJob.tx0 (j : StrainJob) : Nat := fieldAt j.bytes 32 2
def StrainJob.ty0 (j : StrainJob) : Nat := fieldAt j.bytes 34 2
def StrainJob.ntx (j : StrainJob) : Nat := fieldAt j.bytes 36 2
def StrainJob.nty (j : StrainJob) : Nat := fieldAt j.bytes 38 2
def StrainJob.nsp (j : StrainJob) : Nat := byteAt j.bytes 40
def StrainJob.rad (j : StrainJob) : Nat := byteAt j.bytes 41
def StrainJob.flag (j : StrainJob) (n : Nat) : Bool := (byteAt j.bytes 42).testBit n
def StrainJob.mcap (j : StrainJob) : Nat := fieldAt j.bytes 44 2
def StrainJob.tmcap (j : StrainJob) : Nat := fieldAt j.bytes 46 2
def StrainJob.key (j : StrainJob) : Nat := fieldAt j.bytes 48 8
def StrainJob.call (j : StrainJob) : Nat := fieldAt j.bytes 56 8
def StrainJob.gbuf (j : StrainJob) : Nat := fieldAt j.bytes 64 8
def StrainJob.gstr (j : StrainJob) : Nat := fieldAt j.bytes 72 2
def StrainJob.motion (j : StrainJob) : Nat := fieldAt j.bytes 80 8
def StrainJob.root (j : StrainJob) : Nat := fieldAt j.bytes 88 8
def StrainJob.kcb (j : StrainJob) : Nat := fieldAt j.bytes 96 8

/-- What a pass latched (R309). -/
def StrainJob.screen (j : StrainJob) : Screen := ⟨j.tcols, j.trows, j.bandw, j.halod⟩

/-- Replaces the job of a command. -/
def setStrain (s : State) (id : Nat) (j : StrainJob) : State := s.updCmd id fun c => { c with body := .strainer j }

/-- The die of a command's engine, which a pass latches at its start (R309, R317). -/
def EngCmd.die (c : EngCmd) : Nat := engDie c.kind c.engine

/-- The tiles of a rectangle that a die owns, in row order (R307). -/
def ownTiles (j : StrainJob) (die : Nat) : List (Nat × Nat) :=
  (List.range j.nty).flatMap fun r => ((List.range j.ntx).map fun c => (j.tx0 + c, j.ty0 + r)).filter fun t => j.screen.owner t.1 = die

/-- The position of pixel `pi` of a tile: x + 65,536 y (R292, R297). -/
def pixOf (tc tr pi : Nat) : Nat := (16 * tc + pi % 16) + 65536 * (16 * tr + pi / 16)

/-- The number of a pixel in tile-major buffers (R305). -/
def pixelNumber (v : Screen) (x y : Nat) : Nat := (x / 16 + v.tcols * (y / 16)) * 256 + 16 * (y % 16) + x % 16

/-- A read of a pass. -/
def strainRead (s : State) (c : EngCmd) (a n : Nat) : State × UnitData := readSpan s c.id c.who (a % 2 ^ 64) n

/-- Reads a callable's header and words (R313): the words, or an error code, or a fault. -/
def readCallable (s : State) (c : EngCmd) (a : Nat) : State × Except UnitData (Except Nat (List Nat)) :=
  match strainRead s c a 4 with
  | (s, .data h) =>
    let n := numOfBytes h
    if n = 0 || 64 < n then (s, .ok (.error errRange))
    else match strainRead s c (a + 4) (4 * n) with
      | (s, .data b) =>
        let ws := (List.range n).map fun i => fieldAt b (4 * i) 4
        (s, .ok (match callInstrs n ws with
          | some _ => .ok ws
          | none => .error errType))
      | (s, r) => (s, .error r)
  | (s, r) => (s, .error r)

/-- A read of the callable faults (R306): cause 1 pauses, poison and other causes fail the pass. (in part DEDUCED, log entry 49) -/
def callableFault (s : State) (c : EngCmd) (cause level addr : Nat) : State :=
  let s := dropArrived s c.id
  if cause = 1 then pauseCmd s c 1 level addr 3 else failCmd s c (if cause = 5 then errPoison else errFault) 56

/-- A pass starts (R306, R309): what it latches, and the checks that need it. -/
def startPass (s : State) (c : EngCmd) (j : StrainJob) : State :=
  let q := s.part c.part
  let die := c.die
  let v := screenOn q die
  let j := { j with die := die, frame := q.res.frame die, tcols := v.tcols, trows := v.trows, bandw := v.bandw, halod := v.halod }
  let tiles := ownTiles j die
  if v.tcols < j.tx0 + j.ntx then failCmd s c errRange 36
  else if v.trows < j.ty0 + j.nty then failCmd s c errRange 38
  else if !tiles.isEmpty && q.res.back die = 0 then failCmd s c errFault 0
  else match readCallable s c j.call with
    | (s, .error (.fault cause lv a)) => callableFault s c cause lv a
    | (s, .error _) => s
    | (s, .ok (.error code)) => failCmd (dropArrived s c.id) c code 56
    | (s, .ok (.ok ws)) =>
      let pixels := tiles.flatMap fun t => (List.range 256).map (pixOf t.1 t.2)
      (dropArrived s c.id).updCmd c.id fun c => { c with started := true, body := .strainer { j with words := ws, pixels := pixels } }

/-- `STRAINER_PASS` (R305 to R309). -/
def execStrainerPass (id : Nat) (s : State) : Result := .next (match s.cmd? id with
  | none => s
  | some c => match c.body with
    | .strainer j => if c.started || c.stopped s || byteAt j.bytes 8 = 1 then s else startPass s c j
    | _ => s)

/-! ## Candidates -/

/-- The address of a pixel's record in a logical plane (R297, R309), or none while the die has no backing region (R301). -/
def StrainJob.recordAt (j : StrainJob) (s : State) (c : EngCmd) (plane x y : Nat) : Option Nat :=
  let back := (s.part c.part).res.back j.die
  if back = 0 then none else some (recordAddr back j.screen (physPlane plane j.frame) (x / 16) (y / 16) (16 * (y % 16) + x % 16))

/-- The record of a pixel in a logical plane: a fault, or the record (R297). Without a backing region the access faults with cause 8 (R301). -/
def pixelRecord (s : State) (c : EngCmd) (j : StrainJob) (plane x y : Nat) : State × Except UnitData Reservoir :=
  match j.recordAt s c plane x y with
  | none => (s, .error (.fault 8 0 0))
  | some a => match strainRead s c a 32 with
    | (s, .data b) => (s, .ok (recordOfBytes b))
    | (s, r) => (s, .error r)

/-- `Neighbour` (R308). -/
def neighbour (s : State) (c : EngCmd) (j : StrainJob) (x y : Int) : State × Except UnitData (Option Reservoir) :=
  let v := j.screen
  if x < 0 || y < 0 || (16 * v.tcols : Nat) ≤ x || (16 * v.trows : Nat) ≤ y then (s, .ok none)
  else
    let tc := x.toNat / 16
    let own := decide (v.owner tc = j.die)
    if !own && !v.inHalo j.die tc then (s, .ok none)
    else match pixelRecord s c j (if own then 0 else 2) x.toNat y.toNat with
      | (s, .ok r) => (s, .ok (if r.ftag = j.frame then some r else none))
      | (s, .error e) => (s, .error e)

/-- One coordinate of `Reproject` (R308): the floor of `Rnd(x + 0.5 + m)`, or nothing for a value that is not finite. -/
def reprojectCoord (x m : Nat) : Option Int :=
  let sum := (Frac.mk (fx m + (2 * x + 1 : Nat) * 2 ^ 148) (2 ^ 149)).round
  if finite32 m && finite32 sum then some ((fx sum).fdiv (2 ^ 149)) else none

/-- `Reproject` (R308). -/
def reproject (s : State) (c : EngCmd) (j : StrainJob) (x y : Nat) : State × Except UnitData (Option Reservoir) :=
  let v := j.screen
  if j.motion = 0 then (s, .ok none)
  else match strainRead s c (j.motion + 8 * pixelNumber v x y) 8 with
    | (s, .data b) =>
      match reprojectCoord x (fieldAt b 0 4), reprojectCoord y (fieldAt b 4 4) with
      | some px, some py =>
        if px < 0 || py < 0 || (16 * v.tcols : Nat) ≤ px || (16 * v.trows : Nat) ≤ py || v.owner (px.toNat / 16) ≠ j.die then (s, .ok none)
        else match pixelRecord s c j 1 px.toNat py.toNat with
          | (s, .ok r) => (s, .ok (if r.valid && r.ftag = (j.frame + 4294967295) % 4294967296 then some r else none))
          | (s, .error e) => (s, .error e)
      | _, _ => (s, .ok none)
    | (s, r) => (s, .error r)

/-- An offset of neighbour `i` (R307): from the table, or drawn. -/
def offsetOf (j : StrainJob) (pix i : Nat) (r : Reservoir) : Int × Int × Reservoir :=
  if j.flag 3 then (sbyteAt j.bytes (112 + 2 * i), sbyteAt j.bytes (113 + 2 * i), r)
  else
    let (v, r) := resDraw r pix j.key
    let w := 2 * j.rad + 1
    ((v / 65536 % w : Nat) - (j.rad : Int), (v % 65536 % w : Nat) - (j.rad : Int), r)

/-- The spatial candidates of a pixel, from neighbour `i` on (R307), with the record after their draws. -/
def spatials (c : EngCmd) (j : StrainJob) (x y : Nat) : Nat → Nat → State → Reservoir → State × Except UnitData (List Reservoir × Reservoir)
  | 0, _, s, r => (s, .ok ([], r))
  | n + 1, i, s, r =>
    let (dx, dy, r) := offsetOf j (x + 65536 * y) i r
    match neighbour s c j (x + dx) (y + dy) with
    | (s, .error e) => (s, .error e)
    | (s, .ok found) => match spatials c j x y n (i + 1) s r with
      | (s, .error e) => (s, .error e)
      | (s, .ok (rest, r)) =>
        (s, .ok (match found with
          | some f => if dx = 0 && dy = 0 then (rest, r) else (f :: rest, r)
          | none => (rest, r)))

/-- The temporal candidate of a pixel, its confidence capped (R307). -/
def temporal (s : State) (c : EngCmd) (j : StrainJob) (x y : Nat) : State × Except UnitData (List Reservoir) :=
  if !j.flag 0 then (s, .ok [])
  else match reproject s c j x y with
    | (s, .ok (some t)) => (s, .ok [if j.tmcap = 0 then t else { t with m := min t.m j.tmcap }])
    | (s, .ok none) => (s, .ok [])
    | (s, .error e) => (s, .error e)

/-- The start of `StrainPixel` (R307): the pixel's own record merged, and its candidates. -/
def openPixel (s : State) (c : EngCmd) (j : StrainJob) (pix : Nat) : State × Except UnitData PixelWork :=
  let x := pix % 65536
  let y := pix / 65536
  match pixelRecord s c j 0 x y with
  | (s, .error e) => (s, .error e)
  | (s, .ok r) =>
    let r := if r.ftag = j.frame then r else Reservoir.empty
    let own := { Reservoir.empty with ftag := j.frame, rctr := r.rctr }
    match temporal s c j x y with
    | (s, .error e) => (s, .error e)
    | (s, .ok ts) => match spatials c j x y j.nsp 0 s own with
      | (s, .error e) => (s, .error e)
      | (s, .ok (ns, own)) =>
        (s, .ok ⟨pix, resMerge own r r.phat 1 pix j.key j.mcap, ts.map (·, 2) ++ ns.map (·, 3), 0, none⟩)

/-! ## Pixels -/

/-- A fault of a pass's read: it pauses, or the pass fails (R28, R70, R91, R301). -/
def strainFault (s : State) (c : EngCmd) (r : UnitData) : State :=
  match r with
  | .fault 8 _ _ => failCmd (dropArrived s c.id) c errFault 0
  | .fault cause lv a => cmdFault (dropArrived s c.id) c cause lv a 0 0
  | _ => s

/-- Goes to the next candidate of a pixel. -/
def PixelWork.next (w : PixelWork) (r : Reservoir) : PixelWork := { w with rcd := r, pos := w.pos + 1, testing := none }

/-- Replaces the pixel under work. -/
def setWork (s : State) (c : EngCmd) (j : StrainJob) (w : PixelWork) : State :=
  setStrain (dropArrived s c.id) c.id { j with work := some w }

/-- A pixel whose candidates are done (R307): it is one item of the budget (R317). -/
def closePixel (s : State) (c : EngCmd) (j : StrainJob) (w : PixelWork) : State :=
  let r := if j.flag 2 then resNorm w.rcd else w.rcd
  charge (setStrain (dropArrived s c.id) c.id { j with work := none, pixels := j.pixels.drop 1, results := j.results ++ [(w.pix, r)] }) c.part 3 1

/-- The cores of a Strainer's quad. -/
def quadCores (e : Nat) : List Nat := (List.range 4).map (· + 4 * e)

/-- Ray slots that a Strainer, for all its commands, holds on a core's unit (R310). -/
def visHeld (s : State) (engine core : Nat) : Nat :=
  (s.render.rays.filter fun r => r.core == core && (match r.owner with
    | .strainer id => (s.cmd? id).any fun c => c.engine == engine
    | _ => false)).length

/-- A traversal unit of the quad with room for a visibility ray (R310). -/
def visCore (s : State) (c : EngCmd) : Option Nat :=
  (quadCores c.engine).find? fun k => decide (0 < raysFree s k) && decide (visHeld s c.engine k < 32)

/-- Whether a visibility ray cannot be traced (R311). (in part DEDUCED, log entry 49) -/
def visRefused (g : RayGeom) : Bool := g.bad || !finite32 g.tmax

/-- Sends the visibility ray of a candidate, or counts it as occluded with VISERR (R310, R311). -/
def sendVis (s : State) (c : EngCmd) (j : StrainJob) (w : PixelWork) (pc : Nat) (g : RayGeom) : State :=
  if visRefused g then setWork s c j (w.next (w.rcd.setFlag 3))
  else match visCore s c with
    | none => s
    | some k =>
      let r := startRay s.fresh k c.part (.strainer c.id) 0 none g 11 j.root 0
      setWork (addRay s r) c j { w with testing := some (pc, r.id) }

/-- A candidate that is merged. -/
def mergeCand (j : StrainJob) (w : PixelWork) (x : Reservoir × Nat) (pc : Nat) : PixelWork :=
  w.next (resMerge w.rcd x.1 pc x.2 w.pix j.key j.mcap)

/-- What a callable's registers answer (R314): the target value, whether a ray is requested, and the ray. -/
def callResult (x : Lane) : Nat × Bool × RayGeom :=
  let v (k : Nat) : Nat := x.regs.readN (4 * k) 4
  (v 24, decide (v 25 ≠ 0), ⟨v 26, v 27, v 28, v 29, v 30, v 31, v 32, v 33⟩)

/-- One candidate of a pixel (R307, R314). -/
def candStep (s : State) (c : EngCmd) (j : StrainJob) (w : PixelWork) (x : Reservoir × Nat) : State :=
  if !x.1.valid then setWork s c j (mergeCand j w x 0)
  else match strainRead s c (j.gbuf + pixelNumber j.screen (w.pix % 65536) (w.pix / 65536) * j.gstr) j.gstr with
    | (s, .data gb) =>
      let cx : CallCtx := ⟨j.key, j.frame, j.kcb, w.pix, w.pos⟩
      match runCallable s c.id c.who cx (Config.evaluatorLane w.pix w.pos % 8) ((callInstrs j.words.length j.words).getD []) (callLane cx gb x.1 x.2) with
      | (s, .pending) => s
      | (s, .pause cause lv a) => pauseCmd (dropArrived s c.id) c cause lv a 0
      | (s, .failed) => setWork s c j (w.next (w.rcd.setFlag 4))
      | (s, .ok y) =>
        let (pc, ray, g) := callResult y
        if j.flag 1 && ray then sendVis s c j w pc g else setWork s c j (mergeCand j w x pc)
    | (s, r) => strainFault s c r

/-- `STRAINER_PIXEL`: a pass opens its next pixel, or works on the next candidate of the pixel under work (R307). A held budget stops it
between pixels (R317). -/
def execStrainerPixel (id : Nat) (s : State) : Result := .next (match s.cmd? id with
  | none => s
  | some c => match c.body with
    | .strainer j =>
      if !c.started || c.stopped s then s
      else match j.work, j.pixels with
        | some w, _ =>
          if w.testing.isSome then s
          else match w.cands[w.pos]? with
            | some x => candStep s c j w x
            | none => closePixel s c j w
        | none, pix :: _ =>
          if meterHeld s c.part 3 then s
          else match openPixel s c j pix with
            | (s, .ok w) => setWork s c j w
            | (s, .error r) => strainFault s c r
        | none, [] => s
    | _ => s)

/-- The work of a pixel whose visibility ray has ended (R310, R311). (in part DEDUCED, log entry 49) -/
def visResult (j : StrainJob) (w : PixelWork) (pc : Nat) (r : RaySlot) : PixelWork :=
  match w.cands[w.pos]? with
  | none => { w with testing := none }
  | some x =>
    if r.hit.isSome then w.next w.rcd
    else if r.flags.testBit flagRaylim || r.flags.testBit flagNodeerr || r.flags.testBit flagMalformed then w.next (w.rcd.setFlag 3)
    else mergeCand j w x pc

/-- `STRAINER_VIS_RAY_RESULT`: a visibility ray returns (R310, R311). -/
def execStrainerVisRayResult (id : Nat) (s : State) : Result := .next (match s.ray? id with
  | none => s
  | some r => match r.owner with
    | .strainer cid => match s.cmd? cid with
      | some c => match c.body with
        | .strainer j => match j.work with
          | some w => match w.testing with
            | some (pc, rid) =>
              if r.state = .done && rid = id then setWork (dropRay s id) c j (visResult j w pc r) else s
            | none => s
          | none => s
        | _ => s
      | none => s
    | _ => s)

/-! ## Completion -/

/-- Writes the results of a pass, each record as one access (R300, R309), until one faults, or is held, or has to be acknowledged. (in part DEDUCED, log entry 49) -/
def writeRecords (c : EngCmd) (j : StrainJob) : State → List (Nat × Reservoir) → State
  | s, [] => setStrain s c.id { j with results := [], sent := false }
  | s, (pix, r) :: rest =>
    let left (sent : Bool) : StrainJob := { j with results := (pix, r) :: rest, sent := sent }
    match j.recordAt s c 0 (pix % 65536) (pix / 65536) with
    | none => failCmd s c errFault 0
    | some a => match engPlaces s c .write a 32 with
      | (s, .ok ps) =>
        if engTrafficHeld s c ps then setStrain s c.id (left false)
        else
          let s := engWrite s c a ps r.toBytes
          if unitBusy s c.id then setStrain s c.id (left true) else writeRecords c j s rest
      | (s, .fault cause lv b) => cmdFault (setStrain s c.id (left false)) c cause lv b 1 0
      | (s, .bad code) => failCmd s c code 0

/-- The results that a pass has still to write: the first is done once its write has been acknowledged. -/
def StrainJob.unwritten (j : StrainJob) : List (Nat × Reservoir) := if j.sent then j.results.drop 1 else j.results

/-- `STRAINER_PASS_COMPLETE`: a pass whose pixels are computed writes its results, and completes when the last is performed (R309, R316). A
refused write ends or pauses the pass, and a replay writes that record again (R37, R91). (in part DEDUCED, log entry 49) -/
def execStrainerPassComplete (id : Nat) (s : State) : Result := .next (match s.cmd? id with
  | none => s
  | some c => match c.body with
    | .strainer j =>
      if !c.started || c.stopped s || !j.pixels.isEmpty || j.work.isSome || unitBusy s id then s
      else match failedWrite s id with
        | some x => cmdFault (setStrain (dropArrived s id) id { j with sent := false }) c x.cause 0 x.addr 1 0
        | none => if j.unwritten.isEmpty then completeCmd (setStrain s id { j with results := [], sent := false }) c else writeRecords c j s j.unwritten
    | _ => s)

/-- The values that an advance puts in force on a die (R302, R41). -/
def applyAdvance (q : Partition) (die frame phase : Nat) : Partition :=
  let put (v : PerDie) : PerDie := if die = 0 then { v with die0 := v.written } else { v with die1 := v.written }
  let res := { q.res with geom := put q.res.geom }
  { q with
    screenBandw := put q.screenBandw
    screenHalod := put q.screenHalod
    res := if die = 0 then { res with frame0 := frame, phase0 := phase } else { res with frame1 := frame, phase1 := phase } }

/-- `STRAINER_ADVANCE`: the frame phase boundary of a die (R302), then the decrement and SEQ. -/
def execStrainerAdvance (id : Nat) (s : State) : Result := .next (match s.cmd? id with
  | none => s
  | some c => match c.body with
    | .strainer j =>
      if c.started || c.stopped s || byteAt j.bytes 8 ≠ 1 then s
      else
        let s := s.updPart c.part fun q => applyAdvance q c.die (fieldAt j.bytes 32 4) (byteAt j.bytes 36 % 16)
        let c := { c with started := true }
        completeCmd (s.updCmd id fun _ => c) c
    | _ => s)

end Sys2Proof.Machine
end

