-- ==== Sys2Proof/Machine/Chains.lean ====
section
/-!
DEFINITION. Chains as engines run them (R115 to R119, R125): the tail is seen, the next block is read and checked, and a halted chain is
resumed.
-/
namespace Sys2Proof.Machine

/-- A command from a block's bytes (R116), for an issuer. -/
def blockCmd (s : State) (p : Nat) (k : EngKind) (engine : Nat) (i : Issuer) (addr : Nat) (b : List Byte) (body : EngBody) : EngCmd :=
  { id := s.fresh, kind := k, engine := engine, part := p, issuer := i, blockAddr := addr, head32 := b.take 32,
    tdec := decide (byteAt b 10 % 2 = 1), tscope := byteAt b 11, tumb := fieldAt b 16 8, amount := fieldAt b 24 8, body := body,
    started := false, paused := none }

/-- The checks of a block by the kind of its engine (R116, R120, R121, R305). The spec gives a matrix block no OP: the model takes 0, and any other
is of unknown OP (DESIGN CHOICE, log entry 41). -/
def kindChecks (k : EngKind) (b : List Byte) : BlockCheck :=
  match k with
  | .copy => copyChecks b
  | .collective => collChecks b
  | .strainer => strainerChecks b
  | .matrix => firstBad (headerChecks b 1 3 ++ [zeros b 32 64])

/-- What a block asks for. -/
def kindBody (k : EngKind) (b : List Byte) : EngBody :=
  match k with
  | .copy => .copy (copyJobOf b)
  | .collective => .coll (collJobOf b)
  | .strainer => .strainer (strainerJobOf b)
  | .matrix => .matrix ((b.drop 64).take 128)

/-- The command of a chain's block (R116): of the node of a private chain, or of the chain. -/
def chainCmd (s : State) (ch : Chain) (b : List Byte) : EngCmd :=
  let i : Issuer := match ch.isPrivate, ch.node with
    | true, some (g, n) => .node g n
    | _, _ => .chain ch.id
  blockCmd s ch.part ch.kind ch.engine i ch.head b (kindBody ch.kind b)

/-- An ill-formed block halts its chain (R122); where a matrix block's job card has been read, the destinations that it names are invalid (R124). (in part DEDUCED, log entry 42) -/
def badBlock (s : State) (ch : Chain) (b : List Byte) (code off : Nat) : State :=
  haltChain (if 192 ≤ b.length then invalidBlock s (chainCmd s ch b) else s) ch.id code off ch.head (b.take 32)

/-- A block that has been read: it halts the chain, or its command begins (R117, R122). -/
def takeBlock (s : State) (ch : Chain) (b : List Byte) : State :=
  match kindChecks ch.kind b with
  | some (code, off) => badBlock s ch b code off
  | none =>
    let c := chainCmd s ch b
    let s := addCmd s c
    if ch.isPrivate then { s with eng := { s.eng with chains := s.eng.chains.filter fun x => x.id != ch.id } }
    else s.updChain ch.id fun x => { x with running := some c.id }

/-- Reads the block at HEAD, whole (R117): its first 64 bytes give its length. -/
def readBlock (s : State) (ch : Chain) : State :=
  chainRead s ch ch.head 64 ch.head fun s b0 =>
    let n := byteAt b0 9
    if n = 0 || 4 < n then takeBlock (dropArrived s ch.id) ch b0
    else chainRead s ch ch.head (64 * n) ch.head fun s b => takeBlock (dropArrived s ch.id) ch b

/-- Reads the block at HEAD unless HEAD is misaligned (R117, R123) or a write of the descriptor waits for a replay. -/
def headBlock (s : State) (ch : Chain) : State :=
  if (s.chain? ch.id).any fun c => c.paused.isSome then s
  else if ch.head % 64 ≠ 0 then haltChain s ch.id errAlign 0 ch.head []
  else readBlock s ch

/-- Starts the next block of a chain whose TAIL exceeds SEQ (R117, R118). -/
def nextBlock (s : State) (ch : Chain) : State := if ch.needNext then readNext s ch headBlock else headBlock s ch

/-- KIND of a descriptor must be its engine's (R123). -/
def ownKind (ch : Chain) (b : List Byte) : BlockCheck := need (byteAt b 32 = ch.kind.code) errKind 32

/-- Reads the descriptor of a matrix-chain node (R131): its chain begins, and the node notes TAIL. A descriptor that is misaligned or
ill-formed halts the chain, and its node stays DISPATCHED (R133). -/
def loadChain (s : State) (ch : Chain) : State :=
  if ch.desc % 64 ≠ 0 then haltChain s ch.id errAlign 0 ch.desc []
  else chainRead s ch ch.desc 64 ch.desc fun s b =>
    let x := { chainOf ch.id ch.desc ch.part ch.engine ch.kind b ch.stream ch.node none with loaded := true }
    let s := (dropArrived s ch.id).updChain ch.id fun _ => x
    let s := match ch.node with
      | some (g, n) => s.updGraph g fun h => { h with nodes := h.nodes.modify n fun y => { y with tailAt := fieldAt b 8 8 } }
      | none => s
    match descChecks b (ownKind ch b) fun st => decide (st % 4 = 0) && decide (st < 8) with
    | some (code, off) => haltChain s ch.id code off ch.desc (b.take 32)
    | none => s

/-- A read of a chain's descriptor that acts as an acquire at scope `die` (R104, R117, R309). -/
def watchDesc (s : State) (ch : Chain) (off n : Nat) (k : State → List Byte → State) : State :=
  match unitAcquire s ch.id ch.who 6 (ch.desc + off) n with
  | (s, .pending) => s
  | (s, .fault cause lv b) => chainFault s ch cause lv b ch.head
  | (s, .data b) => k s b

/-- The bytes of a descriptor field that the engine writes: HEAD, SEQ or STATUS (R115). -/
def Chain.field (ch : Chain) (off : Nat) : List Byte :=
  match off with
  | 0 => bytesOfNum 8 ch.head
  | 16 => bytesOfNum 8 ch.seq
  | _ => bytesOfNum 1 ch.status

/-- A descriptor write that was refused or never answered (R37, R91): the chain halts or pauses, and a replay writes the field again. (in part DEDUCED, log entry 41) -/
def descRefused (s : State) (ch : Chain) (x : Arrived) : State :=
  let off := x.addr - ch.desc
  let s := dropArrived s ch.id
  match haltCode s ch.part ch.who.die x.cause x.addr with
  | some code => if ch.halted then s else haltChain s ch.id code off ch.desc []
  | none => pauseChain (s.updChain ch.id fun c => { c with owed := c.owed ++ [(off, c.field off)] }) ch x.cause 0 x.addr 1

/-- What a chain owes its descriptor is written first: a refused write is noted, and the writes that waited for a replay are made. -/
def settleDesc (s : State) (ch : Chain) : State :=
  match failedWrite s ch.id with
  | some x => descRefused s ch x
  | none => if ch.paused.isNone && !ch.owed.isEmpty then payDesc s ch else s

/-- A chain's private block is read, once (R131). -/
def readPrivate (s : State) (ch : Chain) : State := if ch.paused.isSome then s else headBlock s ch

/-- An attached chain sees TAIL, and starts its next block when it exceeds SEQ (R117). -/
def seeChainTail (s : State) (ch : Chain) : State :=
  watchDesc s ch 8 8 fun s t =>
    let ch := { ch with tail := numOfBytes t }
    let s := s.updChain ch.id fun _ => ch
    if ch.seq < ch.tail then nextBlock s ch else dropArrived s ch.id

/-- What a chain does next: what it owes its descriptor, the reading of the descriptor, its attachment, then its next block. -/
def chainMove (s : State) (id : Nat) : State :=
  let on (s : State) (f : State → Chain → State) : State := match s.chain? id with
    | some ch => f s ch
    | none => s
  let s := on s settleDesc
  let s := on s fun s ch => if ch.paused.isNone && !ch.loaded && !ch.halted then loadChain s ch else s
  let s := on s fun s ch => if ch.loaded && !ch.isPrivate && !ch.halted then attachChain s ch else s
  on s fun s ch =>
    if ch.isPrivate then readPrivate s ch
    else if !ch.attached || ch.halted || ch.paused.isSome || ch.running.isSome || !ch.owed.isEmpty then s else seeChainTail s ch

/-- `CHAIN_TAIL_SEEN`: a chain that waits is attached; a chain whose TAIL exceeds SEQ starts its next block (R117, R432). (in part DEDUCED, log entry 41) -/
def execChainTailSeen (id : Nat) (s : State) : Result := .next (chainMove s id)

/-- A resumed chain takes what the program has written to its descriptor (R115, R125). -/
def resumeFrom (ch : Chain) (b : List Byte) : Chain :=
  { ch with
    head := fieldAt b 0 8, tail := fieldAt b 8 8, seq := fieldAt b 16 8, errAddr := fieldAt b 24 8, scope := byteAt b 33, halted := false,
    needNext := decide (byteAt b 34 / 4 % 2 = 1) }

/-- `CHAIN_RESUME`: HALTED was cleared in the descriptor of a halted chain (R125). A descriptor that breaks R115, or whose KIND is no longer the
engine's, halts it again. (in part DEDUCED, log entry 41) -/
def execChainResume (id : Nat) (s : State) : Result := .next (match s.chain? id with
  | none => s
  | some ch0 =>
    let s := settleDesc s ch0
    match s.chain? id with
    | none => s
    | some ch =>
      if !ch.halted || !ch.loaded || ch.paused.isSome || !ch.owed.isEmpty then s
      else watchDesc s ch 0 64 fun s b =>
        let s := dropArrived s id
        if byteAt b 34 % 2 = 1 then s
        else
          let ch := resumeFrom ch b
          let s := s.updChain id fun _ => ch
          match descChecks b (ownKind ch b) fun st => decide (st < 8) with
          | some (code, off) => haltChain s id code off ch.desc (b.take 32)
          | none => writeDesc s ch 34 (bytesOfNum 1 ch.status))

end Sys2Proof.Machine
end

