-- ==== Sys2Proof/Machine/Room.lean ====
section
/-!
DEFINITION. The scheduler's mesh and the room of a core (R134, R135, R177, R342), launch records and their checks (R108, R109), and the grids
of a partition (R110, R112, R113, R129, R131).
-/
namespace Sys2Proof.Machine

/-! ## The mesh -/

/-- Whether a partition owns a core (R80, R82). -/
def ownsCore (u : Setup) (core : Nat) : Bool := ownsEngine u .matrix core

/-- The rectangle of `w` columns and `h` rows whose top-left core is logical core `i` of a die, in row order (R134). -/
def rectangle (die w h i : Nat) : List Nat :=
  (List.range h).flatMap fun y => (List.range w).map fun x => 144 * die + i + 8 * y + x

/-- The rectangles of a size on a die, the lowest top-left core first: 8 columns by 18 rows (R134). -/
def rectangles (die w h : Nat) : List (List Nat) :=
  ((List.range 144).filter fun i => i % 8 + w ≤ 8 && i / 8 + h ≤ 18).map (rectangle die w h)

/-- The rectangles of cores that a partition owns. (in part DESIGN CHOICE, log entry 55) -/
def ownedRects (u : Setup) (die w h : Nat) : List (List Nat) := (rectangles die w h).filter fun r => r.all (ownsCore u)

/-! ## Room -/

/-- Bytes of a core's scratchpad, and of its slow register file (R134). -/
def scratchSize : Nat := 393216
def slowFile : Nat := 1048576

/-- What stands on a core or is to stand there: the group slots, the register bytes, and the scratchpad bytes that it takes. -/
structure Need where
  groups : Nat
  regs : Nat
  spfoot : Nat
  deriving DecidableEq, Repr, Inhabited

/-- What a team that starts needs (R134, R342). -/
def needOf (u : Setup) (r : LaunchRec) : Need :=
  let k := if u.shadow then 2 else 1
  ⟨k * r.gpt, k * r.gpt * 32 * r.regsz * 256, r.spfoot⟩

/-- What a saved team needs: the registers that its groups hold (R136). -/
def needOfSaved (u : Setup) (gs : List Group) (spfoot : Nat) : Need :=
  let k := if u.shadow then 2 else 1
  ⟨k * gs.length, k * (gs.map fun g => 32 * g.rsize).sum, spfoot⟩

/-- The teams that hold resources of a core. -/
def coreTeams (s : State) (core : Nat) : List Team := s.teams.filter fun t => t.core == core

/-- The group slots in use on a core, those of shadows among them. -/
def usedSlots (s : State) (core : Nat) : List Nat :=
  (s.groups.filter fun g => g.core == core).flatMap fun g => g.slot :: g.shadow.toList

/-- The groups resident on a core. -/
def residents (s : State) (core : Nat) : Nat := (s.groups.filter fun g => g.core == core).length

/-- Whether a run of the scratchpad from `base` is free. -/
def runFree (ts : List Team) (base n : Nat) : Bool :=
  decide (base + n ≤ scratchSize) && ts.all fun t => t.spfoot = 0 || base + n ≤ t.spbase || t.spbase + t.spfoot ≤ base

/-- The lowest free run of `n` bytes of a core's scratchpad (R134). -/
def scratchRun (s : State) (core n : Nat) : Option Nat :=
  let ts := coreTeams s core
  (0 :: ts.map fun t => t.spbase + t.spfoot).foldl (fun a b =>
    if runFree ts b n then (match a with
      | none => some b
      | some c => some (min c b)) else a) none

/-- Slice homes of a partition's slice area (R149). -/
def sliceHomes (a : AreaReg) : Nat := if a.log2 = 0 then 0 else 2 ^ (a.log2 - 16)

/-- The slice homes that a partition's teams hold: one for each group, until the team ends or is saved (R177). -/
def homesHeld (s : State) (p : Nat) : Nat := ((s.teams.filter fun t => t.state != .pending && t.part == p).map fun t => t.slots.length).sum

/-- Whether `n` more groups of a partition can be given their slices on a core (R177). -/
def slicesFree (s : State) (p core n : Nat) : Bool :=
  let a := (s.part p).sch.ls
  let k := if (s.part p).setup.shadow then 2 else 1
  if a.log2 = 0 then decide (k * residents s core + n ≤ 4) else decide (k * homesHeld s p + n ≤ sliceHomes a)

/-- Slots of a core for `n` groups (R150): group g on the lowest free slot of quarter g mod 4, else the lowest free slot of the core. -/
def pickSlot (used : List Nat) (g : Nat) : Option Nat :=
  let free := (List.range 48).filter fun t => !used.contains t
  (free.find? fun t => t % 4 == g % 4).or free.head?

/-- A slot for a shadow, in another quarter than its group's (R342). -/
def pickShadow (used : List Nat) (slot : Nat) : Option Nat :=
  (List.range 48).find? fun t => !used.contains t && decide (t % 4 ≠ slot % 4)

/-- The slots for the groups of some indices, with their shadows' slots. -/
def pickSlots (shadow : Bool) : List Nat → List Nat → Option (List (Nat × Option Nat))
  | _, [] => some []
  | used, g :: rest =>
    match pickSlot used g with
    | none => none
    | some t =>
      if shadow then match pickShadow (t :: used) t with
        | none => none
        | some h => (pickSlots shadow (t :: h :: used) rest).map ((t, some h) :: ·)
      else (pickSlots shadow (t :: used) rest).map ((t, none) :: ·)

/-- Whether a grid may share a core with the teams there (R135). -/
def mayShare (s : State) (grid : Nat) (detm : Bool) (core : Nat) : Bool :=
  (coreTeams s core).all fun t => t.grid == grid || (!detm && !teamDetm s t)

/-- Whether a core is withheld from a grid's class or is being vacated for another (R146), is disabled or retires (R345), leaves the partition
(R88), or is the target of a migration under way (R138). (in part DEDUCED, log entry 58) -/
def coreBarred (s : State) (p cls core : Nat) : Bool :=
  let q := (s.part p).sch
  ((q.withheld ++ q.vacating).contains core && decide (q.withheldClass < cls)) || s.disabledCores.contains core || s.retiring.contains core ||
    (match (s.part p).next with
     | some u => !ownsCore u core
     | none => false) ||
    s.teams.any fun t => t.dest == some core

/-- Whether a core has room for a team (R134, R135): group slots, register space, one run of scratchpad, and slices. (in part DEDUCED, log entry 53) -/
def coreRoom (s : State) (p : Nat) (gr : Grid) (n : Need) (core : Nat) : Bool :=
  !coreBarred s p gr.rcd.bclass core && mayShare s gr.id gr.rcd.detm core &&
    decide ((usedSlots s core).length + n.groups ≤ 48) &&
    decide (((s.groups.filter fun g => g.core == core).map Group.homeBytes).sum + n.regs ≤ slowFile) &&
    (scratchRun s core n.spfoot).isSome && slicesFree s p core n.groups

/-! ## Launch records -/

/-- The fields of a launch record (R108). -/
def launchRecOf (b : List Byte) : LaunchRec :=
  { entry := fieldAt b 0 8, gridx := fieldAt b 8 4, gridy := fieldAt b 12 4, gridz := fieldAt b 16 4, gpt := byteAt b 20,
    clw := byteAt b 21, clh := byteAt b 22, detm := decide (byteAt b 23 % 2 = 1), vbase := byteAt b 24, tbase := byteAt b 25,
    abase := byteAt b 26, regsz := byteAt b 27, bclass := byteAt b 28, tscope := byteAt b 29, spfoot := fieldAt b 32 4,
    args := fieldAt b 40 8, tumb := fieldAt b 48 8, amount := fieldAt b 56 8,
    fs := (List.range 8).map fun i => fieldAt b (64 + 8 * i) 8, kcbase := fieldAt b 128 8 }

/-- The teams of a grid. -/
def LaunchRec.teams (r : LaunchRec) : Nat := r.gridx * r.gridy * r.gridz
/-- The cores of a cluster. -/
def LaunchRec.cluster (r : LaunchRec) : Nat := r.clw * r.clh

/-- The limits of the fields (R108), in byte order. (in part DEDUCED, log entry 53) -/
def recordLimits (r : LaunchRec) : List BlockCheck :=
  [need (r.entry % 4 = 0) errAlign 0, need (1 ≤ r.gridx) errRange 8, need (1 ≤ r.gridy) errRange 12, need (1 ≤ r.gridz) errRange 16,
   need (r.teams ≤ 4294967295) errRange 16, need (1 ≤ r.gpt && r.gpt ≤ 32) errRange 20, need (1 ≤ r.clw && r.clw ≤ 8) errRange 21,
   need (1 ≤ r.clh && r.clh ≤ 12 && r.cluster ≤ 12) errRange 22, need (r.vbase ≤ 31) errRange 24, need (r.tbase ≤ 31) errRange 25,
   need (r.abase ≤ 31) errRange 26, need (1 ≤ r.regsz && r.regsz ≤ 8) errRange 27, need (r.bclass ≤ 3) errRange 28,
   need (6 ≤ r.tscope && r.tscope ≤ 9) errRange 29, need (r.spfoot % 256 = 0 && r.spfoot ≤ 393216) errRange 32,
   need (r.tumb % 8 = 0) errAlign 48]

/-- The checks of a record that need no partition (R109), in the order of its list. -/
def recordChecks (b : List Byte) : BlockCheck :=
  let r := launchRecOf b
  firstBad (recordLimits r ++
    [need (byteAt b 23 < 2) errRsvd 23, zeros b 30 32, zeros b 36 40, zeros b 136 256,
     need (r.vbase * 64 < r.regsz * 256) errRange 24, need (r.tbase * 64 < r.regsz * 256) errRange 25,
     need (r.abase * 64 < r.regsz * 256) errRange 26] ++
    (r.fs.mapIdx fun i x => need (slotLegal x) errFormat (64 + 8 * i)) ++
    [need (r.teams % r.cluster = 0) errRange 8])

/-- Whether an empty core can hold a team with `n` group slots of REGSZ (R109, R177). (in part DEDUCED, log entry 53) -/
def emptyCoreHolds (q : Partition) (r : LaunchRec) (n : Nat) : Bool :=
  decide (n ≤ 48) && decide (n * 32 * r.regsz * 256 ≤ slowFile) && decide (r.spfoot ≤ scratchSize) &&
    (decide (q.sch.ls.log2 ≠ 0) || decide (n ≤ 4))

/-- The checks of a record against a partition (R109). (in part DEDUCED, log entry 53) -/
def recordShape (q : Partition) (r : LaunchRec) : BlockCheck :=
  firstBad [need ((List.range 2).any fun d => !(ownedRects q.setup d r.clw r.clh).isEmpty) errShape 21,
    need (emptyCoreHolds q r r.gpt) errShape 20,
    need (!q.setup.shadow || (r.gpt ≤ 24 && emptyCoreHolds q r (2 * r.gpt))) errShape 20]

/-- Every check of a record. (in part DEDUCED, log entry 52) -/
def recordBad (q : Partition) (b : List Byte) : BlockCheck := (recordChecks b).or (recordShape q (launchRecOf b))

/-! ## Grids -/

/-- Ready-pool slots taken on a die (R129): a grid's, unless its node holds one, and those of the nodes of dispatched graphs that have not
completed. -/
def poolUsed (s : State) (die : Nat) : Nat :=
  (s.grids.filter fun g => g.die == die && g.node.isNone).length +
    ((s.graphs.filter Graph.pool).map fun g => (g.nodes.filter fun n => n.die == die && n.state != .complete && n.state != .aborted).length).sum

/-- The free slots of a die's ready pool (R129). -/
def poolFree (s : State) (die : Nat) : Nat := 4096 - poolUsed s die

/-- The lowest grid slot of a partition that no grid holds (R110). (in part DESIGN CHOICE, log entry 6) -/
def freeGridSlot (s : State) (p : Nat) : Option Nat :=
  (List.range 4096).find? fun k => !s.grids.any fun g => g.part == p && g.slot == k

/-- The generation that a grid slot takes next (R110); it is never 0 (DESIGN CHOICE, log entry 6). -/
def nextGen (q : Partition) (slot : Nat) : Nat :=
  match q.gens.find? fun x => x.1 == slot with
  | some x => if x.2 = 65535 then 1 else x.2 + 1
  | none => 1

/-- The cores of a die that have room for one team of a grid (R131). -/
def freeCores (s : State) (p : Nat) (gr : Grid) (die : Nat) : Nat :=
  ((List.range 144).filter fun i => ownsCore (s.part p).setup (144 * die + i) &&
    coreRoom s p gr (needOf (s.part p).setup gr.rcd) (144 * die + i)).length

/-- The die for the teams of a `LAUNCH` (R131): among those with a rectangle, the one with more free cores, die 0 on equal counts. -/
def gridDie (s : State) (p : Nat) (gr : Grid) : Nat :=
  let ok (d : Nat) : Bool := !(ownedRects (s.part p).setup d gr.rcd.clw gr.rcd.clh).isEmpty
  if ok 0 && ok 1 then (if freeCores s p gr 0 < freeCores s p gr 1 then 1 else 0) else if ok 0 then 0 else 1

/-- A grid that starts (R110, R113). -/
def newGrid (s : State) (p slot : Nat) (r : LaunchRec) (die : Nat) (stream : Option Nat) (node : Option (Nat × Nat)) (parent : Option Grid) :
    Grid :=
  { id := s.fresh, part := p, slot := slot, gen := nextGen (s.part p) slot, rcd := r, die := die, stream := stream, node := node,
    parent := parent.map Grid.id, depth := match parent with
      | some g => g.depth + 1
      | none => 0
    children := 0, childFailed := false, nextTeam := 0, teamsDone := 0, order := s.fresh }

/-- A grid enters the pool: its slot's generation is noted. -/
def addGrid (s : State) (g : Grid) : State :=
  { (s.updPart g.part fun q => { q with gens := (g.slot, g.gen) :: q.gens.filter fun x => x.1 != g.slot }) with
    grids := s.grids ++ [g], fresh := s.fresh + 1 }

end Sys2Proof.Machine
end

