-- ==== Sys2Proof/Machine/Streams.lean ====
section
/-!
DEFINITION. The front ends of streams (R96 to R107, R122): seeing the tail, reading headers and packets, halts, and what follows a
dispatch.
-/
namespace Sys2Proof.Machine

/-! ## Reading -/

/-- A name for what a front end asks of other modules. -/
def feOwner (p st : Nat) : Nat := 2 ^ 61 + p * 65536 + st

/-- Who a front end translates for: an agent of die 0 (R202). -/
def whoFe (p : Nat) : Who := ⟨0, none, p, 0, false⟩

/-- What a read of a front end answers: data, nothing yet, or an error code with the address that failed (R105). -/
inductive FeRead
  | data (bs : List Byte)
  | pending
  | fault (code addr : Nat)

/-- The code of a fault that a front end meets (R105). -/
def feCode (cause : Nat) : Nat := if cause = 5 then errPoison else errFault

/-- The physical address by which an address cannot be read while the host link is down (R69): its own, or that of the table entry that the
walk could not read. -/
def neededAt (s : State) (p va : Nat) : Option Nat :=
  (physOf s p 0 va).or (if 2 ^ 48 ≤ va then none else match walk s p 0 va with
    | .fault 4 _ at_ => some at_
    | _ => none)

/-- Whether an address, or a page table of it, stands in host memory while the host link is down (R69). (in part DEDUCED, log entry 50) -/
def hostGone (s : State) (p va : Nat) : Bool :=
  decide (s.links.width = 0) && (neededAt s p va).any fun a => decide (regionOf s.links a = .host)

/-- What a unit's read tells a front end. -/
def UnitData.toFe : UnitData → FeRead
  | .data b => .data b
  | .pending => .pending
  | .fault c _ a => .fault (feCode c) a

/-- A read of a front end. -/
def feRead (s : State) (p st a n : Nat) : State × FeRead :=
  let (s, d) := readSpan s (feOwner p st) (whoFe p) a n
  (s, d.toFe)

/-- A read of a front end that acts as an acquire at a scope (R104, R107). -/
def feAcquire (s : State) (p st scope a n : Nat) : State × FeRead :=
  let (s, d) := unitAcquire s (feOwner p st) (whoFe p) scope a n
  (s, d.toFe)

/-- The scope of the acquire by which a tail word is read (R104): `pkg` in module memory, `system` in the host window, `domain` in another
module. -/
def tailScope (s : State) (p va : Nat) : Nat :=
  match physOf s p 0 va with
  | some a => if regionOf s.links a = .host then 9 else 7
  | none => if 2 ^ 62 ≤ va then 8 else 7

/-- A read of a packet: a front end whose stream lives in host memory stalls while the host link is down (R69). (in part DEDUCED, log entry 50) -/
def packetRead (s : State) (p st a n : Nat) : State × FeRead :=
  if hostGone s p a then (s, .pending) else feRead s p st a n

/-! ## Halts -/

/-- A stream halts (R105, R122): its error record, ECODE, and source s. -/
def haltStream (s : State) (p st code addr off : Nat) (head32 : List Byte) (slots : Nat) : State :=
  match s.stream? p st with
  | none => s
  | some x =>
    let s := putError (dropArrived s (feOwner p st)) (whoFe p) x.erraddr ⟨addr, x.head, code, 0, 0, p, off, st, head32, st⟩
    raisePart (s.updStream p st fun x => { x with state := .halted, ecode := code, haltSlots := slots, packet := none }) p st

/-- A stream halts at the packet that it has read. -/
def haltPacket (s : State) (p st code off : Nat) (k : Packet) : State := haltStream s p st code k.addr off (k.bytes.take 32) k.nslot

/-! ## Headers -/

/-- TYPE, NSLOT, IRQ and CNT of a header (R100). -/
def packetType (b : List Byte) : Nat := byteAt b 0
def packetSlots (b : List Byte) : Nat := byteAt b 1 % 4 + 1
def packetIrq (b : List Byte) : Bool := decide (byteAt b 1 / 4 % 2 = 1)
def packetCnt (b : List Byte) : Bool := decide (byteAt b 1 / 8 % 2 = 1)

/-- NSLOT of each type (R101). -/
def slotsOk (typ n : Nat) : Bool :=
  match typ with
  | 1 => true
  | 4 => n == 2
  | 5 => n == 2
  | _ => n == 1

/-- Slot `i` of a ring (R99). -/
def Stream.slotAddr (x : Stream) (i : Nat) : Nat := x.qbase + i % 2 ^ x.qlog2 * 64

/-- Where the packet that comes next stands: in the ring, or in a `JUMP` buffer. -/
def Stream.here (x : Stream) : Nat :=
  match x.jump with
  | some j => j.buf + 64 * j.pos
  | none => x.slotAddr x.head

/-- D (R105). -/
def Stream.unread (x : Stream) : Nat := (x.seen + 4294967296 - x.head) % 4294967296

/-- The checks of a packet's header (R99 to R102), by the first slot. (in part DEDUCED, log entry 50) -/
def headerBad (x : Stream) (b : List Byte) : BlockCheck :=
  let typ := packetType b
  let n := packetSlots b
  firstBad [need (x.jump.isNone || (typ ≠ 0 && typ ≠ 10)) errNest 0, need (typ ≤ 10) errType 0, need (slotsOk typ n) errRange 1,
    (match x.jump with
     | some j => need (j.pos + n ≤ j.count) errNest 1
     | none => need (x.head % 2 ^ x.qlog2 + n ≤ 2 ^ x.qlog2) errRange 1),
    need (!packetCnt b || (typ = 2 && fieldAt b 16 8 ≠ 0)) errRsvd 1, need (byteAt b 1 < 16) errRsvd 1, zeros b 2 4]

/-- A whole packet has been read (R99). -/
def keepPacket (s : State) (p st a n : Nat) (b : List Byte) : State :=
  (dropArrived s (feOwner p st)).updStream p st fun x => { x with packet := some ⟨a, n, b⟩ }

/-- Reads the rest of a packet after its first slot. Where a later slot cannot be read, HEAD32 of the record holds the first slot's bytes, which have
been read (R122; DESIGN CHOICE, log entry 50). -/
def readRest (s : State) (p st a n : Nat) (b : List Byte) : State :=
  if n = 1 then keepPacket s p st a n b
  else match packetRead s p st (a + 64) (64 * (n - 1)) with
    | (s, .data c) => keepPacket s p st a n (b ++ c)
    | (s, .pending) => s
    | (s, .fault code at_) => haltStream s p st code at_ 0 (b.take 32) n

/-- Reads the header at the front end's position, and the packet when the tail covers it (R99, R105). -/
def lookPacket (s : State) (p st : Nat) : State :=
  let s := s.updStream p st fun x => { x with state := .reading }
  match s.stream? p st with
  | none => s
  | some x =>
    let a := x.here
    match packetRead s p st a 64 with
    | (s, .pending) => s
    | (s, .fault code at_) => haltStream s p st code at_ 0 [] 1
    | (s, .data b) =>
      if x.jump.isNone && (packetType b = 0 || x.unread < packetSlots b) then dropArrived s (feOwner p st)
      else match headerBad x b with
        | some (code, off) => haltStream s p st code a off (b.take 32) (packetSlots b)
        | none => readRest s p st a (packetSlots b) b

/-- What a front end does when it looks for its next packet (R105): it is IDLE when there is none. -/
def goOn (s : State) (p st : Nat) : State :=
  match s.stream? p st with
  | none => s
  | some x =>
    if x.jump.isNone && x.unread = 0 then s.updStream p st fun x => { x with state := .idle } else lookPacket s p st

/-- An IDLE front end sees the tail (R105). (in part DEDUCED, log entry 50) -/
def idleSees (s : State) (p st : Nat) : State :=
  match s.stream? p st with
  | none => s
  | some x =>
    if x.unread = 0 then s
    else if 2 ^ x.qlog2 < x.unread then haltStream s p st errRange (x.slotAddr x.head) 0 [] 1
    else lookPacket s p st

/-- A front end sees a tail value (R104, R105): an IDLE one reads; one whose header waits for the tail reads it again. (in part DEDUCED, log entry 50) -/
def seeTail (s : State) (p st v : Nat) : State :=
  let s := s.updStream p st fun x => { x with seen := v % 4294967296 }
  match s.stream? p st with
  | none => s
  | some x =>
    if !x.en then s
    else match x.state with
      | .idle => idleSees s p st
      | .reading => if x.packet.isNone && x.jump.isNone then lookPacket s p st else s
      | _ => s

/-- Reads the tail word of a device-side queue (R104). -/
def watchTail (s : State) (p st : Nat) : State :=
  match s.stream? p st with
  | none => s
  | some x =>
    if !x.en || !x.mtail || x.state = .halted || x.state = .disabled then s
    else match feAcquire s p st (tailScope s p x.tailaddr) x.tailaddr 8 with
      | (s, .pending) => s
      | (s, .fault code at_) => haltStream s p st code at_ 0 [] 1
      | (s, .data b) =>
        let s := dropArrived s (feOwner p st)
        let v := fieldAt b 0 4
        if v = x.seen then s else seeTail s p st v

/-! ## After a dispatch -/

/-- Writes zero to byte 0 of `n` slots of the ring from HEAD on (R99); a slot whose page cannot be written keeps its byte. (in part DESIGN CHOICE, log entry 51) -/
def zeroSlots (p st : Nat) (x : Stream) : Nat → State → State
  | 0, s => s
  | n + 1, s =>
    let s := zeroSlots p st x n s
    match translate s (whoFe p) .write (x.slotAddr (x.head + n)) with
    | (s, .ok q) => unitWrite s (.plain none (whoFe p)) (x.slotAddr (x.head + n)) q [0]
    | (s, .fault _ _) => s

/-- Zeroes `n` slots and moves HEAD past them (R99). -/
def leaveSlots (s : State) (p st n : Nat) : State :=
  match s.stream? p st with
  | none => s
  | some x => (zeroSlots p st x n s).updStream p st fun x => { x with head := (x.head + n) % 4294967296, packet := none }

/-- Moves past `n` slots of a `JUMP` buffer (R102, R98): past its last slot the `JUMP` is complete. (in part DEDUCED, log entry 50) -/
def leaveBuffer (s : State) (p st n : Nat) (j : Jump) : State :=
  if j.pos + n < j.count then
    lookPacket (s.updStream p st fun x => { x with packet := none, jump := some { j with pos := j.pos + n } }) p st
  else
    let s := leaveSlots (s.updStream p st fun x => { x with packet := none, jump := none }) p st 1
    goOn (if j.irq then raisePart s p st else s) p st

/-- A packet has been dispatched (R99, R102). -/
def dispatched (s : State) (p st : Nat) : State :=
  match s.stream? p st with
  | none => s
  | some x => match x.packet with
    | none => s
    | some k => match x.jump with
      | some j => leaveBuffer s p st k.nslot j
      | none => goOn (leaveSlots s p st k.nslot) p st

/-- A packet that is complete at its dispatch (R102, R103). -/
def dispatchedComplete (s : State) (p st : Nat) (k : Packet) : State :=
  dispatched (if packetIrq k.bytes then raisePart s p st else s) p st

/-- A packet that has started work. -/
def dispatchedWork (s : State) (p st : Nat) (k : Packet) (r : WorkRef) : State :=
  dispatched (s.updStream p st fun x => { x with work := x.work ++ [⟨r, packetIrq k.bytes, false⟩] }) p st

/-- A packet whose dispatch condition does not hold waits (R105). -/
def waitPacket (s : State) (p st : Nat) : State := s.updStream p st fun x => { x with state := .waiting }

/-- The packet of a stream that is to be dispatched, by its TYPE. `again` is true for a packet that waits. -/
def packetAt (s : State) (p st typ : Nat) (again : Bool) : Option (Stream × Packet) :=
  match s.stream? p st with
  | none => none
  | some x => match x.packet with
    | none => none
    | some k => if packetType k.bytes = typ && x.en && x.state = (if again then FeState.waiting else .reading) then some (x, k) else none

/-- Acts on the packet that a front end has read, checking its body first: an ill-formed packet halts the stream (R105, R122). -/
def onPacket (s : State) (p st typ : Nat) (again : Bool) (checks : List Byte → BlockCheck) (k : State → Packet → State) : State :=
  match packetAt s p st typ again with
  | none => s
  | some (_, x) => match checks x.bytes with
    | some (code, off) => haltPacket s p st code off x
    | none => k s x

/-! ## Checks of bodies -/

/-- A SCOPE in a packet (R101). -/
def scopeOk (b : List Byte) (off : Nat) : BlockCheck := need (6 ≤ byteAt b off && byteAt b off ≤ 9) errRange off
/-- An aligned address in a packet. -/
def alignOk (b : List Byte) (off n : Nat) : BlockCheck := need (fieldAt b off 8 % n = 0) errAlign off

/-- The body of each packet type (R101, R106). -/
def launchBody (b : List Byte) : BlockCheck := firstBad [alignOk b 8 256, zeros b 24 64]
def graphBody (b : List Byte) : BlockCheck := firstBad [alignOk b 8 64, alignOk b 16 8, scopeOk b 32, zeros b 33 64]
def semwaitBody (b : List Byte) : BlockCheck :=
  firstBad [need (fieldAt b 8 8 ≠ 0) errRange 8, alignOk b 8 8, scopeOk b 24, zeros b 25 64]
def semsigBody (b : List Byte) : BlockCheck := firstBad [alignOk b 8 8, scopeOk b 24, zeros b 25 64]
def timewaitBody (b : List Byte) : BlockCheck := zeros b 16 64
def fenceBody (b : List Byte) : BlockCheck := firstBad [scopeOk b 8, zeros b 9 64]
def jumpBody (b : List Byte) : BlockCheck :=
  firstBad [alignOk b 8 64, need (1 ≤ fieldAt b 16 4 && fieldAt b 16 4 ≤ 65536) errRange 16, zeros b 20 64]
/-- A packet in the layout of a block whose SPACE is the chip scratchpad's where it is LOCAL (R120, R121, R182). (in part DEDUCED, log entry 52) -/
def blockLocal (b : List Byte) (off : Nat) : BlockCheck :=
  need (fieldAt b off 8 < 2 ^ 63 || fieldAt b off 8 / 2 ^ 60 % 8 = 3) errRange off

end Sys2Proof.Machine
end

