-- ==== Sys2Proof/Machine/Packets.lean ====
section
/-!
DEFINITION. The packets of a stream and their dispatch (R101, R102, R106, R109, R112, R113, R120, R121), and the doorbell, tail and control
events of a front end (R95 to R98, R104, R105). `GRAPH` stands beside the graphs.
-/
namespace Sys2Proof.Machine

/-! ## Launch -/

/-- The parent that a `LAUNCH` names (R112, R113): none for 0, or an error code. -/
def parentOf (s : State) (p handle : Nat) : Except Nat (Option Grid) :=
  if handle = 0 then .ok none
  else match s.grids.find? fun g => g.part == p && g.handle == handle with
    | none => .error errParent
    | some g => if 8 ≤ g.depth then .error errDepth else .ok (some g)

/-- A `LAUNCH` whose record and parent are in order enters the ready pool when there is a slot (R129), and its parent counts it (R112). -/
def enterPool (s : State) (p st : Nat) (k : Packet) (r : LaunchRec) (parent : Option Grid) : State :=
  let counted := packetCnt k.bytes
  let full := match parent with
    | some g => !counted && decide (65535 ≤ g.children)
    | none => false
  let die := gridDie s p { (default : Grid) with id := s.fresh, rcd := r }
  match freeGridSlot s p with
  | none => waitPacket s p st
  | some slot =>
    if full || poolFree s die = 0 then waitPacket s p st
    else
      let g := newGrid s p slot r die (some st) none parent
      let s := match parent with
        | some h => if counted then s else s.updGrid h.id fun h => { h with children := h.children + 1 }
        | none => s
      dispatchedWork (addGrid s g) p st k (.grid g.id)

/-- Dispatch of a `LAUNCH` (R109, R112, R113). (in part DEDUCED, log entry 52) -/
def doLaunch (s : State) (p st : Nat) (k : Packet) : State :=
  match feRead s p st (fieldAt k.bytes 8 8) 256 with
  | (s, .pending) => waitPacket s p st
  | (s, .fault code _) => haltPacket s p st code 0 k
  | (s, .data b) =>
    let s := dropArrived s (feOwner p st)
    match recordBad (s.part p) b with
    | some (code, off) => haltPacket s p st code off k
    | none => match parentOf s p (fieldAt k.bytes 16 8) with
      | .error code => haltPacket s p st code 16 k
      | .ok parent => enterPool s p st k (launchRecOf b) parent

/-! ## Copies and collectives -/

/-- The engine of a partition that holds the fewest commands, on either die (R102). -/
def anyEngine (s : State) (p : Nat) (k : EngKind) : Option Nat :=
  leastLoaded (cmdsAt s k) ((enginesOn k 0 ++ enginesOn k 1).filter (ownsEngine (s.part p).setup k))

/-- Hands a packet's command to an engine (R102). -/
def handOver (s : State) (p st : Nat) (k : Packet) (kind : EngKind) : State :=
  match anyEngine s p kind with
  | none => waitPacket s p st
  | some e =>
    let c := blockCmd s p kind e (.packet st k.addr (k.bytes.take 32)) k.addr k.bytes (kindBody kind k.bytes)
    dispatchedWork (addCmd s c) p st k (.command c.id)

/-- The issuer of a packet, as the checks of LOCAL addresses need it (R182). -/
def packetIssuer (st : Nat) : Issuer := .packet st 0 []

/-- Dispatch of a `COPY` (R120, R182). (in part DEDUCED, log entry 38) -/
def doCopy (s : State) (p st : Nat) (k : Packet) : State :=
  match copySpanBad s (packetIssuer st) p (copyJobOf k.bytes) with
  | some (code, off) => haltPacket s p st code off k
  | none => handOver s p st k .copy

/-- Dispatch of a `COLL` (R121, R182). -/
def doColl (s : State) (p st : Nat) (k : Packet) : State :=
  match collSpanBad s (packetIssuer st) p (collJobOf k.bytes) with
  | some (code, off) => haltPacket s p st code off k
  | none => handOver s p st k .collective

/-! ## Waits and signals -/

/-- What a stream's earlier packets leave for one that waits for them (R102, R336). -/
def afterEarlier (s : State) (p st : Nat) (k : Packet) (go : State → State) : State :=
  match s.stream? p st with
  | none => s
  | some x =>
    if x.work.any fun w => !w.failed then waitPacket s p st
    else if x.work.isEmpty then go s
    else haltPacket (s.updStream p st fun x => { x with work := [] }) p st errFault 0 k

/-- The decrement of a `SEMSIG` (R102, R106), a release at its scope (R107, R212); it waits while its traffic is held (R142). A fault halts the
stream (R105), and `RESUME` tries again. -/
def signal (s : State) (p st : Nat) (k : Packet) : State :=
  let a := fieldAt k.bytes 8 8
  let n := fieldAt k.bytes 16 8
  if a = 0 then dispatchedComplete s p st k
  else match translate s (whoFe p) .atomic a with
    | (s, .fault c _) => haltStream s p st (feCode c) a 0 (k.bytes.take 32) k.nslot
    | (s, .ok q) =>
      let scope := byteAt k.bytes 24
      if decide (8 ≤ scope) && outsideWrites s p || placeHeld s p 0 q then waitPacket s p st
      else if s.links.reach 0 q = .here then
        if (readPlace s q 8).2 then haltStream s p st errPoison a 0 (k.bytes.take 32) k.nslot
        else dispatchedComplete (decrementAt s q n) p st k
      else
        let id := s.fresh
        dispatchedWork (startDecrement s (decrementFlight none (whoFe p) q.key scope) n q true) p st k (.signal id)

/-- Dispatch of a `SEMSIG`. (in part DEDUCED, log entry 52) -/
def doSemsig (s : State) (p st : Nat) (k : Packet) : State := afterEarlier s p st k fun s => signal s p st k

/-- Dispatch of a `FENCE`. -/
def doFence (s : State) (p st : Nat) (k : Packet) : State := afterEarlier s p st k fun s => dispatchedComplete s p st k

/-- Dispatch of a `SEMWAIT` (R102, R105, R106). -/
def doSemwait (s : State) (p st : Nat) (k : Packet) : State :=
  match feAcquire s p st (byteAt k.bytes 24) (fieldAt k.bytes 8 8) 8 with
  | (s, .pending) => waitPacket s p st
  | (s, .fault code a) => haltStream s p st code a 0 (k.bytes.take 32) k.nslot
  | (s, .data b) =>
    let s := dropArrived s (feOwner p st)
    if tumblerMet b (BitVec.ofNat 64 (fieldAt k.bytes 16 8)) then dispatchedComplete s p st k else waitPacket s p st

/-- Dispatch of a `TIMEWAIT` (R102). -/
def doTimewait (s : State) (p st : Nat) (k : Packet) : State :=
  if fieldAt k.bytes 8 8 ≤ s.time.now then dispatchedComplete s p st k else waitPacket s p st

/-- Dispatch of a `JUMP` (R102): the front end goes on in its buffer. -/
def doJump (s : State) (p st : Nat) (k : Packet) : State :=
  lookPacket (s.updStream p st fun x =>
    { x with packet := none, jump := some ⟨fieldAt k.bytes 8 8, fieldAt k.bytes 16 4, 0, packetIrq k.bytes⟩ }) p st

/-! ## The packet events -/

/-- `NOP_PACKET`. -/
def execNopPacket (p st : Nat) (s : State) : Result :=
  .next (onPacket s p st 1 false (fun _ => none) fun s k => dispatchedComplete s p st k)
/-- `LAUNCH_PACKET`. -/
def execLaunchPacket (p st : Nat) (s : State) : Result := .next (onPacket s p st 2 false launchBody fun s k => doLaunch s p st k)
/-- `COPY_PACKET`. -/
def execCopyPacket (p st : Nat) (s : State) : Result := .next (onPacket s p st 4 false copyChecks fun s k => doCopy s p st k)
/-- `COLL_PACKET`. -/
def execCollPacket (p st : Nat) (s : State) : Result := .next (onPacket s p st 5 false collChecks fun s k => doColl s p st k)
/-- `SEMWAIT_PACKET`. -/
def execSemwaitPacket (p st : Nat) (s : State) : Result := .next (onPacket s p st 6 false semwaitBody fun s k => doSemwait s p st k)
/-- `SEMSIG_PACKET`. -/
def execSemsigPacket (p st : Nat) (s : State) : Result := .next (onPacket s p st 7 false semsigBody fun s k => doSemsig s p st k)
/-- `TIMEWAIT_PACKET`. -/
def execTimewaitPacket (p st : Nat) (s : State) : Result :=
  .next (onPacket s p st 8 false timewaitBody fun s k => doTimewait s p st k)
/-- `FENCE_PACKET`. -/
def execFencePacket (p st : Nat) (s : State) : Result := .next (onPacket s p st 9 false fenceBody fun s k => doFence s p st k)
/-- `JUMP_PACKET`. -/
def execJumpPacket (p st : Nat) (s : State) : Result := .next (onPacket s p st 10 false jumpBody fun s k => doJump s p st k)

/-! ## Front-end events -/

/-- Writes `CMD_TAIL` (R96, R104): with MTAIL 0 it is the doorbell. -/
def writeTail (s : State) (p st v : Nat) : State :=
  let s := s.updStream p st fun x => { x with tail := v % 4294967296 }
  match s.stream? p st with
  | none => s
  | some x => if x.mtail then s else seeTail s p st v

/-- `DOORBELL` (R95). -/
def execDoorbell (p st v : Nat) (s : State) : Result := .next (writeTail s p st v)
/-- `TAIL_WORD_CHANGE` (R104). -/
def execTailWordChange (p st : Nat) (s : State) : Result := .next (watchTail s p st)

/-- Enables a front end (R105): it looks at its tail. (in part DEDUCED, log entry 50) -/
def enableStream (s : State) (p st : Nat) : State :=
  match s.stream? p st with
  | none => s
  | some x =>
    if x.en then s
    else
      let s := s.updStream p st fun x => { x with en := true, state := .idle, seen := if x.mtail then x.head else x.tail }
      if x.mtail then watchTail s p st else idleSees s p st

/-- Disables a front end (R105): a packet that has not been dispatched is dropped, and dispatched work runs on. -/
def disableStream (s : State) (p st : Nat) : State :=
  let s := { s with graphs := s.graphs.filter fun g => g.pool || g.part != p || g.stream != st }
  (dropArrived s (feOwner p st)).updStream p st fun x => { x with en := false, state := .disabled, packet := none, jump := none }

/-- Sets HEAD and TAIL to 0 while EN is 0 (R97). -/
def zeroStream (s : State) (p st : Nat) : State :=
  s.updStream p st fun x => if x.en then x else { x with head := 0, tail := 0, seen := 0 }

/-- RESUME (R98): a halted front end reads the packet at its position again. (in part DEDUCED, log entry 50) -/
def resumeStream (s : State) (p st : Nat) : State :=
  match s.stream? p st with
  | none => s
  | some x => if x.state = .halted then goOn (s.updStream p st fun x => { x with ecode := 0, state := .reading }) p st else s

/-- SKIP (R98): past the failed packet. (in part DEDUCED, log entry 50) -/
def skipPacket (s : State) (p st : Nat) : State :=
  match s.stream? p st with
  | none => s
  | some x =>
    if x.state ≠ .halted then s
    else
      let s := s.updStream p st fun x => { x with ecode := 0, state := .reading }
      match x.jump with
      | some j => leaveBuffer s p st x.haltSlots j
      | none => goOn (s.updStream p st fun x => { x with head := (x.head + x.haltSlots) % 4294967296 }) p st

/-- `QCTL_ENABLE`. -/
def execQctlEnable (p st : Nat) (s : State) : Result := .next (enableStream s p st)
/-- `QCTL_DISABLE`. -/
def execQctlDisable (p st : Nat) (s : State) : Result := .next (disableStream s p st)
/-- `QCTL_ZERO`. -/
def execQctlZero (p st : Nat) (s : State) : Result := .next (zeroStream s p st)
/-- `STAT_RESUME`. -/
def execStatResume (p st : Nat) (s : State) : Result := .next (resumeStream s p st)
/-- `STAT_SKIP`. -/
def execStatSkip (p st : Nat) (s : State) : Result := .next (skipPacket s p st)

/-- `HEADER_REREAD` (R99, R105): a header that was not written, or whose packet the tail does not cover, is read again. -/
def execHeaderReread (p st : Nat) (s : State) : Result := .next (match s.stream? p st with
  | none => s
  | some x => if x.en && x.state = .reading && x.packet.isNone then lookPacket s p st else s)

end Sys2Proof.Machine
end

