-- ==== Sys2Proof/Machine/LightWalker.lean ====
section
/-!
DEFINITION. The light walker (R319 to R321, R456).
-/
namespace Sys2Proof.Machine

/-- A walk by its identifier. -/
def State.walk? (s : State) (id : Nat) : Option LightWalk := s.render.walks.find? fun w => w.id == id
/-- Changes a walk. -/
def State.updWalk (s : State) (id : Nat) (f : LightWalk → LightWalk) : State :=
  { s with render := { s.render with walks := s.render.walks.map fun w => if w.id == id then f w else w } }
/-- Removes a walk. -/
def dropWalk (s : State) (id : Nat) : State :=
  { s with render := { s.render with walks := s.render.walks.filter fun w => w.id != id } }

/-- One lane's walk: it waits at the instruction (R456). -/
def sendWalk (g : Group) (d a b : Nat) (s : State) (l : Nat) : State :=
  let x := g.lane l
  let v (k : Nat) : Nat := (srcV g l x (b + k)).toNat
  let w : LightWalk := { id := s.fresh, core := g.core, slot := g.slot, lane := l, part := s.partOf g,
                         dest := if d < 30 then some (g.vAt (2 * d)) else none, base := (srcW g x a).toNat, px := v 0, py := v 1, pz := v 2,
                         node := 0, depth := 0, pdf := 0x3F800000, draws := 0 }
  { (s.updLane g.core g.slot l fun x => { x with pc := s.issue.pc, wait := .lwalk w.id }) with
    render := { s.render with walks := s.render.walks ++ [w] }, fresh := s.fresh + 1 }

/-- `LWALK` (R456): a misaligned base enters the handler with cause 9. -/
def execLwalk (gd : Guard) (d a b : Nat) (s : State) : Result :=
  .next (laneIssue s gd ⟨.w a :: vRun b 3, [.w d], true⟩ fun g act s' =>
    let base (l : Nat) : Word64 := srcW g (g.lane l) a
    let bad := act.filter fun l => (base l).toNat % 128 ≠ 0
    let good := act.filter fun l => (base l).toNat % 128 = 0
    if countFull g good .mx then block s' s.issue.lanes
    else
      let s' := good.foldl (sendWalk g d a b) (countUp s' g.core g.slot good .mx)
      trapEnter (hold s' bad) g.core g.slot 9 0 (bad.map fun l => ⟨l, s.issue.pc, base l, 0⟩))

/-! ## Nodes -/

/-- Whether child `c` of a node is absent (R319). -/
def childAbsent (b : List Byte) (c : Nat) : Bool := decide (fieldAt b (64 * c + 36) 4 = 0xFFFFFFFF)

/-- Whether a node is malformed (R320). RSQ, PWR and the other fields are judged in the children that are present. -/
def lightBad (b : List Byte) : Bool :=
  let nan (o : Nat) : Bool := (decodeVal fmtFP32 (fieldAt b o 4)).isNan
  let child (c : Nat) : Bool :=
    let o := 64 * c
    (zeros b (o + 40) (o + 64)).isSome || (!childAbsent b c &&
      (!normal32 (fieldAt b (o + 12) 4) || !finite32 (fieldAt b (o + 16) 4) || Val.lt (decodeVal fmtFP32 (fieldAt b (o + 16) 4)) (Val.zero false) ||
        [0, 4, 8, 20, 24, 28, 32].any fun k => nan (o + k)))
  child 0 || child 1 || (childAbsent b 0 && childAbsent b 1)

/-- FP32 sums and differences. -/
def add32 (a b : Nat) : Nat := (fAdd fmtFP32 a b).code
def sub32 (a b : Nat) : Nat := (fSub fmtFP32 a b).code
/-- `a ≤ b` on FP32 codes. -/
def le32 (a b : Nat) : Bool := Val.le (decodeVal fmtFP32 a) (decodeVal fmtFP32 b)

/-- `Importance` (R320). -/
def importance (b : List Byte) (c : Nat) (w : LightWalk) : Nat :=
  let f (k : Nat) : Nat := fieldAt b (64 * c + k) 4
  let ex := sub32 w.px (f 0)
  let ey := sub32 w.py (f 4)
  let ez := sub32 w.pz (f 8)
  let d := add32 (add32 (mul32 ex ex) (mul32 ey ey)) (mul32 ez ez)
  let a := add32 (add32 (mul32 (f 20) ex) (mul32 (f 24) ey)) (mul32 (f 28) ez)
  if le32 (f 32) 0xBF800000 || le32 d (f 12) || le32 (mul32 (f 32) (xReproducible 2 d 0).code) a then
    mul32 (f 16) (xReproducible 0 (fMax fmtFP32 d (f 12)) 0).code
  else 0

/-- The choice at a node with both children present (R320): the child and its probability, for a word of the generator. -/
def chooseChild (i0 i1 y : Nat) : Nat × Nat :=
  let tot := add32 i0 i1
  if (decodeVal fmtFP32 tot).isZero then (if y / 256 % 16777216 < 8388608 then 0 else 1, 0x3F000000)
  else
    let k := if Val.lt (Val.mul (uniformVal y) (decodeVal fmtFP32 tot)) (decodeVal fmtFP32 i0) then 0 else 1
    (k, (xReproducible 3 (if k = 0 then i0 else i1) tot).code)

/-- The walk returns (R456): the result, the draws, `mx`, and the lane goes on. -/
def walkReturn (s : State) (w : LightWalk) (emitter pdf : Nat) : State :=
  let s := s.updLane w.core w.slot w.lane fun x => { x with rngPos := x.rngPos + BitVec.ofNat 64 w.draws }
  let s := writeDest s w.core w.slot w.lane (w.dest.map fun a => (a, 8)) (bytesOfNum 4 emitter ++ bytesOfNum 4 pdf)
  let s := countDown s w.core w.slot [w.lane] .mx
  passLanes (dropWalk s w.id) w.core w.slot [w.lane] 4

/-- One level of `LightWalk` (R320). -/
def walkLevel (s : State) (w : LightWalk) (b : List Byte) : State :=
  if lightBad b then walkReturn s w 0xFFFFFFFF 0
  else
    let x := s.lane w.core w.slot w.lane
    let y := (drawAt x.rngKey.toNat (x.rngPos.toNat + w.draws) x.rngStr.toNat x.glob).y0
    let both := !childAbsent b 0 && !childAbsent b 1
    let (k, p) := if childAbsent b 1 then (0, 0x3F800000) else if childAbsent b 0 then (1, 0x3F800000)
      else chooseChild (importance b 0 w) (importance b 1 w) y
    let w := { w with pdf := mul32 w.pdf p, draws := w.draws + (if both then 1 else 0) }
    let ref := fieldAt b (64 * k + 36) 4
    if 2147483648 ≤ ref then walkReturn s w (ref % 2147483648) w.pdf
    else if 63 ≤ w.depth then walkReturn s w 0xFFFFFFFF 0
    else s.updWalk w.id fun _ => { w with node := ref, depth := w.depth + 1 }

/-- `LWALK_NODE_READ`: the walker reads the next node, or the lane parks at its `lwalk` (R320, R321). (in part DEDUCED, log entry 48) -/
def execLwalkNodeRead (id : Nat) (s : State) : Result := .next (match s.walk? id with
  | none => s
  | some w =>
    if !laneUnitRuns s w.core w.slot then s
    else match unitRead s id ⟨dieOfCore w.core, some w.core, w.part, 3, false⟩ .read ((w.base + 128 * w.node) % 2 ^ 64) 128 with
      | (s, .pending) => s
      | (s, .fault c lv a) =>
        let s := countDown (dropWalk (dropArrived s id) id) w.core w.slot [w.lane] .mx
        let s := s.updLane w.core w.slot w.lane fun x => { x with wait := .none }
        parkLanes s w.core w.slot 12 [⟨w.lane, c, lv, BitVec.ofNat 64 a⟩]
      | (s, .data b) => walkLevel (dropArrived s id) w b)

end Sys2Proof.Machine
end

