-- ==== Sys2Proof/Machine/March.lean ====
section
/-!
DEFINITION. The march unit (R281 to R285, R459): cells in exact order of entry, surface cells handed to the traversal unit, field samples and
their features.
-/
namespace Sys2Proof.Machine

/-! ## Slots -/

/-- A march by its identifier. -/
def State.march? (s : State) (id : Nat) : Option MarchSlot := s.render.marches.find? fun m => m.id == id
/-- Changes a march. -/
def State.updMarch (s : State) (id : Nat) (f : MarchSlot → MarchSlot) : State :=
  { s with render := { s.render with marches := s.render.marches.map fun m => if m.id == id then f m else m } }
/-- Frees a march slot, and a ray that it has under way. -/
def dropMarch (s : State) (id : Nat) : State :=
  { s with render := { s.render with
      marches := s.render.marches.filter fun m => m.id != id, rays := s.render.rays.filter fun r => r.owner != .march id } }
/-- The march slot that a lane holds. -/
def marchOf (s : State) (core slot l : Nat) : Option MarchSlot :=
  s.render.marches.find? fun m => m.core == core && m.slot == slot && m.lane == l

/-- The 128 bytes of an event (R459): T(D), then T(D + 1). (in part DESIGN CHOICE, log entry 47) -/
def eventBytes (t : List Byte) (kind a : Nat) (rest : List Byte) (status cells : Nat) : List Byte :=
  (t ++ List.replicate 64 0).take 64 ++
    ((bytesOfNum 4 kind ++ bytesOfNum 4 a ++ rest ++ List.replicate 16 0).take 24 ++ bytesOfNum 4 status ++ bytesOfNum 4 cells ++
      List.replicate 32 0)

/-- Kinds of events (R459). -/
def evSurface : Nat := 0
def evField : Nat := 1
def evEnd : Nat := 2

/-! ## `march` -/

/-- Whether a lane's previous event has not landed (R459). -/
def marchPending (s : State) (g : Group) (l : Nat) : Bool :=
  match marchOf s g.core g.slot l with
  | some m => decide (m.state ≠ .landed)
  | none => false

/-- Free march slots of the unit that serves a core (R281). -/
def marchesFree (s : State) (core : Nat) : Nat := 256 - (s.render.marches.filter fun m => m.core / 2 == core / 2).length

/-- A lane starts a march (R459). -/
def startMarch (g : Group) (d a b : Nat) (s : State) (l : Nat) : State :=
  let x := g.lane l
  let geom := rayOfBytes ((readT g x a).take 32)
  let m : MarchSlot := { id := s.fresh, core := g.core, slot := g.slot, lane := l, part := s.partOf g, pc := s.issue.pc, dest := g.tAt d,
                         geom := geom, grid := (srcW g x b).toNat, status := 0, k := 0, cells := 0, cell := none, state := .run }
  { s with render := { s.render with marches := s.render.marches ++ [m] }, fresh := s.fresh + 1 }

/-- The lanes that take a slot, in ascending lane: each frees the slot that it holds first (R459). -/
def startMarches (g : Group) (d a b : Nat) : State → List Nat → State × List Nat
  | s, [] => (s, [])
  | s, l :: rest =>
    let s := match marchOf s g.core g.slot l with
      | some m => dropMarch s m.id
      | none => s
    if marchesFree s g.core = 0 then
      let (s, ws) := startMarches g d a b s rest
      (s, l :: ws)
    else startMarches g d a b (countUp (startMarch g d a b s l) g.core g.slot [l] .mx) rest

/-- The T registers of a march. -/
def marchDsts (d : Nat) : List Named := [.t d, .t (d + 1)]

/-- `MARCH` (R459). -/
def execMarch (gd : Guard) (d a b : Nat) (s : State) : Result :=
  .next (laneIssue s gd ⟨[.t a, .w b], marchDsts d, false⟩ fun g act s' =>
    if countFull g act .mx || act.any (marchPending s g) then block s' s.issue.lanes
    else
      let (s', ws) := startMarches g d a b s' act
      if ws.isEmpty then s' else block s' ws)

/-- A lane resumes its march, or a lane without one gets END with MALFORMED at once (R459). -/
def resumeMarch (g : Group) (d : Nat) (s : State) (l : Nat) : State :=
  match marchOf s g.core g.slot l with
  | some m =>
    (countUp s g.core g.slot [l] .mx).updMarch m.id fun m => { m with state := .run, dest := g.tAt d, pc := s.issue.pc }
  | none => writeDest s g.core g.slot l (some (g.tAt d, 128)) (eventBytes [] evEnd 0 [] (2 ^ flagMalformed) 0)

/-- `MARCH_RES` (R459): A and B are named, so that they lie below RSIZE (R163), and not read. (in part DESIGN CHOICE, log entry 47) -/
def execMarchRes (gd : Guard) (d a b : Nat) (s : State) : Result :=
  .next (laneIssue s gd ⟨[], marchDsts d ++ [.t a, .w b], false⟩ fun g act s' =>
    if countFull g act .mx || act.any (marchPending s g) then block s' s.issue.lanes
    else act.foldl (resumeMarch g d) s')

/-! ## The grid -/

/-- An occupancy grid (R282), with GO and CELL as multiples of 2^-149. -/
structure MarchGrid where
  go : List Int
  cell : Int
  n : List Nat
  cells : Nat
  surf : Nat
  crefs : Nat
  hash : Nat
  dt : Nat
  goCodes : List Nat
  cellCode : Nat
  deriving DecidableEq, Repr

/-- The grid of a descriptor's bytes. -/
def gridOfBytes (b : List Byte) : MarchGrid :=
  let gc := (List.range 3).map fun a => fieldAt b (4 * a) 4
  ⟨gc.map fx, fx (fieldAt b 12 4), (List.range 3).map fun a => fieldAt b (16 + 2 * a) 2, fieldAt b 24 8, fieldAt b 32 8, fieldAt b 40 8,
    fieldAt b 48 8, fieldAt b 56 4, gc, fieldAt b 12 4⟩

/-- Whether a descriptor breaks R282. -/
def gridBad (b : List Byte) : Bool :=
  !((List.range 3).all fun a => finite32 (fieldAt b (4 * a) 4)) || !normal32 (fieldAt b 12 4) ||
    ((List.range 3).any fun a => decide (fieldAt b (16 + 2 * a) 2 = 0) || decide (4096 < fieldAt b (16 + 2 * a) 2)) ||
    !normal32 (fieldAt b 56 4) || (zeros b 22 24).isSome || (zeros b 60 64).isSome

/-- Cells on an axis. -/
def MarchGrid.count (v : MarchGrid) (a : Nat) : Nat := v.n.getD a 1
/-- The plane below index `i` of an axis. -/
def MarchGrid.plane (v : MarchGrid) (a : Nat) (i : Int) : Int := v.go.getD a 0 + i * v.cell

/-- A cell. -/
abbrev Cell3 := Nat × Nat × Nat
/-- A cell's index on an axis. -/
def axisOf (c : Cell3) (a : Nat) : Nat := match a with | 0 => c.1 | 1 => c.2.1 | _ => c.2.2
/-- A cell's number (R282). -/
def MarchGrid.number (v : MarchGrid) (c : Cell3) : Nat := c.1 + v.count 0 * (c.2.1 + v.count 1 * c.2.2)

/-- The span of a box of cells `lo` to `hi` on the ray, within its interval (R283). -/
def MarchGrid.span (v : MarchGrid) (r : RayLine) (lo hi : Nat → Int) : Option (Frac × Frac) :=
  match boxSpan r.geom (fun a => v.plane a (lo a)) (fun a => v.plane a (hi a)) with
  | none => none
  | some (n, f) =>
    let f := match decodeVal fmtFP32 r.geom.tmax with
      | .fin _ _ _ => f.min (Frac.ofCode r.geom.tmax)
      | .inf true => ⟨fx r.geom.tmin - 1, 2 ^ 149⟩
      | _ => f
    some (n.max r.lo, f)

/-- The span of a cell. -/
def MarchGrid.cellSpan (v : MarchGrid) (r : RayLine) (c : Cell3) : Option (Frac × Frac) :=
  v.span r (fun a => axisOf c a) (fun a => axisOf c a + 1)

/-- The indices of an axis that the ray lies in just beyond a distance (R283): one, or two where the ray runs along a face. -/
def MarchGrid.indices (v : MarchGrid) (r : RayGeom) (t : Frac) (a : Nat) : List Nat :=
  let x : Int := (r.org a - v.go.getD a 0) * t.den + t.num * r.dir a
  let w : Int := v.cell * t.den
  let i : List Int :=
    if 0 < r.dir a then [x.fdiv w]
    else if r.dir a < 0 then [-((-x).fdiv w) - 1]
    else if x.fmod w = 0 then [x.fdiv w - 1, x.fdiv w] else [x.fdiv w]
  i.filterMap fun (k : Int) => if 0 ≤ k ∧ k < v.count a then some k.toNat else none

/-- The cells that begin at a distance, in ascending number. (in part DESIGN CHOICE, log entry 47) -/
def MarchGrid.cellsAt (v : MarchGrid) (r : RayGeom) (t : Frac) : List Cell3 :=
  (v.indices r t 2).flatMap fun z => (v.indices r t 1).flatMap fun y => (v.indices r t 0).map fun x => (x, y, z)

/-- The first cell, if the ray enters the grid over a positive length (R283). -/
def MarchGrid.firstCell (v : MarchGrid) (r : RayLine) : Option Cell3 :=
  match v.span r (fun _ => 0) (fun a => v.count a) with
  | none => none
  | some (t, f) => if t.lt f then (v.cellsAt r.geom t).head? else none

/-- Whether one cell comes right after another of the same span. -/
def MarchGrid.later (v : MarchGrid) (c d : Cell3) : Bool := decide (v.number c < v.number d)

/-- The cell after a cell: the next that begins with it, or the first that begins at its exit (R283). (in part DESIGN CHOICE, log entry 47) -/
def MarchGrid.nextCell (v : MarchGrid) (r : RayLine) (c : Cell3) : Option Cell3 :=
  match v.cellSpan r c, v.span r (fun _ => 0) (fun a => v.count a) with
  | some (t, f), some (_, far) =>
    match (v.cellsAt r.geom t).find? (v.later c) with
    | some d => some d
    | none => if f.lt far then (v.cellsAt r.geom f).head? else none
  | _, _ => none

/-! ## Events -/

/-- The march's line. -/
def MarchSlot.line (m : MarchSlot) : RayLine := ⟨m.geom, none⟩

/-- An event lands (R459): its bytes, `mx`, and the slot is freed or waits for a resume. -/
def landEvent (s : State) (m : MarchSlot) (bytes : List Byte) (frees : Bool) : State :=
  let s := writeDest (dropArrived s m.id) m.core m.slot m.lane (some (m.dest, 128)) bytes
  let s := countDown s m.core m.slot [m.lane] .mx
  if frees then dropMarch s m.id else s.updMarch m.id fun _ => { m with state := .landed }

/-- END with some status bits. -/
def endMarch (s : State) (m : MarchSlot) (status : Nat) : State :=
  landEvent s m (eventBytes [] evEnd 0 [] (m.status ||| status) m.cells) true

/-- Who a march unit translates for: path `ray`, or `gth` for features (R282). -/
def MarchSlot.who (m : MarchSlot) (path : Nat) : Who := ⟨dieOfCore m.core, some m.core, m.part, path, false⟩

/-- A read of a march faults (R272, R282): cause 1 pauses it, another cause ends it with NODEERR. (in part DESIGN CHOICE, log entry 47) -/
def marchFault (s : State) (m : MarchSlot) (path cause level addr : Nat) : State :=
  let s := dropArrived s m.id
  if cause = 1 then
    let (s, p) := pauseUnit s m.part (laneUnitRec s m.core m.slot m.lane 1 (4 * path) level addr m.pc)
    s.updMarch m.id fun _ => { m with state := .faulted p }
  else endMarch s m (2 ^ flagNodeerr + 16777216 * cause)

/-- Goes on to the next cell, or ends: the ray has left the grid or passed TMAX, or has visited 65,536 cells (R281, R283). -/
def moveOn (s : State) (m : MarchSlot) (next : Option Cell3) : State :=
  match next with
  | none => endMarch s m 0
  | some c =>
    if 65536 ≤ m.cells then endMarch s m (2 ^ flagRaylim)
    else (dropArrived s m.id).updMarch m.id fun _ => { m with cell := some c, cells := m.cells + 1, state := .run }

/-- The cell acts as empty. -/
def skipCell (s : State) (m : MarchSlot) (v : MarchGrid) (c : Cell3) (malformed : Bool) : State :=
  let m := if malformed then { m with status := m.status ||| 2 ^ flagMalformed } else m
  moveOn s m (v.nextCell m.line c)

/-! ## Surface cells -/

/-- A surface cell (R282, R283): its references go to the traversal unit of the lane's core, as a ray of its own. While no slot is free the
march waits. (in part DESIGN CHOICE, log entry 47) -/
def surfaceCell (s : State) (m : MarchSlot) (v : MarchGrid) (c : Cell3) : State :=
  match unitRead s m.id (m.who 5) .read ((v.surf + 4 * v.number c) % 2 ^ 64) 4 with
  | (s, .pending) => s
  | (s, .fault cause lv a) => marchFault s m 5 cause lv a
  | (s, .data b) =>
    let e := numOfBytes b
    if 268435456 ≤ e then skipCell s m v c true
    else if raysFree s m.core = 0 then s
    else
      let n := e / 16777216 + 1
      let refs := (List.range n).map fun i => ((v.crefs + 64 * (e % 16777216 + i)) % 2 ^ 64, true)
      let r := startRay s.fresh m.core m.part (.march m.id) m.pc none m.geom 9 0 0
      let s := addRay s { r with clip := v.cellSpan m.line c, stack := refs }
      (dropArrived s m.id).updMarch m.id fun _ => { m with state := .tracing r.id }

/-- A surface cell's ray has ended (R283): a hit ends the march, a miss goes on. -/
def surfaceDone (s : State) (m : MarchSlot) (r : RaySlot) (v : MarchGrid) (c : Cell3) : State :=
  match r.hit with
  | some h =>
    landEvent (dropRay s r.id) m (eventBytes r.result evSurface h.t [] (m.status ||| (r.word / 65536 * 65536)) m.cells) true
  | none => moveOn (dropRay s r.id) { m with status := m.status ||| (r.flags / 65536 * 65536) } (v.nextCell m.line c)

/-! ## Field cells -/

/-- `t_k` (R283): TMIN + k × DT, rounded once. -/
def sampleAt (m : MarchSlot) (v : MarchGrid) (k : Nat) : Nat := (⟨fx m.geom.tmin + (k : Int) * fx v.dt, 2 ^ 149⟩ : Frac).round

/-- The least index, from `acc` on, whose sample does not lie before a distance, found one bit at a time. -/
def sampleFrom (m : MarchSlot) (v : MarchGrid) (entry : Frac) : Nat → Nat → Nat
  | 0, acc => acc
  | n + 1, acc =>
    let t := Frac.ofCode (sampleAt m v (acc + 2 ^ n - 1))
    sampleFrom m v entry n (if t.lt entry then acc + 2 ^ n else acc)

/-- The next sample of a field cell (R283): its index and its distance, if it lies in [entry, exit). -/
def nextSample (m : MarchSlot) (v : MarchGrid) (c : Cell3) : Option (Nat × Nat) :=
  match v.cellSpan m.line c with
  | none => none
  | some (entry, exit) =>
    let k := sampleFrom m v entry 280 m.k
    let t := sampleAt m v k
    if finite32 t && (Frac.ofCode t).lt exit then some (k, t) else none

/-- A hash-grid descriptor (R284). -/
structure HashGrid where
  nlev : Nat
  nfeat : Nat
  tlog2 : Nat
  table : Nat
  res : List Nat
  deriving DecidableEq, Repr

/-- The hash grid of a descriptor's bytes. -/
def hashOfBytes (b : List Byte) : HashGrid :=
  ⟨byteAt b 0, byteAt b 1, byteAt b 2, fieldAt b 8 8, (List.range 16).map fun i => fieldAt b (16 + 4 * i) 4⟩

/-- Whether a hash-grid descriptor breaks a limit (R284). -/
def hashBad (b : List Byte) : Bool :=
  let h := hashOfBytes b
  decide (h.nlev = 0) || decide (16 < h.nlev) || !([1, 2, 4].contains h.nfeat) || decide (16 < h.nlev * h.nfeat) || decide (h.tlog2 < 10) ||
    decide (24 < h.tlog2) || ((h.res.take h.nlev).any fun n => decide (n = 0) || decide (1048576 < n)) || (zeros b 3 8).isSome ||
    (zeros b 80 128).isSome

/-- Where a position stands on an axis of a level (R285): its lower corner and its fraction. A NaN gives a NaN fraction, so that every
feature is NaN whatever the corner (DEDUCED, log entry 21). -/
def cornerOf (g res : Nat) : Nat × Nat :=
  match decodeVal fmtFP32 g with
  | .fin neg m e =>
    let fl : Int := (roundToInt .down 0 neg m e).1
    if (res : Int) ≤ fl then (res - 1, 0x3F800000)
    else if fl < 0 then (0, 0)
    else (fl.toNat, sub32 g (roundVal fmtFP32 .nearest 0 (.fin false fl.toNat 0)).code)
  | .inf true => (0, 0)
  | .inf false => (res - 1, 0x3F800000)
  | .nan => (0, fmtFP32.nanCode)

/-- The entry of a corner in a level's table (R285). -/
def hashIndex (h : HashGrid) (res x y z : Nat) : Nat :=
  if (res + 1) ^ 3 ≤ 2 ^ h.tlog2 then x + (res + 1) * (y + (res + 1) * z)
  else (x ^^^ (y * 0xB5E16C2B % 4294967296) ^^^ (z * 0xE7C35A9D % 4294967296)) % 4294967296 % 2 ^ h.tlog2

/-- The position of a sample (R285), as three FP32 codes. -/
def samplePos (m : MarchSlot) (t : Nat) : List Nat :=
  [add32 m.geom.ox (mul32 t m.geom.dx), add32 m.geom.oy (mul32 t m.geom.dy), add32 m.geom.oz (mul32 t m.geom.dz)]

/-- `q` of R285. -/
def sampleQ (v : MarchGrid) (p : List Nat) : List Nat :=
  (List.range 3).map fun a =>
    let n := (roundVal fmtFP32 .nearest 0 (.fin false (v.count a) 0)).code
    (xReproducible 3 (sub32 (p.getD a 0) (v.goCodes.getD a 0)) (mul32 v.cellCode n)).code

/-- The lower corner and the fractions of a level. (in part DEDUCED, log entry 21) -/
def levelCorner (h : HashGrid) (q : List Nat) (i : Nat) : List (Nat × Nat) :=
  let res := h.res.getD i 1
  q.map fun x => cornerOf (mul32 x (roundVal fmtFP32 .nearest 0 (.fin false res 0)).code) res

/-- The entries that a level reads, corner by corner (R285). -/
def levelSpans (h : HashGrid) (q : List Nat) (i : Nat) : List (Nat × Nat) :=
  let c := levelCorner h q i
  let at_ (a : Nat) : Nat := (c.getD a (0, 0)).1
  let w := 2 * h.nfeat
  (List.range 8).map fun k =>
    ((h.table + i * 2 ^ h.tlog2 * w + w * hashIndex h (h.res.getD i 1) (at_ 0 + k % 2) (at_ 1 + k / 2 % 2) (at_ 2 + k / 4)) % 2 ^ 64, w)

/-- The weight of a corner (R285). -/
def cornerWeight (c : List (Nat × Nat)) (k : Nat) : Nat :=
  let f (a : Nat) : Nat :=
    let x := (c.getD a (0, 0)).2
    if k / 2 ^ a % 2 = 1 then x else sub32 0x3F800000 x
  mul32 (mul32 (f 0) (f 1)) (f 2)

/-- The features of a level from its entries (R285). -/
def levelFeatures (h : HashGrid) (q : List Nat) (i : Nat) (d : List (List Byte)) : List Nat :=
  let c := levelCorner h q i
  (List.range h.nfeat).map fun j => (List.range 8).foldl (fun acc k =>
    add32 acc (mul32 (cornerWeight c k) (code32 (decodeVal fmtFP16 (fieldAt (d.getD k []) (2 * j) 2))))) 0

/-- The 16 features of a sample, from the entries of its levels in order. (in part DEDUCED, log entry 21) -/
def features (h : HashGrid) (q : List Nat) (d : List (List Byte)) : List Nat :=
  let fs := (List.range h.nlev).flatMap fun i => levelFeatures h q i ((d.drop (8 * i)).take 8)
  (List.range 16).map fun i => fs.getD i 0

/-- A field cell (R283 to R285): its next sample gives an event, or it is done. -/
def fieldCell (s : State) (m : MarchSlot) (v : MarchGrid) (c : Cell3) : State :=
  if v.hash = 0 then skipCell s m v c true
  else match unitRead s m.id (m.who 3) .read v.hash 128 with
    | (s, .pending) => s
    | (s, .fault cause lv a) => marchFault s m 3 cause lv a
    | (s, .data b) =>
      if hashBad b then skipCell s m v c true
      else match nextSample m v c with
        | none => skipCell s m v c false
        | some (k, t) =>
          let h := hashOfBytes b
          let p := samplePos m t
          let q := sampleQ v p
          match unitReads s m.id (m.who 3) .read ((List.range h.nlev).flatMap (levelSpans h q)) with
          | (s, .error (.fault cause lv a)) => marchFault s m 3 cause lv a
          | (s, .error _) => s
          | (s, .ok d) =>
            let bytes := eventBytes (bytesOfWords (features h q d)) evField t (bytesOfWords p ++ bytesOfNum 4 k) m.status m.cells
            landEvent s { m with k := k + 1 } bytes false

/-! ## The event -/

/-- The current cell of a march. (in part DESIGN CHOICE, log entry 47) -/
def cellStep (s : State) (m : MarchSlot) (v : MarchGrid) (c : Cell3) : State :=
  match unitRead s m.id (m.who 5) .read ((v.cells + v.number c / 4) % 2 ^ 64) 1 with
  | (s, .pending) => s
  | (s, .fault cause lv a) => marchFault s m 5 cause lv a
  | (s, .data b) =>
    match numOfBytes b / 4 ^ (v.number c % 4) % 4 with
    | 0 => skipCell s m v c false
    | 1 => surfaceCell s m v c
    | 2 => fieldCell s m v c
    | _ => skipCell s m v c true

/-- `MARCH_EVENT`: a march visits its next cell, or its event lands (R281 to R285, R459). -/
def execMarchEvent (id : Nat) (s : State) : Result := .next (match s.march? id with
  | none => s
  | some m =>
    if !laneUnitRuns s m.core m.slot || m.state = .landed then s
    else if m.geom.bad || m.grid % 64 ≠ 0 then (if m.state = .run then endMarch s m (2 ^ flagMalformed) else s)
    else match unitRead s id (m.who 5) .read m.grid 64 with
      | (s, .pending) => s
      | (s, .fault cause lv a) => if m.state = .run then marchFault s m 5 cause lv a else s
      | (s, .data b) =>
        let v := gridOfBytes b
        match m.state, m.cell with
        | .run, none => if gridBad b then endMarch s m (2 ^ flagMalformed) else moveOn s m (v.firstCell m.line)
        | .run, some c => if gridBad b then endMarch s m (2 ^ flagMalformed) else cellStep s m v c
        | .tracing rid, some c => match s.ray? rid with
          | some r => if r.state = .done then surfaceDone s m r v c else s
          | none => s
        | _, _ => s)

end Sys2Proof.Machine
end

