-- ==== Sys2Proof/Machine/Moves.lean ====
section
/-!
DEFINITION. Teams that move (R137 to R139, R145, R333 to R341): taking a team and all that names it to another core, context images in
memory, saving and restoring.
-/
namespace Sys2Proof.Machine

/-! ## Relocation -/

/-- The core under which the model keeps the groups of a saved team (DESIGN CHOICE, log entry 14). -/
def parkedCore (team : Nat) : Nat := savedBase + team

/-- A move of a team: its core and slots before, its new core, the new slot and shadow slot of each old slot, and its scratchpad
footprint before and after. -/
structure Move where
  team : Nat
  core : Nat
  newCore : Nat
  slots : List (Nat × Nat × Option Nat)
  spOld : Nat
  spNew : Nat
  spfoot : Nat
  deriving DecidableEq, Repr

/-- Whether a core and slot are the moving team's. -/
def Move.owns (m : Move) (core slot : Nat) : Bool := core == m.core && m.slots.any fun x => x.1 == slot
/-- The new slot of an old one. -/
def Move.slotOf (m : Move) (slot : Nat) : Nat := ((m.slots.find? fun x => x.1 == slot).map fun x => x.2.1).getD slot
/-- The shadow slot that goes with an old slot. -/
def Move.shadowOf (m : Move) (slot : Nat) : Option Nat := (m.slots.find? fun x => x.1 == slot).bind fun x => x.2.2
/-- Where a core and slot stand after the move. -/
def Move.at_ (m : Move) (core slot : Nat) : Nat × Nat := if m.owns core slot then (m.newCore, m.slotOf slot) else (core, slot)

/-- An SRAM place after the move. -/
def Move.place (m : Move) (p : Place) : Place :=
  match p with
  | .sp c o => if c = m.core && m.spOld ≤ o && o < m.spOld + m.spfoot then .sp m.newCore (m.spNew + o - m.spOld) else p
  | .slice c t l o => .slice (m.at_ c t).1 (m.at_ c t).2 l o
  | p => p

/-- A group after the move: it is pending on its new core, and its slices stand in their home. -/
def Move.group (m : Move) (now : Nat) (g : Group) : Group :=
  if g.team = m.team then
    { g with
      core := m.newCore, slot := m.slotOf g.slot, shadow := m.shadowOf g.slot, active := false, slowSince := now, current := false, inStore := false }
  else g

/-- The issuer of a command after the move. -/
def Move.issuer (m : Move) (i : Issuer) : Issuer :=
  match i with
  | .group c t ls => .group (m.at_ c t).1 (m.at_ c t).2 ls
  | i => i

/-- A ray after the move. -/
def Move.ray (m : Move) (ms : List MarchSlot) (r : RaySlot) : RaySlot :=
  match r.owner with
  | .lane c t l => { r with core := (m.at_ c t).1, owner := .lane (m.at_ c t).1 (m.at_ c t).2 l }
  | .march id => if ms.any fun x => x.id == id && m.owns x.core x.slot then { r with core := m.newCore } else r
  | .strainer _ => r

/-- A tile after the move: rows of the team that were accepted go to a tile of their own, with their inputs to be read again (R339). -/
def Move.tile (m : Move) (fresh : Nat) (t : BlendTile) : List BlendTile :=
  let mine := t.rows.filter fun r => m.owns r.core r.slot
  let rest := t.rows.filter fun r => !m.owns r.core r.slot
  let moved : BlendTile := { t with
    id := fresh, core := m.newCore, ran := false,
    rows := (if t.desc.isSome then mine else []).map fun r => { r with core := m.newCore, slot := m.slotOf r.slot, inputs := none } }
  [{ t with rows := rest }, moved].filter fun t => !t.rows.isEmpty

/-- The units' work after the move. -/
def Move.render (m : Move) (fresh : Nat) (r : Render) : Render :=
  { pixels := r.pixels.map fun p => { p with core := (m.at_ p.core p.slot).1, slot := (m.at_ p.core p.slot).2 }
    rays := r.rays.map (m.ray r.marches)
    marches := r.marches.map fun x => { x with core := (m.at_ x.core x.slot).1, slot := (m.at_ x.core x.slot).2 }
    walks := r.walks.map fun x => { x with core := (m.at_ x.core x.slot).1, slot := (m.at_ x.core x.slot).2 }
    jobs := r.jobs.map fun j => if j.cmd.isNone && j.team = m.team then { j with core := m.newCore } else j
    tiles := (r.tiles.mapIdx fun i t => m.tile (fresh + i) t).flatten }

/-- A lane whose row was gathered and not accepted issues its `neval` again (R339). -/
def Lane.regather (tiles : List BlendTile) (x : Lane) : Lane :=
  match x.wait with
  | .neval id => if tiles.any fun t => t.desc.isNone && t.rows.any fun r => r.id == id then { x with wait := .none } else x
  | _ => x

/-- A shadow after the move (R342): it goes with its leading group, or ends where that has no slot for it. -/
def Move.shadow (m : Move) (h : Shadow) : Option Shadow :=
  if h.group.team = m.team then
    (m.shadowOf h.lead).map fun t => { h with lead := m.slotOf h.lead, group := { h.group with core := m.newCore, slot := t } }
  else some h

/-- Everything that names the team's core and slots, after the move. Its accesses are complete. -/
def relocate (s : State) (m : Move) : State :=
  let bytes := s.scratch.bytes (scratchAt m.core m.spOld) m.spfoot
  { s with
    fresh := s.fresh + s.render.tiles.length
    vacant := (m.core, s.time.now) :: s.vacant.filter fun x => x.1 != m.core
    scratch := (s.scratch.clear (scratchAt m.newCore m.spNew) m.spfoot).writeBytes (scratchAt m.newCore m.spNew) bytes
    sramPoison := s.sramPoison.map m.place
    groups := s.groups.map fun g => m.group s.time.now (if g.team = m.team then { g with lanes := g.lanes.map (Lane.regather s.render.tiles) } else g)
    shadows := s.shadows.filterMap m.shadow
    teams := s.teams.map fun t => if t.id = m.team then
        { t with core := m.newCore, slots := t.slots.map m.slotOf, spbase := m.spNew } else t
    eng := { s.eng with
        chains := s.eng.chains.map fun c => { c with waiting := c.waiting.map fun w => ((m.at_ w.1 w.2.1).1, (m.at_ w.1 w.2.1).2, w.2.2) }
        cmds := s.eng.cmds.map fun c => { c with issuer := m.issuer c.issuer } }
    render := m.render s.fresh s.render }

/-! ## Images in memory -/

/-- A piece of an image: its offset and bytes. -/
abbrev Piece := Nat × List Byte

/-- Words of one width from an offset. -/
def wordsAt (off n : Nat) (xs : List Nat) : List Piece := xs.mapIdx fun i x => (off + n * i, bytesOfNum n x)

/-- The bytes of a sparse memory, placed at an offset. -/
def memPieces (off : Nat) (m : Mem) : List Piece := m.map fun c => (off + c.1, [c.2])

/-- A predicate register with its constant bit 7 (R165). -/
def predByte (q : BitVec 8) : Nat := (q ||| 0x80#8).toNat

/-- A lane record (R340). -/
def lanePieces (off : Nat) (x : Lane) : List Piece :=
  if x.exited then [(off + 41, [1])]
  else
    let state := (match x.parked with
      | some k => 2 + (if k.released = .none then 0 else 4)
      | none => 0) + (if x.shader then 8 else 0)
    [(off, bytesOfNum 8 x.pc.toNat), (off + 8, bytesOfNum 8 x.sret.toNat), (off + 16, bytesOfNum 8 x.rngKey.toNat),
     (off + 24, bytesOfNum 8 x.rngPos.toNat), (off + 32, bytesOfNum 4 x.rngStr.toNat),
     (off + 36, bytesOfNum 4 ((x.parked.map Park.token).getD 0)), (off + 40, bytesOfNum 1 (predByte x.preds)), (off + 41, bytesOfNum 1 state),
     (off + 42, bytesOfNum 1 (x.tdep + (if x.tmsk then 4 else 0))), (off + 43, bytesOfNum 1 ((x.parked.map Park.cause).getD 0))] ++
    ((List.range 4).flatMap fun c => match x.pend.getD c none with
      | some p => [(off + 64 + 32 * c, frameBytes p.epc p.val p.cause p.info p.token), (off + 64 + 32 * c + 18, [1])]
      | none => [])

/-- A group record (R340). -/
def groupPieces (off : Nat) (g : Group) : List Piece :=
  let csr (c : Nat) : Nat := csrValue g default c
  wordsAt off 8 (g.g.map BitVec.toNat) ++
    [(off + 512, bytesOfNum 1 (predByte g.q)), (off + 516, bytesOfNum 4 g.gb0.toNat), (off + 520, bytesOfNum 4 g.gb1.toNat)] ++
    wordsAt (off + 528) 8 [csr 0x10, csr 0x11, csr 0x12, csr 0x14, csr 0x15, csr 0x16, csr 0x18, csr 0x19, csr 0x1a] ++
    wordsAt (off + 600) 4 (g.loops.map fun v => v.members.toNat) ++
    (g.bars.mapIdx fun i b => (off + 616 + 8 * i, bytesOfNum 4 b.mask.toNat ++ bytesOfNum 4 b.arr.toNat)) ++
    wordsAt (off + 744) 1 (g.lanes.map Lane.ld) ++ wordsAt (off + 776) 1 (g.lanes.map Lane.st) ++
    wordsAt (off + 808) 1 (g.lanes.map Lane.cp) ++ wordsAt (off + 840) 1 (g.lanes.map Lane.mx) ++
    wordsAt (off + 872) 8 [csr 0x20, csr 0x21, csr 0x22, csr 0x23, csr 0x24, csr 0x25, csr 0x30, csr 0x31] ++
    wordsAt (off + 936) 4 (g.sln.map BitVec.toNat) ++
    ((g.lanes.mapIdx fun l x => lanePieces (off + 1024 + 224 * l) x).flatten)

/-- A group's section: its record and the register space of its lanes. -/
def groupSection (off : Nat) (g : Group) : List Piece :=
  groupPieces off g ++ (g.lanes.mapIdx fun l x => memPieces (off + 8192 + l * g.rsize) x.regs).flatten

/-- A place of R262's states, as a number for Config. -/
def RayState.num : RayState → Nat
  | .walk => 1 | .awaitShd => 2 | .faulted _ => 3 | .done => 4

/-- The owner of a ray slot (R261): the group slot and the lane. -/
def rayOwnerField (ms : List MarchSlot) (r : RaySlot) : Nat :=
  match r.owner with
  | .lane _ t l => t % 64 + 64 * l
  | .march id => match ms.find? fun x => x.id == id with
    | some x => x.slot % 64 + 64 * x.lane
    | none => 0
  | .strainer _ => 0

/-- A spill record (R261). (in part DESIGN CHOICE, log entry 14) -/
def rayPieces (off : Nat) (ms : List MarchSlot) (r : RaySlot) : List Piece :=
  let below := (r.stack.drop 1).reverse
  wordsAt off 4 [r.geom.ox, r.geom.oy, r.geom.oz, r.geom.dx, r.geom.dy, r.geom.dz, r.geom.tmin, r.geom.tmax] ++
    [(off + 32, bytesOfNum 8 ((r.hit.map Hit.field).getD 0)), (off + 40, bytesOfNum 4 ((r.hit.map Hit.inst).getD 0)),
     (off + 44, bytesOfNum 2 r.steps), (off + 46, [Config.rayStateCode r.state.num]), (off + 47, bytesOfNum 1 below.length),
     (off + 48, bytesOfNum 8 ((r.stack.head?.map Prod.fst).getD 0)), (off + 56, bytesOfNum 4 r.word),
     (off + 60, bytesOfNum 2 ((r.cand.map Hit.hgroup).getD 0)), (off + 62, bytesOfNum 2 (rayOwnerField ms r))] ++
    (below.mapIdx fun i e => (off + 64 + 8 * i, bytesOfNum 8 (e.1 / 64 * 64 + (if e.2 then 1 else 0))))

/-- What a march slot holds (R281), as numbers for Config. -/
def MarchSlot.contents (m : MarchSlot) : List Nat :=
  [m.geom.ox, m.geom.oy, m.geom.oz, m.geom.dx, m.geom.dy, m.geom.dz, m.geom.tmin, m.geom.tmax, m.grid, m.status, m.k, m.cells] ++
    (match m.cell with
     | some c => [c.1, c.2.1, c.2.2]
     | none => [])

/-- A march record. (in part DESIGN CHOICE, log entry 14) -/
def marchPieces (off : Nat) (m : MarchSlot) : List Piece := [(off, (List.range 64).map (Config.marchByte m.contents))]

/-- Tiles of a job and bytes of one, once its card is read (R340). -/
def jobTiles (s : State) (j : MatrixJob) : Nat × Nat :=
  match j.card with
  | some b => let c := jobCard s j b; (j.ranks * min 8 c.nt, 1024 * c.elem)
  | none => (0, 4096)

/-- Bytes of a job's record. -/
def jobLen (s : State) (j : MatrixJob) : Nat := 512 + (jobTiles s j).1 * (jobTiles s j).2

/-- The tiles that a job's record holds (R339): its partial sums, or the snapshot of its destinations. -/
def jobImage (s : State) (j : MatrixJob) : List (List Nat) :=
  match j.card with
  | none => []
  | some b =>
    if j.step ≠ 0 then j.accs
    else
      let c := { jobCard s j b with acc := true }
      (List.range j.ranks).flatMap fun r => (List.range (min 8 c.nt)).map fun t => startTile c (j.regs.getD r default) t

/-- A job's record (R339, R340). -/
def jobPieces (off : Nat) (s : State) (j : MatrixJob) : List Piece :=
  let len := (jobTiles s j).2
  let el := len / 1024
  [(off, (j.card.getD []).take 128), (off + 128, bytesOfNum 8 (if j.cmd.isSome then 0 else j.cardAddr)), (off + 136, bytesOfNum 1 j.key),
   (off + 137, bytesOfNum 1 (if j.step = 0 then 0 else 1)), (off + 138, bytesOfNum 2 j.ranks), (off + 140, bytesOfNum 4 j.decl.toNat),
   (off + 144, bytesOfNum 8 j.step)] ++
  (j.signed.mapIdx fun r x => (off + 160 + 4 * r, bytesOfNum 4 x.2.toNat)) ++
  ((jobImage s j).mapIdx fun i t => wordsAt (off + 512 + i * len) el t).flatten

/-- What of the units belongs to a team (R338). -/
def teamRays (s : State) (team : Nat) : List RaySlot :=
  let gs := s.groupsOf team
  s.render.rays.filter fun r => r.goesWith s.render.marches (fun c t => inGroups gs c t)
def teamMarches (s : State) (team : Nat) : List MarchSlot :=
  s.render.marches.filter fun m => inGroups (s.groupsOf team) m.core m.slot
def teamJobs (s : State) (team : Nat) : List MatrixJob := s.render.jobs.filter fun j => j.cmd.isNone && j.team == team
def teamTiles (s : State) (team : Nat) : List BlendTile :=
  let gs := s.groupsOf team
  (s.render.tiles.map fun t => { t with rows := t.rows.filter fun r => inGroups gs r.core r.slot }).filter fun t => !t.rows.isEmpty

/-- Offsets of the sections after the groups (R340): slices, scratchpad, rays, marches, jobs, and the end. -/
structure Sections where
  slices : Nat
  scratch : Nat
  rays : Nat
  marches : Nat
  jobs : Nat
  len : Nat
  deriving DecidableEq, Repr

/-- Rounds up to 4 KiB. -/
def pageUp (n : Nat) : Nat := (n + 4095) / 4096 * 4096

/-- Bytes of a group's section. -/
def Group.sectionLen (g : Group) : Nat := 8192 + 32 * g.rsize

/-- The sections of a team's image (R340). -/
def sectionsOf (s : State) (t : Team) : Sections :=
  let gs := s.groupsOf t.id
  let a := 4096 + (gs.map Group.sectionLen).sum
  let b := a + 65536 * gs.length
  let c := b + t.spfoot
  let d := c + 512 * (teamRays s t.id).length
  let e := d + 64 * (teamMarches s t.id).length
  ⟨a, b, c, d, e, pageUp (e + ((teamJobs s t.id).map (jobLen s)).sum)⟩

/-- Group sections in order. -/
def groupSections (off : Nat) : List Group → List Piece
  | [] => []
  | g :: rest => groupSection off g ++ groupSections (off + g.sectionLen) rest

/-- Job records in order. -/
def jobSections (s : State) (off : Nat) : List MatrixJob → List Piece
  | [] => []
  | j :: rest => jobPieces off s j ++ jobSections s (off + jobLen s j) rest

/-- The sections of an image other than its header (R338). -/
def bodyPieces (s : State) (t : Team) : List Piece :=
  let x := sectionsOf s t
  let gs := s.groupsOf t.id
  groupSections 4096 gs ++
    (gs.mapIdx fun i g => (g.lanes.mapIdx fun l y => memPieces (x.slices + 65536 * i + 2048 * l) y.slice).flatten).flatten ++
    memPieces x.scratch (s.scratch.slice (scratchAt t.core t.spbase) t.spfoot) ++
    ((teamRays s t.id).mapIdx fun i r => rayPieces (x.rays + 512 * i) s.render.marches r).flatten ++
    ((teamMarches s t.id).mapIdx fun i m => marchPieces (x.marches + 64 * i) m).flatten ++ jobSections s x.jobs (teamJobs s t.id)

/-- The words of a keyring's job card address (R340). -/
def keyPieces (t : Team) : List Piece :=
  t.keyrings.mapIdx fun i k => (64 + 16 * i, bytesOfNum 4 k.decl.toNat ++ bytesOfNum 4 k.sgrp.toNat ++ bytesOfNum 8 k.card)

/-- The header of an image (R340). (in part DESIGN CHOICE, log entry 14) -/
def headerPieces (s : State) (t : Team) (checkpoint : Bool) : List Piece :=
  let x := sectionsOf s t
  let u := (s.part t.part).setup
  let handle := ((s.grid? t.grid).map Grid.handle).getD 0
  let flags := 1 + (if teamDetm s t then 2 else 0) + (if u.shadow then 4 else 0) + (if checkpoint then 8 else 0)
  [(0, bytesOfNum 4 0x43585449), (4, bytesOfNum 4 (x.len / 4096)), (8, bytesOfNum 8 handle), (16, bytesOfNum 4 t.linear),
   (20, bytesOfNum 1 (s.groupsOf t.id).length), (21, bytesOfNum 1 flags), (22, bytesOfNum 2 (teamRays s t.id).length),
   (24, bytesOfNum 2 (teamMarches s t.id).length), (32, bytesOfNum 8 t.frozenAt), (40, bytesOfNum 8 t.parktok),
   (320, bytesOfNum 2 (teamJobs s t.id).length)] ++ keyPieces t

/-- Writes pieces to module memory from an address on. -/
def writePieces (m : Mem) (addr : Nat) (ps : List Piece) : Mem := ps.foldl (fun m p => m.writeBytes (addr + p.1) p.2) m

/-- Marks poisoned the 64-byte blocks of an image whose SRAM words were poisoned (R188). -/
def imagePoison (s : State) (t : Team) (addr : Nat) : List Nat :=
  let x := sectionsOf s t
  let gs := s.groupsOf t.id
  s.sramPoison.filterMap fun p => match p with
    | .sp c o => if c = t.core && t.spbase ≤ o && o < t.spbase + t.spfoot then some (blockOf (addr + x.scratch + o - t.spbase)) else none
    | .slice c k l o => (gs.findIdx? fun g => g.isAt c k).map fun i => blockOf (addr + x.slices + 65536 * i + 2048 * l + o)
    | _ => none

/-- Writes an image of a team at an address, with its header or without. (in part DESIGN CHOICE, log entry 14) -/
def writeImage (s : State) (t : Team) (addr : Nat) (checkpoint header : Bool) : State :=
  let len := (sectionsOf s t).len
  let ps := bodyPieces s t ++ (if header then headerPieces s t checkpoint else [])
  let bad := (imagePoison s t addr).dedup
  let s := clearPoison { s with mem := writePieces (s.mem.clear addr len) addr ps } (.phys addr) len
  { s with poison := s.poison ++ bad }

/-! ## The context area -/

/-- Whether an image is a team's checkpoint, or its context image. -/
def Image.isFor (i : Image) (team : Nat) (checkpoint : Bool) : Bool := i.team == team && i.checkpoint == checkpoint

/-- Whether `n` bytes at an address of the context area are free of images, the one that is replaced apart. -/
def areaFree (s : State) (p team : Nat) (checkpoint : Bool) (addr n : Nat) : Bool :=
  let a := (s.part p).sch.ctx
  decide (a.log2 ≠ 0) && decide (a.base ≤ addr) && decide (addr + n ≤ a.base + 2 ^ a.log2) &&
    (s.images.filter fun i => i.part == p && !i.isFor team checkpoint).all fun i => decide (addr + n ≤ i.addr) || decide (i.addr + i.len ≤ addr)

/-- The lowest place in the context area for an image of `n` bytes (DESIGN CHOICE, log entry 14). -/
def areaPlace (s : State) (p team : Nat) (checkpoint : Bool) (n : Nat) : Option Nat :=
  let a := (s.part p).sch.ctx
  (a.base :: (s.images.filter fun i => i.part == p).map fun i => i.addr + i.len).foldl (fun best x =>
    if areaFree s p team checkpoint x n then (match best with
      | none => some x
      | some b => some (min b x)) else best) none

/-- The snapshot of a team that goes with its image. -/
def imageOf (s : State) (t : Team) (addr : Nat) (checkpoint written : Bool) : Image :=
  { team := t.id, part := t.part, addr := addr, len := (sectionsOf s t).len, checkpoint := checkpoint, written := written, record := t,
    groups := if checkpoint then s.groupsOf t.id else [],
    rays := if checkpoint then teamRays s t.id else [], marches := if checkpoint then teamMarches s t.id else [],
    jobs := if checkpoint then teamJobs s t.id else [], tiles := if checkpoint then teamTiles s t.id else [] }

/-- Replaces the checkpoint or the context image of a team. -/
def putImage (s : State) (i : Image) : State := { s with images := (s.images.filter fun x => !x.isFor i.team i.checkpoint) ++ [i] }

/-- The context image of a saved team. -/
def State.image? (s : State) (team : Nat) : Option Image := s.images.find? fun i => i.isFor team false
/-- The checkpoint of a team (R333). -/
def State.checkpoint? (s : State) (team : Nat) : Option Image := s.images.find? fun i => i.isFor team true

/-- What the header of an image in memory says (R341). -/
inductive HeaderRead
  | good | notValid | bad
  deriving DecidableEq, Repr

/-- Reads the header of an image (R341). -/
def readHeader (s : State) (i : Image) (handle : Nat) : HeaderRead :=
  let v := s.mem.readN i.addr 24
  if (List.range 512).any fun k => bytePoison s (.phys (i.addr + 8 * k)) then .bad
  else if v / 2 ^ 168 % 2 = 0 then .notValid
  else if v % 4294967296 = 0x43585449 && v / 2 ^ 64 % 2 ^ 64 = handle then .good else .bad

/-- The SRAM words that an image's poisoned blocks fill on restoring (R188, R341): those of `n` bytes from an offset, whose places `at_` gives. -/
def restoredPoison (s : State) (i : Image) (off n : Nat) (at_ : Nat → Place) : List Place :=
  (List.range (n / 8)).filterMap fun k => if bytePoison s (.phys (i.addr + off + 8 * k)) then some (at_ (8 * k)) else none

/-- The poison of a team's slices after a restore (R188): that of the image's blocks. The slices of its groups stand in order from an offset. -/
def loadSlicePoison (s : State) (i : Image) (team off : Nat) : State :=
  let gs := s.groupsOf team
  let keep (p : Place) : Bool := match p with
    | .slice c t _ _ => !inGroups gs c t
    | _ => true
  let new (k : Nat) (g : Group) : List Place := restoredPoison s i (off + 65536 * k) 65536 fun o => .slice g.core g.slot (o / 2048) (o % 2048)
  { s with sramPoison := s.sramPoison.filter keep ++ (gs.mapIdx new).flatten }

/-- Loads an image's scratchpad section into a footprint. (in part DESIGN CHOICE, log entry 14) -/
def loadScratch (s : State) (i : Image) (core spbase scratchOff : Nat) : State :=
  let n := i.record.spfoot
  let clean : Mem := s.scratch.clear (scratchAt core spbase) n
  let keep (p : Place) : Bool := match p with
    | .sp c o => !(decide (c = core) && decide (spbase ≤ o) && decide (o < spbase + n))
    | _ => true
  { s with
    scratch := writePieces clean 0 (memPieces (scratchAt core spbase) (s.mem.slice (i.addr + scratchOff) n))
    sramPoison := s.sramPoison.filter keep ++ restoredPoison s i scratchOff n fun o => .sp core (spbase + o) }

/-! ## Reading an image back -/

/-- A pending slot from a lane record (R327, R340). -/
def loadPend (m : Mem) (a : Nat) : Option PendSlot :=
  if m.readN (a + 18) 1 % 2 = 1 then
    some ⟨m.readN (a + 16) 1, m.readN (a + 17) 1, .ofNat 64 (m.readN a 8), .ofNat 64 (m.readN (a + 8) 8), m.readN (a + 20) 4⟩
  else none

/-- The park of a lane from its record (R340, R341): its token, its cause, and whether a replay named it while it was saved. -/
def loadPark (m : Mem) (a : Nat) (k : Option Park) : Option Park :=
  let st := m.readN (a + 41) 1
  if st / 2 % 2 = 0 then none
  else
    let k : Park := k.getD ⟨0, 0, [], 0, 0, false, .none, none⟩
    let rel : Release := if k.released = .unrecoverable then .unrecoverable else if st / 4 % 2 = 1 then .replay else .none
    some { k with token := m.readN (a + 36) 4, cause := m.readN (a + 43) 1, released := rel }

/-- A lane from its record (R340). (in part DESIGN CHOICE, log entry 14) -/
def loadLane (m : Mem) (a : Nat) (x : Lane) : Lane :=
  let st := m.readN (a + 41) 1
  let depth := m.readN (a + 42) 1
  if st % 2 = 1 then { x with exited := true }
  else
    { x with
      exited := false
      shader := decide (st / 8 % 2 = 1)
      pc := .ofNat 64 (m.readN a 8)
      sret := .ofNat 64 (m.readN (a + 8) 8)
      rngKey := .ofNat 64 (m.readN (a + 16) 8)
      rngPos := .ofNat 64 (m.readN (a + 24) 8)
      rngStr := .ofNat 32 (m.readN (a + 32) 4)
      preds := .ofNat 8 (m.readN (a + 40) 1 % 128)
      tdep := depth % 4
      tmsk := decide (depth / 4 % 2 = 1)
      pend := (List.range 4).map fun c => loadPend m (a + 64 + 32 * c)
      parked := loadPark m a x.parked }

/-- A lane with its counters, its registers and its slice. -/
def loadLaneParts (m : Mem) (rsize l : Nat) (slice : Mem) (x : Lane) : Lane :=
  { loadLane m (1024 + 224 * l) x with
    ld := m.readN (744 + l) 1 % 64
    st := m.readN (776 + l) 1 % 64
    cp := m.readN (808 + l) 1 % 64
    mx := m.readN (840 + l) 1 % 64
    regs := m.slice (8192 + l * rsize) rsize
    slice := slice }

/-- A group from its section `m` and its lanes' slices (R340). RSIZE gave the section its length, and stays. (in part DESIGN CHOICE, log entry 14) -/
def loadGroup (m : Mem) (slices : Mem) (g : Group) : Group :=
  let view := m.readN 536 8
  { g with
    g := (List.range 64).map fun i => .ofNat 64 (m.readN (8 * i) 8)
    q := .ofNat 8 (m.readN 512 1 % 128)
    gb0 := .ofNat 32 (m.readN 516 4)
    gb1 := .ofNat 32 (m.readN 520 4)
    wlog := m.readN 528 8 % 8
    segen := m.readN 528 8 / 65536 % 65536
    vbase := view % 32
    tbase := view / 256 % 32
    abase := view / 65536 % 32
    ldep := m.readN 544 8 % 4
    loops := g.loops.mapIdx fun i v =>
      { v with
        count := m.readN (552 + 8 * i) 4
        len := m.readN (556 + 8 * i) 1
        last := .ofNat 64 (m.readN (576 + 8 * i) 8)
        members := .ofNat 32 (m.readN (600 + 4 * i) 4) }
    bars := g.bars.mapIdx fun i _ => ⟨.ofNat 32 (m.readN (616 + 8 * i) 4), .ofNat 32 (m.readN (620 + 8 * i) 4)⟩
    ag0 := m.readN 872 8 % 4
    ag1 := m.readN 880 8 % 65536
    ag2 := m.readN 888 8 % 256
    ag3 := m.readN 896 8 % 16
    rmcap := m.readN 904 8 % 65536
    stky := m.readN 912 8 % 128
    tvec := .ofNat 64 (m.readN 920 8)
    tframe := m.readN 928 8 / 64 % 32
    sln := g.sln.mapIdx fun i _ => .ofNat 32 (m.readN (936 + 4 * i) 4)
    lanes := g.lanes.mapIdx fun l x => loadLaneParts m g.rsize l (slices.slice (2048 * l) 2048) x }

/-- Groups from an image at an address (R340): their sections stand one after the other from `off`, and their slices from `sl`. -/
def loadGroups (m : Mem) (addr : Nat) : (off sl : Nat) → List Group → List Group
  | _, _, [] => []
  | off, sl, g :: rest =>
    loadGroup (m.slice (addr + off) g.sectionLen) (m.slice (addr + sl) 65536) g ::
      loadGroups m addr (off + g.sectionLen) (sl + 65536) rest

/-- Where the slices of an image's groups begin. -/
def slicesOff (gs : List Group) : Nat := 4096 + (gs.map Group.sectionLen).sum

/-- Keyrings from the header of an image (R340). -/
def loadKeys (m : Mem) (addr : Nat) (ks : List Keyring) : List Keyring :=
  ks.mapIdx fun i k =>
    let a := addr + 64 + 16 * i
    { k with decl := .ofNat 32 (m.readN a 4), sgrp := .ofNat 32 (m.readN (a + 4) 4), card := m.readN (a + 8) 8 }

/-- The stack of a ray from its spill record (R261): CUR, then the entries from the top. -/
def loadStack (m : Mem) (a : Nat) (x : RaySlot) : List (Nat × Bool) :=
  let n := min 56 (m.readN (a + 47) 1)
  let entry (i : Nat) : Nat × Bool := let e := m.readN (a + 64 + 8 * i) 8; (e / 64 * 64, decide (e % 2 = 1))
  if n = 0 && x.stack.isEmpty then []
  else (m.readN (a + 48) 8, ((x.stack.head?).map Prod.snd).getD false) :: ((List.range n).map entry).reverse

/-- The committed hit of a ray from its spill record (R261), in what the record does not hold as the save had it. -/
def loadHit (m : Mem) (a : Nat) (h : Option Hit) : Option Hit :=
  let f := m.readN (a + 32) 8
  if m.readN (a + 58) 1 % 2 = 0 then none
  else
    let h := h.getD default
    let proc := decide (f / 256 % 2 = 1)
    some { h with
      t := m.readN (a + 28) 4, inst := m.readN (a + 40) 4, proc := proc
      key := if proc then h.key else f / 65536 * 65536
      proxy := decide (m.readN (a + 58) 1 / 2 % 2 = 1)
      tri := if proc then h.tri else f % 128 }

/-- The state of a ray from the code of its spill record: the one it was saved in, where the code is that one's. -/
def loadRayState (code : Byte) (x : RayState) : RayState :=
  if Config.rayStateCode x.num = code then x
  else ([RayState.walk, .awaitShd, .faulted default, .done].find? fun y => Config.rayStateCode y.num == code).getD x

/-- A ray from its spill record (R261, R262): what the record holds is read there, and the rest is as the save had it. (in part DESIGN CHOICE, log entry 14) -/
def loadRay (m : Mem) (a : Nat) (x : RaySlot) : RaySlot :=
  let w (i : Nat) : Nat := m.readN (a + 4 * i) 4
  let flags := m.readN (a + 56) 4
  let stack := loadStack m a x
  { x with
    geom := ⟨w 0, w 1, w 2, w 3, w 4, w 5, w 6, w 7⟩
    hit := loadHit m a x.hit
    steps := m.readN (a + 44) 2
    state := loadRayState (.ofNat 8 (m.readN (a + 46) 1)) x.state
    stack := stack
    page := if stack = x.stack then x.page else none
    flags := flags - flags / 65536 % 4 * 65536
    cand := x.cand.map fun c => { c with hgroup := m.readN (a + 60) 2 } }

/-- A march slot from its 64 bytes (R281): as the save had it where they are those of the save. (in part DESIGN CHOICE, log entry 14) -/
def loadMarch (m : Mem) (a : Nat) (x : MarchSlot) : MarchSlot :=
  let b := (List.range 64).map fun i => BitVec.ofNat 8 (m.readN (a + i) 1)
  if b = (List.range 64).map (Config.marchByte x.contents) then x
  else
    let w (i : Nat) : Nat := (Config.marchContents b).getD i 0
    { x with
      geom := ⟨w 0, w 1, w 2, w 3, w 4, w 5, w 6, w 7⟩, grid := w 8, status := w 9, k := w 10, cells := w 11
      cell := if (Config.marchContents b).length < 15 then none else some (w 12, w 13, w 14) }

/-- The tiles of a job's record. -/
def loadTiles (s : State) (a : Nat) (j : MatrixJob) : List (List Nat) :=
  let (n, len) := jobTiles s j
  let el := len / 1024
  (List.range n).map fun i => (List.range 1024).map fun k => s.mem.readN (a + 512 + i * len + el * k) el

/-- The register snapshot of a job that has run no step, with its destination tiles as the record has them (R339, R441). -/
def loadSnap (s : State) (j : MatrixJob) (tiles : List (List Nat)) : List RankSnap :=
  match j.card with
  | none => j.regs
  | some b =>
    let c := jobCard s j b
    let nt := min 8 c.nt
    let put (tile : List Nat) (t : Nat) (r : RankSnap) : RankSnap :=
      { r with lanes := r.lanes.mapIdx fun i m => if m.isEmpty then m else m.writeBytes (dstSpan c r t).1 (rowData c tile i) }
    if c.mem then j.regs
    else j.regs.mapIdx fun i r => (List.range nt).foldl (fun r t => put (tiles.getD (i * nt + t) []) t r) r

/-- A matrix job from its record (R339, R340): card, state, signers and tiles. (in part DESIGN CHOICE, log entry 14) -/
def loadJob (s : State) (a : Nat) (j : MatrixJob) : MatrixJob :=
  let m := s.mem
  let tiles := loadTiles s a j
  let runs := decide (m.readN (a + 137) 1 = 1)
  { j with
    regs := if runs then j.regs else loadSnap s j tiles
    accs := if runs then tiles else []
    card := j.card.map fun _ => (List.range 128).map fun i => BitVec.ofNat 8 (m.readN (a + i) 1)
    cardAddr := m.readN (a + 128) 8
    key := m.readN (a + 136) 1 % 16
    decl := .ofNat 32 (m.readN (a + 140) 4)
    step := m.readN (a + 144) 8
    signed := j.signed.mapIdx fun r x => (x.1, BitVec.ofNat 32 (m.readN (a + 160 + 4 * r) 4)) }

/-- Jobs from their records, which stand one after the other. -/
def loadJobs (s : State) : (a : Nat) → List MatrixJob → List MatrixJob
  | _, [] => []
  | a, j :: rest => loadJob s a j :: loadJobs s (a + jobLen s j) rest

/-- Where the record of a lane of a group stands in its team's image. -/
def laneRecordAt (core slot l : Nat) : (off : Nat) → List Group → Nat
  | off, [] => off
  | off, g :: rest => if g.isAt core slot then off + 1024 + 224 * l else laneRecordAt core slot l (off + g.sectionLen) rest

/-! ## Saving and restoring -/

/-- Takes a team off its core under its image (R145): its slots, scratchpad and registers are free, and it is PENDING. -/
def stowTeam (s : State) (t : Team) : State :=
  let map := (s.groupsOf t.id).map fun g => (g.slot, g.index, none)
  let s := relocate s
    { team := t.id, core := t.core, newCore := parkedCore t.id, slots := map, spOld := 0, spNew := 0, spfoot := 0 }
  let s := s.updTeam t.id fun t => { t with state := .pending, db := .idle, latched := none, dest := none }
  settleVacated { s with fwd := s.fwd.filter fun f => f.team != t.id }

/-- The lanes that a replay released while their team was saved resume (R341). -/
def resumeReleased (s : State) (team : Nat) : State :=
  let freed (x : Lane) : Bool := match x.parked with
    | some k => decide (k.released = .replay)
    | none => false
  let s := (s.groupsOf team).foldl (fun s g => ((List.range 32).filter fun l => freed (g.lane l)).foldl (fun s l => replayLane s g.core g.slot l) s) s
  let s : State := { s with groups := s.groups.map fun g => if g.team = team then { g with readyAt := s.fresh } else g }
  (s.groupsOf team).foldl (fun s g => unrecoverable s g.core g.slot fun k => decide (k.released = .unrecoverable)) s

/-- Puts the units' work of a team as an image in memory has it (R262, R281, R339, R340). -/
def loadUnits (s : State) (addr : Nat) (t : Team) : State :=
  let x := sectionsOf s t
  let rays := (teamRays s t.id).mapIdx fun i r => loadRay s.mem (addr + x.rays + 512 * i) r
  let marches := (teamMarches s t.id).mapIdx fun i m => loadMarch s.mem (addr + x.marches + 64 * i) m
  let jobs := loadJobs s (addr + x.jobs) (teamJobs s t.id)
  { s with render := { s.render with
      rays := s.render.rays.map fun r => (rays.find? fun y => y.id == r.id).getD r
      marches := s.render.marches.map fun m => (marches.find? fun y => y.id == m.id).getD m
      jobs := s.render.jobs.map fun j => (jobs.find? fun y => y.id == j.id).getD j } }

/-- Puts a team's groups, keyrings and units as an image in memory has them (R340). (in part DESIGN CHOICE, log entry 14) -/
def loadImage (s : State) (i : Image) (team : Nat) : State :=
  let gs := s.groupsOf team
  let s := match s.team? team with
    | some t => loadUnits s i.addr t
    | none => s
  let new := loadGroups s.mem i.addr 4096 (slicesOff gs) gs
  let s := new.foldl (fun s g => s.updGroup g.core g.slot fun _ => g) (loadSlicePoison s i team (slicesOff gs))
  s.updTeam team fun t => { t with keyrings := loadKeys s.mem i.addr t.keyrings }

/-- A saved team on its new core (R134, R145): everything stands as its image has it, and a cluster barrier that it was at is tested afresh
(R340). (in part DEDUCED, log entry 57) -/
def restoreTeam (s : State) (t : Team) (core spbase : Nat) (slots : List (Nat × Option Nat)) : State :=
  let gs := s.groupsOf t.id
  let map := (gs.zip slots).map fun x => (x.1.slot, x.2.1, x.2.2)
  let i := s.image? t.id
  let off := (sectionsOf s t).scratch
  let s := relocate s { team := t.id, core := t.core, newCore := core, slots := map, spOld := 0, spNew := spbase, spfoot := 0 }
  let s := match i with
    | none => s
    | some i => { loadScratch (loadImage s i t.id) i core spbase off with images := s.images.filter fun x => !x.isFor t.id false }
  let s := s.updTeam t.id fun t => { t with state := .placed, parktok := 0, since := s.time.now }
  testClusterBar { resumeReleased s t.id with fresh := s.fresh + 1 } t.id

end Sys2Proof.Machine
end

