-- ==== Sys2Proof/Machine/Place.lean ====
section
/-!
DEFINITION. The initial state of a team, its groups and its lanes (R110, R172, R326).
-/
namespace Sys2Proof.Machine

/-- A lane of a team that is placed (R172, R326, R257). (in part DESIGN CHOICE, log entry 5) -/
def Lane.start (entry glob : Nat) : Lane :=
  { pc := BitVec.ofNat 64 entry, regs := [], preds := 0, rngKey := 0, rngPos := 0, rngStr := 0, sret := 0, shader := false,
    exited := false, frozen := false, parked := none, tdep := 0, tmsk := false, pend := List.replicate 4 none, late := [], reserved := none, slice := [],
    ld := 0, st := 0, cp := 0, mx := 0, wait := .none, home := none, glob := glob }

/-- A group of a team that is placed (R110, R172). -/
def Group.start (r : LaunchRec) (handle linear core slot team index : Nat) (act : Bool) (order : Nat) : Group :=
  { core := core, slot := slot, team := team, index := index, steps := r.regsz, vbase := r.vbase, tbase := r.tbase, abase := r.abase,
    wlog := 5, segen := 0xFFFF,
    g := [BitVec.ofNat 64 r.args, BitVec.ofNat 64 linear, BitVec.ofNat 64 index, BitVec.ofNat 64 handle] ++ List.replicate 60 0,
    q := 0, gb0 := 0, gb1 := 0, ldep := 0, loops := List.replicate 3 ⟨0, 0, 0, 0⟩, bars := List.replicate 16 ⟨0, 0⟩,
    ag0 := 0, ag1 := 0, ag2 := 0, ag3 := 0, rmcap := 0, stky := 0, tvec := 0, tframe := 31, invalidA := 0,
    sln := List.replicate 16 0, mxs := List.replicate 16 0, stampRun := false, active := act, activeSince := 0, slowSince := 0, current := false, readyAt := order, inStore := false,
    storeUse := 0, shadow := none, lanes := (List.range 32).map fun l => Lane.start r.entry ((linear * r.gpt + index) * 32 + l) }

/-- A keyring when its team is placed (R411). -/
def Keyring.start : Keyring := ⟨false, 0, 0, 0⟩

/-- A team when it is placed (R136, R333). -/
def Team.start (id grid part linear core : Nat) (slots : List Nat) (spbase spfoot : Nat) : Team :=
  { id := id, grid := grid, part := part, linear := linear, core := core, slots := slots, spbase := spbase, spfoot := spfoot,
    state := .placed, keyrings := List.replicate 16 Keyring.start, repeatable := true, rollbacks := 0, db := .idle, dbKind := .cut,
    latched := none, dest := none, parktok := 0, since := 0, due := false, frozenAt := 0 }

end Sys2Proof.Machine
end

