-- ==== Sys2Proof/Machine/Placing.lean ====
section
/-!
DEFINITION. Placement (R110, R134, R135, R137, R172): clusters in ascending order, new teams at their start, saved teams from their images.
-/
namespace Sys2Proof.Machine

/-- What stands in a position of a cluster that is to be placed: a team that starts, a saved team, or nothing where its team has ended. -/
inductive Role
  | start (linear : Nat)
  | saved (t : Team)
  | gone
  deriving DecidableEq, Repr

/-- The saved teams of a grid. -/
def savedTeams (s : State) (gr : Grid) : List Team := s.teams.filter fun t => t.grid == gr.id && t.state == .pending

/-- Whether every team of a grid's cluster that has not ended is saved: a cluster is placed only whole (R134). -/
def clusterSaved (s : State) (gr : Grid) (k : Nat) : Bool :=
  s.teams.all fun t => t.grid != gr.id || t.linear / gr.rcd.cluster != k || t.state == .pending

/-- The lowest cluster of a grid that waits for its place (R134). -/
def nextCluster (s : State) (gr : Grid) : Option Nat :=
  let n := gr.rcd.cluster
  let ks := ((savedTeams s gr).map (fun t => t.linear / n)).filter (clusterSaved s gr) ++ (if gr.nextTeam < gr.rcd.teams then [gr.nextTeam / n] else [])
  ks.foldl (fun a k => match a with
    | none => some k
    | some b => some (min b k)) none

/-- The roles of a cluster's positions, in row order. -/
def rolesOf (s : State) (gr : Grid) (k : Nat) : List Role :=
  let n := gr.rcd.cluster
  (List.range n).map fun i =>
    let linear := n * k + i
    match (savedTeams s gr).find? fun t => t.linear == linear with
    | some t => .saved t
    | none => if gr.nextTeam ≤ linear then .start linear else .gone

/-- What a position needs (R134, R342). -/
def Role.need (s : State) (gr : Grid) (r : Role) : Option Need :=
  let u := (s.part gr.part).setup
  match r with
  | .start _ => some (needOf u gr.rcd)
  | .saved t => some (needOfSaved u (s.groupsOf t.id) t.spfoot)
  | .gone => none

/-- Bytes of the first checkpoint of a team that starts (R333, R340). -/
def firstLen (r : LaunchRec) : Nat := pageUp (4096 + r.gpt * (8192 + 32 * r.regsz * 256) + 65536 * r.gpt + r.spfoot)

/-- The checkpoint of a placement (R333), for a team that holds nothing yet. -/
def firstImage (p team addr : Nat) (r : LaunchRec) : Image :=
  { (default : Image) with team := team, part := p, addr := addr, len := firstLen r, checkpoint := true }

/-- Whether the checkpoints of `n` teams that start fit in the context area together (R333). -/
def checkpointsFit (s : State) (p : Nat) (r : LaunchRec) : Nat → Bool
  | 0 => true
  | n + 1 => match areaPlace s p (s.fresh + n) true (firstLen r) with
    | some a => checkpointsFit (putImage s (firstImage p (s.fresh + n) a r)) p r n
    | none => false

/-- Whether the checkpoints of a cluster's roles fit, where rollback acts. A saved team keeps the place of its image. -/
def rolesFit (s : State) (gr : Grid) (roles : List Role) : Bool :=
  let starts (r : Role) : Bool := match r with
    | .start _ => true
    | _ => false
  !rollbackOn s gr.part || checkpointsFit s gr.part gr.rcd (roles.filter starts).length

/-- Whether the cores of a rectangle have room for the teams that go there (R134). -/
def rectFits (s : State) (gr : Grid) (roles : List Role) (cores : List Nat) : Bool :=
  (cores.zip roles).all fun x => match x.2.need s gr with
    | some n => coreRoom s gr.part gr n x.1
    | none => true

/-- The rectangle for a cluster (R134): the one whose cores hold the fewest resident groups, the lowest top-left core on a tie. (in part DESIGN CHOICE, log entry 55) -/
def bestRect (s : State) (gr : Grid) (roles : List Role) : Option (List Nat) :=
  let rects := (ownedRects (s.part gr.part).setup gr.die gr.rcd.clw gr.rcd.clh).filter (rectFits s gr roles)
  let load (r : List Nat) : Nat := (r.map (residents s)).sum
  rects.foldl (fun a r => match a with
    | none => some r
    | some b => if load r < load b then some r else some b) none

/-- Whether every saved team's image may be read (R341): none where one is not valid, and false where a header is bad. -/
def imagesGood (s : State) (gr : Grid) (roles : List Role) : Option Bool :=
  let rs := roles.filterMap fun r => match r with
    | .saved t => (s.image? t.id).map fun i => readHeader s i gr.handle
    | _ => none
  if rs.any (· == .bad) then some false else if rs.any (· == .notValid) then none else some true

/-- A team that starts on a core (R110, R172, R150). -/
def startTeam (s : State) (gr : Grid) (linear core : Nat) : State :=
  let u := (s.part gr.part).setup
  let r := gr.rcd
  match pickSlots u.shadow (usedSlots s core) (List.range r.gpt), scratchRun s core r.spfoot with
  | some slots, some base =>
    let id := s.fresh
    let t := { Team.start id gr.id gr.part linear core (slots.map Prod.fst) base r.spfoot with since := s.time.now }
    let mk (i : Nat) (x : Nat × Option Nat) : Group := { Group.start r gr.handle linear core x.1 id i false (id + 1) with
      shadow := x.2, slowSince := s.time.now }
    let gs := slots.mapIdx mk
    let s := { s with teams := s.teams ++ [t], groups := s.groups ++ gs, fresh := s.fresh + 2 }
    if rollbackOn s gr.part then
      match areaPlace s gr.part id true (firstLen r) with
      | some a => putImage s (imageOf s t a true false)
      | none => s
    else s
  | _, _ => s

/-- A saved team goes to a core. -/
def resumeTeam (s : State) (gr : Grid) (t : Team) (core : Nat) : State :=
  match pickSlots (s.part gr.part).setup.shadow (usedSlots s core) ((s.groupsOf t.id).map Group.index), scratchRun s core t.spfoot with
  | some slots, some base => restoreTeam s t core base slots
  | _, _ => s

/-- The first linear index that is not placed, after a role. -/
def Role.next (n : Nat) (r : Role) : Nat :=
  match r with
  | .start linear => max n (linear + 1)
  | _ => n

/-- The teams of a cluster go to their cores; a withheld core that takes a grid of a class it was withheld for is withheld no longer
(R146). -/
def fillRect (s : State) (gr : Grid) (roles : List Role) (cores : List Nat) : State :=
  let s := (cores.zip roles).foldl (fun s x => match x.2 with
    | .start linear => startTeam s gr linear x.1
    | .saved t => resumeTeam s gr t x.1
    | .gone => s) s
  let s := s.updGrid gr.id fun g => { g with nextTeam := roles.foldl Role.next g.nextTeam }
  s.updPart gr.part fun q =>
    let left := if gr.rcd.bclass ≤ q.sch.withheldClass then q.sch.withheld.filter fun c => !cores.contains c else q.sch.withheld
    let state := if q.sch.peState = 2 && left.isEmpty then 0 else q.sch.peState
    { q with sch := { q.sch with withheld := left, peState := state } }

/-- Places the next cluster of a grid, where it fits (R134). A bad image aborts the grid (R341). -/
def placeNext (s : State) (gr : Grid) : Option State :=
  match nextCluster s gr with
  | none => none
  | some k =>
    let roles := rolesOf s gr k
    if !rolesFit s gr roles then none
    else match bestRect s gr roles with
      | none => none
      | some cores => match imagesGood s gr roles with
        | none => none
        | some false => some (abortGrid s gr.id)
        | some true => some (fillRect s gr roles cores)

end Sys2Proof.Machine
end

