-- ==== Sys2Proof/Machine/Deadbolt.lean ====
section
/-!
DEFINITION. The Deadbolt (R335, R337 to R341): its states, checkpoints, cuts, rollbacks and migrations (R138, R139).
-/
namespace Sys2Proof.Machine

/-! ## What the Deadbolt waits for -/

/-- Whether accesses that a team's groups have issued are not complete (R219): in a store buffer, on their way, or at a pixel scoreboard. -/
def teamBusy (s : State) (team : Nat) : Bool :=
  let gs := s.groupsOf team
  (s.ms.sb.any fun e => inGroups gs e.core e.slot) ||
    (s.ms.flights.any fun f => f.engine.isNone && inGroups gs f.core f.slot) || s.render.pixels.any fun p => inGroups gs p.core p.slot

/-- Whether a copy into a team's scratchpad is recorded (R183, R184). -/
def copyRecorded (s : State) (t : Team) : Bool :=
  s.ms.ranges.any fun r => r.core == some t.core && decide (r.first < t.spbase + t.spfoot) && decide (t.spbase ≤ r.last)

/-- Takes every swapped lane of a team back to its home (R338, R278). -/
def homeLanes (s : State) (team : Nat) : State :=
  (s.groupsOf team).foldl (fun s g => (List.range 32).foldl (fun s l => swapBack s g.core g.slot l) s) s

/-! ## Freezing -/

/-- A light walk that runs again from the root (R456). (in part DEDUCED, log entry 48) -/
def LightWalk.again (w : LightWalk) : LightWalk := { w with node := 0, depth := 0, pdf := 0x3F800000, draws := 0 }

/-- What the freeze does to the units (R335, R338, R456): a rollback discards the team's work, and otherwise a light walk that runs is
discarded and runs again. -/
def freezeUnits (s : State) (t : Team) : State :=
  let gs := s.groupsOf t.id
  let mine (c k : Nat) : Bool := inGroups gs c k
  let r := if t.dbKind = .rollback then { dropUnits s.render mine [t.id] with pixels := s.render.pixels }
    else { s.render with walks := s.render.walks.map fun w => if mine w.core w.slot then w.again else w }
  { s with render := r }

/-- Moves the Deadbolt of a team to a state. -/
def setDb (s : State) (team : Nat) (d : DbState) : State := s.updTeam team fun t => { t with db := d }

/-- The Deadbolt of a team is IDLE again, and its groups may issue; a cut or migration that is latched stays so (R337). -/
def releaseTeam (s : State) (team : Nat) : State :=
  s.updTeam team fun t => { t with
    db := .idle, state := .placed
    dest := match t.latched with
      | some (.migrate, _) => t.dest
      | _ => none }

/-! ## Images -/

/-- Whether the Deadbolt writes an image. -/
def writesImage : DbKind → Bool
  | .cut => true
  | .checkpoint => true
  | _ => false

/-- STATE of `SCH_PESTAT` while a partition's request waits for its cores (R149). (in part DEDUCED, log entry 57) -/
def setPe (s : State) (p v : Nat) : State :=
  s.updPart p fun q => { q with sch := { q.sch with peState := if q.sch.vacating.isEmpty then q.sch.peState else v } }

/-- A core that is to retire (R345): its teams are asked to leave. -/
def askRetire (s : State) (core : Nat) : State :=
  if s.retiring.contains core || s.disabledCores.contains core then s else { s with retiring := s.retiring ++ [core] }

/-- The scan of a team (R338, R184, R146): it waits until copies into the scratchpad are done and the area has room, then writes the
sections other than the header. A scan that reads poison retires the core, and the team is rolled back or aborted (R345). (in part DEDUCED, log entry 57) -/
def scanTeam (s : State) (t : Team) : State :=
  if copyRecorded s t then s
  else if !writesImage t.dbKind then setDb s t.id .complete
  else if !(imagePoison s t 0).isEmpty then recoverTeam (askRetire (releaseTeam s t.id) t.core) t.id
  else
    let cp := decide (t.dbKind = .checkpoint)
    match areaPlace s t.part t.id cp (sectionsOf s t).len with
    | none => setPe s t.part 3
    | some a =>
      let s := writeImage (setPe s t.part 1) t a cp false
      setDb (putImage s (imageOf s t a cp true)) t.id .complete

/-- The address at which a team's image under way stands. -/
def imageAddr (s : State) (t : Team) : Nat :=
  ((s.images.find? fun i => i.isFor t.id (decide (t.dbKind = .checkpoint))).map Image.addr).getD 0

/-- A cut closes (R338, R145): its image is complete, and the team is PENDING. (in part DESIGN CHOICE, log entry 14) -/
def closeCut (s : State) (t : Team) : State :=
  let a := imageAddr s t
  let s := writeImage s t a false true
  stowTeam (putImage s (imageOf s t a false true)) t

/-- A checkpoint closes (R333): its image is complete, and the team goes on. -/
def closeCheckpoint (s : State) (t : Team) : State :=
  let a := imageAddr s t
  let s := writeImage s t a true true
  releaseTeam (putImage s (imageOf s t a true true)) t.id

/-! ## Rolling back -/

/-- Where a checkpoint's groups go: the slots that its groups still hold, and free slots for those that have ended. -/
def checkpointSlots (s : State) (t : Team) (i : Image) : Option (List (Nat × Option Nat)) :=
  let shadow := (s.part t.part).setup.shadow
  let held (g : Group) : Option (Nat × Option Nat) := (s.groupAt t.id g.index).map fun h => (h.slot, h.shadow)
  let gone := i.groups.filter fun g => (held g).isNone
  match pickSlots shadow (usedSlots s t.core) (gone.map Group.index) with
  | none => none
  | some free =>
    let fresh := (gone.map Group.index).zip free
    some (i.groups.map fun g => (held g).getD (((fresh.find? fun x => x.1 == g.index).map Prod.snd).getD (0, none)))

/-- Whether the register file of a core holds a checkpoint's groups in place of the team's. (in part DEDUCED, log entry 27) -/
def checkpointFits (s : State) (t : Team) (i : Image) : Bool :=
  let others := (s.groups.filter fun g => g.core == t.core && g.team != t.id).map Group.homeBytes
  let k := if (s.part t.part).setup.shadow then 2 else 1
  decide (others.sum + k * (i.groups.map fun g => 32 * g.rsize).sum ≤ slowFile)

/-- The units' work that a checkpoint holds, on the team's core. (in part DEDUCED, log entry 27) -/
def checkpointUnits (m : Move) (fresh : Nat) (i : Image) : Render :=
  m.render fresh { pixels := [], rays := i.rays, marches := i.marches, walks := [], jobs := i.jobs, tiles := i.tiles }

/-- Joins units' work. -/
def Render.join (a b : Render) : Render :=
  ⟨a.pixels ++ b.pixels, a.rays ++ b.rays, a.marches ++ b.marches, a.walks ++ b.walks, a.jobs ++ b.jobs, a.tiles ++ b.tiles⟩

/-- Where the scratchpad section of a checkpoint stands (R340). -/
def Image.scratchOff (i : Image) : Nat := 4096 + (i.groups.map Group.sectionLen).sum + 65536 * i.groups.length

/-- An image with its units' records as memory has them (R261, R281, R339). -/
def Image.unitsRead (s : State) (i : Image) : Image :=
  if !i.written then i
  else
    let r := i.addr + i.scratchOff + i.record.spfoot
    let m := r + 512 * i.rays.length
    { i with
      rays := i.rays.mapIdx fun k x => loadRay s.mem (r + 512 * k) x
      marches := i.marches.mapIdx fun k x => loadMarch s.mem (m + 64 * k) x
      jobs := loadJobs s (m + 64 * i.marches.length) i.jobs }

/-- The scratchpad of a checkpoint; for a placement no copy was made, and the scratchpad stays as it is (R333). -/
def loadCheckpointScratch (s : State) (t : Team) (i : Image) : State :=
  if i.written then loadScratch s i t.core t.spbase i.scratchOff else s

/-- A checkpoint's groups, registers, units and keyrings take the place of the team's (R335). -/
def loadCheckpoint (s : State) (t : Team) (i : Image) (slots : List (Nat × Option Nat)) : State :=
  let m : Move := { team := t.id, core := i.record.core, newCore := t.core, spOld := 0, spNew := 0, spfoot := 0
                    slots := (i.groups.zip slots).map fun x => (x.1.slot, x.2.1, x.2.2) }
  let gone := s.groupsOf t.id
  let s : State := { s with
    render := { dropUnits s.render (fun c k => inGroups gone c k) [t.id] with pixels := s.render.pixels }
    shadows := s.shadows.filter fun h => h.group.team != t.id }
  let s := loadCheckpointScratch s t i
  let gs := if i.written then loadGroups s.mem i.addr 4096 (slicesOff i.groups) i.groups else i.groups
  let back (g : Group) : Group := { m.group s.time.now g with readyAt := s.fresh }
  let s : State := { s with
    groups := (s.groups.filter fun (g : Group) => g.team != t.id) ++ gs.map back
    render := s.render.join (checkpointUnits m (s.fresh + 1) (i.unitsRead s))
    fresh := s.fresh + 1 + i.tiles.length }
  let s := if i.written then loadSlicePoison s i t.id (slicesOff i.groups) else s
  let s := s.updTeam t.id fun t => { t with slots := slots.map Prod.fst, repeatable := true,
                                                                       keyrings := if i.written then loadKeys s.mem i.addr i.record.keyrings else i.record.keyrings }
  releaseTeam s t.id

/-- A rollback loads the checkpoint (R335, R341): it waits while its groups do not fit on the core or its header is not valid. (in part DEDUCED, log entry 27) -/
def closeRollback (s : State) (t : Team) : State :=
  match s.checkpoint? t.id with
  | none => abortGrid s t.grid
  | some i =>
    match (if i.written then readHeader s i (((s.grid? t.grid).map Grid.handle).getD 0) else .good) with
    | .bad => abortGrid s t.grid
    | .notValid => s
    | .good => match checkpointSlots s t i with
      | some slots => if checkpointFits s t i then loadCheckpoint s t i slots else s
      | none => s

/-! ## The states -/

/-- Acts on a team whose Deadbolt is in a state. -/
def inDb (s : State) (team : Nat) (d : DbState) (k : State → Team → State) : State :=
  match s.team? team with
  | none => s
  | some t => if t.db = d then k s t else s

/-- The close of the Deadbolt (R338), once the accesses are done. A migration waits for its copy. -/
def closeTeam (s : State) (t : Team) : State :=
  match t.dbKind with
  | .cut => closeCut s t
  | .checkpoint => closeCheckpoint s t
  | .rollback => closeRollback s t
  | .migrate => setDb s t.id .close

/-- Issued accesses have completed and the store buffer has drained, and no copy into the scratchpad is recorded (R338, R219, R184): swapped
lanes go home, and the Deadbolt closes. -/
def drainDone (s : State) (t : Team) : State :=
  if teamBusy s t.id || copyRecorded s t then s
  else
    let s := homeLanes s t.id
    match s.team? t.id with
    | some t => closeTeam s t
    | none => s

/-- Whether a request to a team makes sense now: a cut needs a context area (R146), rollbacks and checkpoints need rollback (R333), and a
migration its destination (R138). (in part DEDUCED, log entry 27) -/
def requestFits (s : State) (t : Team) (k : DbKind) : Bool :=
  match k with
  | .cut => decide ((s.part t.part).sch.ctx.log2 ≠ 0)
  | .migrate => t.dest.isSome
  | _ => rollbackOn s t.part

/-- A request to a team (R335, R338): a rollback is logged and counted, or aborts the grid. -/
def askDeadbolt (s : State) (t : Team) (k : DbKind) : State :=
  if !requestFits s t k then s
  else match k with
    | .rollback => if (t.db = .idle && t.state = .placed) || t.db = .drainShd then recoverTeam s t.id else s
    | k => requestDeadbolt s t.id k

/-- `DEADBOLT_REQUEST` (R338): a request reaches a team, or a latched one may be taken. (in part DEDUCED, log entry 57) -/
def execDeadboltRequest (team : Nat) (kind : DbKind) (s : State) : Result := .next (match s.team? team with
  | none => s
  | some t => match t.latched with
    | some (k, _) => if k = kind && latchOpen s t then takeLatch s team else askDeadbolt s t kind
    | none => askDeadbolt s t kind)

/-- Whether the shadows of a team's groups have drained their queues (R342, R343). -/
def shadowsDrained (s : State) (team : Nat) : Bool := s.shadows.all fun h => h.group.team != team || h.queue.isEmpty

/-- `SHADOW_QUEUES_EMPTY` (R338, R343): each shadow has drained its queue. (in part DESIGN CHOICE, log entry 56) -/
def execShadowQueuesEmpty (team : Nat) (s : State) : Result := .next (inDb s team .drainShd fun s t =>
  if shadowsDrained s t.id then setDb s t.id .freeze else s)

/-- `DEADBOLT_FREEZE` (R338): every unit of the job stops in one cycle. -/
def execDeadboltFreeze (team : Nat) (s : State) : Result := .next (inDb s team .freeze fun s t =>
  (freezeUnits s t).updTeam t.id fun t => { t with
    db := .scan, state := if t.dbKind = .cut then .saving else t.state, frozenAt := s.time.now })

/-- `DEADBOLT_SCAN_DONE` (R338, R184, R146). -/
def execDeadboltScanDone (team : Nat) (s : State) : Result := .next (inDb s team .scan scanTeam)

/-- `SAVE_AREA_AVAILABLE` (R146): a save that waited for room in the context area goes on. -/
def execSaveAreaAvailable (team : Nat) (s : State) : Result := .next (inDb s team .scan fun s t =>
  if (areaPlace s t.part t.id (decide (t.dbKind = .checkpoint)) (sectionsOf s t).len).isSome then scanTeam s t else s)

/-- `DEADBOLT_DRAIN_DONE` (R338). -/
def execDeadboltDrainDone (team : Nat) (s : State) : Result := .next (inDb s team .complete drainDone)

/-- `PREEMPT_DEADLINE_EXPIRE` (R337): outside deterministic mode, a latched request is taken with the masked handler as it stands. (in part DEDUCED, log entry 57) -/
def execPreemptDeadlineExpire (team : Nat) (s : State) : Result := .next (match s.team? team with
  | none => s
  | some t => match t.latched with
    | some (k, d) => if t.db = .idle && t.state = .placed && d ≤ s.time.now && !teamDetm s t then beginDeadbolt s team k else s
    | none => s)

/-! ## Migration -/

/-- MIGIDLE in ticks (R149): 0 acts as 1 µs. -/
def idleTicks (s : State) (p : Nat) : Nat := 1000 * max 1 (s.part p).sch.migidle

/-- Since when a core has held no resident group (R138), for one that holds none. -/
def vacantSince (s : State) (core : Nat) : Nat := ((s.vacant.find? fun x => x.1 == core).map Prod.snd).getD 0

/-- The teams that have stood on a core since a time. -/
def standing (s : State) (core since : Nat) : List Team := (coreTeams s core).filter fun t => t.state == .placed && decide (t.since ≤ since)

/-- Whether a team may migrate to a core (R138). -/
def mayMigrate (s : State) (t : Team) (core : Nat) : Bool :=
  let q := s.part t.part
  match s.grid? t.grid with
  | none => false
  | some gr =>
    let since := s.time.now - idleTicks s t.part
    q.sch.migen && decide (t.state = .placed) && decide (t.db = .idle) && t.latched.isNone && !meterHeld s t.part 0 && !s.therm.trip &&
      decide (idleTicks s t.part ≤ s.time.now) && decide (gr.rcd.cluster = 1) && !copyRecorded s t && decide (t.core ≠ core) &&
      decide (dieOfCore t.core = dieOfCore core) && ownsCore q.setup core && (coreTeams s core).isEmpty &&
      decide (vacantSince s core ≤ since) && decide (2 ≤ (standing s t.core since).length) &&
      ((standing s t.core since).any fun u => (s.groupsOf u.id).any fun g => !g.active && decide (g.slowSince ≤ since)) &&
      coreRoom s t.part gr (needOfSaved q.setup (s.groupsOf t.id) t.spfoot) core &&
      decide ((s.fwd.filter fun f => f.core == t.core).length < 8)

/-- `MIGRATION_START` (R138): the team with the highest linear index among those of its core that may go is frozen, under the latch of
R337. -/
def execMigrationStart (team core : Nat) (s : State) : Result := .next (match s.team? team with
  | none => s
  | some t =>
    let rivals := (coreTeams s t.core).filter fun u => mayMigrate s u core
    if mayMigrate s t core && rivals.all fun u => decide (u.linear ≤ t.linear) then
      requestDeadbolt (s.updTeam team fun t => { t with dest := some core }) team .migrate
    else s)

/-- `MIGRATION_COPY_DONE` (R137 to R139): the team resumes on its new core, and a forwarding entry stands at the old one for 64 µs. -/
def execMigrationCopyDone (team : Nat) (s : State) : Result := .next (inDb s team .close fun s t =>
  match t.dest with
  | none => s
  | some core =>
    match pickSlots (s.part t.part).setup.shadow (usedSlots s core) ((s.groupsOf t.id).map Group.index), scratchRun s core t.spfoot with
    | some slots, some base =>
      if copyRecorded s t then s
      else
        let m : Move := { team := t.id, core := t.core, newCore := core, spOld := t.spbase, spNew := base, spfoot := t.spfoot
                          slots := ((s.groupsOf t.id).zip slots).map fun x => (x.1.slot, x.2.1, x.2.2) }
        let s := relocate s m
        let s : State := { s with fwd := s.fwd ++ [⟨t.core, t.slots, t.id, s.time.now + 64000, t.spbase, t.spfoot⟩] }
        let s := s.updTeam t.id fun t => { t with since := s.time.now }
        settleVacated (releaseTeam s t.id)
    | _, _ => s)

/-- `FORWARD_ENTRY_EXPIRE` (R139): entry number `entry` of a core, 64 µs after it was installed. -/
def execForwardEntryExpire (core entry : Nat) (s : State) : Result := .next (match (s.fwd.filter fun f => f.core == core)[entry]? with
  | none => s
  | some f => if f.until_ ≤ s.time.now then { s with fwd := s.fwd.erase f } else s)

/-- Where a message for a moved team's scratchpad goes (R139). -/
def FwdEntry.place (f : FwdEntry) (t : Team) (p : Place) : Place :=
  match p with
  | .sp c o => if c = f.core && f.spbase ≤ o && o < f.spbase + f.spfoot then .sp t.core (t.spbase + o - f.spbase) else p
  | p => p

/-- A message that arrives after its entry has expired is dropped (R139): its lanes park with cause 7, or its engine's command fails. -/
def dropStale (s : State) (f : Flight) : State :=
  match f.engine with
  | some o => match s.cmd? o with
    | some c => failCmd (dropFlight s f.id) c errFault 0
    | none => dropFlight s f.id
  | none => failFlight s f 7 false

/-- `FORWARDED_MESSAGE` (R139): a message addressed to a team's former core and slot goes to the team, or is dropped. -/
def execForwardedMessage (id core slot : Nat) (s : State) : Result := .next (match s.flight? id with
  | none => s
  | some f =>
    if !(f.reads.any fun r => match r.place with
      | .sp c _ => c == core
      | _ => false) || f.stage = .performed then s
    else match s.fwd.find? fun e => e.core == core && e.slots.contains slot && decide (s.time.now < e.until_) with
      | some e => match s.team? e.team with
        | some t => setFlight s { f with reads := f.reads.map fun r => { r with place := e.place t r.place } }
        | none => dropStale s f
      | none => if f.stale s then dropStale s f else s)

end Sys2Proof.Machine
end

