-- ==== Sys2Proof/Machine/Graphs.lean ====
section
/-!
DEFINITION. Graphs (R126 to R133) and the completion of grids (R113, R476).
-/
namespace Sys2Proof.Machine

/-! ## Reading a graph -/

/-- The checks of a graph descriptor (R126, R128). (in part DEDUCED, log entry 54) -/
def graphChecks (b : List Byte) : BlockCheck :=
  firstBad [need (1 ≤ fieldAt b 0 4 && fieldAt b 0 4 ≤ 4096) errRange 0, need (fieldAt b 4 4 ≤ 1048576) errRange 4,
    need (fieldAt b 8 8 % 128 = 0) errAlign 8, need (fieldAt b 16 8 % 4 = 0) errAlign 16,
    need (fieldAt b 4 4 ≠ 0 || fieldAt b 16 8 = 0) errRange 16, zeros b 24 64]

/-- A byte that must be one of a few values. -/
def below (b : List Byte) (off n : Nat) : BlockCheck := need (byteAt b off < n) errRange off

/-- The checks of operand `i` of a node record (R127). -/
def operandChecks (b : List Byte) (nops i : Nat) : List BlockCheck :=
  let p := 32 + 24 * i
  if i < nops then
    [need (1 ≤ fieldAt b (p + 16) 4 && fieldAt b (p + 16) 4 ≤ 2147483648) errRange (p + 16), need (1 ≤ fieldAt b (p + 20) 2) errRange (p + 20),
     below b (p + 22) 2, zeros b (p + 23) (p + 24)]
  else [zeros b p (p + 24)]

/-- The checks of a node record (R127, R128) with `nsucc` entries in the successor table. (in part DEDUCED, log entry 52) (in part DEDUCED, log entry 54) -/
def nodeChecks (b : List Byte) (nsucc : Nat) : BlockCheck :=
  firstBad ([below b 0 5, below b 1 3, below b 2 5, need (byteAt b 3 < 4 && (byteAt b 0 ≠ 0 || byteAt b 3 = 0)) errRange 3,
    need (fieldAt b 16 4 + fieldAt b 4 4 ≤ nsucc) errRange 4, zeros b 20 32] ++
    ((List.range 4).map (operandChecks b (byteAt b 2))).flatten)

/-- The kind of a node (R127). -/
def nodeKindOf (k : Nat) : NodeKind :=
  match k with
  | 0 => .grid | 1 => .copy | 2 => .collective | 3 => .strainer | _ => .matrix

/-- The engine of a node's kind; a grid runs on cores, as a matrix chain does. -/
def NodeKind.engine (k : NodeKind) : EngKind :=
  match k with
  | .grid => .matrix | .copy => .copy | .collective => .collective | .strainer => .strainer | .matrix => .matrix

/-- The operands of a node record. -/
def operandsOf (b : List Byte) : List Operand :=
  (List.range (byteAt b 2)).map fun i =>
    let p := 32 + 24 * i
    ⟨fieldAt b p 8, fieldAt b (p + 8) 8, fieldAt b (p + 16) 4, fieldAt b (p + 20) 2, decide (byteAt b (p + 22) = 1)⟩

/-- The physical address that an operand's byte translates to, without a fault (R130, R189). -/
def operandPhys (s : State) (p va : Nat) : Option Nat :=
  if 2 ^ 62 ≤ va then physOf s p 0 va
  else if 2 ^ 48 ≤ va then none
  else match walk s p 0 va with
    | .leaf phys size _ _ => some (phys + va % size)
    | .fault _ _ _ => none

/-- The home die of an operand's byte, where it counts (R130). -/
def byteHome (s : State) (p va : Nat) : Option Nat :=
  match operandPhys s p va with
  | some a => if inRanges (s.part p).setup a 1 && regionOf s.links a ≠ .outside then some (homeDie a) else none
  | none => none

/-- Bytes of a span that a die homes (R130), page by page. -/
def spanHomes (s : State) (p die : Nat) : Nat → Nat → Nat → Nat
  | 0, _, _ => 0
  | fuel + 1, va, n =>
    if n = 0 then 0
    else
      let k := min n (65536 - va % 65536)
      (if byteHome s p va = some die then k else 0) + spanHomes s p die fuel (va + k) (n - k)

/-- Bytes of an operand that a die homes. -/
def operandHomes (s : State) (p die : Nat) (o : Operand) : Nat :=
  ((List.range o.rows).map fun r => spanHomes s p die (o.rowb / 65536 + 2) ((o.base + r * o.pitch) % 2 ^ 64) o.rowb).sum

/-- Whether a partition has an engine for a node on a die: for a grid, cores that its clusters fit on. -/
def nodeEngineOn (s : State) (p : Nat) (k : NodeKind) (r : Option LaunchRec) (die : Nat) : Bool :=
  let u := (s.part p).setup
  match k, r with
  | .grid, some r => !(ownedRects u die r.clw r.clh).isEmpty
  | k, _ => (enginesOn k.engine die).any (ownsEngine u k.engine)

/-- The die on which a node finds an engine (R130): the other one where the partition has none on its own. -/
def engineDie (s : State) (p : Nat) (k : NodeKind) (r : Option LaunchRec) (d : Nat) : Nat :=
  if !nodeEngineOn s p k r d && nodeEngineOn s p k r (1 - d) then 1 - d else d

/-- The die of a node (R130). (in part DEDUCED, log entry 54) -/
def nodeDie (s : State) (p : Nat) (k : NodeKind) (r : Option LaunchRec) (die : Nat) (ops : List Operand) : Nat :=
  let sum (d : Nat) (os : List Operand) : Nat := (os.map (operandHomes s p d)).sum
  let writes := ops.filter Operand.write
  let d :=
    if die < 2 then die
    else if sum 0 writes ≠ sum 1 writes then (if sum 0 writes < sum 1 writes then 1 else 0)
    else if sum 0 ops < sum 1 ops then 1 else 0
  engineDie s p k r d

/-- What the reading of a graph answers: its nodes, nothing yet, or an error with its address and offset. -/
inductive GraphRead
  | nodes (ns : List GNode)
  | pending
  | bad (code addr off : Nat)

/-- The launch record of a grid node (R128). -/
def nodeRecord (s : State) (p st a : Nat) : State × Except GraphRead LaunchRec :=
  if a % 256 ≠ 0 then (s, .error (.bad errAlign a 0))
  else match feRead s p st a 256 with
    | (s, .pending) => (s, .error .pending)
    | (s, .fault code at_) => (s, .error (.bad code at_ 0))
    | (s, .data b) => match recordBad (s.part p) b with
      | some (code, off) => (s, .error (.bad code a off))
      | none => (s, .ok (launchRecOf b))

/-- Node `n` of its record and the successor table (R127, R128). -/
def nodeOf (s : State) (p st nodetab succtab nnodes n : Nat) (b succ : List Byte) : State × Except GraphRead GNode :=
  let nsucc := succ.length / 4
  match nodeChecks b nsucc with
  | some (code, off) => (s, .error (.bad code (nodetab + 128 * n) off))
  | none =>
    let idx := fieldAt b 16 4
    let names := (List.range (fieldAt b 4 4)).map fun k => fieldAt succ (4 * (idx + k)) 4
    match names.findIdx? fun m => m ≤ n || nnodes ≤ m with
    | some k => (s, .error (.bad errRange (succtab + 4 * (idx + k)) 0))
    | none =>
      let kind := nodeKindOf (byteAt b 0)
      let mk (r : Option LaunchRec) : GNode :=
        { kind := kind, die := nodeDie s p kind r (byteAt b 1) (operandsOf b), cls := (r.map LaunchRec.bclass).getD (byteAt b 3),
          payload := fieldAt b 8 8, rcd := r, succs := names, ops := operandsOf b, preds := 0, state := .reserved, order := 0, tailAt := 0 }
      if kind = .grid then
        match nodeRecord s p st (fieldAt b 8 8) with
        | (s, .error e) => (s, .error e)
        | (s, .ok r) => (s, .ok (mk (some r)))
      else (s, .ok (mk none))

/-- The nodes from `n` on. -/
def nodesFrom (p st nodetab succtab nnodes : Nat) (succ : List Byte) : Nat → Nat → List Byte → State → State × GraphRead
  | 0, _, _, s => (s, .nodes [])
  | fuel + 1, n, tab, s =>
    match nodeOf s p st nodetab succtab nnodes n (tab.take 128) succ with
    | (s, .error e) => (s, e)
    | (s, .ok x) => match nodesFrom p st nodetab succtab nnodes succ fuel (n + 1) (tab.drop 128) s with
      | (s, .nodes ns) => (s, .nodes (x :: ns))
      | r => r

/-- Counts the predecessors of each node. -/
def countPreds (ns : List GNode) : List GNode :=
  ns.mapIdx fun i n => { n with preds := (ns.map fun m => m.succs.count i).sum }

/-- Reads a graph whole (R128): its descriptor, tables and launch records. -/
def readGraph (s : State) (p st a : Nat) : State × GraphRead :=
  match feRead s p st a 64 with
  | (s, .pending) => (s, .pending)
  | (s, .fault code at_) => (s, .bad code at_ 0)
  | (s, .data d) => match graphChecks d with
    | some (code, off) => (s, .bad code a off)
    | none =>
      let nn := fieldAt d 0 4
      match feRead s p st (fieldAt d 8 8) (128 * nn) with
      | (s, .pending) => (s, .pending)
      | (s, .fault code at_) => (s, .bad code at_ 0)
      | (s, .data tab) => match feRead s p st (fieldAt d 16 8) (4 * fieldAt d 4 4) with
        | (s, .pending) => (s, .pending)
        | (s, .fault code at_) => (s, .bad code at_ 0)
        | (s, .data succ) => match nodesFrom p st (fieldAt d 8 8) (fieldAt d 16 8) nn succ nn 0 tab s with
          | (s, .nodes ns) => (s, .nodes (countPreds ns))
          | r => r

/-! ## Dispatch of a `GRAPH` -/

/-- The graph of a `GRAPH` packet that waits for pool slots. -/
def waitingGraph (s : State) (p st : Nat) : Option Graph := s.graphs.find? fun g => g.part == p && g.stream == st && !g.pool

/-- Nodes of a graph on a die. -/
def Graph.on (g : Graph) (die : Nat) : Nat := (g.nodes.filter fun n => n.die == die).length

/-- A node without predecessors becomes READY (R129). -/
def GNode.enter (order : Nat) (n : GNode) : GNode :=
  if n.preds = 0 && n.state = .reserved then { n with state := .ready, order := order } else n

/-- Reserves the pool slots of a graph (R129) and dispatches its packet, or waits. -/
def reserveGraph (s : State) (p st : Nat) (k : Packet) (g : Graph) : State :=
  if poolFree s 0 < g.on 0 || poolFree s 1 < g.on 1 then waitPacket s p st
  else
    let s := s.updGraph g.id fun g => { g with pool := true, nodes := g.nodes.mapIdx fun i n => n.enter (s.fresh + i) }
    dispatchedWork { s with fresh := s.fresh + g.nodes.length } p st k (.graph g.id)

/-- Dispatch of a `GRAPH` (R128, R129). -/
def doGraph (s : State) (p st : Nat) (k : Packet) : State :=
  match waitingGraph s p st with
  | some g => reserveGraph s p st k g
  | none => match readGraph s p st (fieldAt k.bytes 8 8) with
    | (s, .pending) => waitPacket s p st
    | (s, .bad code addr off) => haltStream s p st code addr off (k.bytes.take 32) k.nslot
    | (s, .nodes ns) =>
      let s := dropArrived s (feOwner p st)
      let g : Graph := { id := s.fresh, part := p, stream := st, tumb := fieldAt k.bytes 16 8, amount := fieldAt k.bytes 24 8,
                         scope := byteAt k.bytes 32, pool := false, failed := false, nodes := ns }
      reserveGraph { s with graphs := s.graphs ++ [g], fresh := s.fresh + 1 } p st k g

/-- `GRAPH_PACKET`. -/
def execGraphPacket (p st : Nat) (s : State) : Result := .next (onPacket s p st 3 false graphBody fun s k => doGraph s p st k)

/-- What a waiting packet's dispatch does, by its type. -/
def againPacket (s : State) (p st : Nat) (k : Packet) : State :=
  match packetType k.bytes with
  | 2 => doLaunch s p st k
  | 3 => doGraph s p st k
  | 4 => doCopy s p st k
  | 5 => doColl s p st k
  | 6 => doSemwait s p st k
  | 7 => doSemsig s p st k
  | 8 => doTimewait s p st k
  | 9 => doFence s p st k
  | _ => s

/-- `WAIT_CONDITION_MET` (R105): a waiting packet is dispatched once its condition holds. -/
def execWaitConditionMet (p st : Nat) (s : State) : Result := .next (match s.stream? p st with
  | none => s
  | some x => match x.packet with
    | some k => if x.en && x.state = .waiting then againPacket s p st k else s
    | none => s)

/-! ## Dispatch of nodes -/

/-- Whether two spans of bytes overlap. -/
def spansMeet (a n b m : Nat) : Bool := decide (a < b + m) && decide (b < a + n)

/-- Whether two operands overlap in a byte, one of them written (R132). -/
def operandsMeet (x y : Operand) : Bool :=
  (x.write || y.write) && (List.range x.rows).any fun i => (List.range y.rows).any fun j =>
    spansMeet (x.base + i * x.pitch) x.rowb (y.base + j * y.pitch) y.rowb

/-- The nodes that can be reached from some nodes in a number of rounds. -/
def reachedIn (g : Graph) : Nat → List Nat → List Nat
  | 0, ns => ns
  | fuel + 1, ns => reachedIn g fuel (ns ++ ns.flatMap fun n => (g.nodes.getD n default).succs).dedup

/-- Whether a path of edges joins two nodes, the first of lower index. -/
def pathJoins (g : Graph) (i j : Nat) : Bool := (reachedIn g (j - i) [i]).contains j

/-- Whether a lower node of the graph holds a node back (R132). -/
def nodeHeldBack (g : Graph) (n : Nat) : Bool :=
  let x := g.nodes.getD n default
  (List.range n).any fun i =>
    let y := g.nodes.getD i default
    y.state != .complete && y.state != .aborted && y.ops.any (fun o => x.ops.any (operandsMeet o)) && !pathJoins g i n

/-- The engine that a ready node would run on (R130, R131): of the partition, on its die, and serving fewer than 16 chains. -/
def nodeEngine (s : State) (g : Graph) (x : GNode) : Option Nat :=
  let k := x.kind.engine
  let own (d : Nat) : List Nat := (enginesOn k d).filter (ownsEngine (s.part g.part).setup k)
  let here := own x.die
  let es := if here.isEmpty then own (1 - x.die) else here
  leastLoaded (fun e => cmdsAt s k e + chainsAt s k e) (es.filter fun e => chainsAt s k e < 16)

/-- The meter of a node (R140). -/
def nodeMeter (k : NodeKind) : Nat := if k = .grid then 0 else engClass k.engine

/-- A chain for a node (R131): the private chain of a block, or the chain of a descriptor, which is still to be read. (in part DEDUCED, log entry 41) -/
def nodeChain (s : State) (g : Graph) (n : Nat) (x : GNode) (e : Nat) : Chain :=
  let priv := x.kind != .matrix
  { id := s.fresh, desc := if priv then 0 else x.payload, part := g.part, kind := x.kind.engine, engine := e,
    head := if priv then x.payload else 0, seq := 0, tail := 1, halted := false, needNext := false, errAddr := 0, scope := 8,
    stream := some g.stream, node := some (g.id, n), running := none, attached := priv, loaded := priv, waiting := none, paused := none,
    owed := [] }

/-- The grid of a node (R131): on the node's die, and at the node's entry in the order of the pool. -/
def nodeGrid (s : State) (g : Graph) (n : Nat) (x : GNode) (slot : Nat) (r : LaunchRec) : Grid :=
  { newGrid s g.part slot r x.die (some g.stream) (some (g.id, n)) none with order := x.order }

/-- Hands a node's payload to its engine, or places the first team of its grid; none where neither is free (R133). -/
def startNode (s : State) (g : Graph) (n : Nat) (x : GNode) : Option State :=
  match x.kind, x.rcd with
  | .grid, some r =>
    (match freeGridSlot s g.part with
     | none => none
     | some slot =>
       let gr := nodeGrid s g n x slot r
       placeNext (addGrid s gr) gr)
  | .grid, none => none
  | _, _ => (nodeEngine s g x).map fun e => { addChain s (nodeChain s g n x e) with fresh := s.fresh + 1 }

/-- A node of a graph, on the die where it finds an engine now (R130): a RESIZE may have taken those of the die that it was read for. -/
def nodeNow (s : State) (g : Graph) (n : Nat) : GNode :=
  let x := g.nodes.getD n default
  { x with die := engineDie s g.part x.kind x.rcd x.die }

/-- A node that may take its dispatch turn: the state after it. -/
def tryNode (s : State) (g : Graph) (n : Nat) : Option State :=
  let x := nodeNow s g n
  if !g.pool || x.state != .ready || nodeHeldBack g n || meterHeld s g.part (nodeMeter x.kind) then none
  else startNode s g n x

/-- Whether an entry of the pool comes before another (R131): by class, then by the order in which they became ready. -/
def enteredBefore (cls order cls' order' : Nat) : Bool := decide (cls < cls') || (decide (cls = cls') && decide (order < order'))

/-- Whether a ready node of a kind on a die, of any graph, has its turn before an entry of a class and order (R131). -/
def nodeBefore (s : State) (k : NodeKind) (die cls order : Nat) : Bool :=
  s.graphs.any fun g => (List.range g.nodes.length).any fun n =>
    let y := nodeNow s g n
    y.kind == k && y.die == die && enteredBefore y.cls y.order cls order && (tryNode s g n).isSome

/-- Whether a grid of a die could place a cluster before an entry of a class and order (R131). (in part DESIGN CHOICE, log entry 55) -/
def gridBefore (s : State) (die cls order : Nat) : Bool :=
  s.grids.any fun g => g.die == die && enteredBefore g.rcd.bclass g.order cls order && !meterHeld s g.part 0 && (placeNext s g).isSome

/-- Whether the pool holds a node back for an entry before it (R131): a node of its kind or, for a grid, a grid that is being placed. -/
def nodeWaits (s : State) (x : GNode) : Bool :=
  nodeBefore s x.kind x.die x.cls x.order || (x.kind == .grid && gridBefore s x.die x.cls x.order)

/-- A dispatched matrix-chain node's descriptor is read, with TAIL (R131). -/
def readNodeTail (s : State) (graph node : Nat) : State :=
  match s.eng.chains.find? fun c => c.node == some (graph, node) && !c.loaded with
  | some c => loadChain s c
  | none => s

/-- `NODE_DISPATCH` (R131, R133). -/
def execNodeDispatch (graph node : Nat) (s : State) : Result := .next (match s.graph? graph with
  | none => s
  | some g => match tryNode s g node with
    | none => s
    | some s' =>
      let x := nodeNow s g node
      if nodeWaits s x then s
      else readNodeTail (s'.updGraph graph fun h => { h with nodes := h.nodes.modify node fun y =>
        if y.state = .ready then { y with state := .dispatched, die := x.die } else y }) graph node)

/-- Whether a grid has its turn (R131): its core cycles are not held, and no grid or ready grid node before it on its die could place a cluster. (in part DESIGN CHOICE, log entry 55) -/
def placeTurn (s : State) (gr : Grid) : Bool :=
  !s.therm.trip && !meterHeld s gr.part 0 && (s.part gr.part).state != .resetting &&
    !gridBefore s gr.die gr.rcd.bclass gr.order && !nodeBefore s .grid gr.die gr.rcd.bclass gr.order

/-- `TEAM_PLACE` (R134). (in part DESIGN CHOICE, log entry 55) -/
def execTeamPlace (p gs : Nat) (s : State) : Result := .next (match s.grids.find? fun g => g.part == p && g.slot == gs with
  | none => s
  | some gr => if placeTurn s gr then (placeNext s gr).getD s else s)

/-! ## Completion -/

/-- Whether the payload of a dispatched node has finished (R131, R133). -/
def nodeFinished (s : State) (g : Graph) (n : Nat) (x : GNode) : Bool :=
  let mine (m : Option (Nat × Nat)) : Bool := m == some (g.id, n)
  match x.kind with
  | .grid => !s.grids.any fun h => mine h.node
  | .matrix => match s.eng.chains.find? fun c => mine c.node with
    | some c => c.loaded && c.attached && decide (x.tailAt ≤ c.seq)
    | none => true
  | _ => !(s.eng.chains.any fun c => mine c.node) && !s.eng.cmds.any fun c => c.issuer == .node g.id n

/-- A node is complete (R133): its successors are told. -/
def Graph.completeNode (g : Graph) (n fresh : Nat) : Graph :=
  let x := g.nodes.getD n default
  let ns := g.nodes.mapIdx fun i y =>
    if i = n then { y with state := .complete } else ({ y with preds := y.preds - x.succs.count i } : GNode).enter (fresh + i)
  { g with nodes := ns }

/-- A graph that fails at its own decrement: the `GRAPH` is failed work (R336). (in part DEDUCED, log entry 54) -/
def failGraphSignal (s : State) (g : Graph) : State :=
  let s := logEvent s .failedDecrement 3 (logSource 0 2) g.part g.stream g.tumb
  let s := { failRef s (.graph g.id) with graphs := s.graphs.filter fun h => h.id != g.id }
  raisePart s g.part 259

/-- The last node of a graph is complete (R133): the decrement of the `GRAPH`, and the packet is complete. -/
def finishGraph (s : State) (g : Graph) : State :=
  match completionDecrement s g.id (whoFe g.part) g.tumb g.amount g.scope with
  | .pending s => s
  | .fault s _ _ => failGraphSignal s g
  | .done s => workDone { s with graphs := s.graphs.filter fun h => h.id != g.id } g.part g.stream (.graph g.id)

/-- A matrix chain whose node is complete belongs to the node no longer. (in part DEDUCED, log entry 41) -/
def releaseChain (s : State) (g n : Nat) : State :=
  { s with eng := { s.eng with chains := s.eng.chains.map fun c => if c.node == some (g, n) then { c with node := none } else c } }

/-- `NODE_COMPLETE` (R133). -/
def execNodeComplete (graph node : Nat) (s : State) : Result := .next (match s.graph? graph with
  | none => s
  | some g =>
    let x := g.nodes.getD node default
    if x.state != .dispatched || !nodeFinished s g node x then s
    else
      let h := g.completeNode node s.fresh
      if h.nodes.all fun y => y.state == .complete then finishGraph (releaseChain s graph node) g
      else { (releaseChain s graph node).updGraph graph fun _ => h with fresh := s.fresh + g.nodes.length })

/-- Who performs a grid's completion. -/
def Grid.who (g : Grid) : Who := ⟨g.die, none, g.part, 0, false⟩

/-- A grid is complete (R113): its slot is free, its parent's count falls, its lines' intervals end (R148), and its packet is complete. -/
def finishGrid (s : State) (gr : Grid) : State :=
  let s := { s with
    grids := (s.grids.filter fun g => g.id != gr.id).map fun g =>
      if gr.parent == some g.id then { g with children := g.children - 1 } else g
    lines := s.lines.filter fun l => l.grid != gr.id }
  match gr.node, gr.stream with
  | none, some st => workDone s gr.part st (.grid gr.id)
  | _, _ => s

/-- `GRID_COMPLETE` (R113, R476): every group has ended and no child is left. -/
def execGridComplete (p gs : Nat) (s : State) : Result := .next (match s.grids.find? fun g => g.part == p && g.slot == gs with
  | none => s
  | some gr =>
    if gr.children ≠ 0 || gr.nextTeam < gr.rcd.teams || s.teams.any (fun t => t.grid == gr.id) then s
    else if gr.childFailed then failGrid s gr.id false
    else match completionDecrement s gr.id gr.who gr.rcd.tumb gr.rcd.amount gr.rcd.tscope with
      | .pending s => s
      | .fault s _ _ => failGrid (logEvent s .failedDecrement 3 (logSource gr.die 2) p gr.slot gr.rcd.tumb) gr.id true
      | .done s => finishGrid s gr)

end Sys2Proof.Machine
end

