-- ==== Sys2Proof/Machine/Preempt.lean ====
section
/-!
DEFINITION. Spatial pre-emption (R144 to R146), budget periods and reservations (R39, R40, R141 to R143), and the area and HEAD registers of the
rings (R90, R148, R149, R199).
-/
namespace Sys2Proof.Machine

/-! ## Vacating cores -/

/-- The class of a team's grid. -/
def teamClass (s : State) (t : Team) : Nat := ((s.grid? t.grid).map fun g => g.rcd.bclass).getD 0

/-- The placed teams of a partition on a die whose core is not in a list, of classes greater than a bound (`above` 0 takes every class). -/
def vacatable (s : State) (p die above : Nat) (cores : List Nat) : List Team :=
  s.teams.filter fun t => t.part == p && t.state != .pending && dieOfCore t.core == die && !cores.contains t.core &&
    decide (above ≤ teamClass s t)

/-- The team whose core is vacated next (R144): the highest class number first, then the highest logical index. -/
def nextVacated (s : State) (ts : List Team) : Option Team :=
  ts.foldl (fun a t => match a with
    | none => some t
    | some b =>
      if teamClass s b < teamClass s t || (teamClass s b = teamClass s t && b.core < t.core) then some t else some b) none

/-- The cores on which a cluster's teams stand. -/
def clusterOn (s : State) (t : Team) : List Nat := ((s.clusterTeams t).map Team.core).filter fun c => decide (c < savedBase)

/-- The cores to vacate (R144): whole clusters until `n` cores are named. The first argument bounds the clusters. -/
def pickVacated (s : State) (p die above n : Nat) : Nat → List Nat → List Nat
  | 0, cs => cs
  | fuel + 1, cs =>
    if n ≤ cs.length then cs
    else match nextVacated s (vacatable s p die above cs) with
      | none => cs
      | some t => pickVacated s p die above n fuel ((cs ++ clusterOn s t).dedup)

/-- The cores that a partition's teams must leave: those of its request, those that a RESIZE removes (R88), and those that retire (R345). -/
def mustLeave (s : State) (p core : Nat) : Bool :=
  (s.part p).sch.vacating.contains core || s.retiring.contains core ||
    (match (s.part p).next with
     | some u => !ownsCore u core
     | none => false)

/-- Whether a team must be saved: a team of its cluster stands on a core that must be left (R144). -/
def mustSave (s : State) (t : Team) : Bool :=
  decide ((s.part t.part).sch.ctx.log2 ≠ 0) && decide (t.state = .placed) && (clusterOn s t).any (mustLeave s t.part)

/-- Asks for a cut of every team that must be saved. -/
def requestCuts (s : State) (p : Nat) : State :=
  (s.teams.filter fun t => t.part == p).foldl (fun s t => match s.team? t.id with
    | some t => if mustSave s t then requestDeadbolt s t.id .cut else s
    | none => s) s

/-- A request to vacate `n` cores of a die (R144, R146): `keep` withholds them afterwards from grids of class greater than `cls`. (in part DEDUCED, log entry 58) -/
def vacate (s : State) (p die n above cls : Nat) (keep : Bool) : State :=
  let cs := pickVacated s p die above n 288 []
  if cs.isEmpty then s
  else
    requestCuts (s.updPart p fun q => { q with sch := { q.sch with
      vacating := cs, keep := keep, withheld := [], withheldClass := cls, peState := 1, vacated := 0 } }) p

/-- The cores that a partition owns on a die. -/
def ownedOn (u : Setup) (die : Nat) : Nat := ((List.range 144).filter fun i => ownsCore u (144 * die + i)).length

/-- A write of `SCH_PREEMPT` (R144, R146, R149). (in part DEDUCED, log entry 58) -/
def writePreempt (s : State) (p v : Nat) : State :=
  let q := s.part p
  let die := v % 2
  let n := v / 256 % 256
  if q.sch.peState ≠ 0 || q.sch.ctx.log2 = 0 || n = 0 || ownedOn q.setup die < n then s
  else vacate s p die n 0 (v / 65536 % 4) true

/-- `SCH_PREEMPT_WRITE`. -/
def execSchPreemptWrite (p v : Nat) (s : State) : Result := .next (writePreempt s p v)

/-- Whether class pre-emption acts for a grid (R144): PREEN is set, its first cluster fits nowhere, and grids of a greater class hold cores of
its die. (in part DEDUCED, log entry 58) -/
def classTriggers (s : State) (gr : Grid) : Bool :=
  let q := s.part gr.part
  q.sch.preen && decide (q.sch.peState = 0) && decide (q.sch.ctx.log2 ≠ 0) && decide (gr.nextTeam = 0) && (savedTeams s gr).isEmpty &&
    (placeNext s gr).isNone && !(vacatable s gr.part gr.die (gr.rcd.bclass + 1) []).isEmpty

/-- The grids of the READY grid nodes of a partition that have their turn (R133, R144), each with the slot that it would take. -/
def readyGrids (s : State) (p : Nat) : List Grid :=
  match freeGridSlot s p with
  | none => []
  | some slot => (s.graphs.filter fun g => g.part == p && g.pool).flatMap fun g => (List.range g.nodes.length).filterMap fun n =>
      let x := nodeNow s g n
      if x.kind == .grid && x.state == .ready && !nodeHeldBack g n then x.rcd.map fun r => nodeGrid s g n x slot r else none

/-- The grids of a partition that wait for the place of a first cluster, those of ready nodes among them (R144). -/
def waitingGrids (s : State) (p : Nat) : List Grid := (s.grids.filter fun g => g.part == p) ++ readyGrids s p

/-- `PREEMPT_CLASS_TRIGGER` (R144): as many cores as the grid's cluster takes are vacated. (in part DEDUCED, log entry 58) -/
def execPreemptClassTrigger (p gs : Nat) (s : State) : Result := .next (match (waitingGrids s p).find? fun g => g.slot == gs && classTriggers s g with
  | none => s
  | some gr => vacate s p gr.die gr.rcd.cluster (gr.rcd.bclass + 1) gr.rcd.bclass false)

/-- `WITHHOLD_EXPIRE` (R146): 1 ms after they were vacated, the cores are free for every class. -/
def execWithholdExpire (p : Nat) (s : State) : Result := .next (
  let q := s.part p
  if q.sch.withheld.isEmpty || s.time.now < q.sch.withheldUntil then s
  else s.updPart p fun q => { q with sch := { q.sch with
    withheld := [], peState := if q.sch.peState = 2 then 0 else q.sch.peState } })

/-! ## Periods -/

/-- PERIOD in ticks (R82, R141): 0 takes 1 ms. -/
def periodTicks (u : Setup) : Nat := 1000 * (if u.period = 0 then 1000 else u.period)

/-- A meter at a boundary (R141, R143): the budget of the period that ends is subtracted, and the new one decides. (in part DESIGN CHOICE, log entry 59) -/
def Meter.boundary (m : Meter) (old new : Nat) : Meter :=
  let used := m.used - old
  ⟨used, decide (new ≠ 0) && decide (new ≤ used)⟩

/-- A partition at its period boundary: budgets and PERIOD of a RESIZE take effect (R88, R141). (in part DESIGN CHOICE, log entry 59) -/
def Partition.boundary (q : Partition) : Partition :=
  let (period, budget) := q.pendBudget.getD (q.setup.period, q.setup.budget)
  let setup := { q.setup with period := period, budget := budget }
  let meters := q.sch.meters.mapIdx fun i m => m.boundary (q.setup.budget.getD i 0) (budget.getD i 0)
  let sch := { q.sch with meters := meters, periodNext := (q.sch.periodNext / periodTicks setup + 1) * periodTicks setup }
  { q with setup := setup, pendBudget := none, sch := sch }

/-- A fraction with a positive denominator. -/
abbrev Share := Nat × Nat

/-- The sum of fractions. -/
def shareSum (l : List Share) : Share := l.foldl (fun a b => (a.1 * b.2 + b.1 * a.2, a.2 * b.2)) (0, 1)

/-- Slots per tick that a partition reserves on the Hinge (R39): its budget in whole slots over its period. -/
def hingeShare (q : Partition) : Share := ((q.setup.budget.getD 4 0 + 255) / 256, periodTicks q.setup)

/-- The Hinge modules that are not retired (R34, R39). -/
def hingeModules (k : Links) : Nat := (k.hinge.filter HingeMod.up).length

/-- Quads that a partition owns on a die. -/
def quadsOn (u : Setup) (die : Nat) : Nat := ((List.range 36).filter fun i => (if die = 0 then u.qmask0 else u.qmask1).testBit i).length

/-- A partition's share of the mesh links of a die (R40). The clock is in 10 MHz, so a period of t ns has t × clock / 100 cycles. -/
def meshShare (clock die : Nat) (q : Partition) : Share :=
  let b := q.setup.budget.getD 0 0
  if b = 0 then (quadsOn q.setup die, 36) else (100 * b, 144 * periodTicks q.setup * max 1 clock)

/-- Whether a partition holds resources. -/
def Partition.exists_ (q : Partition) : Bool := q.state != .free

/-- Whether reservations pass 90 % of `cap` (R39, R40). -/
def passes90 (l : List Share) (cap : Nat) : Bool := let t := shareSum l; decide (9 * cap * t.2 < 10 * t.1)

/-- Sets OVERSUB of every partition that has a reservation which is scaled down (R39, R40, R142). -/
def noteOversub (s : State) : State :=
  let live := s.parts.filter Partition.exists_
  let hinge := passes90 (live.map hingeShare) (hingeModules s.links)
  let mesh (d : Nat) : Bool := passes90 (live.map (meshShare s.therm.clock d)) 1
  let hit (q : Partition) : Bool :=
    (hinge && decide (0 < (hingeShare q).1)) || ((List.range 2).any fun d => mesh d && decide (0 < (meshShare s.therm.clock d q).1))
  { s with parts := s.parts.map fun q => if q.exists_ && hit q then { q with sch := { q.sch with oversub := true } } else q }

/-- `PERIOD_BOUNDARY` (R141): the next period of a partition starts, and the arbiters reserve for it. (in part DESIGN CHOICE, log entry 59) -/
def execPeriodBoundary (p : Nat) (s : State) : Result := .next (
  let q := s.part p
  if q.exists_ && q.sch.periodNext ≤ s.time.now then noteOversub (s.updPart p Partition.boundary) else s)

/-! ## Ring and area registers -/

/-- `FBHEAD_WRITE` (R90): an index outside the occupied span is ignored. -/
def writeFbHead (s : State) (p v : Nat) : State :=
  s.updPart p fun q =>
    if ringHeadOk q.fbHead q.fbTail q.setup.fbRecords (v % 262144) then { q with fbHead := v % 262144 } else q
/-- `FBHEAD_WRITE`. -/
def execFbheadWrite (p v : Nat) (s : State) : Result := .next (writeFbHead s p v)

/-- A write of `SCH_ODRHEAD` (R148, R149). -/
def writeOdrHead (s : State) (p v : Nat) : State :=
  s.updPart p fun q =>
    if ringHeadOk q.sch.odrHead q.sch.odrTail q.sch.odr.records (v % 524288) then { q with sch := { q.sch with odrHead := v % 524288 } } else q
/-- `ODR_HEAD_WRITE`. -/
def execOdrHeadWrite (p v : Nat) (s : State) : Result := .next (writeOdrHead s p v)

/-- A write of `MEM_RFHEAD` (R199). -/
def writeRfHead (s : State) (p v : Nat) : State :=
  s.updPart p fun q =>
    if ringHeadOk q.rf.head q.rf.tail q.rf.area.records (v % 524288) then { q with rf := { q.rf with head := v % 524288 } } else q
/-- `RF_HEAD_WRITE`. -/
def execRfHeadWrite (p v : Nat) (s : State) : Result := .next (writeRfHead s p v)

/-- The fields of an area register (R149). -/
def areaOf (v : Nat) : AreaReg := ⟨v % 64, v / 4096 * 4096⟩

/-- Whether LOG2 of an area is one that its register takes (R149). (in part DESIGN CHOICE, log entry 60) -/
def areaLog2Ok (a : AreaReg) (lo hi : Nat) : Bool := decide (a.log2 = 0) || (decide (lo ≤ a.log2) && decide (a.log2 ≤ hi))

/-- Whether an area lies inside one range of a partition (R149). -/
def areaInRange (u : Setup) (a : AreaReg) : Bool := decide (a.log2 = 0) || inRanges u a.base (2 ^ a.log2)

/-- A write of an area register (R149, R177): 0 the context area, 1 the report ring, 2 the slice area. A write that fails its checks is
ignored, and so is one of the slice area while a team is placed. (in part DESIGN CHOICE, log entry 60) -/
def writeArea (s : State) (p area v : Nat) : State :=
  let q := s.part p
  let a := areaOf v
  if !areaInRange q.setup a then s
  else match area with
    | 0 => if areaLog2Ok a 16 40 then s.updPart p fun q => { q with sch := { q.sch with ctx := a } } else s
    | 1 => if areaLog2Ok a 12 24 then s.updPart p fun q => { q with sch := { q.sch with odr := a } } else s
    | 2 =>
      if areaLog2Ok a 16 40 && !s.teams.any fun t => t.part == p && t.state != .pending then
        s.updPart p fun q => { q with sch := { q.sch with ls := a } }
      else s
    | _ => s
/-- `SCH_AREA_WRITE`. -/
def execSchAreaWrite (p area v : Nat) (s : State) : Result := .next (writeArea s p area v)

/-- A write of `MEM_RFAREA` (R199): the area lies inside one region. (in part DESIGN CHOICE, log entry 60) -/
def writeRfArea (s : State) (p v : Nat) : State :=
  let a := areaOf v
  if areaLog2Ok a 12 24 && (a.log2 = 0 || spanInRegion s.links a.base (2 ^ a.log2)) then s.updPart p fun q => { q with rf := { q.rf with area := a } }
  else s
/-- `MEM_RFAREA_WRITE`. -/
def execMemRfareaWrite (p v : Nat) (s : State) : Result := .next (writeRfArea s p v)

end Sys2Proof.Machine
end

