-- ==== Sys2Proof/Machine/Parts.lean ====
section
/-!
DEFINITION. Partitions (R80 to R89): the setup record and its checks, and the commands CREATE, RESIZE, RESET and DESTROY, function-level
reset, and their completion.
-/
namespace Sys2Proof.Machine

/-! ## The setup record -/

/-- The fields of a setup record (R82). -/
def setupOf (b : List Byte) : Setup :=
  { shadow := (byteAt b 3).testBit 0, rollback := (byteAt b 3).testBit 1, ptroot := fieldAt b 8 8, fbbase := fieldAt b 16 8,
    fblog2 := byteAt b 24, nstream := fieldAt b 26 2, predl := fieldAt b 28 4, qmask0 := fieldAt b 32 8, qmask1 := fieldAt b 40 8,
    l2mask0 := fieldAt b 48 8, l2mask1 := fieldAt b 56 8, carve0 := byteAt b 64, carve1 := byteAt b 65, chsp0 := byteAt b 66,
    chsp1 := byteAt b 67, cpymask := fieldAt b 68 4, colmask := fieldAt b 72 2, period := fieldAt b 80 4,
    budget := (List.range 6).map fun i => fieldAt b (88 + 8 * i) 8,
    ranges := (List.range 16).map fun i => (fieldAt b (256 + 16 * i) 8, fieldAt b (264 + 16 * i) 8) }

/-- 2 MiB. -/
def rangeUnit : Nat := 2097152

/-- The limits of a record's fields (R82). The BASE of an entry that is not used is not checked (DESIGN CHOICE, log entry 61). -/
def setupLimits (u : Setup) : Bool :=
  decide (u.ptroot % 4096 = 0) && decide (u.fbbase % 4096 = 0) && decide (12 ≤ u.fblog2) && decide (u.fblog2 ≤ 24) &&
    decide (1 ≤ u.nstream) && decide (u.nstream ≤ 256) && decide (u.predl ≤ 10000) && decide (u.qmask0 < 2 ^ 36) &&
    decide (u.qmask1 < 2 ^ 36) && decide (u.carve0 ≤ 12) && decide (u.carve1 ≤ 12) && decide (u.chsp0 ≤ 32) && decide (u.chsp1 ≤ 32) &&
    (decide (u.period = 0) || (decide (100 ≤ u.period) && decide (u.period ≤ 10000))) &&
    u.ranges.all fun r => decide (r.2 = 0) || (decide (r.1 % rangeUnit = 0) && decide (r.2 % rangeUnit = 0))

/-- Whether a record is well formed for a partition (R86: FORMAT). -/
def setupFormat (p : Nat) (b : List Byte) : Bool :=
  decide (fieldAt b 0 2 = 1) && decide (byteAt b 2 = p) && decide (byteAt b 3 < 4) &&
    ([(4, 8), (25, 26), (74, 80), (84, 88), (136, 256)].all fun x => (zeros b x.1 x.2).isNone) && setupLimits (setupOf b)

/-- The ranges of a record that are used. -/
def Setup.used (u : Setup) : List (Nat × Nat) := u.ranges.filter fun r => decide (r.2 ≠ 0)

/-- Whether two spans share a byte. -/
def rangesMeet (a b : Nat × Nat) : Bool := decide (a.1 < b.1 + b.2) && decide (b.1 < a.1 + a.2)

/-- Whether two records claim a unit both (R86: CONFLICT). -/
def setupsMeet (u v : Setup) : Bool :=
  ([(u.qmask0, v.qmask0), (u.qmask1, v.qmask1), (u.l2mask0, v.l2mask0), (u.l2mask1, v.l2mask1), (u.cpymask, v.cpymask),
    (u.colmask, v.colmask)].any fun m => decide (m.1 &&& m.2 ≠ 0)) || u.used.any fun a => v.used.any fun b => rangesMeet a b

/-- The records in force or under application of the other partitions (R87). -/
def otherSetups (s : State) (p : Nat) : List Setup :=
  (s.parts.filter fun q => q.num != p && q.exists_).flatMap fun q => q.setup :: q.next.toList

/-- Whether some range of a list meets a later one. -/
def selfMeets : List (Nat × Nat) → Bool
  | [] => false
  | a :: rest => rest.any (rangesMeet a) || selfMeets rest

/-- Ones of a mask of `n` bits. -/
def onesOf (n m : Nat) : Nat := ((List.range n).filter fun i => m.testBit i).length

/-- CHSP of a die. -/
def Setup.chsp (u : Setup) (die : Nat) : Nat := if die = 0 then u.chsp0 else u.chsp1
/-- CARVE of a die. -/
def Setup.carve (u : Setup) (die : Nat) : Nat := if die = 0 then u.carve0 else u.carve1
/-- A setup without some L2 slices of each die: retired ones belong to no partition (R65, R346). -/
def Setup.without (u : Setup) (ret0 ret1 : Nat) : Setup :=
  let keep (m ret : Nat) : Nat := m - (m &&& ret)
  { u with l2mask0 := keep u.l2mask0 ret0, l2mask1 := keep u.l2mask1 ret1 }

/-- The chip scratchpad that the other partitions hold or take on a die, in MiB. -/
def chspTaken (s : State) (p die : Nat) : Nat :=
  ((s.parts.filter fun q => q.num != p && q.exists_).map fun q => max (q.setup.chsp die) ((q.next.map fun u => u.chsp die).getD 0)).sum

/-- Whether a record has what a partition needs (R80, R86: CAPACITY). (in part DEDUCED, log entry 61) -/
def setupCapacity (s : State) (p : Nat) (u : Setup) : Bool :=
  decide (u.qmask0 + u.qmask1 ≠ 0) && decide (u.l2mask0 + u.l2mask1 ≠ 0) && decide (u.cpymask ≠ 0) &&
    (List.range 2).all fun d => decide (16 * u.carve d ≤ 3 * (u.slices d).length) && decide (u.chsp d + chspTaken s p d ≤ 32)

/-- The live grids of a partition with the largest cluster. (in part DEDUCED, log entry 61) -/
def largestClusters (s : State) (p : Nat) : List Grid :=
  let gs := s.grids.filter fun g => g.part == p
  gs.filter fun g => gs.all fun h => decide (h.rcd.cluster ≤ g.rcd.cluster)

/-- Whether a rectangle for a grid's cluster is left on its die (R86: CLUSTER). -/
def rectLeft (s : State) (u : Setup) (gr : Grid) : Bool :=
  (ownedRects u gr.die gr.rcd.clw gr.rcd.clh).any fun r => r.all fun c => !s.disabledCores.contains c

/-- Whether a core holds a team of a grid with its shadows, where a record asks for them (R86: CLUSTER, R342). -/
def shadowsFit (q : Partition) (u : Setup) (gr : Grid) : Bool :=
  !u.shadow || (decide (gr.rcd.gpt ≤ 24) && emptyCoreHolds { q with setup := u } gr.rcd (2 * gr.rcd.gpt))

/-- Whether the live grids of a partition have room under a new record (R86: CLUSTER): the largest cluster a rectangle, and every grid its
shadows. -/
def gridsFit (s : State) (p : Nat) (u : Setup) : Bool :=
  (largestClusters s p).all (rectLeft s u) && s.grids.all fun g => g.part != p || shadowsFit (s.part p) u g

/-- Whether a stream holds packets that have not been executed. -/
def Stream.unexecuted (x : Stream) : Bool :=
  decide ((if x.mtail then x.seen else x.tail) ≠ x.head) || x.packet.isSome || x.jump.isSome

/-- The codes of ERR (R85). -/
def pErrBusy : Nat := 1
def pErrState : Nat := 2
def pErrFormat : Nat := 3
def pErrConflict : Nat := 4
def pErrRange : Nat := 5
def pErrCapacity : Nat := 6
def pErrCluster : Nat := 7
def pErrStreams : Nat := 8
def pErrRead : Nat := 9

/-- The record at `HIF_PREC` (R84), unless it cannot be read (R86: READ). -/
def readSetup (s : State) : Option (List Byte) :=
  let at_ (k : Nat) : Place := .phys (s.pf.prec + k)
  if (List.range 512).any fun k => bytePoison s (at_ k) || !reaches s.links 0 (s.pf.prec + k) then none
  else some ((List.range 512).map fun k => readByte s (at_ k))

/-- The checks of R86, in the order of its table: the code of the first that fails, or the record, without the slices that have retired. (in part DEDUCED, log entry 61) -/
def checkSetup (s : State) (p : Nat) (resize : Bool) : Except Nat Setup :=
  match readSetup s with
  | none => .error pErrRead
  | some b =>
    let u := (setupOf b).without s.l2ret0 s.l2ret1
    let q := s.part p
    if !setupFormat p b then .error pErrFormat
    else if (otherSetups s p).any (setupsMeet u) then .error pErrConflict
    else if selfMeets u.used || !u.used.all fun r => spanInRegion s.links r.1 r.2 then .error pErrRange
    else if !setupCapacity s p u then .error pErrCapacity
    else if resize && !gridsFit s p u then .error pErrCluster
    else if resize && (q.streams.any fun x => decide (u.nstream ≤ x.num) && x.unexecuted) then .error pErrStreams
    else .ok u

/-! ## Claiming and clearing -/

/-- A stream after reset (R96 to R98). (in part DESIGN CHOICE, log entry 4) -/
def Stream.reset (n : Nat) : Stream :=
  { num := n, qbase := 0, qlog2 := 4, en := false, mtail := false, tailaddr := 0, erraddr := 0, head := 0, tail := 0, seen := 0,
    state := .disabled, ecode := 0, haltSlots := 0, packet := none, jump := none, work := [] }

/-- The chip scratchpad units that partitions other than `p` hold on a die. (in part DESIGN CHOICE, log entry 62) -/
def unitsTaken (s : State) (p die : Nat) : List Nat :=
  (s.parts.filter fun q => q.num != p).flatMap fun q => if die = 0 then q.chip0 else q.chip1

/-- The chip scratchpad units of a partition with `n` MiB on a die, in ascending order (R178): the first of those it holds, then free ones above
them, then the lowest free ones. (in part DESIGN CHOICE, log entry 62) -/
def unitsFor (s : State) (p die n : Nat) (old : List Nat) : List Nat :=
  let free := (List.range 32).filter fun u => !(unitsTaken s p die).contains u && !old.contains u
  let above (u : Nat) : Bool := old.all fun x => decide (x < u)
  let mine := (old ++ free.filter above ++ free.filter fun u => !above u).take n
  (List.range 32).filter fun u => mine.contains u

/-- Clears chip scratchpad units of a die to zero. -/
def clearUnits (s : State) (die : Nat) (us : List Nat) : State :=
  { s with
    chip := us.foldl (fun m u => m.clear (chipAt die (1048576 * u)) 1048576) s.chip
    sramPoison := s.sramPoison.filter fun w => match w with
      | .chip d o => !(d == die && us.contains (o / 1048576))
      | _ => true }

/-- Clears the scratchpads of some cores to zero. -/
def clearCores (s : State) (own : Nat → Bool) : State :=
  { s with
    scratch := s.scratch.filter fun c => !own (c.1 / 1048576)
    sramPoison := s.sramPoison.filter fun w => match w with
      | .sp c _ => !own c
      | _ => true }

/-- Drops every TLB entry of a partition. -/
def dropTlb (s : State) (p : Nat) : State := { s with ms := { s.ms with tlb := s.ms.tlb.filter fun t => t.part != p } }

/-- A partition that CREATE has claimed resources for (R87). Interrupt state, replay tokens and grid generations stay; every other register
is as after reset. -/
def Partition.claimed (q : Partition) (u : Setup) (chip0 chip1 : List Nat) (now : Nat) : Partition :=
  { Partition.reset q.num with
    state := .busy, done := q.done, setup := u, nextToken := q.nextToken, gens := q.gens, istat := q.istat, ivmap := q.ivmap, msix := q.msix
    msixPend := q.msixPend, chip0 := chip0, chip1 := chip1, streams := (List.range u.nstream).map Stream.reset
    sch := { SchRegs.reset with periodNext := (now / periodTicks u + 1) * periodTicks u } }

/-- CREATE claims and clears (R87). (in part DEDUCED, log entry 61) -/
def claim (s : State) (p : Nat) (u : Setup) : State :=
  let a := unitsFor s p 0 u.chsp0 []
  let b := unitsFor s p 1 u.chsp1 []
  let s := clearUnits (clearUnits (clearCores s (ownsCore u)) 0 a) 1 b
  dropTlb (s.updPart p fun q => q.claimed u a b s.time.now) p

/-- A command that is turned away (R87). -/
def setErr (s : State) (p e : Nat) : State := s.updPart p fun q => { q with err := e }

/-- DONE is set, and the sources are raised (R78, R79, R87). -/
def commandDone (s : State) (p : Nat) (own : Bool) : State :=
  let s := s.updPart p fun q => { q with done := true }
  raisePf (if own then raisePart s p 260 else s) p

/-! ## Commands -/

/-- A write of `HIF_PCMD` (R65, R84): the host interface takes partition commands once READY is set. (in part DEDUCED, log entry 61) -/
def command (s : State) (f : State → State) : State := if s.caddy.ready then f s else s

/-- CREATE (R87). (in part DEDUCED, log entry 61) -/
def createPartition (p : Nat) (s : State) : State :=
  match (s.part p).state with
  | .busy => setErr s p pErrBusy
  | .resetting => setErr s p pErrBusy
  | .active => setErr s p pErrState
  | .free => match checkSetup s p false with
    | .error e => setErr s p e
    | .ok u => claim s p u
/-- `PARTITION_CREATE`. -/
def execPartitionCreate (p : Nat) (s : State) : Result := .next (command s (createPartition p))

/-- RESIZE (R87, R88): the removed cores are vacated. (in part DEDUCED, log entry 61) -/
def resizePartition (p : Nat) (s : State) : State :=
  match (s.part p).state with
  | .busy => setErr s p pErrBusy
  | .resetting => setErr s p pErrBusy
  | .free => setErr s p pErrState
  | .active => match checkSetup s p true with
    | .error e => setErr s p e
    | .ok u => requestCuts (s.updPart p fun q => { q with state := .busy, err := 0, next := some u }) p
/-- `PARTITION_RESIZE`. -/
def execPartitionResize (p : Nat) (s : State) : Result := .next (command s (resizePartition p))

/-- A reserved OP (R84, R87). -/
def badCommand (p : Nat) (s : State) : State :=
  match (s.part p).state with
  | .busy => setErr s p pErrBusy
  | .resetting => setErr s p pErrBusy
  | .free => setErr s p pErrFormat
  | .active => setErr s p pErrFormat
/-- `PARTITION_CMD_BAD_OP`. -/
def execPartitionCmdBadOp (p : Nat) (s : State) : Result := .next (command s (badCommand p))

/-! ## Ending a partition's work -/

/-- The chains of a partition halt without error records (R89, R119): HALTED is written, and their engines forget them. (in part DEDUCED, log entry 41) -/
def haltChains (s : State) (p : Nat) : State :=
  let mine := s.eng.chains.filter fun c => c.part == p
  let s := mine.foldl (fun s c => if c.loaded && !c.isPrivate then writeDesc s c 34 (bytesOfNum 1 { c with halted := true }.status) else s) s
  { s with eng := { s.eng with chains := s.eng.chains.filter fun c => c.part != p } }

/-- The accesses of a partition in flight are dropped at their targets (R89). -/
def dropAccesses (s : State) (p : Nat) : State :=
  let zero (l : List Nat) : List Nat := (l.set (countAt p 0) 0).set (countAt p 1) 0
  { s with ms := { s.ms with
      sb := s.ms.sb.filter fun e => e.part != p
      flights := s.ms.flights.filter fun f => f.part != p
      walks := s.ms.walks.filter fun w => w.part != p
      arrived := s.ms.arrived.filter fun x => !(List.range 256).any fun st => x.owner == feOwner p st
      sent := zero s.ms.sent
      applied := zero s.ms.applied } }

/-- The units' work of a partition is discarded, with what had arrived for it. -/
def dropPartUnits (s : State) (p : Nat) : State :=
  let r := s.render
  let owners := (r.rays.filter fun x => x.part == p).map RaySlot.id ++ (r.marches.filter fun x => x.part == p).map MarchSlot.id ++
    (r.walks.filter fun x => x.part == p).map LightWalk.id ++ (r.jobs.filter fun x => x.part == p).map MatrixJob.id ++
    (r.tiles.filter fun x => x.part == p).flatMap fun t => t.id :: t.rows.map BlendRow.id
  { s with
    ms := { s.ms with arrived := s.ms.arrived.filter fun x => !owners.contains x.owner }
    eng := { s.eng with bufs := s.eng.bufs.filter fun b => b.part != p }
    render :=
      { pixels := r.pixels.filter fun x => x.part != p
        rays := r.rays.filter fun x => x.part != p
        marches := r.marches.filter fun x => x.part != p
        walks := r.walks.filter fun x => x.part != p
        jobs := r.jobs.filter fun x => x.part != p
        tiles := r.tiles.filter fun x => x.part != p } }

/-- Front ends stop (R89): a stream is disabled and waits for nothing. -/
def Stream.stopped (x : Stream) : Stream := { x with en := false, state := .disabled, packet := none, jump := none, work := [] }

/-- A partition whose work is discarded. -/
def Partition.emptied (q : Partition) : Partition :=
  { q with
    streams := q.streams.map Stream.stopped, tlbPend := [], next := none
    sch := { q.sch with peState := 0, vacated := 0, vacating := [], withheld := [] } }

/-- The actions of R89 but for scrubbing: front ends stop, jobs are discarded with their contexts, chains halt, accesses are dropped, TLB
entries go, and the stores are cleared. -/
def purge (s : State) (p : Nat) : State :=
  let s := discardTeams s ((s.teams.filter fun t => t.part == p).map Team.id)
  let s : State := { s with
    lines := s.lines.filter fun l => !(s.grids.any fun (g : Grid) => g.part == p && g.id == l.grid)
    grids := s.grids.filter fun g => g.part != p
    graphs := s.graphs.filter fun g => g.part != p }
  let s := haltChains s p
  let s := ((s.eng.cmds.filter fun c => c.part == p).map EngCmd.id).foldl dropCmd s
  let s := dropTlb (dropAccesses (dropPartUnits s p) p) p
  let q := s.part p
  let s := clearUnits (clearUnits (clearCores s (ownsCore q.setup)) 0 q.chip0) 1 q.chip1
  s.updPart p Partition.emptied

/-- A reset begins (R87, R89). -/
def beginReset (s : State) (p : Nat) (destroying scrub : Bool) : State :=
  (purge s p).updPart p fun q => { q with state := .resetting, destroying := destroying, scrub := scrub }

/-- RESET (R87, R89). (in part DEDUCED, log entry 61) -/
def resetPartition (p : Nat) (scrub : Bool) (s : State) : State :=
  match (s.part p).state with
  | .busy => setErr s p pErrBusy
  | .resetting => setErr s p pErrBusy
  | .free => setErr s p pErrState
  | .active => beginReset (setErr s p 0) p false scrub
/-- `PARTITION_RESET`. -/
def execPartitionReset (p : Nat) (scrub : Bool) (s : State) : Result := .next (command s (resetPartition p scrub))

/-- DESTROY (R87, R89): of a FREE partition it sets DONE, and raises no source, as the table of R87 names none (DESIGN CHOICE, log entry 61). -/
def destroyPartition (p : Nat) (scrub : Bool) (s : State) : State :=
  match (s.part p).state with
  | .busy => setErr s p pErrBusy
  | .resetting => setErr s p pErrBusy
  | .free => (setErr s p 0).updPart p fun q => { q with done := true }
  | .active => beginReset (setErr s p 0) p true scrub
/-- `PARTITION_DESTROY`. -/
def execPartitionDestroy (p : Nat) (scrub : Bool) (s : State) : Result := .next (command s (destroyPartition p scrub))

/-- `PARTITION_FLR` (R87): it waits for BUSY to end. -/
def execPartitionFlr (p : Nat) (s : State) : Result := .next (match (s.part p).state with
  | .busy => s.updPart p fun q => { q with flrpend := true }
  | .active => beginReset s p false false
  | .free => s
  | .resetting => s)

/-- Zeroes a range of memory and clears its poison (R84, R89). (in part DEDUCED, log entry 61) -/
def scrubRange (s : State) (r : Nat × Nat) : State := clearPoison { s with mem := s.mem.clear r.1 r.2 } (.phys r.1) r.2

/-- `PARTITION_RESET_COMPLETE` (R87). -/
def execPartitionResetComplete (p : Nat) (s : State) : Result := .next (
  let q := s.part p
  if q.state ≠ .resetting then s
  else
    let s := if q.scrub then q.setup.used.foldl scrubRange s else s
    if q.destroying then
      commandDone (s.updPart p fun q => { q with
        state := .free, setup := .none, streams := [], chip0 := [], chip1 := [], destroying := false, scrub := false, flrpend := false
        pendBudget := none }) p false
    else
      commandDone (s.updPart p fun q => { q with state := .active, destroying := false, scrub := false, flrpend := false }) p true)

/-- A partition that is FREE, its resources released without scrubbing (R87). -/
def Partition.freed (q : Partition) : Partition :=
  { q with
    state := .free, setup := .none, streams := [], chip0 := [], chip1 := [], destroying := false, scrub := false, flrpend := false
    pendBudget := none }

/-- `PF_FLR` (R87): every partition is FREE, without scrubbing. (in part DEDUCED, log entry 61) -/
def execPfFlr (s : State) : Result := .next (
  let s := (List.range 16).foldl purge s
  { s with parts := s.parts.map Partition.freed })

/-! ## The end of an application -/

/-- Whether a partition's work still stands on what a RESIZE removes (R88): a team on a core, a started collective, a matrix block under
way, or a Strainer's pixel. -/
def stillUses (s : State) (p : Nat) (u : Setup) : Bool :=
  (s.teams.any fun t => t.part == p && t.core < savedBase && !ownsCore u t.core) ||
    s.eng.cmds.any fun c => c.part == p && c.engine != noEngine && !ownsEngine u c.kind c.engine && (match c.body with
      | .copy _ => false
      | .coll j => j.sent
      | .strainer j => j.work.isSome
      | .matrix _ => c.started)

/-- The engine that takes the place of one that a partition no longer owns (R88). -/
def keptEngine (s : State) (p : Nat) (k : EngKind) (e : Nat) : Nat :=
  if e = noEngine || ownsEngine (s.part p).setup k e then e else (pickEngine s p (engDie k e) k).getD noEngine

/-- Commands and chains of removed engines go on elsewhere (R88). (in part DESIGN CHOICE, log entry 62) -/
def moveEngines (s : State) (p : Nat) : State :=
  { s with eng := { s.eng with
        chains := s.eng.chains.map fun c => if c.part == p then { c with engine := keptEngine s p c.kind c.engine } else c
        cmds := s.eng.cmds.map fun c => if c.part == p then { c with engine := keptEngine s p c.kind c.engine } else c } }

/-- Whether a RESIZE invalidates the TLB entries (R88): the ranges, PTROOT or removed resources. -/
def needsTlbDrop (old new : Setup) : Bool :=
  let less (a b : Nat) : Bool := decide (a &&& b ≠ a)
  decide (old.ranges ≠ new.ranges) || decide (old.ptroot ≠ new.ptroot) || less old.qmask0 new.qmask0 || less old.qmask1 new.qmask1 ||
    less old.l2mask0 new.l2mask0 || less old.l2mask1 new.l2mask1 || less old.cpymask new.cpymask || less old.colmask new.colmask ||
    decide (new.chsp0 < old.chsp0) || decide (new.chsp1 < old.chsp1) || decide (new.carve0 < old.carve0) ||
    decide (new.carve1 < old.carve1)

/-- The streams of a partition under a new NSTREAM. -/
def resizeStreams (l : List Stream) (n : Nat) : List Stream :=
  l.filter (fun x => decide (x.num < n)) ++ ((List.range n).filter fun i => !l.any fun x => x.num == i).map Stream.reset

/-- A partition whose new record is in force (R88): budgets and PERIOD wait for the next period, and a fault buffer that moved starts empty. -/
def Partition.resized (q : Partition) (u : Setup) (chip0 chip1 : List Nat) : Partition :=
  let moved := decide (u.fbbase ≠ q.setup.fbbase) || decide (u.fblog2 ≠ q.setup.fblog2)
  { q with
    setup := { u with period := q.setup.period, budget := q.setup.budget }, next := none, pendBudget := some (u.period, u.budget)
    chip0 := chip0, chip1 := chip1, streams := resizeStreams q.streams u.nstream
    fbHead := if moved then 0 else q.fbHead, fbTail := if moved then 0 else q.fbTail }

/-- The new record of a RESIZE takes the place of the old (R88): added resources are cleared, removed engines hand over. -/
def applyResize (s : State) (p : Nat) (u : Setup) : State :=
  let q := s.part p
  let a := unitsFor s p 0 u.chsp0 q.chip0
  let b := unitsFor s p 1 u.chsp1 q.chip1
  let s := clearCores s fun c => ownsCore u c && !ownsCore q.setup c
  let s := clearUnits (clearUnits s 0 (a.filter fun x => !q.chip0.contains x)) 1 (b.filter fun x => !q.chip1.contains x)
  let s := moveEngines (s.updPart p fun q => q.resized u a b) p
  if needsTlbDrop q.setup u then dropTlb s p else s

/-- The application of a record is complete (R87): ACTIVE, or a waiting reset begins. (in part DEDUCED, log entry 61) -/
def applied (s : State) (p : Nat) : State :=
  if (s.part p).flrpend then beginReset s p false false
  else commandDone (s.updPart p fun q => { q with state := .active }) p true

/-- `PARTITION_APPLY_COMPLETE` (R87, R88). -/
def execPartitionApplyComplete (p : Nat) (s : State) : Result := .next (
  let q := s.part p
  if q.state ≠ .busy then s
  else match q.next with
    | none => applied s p
    | some u => if stillUses s p u then s else applied (applyResize s p u) p)

end Sys2Proof.Machine
end

