-- ==== Sys2Proof/Machine/Shake.lean ====
section
/-!
DEFINITION. SHAKE256 (R61) as FIPS 202 defines it, and the CRC-32 of IEEE 802.3 (R57).
-/
namespace Sys2Proof.Machine

/-! ## The permutation

The state is five planes of five words. FIPS 202 gives the rotations and the round constants by rule, and so does the model: the rotations grow
along a walk of the words, and a register of eight bits that counts powers of x gives the constants.
-/

/-- A row of five words of the sponge's state. -/
abbrev Plane := List Word64

/-- A row turned left, so that it begins with its element `n`. -/
def turnRow (n : Nat) (p : Plane) : Plane := p.drop n ++ p.take n

/-- Words of two rows, one by one. -/
def rowXor (p q : Plane) : Plane := List.zipWith (fun v w => v ^^^ w) p q

/-- Every plane with the parity of its two neighbouring columns. -/
def mixParity (planes : List Plane) : List Plane :=
  let sum := planes.foldl rowXor (List.replicate 5 0)
  planes.map (rowXor (rowXor (turnRow 4 sum) ((turnRow 1 sum).map fun w => w.rotateLeft 1)))

/-- The walk of the words: position (x, y) goes on to (y, 2x + 3y), and step `k` adds `k` to the rotation. -/
def spinWalk : (fuel k spin x y : Nat) → List (Nat × Nat)
  | 0, _, _, _, _ => []
  | fuel + 1, k, spin, x, y => (5 * y + x, (spin + k) % 64) :: spinWalk fuel (k + 1) (spin + k) y ((2 * x + 3 * y) % 5)

/-- By how much the word at a position turns. -/
def spinOf (at_ : Nat) : Nat := (((spinWalk 24 1 0 1 0).find? fun e => e.1 == at_).map Prod.snd).getD 0

/-- Every word turned, and moved to its new position. -/
def moveWords (planes : List Plane) : List Plane :=
  let turned := planes.flatten.mapIdx fun i w => w.rotateLeft (spinOf i)
  (List.range 5).map fun y => (List.range 5).map fun x => turned.getD (5 * x + (x + 3 * y) % 5) 0

/-- The nonlinear step of a plane. -/
def bendRow (p : Plane) : Plane := rowXor p (List.zipWith (fun v w => ~~~v &&& w) (turnRow 1 p) (turnRow 2 p))

/-- A polynomial times x modulo x^8 + x^6 + x^5 + x^4 + 1. -/
def timesX (r : Nat) : Nat := if r < 128 then 2 * r else (2 * r) ^^^ 0x171

/-- The powers of x. -/
def powerX : Nat → Nat
  | 0 => 1
  | t + 1 => timesX (powerX t)

/-- The constant of a round: bit 2^j - 1 is the low bit of power 7 × round + j. -/
def roundWord (round : Nat) : Word64 :=
  BitVec.ofNat 64 ((List.range 7).map fun j => powerX (7 * round + j) % 2 * 2 ^ (2 ^ j - 1)).sum

/-- A plane with a word added to its first. -/
def stampRow (w : Word64) (p : Plane) : Plane := rowXor p (w :: List.replicate 4 0)

/-- One round of the permutation. -/
def spongeRound (planes : List Plane) (round : Nat) : List Plane := ((moveWords (mixParity planes)).map bendRow).modify 0 (stampRow (roundWord round))

/-- The permutation: 24 rounds. -/
def permute (planes : List Plane) : List Plane := (List.range 24).foldl spongeRound planes

/-! ## SHAKE256 -/

/-- Bytes of a block of SHAKE256. -/
def shakeBlock : Nat := 136

/-- A message with its padding: the suffix of SHAKE, zeros to the end of the block, and the top bit of the last byte. -/
def padded256 (b : List Byte) : List Byte :=
  let b := b ++ 0x1F :: List.replicate (shakeBlock - 1 - b.length % shakeBlock) 0
  b.modify (b.length - 1) fun x => x ||| 0x80

/-- The words of a block as planes, zeros after its end. -/
def blockPlanes (b : List Byte) : List Plane :=
  (List.range 5).map fun y => (List.range 5).map fun x => BitVec.ofNat 64 (numOfBytes ((b.drop (40 * y + 8 * x)).take 8))

/-- A padded message enters the state, block by block. The first argument counts the blocks. -/
def soak : Nat → List Plane → List Byte → List Plane
  | 0, planes, _ => planes
  | n + 1, planes, b => soak n (permute (List.zipWith rowXor planes (blockPlanes (b.take shakeBlock)))) (b.drop shakeBlock)

/-- The first 64 bytes of SHAKE256 output over some bytes (R61). (in part DESIGN CHOICE, log entry 13) -/
def measurement (b : List Byte) : List Byte :=
  let m := padded256 b
  ((soak (m.length / shakeBlock) (List.replicate 5 (List.replicate 5 0)) m).flatten.take 8).flatMap fun w => bytesOfNum 8 w.toNat

/-! ## CRC-32 -/

/-- One bit of the reflected CRC. -/
def crcBit (c : Nat) : Nat := if c % 2 = 1 then (c / 2) ^^^ 0xEDB88320 else c / 2

/-- One byte of the CRC. -/
def crcByte (c : Nat) (b : Byte) : Nat := (List.range 8).foldl (fun c _ => crcBit c) (c ^^^ b.toNat)

/-- CRC-32 over some bytes (R57). -/
def crc32 (bs : List Byte) : Nat := (bs.foldl crcByte 0xFFFFFFFF) ^^^ 0xFFFFFFFF

end Sys2Proof.Machine
end

