-- ==== Sys2Proof/Machine/Caddy.lean ====
section
/-!
DEFINITION. Caddy (R55 to R66): the event log, attestation, updates, bring-up and module reset; scrubbing (R29); the retirement of cores and
L2 slices (R345, R346); and the loss of power (R58).
-/
namespace Sys2Proof.Machine

/-- Changes Caddy. -/
def State.updCaddy (s : State) (f : Caddy → Caddy) : State := { s with caddy := f s.caddy }

/-! ## Lockstep -/

/-- `CADDY_LOCKSTEP_MISMATCH` (R55): both cores restart; jobs, time and links run on. -/
def execCaddyLockstepMismatch (s : State) : Result := .next (s.updCaddy fun c => { c with running := false, mismatch := true })

/-- `CADDY_RESTART_COMPLETE` (R55): the firmware runs again and logs with class 5. (in part DEDUCED, log entry 66) -/
def execCaddyRestartComplete (s : State) : Result := .next (
  if s.caddy.running then s
  else
    let s := s.updCaddy fun c => { c with running := true, mismatch := false }
    logEvent s .lockstep 5 (logSource 0 0) 255 0 0)

/-! ## The event log -/

/-- The first `n` bytes of a list, zeros after its end. -/
def padTo (n : Nat) (b : List Byte) : List Byte := (b ++ List.replicate n 0).take n

/-- The 64 bytes of a log record (R57). -/
def LogRec.bytes (r : LogRec) : List Byte :=
  let b := bytesOfNum 8 r.time ++ bytesOfNum 4 r.seqNo ++ bytesOfNum 2 (Config.logCode r.event).toNat ++ bytesOfNum 1 r.cls ++
    bytesOfNum 1 r.source ++ bytesOfNum 1 r.part ++ [0, 0, 0] ++ padTo 40 (Config.logData r.event r.x r.y)
  b ++ bytesOfNum 4 (crc32 b)

/-- The place of a record in the ring of 65,536 (R57): its SEQ modulo that number, so that the ring of a new module starts at place 0. (DESIGN CHOICE, log entry 66) -/
def LogRec.place (r : LogRec) : Nat := r.seqNo % 65536

/-- The erase sector of a record in the ring (R57): 64 records, the first of which has SEQ mod 64 = 0. (DESIGN CHOICE, log entry 66) -/
def LogRec.sector (r : LogRec) : Nat := r.place / 64

/-- Writes a record to flash (R57): the first record of a sector erases the 64 oldest, and a record takes the place of an invalid one. -/
def putFlash (flash : List LogRec) (r : LogRec) : List LogRec :=
  (if r.place % 64 = 0 then flash.filter fun x => decide (x.sector ≠ r.sector) else flash.filter fun x => decide (x.place ≠ r.place)) ++ [r]

/-- `LOG_FLUSH` (R57): the buffered records are written to flash. (in part DEDUCED, log entry 66) -/
def execLogFlush (s : State) : Result := .next (
  if s.caddy.running then s.updCaddy fun c =>
    { c with flash := c.logBuf.foldl putFlash c.flash, logBuf := [], logSeq := (c.logBuf.getLast?.map LogRec.seqNo).getD c.logSeq }
  else s)

/-- `LOG_READ` (R58): the record with a SEQ, where flash holds a valid one. It is answered while Caddy restarts too, and a SEQ that flash does
not hold has no answer (DESIGN CHOICE, log entry 66). -/
def execLogRead (seqNo : Nat) (s : State) : Result := .next (match s.caddy.flash.find? fun r => r.seqNo == seqNo && r.crcOk with
  | some r => s.send (.log r.bytes)
  | none => s)

/-- The log window (R58): the newest valid record of flash whose SEQ modulo 256 is `k`, and zeros where there is none. (in part DESIGN CHOICE, log entry 66) -/
def logWindow (c : Caddy) (k : Nat) : List Byte :=
  match (c.flash.filter fun r => r.crcOk && decide (r.seqNo % 256 = k)).getLast? with
  | some r => r.bytes
  | none => List.replicate 64 0

/-! ## Attestation -/

/-- `ATTEST_REQUEST` (R63): Caddy holds up to four requests, also while it restarts (DESIGN CHOICE, log entry 66). -/
def execAttestRequest (nonce : Nat) (s : State) : Result := .next (
  if s.caddy.attest.length < 4 then s.updCaddy fun c => { c with attest := c.attest ++ [nonce] } else s.send (.busy 0))

/-- The setup record of a partition as the module holds it (R82, R88). -/
def Partition.recordBytes (q : Partition) : List Byte :=
  let u := q.setup
  let (period, budget) := q.pendBudget.getD (u.period, u.budget)
  let n (k v : Nat) : List Byte := bytesOfNum k v
  padTo 256 (n 2 1 ++ n 1 q.num ++ n 1 ((if u.shadow then 1 else 0) + if u.rollback then 2 else 0) ++ n 4 0 ++ n 8 u.ptroot ++ n 8 u.fbbase ++
      n 1 u.fblog2 ++ n 1 0 ++ n 2 u.nstream ++ n 4 u.predl ++ n 8 u.qmask0 ++ n 8 u.qmask1 ++ n 8 u.l2mask0 ++ n 8 u.l2mask1 ++
      n 1 u.carve0 ++ n 1 u.carve1 ++ n 1 u.chsp0 ++ n 1 u.chsp1 ++ n 4 u.cpymask ++ n 2 u.colmask ++ n 6 0 ++ n 4 period ++ n 4 0 ++
      (budget.flatMap fun b => n 8 b)) ++
    padTo 256 (u.ranges.flatMap fun r => n 8 r.1 ++ n 8 r.2)

/-- The measurement of a partition in a report (R63): zero for one that does not exist. (in part DESIGN CHOICE, log entry 13) -/
def Partition.measured (q : Partition) : List Byte := if q.exists_ then measurement q.recordBytes else List.replicate 64 0

/-- Bytes of a signature (R61). -/
def signatureLen : Nat := 29792

/-- The signature of a message by the device identity key (R61, R62). (DESIGN CHOICE, log entry 13) -/
def signatureOf (b : List Byte) : List Byte := (List.range signatureLen).map (Config.signatureByte b)

/-- The bytes of a configuration image before its signature (R59). (in part DESIGN CHOICE, log entry 10) -/
def imageUnsigned (i : ConfigImage) : List Byte :=
  let body := Config.configBody i.body
  bytesOfNum 4 i.magic ++ bytesOfNum 4 (640 + body.length + signatureLen) ++ bytesOfNum 4 i.svn ++ bytesOfNum 4 i.spare ++
    i.coremap0.flatMap (bytesOfNum 2) ++ i.coremap1.flatMap (bytesOfNum 2) ++ bytesOfNum 8 i.l2ret0 ++ bytesOfNum 8 i.l2ret1 ++ body

/-- The bytes of a configuration image (R59). -/
def imageBytes (i : ConfigImage) : List Byte := imageUnsigned i ++ i.sig

/-- A configuration image that Caddy signs with the device identity key (R60). -/
def signHere (i : ConfigImage) : ConfigImage := { i with sig := signatureOf (imageUnsigned i), signed := true }

/-- The configuration slot by its number. -/
def Caddy.cfg (c : Caddy) (slot : Nat) : Option ConfigImage := if slot = 0 then c.cfgA else c.cfgB
/-- The firmware slot by its number. -/
def Caddy.fw (c : Caddy) (slot : Nat) : Option FirmwareImage := if slot = 0 then c.fwA else c.fwB

/-- Bytes 0 to 1,271 of a report (R63): what its signature covers. (in part DESIGN CHOICE, log entry 13) -/
def reportBytes (s : State) (nonce : Nat) : List Byte :=
  let c := s.caddy
  bytesOfNum 4 0x54504154 ++ bytesOfNum 4 (1272 + signatureLen) ++ bytesOfNum 32 nonce ++ bytesOfNum 8 s.time.now ++
    measurement (((c.fw c.slotFw).map FirmwareImage.bytes).getD []) ++ measurement (((c.cfg c.slotCfg).map imageBytes).getD []) ++
    bytesOfNum 2 ((s.parts.filter Partition.exists_).map fun q => 2 ^ q.num).sum ++ bytesOfNum 6 0 ++ s.parts.flatMap Partition.measured ++
    measurement Config.certificate

/-- A report with its signature (R63). -/
def signedReport (s : State) (nonce : Nat) : List Byte := reportBytes s nonce ++ signatureOf (reportBytes s nonce)

/-- `ATTEST_REPORT` (R62, R63): the oldest request is answered, unless Caddy refuses to sign. (in part DEDUCED, log entry 66) -/
def execAttestReport (s : State) : Result := .next (match s.caddy.attest with
  | [] => s
  | nonce :: rest =>
    if !s.caddy.running then s
    else
      let t := s.updCaddy fun c => { c with attest := rest }
      if s.caddy.mayReport then t.send (.report (signedReport s nonce)) else t)

/-! ## Images -/

/-- Writes a firmware slot. -/
def Caddy.setFw (c : Caddy) (slot : Nat) (i : FirmwareImage) : Caddy := if slot = 0 then { c with fwA := some i } else { c with fwB := some i }
/-- Writes a configuration slot. -/
def Caddy.setCfg (c : Caddy) (slot : Nat) (i : ConfigImage) : Caddy := if slot = 0 then { c with cfgA := some i } else { c with cfgB := some i }

/-- Whether Caddy accepts a firmware image (R60, R64). -/
def Caddy.takesFw (c : Caddy) (i : Option FirmwareImage) : Bool :=
  match i with
  | some i => i.signed && decide (c.minSvn ≤ i.svn)
  | none => false

/-- Whether a COREMAP gives each logical index once (R60). -/
def coremapOk (m : List Nat) : Bool := (List.range 144).all fun i => decide (m.count i = 1)

/-- Whether Caddy accepts a configuration image (R60). -/
def Caddy.takesCfg (c : Caddy) (i : Option ConfigImage) : Bool :=
  match i with
  | some i => i.signed && decide (i.spare = 0) && i.bodyZero && decide (c.minSvn ≤ i.svn) && coremapOk i.coremap0 && coremapOk i.coremap1
  | none => false

/-- Logs a rejected image (R60): class 4. -/
def logRejected (s : State) : State := logEvent s .imageRejected 4 (logSource 0 0) 255 0 0

/-- The component of an update stands whole in its inactive slot (R64): it is verified, and becomes pending. (in part DEDUCED, log entry 66) -/
def finishUpdate (s : State) (u : UpdateImage) : State :=
  let c := { s.caddy with session := none }
  match u with
  | .firmware i =>
    let ok := c.takesFw (some i)
    let s := { s with caddy := { c.setFw (1 - c.nextFw) i with pendFw := ok } }
    if ok then s else logRejected s
  | .config i =>
    let ok := c.takesCfg (some i)
    let s := { s with caddy := { c.setCfg (1 - c.nextCfg) i with pendCfg := ok } }
    if ok then s else logRejected s

/-- `FIRMWARE_UPDATE` (R64): one session at a time; it ends when its component has been transferred. (in part DEDUCED, log entry 66) -/
def execFirmwareUpdate (u : UpdateRequest) (s : State) : Result := .next (
  if !s.caddy.running then s
  else match s.caddy.session with
    | none => if u.finish then s.send (.busy 1) else s.updCaddy fun c => { c with session := some u.requester }
    | some r => if u.finish && r = u.requester then finishUpdate s u.image else s.send (.busy 1))

/-- The image that Caddy writes next (R60): the pending one, or the one in force, changed; it stands in the inactive slot and takes effect at
the next module reset. -/
def writeConfig (s : State) (f : ConfigImage → ConfigImage) : State :=
  s.updCaddy fun c =>
    match c.cfg (if c.pendCfg then 1 - c.nextCfg else c.nextCfg) with
    | some i => { c.setCfg (1 - c.nextCfg) (signHere (f i)) with pendCfg := true }
    | none => c

/-- A configuration image whose BODY changes. -/
def updBody (i : ConfigImage) (f : ConfigBody → ConfigBody) : ConfigImage := { i with body := f i.body }

/-! ## Hinge modules -/

/-- Failed lanes of a Hinge module are noted in the next image (R59, R60). -/
def recordHinge (s : State) (n lanes : Nat) : State :=
  writeConfig s fun i => updBody i fun b => { b with hingeRepairs := b.hingeRepairs.modify n (· + lanes) }

/-- `HINGE_LANE_REPAIR` (R34, R60): the change applies at once, and the next image records it. (in part DEDUCED, log entry 65) -/
def execHingeLaneRepair (n lanes : Nat) (s : State) : Result := .next (
  if lanes = 0 then s else recordHinge (updHinge s n fun m => m.repair lanes) n lanes)

/-- `HINGE_MODULE_RETIRE` (R34, R60): a module that needs more than four lanes. (in part DEDUCED, log entry 65) -/
def execHingeModuleRetire (n : Nat) (s : State) : Result := .next (recordHinge (updHinge s n HingeMod.retire) n 5)

/-! ## Bring-up -/

/-- Caddy after a module reset (R57, R64, R65): flash stays, a pending component takes effect, and new firmware that has failed three times
running gives way to the other slot. -/
def Caddy.restarted (c : Caddy) : Caddy × Bool :=
  let fails := c.failedBoots + 1
  let back := c.trialFw && !c.ready && decide (3 ≤ fails) && !c.pendFw
  ({ Caddy.reset with
      flash := c.flash, nextSeq := (match (c.flash.filter LogRec.crcOk).getLast? with
        | some r => (r.seqNo + 1) % 4294967296
        | none => 0)
      logSeq := c.logSeq, nextFw := if c.pendFw || back then 1 - c.nextFw else c.nextFw, nextCfg := if c.pendCfg then 1 - c.nextCfg else c.nextCfg
      cfgA := c.cfgA, cfgB := c.cfgB, fwA := c.fwA, fwB := c.fwB, minSvn := c.minSvn, trialFw := c.pendFw || (c.trialFw && !back)
      failedBoots := if c.pendFw || back || c.ready then 0 else if c.trialFw then fails else 0 }, back)

/-- What memory keeps through a module reset: everything, or, after a loss of power, the memories outside the module's own devices. (in part DEDUCED, log entry 66) -/
def State.keptMem (s : State) : Mem := if s.powered then s.mem else s.mem.filter fun c => decide (cxlBase ≤ c.1)

/-- `MODULE_RESET` (R65, R87): everything is as after reset, and bring-up starts. (in part DEDUCED, log entry 66) -/
def resetModule (s : State) : State :=
  let (c, back) := s.caddy.restarted
  let t : State := { State.reset with
    agenda := s.agenda, turn := s.turn, fresh := s.fresh, out := s.out, mem := s.keptMem
    poison := if s.powered then s.poison else s.poison.filter fun b => decide (cxlBase ≤ 64 * b)
    caddy := c, links := { Links.reset with modid := s.links.modid } }
  if back then logEvent t .bootFallback 4 (logSource 0 0) 255 0 0 else t
/-- `MODULE_RESET`. -/
def execModuleReset (s : State) : Result := .next (resetModule s)

/-- Bring-up goes on to a step, or stops at the one in progress (R65, R66). -/
def bootTo (s : State) (n : Nat) : State := s.updCaddy fun c => { c with bootStep := n }
/-- Bring-up stops. -/
def bootStop (s : State) : State := s.updCaddy fun c => { c with stopped := true }

/-- A firmware slot runs (R66). -/
def runFirmware (s : State) (slot : Nat) : State := bootTo (s.updCaddy fun c => { c with slotFw := slot, nextFw := slot }) 3

/-- Step 2 (R65): the firmware slot is verified, or the other. (in part DEDUCED, log entry 66) -/
def bootFirmware (s : State) : State :=
  let c := s.caddy
  if c.takesFw (c.fw c.nextFw) then runFirmware s c.nextFw
  else if c.takesFw (c.fw (1 - c.nextFw)) then runFirmware s (1 - c.nextFw)
  else bootStop s

/-- Step 3 (R60, R62, R65): the configuration image is accepted, and the identity key is derived. An empty slot in force counts as a rejected
image, and an empty other slot is not logged (DESIGN CHOICE, log entry 66). -/
def bootConfig (s : State) (keyMatches : Bool) : State :=
  let c := s.caddy
  let s := if c.takesCfg (c.cfg c.nextCfg) then s else logRejected s
  let key (slot : Nat) : State :=
    let s := s.updCaddy fun c => { c with mayReport := keyMatches, slotCfg := slot, nextCfg := slot }
    bootTo (if keyMatches then s else logEvent s .keyMismatch 4 (logSource 0 0) 255 0 0) 4
  if c.takesCfg (c.cfg c.nextCfg) then key c.nextCfg
  else if c.takesCfg (c.cfg (1 - c.nextCfg)) then key (1 - c.nextCfg)
  else bootStop (if (c.cfg (1 - c.nextCfg)).isSome then logRejected s else s)

/-- The configuration image in force. -/
def Caddy.image (c : Caddy) : ConfigImage := (c.cfg c.slotCfg).getD default

/-- Step 4 (R65): channels that fail are marked; failed symbol regions of the image apply. -/
def bootMemory (s : State) (failed : List Nat) : State :=
  bootTo (s.updCaddy fun c => { c with failedChannels := failed, failedRegions := c.image.body.failedRegions }) 5

/-- The lanes that a Hinge module is found to have lost while it trains: five for one that must retire. -/
def lanesLost (r : BringupResult) (n : Nat) : Nat := if r.retiredModules.contains n then 5 else r.repairedModules.count n

/-- Step 5 (R34, R45, R46, R59, R65): the Hinge trains with the repairs of the image, then the ports; lanes found to have failed are recorded, and
the switch assigns the module number. (in part DEDUCED, log entry 65) -/
def bootLinks (s : State) (r : BringupResult) : State :=
  let b := s.caddy.image.body
  let hinge := s.links.hinge.mapIdx fun n m => ({ m with state := 0, repaired := 0 } : HingeMod).repair (b.hingeRepairs.getD n 0 + lanesLost r n)
  let k := { s.links with hinge := hinge, ports := s.links.ports.mapIdx fun n l => if r.portsDown.contains n then 0 else l, modid := r.modid % 1024 }
  let s := ((List.range 40).filter fun n => decide (lanesLost r n ≠ 0)).foldl (fun s n => recordHinge s n (lanesLost r n)) s
  bootTo { s with links := r.cxlPorts.foldl (fun k p => k.cxlTrain p.1 p.2) k } 6

/-- The spare cores of a COREMAP (R59). -/
def sparesOf (m : List Nat) : Nat := m.count 0xFFFE

/-- Step 6 (R65): COREMAP and L2RET apply, SRAM and register files are clear, and the device time base starts at 0. -/
def bootMap (s : State) : State :=
  let i := s.caddy.image
  let s := s.updCaddy fun c => { c with spares0 := sparesOf i.coremap0, spares1 := sparesOf i.coremap1 }
  bootTo { s with
    disabledCores := i.body.disabled, l2ret0 := i.l2ret0, l2ret1 := i.l2ret1, time := { TimeBase.reset with adj := s.time.adj }, scratch := [], chip := [], sramPoison := [] } 7

/-- Step 7 (R64, R65): READY, and the minimum security version rises to that of the images that reached it. -/
def bootReady (s : State) : State :=
  s.updCaddy fun c =>
    let fw := ((c.fw c.slotFw).map FirmwareImage.svn).getD 0
    { c with ready := true, trialFw := false, failedBoots := 0, minSvn := max c.minSvn (max fw c.image.svn) }

/-- `BRINGUP_STEP_COMPLETE` (R65, R66): the step in progress ends. A step that ends while Caddy restarts after a mismatch counts (DESIGN CHOICE, log entry 66). -/
def execBringupStepComplete (r : BringupResult) (s : State) : Result := .next (
  if s.caddy.stopped || s.caddy.ready then s
  else match s.caddy.bootStep with
    | 1 => if r.ok then bootTo s 2 else s
    | 2 => if r.ok then bootFirmware s else bootStop s
    | 3 => if r.ok then bootConfig s r.keyMatches else bootStop s
    | 4 => bootMemory s r.failedChannels
    | 5 => bootLinks s r
    | 6 => if r.ok then bootMap s else bootStop s
    | 7 => bootReady s
    | _ => s)

/-! ## Errors of memory -/

/-- Adds to the count of a key. -/
def addCount (l : List (Nat × Nat × Nat)) (die k n : Nat) : List (Nat × Nat × Nat) :=
  let old := ((l.find? fun x => x.1 == die && x.2.1 == k).map fun x => x.2.2).getD 0
  (die, k, old + n) :: l.filter fun x => !(x.1 == die && x.2.1 == k)
/-- The count of a key. -/
def countOf (l : List (Nat × Nat × Nat)) (die k : Nat) : Nat := ((l.find? fun x => x.1 == die && x.2.1 == k).map fun x => x.2.2).getD 0

/-- Whether a count reaches the threshold of the image in force (R29, R346); a threshold of 0 acts as 1. (in part DEDUCED, log entry 68) -/
def reachesLimit (s : State) (n : Nat) : Bool := decide (max 1 s.config.body.threshold ≤ n)

/-- Corrected errors of a symbol region (R29, R60): at the threshold it is marked failed, logged and recorded. (in part DEDUCED, log entry 68) -/
def noteRegion (s : State) (die region n : Nat) : State :=
  let s := s.updCaddy fun c => { c with regionErrs := addCount c.regionErrs die region n }
  if s.caddy.failedRegions.contains (die, region) || !reachesLimit s (countOf s.caddy.regionErrs die region) then s
  else
    let s := s.updCaddy fun c => { c with failedRegions := c.failedRegions ++ [(die, region)] }
    let s := logEvent s .symbolRegion 2 (logSource die 3) 255 die region
    writeConfig s fun i => updBody i fun b => { b with failedRegions := b.failedRegions ++ [(die, region)] }

/-- The unit of a log record for a region of memory (R57); none for a region whose memory is no DRAM. -/
def Region.unit (r : Region) : Option Nat :=
  match r with
  | .gddr _ => some 3
  | .lpddr _ => some 4
  | .cxl _ => some 5
  | .chip _ | .cxlDown _ | .host | .outside => none

/-- A block of memory that holds more errors than its code corrects (R28): it is marked poisoned, and Caddy logs its address. -/
def noteBlock (s : State) (die b : Nat) : State :=
  match (regionOf s.links (64 * b)).unit with
  | some u =>
    let s := if s.poison.contains b then s else { s with poison := s.poison ++ [b] }
    logEvent s .poison 3 (logSource die u) 255 die (64 * b)
  | none => s

/-- The unit of a log record for an SRAM (R57). (in part DESIGN CHOICE, log entry 12) -/
def sramSource : SramUnit → Nat
  | .l2 d _ => logSource d 2
  | .scratchpad c => logSource (dieOfCore c) 1
  | .laneSlice c _ _ => logSource (dieOfCore c) 1
  | .chip d => logSource d 2

/-- The core of an SRAM, if it is a core's. -/
def sramCore : SramUnit → Option Nat
  | .scratchpad c => some c
  | .laneSlice c _ _ => some c
  | _ => none

/-- The place of a word of an SRAM. -/
def sramPlace (u : SramUnit) (a : Nat) : Place :=
  match u with
  | .l2 _ _ => .phys a
  | .scratchpad c => .sp c a
  | .laneSlice c t l => .slice c t l a
  | .chip d => .chip d a

/-- A word of an SRAM beyond correction (R188, R345): it reads as poison, and a core that holds it is to retire. (in part DEDUCED, log entry 68) -/
def noteWord (s : State) (u : SramUnit) (a : Nat) : State :=
  let w := (sramPlace u a).word
  let s := if s.sramPoison.contains w then s else { s with sramPoison := s.sramPoison ++ [w] }
  let s := logEvent s .poison 3 (sramSource u) 255 0 a
  match sramCore u with
  | some c => (List.range 16).foldl requestCuts (askRetire s c)
  | none => s

/-! ## Retirement -/

/-- A COREMAP in which a spare takes a logical index (R345). -/
def takeSpare (m : List Nat) (i : Nat) : List Nat :=
  let m := m.map fun x => if x = i then 0xFFFF else x
  match m.findIdx? (· == 0xFFFE) with
  | some k => m.set k i
  | none => m

/-- The spare cores left on a die. -/
def Caddy.spares (c : Caddy) (die : Nat) : Nat := if die = 0 then c.spares0 else c.spares1

/-- A core that has been vacated retires (R345): a spare takes its index, or it is disabled. (in part DEDUCED, log entry 68) -/
def retireCore (s : State) (core : Nat) : State :=
  let die := dieOfCore core
  let s := { s with retiring := s.retiring.filter (· != core) }
  let s :=
    if 0 < s.caddy.spares die then
      let s := clearCores s (· == core)
      let s := s.updCaddy fun c => if die = 0 then { c with spares0 := c.spares0 - 1 } else { c with spares1 := c.spares1 - 1 }
      writeConfig s fun i =>
        if die = 0 then { i with coremap0 := takeSpare i.coremap0 (core % 144) } else { i with coremap1 := takeSpare i.coremap1 (core % 144) }
    else
      let add (l : List Nat) : List Nat := if l.contains core then l else l ++ [core]
      writeConfig { s with disabledCores := add s.disabledCores } fun i => updBody i fun b => { b with disabled := add b.disabled }
  logEvent s .coreRetire 2 (logSource die 1) 255 core 0

/-- `CORE_RETIRE` (R345): every team on the core is asked to leave; the core retires once none stands on it. (in part DEDUCED, log entry 68) -/
def execCoreRetire (core : Nat) (s : State) : Result := .next (
  if 288 ≤ core || s.disabledCores.contains core then s
  else
    let s := askRetire s core
    if coreHeld s core then (List.range 16).foldl requestCuts s else retireCore s core)

/-- An L2 slice retires (R346): it leaves its partition's set, and L2RET of the next image gains it. (in part DEDUCED, log entry 68) -/
def retireSlice (s : State) (die slice : Nat) : State :=
  let bit := 2 ^ slice
  let (r0, r1) := if die = 0 then (bit, 0) else (0, bit)
  let s := { s with
    l2ret0 := s.l2ret0 ||| r0, l2ret1 := s.l2ret1 ||| r1
    parts := s.parts.map fun q => { q with setup := q.setup.without r0 r1, next := q.next.map fun u => u.without r0 r1 } }
  writeConfig s fun i => { i with l2ret0 := i.l2ret0 ||| r0, l2ret1 := i.l2ret1 ||| r1 }

/-- `L2_SLICE_RETIRE` (R346). -/
def execL2SliceRetire (die slice : Nat) (s : State) : Result := .next (if 2 ≤ die || 64 ≤ slice then s else retireSlice s die slice)

/-- Whether an L2 slice of a die has retired. -/
def sliceRetired (s : State) (die slice : Nat) : Bool := (if die = 0 then s.l2ret0 else s.l2ret1).testBit slice

/-- A corrected soft error (R188, R346): it is counted and logged with class 2, and an L2 slice whose count reaches the threshold retires. -/
def noteSoft (s : State) (u : SramUnit) : State :=
  let s := logEvent (s.updCaddy fun c => { c with softErrs := c.softErrs + 1 }) .softError 2 (sramSource u) 255 0 0
  match u with
  | .l2 die slice =>
    let s := s.updCaddy fun c => { c with sliceErrs := addCount c.sliceErrs die slice 1 }
    if 2 ≤ die || 64 ≤ slice || sliceRetired s die slice || !reachesLimit s (countOf s.caddy.sliceErrs die slice) then s
    else retireSlice s die slice
  | _ => s

/-- Whether the scrub period of a die has passed since its last scrub (R29). -/
def scrubDue (s : State) (die : Nat) : Bool := decide (s.caddy.lastScrub.getD die 0 + s.config.body.scrubPeriod ≤ s.time.now)

/-- The scrub of a die's GDDR7 (R29): once in a scrub period. -/
def scrubRegions (s : State) (die : Nat) (regions : List (Nat × Nat)) : State :=
  if scrubDue s die then
    regions.foldl (fun s x => noteRegion s die x.1 x.2) (s.updCaddy fun c => { c with lastScrub := c.lastScrub.set die s.time.now })
  else s

/-- `SCRUB_PERIOD` (R28, R29, R188): the errors that the controllers of a die and the codes of its SRAMs have found reach Caddy. (in part DEDUCED, log entry 68) -/
def execScrubPeriod (die : Nat) (r : ErrorReport) (s : State) : Result := .next (
  if 2 ≤ die then s
  else
    let s := r.blocks.foldl (fun s b => noteBlock s die b) (scrubRegions s die r.regions)
    r.words.foldl (fun s w => noteWord s w.1 w.2) (r.corrected.foldl noteSoft s))

/-! ## Power -/

/-- `POWER_FAIL` (R58): what Caddy had buffered does not reach the log; whether its first record was being written, which leaves that record
invalid, is a free value. (in part DESIGN CHOICE, log entry 69) -/
def execPowerFail (s : State) : Result := .next (
  let keep (c : Caddy) : List LogRec := match c.logBuf with
    | r :: _ => if Config.tornRecord s.fresh && c.running then putFlash c.flash { r with crcOk := false } else c.flash
    | [] => c.flash
  { (s.updCaddy fun c => { c with flash := keep c, logBuf := [] }) with powered := false })

end Sys2Proof.Machine
end

