-- ==== Sys2Proof/Machine/LaneCross.lean ====
section
/-!
DEFINITION. Movement across lanes (R387 to R393). Each acts within segments, among the Active lanes of one cohort.
-/
namespace Sys2Proof.Machine

/-! ## Segments -/

/-- First lane of the segment of lane `l` (R387). -/
def segBase (g : Group) (l : Nat) : Nat := l / g.width * g.width

/-- Position of lane `l` in its segment (R387). -/
def segPos (g : Group) (l : Nat) : Nat := l % g.width

/-- The members of the segment of lane `l`, ascending. -/
def segMembers (g : Group) (act : List Nat) (l : Nat) : List Nat :=
  ((List.range 32).filter fun k => act.contains k && segBase g k == segBase g l)

/-- An XCH instruction: each member's new lane and flags, from the group at issue and its members. Shader state refuses it (R277). -/
def crossCompute (s : State) (gd : Guard) (srcs dsts : List Named) (f : List Nat → LaneFn) : Result :=
  .next (laneIssue s gd ⟨srcs, dsts, false⟩ fun g act s' => applyLanes (f act) g act s')

/-! ## Shuffle and vote -/

/-- The source position that a member reads (R388); none where it lies outside the segment. -/
def shflSource (mode w i x : Nat) : Option Nat :=
  match mode with
  | 0 => some (x % w)
  | 1 => if x ≤ i then some (i - x) else none
  | 2 => if i + x < w then some (i + x) else none
  | _ => some (i ^^^ (x % w))

/-- `shfl` (R388): a member keeps its own value where the source is no member. -/
def effShfl (mode d a b : Nat) (act : List Nat) : LaneFn := fun g l x =>
  let from_ := match shflSource mode g.width (segPos g l) (srcV g l x b).toNat with
    | some j => if act.contains (segBase g l + j) then segBase g l + j else l
    | none => l
  (dstV g x d (srcV g from_ (g.lane from_) a), noFlags)

/-- `SHFL_IDX`. -/
def execShflIdx (gd : Guard) (d a b : Nat) (s : State) : Result := crossCompute s gd [.v a, .v b] [.v d] (effShfl 0 d a b)
/-- `SHFL_UP`. -/
def execShflUp (gd : Guard) (d a b : Nat) (s : State) : Result := crossCompute s gd [.v a, .v b] [.v d] (effShfl 1 d a b)
/-- `SHFL_DOWN`. -/
def execShflDown (gd : Guard) (d a b : Nat) (s : State) : Result := crossCompute s gd [.v a, .v b] [.v d] (effShfl 2 d a b)
/-- `SHFL_XOR`. -/
def execShflXor (gd : Guard) (d a b : Nat) (s : State) : Result := crossCompute s gd [.v a, .v b] [.v d] (effShfl 3 d a b)

/-- `vote.any` (R389). -/
def effVoteAny (d a : Nat) (act : List Nat) : LaneFn := fun g l x =>
  (setP x d ((segMembers g act l).any fun k => predP (g.lane k) a), noFlags)
/-- `VOTE_ANY`. -/
def execVoteAny (gd : Guard) (d a : Nat) (s : State) : Result := crossCompute s gd [] [] (effVoteAny d a)
/-- `vote.all` (R389), over members alone. -/
def effVoteAll (d a : Nat) (act : List Nat) : LaneFn := fun g l x =>
  (setP x d ((segMembers g act l).all fun k => predP (g.lane k) a), noFlags)
/-- `VOTE_ALL`. -/
def execVoteAll (gd : Guard) (d a : Nat) (s : State) : Result := crossCompute s gd [] [] (effVoteAll d a)
/-- `vote.ballot` (R389). -/
def effVoteBallot (d a : Nat) (act : List Nat) : LaneFn := fun g l x =>
  (dstV g x d (maskOf (((segMembers g act l).filter fun k => predP (g.lane k) a).map (segPos g))), noFlags)
/-- `VOTE_BALLOT`. -/
def execVoteBallot (gd : Guard) (d a : Nat) (s : State) : Result := crossCompute s gd [] [.v d] (effVoteBallot d a)

/-! ## Reduction and scan -/

/-- The integer operations of R390 by their FN. -/
def reduxOp (f : Nat) (a b : Word32) : Word32 :=
  match f with
  | 0 => a + b
  | 1 => minS 32 a b
  | 2 => maxS 32 a b
  | 3 => minN 32 a b
  | 4 => maxN 32 a b
  | 5 => a &&& b
  | 6 => a ||| b
  | _ => a ^^^ b

/-- A list combined from its head on; the empty list gives 0. -/
def combine {α : Type} (op : α → α → α) (zero : α) : List α → α
  | [] => zero
  | x :: rest => rest.foldl op x

/-- V(A) of some lanes. -/
def valuesOf (g : Group) (a : Nat) (ks : List Nat) : List Word32 := ks.map fun k => srcV g k (g.lane k) a

/-- `redux` on integers (R390). -/
def effReduxInt (f d a : Nat) (act : List Nat) : LaneFn := fun g l x =>
  (dstV g x d (combine (reduxOp f) 0 (valuesOf g a (segMembers g act l))), noFlags)
/-- `REDUX_INT`. -/
def execReduxInt (gd : Guard) (f d a : Nat) (s : State) : Result := crossCompute s gd [.v a] [.v d] (effReduxInt f d a)

/-- The canonical code of an FP32 code: a NaN becomes canonical (R376). (in part DEDUCED, log entry 23) -/
def canon32 (c : Nat) : Nat := code32 (decodeVal fmtFP32 c)

/-- Float `min` (FN 1) and `max` of some codes (R390). -/
def extremeF32 (f : Nat) (cs : List Nat) : Nat :=
  combine (if f = 1 then fMin fmtFP32 else fMax fmtFP32) 0 (cs.map canon32)

/-- The 32 leaves of R390: leaf k is V(A) of position k where it is a member, and absent otherwise. -/
def reduxLeaves (g : Group) (a : Nat) (act : List Nat) (l : Nat) : List (Option Val) :=
  (List.range 32).map fun k =>
    let m := segBase g l + k
    if k < g.width && act.contains m then some (decodeVal fmtFP32 (srcV g m (g.lane m) a).toNat) else none

/-- `redux` on floats (R390). (in part DEDUCED, log entry 23) -/
def effReduxF32 (f d a : Nat) (act : List Nat) : LaneFn := fun g l x =>
  if f = 0 then
    let (v, fl) := tree32 (reduxLeaves g a act l)
    (dstV g x d (BitVec.ofNat 32 (code32 (v.getD (.fin false 0 0)))), fl)
  else (dstV g x d (BitVec.ofNat 32 (extremeF32 f ((valuesOf g a (segMembers g act l)).map BitVec.toNat))), noFlags)
/-- `REDUX_F32`. -/
def execReduxF32 (gd : Guard) (f d a : Nat) (s : State) : Result := crossCompute s gd [.v a] [.v d] (effReduxF32 f d a)

/-- The members up to a lane's position. -/
def membersUpTo (g : Group) (act : List Nat) (l : Nat) : List Nat := (segMembers g act l).filter fun k => decide (k ≤ l)

/-- `scan` on integers (R391). -/
def effScanInt (f d a : Nat) (act : List Nat) : LaneFn := fun g l x =>
  (dstV g x d (combine (reduxOp f) 0 (valuesOf g a (membersUpTo g act l))), noFlags)
/-- `SCAN_INT`. -/
def execScanInt (gd : Guard) (f d a : Nat) (s : State) : Result := crossCompute s gd [.v a] [.v d] (effScanInt f d a)

/-- The sequential sum of some FP32 codes (R391, R246), with its flags. -/
def chainSum : List Nat → Val × FlagSet
  | [] => (.fin false 0 0, noFlags)
  | c :: rest => rest.foldl (fun acc y =>
      let (v, fl) := addRounded acc.1 (decodeVal fmtFP32 y)
      (v, orFlags acc.2 fl)) (decodeVal fmtFP32 c, noFlags)

/-- `scan` on floats (R391). (in part DEDUCED, log entry 23) -/
def effScanF32 (f d a : Nat) (act : List Nat) : LaneFn := fun g l x =>
  let cs := (valuesOf g a (membersUpTo g act l)).map BitVec.toNat
  if f = 0 then
    let (v, fl) := chainSum cs
    (dstV g x d (BitVec.ofNat 32 (code32 v)), fl)
  else (dstV g x d (BitVec.ofNat 32 (extremeF32 f cs)), noFlags)
/-- `SCAN_F32`. -/
def execScanF32 (gd : Guard) (f d a : Nat) (s : State) : Result := crossCompute s gd [.v a] [.v d] (effScanF32 f d a)

/-! ## Compress and expand -/

/-- The selected members of a lane's segment, ascending (R392). -/
def selectedOf (g : Group) (p : Nat) (act : List Nat) (l : Nat) : List Nat :=
  (segMembers g act l).filter fun k => predP (g.lane k) p

/-- `compress` (R392): position i of a member receives the value of the i-th selected lane. -/
def effCompress (d a p : Nat) (act : List Nat) : LaneFn := fun g l x =>
  let v : Word32 := match (selectedOf g p act l)[segPos g l]? with
    | some k => srcV g k (g.lane k) a
    | none => 0
  (dstV g x d v, noFlags)

/-- The counts that `compress` writes to GB0 (R392): one field of WLOG + 1 bits for each segment. -/
def compressCounts (g : Group) (p : Nat) (act : List Nat) : Word32 :=
  BitVec.ofNat 32 (((List.range (32 / g.width)).map fun sg =>
    (selectedOf g p act (sg * g.width)).length * 2 ^ (sg * (g.wlog + 1))).sum)

/-- `COMPRESS`. -/
def execCompress (gd : Guard) (d a b : Nat) (s : State) : Result :=
  .next (laneIssue s gd ⟨[.v a], [.v d], false⟩ fun g act s' =>
    (applyLanes (effCompress d a b act) g act s').updGroup s.issue.core s.issue.slot fun h => { h with gb0 := compressCounts g b act })

/-- `expand` (R393): the k-th selected member receives the value of position k where it is a member, and 0 otherwise. -/
def effExpand (d a p : Nat) (act : List Nat) : LaneFn := fun g l x =>
  let sel := selectedOf g p act l
  let k := segBase g l + (sel.filter fun m => decide (m < l)).length
  (dstV g x d (if sel.contains l && act.contains k then srcV g k (g.lane k) a else 0), noFlags)
/-- `EXPAND`. -/
def execExpand (gd : Guard) (d a b : Nat) (s : State) : Result := crossCompute s gd [.v a] [.v d] (effExpand d a b)

end Sys2Proof.Machine
end

