-- ==== Sys2Proof/Machine/RegRead.lean ====
section
/-!
DEFINITION. Reads of the register windows (R5, R73 to R77): the 64 bits that stand at each place. A place that holds no register, a reserved
bit and a write-only field read zero.
-/
namespace Sys2Proof.Machine

/-- Bits `lo` to `lo + n - 1` of a number. -/
def bitsAt (v lo n : Nat) : Nat := v / 2 ^ lo % 2 ^ n

/-- A flag as bit `n` of a number. -/
def flagAt (b : Bool) (n : Nat) : Nat := if b then 2 ^ n else 0

/-- The eight one-byte entries from `i` on (R74). -/
def entryBytes (l : List Nat) (i : Nat) : Nat := ((l.drop i).take 8).foldr (fun b v => b + 256 * v) 0

/-- An area register as a number (R149). -/
def AreaReg.num (a : AreaReg) : Nat := a.base + a.log2

/-! ## Partition registers -/

/-- STATE of `HIF_PSTAT` (R85). -/
def PartState.code : PartState → Nat
  | .free => 0
  | .busy => 1
  | .active => 2
  | .resetting => 3

/-- `HIF_PSTAT` of a partition (R85). -/
def Partition.pstat (q : Partition) : Nat := q.state.code + flagAt q.done 2 + q.err % 16 * 16 + flagAt q.flrpend 8

/-- The number of quads in a mask of 36. -/
def quadsIn (m : Nat) : Nat := ((List.range 36).filter fun i => m.testBit i).length

/-- `HIF_PINFO` (R77). -/
def Partition.pinfo (q : Partition) : Nat :=
  q.num % 16 + quadsIn q.setup.qmask0 * 2 ^ 4 + quadsIn q.setup.qmask1 * 2 ^ 10 + if q.exists_ then q.setup.nstream % 512 * 2 ^ 16 else 0

/-- `HIF_FBCTL` (R92). -/
def Partition.fbctl (q : Partition) : Nat := q.fbThresh + flagAt q.nptrap 18 + flagAt q.fbOvf 19

/-- The partition control page (R76). -/
def readControl (q : Partition) (place : Nat) : Nat :=
  if place = 0x00 then q.pinfo
  else if place = 0x08 then q.fbHead
  else if place = 0x10 then q.fbTail
  else if place = 0x18 then q.fbctl
  else if place = 0x30 then flagAt (!q.tlbPend.isEmpty) 0
  else if place = 0x38 then q.screenBandw.written + 16 * q.screenHalod.written
  else if 0x100 ≤ place && place < 0x128 then bitsAt q.istat (8 * (place - 0x100)) 64
  else if 0x800 ≤ place && place < 0x908 then entryBytes q.ivmap (place - 0x800)
  else 0

/-- The `MEM_` page of a partition (R199). -/
def readMem (q : Partition) (off : Nat) : Nat :=
  match off with
  | 0x00 => q.rf.area.num
  | 0x08 => q.rf.head
  | 0x10 => q.rf.tail
  | 0x18 => q.rf.thresh + flagAt q.rf.ovf 18 + flagAt q.rf.touchen 19
  | _ => 0

/-- `SCH_PCTL` (R149). -/
def SchRegs.pctl (r : SchRegs) : Nat := flagAt r.preen 0 + flagAt r.migen 1 + flagAt r.odrovf 2 + flagAt r.oversub 3 + 256 * r.migidle

/-- `SCH_METER` of a class (R143, R149). -/
def Meter.num (m : Meter) : Nat := m.used % 2 ^ 63 + flagAt m.held 63

/-- The `SCH_` page of a partition (R149). -/
def readSch (q : Partition) (off : Nat) : Nat :=
  let r := q.sch
  match off with
  | 0x00 => r.pctl
  | 0x08 => r.ctx.num
  | 0x10 => r.odr.num
  | 0x18 => r.odrHead
  | 0x20 => r.odrTail
  | 0x30 => r.peState + 16 * (r.vacated % 256)
  | 0x38 => r.ls.num
  | _ => if 0x40 ≤ off && off < 0x70 then (r.meters.getD ((off - 0x40) / 8) ⟨0, false⟩).num else 0

/-- `L2_PXGEOM` (R286). -/
def PixelRegs.geom (r : PixelRegs) : Nat := r.bpp + 2 ^ 16 * r.tcols + 2 ^ 32 * r.trows

/-- The `L2_` and `RES_` page of a partition (R286, R301). -/
def readL2 (q : Partition) (off : Nat) : Nat :=
  match off with
  | 0x00 => q.px.base
  | 0x08 => q.px.geom
  | 0x10 => q.px.ord
  | 0x18 => q.px.stat
  | 0x40 => q.res.back0
  | 0x48 => q.res.back1
  | 0x50 => q.res.geom.written
  | 0x58 => q.res.frame0 + 2 ^ 32 * q.res.phase0
  | 0x60 => q.res.frame1 + 2 ^ 32 * q.res.phase1
  | _ => 0

/-- `CORE_BLEND` (R451). -/
def Partition.blend (q : Partition) : Nat := q.blendWin + 4096 * q.blendMaxg

/-- STATE of `CMD_STAT` (R98). -/
def FeState.code : FeState → Nat
  | .disabled | .idle => 0
  | .reading => 1
  | .waiting => 2
  | .halted => 3

/-- `CMD_QCTL` (R97). -/
def Stream.qctl (x : Stream) : Nat := x.qlog2 + flagAt x.en 4 + flagAt x.mtail 5

/-- A stream page (R96). -/
def readStream (x : Stream) (off : Nat) : Nat :=
  match off with
  | 0x00 => x.qbase
  | 0x08 => x.qctl
  | 0x10 => x.head
  | 0x18 => x.tail
  | 0x20 => x.tailaddr
  | 0x28 => x.erraddr
  | 0x30 => x.state.code + 256 * (x.ecode % 256)
  | _ => 0

/-- One half of an MSI-X table entry (R75). -/
def MsixEntry.half (e : MsixEntry) (high : Bool) : Nat := if high then e.data + flagAt e.masked 32 else e.addr

/-! ## Strainers -/

/-- The commands of a Strainer, those that run first. -/
def strainCmds (s : State) (n : Nat) : List EngCmd :=
  let l := s.eng.cmds.filter fun c => c.kind == .strainer && c.engine == n
  l.filter EngCmd.started ++ l.filter fun c => !c.started

/-- The pixels of a pass that are not yet computed (R322). -/
def EngCmd.left (c : EngCmd) : Nat :=
  match c.body with
  | .strainer j => j.pixels.length
  | _ => 0

/-- Whether a Strainer waits on a fault (R91, R310): of a chain, a command, or a visibility ray. -/
def strainFaulted (s : State) (n : Nat) : Bool :=
  (s.eng.chains.any fun c => c.kind == .strainer && c.engine == n && c.paused.isSome) || (strainCmds s n).any fun c => c.paused.isSome ||
    s.render.rays.any fun r => r.owner == .strainer c.id && (match r.state with
      | .faulted _ => true
      | _ => false)

/-- `STN_STAT` of a Strainer (R322): where several blocks have been taken, the running block is the first that has started. (in part DEDUCED, log entry 73) -/
def stnStat (s : State) (n : Nat) : Nat :=
  let run := (strainCmds s n).head?
  let held := run.any fun c => meterHeld s c.part 3
  (s.eng.chains.filter fun c => c.kind == .strainer && c.engine == n && c.attached).length % 32 + flagAt run.isSome 5 +
    flagAt (strainFaulted s n || held) 6 + (run.map EngCmd.part).getD 0 % 16 * 2 ^ 8 + (run.map EngCmd.left).getD 0 % 8192 * 2 ^ 16

/-! ## Registers of the module -/

/-- `HIF_LINKSTAT` (R68). -/
def Links.stat (k : Links) : Nat := k.width % 32 + k.rate % 8 * 32 + flagAt k.downev 8

/-- The `HIF_` global registers (R74, R79, R84, R85). -/
def readHif (s : State) (place : Nat) : Nat :=
  if place = 0x00 then s.pf.prec
  else if place = 0x10 then s.links.stat
  else if 0x100 ≤ place && place < 0x180 then (s.part ((place - 0x100) / 8)).pstat
  else if place = 0x300 then s.pf.istat
  else if 0x400 ≤ place && place < 0x440 then entryBytes s.pf.ivmap (place - 0x400)
  else 0

/-- `PKG_THERM` (R53). -/
def Thermal.reg (t : Thermal) : Nat := t.temp % 256 + t.sensor % 256 * 2 ^ 8 + t.state % 4 * 2 ^ 16 + t.clock % 256 * 2 ^ 24

/-- `PKG_PWRCAP` (R54). -/
def Thermal.pwrcap (t : Thermal) : Nat := t.cap % 4096 + t.meas % 4096 * 2 ^ 16

/-- The `PKG_` and `TIM_` registers (R45 to R54). -/
def readPkg (s : State) (place : Nat) : Nat :=
  match place with
  | 0x00 => s.links.modid % 1024
  | 0x08 => s.therm.reg
  | 0x10 => s.therm.pwrcap
  | 0x100 => s.time.now
  | 0x108 => (s.time.adj % 4294967296).toNat
  | 0x118 => s.time.pps
  | 0x120 => flagAt s.time.ppsv 0
  | _ => 0

/-- `CAD_BOOTSTAT` (R66). -/
def Caddy.bootstat (c : Caddy) : Nat :=
  c.bootStep % 16 + flagAt c.ready 4 + flagAt c.stopped 5 + c.slotFw % 2 * 2 ^ 6 + c.slotCfg % 2 * 2 ^ 7 + c.spares0 % 16 * 2 ^ 16 +
    c.spares1 % 16 * 2 ^ 20

/-- `CAD_SENSOR`n (R56). -/
def sensorReg (t : Thermal) (n : Nat) : Nat :=
  match t.sensors.find? fun x => x.n == n with
  | some x => x.value % 65536 + x.kind % 256 * 2 ^ 16 + flagAt x.valid 31
  | none => 0

/-- The `CAD_` registers and the log window (R56 to R58, R66). -/
def readCad (s : State) (place : Nat) : Nat :=
  if place = 0x00 then s.caddy.bootstat
  else if place = 0x08 then s.caddy.logSeq
  else if place = 0x10 then s.caddy.logDrop
  else if 0x100 ≤ place && place < 0x300 then sensorReg s.therm ((place - 0x100) / 4) + 2 ^ 32 * sensorReg s.therm ((place - 0x100) / 4 + 1)
  else if 0x8000 ≤ place && place < 0xC000 then
    numOfBytes (((logWindow s.caddy ((place - 0x8000) / 64)).drop (place % 64)).take 8)
  else 0

/-- `HNG_MODSTAT` of a module (R35). -/
def HingeMod.stat (m : HingeMod) : Nat := m.state % 4 + m.repaired % 256 * 2 ^ 8 + m.crcerr % 256 * 2 ^ 16

/-- The `HNG_` registers (R35, R42). -/
def readHng (s : State) (place : Nat) : Nat :=
  if place < 320 then (s.links.hinge.getD (place / 8) ⟨0, 0, 0⟩).stat
  else if place = 0x200 then s.links.halodrop
  else 0

/-! ## Windows -/

/-- The partition page of a block with a page of 256 bytes for each (R149, R199, R286, R451). -/
def partPage (off : Nat) : Option (Nat × Nat) :=
  if 0x1000 ≤ off && off < 0x2000 then some ((off - 0x1000) / 0x100, off % 0x100) else none

/-- A place in the window of the physical function (R73). -/
def readPfWindow (s : State) (place : Nat) : Nat :=
  let o := place % 0x100000
  let paged (f : Partition → Nat → Nat) : Nat := match partPage o with
    | some (p, off) => f (s.part p) off
    | none => 0
  match place / 0x100000 with
  | 0 => readHif s o
  | 1 => readControl (s.part (o / 0x10000)) (o % 0x10000)
  | 2 => readPkg s o
  | 3 => readCad s o
  | 4 => readHng s o
  | 5 => paged readMem
  | 6 => paged readSch
  | 7 => paged readL2
  | 8 => if o < 576 then stnStat s (o / 8) else 0
  | 9 => paged fun q off => if off = 0 then q.blend else 0
  | _ => 0

/-- A place in the window of a partition function (R75). -/
def readPartWindow (s : State) (p place : Nat) : Nat :=
  let q := s.part p
  if place < 0x10000 then readControl q place
  else if place < 0x10200 then (q.msix.getD ((place - 0x10000) / 16) ⟨0, 0, true⟩).half (place % 16 = 8)
  else if place = 0x18000 then q.msixPend
  else if 0x100000 ≤ place && place < 0x200000 then
    match s.stream? p ((place - 0x100000) / 0x1000) with
    | some x => readStream x (place % 0x1000)
    | none => 0
  else 0

/-- What an access reads at an offset (R77): the half or the whole of the place, and zero for any other width or alignment. -/
def readRegister (s : State) (fn : RegFn) (off width : Nat) : Nat :=
  let v := match fn with
    | .pf => readPfWindow s (off / 8 * 8)
    | .part p => readPartWindow s p (off / 8 * 8)
  if width = 64 && off % 8 = 0 then v % 2 ^ 64
  else if width = 32 && off % 4 = 0 then bitsAt v (8 * (off % 8)) 32
  else 0

end Sys2Proof.Machine
end

