-- ==== Sys2Proof/Machine/Replay.lean ====
section
/-!
DEFINITION. Replay of work that waits on a translation fault (R93, R324, R341), and the invalidation of TLB entries (R94).
-/
namespace Sys2Proof.Machine

/-! ## Which work -/

/-- What a replay names: every unit that is parked, or one token. -/
abbrev ReplayName := Option Nat

/-- Whether a replay names a unit that waits with a token. -/
def named (n : ReplayName) (token : Nat) : Bool :=
  match n with
  | none => true
  | some t => decide (t = token) && decide (t ≠ 0)

/-- Whether a replay names a parked lane (R93): by one of its records. (in part DEDUCED, log entry 63) -/
def Park.named (k : Park) (n : ReplayName) : Bool := (k.token :: k.more).any (Machine.named n)

/-- Whether a replay names a pause. -/
def Pause.named (k : Option Pause) (n : ReplayName) : Bool :=
  match k with
  | some x => Machine.named n x.token
  | none => false

/-! ## Lanes -/

/-- Whether a replay names a lane. -/
def Lane.named (x : Lane) (n : ReplayName) : Bool :=
  match x.parked with
  | some k => k.named n
  | none => false

/-- Whether a group's team is saved. -/
def Group.saved (g : Group) : Bool := decide (savedBase ≤ g.core)

/-- A lane of a saved team is marked released, in the way that the replay asks (R341). -/
def Lane.release (x : Lane) (r : Release) : Lane := { x with parked := x.parked.map fun k => { k with released := r } }

/-- Notes a release of some lanes in the image of a saved team: PARKTOK, and RELEASED in their records (R340). (in part DEDUCED, log entry 63) -/
def noteRelease (s : State) (g : Group) (ls : List Nat) : State :=
  match s.team? g.team with
  | none => s
  | some t =>
    let v := t.parktok ||| 2 ^ g.index
    let gs := s.groupsOf t.id
    let s := s.updTeam t.id fun t => { t with parktok := v }
    match s.image? t.id with
    | some i =>
      let at_ (l : Nat) : Nat := i.addr + laneRecordAt g.core g.slot l 4096 gs + 41
      { s with mem := ls.foldl (fun m l => m.write (at_ l) (m.read (at_ l) ||| 4#8)) (s.mem.writeBytes (i.addr + 40) (bytesOfNum 8 v)) }
    | none => s

/-- Releases the lanes of a saved group that a replay names. (in part DEDUCED, log entry 63) -/
def releaseGroup (s : State) (g : Group) (n : ReplayName) (r : Release) : State :=
  if g.lanes.any fun x => x.named n then
    noteRelease (s.updGroup g.core g.slot fun g =>
      { g with lanes := g.lanes.map fun x => if x.named n then x.release r else x }) g
        ((List.range 32).filter fun l => (g.lane l).named n)
  else s

/-- Replays the lanes of a group that a replay names (R93, R325), or notes it for a saved one (R341). (in part DEDUCED, log entry 63) -/
def replayGroup (n : ReplayName) (s : State) (g : Group) : State :=
  if g.saved then releaseGroup s g n .replay
  else ((List.range 32).filter fun l => (g.lane l).named n).foldl (fun s l => replayLane s g.core g.slot l) s

/-- Ends the work of a token in the lanes of a group (R324), or notes it for a saved one. -/
def endGroupWork (token : Nat) (s : State) (g : Group) : State :=
  if g.saved then releaseGroup s g (some token) .unrecoverable
  else unrecoverable s g.core g.slot fun k => k.named (some token)

/-! ## Replay -/

/-- Replays the engines and units of a partition that a replay names: each makes its access again. -/
def replayUnits (s : State) (p : Nat) (n : ReplayName) : State :=
  let go (k : Option Pause) : Option Pause := if Pause.named k n then none else k
  let ray (r : RaySlot) : RaySlot := match r.state with
    | .faulted k => if r.part = p && named n k.token then { r with state := .walk } else r
    | _ => r
  let march (m : MarchSlot) : MarchSlot := match m.state with
    | .faulted k => if m.part = p && named n k.token then { m with state := .run } else m
    | _ => m
  { s with
    eng := { s.eng with
        chains := s.eng.chains.map fun c => if c.part = p then { c with paused := go c.paused } else c
        cmds := s.eng.cmds.map fun c => if c.part = p then { c with paused := go c.paused } else c }
    render := { s.render with
      rays := s.render.rays.map ray
      marches := s.render.marches.map march
      jobs := s.render.jobs.map fun j => if j.part = p then { j with paused := go j.paused } else j } }

/-- The groups of a partition, saved or not. -/
def groupsIn (s : State) (p : Nat) : List Group := s.groups.filter fun g => s.partOf g == p

/-- A replay of a partition (R93). -/
def replay (s : State) (p : Nat) (n : ReplayName) : State := replayUnits ((groupsIn s p).foldl (replayGroup n) s) p n

/-- `FLTREPLAY_ALL` (R93): mode 0. -/
def execFltreplayAll (p : Nat) (s : State) : Result := .next (replay s p none)

/-- `FLTREPLAY_TOKEN` (R93): mode 1. -/
def execFltreplayToken (p token : Nat) (s : State) : Result := .next (replay s p (some token))

/-! ## Mode 2 -/

/-- A chain whose work is ended halts with code FAULT (R93, R122). -/
def endChain (s : State) (c : Chain) : State :=
  let at_ := if c.loaded then c.head else c.desc
  haltChain (dropArrived s c.id) c.id errFault 0 at_ []

/-- The candidate under work when a Strainer paused on a load of its callable (R93, R315): the pause does not lie in the pixel's record of
the G-buffer. (in part DEDUCED, log entry 49) -/
def pausedInCallable (c : EngCmd) : Option (StrainJob × PixelWork) :=
  match c.body, c.paused with
  | .strainer j, some k => match j.work with
    | some w =>
      let g := j.gbuf + pixelNumber j.screen (w.pix % 65536) (w.pix / 65536) * j.gstr
      if w.pos < w.cands.length && !(decide (g ≤ k.addr) && decide (k.addr < g + j.gstr)) then some (j, w) else none
    | none => none
  | _, _ => none

/-- The work of a command is ended (R93): a candidate of a Strainer fails with CALLERR, and other work fails with code FAULT. -/
def endCmd (s : State) (c : EngCmd) : State :=
  let s := dropArrived s c.id
  match pausedInCallable c with
  | some (j, w) => setWork (s.updCmd c.id fun c => { c with paused := none }) c j (w.next (w.rcd.setFlag 4))
  | none => failBlock s c errFault 0

/-- A ray slot in FAULTED is ended (R93): NODEERR, the cause in FLAGS, and the best hit it has committed. -/
def endRay (s : State) (r : RaySlot) (cause : Nat) : State := (dropArrived s r.id).updRay r.id fun _ => r.nodeErr cause

/-- A march slot is ended (R93): an END event with NODEERR and the cause. -/
def endMarchWork (s : State) (m : MarchSlot) (cause : Nat) : State := endMarch (dropArrived s m.id) m (2 ^ flagNodeerr + 16777216 * cause)

/-- Ends each element of a list that is still there. -/
def eachLive {α : Type} (ids : List Nat) (find : State → Nat → Option α) (act : State → α → State) (s : State) : State :=
  ids.foldl (fun s i => match find s i with
    | some x => act s x
    | none => s) s

/-- The units of a partition that wait with a token end (R93, mode 2). -/
def endUnits (s : State) (p token : Nat) : State :=
  let n : ReplayName := some token
  let jobs := (s.render.jobs.filter fun j => j.part == p && Pause.named j.paused n).map MatrixJob.id
  let cmds := (s.eng.cmds.filter fun c => c.part == p && Pause.named c.paused n).map EngCmd.id
  let chains := (s.eng.chains.filter fun c => c.part == p && Pause.named c.paused n).map Chain.id
  let s := eachLive jobs (fun s i => s.render.jobs.find? fun j => j.id == i) (fun s j => endJob s j errFault 0) s
  let s := eachLive cmds State.cmd? endCmd s
  let s := eachLive chains State.chain? endChain s
  let s := (s.render.rays.filter fun r => r.part == p).foldl (fun s r => match r.state with
    | .faulted k => if named n k.token then endRay s r k.cause else s
    | _ => s) s
  (s.render.marches.filter fun m => m.part == p).foldl (fun s m => match m.state with
    | .faulted k => if named n k.token then endMarchWork s m k.cause else s
    | _ => s) s

/-- Mode 2 (R93): the work of a token ends. -/
def endWork (s : State) (p token : Nat) : State :=
  if token = 0 then s else endUnits ((groupsIn s p).foldl (endGroupWork token) s) p token

/-- `FLTREPLAY_UNRECOVERABLE` (R93, R324). (in part DEDUCED, log entry 63) -/
def execFltreplayUnrecoverable (p token : Nat) (s : State) : Result := .next (endWork s p token)

/-- A write of `HIF_FLTREPLAY` (R93). -/
def writeReplay (s : State) (p v : Nat) : State :=
  match v % 4 with
  | 0 => replay s p none
  | 1 => replay s p (some (v / 4294967296))
  | 2 => endWork s p (v / 4294967296)
  | _ => s

/-! ## Invalidation -/

/-- Whether an invalidation names a TLB entry (R94): every entry, or the page that contains an address. -/
def TlbInv.names (i : TlbInv) (t : TlbEntry) : Bool :=
  match i with
  | .all => true
  | .page va => decide (t.vbase ≤ va) && decide (va < t.vbase + t.size)

/-- Queues an invalidation, with the identifiers given out before it (R94): PEND reads 1 while one is left. -/
def askInvalidate (s : State) (p : Nat) (i : TlbInv) : State := s.updPart p fun q => { q with tlbPend := q.tlbPend ++ [(i, s.fresh)] }

/-- Whether a walk or an access of a partition that began before an identifier is not done yet (R94, R195): it may have been translated
through an entry that is dropped. (in part DEDUCED, log entry 63) -/
def oldAccesses (s : State) (p since : Nat) : Bool :=
  (s.ms.walks.any fun w => w.part == p && decide (w.id < since)) || (s.ms.sb.any fun e => e.part == p && decide (e.id < since)) ||
    (s.ms.flights.any fun f => f.part == p && decide (f.id < since) && decide (f.stage ≠ .performed) && decide (f.stage ≠ .answer)) ||
    (s.render.pixels.any fun x => x.part == p && decide (x.id < since))

/-- The virtual address of a page invalidation: bits [63:16]. -/
def invPage (v : Nat) : Nat := v / 65536 * 65536

/-- A write of `HIF_TLBINV` (R94). -/
def writeTlbInv (s : State) (p v : Nat) : State :=
  match v % 4 with
  | 0 => askInvalidate s p .all
  | 1 => askInvalidate s p (.page (invPage v))
  | _ => s

/-- `TLBINV_ALL` (R94). -/
def execTlbinvAll (p : Nat) (s : State) : Result := .next (askInvalidate s p .all)
/-- `TLBINV_PAGE` (R94). -/
def execTlbinvPage (p va : Nat) (s : State) : Result := .next (askInvalidate s p (.page (invPage va)))

/-- Drops the TLB entries of a partition that an invalidation names (R94). -/
def dropEntries (s : State) (p : Nat) (i : TlbInv) : State :=
  { s with ms := { s.ms with tlb := s.ms.tlb.filter fun t => !(t.part == p && i.names t) } }

/-- `TLBINV_COMPLETE` (R94, R195): both dies drop the entries of the oldest invalidation, which is complete once the walks and accesses that
began before it are done. -/
def execTlbinvComplete (p : Nat) (s : State) : Result := .next (match (s.part p).tlbPend with
  | [] => s
  | (i, since) :: rest =>
    let s := dropEntries s p i
    if oldAccesses s p since then s else s.updPart p fun q => { q with tlbPend := rest })

end Sys2Proof.Machine
end

