-- ==== Sys2Proof/Machine/Registers.lean ====
section
/-!
DEFINITION. Accesses to the register windows (R73 to R79): which register an offset names, which bits a write changes, and what it does.
-/
namespace Sys2Proof.Machine

/-! ## One write -/

/-- A write to the eight bytes at `place`: the bits it writes, the value in their places, and whether it is of 64 bits. -/
structure RegWrite where
  place : Nat
  mask : Nat
  val : Nat
  whole : Bool
  deriving DecidableEq, Repr

/-- The write of an aligned 32-bit or 64-bit access (R77); any other is ignored. -/
def regWrite (off width v : Nat) : Option RegWrite :=
  if width = 64 && off % 8 = 0 then some ⟨off, 2 ^ 64 - 1, v % 2 ^ 64, true⟩
  else if width = 32 && off % 4 = 0 then
    let sh := if off % 8 = 4 then 2 ^ 32 else 1
    some ⟨off / 8 * 8, (2 ^ 32 - 1) * sh, v % 2 ^ 32 * sh, false⟩
  else none

/-- The bits of `a` that are not in `m`. -/
def andNot (a m : Nat) : Nat := a ^^^ (a &&& m)

/-- A register of which a write changes the writable bits of its half (R77). -/
def RegWrite.merge (w : RegWrite) (old writable : Nat) : Nat := andNot old (w.mask &&& writable) ||| (w.val &&& writable)

/-- The bits that a write sets to 1. -/
def RegWrite.ones (w : RegWrite) : Nat := w.val &&& w.mask

/-- A register that is cleared by ones (W1C). -/
def RegWrite.clear (w : RegWrite) (old : Nat) : Nat := andNot old w.ones

/-- Whether a write reaches the low half. -/
def RegWrite.low (w : RegWrite) : Bool := decide (w.mask % 2 ^ 32 ≠ 0)

/-- The bytes that a write reaches, as an index from `place` and a value. -/
def RegWrite.bytes (w : RegWrite) : List (Nat × Nat) :=
  ((List.range 8).filter fun i => w.mask.testBit (8 * i)).map fun i => (i, bitsAt w.val (8 * i) 8)

/-! ## Interrupt maps and MSI-X -/

/-- A written entry of `HIF_IVMAP` (R78): its reserved bits stay zero. -/
def ivEntry (v : Nat) : Nat := v % 32 + v / 128 % 2 * 128

/-- A written entry of `HIF_PFIVMAP` (R79): a VEC of 16 to 31 leaves the VEC. -/
def pfivEntry (old v : Nat) : Nat := (if 16 ≤ v % 32 then old % 32 else v % 32) + v / 128 % 2 * 128

/-- Writes an entry of `HIF_PFIVMAP`. -/
def writePfivmap (s : State) (n v : Nat) : State := { s with pf := { s.pf with ivmap := s.pf.ivmap.modify n fun old => pfivEntry old v } }
/-- `PFIVMAP_WRITE`. -/
def execPfivmapWrite (n v : Nat) (s : State) : Result := .next (writePfivmap s n v)

/-- Writes an entry of `HIF_IVMAP`. -/
def writeIvmap (s : State) (p n v : Nat) : State := s.updPart p fun q => { q with ivmap := q.ivmap.set n (ivEntry v) }

/-- An MSI-X table entry after a write to one of its two 8-byte halves (R75): address, or data and the mask bit. -/
def MsixEntry.write (e : MsixEntry) (w : RegWrite) : MsixEntry :=
  if w.place % 16 = 0 then { e with addr := w.merge e.addr (2 ^ 64 - 4) }
  else
    let x := w.merge (e.half true) (2 ^ 33 - 1)
    { e with data := x % 2 ^ 32, masked := x.testBit 32 }

/-- A write to the MSI-X table of a partition function; a vector that is unmasked while its message is pending sends it. (in part PRESUMED, log entry 7) -/
def writeMsix (s : State) (p : Nat) (w : RegWrite) (n : Nat) : State :=
  let s := s.updPart p fun q => { q with msix := q.msix.modify n fun e => e.write w }
  let q := s.part p
  if q.msixPend.testBit n && !(q.msix.getD n ⟨0, 0, true⟩).masked then
    (s.updPart p fun q => { q with msixPend := andNot q.msixPend (2 ^ n) }).send (.msix (.part p) n)
  else s

/-! ## Partition registers -/

/-- A write of `PKG_SCREEN` (R41): a refused field keeps its value. -/
def Partition.putScreen (q : Partition) (v : Nat) : Partition :=
  let b := v % 8
  let h := v / 16 % 4
  { q with
    screenBandw := if 1 ≤ b && b ≤ 4 then { q.screenBandw with written := b } else q.screenBandw
    screenHalod := if h < 3 then { q.screenHalod with written := h } else q.screenHalod }
/-- `PKG_SCREEN_WRITE`. -/
def execPkgScreenWrite (p v : Nat) (s : State) : Result := .next (s.updPart p fun q => q.putScreen v)

/-- The writable bits of `RES_GEOM` (R301). -/
def geomBits : Nat := 0x07FF07FF

/-- A write of `RES_GEOM` (R301): it takes effect at the next advance of each die. -/
def Partition.putGeom (q : Partition) (v : Nat) : Partition :=
  { q with res := { q.res with geom := { q.res.geom with written := v &&& geomBits } } }
/-- `RES_GEOM_WRITE`. -/
def execResGeomWrite (p v : Nat) (s : State) : Result := .next (s.updPart p fun q => q.putGeom v)

/-- A write of `HIF_FBCTL` (R92). (in part DESIGN CHOICE, log entry 60) -/
def Partition.putFbctl (q : Partition) (w : RegWrite) : Partition :=
  let v := w.merge q.fbctl (2 ^ 19 - 1)
  { q with fbThresh := v % 2 ^ 18, nptrap := v.testBit 18, fbOvf := q.fbOvf && !w.ones.testBit 19 }

/-- A write to the partition control page (R76). -/
def writeControl (s : State) (p : Nat) (w : RegWrite) : State :=
  let q := s.part p
  if w.place = 0x08 then writeFbHead s p (w.merge q.fbHead (2 ^ 18 - 1))
  else if w.place = 0x18 then s.updPart p fun q => q.putFbctl w
  else if w.place = 0x20 then (if w.whole then writeReplay s p w.val else s)
  else if w.place = 0x28 then (if w.whole then writeTlbInv s p w.val else s)
  else if w.place = 0x38 then
    (if w.low then s.updPart p fun q => q.putScreen w.val else s)
  else if 0x100 ≤ w.place && w.place < 0x128 then
    s.updPart p fun q => { q with istat := andNot q.istat (w.ones * 2 ^ (8 * (w.place - 0x100))) }
  else if 0x800 ≤ w.place && w.place < 0x908 then
    w.bytes.foldl (fun s b => writeIvmap s p (w.place - 0x800 + b.1) b.2) s
  else s

/-- A write of `SCH_PCTL` (R149). -/
def SchRegs.putPctl (r : SchRegs) (w : RegWrite) : SchRegs :=
  let v := w.merge r.pctl 0xFF03
  { r with
    preen := v.testBit 0, migen := v.testBit 1, migidle := v / 256 % 256, odrovf := r.odrovf && !w.ones.testBit 2
    oversub := r.oversub && !w.ones.testBit 3 }

/-- The writable bits of an area register (R149). -/
def areaBits : Nat := 2 ^ 64 - 4096 + 63

/-- A write to a partition's page of the `SCH_` block (R149). -/
def writeSch (s : State) (p off : Nat) (w : RegWrite) : State :=
  let r := (s.part p).sch
  match off with
  | 0x00 => s.updPart p fun q => { q with sch := q.sch.putPctl w }
  | 0x08 => writeArea s p 0 (w.merge r.ctx.num areaBits)
  | 0x10 => writeArea s p 1 (w.merge r.odr.num areaBits)
  | 0x18 => writeOdrHead s p (w.merge r.odrHead (2 ^ 19 - 1))
  | 0x28 => if w.low then writePreempt s p w.val else s
  | 0x38 => writeArea s p 2 (w.merge r.ls.num areaBits)
  | _ => s

/-- A write of `MEM_RFCTL` (R199). (in part DESIGN CHOICE, log entry 60) -/
def ResFeed.putCtl (r : ResFeed) (w : RegWrite) : ResFeed :=
  let v := w.merge (r.thresh + if r.touchen then 2 ^ 19 else 0) (2 ^ 18 - 1 + 2 ^ 19)
  { r with thresh := v % 2 ^ 18, touchen := v.testBit 19, ovf := r.ovf && !w.ones.testBit 18 }

/-- A write to a partition's page of the `MEM_` block (R199). -/
def writeMem (s : State) (p off : Nat) (w : RegWrite) : State :=
  let r := (s.part p).rf
  match off with
  | 0x00 => writeRfArea s p (w.merge r.area.num areaBits)
  | 0x08 => writeRfHead s p (w.merge r.head (2 ^ 19 - 1))
  | 0x18 => s.updPart p fun q => { q with rf := q.rf.putCtl w }
  | _ => s

/-- A write of `L2_PXGEOM` (R286): BPP of 5 to 7 leaves the field. -/
def PixelRegs.putGeom (r : PixelRegs) (w : RegWrite) : PixelRegs :=
  let v := w.merge r.geom (7 + (2 ^ 32 - 1) * 2 ^ 16)
  { r with bpp := if v % 8 ≤ 4 then v % 8 else r.bpp, tcols := bitsAt v 16 16, trows := bitsAt v 32 16 }

/-- A write to a partition's page of the `L2_` and `RES_` block (R286, R301). -/
def writeL2 (s : State) (p off : Nat) (w : RegWrite) : State :=
  let up (f : Partition → Partition) : State := s.updPart p f
  match off with
  | 0x00 => up fun q => { q with px := { q.px with base := w.merge q.px.base (2 ^ 64 - 256) } }
  | 0x08 => up fun q => { q with px := q.px.putGeom w }
  | 0x10 => up fun q => { q with px := { q.px with ord := w.merge q.px.ord (2 ^ 64 - 1024) } }
  | 0x18 => up fun q => { q with px := { q.px with stat := andNot q.px.stat (w.ones &&& 7) } }
  | 0x40 => up fun q => { q with res := { q.res with back0 := w.merge q.res.back0 (2 ^ 64 - 65536) } }
  | 0x48 => up fun q => { q with res := { q.res with back1 := w.merge q.res.back1 (2 ^ 64 - 65536) } }
  | 0x50 => up fun q => q.putGeom (w.merge q.res.geom.written geomBits)
  | _ => s

/-- A write to a partition's page of the `CORE_` block (R451): MAXG of 0 or 9 to 15 leaves the field. -/
def Partition.putBlend (q : Partition) (w : RegWrite) : Partition :=
  let v := w.merge q.blend 0xF3FF
  let m := bitsAt v 12 4
  { q with blendWin := v % 1024, blendMaxg := if 1 ≤ m && m ≤ 8 then m else q.blendMaxg }

/-! ## Stream pages -/

/-- The fields of `CMD_QCTL` other than EN (R97), which a write changes only while EN is 0. -/
def Stream.putQctl (x : Stream) (w : RegWrite) : Stream :=
  let v := w.merge x.qctl 0x2F
  { x with qlog2 := if 4 ≤ v % 16 && v % 16 ≤ 14 then v % 16 else x.qlog2, mtail := v.testBit 5 }

/-- A write of `CMD_QCTL` (R97, R105). -/
def writeQctl (s : State) (p st : Nat) (x : Stream) (w : RegWrite) : State :=
  if !w.low then s
  else if x.en then (if w.ones.testBit 4 then s else disableStream s p st)
  else
    let s := s.updStream p st fun x => x.putQctl w
    let s := if w.ones.testBit 6 then zeroStream s p st else s
    if w.ones.testBit 4 then enableStream s p st else s

/-- A write of `CMD_STAT` (R98): RESUME and SKIP together act as SKIP. -/
def writeStat (s : State) (p st : Nat) (w : RegWrite) : State :=
  if w.ones.testBit 3 then skipPacket s p st else if w.ones.testBit 2 then resumeStream s p st else s

/-- A write to a stream page (R96). -/
def writeStream (s : State) (p st off : Nat) (w : RegWrite) : State :=
  match s.stream? p st with
  | none => s
  | some x =>
    let up (f : Stream → Stream) : State := s.updStream p st f
    match off with
    | 0x00 => if x.en then s else up fun x => { x with qbase := w.merge x.qbase (2 ^ 64 - 4096) }
    | 0x08 => writeQctl s p st x w
    | 0x18 => if w.low then writeTail s p st (w.val % 2 ^ 32) else s
    | 0x20 => if x.en then s else up fun x => { x with tailaddr := w.merge x.tailaddr (2 ^ 64 - 8) }
    | 0x28 => up fun x => { x with erraddr := w.merge x.erraddr (2 ^ 64 - 64) }
    | 0x30 => writeStat s p st w
    | _ => s

/-! ## Windows -/

/-- A write of `HIF_PCMD` (R84). -/
def writePcmd (s : State) (v : Nat) : State :=
  let p := v % 16
  command s (match v / 16 % 8 with
    | 1 => createPartition p
    | 2 => resizePartition p
    | 3 => resetPartition p (v.testBit 7)
    | 4 => destroyPartition p (v.testBit 7)
    | _ => badCommand p)

/-- A write to the `HIF_` global registers (R74, R79, R84, R85). -/
def writeHif (s : State) (w : RegWrite) : State :=
  if w.place = 0 then { s with pf := { s.pf with prec := w.merge s.pf.prec (2 ^ 64 - 1) } }
  else if w.place = 8 then (if w.low then writePcmd s w.val else s)
  else if w.place = 0x10 then { s with links := { s.links with downev := s.links.downev && !w.ones.testBit 8 } }
  else if 0x100 ≤ w.place && w.place < 0x180 then
    s.updPart ((w.place - 0x100) / 8) fun q => { q with done := q.done && !w.ones.testBit 2 }
  else if w.place = 0x300 then { s with pf := { s.pf with istat := w.clear s.pf.istat } }
  else if 0x400 ≤ w.place && w.place < 0x440 then w.bytes.foldl (fun s b => writePfivmap s (w.place - 0x400 + b.1) b.2) s
  else s

/-- A write to the `PKG_` and `TIM_` registers (R48 to R50, R54, R74). -/
def writePkg (s : State) (w : RegWrite) : State :=
  match w.place with
  | 0x10 => if w.low then writePwrcap s w.val else s
  | 0x108 => if w.low then writeAdj s w.val else s
  | 0x110 => if w.whole then writeStep s w.val else s
  | 0x120 => { s with time := { s.time with ppsv := s.time.ppsv && !w.ones.testBit 0 } }
  | _ => s

/-- A write in the window of the physical function (R73). -/
def writePfWindow (s : State) (w : RegWrite) : State :=
  let o := w.place % 0x100000
  let paged (f : Nat → Nat → State) : State := match partPage o with
    | some (p, off) => f p off
    | none => s
  match w.place / 0x100000 with
  | 0 => writeHif s w
  | 1 => writeControl s (o / 0x10000) { w with place := o % 0x10000 }
  | 2 => writePkg s { w with place := o }
  | 4 => if o < 320 && w.ones.testBit 31 then clearCrc s (o / 8) else s
  | 5 => paged fun p off => writeMem s p off w
  | 6 => paged fun p off => writeSch s p off w
  | 7 => paged fun p off => writeL2 s p off w
  | 9 => paged fun p off => if off = 0 then s.updPart p fun q => q.putBlend w else s
  | _ => s

/-- A write in the window of a partition function (R75). -/
def writePartWindow (s : State) (p : Nat) (w : RegWrite) : State :=
  if w.place < 0x10000 then writeControl s p w
  else if w.place < 0x10200 then writeMsix s p w ((w.place - 0x10000) / 16)
  else if 0x100000 ≤ w.place && w.place < 0x200000 then writeStream s p ((w.place - 0x100000) / 0x1000) (w.place % 0x1000) w
  else s

/-- A write to a register (R77): one of another width or alignment is ignored. -/
def writeRegister (s : State) (fn : RegFn) (off width v : Nat) : State :=
  match regWrite off width v with
  | none => s
  | some w => match fn with
    | .pf => writePfWindow s w
    | .part p => writePartWindow s p w

/-- An access to a function that does not answer yet: until READY, a partition function answers with configuration-retry status (R65). (in part DEDUCED, log entry 73) -/
def retryOf (s : State) (fn : RegFn) : Option Nat :=
  match fn with
  | .pf => none
  | .part p => if s.caddy.ready then none else some p

/-- `REGISTER_WRITE` (R65, R73 to R77): a write or a read of software, whose answer leaves the module. (in part DESIGN CHOICE, log entry 73) -/
def execRegisterWrite (fn : RegFn) (off width : Nat) (v : Option Nat) (s : State) : Result := .next (match retryOf s fn with
  | some p => s.send (.configRetry p)
  | none => match v with
    | some v => writeRegister s fn off width v
    | none => s.send (.regData fn off width (readRegister s fn off width)))

end Sys2Proof.Machine
end

