-- ==== Sys2Proof/Machine/Shader.lean ====
section
/-!
DEFINITION. Shader control (R276, R460, R461): `hitattr`, and the three returns of a hit shader.
-/
namespace Sys2Proof.Machine

/-- The ray that has called a lane. -/
def calledRay (s : State) (core slot l : Nat) : Option RaySlot :=
  s.render.rays.find? fun r => r.owner == .lane core slot l && r.state == .awaitShd

/-- The issue of a shader-control word: ILLOP on lanes that are not in shader state (R460). -/
def shaderIssue (s : State) (gd : Guard) (form : LaneForm) (body : Group → List Nat → State → State) : Result :=
  .next (laneIssue s gd form fun g act s' => if inShader s then body g act s' else illop s' (segLanes g s))

/-- Word `n` of a candidate (R460): words 0 to 15 as in R458, then ORG, DIR, TMIN and the current TMAX. For an intersection call the flags
and the count of steps read zero. (in part DEDUCED, log entry 46) -/
def candidateWord (r : RaySlot) (h : Hit) (n : Nat) : Nat :=
  if n < 16 then (resultWords (some h) (if h.proc then 0 else r.word) (if h.proc then 0 else r.steps)).getD n 0
  else [r.geom.ox, r.geom.oy, r.geom.oz, r.geom.dx, r.geom.dy, r.geom.dz, r.geom.tmin, r.geom.tmax].getD (n - 16) 0

/-- The value of `hitattr` for a lane. (in part DEDUCED, log entry 46) -/
def attrOf (s : State) (g : Group) (l n : Nat) : Word32 :=
  match calledRay s g.core g.slot l with
  | some r => match r.cand with
    | some h => BitVec.ofNat 32 (candidateWord r h n)
    | none => 0
  | none => 0

/-- `HITATTR`. -/
def execHitattr (gd : Guard) (d n : Nat) (s : State) : Result :=
  shaderIssue s gd ⟨[], [.v d], true⟩ fun g act s' => applyLanes (fun g l x => (dstV g x d (attrOf s g l n), noFlags)) g act s'

/-- The page of a lane's candidate, unless it is procedural. (in part DEDUCED, log entry 46) -/
def candidatePage (s : State) (g : Group) (l : Nat) : Option Nat :=
  match calledRay s g.core g.slot l with
  | some r => match r.cand with
    | some h => if h.proc then none else some h.key
    | none => none
  | none => none

/-- One lane's `hitattr.pg` (R460): the word on path `ray`, for which the lane waits. VAL of its trap is the address (R327). -/
def attrPage (g : Group) (d b : Nat) (s : State) (l : Nat) : State :=
  let v := (srcV g l (g.lane l) b).toNat
  let trap (page : Nat) : State := trapEnter s g.core g.slot 8 0 [⟨l, s.issue.pc, BitVec.ofNat 64 (page + 9216 + v), 0⟩]
  match candidatePage s g l with
  | none => trap 0
  | some page =>
    if v % 4 ≠ 0 || 56320 ≤ v then trap page
    else
      let owner := 2 ^ 61 + (g.core * 64 + g.slot) * 32 + l
      match unitRead s owner (whoLane s g 5) .read (page + 9216 + v) 4 with
      | (s, .pending) => block s [l]
      | (s, .fault c lv a) => parkLanes (hold (dropArrived s owner) [l]) g.core g.slot 20 [⟨l, c, lv, BitVec.ofNat 64 a⟩]
      | (s, .data bs) =>
        (dropArrived s owner).updGroup g.core g.slot fun h => h.updLane l fun x => dstV h x d (BitVec.ofNat 32 (numOfBytes bs))

/-- `HITATTR_PG`. (in part DEDUCED, log entry 46) -/
def execHitattrPg (gd : Guard) (d b : Nat) (s : State) : Result :=
  shaderIssue s gd ⟨[.v b], [.v d], true⟩ fun g act s' => act.foldl (attrPage g d b) s'

/-- What a shader commits (R276, R460): the candidate of an any-hit call, or the distance and words of an intersection call, where the
distance lies in [TMIN, TMAX]. (in part DEDUCED, log entry 45) -/
def commitOf (r : RaySlot) (h : Hit) (t : Nat) (words : List Nat) : Option Hit :=
  if !h.proc then some h
  else
    let v := decodeVal fmtFP32 t
    if Val.le (decodeVal fmtFP32 r.geom.tmin) v && Val.le v (decodeVal fmtFP32 r.geom.tmax) then some { h with t := t, attr := words }
    else none

/-- A ray after a shader's return (R262, R276). -/
def RaySlot.returned (r : RaySlot) (commit : Option Hit) (ends : Bool) : RaySlot :=
  let r := { r with state := .walk, cand := none }
  let r := match commit with
    | some h => r.commit h
    | none => r
  if ends || r.state = .done then { r with state := .done, page := none } else r.settle

/-- One lane leaves shader state (R276, R461): its program counter is SRET, and it waits at its `trace`, at home. -/
def leaveShader (s : State) (core slot l id : Nat) : State :=
  swapBack (s.updLane core slot l fun x => { x with pc := x.sret, shader := false, wait := .ray id }) core slot l

/-- A return of some lanes (R460): at TDEP ≠ 0 cause 10; else the lane's own ray goes on or ends. -/
def shaderReturn (s : State) (gd : Guard) (form : LaneForm) (f : RaySlot → Hit → Lane → Group → Nat → Option Hit) (ends : Bool) : Result :=
  shaderIssue s gd form fun g act s' =>
    let deep := act.filter fun l => decide ((g.lane l).tdep ≠ 0)
    let good := act.filter fun l => decide ((g.lane l).tdep = 0)
    let s' := good.foldl (fun s' l => match calledRay s g.core g.slot l with
      | none => s'
      | some r =>
        let h := r.cand.getD default
        leaveShader (s'.updRay r.id fun _ => r.returned (f r h (g.lane l) g l) ends) g.core g.slot l r.id) s'
    illop s' deep

/-- The hit that `accept` and `term` commit, from V(A) and the first words of T(B). -/
def givenHit (a b : Nat) (r : RaySlot) (h : Hit) (x : Lane) (g : Group) (l : Nat) : Option Hit :=
  commitOf r h (srcV g l x a).toNat ((List.range 4).map fun i => wordAt (readT g x b) i)

/-- `ACCEPT`. -/
def execAccept (gd : Guard) (a b : Nat) (s : State) : Result := shaderReturn s gd ⟨[.v a, .t b], [], true⟩ (givenHit a b) false
/-- `IGNORE`. -/
def execIgnore (gd : Guard) (s : State) : Result := shaderReturn s gd ⟨[], [], true⟩ (fun _ _ _ _ _ => none) false
/-- `TERM`. -/
def execTerm (gd : Guard) (a b : Nat) (s : State) : Result := shaderReturn s gd ⟨[.v a, .t b], [], true⟩ (givenHit a b) true

end Sys2Proof.Machine
end

