-- ==== Sys2Proof/Machine/Pick.lean ====
section
/-!
DEFINITION. What the step does around `exec`: which lanes may issue (R152, R155), the fetch of their words (R153, R347), and the move that
is taken when the agenda is empty (DESIGN CHOICE, log entry 1).
-/
namespace Sys2Proof.Machine

/-! ## Who may issue -/

/-- The grid of a group by the model's name. -/
def gridIdOf (s : State) (g : Group) : Option Nat := (s.teamOf g).map Team.grid

/-- The groups of the grid of `g` on its issue quarter (R147). -/
def quarterMates (s : State) (g : Group) : List Group :=
  s.groups.filter fun h => h.core == g.core && quarterOf h.slot == quarterOf g.slot && gridIdOf s h == gridIdOf s g && teamRuns s h.team

/-- The logical index of a group (R147). -/
def logicalIndex (s : State) (g : Group) : Nat := 32 * linearOf s g + g.index

/-- Whether a group has its quarter in deterministic mode (R147): it keeps it, or no group of its grid does and it has the lowest logical index
of those that are ready. (in part DEDUCED, log entry 35) -/
def hasQuarter (s : State) (g : Group) : Bool :=
  g.keepsQuarter || (quarterMates s g).all fun h => !h.keepsQuarter && (!h.unblocked || decide (logicalIndex s g ≤ logicalIndex s h))

/-- Whether a group of a team may issue under the rules of deterministic mode (R147): it has its quarter, and a cut that waits for its safe
point does not hold it there. (in part DEDUCED, log entry 35) -/
def detmMayIssue (s : State) (t : Team) (g : Group) : Bool :=
  !teamDetm s t || (hasQuarter s g && !(t.latched.isSome && atSafePoint s g))

/-- Whether a group may issue (R155): its team runs, its partition's core cycles are not held (R142), it is in the active set and, in
deterministic mode, it has its quarter (R147). -/
def groupMayIssue (s : State) (g : Group) : Bool :=
  match s.teamOf g with
  | none => false
  | some t => teamRuns s g.team && !((s.part t.part).sch.meters.getD 0 ⟨0, false⟩).held && g.active && detmMayIssue s t g

/-- A group of a deterministic grid that issues takes its quarter (R147). (in part DEDUCED, log entry 35) -/
def takeQuarter (s : State) (g : Group) : State :=
  if detmOf s g then
    let mates := quarterMates s g
    { s with groups := s.groups.map fun h =>
        if mates.any fun m => m.isAt h.core h.slot then { h with current := h.isAt g.core g.slot } else h }
  else s

/-- Whether a lane waits for room at a scoreboard (R288). -/
def pixelHeld (s : State) (g : Group) (l : Nat) : Bool :=
  s.render.pixels.any fun p => p.held && p.core == g.core && p.slot == g.slot && p.lane == l

/-- Whether lane `l` of a group may take part in an instruction: it is ready, no error waits for its boundary (R323, R331), no scoreboard
holds it (R288), and outside shader state it stands at home (R278). -/
def laneMay (s : State) (g : Group) (l : Nat) : Bool :=
  let x := g.lane l
  x.ready && !x.takesPend && !x.takesLate && (x.shader || x.home.isNone) && !pixelHeld s g l

/-- The lanes that issue with lane `l` (R152): lanes of its group that may, at its program counter, or, for an instruction that is issued
again, the lanes that stood at it together. Shader-state lanes and others form no common cohort (R277). -/
def cohortOf (s : State) (g : Group) (l : Nat) : List Nat :=
  let x := g.lane l
  let like (k : Nat) : Bool := laneMay s g k && decide ((g.lane k).pc = x.pc) && decide ((g.lane k).wait = x.wait)
  if !laneMay s g l then []
  else match x.wait with
    | .cohort ls | .limits ls _ _ _ _ _ => ls.filter like
    | _ => (List.range 32).filter fun k => like k && ((g.lane k).shader == x.shader)

/-! ## Fetch -/

/-- The name under which a lane's fetch from another die or module waits for its answer. (DESIGN CHOICE, log entry 32) -/
def fetchOwner (g : Group) (l : Nat) : Nat := 2 ^ 64 + (g.team * 64 + g.slot) * 32 + l

/-- What a fetch answers: the words, a fault with its cause, LEVEL and address, or nothing yet. -/
inductive Fetch
  | words (w1 w2 : Nat)
  | fault (cause level addr : Nat)
  | pending
  deriving DecidableEq, Repr

/-- Fetches the word at an address for the cohort of a lane (R153). -/
def fetchWord (s : State) (g : Group) (l pc : Nat) : State × UnitData := unitRead s (fetchOwner g l) (whoLane s g 0) .fetch pc 4

/-- Fetches an instruction's words (R347): a fault of the second word names that word's address. -/
def fetchInstr (s : State) (g : Group) (l pc : Nat) : State × Fetch :=
  match fetchWord s g l pc with
  | (s, .pending) => (s, .pending)
  | (s, .fault c lv a) => (s, .fault c lv a)
  | (s, .data b1) =>
    let w1 := numOfBytes b1
    if isTwoWord w1 then
      match fetchWord s g l ((pc + 4) % 2 ^ 64) with
      | (s, .pending) => (s, .pending)
      | (s, .fault c lv a) => (s, .fault c lv a)
      | (s, .data b2) => (s, .words w1 (numOfBytes b2))
    else (s, .words w1 0)

/-- A cohort about to issue: its words are fetched, or its lanes park with ACCESS 3 (R153). -/
inductive Fetched
  /-- The state with the cohort in `issue`, and its words. -/
  | words (s : State) (w1 w2 : Nat)
  /-- The state after the fault, or unchanged where nobody can issue. -/
  | nothing (s : State)

/-- Fetches for the cohort of a lane. -/
def fetchCohort (s : State) (core slot lane : Nat) : Fetched :=
  match s.group? core slot with
  | none => .nothing s
  | some g =>
    let ls := cohortOf s g lane
    if ls.isEmpty || !groupMayIssue s g then .nothing s
    else
      let pc := (g.lane lane).pc
      match fetchInstr s g lane pc.toNat with
      | (s, .pending) => .nothing s
      | (s, .fault c lv a) =>
        .nothing (parkLanes (dropArrived s (fetchOwner g lane)) core slot 3 (ls.map fun l => ⟨l, c, lv, BitVec.ofNat 64 a⟩))
      | (s, .words w1 w2) => .words { takeQuarter (dropArrived s (fetchOwner g lane)) g with issue := ⟨core, slot, ls, pc, w1, w2⟩ } w1 w2

/-- A reserved word (R354): ILLOP on the cohort, or for a lane-set word on its lanes in the segment mask; the other lanes move past it. -/
def reservedWord (s : State) : State :=
  match s.issuing? with
  | none => s
  | some g => runIssue s fun s' => illop s' (if s.issue.w1 < 2147483648 then segLanes g s else s.issue.lanes)

/-! ## The default move -/

/-- Whether the team of a group lets its shadow go on (R338, R342): it runs, or it waits for its shadows. -/
def shadowRunsOn (s : State) (h : Shadow) : Bool :=
  !h.queue.isEmpty && !s.therm.trip && (match s.team? h.group.team with
    | some t => decide (t.state ≠ .pending) && (decide (t.db = .idle) || decide (t.db = .drainShd))
    | none => false)

/-- The shadow group of a slot, where it has something to take from its queue (R342). -/
def shadowIn (s : State) (core slot : Nat) : Option Shadow :=
  s.shadows.find? fun h => h.group.core == core && h.group.slot == slot && shadowRunsOn s h

/-- The lanes of a state that may issue: core, slot and lane of the lowest lane of each cohort, those that are not blocked first. (in part DESIGN CHOICE, log entry 1) -/
def issuable (s : State) (blocked : Bool) : List (Nat × Nat × Nat) :=
  s.groups.flatMap fun g =>
    if groupMayIssue s g then
      (List.range 32).filterMap fun l =>
        let x := g.lane l
        if (cohortOf s g l).head? = some l && decide (x.wait = .none) != blocked then some (g.core, g.slot, l) else none
    else []

/-- The shadow groups that have something to take, in the form of `issuable`. -/
def issuableShadows (s : State) : List (Nat × Nat × Nat) := (s.shadows.filter (shadowRunsOn s)).map fun h => (h.group.core, h.group.slot, 0)

/-- Whether an instruction is an event of the part: a row of the opcode table with no encoding. -/
def Instr.isEvent (i : Instr) : Bool := (encode i).isNone

/-! ## What every move settles -/

/-- A group after a move: a group whose lanes all wait at points that only another agent can end gives up its quarter (R147), and a pending
group notes when it has become ready (R156). -/
def Group.settled (g : Group) (now : Nat) : Group :=
  { g with
    current := g.keepsQuarter
    readyAt := if g.active then g.readyAt else if !g.unblocked then 0 else if g.readyAt = 0 then now else g.readyAt }

/-- What every move settles. (in part DESIGN CHOICE, log entry 34) -/
def settle (s : State) : State := { s with groups := s.groups.map fun g => g.settled (s.fresh + 1), fresh := s.fresh + 1 }

/-! ## The state that runs one word -/

/-- Partition 0 as `placeWord` sets it: ACTIVE, the first GiB of module memory its range, page tables at 0x1000. (in part DESIGN CHOICE, log entry 15) -/
def onePartition : Partition :=
  { Partition.reset 0 with state := .active, setup := { Setup.none with ptroot := 0x1000, ranges := [(0, 1073741824)] } }

/-- The launch record of the one grid: ENTRY 0x10000, one team of one group, the whole register space, views at 0, 1,024 bytes for T and
for A. (in part DESIGN CHOICE, log entry 15) -/
def oneRecord : LaunchRec :=
  { entry := 0x10000, gridx := 1, gridy := 1, gridz := 1, gpt := 1, clw := 1, clh := 1, detm := false, vbase := 0, tbase := 0, abase := 0,
    regsz := 8, bclass := 0, tscope := 6, spfoot := 65536, args := 0, tumb := 0, amount := 0, fs := List.replicate 8 0, kcbase := 0 }

/-- The one grid. (in part DESIGN CHOICE, log entry 15) -/
def oneGrid : Grid :=
  { id := 0, part := 0, slot := 0, gen := 1, rcd := oneRecord, die := 0, stream := none, node := none, parent := none, depth := 0,
    children := 0, childFailed := false, nextTeam := 1, teamsDone := 0, order := 0 }

/-- `s` with an instruction stored where the very next step fetches (DESIGN CHOICE, log entry 15): partition 0 is ACTIVE with one gibibyte page that maps
virtual to physical address 0 to 2^30, one grid of one team of one group stands placed on core 0, and the agenda names its lane 0. -/
def placeWord (s : State) (nbits w : Nat) : State :=
  { s with
    agenda := [.issue 0 0 0]
    parts := s.parts.set 0 onePartition
    grids := [oneGrid]
    teams := [Team.start 0 0 0 0 0 [0] 0 65536]
    groups := [{ Group.start oneRecord oneGrid.handle 0 0 0 0 0 true 0 with inStore := true }]
    ms := { s.ms with tlb := [] }
    poison := []
    mem := ((s.mem.writeN 0x1000 8 0x2001).writeN 0x2000 8 0xF).writeBytes 0x10000
      ((tableBytes nbits w).map (BitVec.ofNat 8)) }

end Sys2Proof.Machine
end

