-- ==== Sys2Proof/Machine/Shadow.lean ====
section
/-!
DEFINITION. Trailing shadow groups (R342, R343): the queue that a leading group fills, what its shadow takes from it, and the compares that
release the leading group's accesses. (in part DESIGN CHOICE, log entry 56)
-/
namespace Sys2Proof.Machine

/-! ## What a shadow copies -/

/-- The state after a move, changed. -/
def onNext (f : State → State) (r : Result) : Result :=
  match r with
  | .next s => .next (f s)
  | .fault e => .fault e
  | .refused e => .refused e

/-- A field of a shadow after its leading group's has gone from `b` to `a`. -/
def follow {α : Type} [DecidableEq α] (b a x : α) : α := if b = a then x else a

/-- A memory of a shadow: the bytes that changed in the leading group change alike. -/
def followMem (b a x : Mem) : Mem :=
  ((b ++ a).map Prod.fst).dedup.foldl (fun m k => if b.read k = a.read k then m else m.write k (a.read k)) x

/-- A lane of a shadow takes what changed in its lane of the leading group. -/
def Lane.follow (b a x : Lane) : Lane :=
  { pc := Machine.follow b.pc a.pc x.pc, regs := followMem b.regs a.regs x.regs, preds := Machine.follow b.preds a.preds x.preds
    rngKey := Machine.follow b.rngKey a.rngKey x.rngKey, rngPos := Machine.follow b.rngPos a.rngPos x.rngPos
    rngStr := Machine.follow b.rngStr a.rngStr x.rngStr, sret := Machine.follow b.sret a.sret x.sret
    shader := Machine.follow b.shader a.shader x.shader, exited := Machine.follow b.exited a.exited x.exited
    frozen := Machine.follow b.frozen a.frozen x.frozen, parked := Machine.follow b.parked a.parked x.parked
    tdep := Machine.follow b.tdep a.tdep x.tdep, tmsk := Machine.follow b.tmsk a.tmsk x.tmsk, pend := Machine.follow b.pend a.pend x.pend
    late := Machine.follow b.late a.late x.late, reserved := Machine.follow b.reserved a.reserved x.reserved
    slice := followMem b.slice a.slice x.slice, ld := Machine.follow b.ld a.ld x.ld, st := Machine.follow b.st a.st x.st
    cp := Machine.follow b.cp a.cp x.cp, mx := Machine.follow b.mx a.mx x.mx, wait := Machine.follow b.wait a.wait x.wait
    home := Machine.follow b.home a.home x.home, glob := Machine.follow b.glob a.glob x.glob }

/-- A shadow takes what changed in its leading group; it keeps its own place. -/
def Group.follow (b a x : Group) : Group :=
  { x with
    steps := Machine.follow b.steps a.steps x.steps, vbase := Machine.follow b.vbase a.vbase x.vbase
    tbase := Machine.follow b.tbase a.tbase x.tbase, abase := Machine.follow b.abase a.abase x.abase
    wlog := Machine.follow b.wlog a.wlog x.wlog, segen := Machine.follow b.segen a.segen x.segen
    g := x.g.mapIdx fun k v => Machine.follow (b.g.getD k 0) (a.g.getD k 0) v
    q := Machine.follow b.q a.q x.q, gb0 := Machine.follow b.gb0 a.gb0 x.gb0, gb1 := Machine.follow b.gb1 a.gb1 x.gb1
    ldep := Machine.follow b.ldep a.ldep x.ldep, loops := Machine.follow b.loops a.loops x.loops, bars := Machine.follow b.bars a.bars x.bars
    ag0 := Machine.follow b.ag0 a.ag0 x.ag0, ag1 := Machine.follow b.ag1 a.ag1 x.ag1, ag2 := Machine.follow b.ag2 a.ag2 x.ag2
    ag3 := Machine.follow b.ag3 a.ag3 x.ag3, rmcap := Machine.follow b.rmcap a.rmcap x.rmcap, stky := Machine.follow b.stky a.stky x.stky
    tvec := Machine.follow b.tvec a.tvec x.tvec, tframe := Machine.follow b.tframe a.tframe x.tframe
    invalidA := Machine.follow b.invalidA a.invalidA x.invalidA, sln := Machine.follow b.sln a.sln x.sln
    mxs := Machine.follow b.mxs a.mxs x.mxs, stampRun := Machine.follow b.stampRun a.stampRun x.stampRun
    lanes := x.lanes.mapIdx fun l y => (b.lane l).follow (a.lane l) y }

/-- A group without what only the choice of groups reads. -/
def Group.program (g : Group) : Group :=
  { g with active := false, activeSince := 0, slowSince := 0, current := false, readyAt := 0, inStore := false, storeUse := 0 }

/-- A group with its place, and what the choice of groups reads, from another. -/
def Group.placedAs (x g : Group) : Group :=
  { x with
    core := g.core, slot := g.slot, shadow := g.shadow, active := g.active, activeSince := g.activeSince, slowSince := g.slowSince
    current := g.current, readyAt := g.readyAt, inStore := g.inStore, storeUse := g.storeUse }

/-! ## Shadows and their queues -/

/-- Entries of a queue (R342). -/
def queueSize : Nat := 256

/-- Whether a shadow is that of a group. -/
def Shadow.of (h : Shadow) (g : Group) : Bool := h.group.core == g.core && h.lead == g.slot

/-- The shadow of a group. -/
def shadowOf (s : State) (g : Group) : Option Shadow := s.shadows.find? fun h => h.of g

/-- The leading group of a shadow. -/
def Shadow.leader (h : Shadow) (s : State) : Option Group := s.group? h.group.core h.lead

/-- Replaces a shadow. -/
def State.putShadow (s : State) (h : Shadow) : State :=
  { s with shadows := s.shadows.map fun x => if x.group.core == h.group.core && x.lead == h.lead then h else x }

/-- Adds an entry to a shadow's queue. -/
def Shadow.push (h : Shadow) (e : ShadowEntry) : Shadow := { h with queue := h.queue ++ [e] }

/-- A shadow group as a copy of its leading group, in its own slot (R343). -/
def Shadow.copy (g : Group) (slot : Nat) : Shadow := ⟨g.slot, { g with slot := slot, shadow := none }, []⟩

/-- Whether a group has its shadow beside it (R342): not while its team is saved, moved or rolled back, after which a copy is made. -/
def keepsShadow (s : State) (g : Group) : Bool :=
  match s.teamOf g with
  | some t => decide (t.state ≠ .pending) && (decide (t.db = .idle) || decide (t.db = .drainShd))
  | none => false

/-- Whether a shadow is still that of its leading group. -/
def Shadow.current (h : Shadow) (s : State) : Bool :=
  match h.leader s with
  | some g => decide (g.shadow = some h.group.slot) && g.team == h.group.team && g.index == h.group.index && keepsShadow s g
  | none => false

/-- Every leading group has its shadow: those that have lost theirs get a copy (R342, R343). (in part DESIGN CHOICE, log entry 56) -/
def matchShadows (s : State) : State :=
  let kept := s.shadows.filter fun h => h.current s
  let fresh := s.groups.filterMap fun g => match g.shadow with
    | some slot => if keepsShadow s g && !kept.any fun h => h.of g then some (Shadow.copy g slot) else none
    | none => none
  { s with shadows := kept ++ fresh }

/-- A shadow after a move from `s` to `t`: what changed in its leading group enters its queue, unless the move has dealt with the shadow. -/
def Shadow.noted (h : Shadow) (s t : State) : Shadow :=
  match h.leader s, h.leader t with
  | some b, some a => if s.shadows.contains h && decide (b.program ≠ a.program) then h.push (.follow b.program a.program) else h
  | _, _ => h

/-- What every move settles, from `s` to `t`: shadows take what changed (R342), then the groups settle (R147, R156). (in part DESIGN CHOICE, log entry 56) -/
def settleAfter (s t : State) : State := matchShadows (settle { t with shadows := t.shadows.map fun h => h.noted s t })

/-! ## What a shadow executes -/

/-- Whether an instruction reads or changes more than its own group: the shadow takes its effect from the queue. -/
def beyondGroup (i : Instr) : Bool :=
  match i with
  | .csrr _ _ _ | .rtime _ _ | .hitattr _ _ _ | .hitattrPg _ _ _ | .xfence _ _ _ _ | .wait _ _ _ _ _ | .barTeam _ | .barCl _ | .yield _ | .grow _ _
  | .shrink _ _ | .ksign _ _ | .ksignWait _ _ | .ksignDecl _ _ _ | .wtime _ _ | .exit _ | .tret _ | .trap _ _ | .brk _ | .tunmask _ => true
  | _ => false

/-- A state without a group, what it issues, and the shadows. -/
def State.without (s : State) (g : Group) : State :=
  { s with groups := s.groups.filter fun h => !h.isAt g.core g.slot, issue := .none, shadows := [] }

/-- Whether a lane must issue its instruction again. -/
def Lane.blocked (x : Lane) : Bool :=
  match x.wait with
  | .cohort _ => true
  | _ => false

/-- Whether a lane has parked, frozen, or entered or left a handler. -/
def Lane.diverted (b a : Lane) : Bool := decide (b.tdep ≠ a.tdep) || decide (b.frozen ≠ a.frozen) || decide (b.parked ≠ a.parked)

/-- Whether the shadow of group `b` executes an instruction itself that took its leading group to `t`: it changed that group alone, and no
lane of it was trapped, parked, swapped or held back. -/
def shadowExecutes (s t : State) (b : Group) (i : Instr) : Bool :=
  match t.group? b.core b.slot with
  | some a => !beyondGroup i && decide (s.without b = t.without b) && b.lanes.all (fun x => x.home.isNone) &&
      (s.issue.lanes.all fun l => !(a.lane l).blocked) && (List.range 32).all fun l => !(b.lane l).diverted (a.lane l)
  | none => false

/-- An instruction of a leading group enters its shadow's queue where the shadow executes it itself (R342). -/
def noteIssue (s : State) (b : Group) (h : Shadow) (i : Instr) (t : State) : State :=
  if shadowExecutes s t b i then t.putShadow (h.push (.issue s.issue)) else t

/-- A shadow in the place of its leading group. -/
def withShadow (s : State) (g : Group) (h : Shadow) : State := s.updGroup g.core g.slot fun g => h.group.placedAs g

/-- The shadow after its leading group's place holds it in a state. -/
def Shadow.takenFrom (h : Shadow) (t : State) (core slot : Nat) : Shadow :=
  match t.group? core slot with
  | some a => { h with group := a.placedAs h.group }
  | none => h

/-- A shadow executes an instruction on its own registers. `ex` is the meaning of instructions. -/
def shadowRuns (ex : Instr → State → Result) (s : State) (g : Group) (h : Shadow) (i : Issue) : Shadow :=
  let s := withShadow { s with issue := i } g h
  match decodeWords i.w1 i.w2 with
  | .ok ins => match ex ins s with
    | .next t => h.takenFrom t g.core g.slot
    | _ => h
  | .error _ => h.takenFrom (reservedWord s) g.core g.slot

/-- The issue of a shadow group: it takes the next entry of its queue (R342). (in part DESIGN CHOICE, log entry 56) -/
def shadowStep (ex : Instr → State → Result) (s : State) (h : Shadow) : State :=
  match h.queue, h.leader s with
  | e :: rest, some g =>
    let h := { h with queue := rest }
    s.putShadow (match e with
      | .follow b a => { h with group := b.follow a h.group }
      | .issue i => shadowRuns ex s g h i)
  | _, _ => s

/-! ## Compares -/

/-- The address by which a lane's access is compared, for an instruction that a compare releases (R343): a store, atomic, `cas`, scatter,
engine command, tumbler operation or ordered pixel access. A `launch` and a sign with a card are engine commands too. (in part DEDUCED, log entry 56) -/
def comparedVal (s : State) (g : Group) (l : Nat) (i : Instr) : Option Word64 :=
  let x := g.lane l
  match i with
  | .stLsB32 _ _ a swz off | .stSpB32 _ _ a swz off | .stGmB32 _ _ a swz off => some (addrLM g x a off 4 swz)
  | .stLsB64 _ _ a swz off | .stSpB64 _ _ a swz off | .stGmB64 _ _ a swz off => some (addrLM g x a off 8 swz)
  | .ldLx _ _ _ a b m => if m.cls = 0 then none else some (addrLX g l x a b 16 m.imm m.swz (m.cls == 1))
  | .stLx _ _ _ a b m => some (addrLX g l x a b 16 m.imm m.swz (m.cls == 1))
  | .atomAdd _ _ a b m | .atomMin _ _ a b m | .atomMax _ _ a b m | .atomAnd _ _ a b m | .atomOr _ _ a b m | .atomXor _ _ a b m
  | .atomExch _ _ a b m | .cas _ _ a b m => some (atomAddr a b m g l x)
  | .stg _ _ a b m => some (addrLX g l x a b 16 m.imm 0 false)
  | .resst _ _ a => some (coordOf g a l).2
  | .mxsign _ _ a | .mxsignWait _ _ a => some (regG (homeOf s g l) a)
  | .gst _ _ a off => some (addrG g a off)
  | .tdec _ _ a _ | .twait _ _ a _ | .launch _ _ a _ _ | .copyDirect _ _ a _ | .copyBlockCmd _ a | .coll _ a | .strn _ a | .chain _ a => some (regG g a)
  | _ => none

/-- Cause 13 of a lane (R330, R343): it is queued in its class slot, or the slot notes that a later error was dropped. -/
def Lane.raises13 (x : Lane) (val : Word64) : Lane :=
  if !x.live then x
  else match x.pend.getD 3 none with
    | some p => { x with pend := x.pend.set 3 (some { p with info := p.info ||| 4 }) }
    | none => { x with pend := x.pend.set 3 (some ⟨13, 2, 0, val, 0⟩) }

/-- 24 hours in ticks. -/
def dayTicks : Nat := 86400000000000

/-- The threshold of shadow mismatches in the configuration image in force (R345). -/
def mismatchLimit (c : Caddy) : Nat := ((c.cfg c.slotCfg).map fun i => i.body.mismatchLimit).getD 3

/-- Counts a shadow mismatch of a core; at the threshold within 24 hours the core is to retire (R345). -/
def countMismatch (s : State) (core : Nat) : State :=
  let recent := (s.caddy.mismatches.filter fun x => decide (s.time.now < x.2 + dayTicks)) ++ [(core, s.time.now)]
  let s := s.updCaddy fun c => { c with mismatches := recent }
  if mismatchLimit s.caddy ≤ (recent.filter fun x => x.1 == core).length then askRetire s core else s

/-- A compare fails for the cohort that issues (R343): its access is discarded, Caddy logs and counts it, and the team rolls back, or every
lane of the leading group raises cause 13 with VAL the leading lane's address. (in part DESIGN CHOICE, log entry 56) -/
def mismatched (s : State) (g : Group) (v : Word64) : State :=
  let p := s.partOf g
  let s := countMismatch (logEvent (runIssue s id) .shadowMismatch 3 (logSource (dieOfCore g.core) 1) p g.core v.toNat) g.core
  if rollbackOn s p then recoverTeam s g.team
  else s.updGroup g.core g.slot fun g => { g with lanes := g.lanes.map fun x => x.raises13 v }

/-- Whether an instruction does the same for a leading group and for its shadow in its place: everything that leaves the group, and the
slices (R343). -/
def agrees (g : Group) (t u : State) : Bool :=
  let slices (s : State) : List Mem := ((s.group? g.core g.slot).map fun h => h.lanes.map Lane.slice).getD []
  decide (t.without g = u.without g) && decide (slices t = slices u)

/-- Issues an instruction whose access is compared, once the shadow has come to it (R343). -/
def compareIssue (ex : Instr → State → Result) (i : Instr) (s : State) (g : Group) (h : Shadow) (v : Word64) : Result :=
  if !s.issue.lanes.all fun l => decide ((h.group.lane l).pc = s.issue.pc) then .next (mismatched s g v)
  else match ex i s, ex i (withShadow s g h) with
    | .next t, .next u => if agrees g t u then .next (t.putShadow (h.takenFrom u g.core g.slot)) else .next (mismatched s g v)
    | r, _ => r

/-- Issues an instruction: alone, or, for a group with a shadow, under the rules of R342 and R343. A full queue stalls the group. (in part DESIGN CHOICE, log entry 56) -/
def issueShadowed (ex : Instr → State → Result) (i : Instr) (s : State) : Result :=
  match s.issuing? with
  | none => ex i s
  | some g => match shadowOf s g with
    | none => ex i s
    | some h =>
      if queueSize ≤ h.queue.length then .next s
      else match comparedVal s g (s.issue.lanes.headD 0) i with
        | some v => if h.queue.isEmpty then compareIssue ex i s g h v else .next s
        | none => onNext (noteIssue s g h i) (ex i s)

/-- `SHADOW_MISMATCH` (R343): the compare of the access at which a lane's cohort stands fails, by a fault of the hardware. (in part DESIGN CHOICE, log entry 56) -/
def execShadowMismatch (core slot lane : Nat) (s : State) : Result := .next (match s.group? core slot with
  | none => s
  | some g => match shadowOf s g with
    | none => s
    | some h =>
      if !h.queue.isEmpty then s
      else match fetchCohort s core slot lane with
        | .nothing _ => s
        | .words t w1 w2 => match decodeWords w1 w2 with
          | .ok i => match comparedVal t g (t.issue.lanes.headD 0) i with
            | some v => mismatched t g v
            | none => s
          | .error _ => s)

end Sys2Proof.Machine
end

