-- ==== Sys2Proof/Machine/Dispatch.lean ====
section
/-!
DEFINITION. The meaning of every instruction: one arm for each constructor of Instr.
-/
namespace Sys2Proof.Machine

def exec (i : Instr) (s : State) : Host.Outcome State Fault Refusal :=
  match i with
  | .addB32 gd d a b => Sys2Proof.Machine.execAddB32 gd d a b s
  | .subB32 gd d a b => Sys2Proof.Machine.execSubB32 gd d a b s
  | .mulB32 gd d a b => Sys2Proof.Machine.execMulB32 gd d a b s
  | .mulhiS32 gd d a b => Sys2Proof.Machine.execMulhiS32 gd d a b s
  | .mulhiN32 gd d a b => Sys2Proof.Machine.execMulhiN32 gd d a b s
  | .absS32 gd d a => Sys2Proof.Machine.execAbsS32 gd d a s
  | .negS32 gd d a => Sys2Proof.Machine.execNegS32 gd d a s
  | .minS32 gd d a b => Sys2Proof.Machine.execMinS32 gd d a b s
  | .maxS32 gd d a b => Sys2Proof.Machine.execMaxS32 gd d a b s
  | .minN32 gd d a b => Sys2Proof.Machine.execMinN32 gd d a b s
  | .maxN32 gd d a b => Sys2Proof.Machine.execMaxN32 gd d a b s
  | .minS64 gd d a b => Sys2Proof.Machine.execMinS64 gd d a b s
  | .maxS64 gd d a b => Sys2Proof.Machine.execMaxS64 gd d a b s
  | .minN64 gd d a b => Sys2Proof.Machine.execMinN64 gd d a b s
  | .maxN64 gd d a b => Sys2Proof.Machine.execMaxN64 gd d a b s
  | .addB64 gd d a b => Sys2Proof.Machine.execAddB64 gd d a b s
  | .subB64 gd d a b => Sys2Proof.Machine.execSubB64 gd d a b s
  | .mulB64 gd d a b => Sys2Proof.Machine.execMulB64 gd d a b s
  | .mulhiS64 gd d a b => Sys2Proof.Machine.execMulhiS64 gd d a b s
  | .mulhiN64 gd d a b => Sys2Proof.Machine.execMulhiN64 gd d a b s
  | .absS64 gd d a => Sys2Proof.Machine.execAbsS64 gd d a s
  | .negS64 gd d a => Sys2Proof.Machine.execNegS64 gd d a s
  | .andB32 gd d a b => Sys2Proof.Machine.execAndB32 gd d a b s
  | .orB32 gd d a b => Sys2Proof.Machine.execOrB32 gd d a b s
  | .xorB32 gd d a b => Sys2Proof.Machine.execXorB32 gd d a b s
  | .notB32 gd d a => Sys2Proof.Machine.execNotB32 gd d a s
  | .popcB32 gd d a => Sys2Proof.Machine.execPopcB32 gd d a s
  | .clzB32 gd d a => Sys2Proof.Machine.execClzB32 gd d a s
  | .ctzB32 gd d a => Sys2Proof.Machine.execCtzB32 gd d a s
  | .brevB32 gd d a => Sys2Proof.Machine.execBrevB32 gd d a s
  | .shlB32 gd d a b => Sys2Proof.Machine.execShlB32 gd d a b s
  | .shrB32 gd d a b => Sys2Proof.Machine.execShrB32 gd d a b s
  | .sraB32 gd d a b => Sys2Proof.Machine.execSraB32 gd d a b s
  | .rotB32 gd d a b => Sys2Proof.Machine.execRotB32 gd d a b s
  | .shlB64 gd d a b => Sys2Proof.Machine.execShlB64 gd d a b s
  | .shrB64 gd d a b => Sys2Proof.Machine.execShrB64 gd d a b s
  | .sraB64 gd d a b => Sys2Proof.Machine.execSraB64 gd d a b s
  | .rotB64 gd d a b => Sys2Proof.Machine.execRotB64 gd d a b s
  | .bfeS32 gd d a b => Sys2Proof.Machine.execBfeS32 gd d a b s
  | .bfeN32 gd d a b => Sys2Proof.Machine.execBfeN32 gd d a b s
  | .lea gd f d a b => Sys2Proof.Machine.execLea gd f d a b s
  | .cmpS32 gd c d a b => Sys2Proof.Machine.execCmpS32 gd c d a b s
  | .cmpN32 gd c d a b => Sys2Proof.Machine.execCmpN32 gd c d a b s
  | .cmpS64 gd c d a b => Sys2Proof.Machine.execCmpS64 gd c d a b s
  | .cmpN64 gd c d a b => Sys2Proof.Machine.execCmpN64 gd c d a b s
  | .addB32Imm gd d a imm => Sys2Proof.Machine.execAddB32Imm gd d a imm s
  | .andB32Imm gd d a imm => Sys2Proof.Machine.execAndB32Imm gd d a imm s
  | .orB32Imm gd d a imm => Sys2Proof.Machine.execOrB32Imm gd d a imm s
  | .xorB32Imm gd d a imm => Sys2Proof.Machine.execXorB32Imm gd d a imm s
  | .shlB32Imm gd d a imm => Sys2Proof.Machine.execShlB32Imm gd d a imm s
  | .shrB32Imm gd d a imm => Sys2Proof.Machine.execShrB32Imm gd d a imm s
  | .sraB32Imm gd d a imm => Sys2Proof.Machine.execSraB32Imm gd d a imm s
  | .faddF32 gd d a b => Sys2Proof.Machine.execFaddF32 gd d a b s
  | .fsubF32 gd d a b => Sys2Proof.Machine.execFsubF32 gd d a b s
  | .fmulF32 gd d a b => Sys2Proof.Machine.execFmulF32 gd d a b s
  | .fminF32 gd d a b => Sys2Proof.Machine.execFminF32 gd d a b s
  | .fmaxF32 gd d a b => Sys2Proof.Machine.execFmaxF32 gd d a b s
  | .fabsF32 gd d a => Sys2Proof.Machine.execFabsF32 gd d a s
  | .fnegF32 gd d a => Sys2Proof.Machine.execFnegF32 gd d a s
  | .faddF16x2 gd d a b => Sys2Proof.Machine.execFaddF16x2 gd d a b s
  | .fsubF16x2 gd d a b => Sys2Proof.Machine.execFsubF16x2 gd d a b s
  | .fmulF16x2 gd d a b => Sys2Proof.Machine.execFmulF16x2 gd d a b s
  | .fminF16x2 gd d a b => Sys2Proof.Machine.execFminF16x2 gd d a b s
  | .fmaxF16x2 gd d a b => Sys2Proof.Machine.execFmaxF16x2 gd d a b s
  | .fabsF16x2 gd d a => Sys2Proof.Machine.execFabsF16x2 gd d a s
  | .fnegF16x2 gd d a => Sys2Proof.Machine.execFnegF16x2 gd d a s
  | .faddBf16x2 gd d a b => Sys2Proof.Machine.execFaddBf16x2 gd d a b s
  | .fsubBf16x2 gd d a b => Sys2Proof.Machine.execFsubBf16x2 gd d a b s
  | .fmulBf16x2 gd d a b => Sys2Proof.Machine.execFmulBf16x2 gd d a b s
  | .fminBf16x2 gd d a b => Sys2Proof.Machine.execFminBf16x2 gd d a b s
  | .fmaxBf16x2 gd d a b => Sys2Proof.Machine.execFmaxBf16x2 gd d a b s
  | .fabsBf16x2 gd d a => Sys2Proof.Machine.execFabsBf16x2 gd d a s
  | .fnegBf16x2 gd d a => Sys2Proof.Machine.execFnegBf16x2 gd d a s
  | .fcmpF32 gd c d a b => Sys2Proof.Machine.execFcmpF32 gd c d a b s
  | .frndF32 gd m d a => Sys2Proof.Machine.execFrndF32 gd m d a s
  | .rcp gd d a => Sys2Proof.Machine.execRcp gd d a s
  | .rsq gd d a => Sys2Proof.Machine.execRsq gd d a s
  | .sqrt gd d a => Sys2Proof.Machine.execSqrt gd d a s
  | .div gd d a b => Sys2Proof.Machine.execDiv gd d a b s
  | .exp2 gd d a => Sys2Proof.Machine.execExp2 gd d a s
  | .log2 gd d a => Sys2Proof.Machine.execLog2 gd d a s
  | .sin gd d a => Sys2Proof.Machine.execSin gd d a s
  | .cos gd d a => Sys2Proof.Machine.execCos gd d a s
  | .rcpx gd d a => Sys2Proof.Machine.execRcpx gd d a s
  | .rsqx gd d a => Sys2Proof.Machine.execRsqx gd d a s
  | .sqrtx gd d a => Sys2Proof.Machine.execSqrtx gd d a s
  | .divx gd d a b => Sys2Proof.Machine.execDivx gd d a b s
  | .exp2x gd d a => Sys2Proof.Machine.execExp2x gd d a s
  | .log2x gd d a => Sys2Proof.Machine.execLog2x gd d a s
  | .sinx gd d a => Sys2Proof.Machine.execSinx gd d a s
  | .cosx gd d a => Sys2Proof.Machine.execCosx gd d a s
  | .tanh gd d a => Sys2Proof.Machine.execTanh gd d a s
  | .tanhx gd d a => Sys2Proof.Machine.execTanhx gd d a s
  | .shflIdx gd d a b => Sys2Proof.Machine.execShflIdx gd d a b s
  | .shflUp gd d a b => Sys2Proof.Machine.execShflUp gd d a b s
  | .shflDown gd d a b => Sys2Proof.Machine.execShflDown gd d a b s
  | .shflXor gd d a b => Sys2Proof.Machine.execShflXor gd d a b s
  | .voteAny gd d a => Sys2Proof.Machine.execVoteAny gd d a s
  | .voteAll gd d a => Sys2Proof.Machine.execVoteAll gd d a s
  | .voteBallot gd d a => Sys2Proof.Machine.execVoteBallot gd d a s
  | .reduxInt gd f d a => Sys2Proof.Machine.execReduxInt gd f d a s
  | .reduxF32 gd f d a => Sys2Proof.Machine.execReduxF32 gd f d a s
  | .scanInt gd f d a => Sys2Proof.Machine.execScanInt gd f d a s
  | .scanF32 gd f d a => Sys2Proof.Machine.execScanF32 gd f d a s
  | .compress gd d a b => Sys2Proof.Machine.execCompress gd d a b s
  | .expand gd d a b => Sys2Proof.Machine.execExpand gd d a b s
  | .ldLsB32 gd d a swz off => Sys2Proof.Machine.execLdLsB32 gd d a swz off s
  | .ldLsB64 gd d a swz off => Sys2Proof.Machine.execLdLsB64 gd d a swz off s
  | .stLsB32 gd d a swz off => Sys2Proof.Machine.execStLsB32 gd d a swz off s
  | .stLsB64 gd d a swz off => Sys2Proof.Machine.execStLsB64 gd d a swz off s
  | .ldSpB32 gd d a swz off => Sys2Proof.Machine.execLdSpB32 gd d a swz off s
  | .ldSpB64 gd d a swz off => Sys2Proof.Machine.execLdSpB64 gd d a swz off s
  | .stSpB32 gd d a swz off => Sys2Proof.Machine.execStSpB32 gd d a swz off s
  | .stSpB64 gd d a swz off => Sys2Proof.Machine.execStSpB64 gd d a swz off s
  | .ldGmB32 gd d a swz off => Sys2Proof.Machine.execLdGmB32 gd d a swz off s
  | .ldGmB64 gd d a swz off => Sys2Proof.Machine.execLdGmB64 gd d a swz off s
  | .stGmB32 gd d a swz off => Sys2Proof.Machine.execStGmB32 gd d a swz off s
  | .stGmB64 gd d a swz off => Sys2Proof.Machine.execStGmB64 gd d a swz off s
  | .rng gd d k => Sys2Proof.Machine.execRng gd d k s
  | .rngnBm gd d => Sys2Proof.Machine.execRngnBm gd d s
  | .rngnInv gd d => Sys2Proof.Machine.execRngnInv gd d s
  | .rngk gd d a b => Sys2Proof.Machine.execRngk gd d a b s
  | .resn gd d => Sys2Proof.Machine.execResn gd d s
  | .resld gd d a => Sys2Proof.Machine.execResld gd d a s
  | .resst gd d a => Sys2Proof.Machine.execResst gd d a s
  | .hitattr gd d n => Sys2Proof.Machine.execHitattr gd d n s
  | .hitattrPg gd d b => Sys2Proof.Machine.execHitattrPg gd d b s
  | .accept gd a b => Sys2Proof.Machine.execAccept gd a b s
  | .ignore gd => Sys2Proof.Machine.execIgnore gd s
  | .term gd a b => Sys2Proof.Machine.execTerm gd a b s
  | .lwalk gd d a b => Sys2Proof.Machine.execLwalk gd d a b s
  | .ldLx gd f d a b m => Sys2Proof.Machine.execLdLx gd f d a b m s
  | .stLx gd f d a b m => Sys2Proof.Machine.execStLx gd f d a b m s
  | .atomAdd gd d a b m => Sys2Proof.Machine.execAtomAdd gd d a b m s
  | .atomMin gd d a b m => Sys2Proof.Machine.execAtomMin gd d a b m s
  | .atomMax gd d a b m => Sys2Proof.Machine.execAtomMax gd d a b m s
  | .atomAnd gd d a b m => Sys2Proof.Machine.execAtomAnd gd d a b m s
  | .atomOr gd d a b m => Sys2Proof.Machine.execAtomOr gd d a b m s
  | .atomXor gd d a b m => Sys2Proof.Machine.execAtomXor gd d a b m s
  | .atomExch gd d a b m => Sys2Proof.Machine.execAtomExch gd d a b m s
  | .cas gd d a b m => Sys2Proof.Machine.execCas gd d a b m s
  | .ldg gd d a b m => Sys2Proof.Machine.execLdg gd d a b m s
  | .stg gd d a b m => Sys2Proof.Machine.execStg gd d a b m s
  | .prefetch gd a b sp imm => Sys2Proof.Machine.execPrefetch gd a b sp imm s
  | .madB32 gd d a b c => Sys2Proof.Machine.execMadB32 gd d a b c s
  | .madB64 gd d a b c => Sys2Proof.Machine.execMadB64 gd d a b c s
  | .fmaF32 gd d a b c r => Sys2Proof.Machine.execFmaF32 gd d a b c r s
  | .fmaF16x2 gd d a b c r => Sys2Proof.Machine.execFmaF16x2 gd d a b c r s
  | .bfiB32 gd d a b c => Sys2Proof.Machine.execBfiB32 gd d a b c s
  | .selB32 gd d a b p => Sys2Proof.Machine.execSelB32 gd d a b p s
  | .fclampF32 gd d a b c => Sys2Proof.Machine.execFclampF32 gd d a b c s
  | .cvt gd d a st dt r => Sys2Proof.Machine.execCvt gd d a st dt r s
  | .cvtq gd d a c n => Sys2Proof.Machine.execCvtq gd d a c n s
  | .dqv gd d a b n => Sys2Proof.Machine.execDqv gd d a b n s
  | .mxsign gd key a => Sys2Proof.Machine.execMxsign gd key a s
  | .mxsignWait gd key a => Sys2Proof.Machine.execMxsignWait gd key a s
  | .mxdrain gd m d a b => Sys2Proof.Machine.execMxdrain gd m d a b s
  | .neval gd d a b => Sys2Proof.Machine.execNeval gd d a b s
  | .ksign gd key => Sys2Proof.Machine.execKsign gd key s
  | .ksignWait gd key => Sys2Proof.Machine.execKsignWait gd key s
  | .ksignDecl gd key a => Sys2Proof.Machine.execKsignDecl gd key a s
  | .trace gd fl d a b c => Sys2Proof.Machine.execTrace gd fl d a b c s
  | .occl gd fl d a b c => Sys2Proof.Machine.execOccl gd fl d a b c s
  | .march gd d a b => Sys2Proof.Machine.execMarch gd d a b s
  | .marchRes gd d a b => Sys2Proof.Machine.execMarchRes gd d a b s
  | .resu gd d a b c => Sys2Proof.Machine.execResu gd d a b c s
  | .resm gd src d a b c => Sys2Proof.Machine.execResm gd src d a b c s
  | .gadd q d a b => Sys2Proof.Machine.execGadd q d a b s
  | .gsub q d a b => Sys2Proof.Machine.execGsub q d a b s
  | .gmul q d a b => Sys2Proof.Machine.execGmul q d a b s
  | .gand q d a b => Sys2Proof.Machine.execGand q d a b s
  | .gor q d a b => Sys2Proof.Machine.execGor q d a b s
  | .gxor q d a b => Sys2Proof.Machine.execGxor q d a b s
  | .gshl q d a b => Sys2Proof.Machine.execGshl q d a b s
  | .gshr q d a b => Sys2Proof.Machine.execGshr q d a b s
  | .gmov q d a => Sys2Proof.Machine.execGmov q d a s
  | .gcmp q c d a b => Sys2Proof.Machine.execGcmp q c d a b s
  | .gmovImm q d imm => Sys2Proof.Machine.execGmovImm q d imm s
  | .gaddImm q d imm => Sys2Proof.Machine.execGaddImm q d imm s
  | .gorImm q d imm => Sys2Proof.Machine.execGorImm q d imm s
  | .gshlImm q d imm => Sys2Proof.Machine.execGshlImm q d imm s
  | .gld q d a off => Sys2Proof.Machine.execGld q d a off s
  | .gst q d a off => Sys2Proof.Machine.execGst q d a off s
  | .gbc q d a => Sys2Proof.Machine.execGbc q d a s
  | .br q cond off => Sys2Proof.Machine.execBr q cond off s
  | .jmp off => Sys2Proof.Machine.execJmp off s
  | .call q cond off => Sys2Proof.Machine.execCall q cond off s
  | .ret q a => Sys2Proof.Machine.execRet q a s
  | .rcvSet q n => Sys2Proof.Machine.execRcvSet q n s
  | .rcvJoin q n => Sys2Proof.Machine.execRcvJoin q n s
  | .loop q d len => Sys2Proof.Machine.execLoop q d len s
  | .endloop q => Sys2Proof.Machine.execEndloop q s
  | .yield q => Sys2Proof.Machine.execYield q s
  | .exit q => Sys2Proof.Machine.execExit q s
  | .segw q a => Sys2Proof.Machine.execSegw q a s
  | .view q a => Sys2Proof.Machine.execView q a s
  | .grow q n => Sys2Proof.Machine.execGrow q n s
  | .shrink q n => Sys2Proof.Machine.execShrink q n s
  | .wait all ld st cp mx => Sys2Proof.Machine.execWait all ld st cp mx s
  | .xfence q p1 p2 sc => Sys2Proof.Machine.execXfence q p1 p2 sc s
  | .barTeam q => Sys2Proof.Machine.execBarTeam q s
  | .barCl q => Sys2Proof.Machine.execBarCl q s
  | .tdec q sc a b => Sys2Proof.Machine.execTdec q sc a b s
  | .twait q sc a b => Sys2Proof.Machine.execTwait q sc a b s
  | .wtime q a => Sys2Proof.Machine.execWtime q a s
  | .rtime q d => Sys2Proof.Machine.execRtime q d s
  | .csrr q r csr => Sys2Proof.Machine.execCsrr q r csr s
  | .csrw q r csr => Sys2Proof.Machine.execCsrw q r csr s
  | .trap q code => Sys2Proof.Machine.execTrap q code s
  | .tret q => Sys2Proof.Machine.execTret q s
  | .tmask q => Sys2Proof.Machine.execTmask q s
  | .tunmask q => Sys2Proof.Machine.execTunmask q s
  | .brk q => Sys2Proof.Machine.execBrk q s
  | .launch q x y irq tag => Sys2Proof.Machine.execLaunch q x y irq tag s
  | .copyBlockCmd q x => Sys2Proof.Machine.execCopyBlockCmd q x s
  | .copyDirect q x y n => Sys2Proof.Machine.execCopyDirect q x y n s
  | .coll q x => Sys2Proof.Machine.execColl q x s
  | .strn q x => Sys2Proof.Machine.execStrn q x s
  | .chain q x => Sys2Proof.Machine.execChain q x s
  | .hingeReadRequest id => Sys2Proof.Machine.execHingeReadRequest id s
  | .hingeReadData id => Sys2Proof.Machine.execHingeReadData id s
  | .hingeWrite id => Sys2Proof.Machine.execHingeWrite id s
  | .hingeWriteAcknowledge id => Sys2Proof.Machine.execHingeWriteAcknowledge id s
  | .hingeAtomic id => Sys2Proof.Machine.execHingeAtomic id s
  | .hingeAtomicResult id => Sys2Proof.Machine.execHingeAtomicResult id s
  | .hingeHaloWrite id => Sys2Proof.Machine.execHingeHaloWrite id s
  | .hingeTimeSideband id => Sys2Proof.Machine.execHingeTimeSideband id s
  | .stampedMessageApply id => Sys2Proof.Machine.execStampedMessageApply id s
  | .hingeLaneRepair n lanes => Sys2Proof.Machine.execHingeLaneRepair n lanes s
  | .hingeModuleRetire n => Sys2Proof.Machine.execHingeModuleRetire n s
  | .hngCrcerrClear n => Sys2Proof.Machine.execHngCrcerrClear n s
  | .scaleupPortRetrain port => Sys2Proof.Machine.execScaleupPortRetrain port s
  | .scaleupPortDown port => Sys2Proof.Machine.execScaleupPortDown port s
  | .domainRequestArrival r => Sys2Proof.Machine.execDomainRequestArrival r s
  | .cxlPortTrained port cap => Sys2Proof.Machine.execCxlPortTrained port cap s
  | .cxlPortDown port => Sys2Proof.Machine.execCxlPortDown port s
  | .hostLinkTrained width rate => Sys2Proof.Machine.execHostLinkTrained width rate s
  | .hostLinkDown => Sys2Proof.Machine.execHostLinkDown s
  | .hostMemAccess write addr len data => Sys2Proof.Machine.execHostMemAccess write addr len data s
  | .pkgScreenWrite p v => Sys2Proof.Machine.execPkgScreenWrite p v s
  | .resGeomWrite p v => Sys2Proof.Machine.execResGeomWrite p v s
  | .deviceTimeTick => Sys2Proof.Machine.execDeviceTimeTick s
  | .timAdjWrite v => Sys2Proof.Machine.execTimAdjWrite v s
  | .timStepWrite v => Sys2Proof.Machine.execTimStepWrite v s
  | .ppsEdge => Sys2Proof.Machine.execPpsEdge s
  | .ptpMessage kind seq remote => Sys2Proof.Machine.execPtpMessage kind seq remote s
  | .sensorRefresh samples => Sys2Proof.Machine.execSensorRefresh samples s
  | .clockStep => Sys2Proof.Machine.execClockStep s
  | .pkgPwrcapWrite v => Sys2Proof.Machine.execPkgPwrcapWrite v s
  | .caddyLockstepMismatch => Sys2Proof.Machine.execCaddyLockstepMismatch s
  | .logFlush => Sys2Proof.Machine.execLogFlush s
  | .logRead seq => Sys2Proof.Machine.execLogRead seq s
  | .attestRequest nonce => Sys2Proof.Machine.execAttestRequest nonce s
  | .attestReport => Sys2Proof.Machine.execAttestReport s
  | .firmwareUpdate u => Sys2Proof.Machine.execFirmwareUpdate u s
  | .moduleReset => Sys2Proof.Machine.execModuleReset s
  | .bringupStepComplete r => Sys2Proof.Machine.execBringupStepComplete r s
  | .scrubPeriod die r => Sys2Proof.Machine.execScrubPeriod die r s
  | .coreRetire core => Sys2Proof.Machine.execCoreRetire core s
  | .l2SliceRetire die slice => Sys2Proof.Machine.execL2SliceRetire die slice s
  | .partitionCreate p => Sys2Proof.Machine.execPartitionCreate p s
  | .partitionResize p => Sys2Proof.Machine.execPartitionResize p s
  | .partitionReset p scrub => Sys2Proof.Machine.execPartitionReset p scrub s
  | .partitionDestroy p scrub => Sys2Proof.Machine.execPartitionDestroy p scrub s
  | .partitionCmdBadOp p => Sys2Proof.Machine.execPartitionCmdBadOp p s
  | .partitionApplyComplete p => Sys2Proof.Machine.execPartitionApplyComplete p s
  | .partitionResetComplete p => Sys2Proof.Machine.execPartitionResetComplete p s
  | .partitionFlr p => Sys2Proof.Machine.execPartitionFlr p s
  | .pfFlr => Sys2Proof.Machine.execPfFlr s
  | .pfivmapWrite n v => Sys2Proof.Machine.execPfivmapWrite n v s
  | .fbheadWrite p v => Sys2Proof.Machine.execFbheadWrite p v s
  | .fltreplayAll p => Sys2Proof.Machine.execFltreplayAll p s
  | .fltreplayToken p token => Sys2Proof.Machine.execFltreplayToken p token s
  | .fltreplayUnrecoverable p token => Sys2Proof.Machine.execFltreplayUnrecoverable p token s
  | .tlbinvAll p => Sys2Proof.Machine.execTlbinvAll p s
  | .tlbinvPage p va => Sys2Proof.Machine.execTlbinvPage p va s
  | .tlbinvComplete p => Sys2Proof.Machine.execTlbinvComplete p s
  | .odrHeadWrite p v => Sys2Proof.Machine.execOdrHeadWrite p v s
  | .rfHeadWrite p v => Sys2Proof.Machine.execRfHeadWrite p v s
  | .schAreaWrite p area v => Sys2Proof.Machine.execSchAreaWrite p area v s
  | .memRfareaWrite p v => Sys2Proof.Machine.execMemRfareaWrite p v s
  | .schPreemptWrite p v => Sys2Proof.Machine.execSchPreemptWrite p v s
  | .registerWrite fn off width v => Sys2Proof.Machine.execRegisterWrite fn off width v s
  | .doorbell p st v => Sys2Proof.Machine.execDoorbell p st v s
  | .tailWordChange p st => Sys2Proof.Machine.execTailWordChange p st s
  | .qctlEnable p st => Sys2Proof.Machine.execQctlEnable p st s
  | .qctlDisable p st => Sys2Proof.Machine.execQctlDisable p st s
  | .qctlZero p st => Sys2Proof.Machine.execQctlZero p st s
  | .statResume p st => Sys2Proof.Machine.execStatResume p st s
  | .statSkip p st => Sys2Proof.Machine.execStatSkip p st s
  | .headerReread p st => Sys2Proof.Machine.execHeaderReread p st s
  | .nopPacket p st => Sys2Proof.Machine.execNopPacket p st s
  | .launchPacket p st => Sys2Proof.Machine.execLaunchPacket p st s
  | .graphPacket p st => Sys2Proof.Machine.execGraphPacket p st s
  | .copyPacket p st => Sys2Proof.Machine.execCopyPacket p st s
  | .collPacket p st => Sys2Proof.Machine.execCollPacket p st s
  | .semwaitPacket p st => Sys2Proof.Machine.execSemwaitPacket p st s
  | .semsigPacket p st => Sys2Proof.Machine.execSemsigPacket p st s
  | .timewaitPacket p st => Sys2Proof.Machine.execTimewaitPacket p st s
  | .fencePacket p st => Sys2Proof.Machine.execFencePacket p st s
  | .jumpPacket p st => Sys2Proof.Machine.execJumpPacket p st s
  | .waitConditionMet p st => Sys2Proof.Machine.execWaitConditionMet p st s
  | .tumblerPoll core slot lane => Sys2Proof.Machine.execTumblerPoll core slot lane s
  | .gridComplete p gs => Sys2Proof.Machine.execGridComplete p gs s
  | .nodeDispatch graph node => Sys2Proof.Machine.execNodeDispatch graph node s
  | .nodeComplete graph node => Sys2Proof.Machine.execNodeComplete graph node s
  | .teamPlace p gs => Sys2Proof.Machine.execTeamPlace p gs s
  | .groupEnd core slot => Sys2Proof.Machine.execGroupEnd core slot s
  | .chainTailSeen id => Sys2Proof.Machine.execChainTailSeen id s
  | .chainBlockComplete id => Sys2Proof.Machine.execChainBlockComplete id s
  | .chainResume id => Sys2Proof.Machine.execChainResume id s
  | .copyBlockCopy id => Sys2Proof.Machine.execCopyBlockCopy id s
  | .copyBlockFill id => Sys2Proof.Machine.execCopyBlockFill id s
  | .copyBlockHalo id => Sys2Proof.Machine.execCopyBlockHalo id s
  | .copyChunk id => Sys2Proof.Machine.execCopyChunk id s
  | .collAllReduce id => Sys2Proof.Machine.execCollAllReduce id s
  | .collReduceScatter id => Sys2Proof.Machine.execCollReduceScatter id s
  | .collAllGather id => Sys2Proof.Machine.execCollAllGather id s
  | .collBroadcast id => Sys2Proof.Machine.execCollBroadcast id s
  | .collMessageIngress id attempt member data => Sys2Proof.Machine.execCollMessageIngress id attempt member data s
  | .collAbortToken id attempt => Sys2Proof.Machine.execCollAbortToken id attempt s
  | .collAttemptTimeout id => Sys2Proof.Machine.execCollAttemptTimeout id s
  | .matrixBlock id => Sys2Proof.Machine.execMatrixBlock id s
  | .matrixKstep id => Sys2Proof.Machine.execMatrixKstep id s
  | .matrixJobComplete id => Sys2Proof.Machine.execMatrixJobComplete id s
  | .blendTileClose id => Sys2Proof.Machine.execBlendTileClose id s
  | .blendRowWriteback id => Sys2Proof.Machine.execBlendRowWriteback id s
  | .strainerPass id => Sys2Proof.Machine.execStrainerPass id s
  | .strainerPixel id => Sys2Proof.Machine.execStrainerPixel id s
  | .strainerVisRayResult id => Sys2Proof.Machine.execStrainerVisRayResult id s
  | .strainerPassComplete id => Sys2Proof.Machine.execStrainerPassComplete id s
  | .strainerAdvance id => Sys2Proof.Machine.execStrainerAdvance id s
  | .rayNodeRead id => Sys2Proof.Machine.execRayNodeRead id s
  | .rayResultWrite id => Sys2Proof.Machine.execRayResultWrite id s
  | .marchEvent id => Sys2Proof.Machine.execMarchEvent id s
  | .lwalkNodeRead id => Sys2Proof.Machine.execLwalkNodeRead id s
  | .laneSwap core sa sb lane => Sys2Proof.Machine.execLaneSwap core sa sb lane s
  | .orderedAccessArrival id => Sys2Proof.Machine.execOrderedAccessArrival id s
  | .orderedAccessRelease id => Sys2Proof.Machine.execOrderedAccessRelease id s
  | .pageWalkComplete id => Sys2Proof.Machine.execPageWalkComplete id s
  | .loadDataReturn id data ok => Sys2Proof.Machine.execLoadDataReturn id data ok s
  | .poisonReturn id => Sys2Proof.Machine.execPoisonReturn id s
  | .writePerformed id ok => Sys2Proof.Machine.execWritePerformed id ok s
  | .storeBufferDrain id => Sys2Proof.Machine.execStoreBufferDrain id s
  | .sliceMove core slot => Sys2Proof.Machine.execSliceMove core slot s
  | .loopEndStep core slot => Sys2Proof.Machine.execLoopEndStep core slot s
  | .growGrant core slot => Sys2Proof.Machine.execGrowGrant core slot s
  | .allocatorImpasse core => Sys2Proof.Machine.execAllocatorImpasse core s
  | .activeSetRotate core slot => Sys2Proof.Machine.execActiveSetRotate core slot s
  | .groupEnterActive core slot => Sys2Proof.Machine.execGroupEnterActive core slot s
  | .wtimeRelease core slot lane => Sys2Proof.Machine.execWtimeRelease core slot lane s
  | .wtimePreentry core slot => Sys2Proof.Machine.execWtimePreentry core slot s
  | .periodBoundary p => Sys2Proof.Machine.execPeriodBoundary p s
  | .migrationStart team core => Sys2Proof.Machine.execMigrationStart team core s
  | .migrationCopyDone team => Sys2Proof.Machine.execMigrationCopyDone team s
  | .forwardEntryExpire core entry => Sys2Proof.Machine.execForwardEntryExpire core entry s
  | .forwardedMessage id core slot => Sys2Proof.Machine.execForwardedMessage id core slot s
  | .preemptClassTrigger p gs => Sys2Proof.Machine.execPreemptClassTrigger p gs s
  | .preemptDeadlineExpire team => Sys2Proof.Machine.execPreemptDeadlineExpire team s
  | .withholdExpire p => Sys2Proof.Machine.execWithholdExpire p s
  | .saveAreaAvailable team => Sys2Proof.Machine.execSaveAreaAvailable team s
  | .deadboltRequest team kind => Sys2Proof.Machine.execDeadboltRequest team kind s
  | .shadowQueuesEmpty team => Sys2Proof.Machine.execShadowQueuesEmpty team s
  | .deadboltFreeze team => Sys2Proof.Machine.execDeadboltFreeze team s
  | .deadboltScanDone team => Sys2Proof.Machine.execDeadboltScanDone team s
  | .deadboltDrainDone team => Sys2Proof.Machine.execDeadboltDrainDone team s
  | .shadowMismatch core slot lane => Sys2Proof.Machine.execShadowMismatch core slot lane s
  | .asyncErrorDelivery core slot lane => Sys2Proof.Machine.execAsyncErrorDelivery core slot lane s
  | .hostCacheSnoop addr data => Sys2Proof.Machine.execHostCacheSnoop addr data s
  | .hingeCrcRetry n => Sys2Proof.Machine.execHingeCrcRetry n s
  | .hingeModuleRetrained n => Sys2Proof.Machine.execHingeModuleRetrained n s
  | .hingeRequestTimeout id => Sys2Proof.Machine.execHingeRequestTimeout id s
  | .caddyRestartComplete => Sys2Proof.Machine.execCaddyRestartComplete s
  | .powerFail => Sys2Proof.Machine.execPowerFail s

end Sys2Proof.Machine
end

