-- ==== Sys2Proof/Machine/Enabled.lean ====
section
/-!
DEFINITION. The events of the part that can happen in a state, which the default move draws on (DESIGN CHOICE, log entry 1). An event that waits for
something may stand here before it can act; it then changes nothing.
-/
namespace Sys2Proof.Machine

/-- An event that happens by itself, as its meaning. -/
abbrev Happening := State → Result

/-- An event, when a condition holds. -/
def onlyIf (c : Bool) (m : Happening) : List Happening := if c then [m] else []

/-- What the accesses in flight can do: one that travels on the Hinge waits until it may be applied, one for a target outside waits for its
answer, and one that its receiver has discarded for its time to run out. -/
def flightEvents (s : State) (f : Flight) : List Happening :=
  match f.stage, f.kind with
  | .outside, _ | .beyond, _ => []
  | .lost, _ => [execHingeRequestTimeout f.id]
  | .performed, .read _ | .performed, .atomic _ _ _ _ _ =>
    if f.poisoned && f.engine.isNone then [execPoisonReturn f.id] else [execLoadDataReturn f.id 0 true]
  | .performed, _ => [execWritePerformed f.id true]
  | .request, _ | .answer, _ =>
    if f.stale s then f.reads.flatMap fun r => match r.place with
      | .sp c _ => [execForwardedMessage f.id c 0]
      | _ => []
    else onlyIf (mayApply s f) (match f.hingeKind with
      | some 0 => execHingeReadRequest f.id
      | some 1 => execHingeReadData f.id
      | some 2 => execHingeWrite f.id
      | some 3 => execHingeWriteAcknowledge f.id
      | some 4 => execHingeAtomic f.id
      | some 5 => execHingeAtomicResult f.id
      | some 6 => execHingeHaloWrite f.id
      | _ => execHingeTimeSideband f.id)

/-- What the memory system can do. -/
def memEvents (s : State) : List Happening :=
  s.ms.flights.flatMap (flightEvents s) ++ s.ms.sb.map (fun e => execStoreBufferDrain e.id) ++
    s.ms.walks.map (fun w => execPageWalkComplete w.id) ++
    s.render.pixels.map fun p => if p.arrived then execOrderedAccessRelease p.id else execOrderedAccessArrival p.id

/-- What a lane that waits can do. -/
def laneEvents (s : State) (g : Group) (l : Nat) : List Happening :=
  let x := g.lane l
  onlyIf (x.takesPend || x.takesLate) (execAsyncErrorDelivery g.core g.slot l) ++
    (match x.wait with
     | .time t => onlyIf (decide (t ≤ s.time.now)) (execWtimeRelease g.core g.slot l)
     | .tumbler _ _ _ _ => [execTumblerPoll g.core g.slot l]
     | _ => []) ++
    (match x.home with
     | some h => onlyIf (!x.shader) (execLaneSwap g.core g.slot h l)
     | none => if x.shader then
         (s.groups.filter fun h => h.core == g.core && mayCompact s g h l).map fun h => execLaneSwap g.core g.slot h.slot l
       else [])

/-- Whether an instruction makes `.ls` accesses. -/
def namesSlices (i : Instr) : Bool :=
  match i with
  | .ldLsB32 _ _ _ _ _ | .ldLsB64 _ _ _ _ _ | .stLsB32 _ _ _ _ _ | .stLsB64 _ _ _ _ _ => true
  | .ldLx _ _ _ _ _ m | .stLx _ _ _ _ _ m => m.space == spaceLs
  | .atomAdd _ _ _ _ m | .atomMin _ _ _ _ m | .atomMax _ _ _ _ m | .atomAnd _ _ _ _ m | .atomOr _ _ _ _ m | .atomXor _ _ _ _ m
  | .atomExch _ _ _ _ m | .cas _ _ _ _ m => m.space == spaceLs
  | _ => false

/-- Whether a group has a lane that is blocked for the group's slices (R177). -/
def wantsSlices (s : State) (g : Group) : Bool :=
  !g.inStore && (List.range 32).any fun l => (match (g.lane l).wait with
    | .cohort _ => true
    | _ => false) && (match (fetchInstr s g l (g.lane l).pc.toNat).2 with
    | .words w1 w2 => (match decodeWords w1 w2 with
      | .ok i => namesSlices i
      | .error _ => false)
    | _ => false)

/-- What a group whose team runs can do. -/
def groupEvents (s : State) (g : Group) : List Happening :=
  if !teamRuns s g.team then []
  else
    [execLoopEndStep g.core g.slot, execGrowGrant g.core g.slot] ++ onlyIf (mayLeave s g) (execActiveSetRotate g.core g.slot) ++
      onlyIf (mayEnter s g) (execGroupEnterActive g.core g.slot) ++ onlyIf (preentryDue s g) (execWtimePreentry g.core g.slot) ++
      onlyIf g.ended (execGroupEnd g.core g.slot) ++
      onlyIf (wantsSlices s g) (execSliceMove g.core g.slot) ++ onlyIf g.growing (execAllocatorImpasse g.core) ++
      (List.range 32).flatMap (laneEvents s g)

/-- The packet event of a TYPE (R101). -/
def packetEvent (typ p st : Nat) : List Happening :=
  match typ with
  | 1 => [execNopPacket p st] | 2 => [execLaunchPacket p st] | 3 => [execGraphPacket p st] | 4 => [execCopyPacket p st] | 5 => [execCollPacket p st]
  | 6 => [execSemwaitPacket p st] | 7 => [execSemsigPacket p st] | 8 => [execTimewaitPacket p st] | 9 => [execFencePacket p st]
  | 10 => [execJumpPacket p st] | _ => []

/-- What a front end can do. -/
def streamEvents (p : Nat) (x : Stream) : List Happening :=
  if !x.en then []
  else
    onlyIf x.mtail (execTailWordChange p x.num) ++ (match x.state, x.packet with
      | .reading, none => [execHeaderReread p x.num]
      | .reading, some k => packetEvent (packetType k.bytes) p x.num
      | .waiting, _ => [execWaitConditionMet p x.num]
      | _, _ => [])

/-- What a partition can do. -/
def partEvents (s : State) (q : Partition) : List Happening :=
  ((readyGrids s q.num).flatMap fun g => onlyIf (classTriggers s g) (execPreemptClassTrigger q.num g.slot)) ++
    onlyIf (q.exists_ && decide (q.sch.periodNext ≤ s.time.now)) (execPeriodBoundary q.num) ++
    onlyIf (!q.sch.withheld.isEmpty && decide (q.sch.withheldUntil ≤ s.time.now)) (execWithholdExpire q.num) ++
    onlyIf (q.state == .busy) (execPartitionApplyComplete q.num) ++ onlyIf (q.state == .resetting) (execPartitionResetComplete q.num) ++
    onlyIf (!q.tlbPend.isEmpty) (execTlbinvComplete q.num) ++ q.streams.flatMap (streamEvents q.num)

/-- What a grid can do. -/
def gridEvents (s : State) (g : Grid) : List Happening :=
  [execTeamPlace g.part g.slot, execGridComplete g.part g.slot] ++ onlyIf (classTriggers s g) (execPreemptClassTrigger g.part g.slot)

/-- What the nodes of a graph can do. -/
def graphEvents (g : Graph) : List Happening :=
  (List.range g.nodes.length).flatMap fun n => match (g.nodes.getD n default).state with
    | .ready => [execNodeDispatch g.id n]
    | .dispatched => [execNodeComplete g.id n]
    | _ => []

/-- What the Deadbolt of a team can do. -/
def teamEvents (s : State) (t : Team) : List Happening :=
  (match t.db with
   | .idle =>
     onlyIf t.due (execDeadboltRequest t.id .checkpoint) ++ (match t.latched with
      | some (k, d) => onlyIf (latchOpen s t) (execDeadboltRequest t.id k) ++ onlyIf (decide (d ≤ s.time.now)) (execPreemptDeadlineExpire t.id)
      | none => onlyIf (mustSave s t) (execDeadboltRequest t.id .cut)) ++
     ((List.range 288).filter fun c => mayMigrate s t c).map fun c => execMigrationStart t.id c
   | .drainShd => [execShadowQueuesEmpty t.id]
   | .freeze => [execDeadboltFreeze t.id]
   | .scan => [execDeadboltScanDone t.id]
   | .complete => [execDeadboltDrainDone t.id]
   | .close => [execMigrationCopyDone t.id])

/-- What a command of an engine can do. -/
def cmdEvents (c : EngCmd) : List Happening :=
  match c.body with
  | .copy j =>
    if c.started then [execCopyChunk c.id, execChainBlockComplete c.id]
    else match j.op with
      | 0 => [execCopyBlockCopy c.id]
      | 1 => [execCopyBlockFill c.id]
      | _ => [execCopyBlockHalo c.id]
  | .coll j =>
    if c.started then [execCopyChunk c.id, execChainBlockComplete c.id, execCollAttemptTimeout c.id]
    else match j.op with
      | 0 => [execCollAllReduce c.id]
      | 1 => [execCollReduceScatter c.id]
      | 2 => [execCollAllGather c.id]
      | _ => [execCollBroadcast c.id]
  | .strainer _ => [execStrainerPass c.id, execStrainerAdvance c.id, execStrainerPixel c.id, execStrainerPassComplete c.id, execChainBlockComplete c.id]
  | .matrix _ => [execMatrixBlock c.id, execChainBlockComplete c.id]

/-- What a ray can do. -/
def rayEvents (r : RaySlot) : List Happening :=
  match r.state, r.owner with
  | .walk, _ => [execRayNodeRead r.id]
  | .done, .lane _ _ _ => [execRayResultWrite r.id]
  | .done, .strainer _ => [execStrainerVisRayResult r.id]
  | _, _ => []

/-- What the engines and the units of rendering can do. -/
def unitEvents (s : State) : List Happening :=
  s.eng.chains.map (fun c => if c.halted then execChainResume c.id else execChainTailSeen c.id) ++ s.eng.cmds.flatMap cmdEvents ++
    s.render.rays.flatMap rayEvents ++ s.render.marches.map (fun m => execMarchEvent m.id) ++
    s.render.walks.map (fun w => execLwalkNodeRead w.id) ++
    s.render.jobs.flatMap (fun j => [execMatrixKstep j.id, execMatrixJobComplete j.id]) ++
    s.render.tiles.flatMap fun t => execBlendTileClose t.id :: t.rows.map fun r => execBlendRowWriteback r.id

/-- The forwarding entries that have expired, by their number on their core. -/
def expiredEntries (s : State) : List Happening :=
  (s.fwd.map FwdEntry.core).dedup.flatMap fun c =>
    (s.fwd.filter fun f => f.core == c).mapIdx (fun i f => onlyIf (decide (f.until_ ≤ s.time.now)) (execForwardEntryExpire c i)) |>.flatten

/-- What Caddy can do. -/
def caddyEvents (s : State) : List Happening :=
  if !s.caddy.running then []
  else
    onlyIf (!s.caddy.logBuf.isEmpty) execLogFlush ++ onlyIf (!s.caddy.attest.isEmpty) execAttestReport ++
      onlyIf (decide (s.therm.lastStep + 1000000 ≤ s.time.now)) execClockStep ++
      (s.retiring.filter fun c => !coreHeld s c).map execCoreRetire

/-- The events that can happen now, in one order. (in part DESIGN CHOICE, log entry 1) -/
def enabled (s : State) : List Happening :=
  memEvents s ++ s.groups.flatMap (groupEvents s) ++ unitEvents s ++ s.parts.flatMap (partEvents s) ++ s.graphs.flatMap graphEvents ++
    s.grids.flatMap (gridEvents s) ++ s.teams.flatMap (teamEvents s) ++ expiredEntries s ++ caddyEvents s

/-- Element `n` of a list, counted round. -/
def pickFrom (l : List Happening) (n : Nat) : Option Happening := l[n % l.length]?

/-- The move taken when the agenda is empty (DESIGN CHOICE, log entry 1): in turn, a lane that may issue, work of the part that can go on, a lane that is
blocked at an instruction, and a tick of device time. `issue` is the issue of a lane's cohort. -/
def defaultMove (issue : Nat → Nat → Nat → Happening) (s : State) : Happening :=
  let n := s.turn / 4
  let lanes (l : List (Nat × Nat × Nat)) : Option Happening := pickFrom (l.map fun x => issue x.1 x.2.1 x.2.2) n
  let go := lanes (issuable s false ++ issuableShadows s)
  let again := lanes (issuable s true)
  let work := pickFrom (enabled s) n
  let first := match s.turn % 4 with
    | 0 => (go.or work).or again
    | 1 => (work.or go).or again
    | 2 => (again.or work).or go
    | _ => none
  first.getD execDeviceTimeTick

end Sys2Proof.Machine
end

