-- ==== Sys2Proof/Machine/Step.lean ====
section
/-!
DEFINITION. One step of the module: the first move of the agenda, or, when the agenda is empty, the move of the default rule (DESIGN CHOICE, log entry 1).
-/
namespace Sys2Proof.Machine

/-- Issues the cohort of a lane: the words at its program counter are decoded and executed. A shadow group takes the next entry of its queue.
(in part DESIGN CHOICE, log entry 1) -/
def stepIssue (s : State) (core slot lane : Nat) : Host.Outcome State Fault Refusal :=
  match shadowIn s core slot with
  | some h => .next (shadowStep exec s h)
  | none => match fetchCohort s core slot lane with
    | .nothing s' => .next s'
    | .words s' w1 w2 =>
      match decodeWords w1 w2 with
      | .ok i => issueShadowed exec i s'
      | .error _ => .next (reservedWord s')

/-- One move. (in part DESIGN CHOICE, log entry 1) -/
def stepAct (s : State) (a : Act) : Host.Outcome State Fault Refusal :=
  match a with
  | .issue core slot lane => stepIssue s core slot lane
  | .event i => if Instr.isEvent i then exec i s else .next s

/-- One step: a move, and what every move settles. -/
def step (s : State) : Host.Outcome State Fault Refusal :=
  match s.agenda with
  | a :: rest => onNext (settleAfter s) (stepAct { s with agenda := rest } a)
  | [] =>
    if !s.powered then .fault .powerOff
    else onNext (settleAfter s) (defaultMove (fun core slot lane t => stepIssue t core slot lane) s { s with turn := s.turn + 1 })

/-- `s` with an instruction of the opcode table's numbering stored where the next step fetches. (in part DESIGN CHOICE, log entry 15) -/
def State.withFetchWord (s : State) (nbits w : Nat) : State := placeWord s nbits w

end Sys2Proof.Machine
end

