-- ==== Sys2Proof/Safety.lean ====
section
/-!
DEFINITION. What counts as a safe run, and the terms in which claims about an instruction are stated: when its word fits, and what a word
of the lane set or of the group set leaves behind.
-/
namespace Sys2Proof.Machine

/-- Every one of the first `k` steps from `s` answers a next state or a fault: none is refused. -/
def neverRefused : Nat → State → Prop
  | 0, _ => True
  | k + 1, s =>
    match step s with
    | .next s' => neverRefused k s'
    | .fault _ => True
    | .refused _ => False

/-! ## The memories' canonical form -/

/-- Module memory, the scratchpads, and what a module reset keeps of memory are in canonical form. -/
def MemOk (s : State) : Prop := s.mem.wf = true ∧ s.scratch.wf = true ∧ s.chip.wf = true

/-! ## Words of the lane set -/

/-- A lane-set word issues from group `g` and nothing refuses it: no register that it names runs past RSIZE (R163), and shader state, if the
cohort is in it, allows the word (R277). -/
def LaneFits (s : State) (g : Group) (form : LaneForm) : Prop :=
  s.issuing? = some g ∧ (∀ r ∈ form.srcs ++ form.dsts, r.past g = false) ∧
    (inShader s = true → form.shaderOk = true ∧ ∀ r ∈ form.srcs, r.isLatch = false)

/-- Lane `l` of the issuing group past the issuing word, when it stands in the cohort. -/
def passed? (s : State) (g : Group) (l : Nat) : Lane :=
  if l ∈ s.issue.lanes then { g.lane l with pc := s.issue.next, wait := .none } else g.lane l

/-- A group with the flags that a word raises in it: those of its Active lanes (R279, R359), and AINV where the word reads a register that is
marked invalid in a lane's home group (R124). -/
def raisedBy (s : State) (g : Group) (act : List Nat) (form : LaneForm) (flags : Nat → FlagSet) (h : Group) : Group :=
  (h.raised g act flags).raised g act (readsInvalid s g form)

/-- What a lane-set word makes of the groups: `eff` in each Active lane, `flags` in the groups, `g₁` for the group's own registers, and the
cohort past the word. A one-word form leaves the loops alone and may leave its cohort waiting for a loop's end (R161). -/
def LaneGroups (s t : State) (g g₁ : Group) (gd : Guard) (form : LaneForm) (flags : Nat → FlagSet) (eff : Nat → Lane → Lane) : Prop :=
  (∀ c k, ¬(c = s.issue.core ∧ k = s.issue.slot) → t.group? c k = (s.group? c k).map (raisedBy s g (activeLanes g gd s) form flags)) ∧
  ∃ h, t.issuing? = some h ∧
    { h with lanes := g.lanes, loops := g.loops, ldep := g.ldep } = raisedBy s g (activeLanes g gd s) form flags g₁ ∧
    h.lanes.length = g.lanes.length ∧
    (∀ l, l < g.lanes.length →
      h.lane l = { (if l ∈ activeLanes g gd s then eff l (passed? s g l) else passed? s g l) with wait := (h.lane l).wait }) ∧
    (s.issue.len = 4 → h.loops = g.loops ∧ h.ldep = g.ldep ∧ ∀ l, l < g.lanes.length →
      if l ∈ s.issue.lanes then (h.lane l).wait = .none ∨ ∃ k, (h.lane l).wait = .loopEnd k else (h.lane l).wait = (g.lane l).wait)

/-- What a lane-set word that only computes leaves: the groups as `LaneGroups` says, and everything else as it was. -/
def LaneWord (s t : State) (g g₁ : Group) (gd : Guard) (form : LaneForm) (flags : Nat → FlagSet) (eff : Nat → Lane → Lane) : Prop :=
  { t with groups := s.groups } = s ∧ LaneGroups s t g g₁ gd form flags eff

/-! ## Words of the group set -/

/-- A group-set word issues from group `g`, its guard reads 1, and shader state, if the cohort is in it, allows the word (R277, R352). -/
def GroupFits (s : State) (g : Group) (q : Nat) (form : GroupForm) : Prop :=
  s.issuing? = some g ∧ predQ g q = true ∧ (inShader s = true → form.refused q = false)

/-- What a group-set word makes of the groups: the group is `g₁` but for its cohort, which stands past the word; a one-word form leaves the
loops alone. -/
def GroupPast (s t : State) (g₁ : Group) : Prop :=
  (∀ c k, ¬(c = s.issue.core ∧ k = s.issue.slot) → t.group? c k = s.group? c k) ∧
  ∃ h, t.issuing? = some h ∧ { h with lanes := g₁.lanes, loops := g₁.loops, ldep := g₁.ldep } = g₁ ∧
    h.lanes.length = g₁.lanes.length ∧
    (∀ l, l < g₁.lanes.length → h.lane l = { passed? s g₁ l with wait := (h.lane l).wait }) ∧
    (s.issue.len = 4 → h.loops = g₁.loops ∧ h.ldep = g₁.ldep ∧ ∀ l, l < g₁.lanes.length →
      if l ∈ s.issue.lanes then (h.lane l).wait = .none ∨ ∃ k, (h.lane l).wait = .loopEnd k else (h.lane l).wait = (g₁.lane l).wait)

/-- What a group-set word that changes the group alone leaves: the groups as `GroupPast` says, and everything else as it was. -/
def GroupWord (s t : State) (g₁ : Group) : Prop := { t with groups := s.groups } = s ∧ GroupPast s t g₁

/-! ## Accesses of words -/

/-- The accesses of a lane-set word go ahead: nothing holds the word back (R177, R183, R208, R216), and every address of its Active lanes
passes the checks of R394. They are checked in `s₀`, which is the state with the cohort past the word; `s₁` is the state after the
translations, and `ps` holds each lane with its place and address. -/
def AccessGoes (s s₀ s₁ : State) (g : Group) (act : List Nat) (sp n : Nat) (acc : Acc) (c : Counter) (addr : Nat → Word64)
    (ps : List (Nat × Place × Word64)) : Prop :=
  memBusy s g act sp n 0 c (act.map fun l => (l, addr l)) = false ∧
  checkAll s₀ g sp n acc 0 (act.map fun l => (l, addr l)) = (s₁, ps.map fun x => (x.1, x.2.2, .ok x.2.1))

/-- Whether a place stands on a die. -/
def onDie (die : Nat) (p : Place) : Bool := decide (p.reach die = .here)

/-- `t` is `s₁` after accesses have left their core: but for the groups, only flights, Hinge counts, meters, messages to the outside and
identifiers differ, and no byte of memory does. -/
def OnlySent (s₁ t : State) : Prop :=
  { t with groups := s₁.groups, ms := s₁.ms, parts := s₁.parts, out := s₁.out, fresh := s₁.fresh } = s₁ ∧
  { t.ms with flights := s₁.ms.flights, sent := s₁.ms.sent } = s₁.ms ∧
  (∀ q, { t.part q with sch := { (t.part q).sch with meters := (s₁.part q).sch.meters } } = s₁.part q) ∧
  ∀ p, readByte t p = readByte s₁ p

/-- What a load leaves (R398): each Active lane has one read on its way, whose parts on its own die are read. -/
def Loaded (s s₁ t : State) (g : Group) (gd : Guard) (form : LaneForm) (sp n sc : Nat) (acq : Bool) (dest : Dest)
    (ps : List (Nat × Place × Word64)) : Prop :=
  LaneGroups s t g g gd form (fun _ => noFlags) (fun _ x => { x with ld := x.ld + 1 }) ∧ OnlySent s₁ t ∧
  ∃ fs, t.ms.flights = s₁.ms.flights ++ fs ∧
    fs.map (fun f => (f.kind, f.lanes, f.core, f.slot, f.counter, f.addr, f.acquire, f.reads)) =
      ps.map fun x => (.read dest, [x.1], g.core, g.slot, .ld, (spaceVa s g sp x.2.2).toNat, acq,
        fillParts s₁ (onDie (dieOfCore g.core)) (readParts s₁ g (effScope (spaceVa s g sp x.2.2).toNat sc) x.2.1 n))

/-- The state in which a word that releases is checked (R212, R213): after what a release by its Active lanes drains. -/
def afterRelease (s : State) (g : Group) (act : List Nat) (rel : Bool) (scope : Nat) : State :=
  if rel && !act.isEmpty then releaseDrain (advance s) g scope else advance s

/-- The issuing group's lanes in `t` are those of `s₁` with `eff` in some, but for what they wait for and their slices. -/
def LanesFrom (s₁ t : State) (ls : List Nat) (eff : Lane → Lane) : Prop :=
  ∃ k h, s₁.issuing? = some k ∧ t.issuing? = some h ∧ h.lanes.length = k.lanes.length ∧
    ∀ l, l < k.lanes.length →
      h.lane l = { (if l ∈ ls then eff (k.lane l) else k.lane l) with wait := (h.lane l).wait, slice := (h.lane l).slice }

/-- A place that has one name: no window of the region map shows it again, and its offset lies in its SRAM. -/
def Place.own (s : State) (p : Place) : Prop :=
  match p with
  | .phys a => ∀ d, regionOf s.links a ≠ .chip d
  | .sp _ o => o < 1048576
  | .chip _ o => o < chipSize
  | .slice _ _ _ _ => True
  | .remote _ => False

/-- The byte of a store that falls on a place. -/
def storedAt (p : Place) (bs : List Byte) (q : Place) : Option Byte :=
  (List.range bs.length).findSome? fun k => if p.plus k = q then bs[k]? else none

/-- The byte that several stores leave at a place: the last that falls on it (R223). -/
def lastStored (xs : List (Place × List Byte)) (q : Place) : Option Byte := xs.reverse.findSome? fun x => storedAt x.1 x.2 q

/-- What stores to `.gm` leave (R206): an entry of the core's store buffer for each Active lane, and no byte of memory changed. -/
def Buffered (s₁ t : State) (g : Group) (ps : List (Nat × Place × Word64)) (data : Nat → List Byte) (stamped keep : Bool) : Prop :=
  (∀ p, readByte t p = readByte s₁ p) ∧
  { t with groups := s₁.groups, ms := s₁.ms, teams := s₁.teams, fresh := s₁.fresh } = s₁ ∧
  { t.ms with sb := s₁.ms.sb } = s₁.ms ∧
  t.teams = s₁.teams.map (fun x => if x.id == g.team then
    { x with repeatable := x.repeatable && (keep || !ps.any fun p => leavesModule s₁ p.2.1) } else x) ∧
  ∃ es, t.ms.sb = s₁.ms.sb ++ es ∧
    es.map (fun e => (e.core, e.slot, e.lanes, e.place, e.data, e.addr, e.stamped)) =
      ps.map fun x => (g.core, g.slot, [x.1], x.2.1, data x.1, x.2.2.toNat, stamped)

/-- What stores to the scratchpads and slices leave: those of the own die are in their SRAM, the highest lane last (R223), and those of the
other die are on their way. -/
def Scratched (s₁ t : State) (g : Group) (n : Nat) (ps : List (Nat × Place × Word64)) (data : Nat → List Byte) : Prop :=
  let here := onDie (dieOfCore g.core)
  (∀ q, q.own s₁ → readByte t q =
    (lastStored ((ps.filter fun x => here x.2.1).map fun x => (x.2.1, data x.1)) q).getD (readByte s₁ q)) ∧
  t.mem = s₁.mem ∧
  { t with groups := s₁.groups, ms := s₁.ms, parts := s₁.parts, scratch := s₁.scratch, chip := s₁.chip, sramPoison := s₁.sramPoison,
           fresh := s₁.fresh } = s₁ ∧
  { t.ms with flights := s₁.ms.flights, sent := s₁.ms.sent } = s₁.ms ∧
  ∃ fs, t.ms.flights = s₁.ms.flights ++ fs ∧
    fs.map (fun f => (f.kind, f.lanes, f.core, f.slot, f.counter, f.stage, f.reads, f.data)) =
      ps.map fun x => (.write, [x.1], g.core, g.slot, .st, if here x.2.1 then .performed else .request,
        if here x.2.1 then [] else [⟨x.2.1, n, none, false⟩], if here x.2.1 then [] else data x.1)

/-! ## Engine commands -/

/-- The `n` bytes at `.gm` address `a` that an engine command of group `g` reads at issue, and the state after the read: the core's store
buffer has drained what shares a line with them, and no write of the core to them still travels (R206, R430); nothing where the read faults
or has to wait. -/
def blockRead (s : State) (g : Group) (a n : Nat) : Option (State × List Byte) :=
  match spanPlaces s (whoLane s g 0) .read a n with
  | (s₁, .ok ps) =>
    if spanTravels (drainSpan s₁ g.core ps) g.core ps then none
    else match readSpan (drainSpan s₁ g.core ps) (issueOwner (drainSpan s₁ g.core ps)) (whoLane s g 0) a n with
      | (s₂, .data bs) => some (dropArrived s₂ (issueOwner s₂), bs)
      | _ => none
  | _ => none

/-- An engine has accepted a command of the issuing cohort (R430): it stands last among the commands, the `cp` entry of every lane is raised,
the team's interval is unrepeatable (R334), and no byte of memory has changed since `u`. `more` are the spans that are recorded for it
(R183). -/
def Commanded (s u t : State) (g : Group) (kind : EngKind) (addr : Nat) (b : List Byte) (body : EngBody) (more : List RangeEntry) : Prop :=
  LanesFrom u t s.issue.lanes (fun x => { x with cp := x.cp + 1 }) ∧ (∀ p, readByte t p = readByte u p) ∧
  { t with groups := u.groups, teams := u.teams, eng := u.eng, ms := u.ms, fresh := u.fresh } = u ∧
  t.ms = { u.ms with ranges := u.ms.ranges ++ more } ∧ t.eng.chains = u.eng.chains ∧
  (∀ tm, u.team? g.team = some tm → t.team? g.team = some { tm with repeatable := false }) ∧
  ∃ c, t.eng.cmds = u.eng.cmds ++ [c] ∧ c.kind = kind ∧ c.issuer = .group g.core g.slot s.issue.lanes ∧ c.part = u.partOf g ∧
    c.blockAddr = addr ∧ c.head32 = b.take 32 ∧ c.tdec = decide (byteAt b 10 % 2 = 1) ∧ c.tscope = byteAt b 11 ∧ c.tumb = fieldAt b 16 8 ∧
    c.amount = fieldAt b 24 8 ∧ c.body = body ∧ c.started = false ∧ c.paused = none

end Sys2Proof.Machine
end

