-- ==== Sys2Proof/Certificates/Slice0/Obligations.lean ====
section
/-!
DEFINITION. The statements for the provers. Those of one rule cite it; the others cite the rules that they rest on. What the fields of the
state hold of work in flight (accesses, messages, commands, the agenda) is the model's own way of writing down what the spec describes, and
a statement over such a field rests on it.
-/

open Sys2Proof Sys2Proof.Machine

namespace Sys2Proof.Rule

/-- What entry to a handler leaves in a lane (R328): its program counter at TVEC, TDEP one higher, the frame of the new depth in its slice with
EPC, VAL, the cause, INFO with TMSK as it stood, and the token; every other byte of the slice and every register as it was. -/
def Enters (g : Group) (x y : Lane) (cause info : Nat) (epc val : Word64) (token : Nat) : Prop :=
  let f := 64 * g.tframe + 32 * x.tdep
  y.pc = g.tvec ∧ y.tdep = x.tdep + 1 ∧ y.tmsk = x.tmsk ∧ y.regs = x.regs ∧ y.preds = x.preds ∧ y.exited = x.exited ∧
    y.slice.readN f 8 = epc.toNat ∧ y.slice.readN (f + 8) 8 = val.toNat ∧ y.slice.readN (f + 16) 1 = cause % 256 ∧
    y.slice.readN (f + 17) 1 = info % 8 + (if x.tmsk then 8 else 0) ∧ y.slice.readN (f + 20) 4 = token % 2 ^ 32 ∧
    ∀ b, (b < f ∨ f + 32 ≤ b) → y.slice.read b = x.slice.read b

/-- Lanes of a cohort that can enter their handlers: they stand in the group, in their own home, below depth 2. -/
def MayEnter (s : State) (g : Group) : Prop :=
  s.issuing? = some g ∧ s.issue.lanes.Nodup ∧ g.tvec ≠ 0 ∧ g.inStore = true ∧
    ∀ l ∈ s.issue.lanes, l < g.lanes.length ∧ (g.lane l).tdep < 2 ∧ (g.lane l).home = none ∧ (g.lane l).slice.wf = true

/-- The packed result of R376: element 0 in bits [15:0], element 1 in bits [31:16], the flags of both. -/
def halves (e : Nat → Nat → Rounded) (x y : Word32) : Rounded :=
  ⟨(e (x.toNat % 65536) (y.toNat % 65536)).code + 65536 * (e (x.toNat / 65536) (y.toNat / 65536)).code,
    orFlags (e (x.toNat % 65536) (y.toNat % 65536)).flags (e (x.toNat / 65536) (y.toNat / 65536)).flags⟩

/-- The members of the segment of lane `l`, ascending (R387): the Active lanes whose index, divided by the segment width, agrees. -/
def membersOf (g : Group) (act : List Nat) (l : Nat) : List Nat :=
  (List.range 32).filter fun k => decide (k ∈ act) && decide (k / 2 ^ g.wlog = l / 2 ^ g.wlog)

/-- The state of a group in `t` where some lanes of its cohort have gone to `target`, and the loops are as the transfer leaves them. -/
def Went (s t : State) (g g₁ : Group) (ls : List Nat) (target : Nat → Word64) : Prop :=
  { t with groups := s.groups } = s ∧
  ∃ h, t.issuing? = some h ∧ { h with lanes := g₁.lanes, loops := g₁.loops, ldep := g₁.ldep } = g₁ ∧ h.lanes.length = g.lanes.length ∧
    (∀ l, l < g.lanes.length → h.lane l =
      { g₁.lane l with
        pc := if l ∈ ls then target l else if l ∈ s.issue.lanes then s.issue.next else (g.lane l).pc
        wait := (h.lane l).wait })

/-- Two records of a group agree in its registers and layout, and each lane in its registers, predicates, generator and `ld`, `st`, `cp`. -/
def SameFile (x y : Group) : Prop :=
  { y with lanes := x.lanes, loops := x.loops, ldep := x.ldep, bars := x.bars, sln := x.sln, mxs := x.mxs, active := x.active,
           activeSince := x.activeSince, slowSince := x.slowSince, current := x.current, readyAt := x.readyAt,
           stampRun := x.stampRun } = x ∧
  y.lanes.length = x.lanes.length ∧
  ∀ l, l < x.lanes.length → (y.lane l).regs = (x.lane l).regs ∧ (y.lane l).preds = (x.lane l).preds ∧ (y.lane l).rngKey = (x.lane l).rngKey ∧
    (y.lane l).rngPos = (x.lane l).rngPos ∧ (y.lane l).rngStr = (x.lane l).rngStr ∧ (y.lane l).sret = (x.lane l).sret ∧
    (y.lane l).shader = (x.lane l).shader ∧ (y.lane l).home = (x.lane l).home ∧ (y.lane l).ld = (x.lane l).ld ∧
    (y.lane l).st = (x.lane l).st ∧ (y.lane l).cp = (x.lane l).cp

end Sys2Proof.Rule

open Sys2Proof.Rule

/-! ## The step, decoding, and the whole machine -/

/-- A step runs the decoded instruction: where the next move issues a lane whose group may issue, the words at its program counter are fetched
through the translation, and the step is `exec` of what they decode to, with the lanes at that program counter as its cohort; `exec` itself
moves the cohort past the words (R152, R153, R354). Words that are reserved raise ILLOP, and a fetch that faults parks the cohort with the
address of the word that faulted (R347). A group that has a shadow issues through `issueShadowed` (R342, R343). An event of the part that is
the next move is executed. After every move `settleAfter` notes, in the groups, who holds a quarter and who has become ready (R147, R156), and
matches the shadows. The agenda is the model's (log entry 1).
The order of moves and what every move settles are the model's choice (DESIGN CHOICE, log entries 1, 34, 56). -/
def Obligations.StepRunsDecoded : Prop :=
  ∀ (s : State) (rest : List Act),
    let u := { s with agenda := rest }
    (∀ core slot lane g u' w1 w2, s.agenda = .issue core slot lane :: rest → shadowIn u core slot = none → u.group? core slot = some g →
      groupMayIssue u g = true → cohortOf u g lane ≠ [] → fetchInstr u g lane (g.lane lane).pc.toNat = (u', .words w1 w2) →
      let v := { takeQuarter (dropArrived u' (fetchOwner g lane)) g with issue := ⟨core, slot, cohortOf u g lane, (g.lane lane).pc, w1, w2⟩ }
      (∀ i, decodeWords w1 w2 = .ok i → step s = onNext (settleAfter s) (issueShadowed exec i v) ∧
        (shadowOf v g = none → step s = onNext (settleAfter s) (exec i v))) ∧
      (∀ e, decodeWords w1 w2 = .error e → step s = .next (settleAfter s (reservedWord v)))) ∧
    (∀ core slot lane g u' c lv a, s.agenda = .issue core slot lane :: rest → shadowIn u core slot = none → u.group? core slot = some g →
      groupMayIssue u g = true → cohortOf u g lane ≠ [] → fetchInstr u g lane (g.lane lane).pc.toNat = (u', .fault c lv a) →
      step s = .next (settleAfter s (parkLanes (dropArrived u' (fetchOwner g lane)) core slot 3
        ((cohortOf u g lane).map fun l => ⟨l, c, lv, BitVec.ofNat 64 a⟩)))) ∧
    (∀ core slot lane, s.agenda = .issue core slot lane :: rest → shadowIn u core slot = none →
      (∀ g, u.group? core slot = some g → groupMayIssue u g = false ∨ cohortOf u g lane = []) → step s = .next (settleAfter s u)) ∧
    (∀ i, s.agenda = .event i :: rest → (encode i = none → step s = onNext (settleAfter s) (exec i u)) ∧
      (encode i ≠ none → step s = .next (settleAfter s u))) ∧
    (∀ g lane pc u' p, pc % 65536 + 4 ≤ 65536 → translate u (whoLane u g 0) .fetch pc = (u', .ok p) →
      u'.links.reach (dieOfCore g.core) p = .here → (readPlace u' p 4).2 = false →
      isTwoWord (readPlace u' p 4).1 = false → fetchInstr u g lane pc = (u', .words (readPlace u' p 4).1 0)) ∧
    (∀ g lane pc u₁ u₂ p₁ p₂, pc % 65536 + 4 ≤ 65536 → (pc + 4) % 2 ^ 64 % 65536 + 4 ≤ 65536 →
      translate u (whoLane u g 0) .fetch pc = (u₁, .ok p₁) → u₁.links.reach (dieOfCore g.core) p₁ = .here → (readPlace u₁ p₁ 4).2 = false →
      isTwoWord (readPlace u₁ p₁ 4).1 = true → translate u₁ (whoLane u₁ g 0) .fetch ((pc + 4) % 2 ^ 64) = (u₂, .ok p₂) →
      u₂.links.reach (dieOfCore g.core) p₂ = .here → (readPlace u₂ p₂ 4).2 = false →
      fetchInstr u g lane pc = (u₂, .words (readPlace u₁ p₁ 4).1 (readPlace u₂ p₂ 4).1)) ∧
    (∀ t : State, { settleAfter s t with groups := t.groups, fresh := t.fresh, shadows := t.shadows } = t ∧
      (settleAfter s t).groups.map (fun g => { g with current := false, readyAt := 0 }) =
        t.groups.map fun g => { g with current := false, readyAt := 0 })

/-- R348: memory of zeros decodes as `[p0] add.b32 v0, v0, v0`; `0xFFFF_FFFF` is reserved and raises ILLOP, cause 10, on its lanes; the no-op
`or.b32 vz, vz, vz` has the word `0x06FE_79E1`. -/
def Obligations.DecodeSanity : Prop :=
  decodeTableWord 32 0 = some (.addB32 ⟨false, 0⟩ 0 0 0) ∧ decodeWords 0 0 = .ok (.addB32 ⟨false, 0⟩ 0 0 0) ∧
  (∀ w2, decodeWords 0xFFFFFFFF w2 = .error .reservedCode) ∧ Enc.field 0xFFFFFFFF 31 1 = 1 ∧
  (∀ s g, MayEnter s g → s.issue.w1 = 0xFFFFFFFF → ∀ l ∈ s.issue.lanes,
    Enters g (g.lane l) ((reservedWord s).lane s.issue.core s.issue.slot l) 10 0 s.issue.pc s.issue.word 0) ∧
  encode (.orB32 ⟨false, 7⟩ 60 60 60) = some (0x06FE79E1, 0) ∧ decodeTableWord 32 0x06FE79E1 = some (.orB32 ⟨false, 7⟩ 60 60 60)

/-- Reserved words (R353, R354): a word that decodes is well-formed and is exactly the word of its instruction, so that no unused field is
nonzero; a reserved word raises cause 10 on every lane of its cohort, or, for a lane-set word, on those in the segment mask, and the others
move past it. -/
def Obligations.ReservedWords : Prop :=
  (∀ (w1 w2 : Nat) (i : Instr), decodeWords w1 w2 = .ok i → i.wf = true ∧ encode i = some (w1, if isTwoWord w1 then w2 else 0)) ∧
  ∀ (s : State) (g : Group), MayEnter s g → ∀ l ∈ s.issue.lanes,
    let y := (reservedWord s).lane s.issue.core s.issue.slot l
    (2 ^ 31 ≤ s.issue.w1 ∨ g.inSegment l = true → Enters g (g.lane l) y 10 0 s.issue.pc s.issue.word 0) ∧
    (s.issue.w1 < 2 ^ 31 → g.inSegment l = false → y.pc = s.issue.next ∧ y.regs = (g.lane l).regs ∧ y.slice = (g.lane l).slice)

/-- Decoding and encoding agree: the words of every well-formed instruction lie in 32 bits and decode to it, with every operand at every value
that the encoding admits; a one-word form has no second word (R347 to R357). -/
def Obligations.EncodeDecode : Prop :=
  ∀ (i : Instr), i.wf = true → ∀ w, encode i = some w →
    decodeWords w.1 w.2 = .ok i ∧ w.1 < 2 ^ 32 ∧ w.2 < 2 ^ 32 ∧ (isTwoWord w.1 = false → w.2 = 0)

/-- Every step that goes on keeps module memory, the scratchpads and the chip scratchpads in their canonical form: the invariant of the model's
memory on which its reads rest.
The canonical form is the model's own, and so is the value of an unlisted byte (DESIGN CHOICE, log entry 8). -/
def Obligations.MemoryStaysCanonical : Prop := ∀ (s t : State), MemOk s → step s = .next t → MemOk t

/-- No step is refused, and one faults only where the module has no power and nothing is given it to do: every instruction of the opcode table has
its effect in every state.
The stop without power and with nothing to do is the model's choice (DESIGN CHOICE, log entry 69). -/
def Obligations.StepsAnswer : Prop :=
  (∀ (i : Instr) (s : State), ∃ t, exec i s = .next t) ∧
  (∀ (s : State), (∃ t, step s = .next t) ∨ (s.agenda = [] ∧ s.powered = false ∧ step s = .fault .powerOff)) ∧
  ∀ (k : Nat) (s : State), neverRefused k s

/-- What reset leaves (R35, R46, R48, R54, R65, R66, R68, R87): sixteen partitions that are FREE, no work, bring-up at step 1 and not READY, the
links up with no error counted and the host link down, the time base at 0 with ADJ 0, and memories in canonical form.
Values for which the spec gives none, the links and memories among them, are the model's choice (DESIGN CHOICE, log entries 4, 8, 9). -/
def Obligations.ResetValues : Prop :=
  let s := State.reset
  s.parts.length = 16 ∧ (∀ q ∈ s.parts, q.state = .free ∧ q.done = false ∧ q.err = 0 ∧ q.flrpend = false ∧ q.streams = []) ∧
  s.grids = [] ∧ s.teams = [] ∧ s.groups = [] ∧ s.graphs = [] ∧ s.eng.chains = [] ∧ s.eng.cmds = [] ∧ s.ms.flights = [] ∧
  s.caddy.bootStep = 1 ∧ s.caddy.ready = false ∧ s.links.width = 0 ∧ s.links.downev = false ∧ s.links.hinge.length = 40 ∧
  (∀ m ∈ s.links.hinge, m.state = 0 ∧ m.crcerr = 0) ∧ s.links.ports.length = 16 ∧ s.time.adj = 0 ∧ s.time.ppsv = false ∧ MemOk s

/-! ## Lane integers -/

/-- The two-operand words on V registers (R367 to R370, R372): the destination of each Active lane takes the value that the rule gives, from
operands read before any lane is written; a count at or above the width gives what exact arithmetic gives; no flag is raised; nothing else
changes. The invalid-register flag of R124 is part of `LaneWord`. -/
def Sys2Proof.Rule.IntegerTwoOperand32 : Prop :=
  ∀ (s : State) (g : Group) (gd : Guard) (d a b : Nat) (i : Instr) (f : Word32 → Word32 → Word32),
    (i, f) ∈ ([(.addB32 gd d a b, fun x y => BitVec.ofInt 32 (x.toInt + y.toInt)),
      (.subB32 gd d a b, fun x y => BitVec.ofInt 32 (x.toInt - y.toInt)),
      (.mulB32 gd d a b, fun x y => BitVec.ofInt 32 (x.toInt * y.toInt)),
      (.mulhiS32 gd d a b, fun x y => BitVec.ofInt 32 (x.toInt * y.toInt / 2 ^ 32)),
      (.mulhiN32 gd d a b, fun x y => BitVec.ofNat 32 (x.toNat * y.toNat / 2 ^ 32)),
      (.minS32 gd d a b, fun x y => BitVec.ofInt 32 (min x.toInt y.toInt)),
      (.maxS32 gd d a b, fun x y => BitVec.ofInt 32 (max x.toInt y.toInt)),
      (.minN32 gd d a b, fun x y => BitVec.ofNat 32 (min x.toNat y.toNat)),
      (.maxN32 gd d a b, fun x y => BitVec.ofNat 32 (max x.toNat y.toNat)),
      (.andB32 gd d a b, fun x y => x &&& y),
      (.orB32 gd d a b, fun x y => x ||| y),
      (.xorB32 gd d a b, fun x y => x ^^^ y),
      (.shlB32 gd d a b, fun x y => BitVec.ofNat 32 (x.toNat * 2 ^ y.toNat)),
      (.shrB32 gd d a b, fun x y => BitVec.ofNat 32 (x.toNat / 2 ^ y.toNat)),
      (.sraB32 gd d a b, fun x y => BitVec.ofInt 32 (x.toInt / 2 ^ y.toNat)),
      (.rotB32 gd d a b, fun x y => BitVec.ofNat 32 (x.toNat * 2 ^ (y.toNat % 32) + x.toNat / 2 ^ (32 - y.toNat % 32))),
      (.bfeN32 gd d a b, fun x p => BitVec.ofNat 32
        (x.toNat / 2 ^ (p.toNat % 32) % 2 ^ min (min (p.toNat / 256 % 64) 32) (32 - p.toNat % 32))),
      (.bfeS32 gd d a b, fun x p => BitVec.ofInt 32 (Int.bmod (x.toNat / 2 ^ (p.toNat % 32) : Nat)
        (2 ^ min (min (p.toNat / 256 % 64) 32) (32 - p.toNat % 32))))] : List (Instr × (Word32 → Word32 → Word32))) →
    LaneFits s g ⟨[.v a, .v b], [.v d], true⟩ →
    ∃ t, exec i s = .next t ∧
      LaneWord s t g g gd ⟨[.v a, .v b], [.v d], true⟩ (fun _ => noFlags)
        fun l x => dstV g x d (f (srcV g l (g.lane l) a) (srcV g l (g.lane l) b))

/-- The same of the words on W registers (R367, R368, R370), whose shifts take their count from a V register. -/
def Sys2Proof.Rule.IntegerTwoOperand64 : Prop :=
  (∀ (s : State) (g : Group) (gd : Guard) (d a b : Nat) (i : Instr) (f : Word64 → Word64 → Word64),
    (i, f) ∈ ([(.addB64 gd d a b, fun x y => BitVec.ofInt 64 (x.toInt + y.toInt)),
      (.subB64 gd d a b, fun x y => BitVec.ofInt 64 (x.toInt - y.toInt)),
      (.mulB64 gd d a b, fun x y => BitVec.ofInt 64 (x.toInt * y.toInt)),
      (.mulhiS64 gd d a b, fun x y => BitVec.ofInt 64 (x.toInt * y.toInt / 2 ^ 64)),
      (.mulhiN64 gd d a b, fun x y => BitVec.ofNat 64 (x.toNat * y.toNat / 2 ^ 64)),
      (.minS64 gd d a b, fun x y => BitVec.ofInt 64 (min x.toInt y.toInt)),
      (.maxS64 gd d a b, fun x y => BitVec.ofInt 64 (max x.toInt y.toInt)),
      (.minN64 gd d a b, fun x y => BitVec.ofNat 64 (min x.toNat y.toNat)),
      (.maxN64 gd d a b, fun x y => BitVec.ofNat 64 (max x.toNat y.toNat))] : List (Instr × (Word64 → Word64 → Word64))) →
    LaneFits s g ⟨[.w a, .w b], [.w d], true⟩ →
    ∃ t, exec i s = .next t ∧
      LaneWord s t g g gd ⟨[.w a, .w b], [.w d], true⟩ (fun _ => noFlags)
        fun l x => dstW g x d (f (srcW g (g.lane l) a) (srcW g (g.lane l) b))) ∧
  (∀ (s : State) (g : Group) (gd : Guard) (d a b : Nat) (i : Instr) (f : Word64 → Word32 → Word64),
    (i, f) ∈ ([(.shlB64 gd d a b, fun x y => BitVec.ofNat 64 (x.toNat * 2 ^ y.toNat)),
      (.shrB64 gd d a b, fun x y => BitVec.ofNat 64 (x.toNat / 2 ^ y.toNat)),
      (.sraB64 gd d a b, fun x y => BitVec.ofInt 64 (x.toInt / 2 ^ y.toNat)),
      (.rotB64 gd d a b, fun x y => BitVec.ofNat 64 (x.toNat * 2 ^ (y.toNat % 64) + x.toNat / 2 ^ (64 - y.toNat % 64))),
      (.lea gd 0 d a b, fun x y => BitVec.ofInt 64 (x.toInt + y.toInt)),
      (.lea gd 1 d a b, fun x y => BitVec.ofInt 64 (x.toInt + y.toInt * 2)),
      (.lea gd 2 d a b, fun x y => BitVec.ofInt 64 (x.toInt + y.toInt * 4)),
      (.lea gd 3 d a b, fun x y => BitVec.ofInt 64 (x.toInt + y.toInt * 8)),
      (.lea gd 4 d a b, fun x y => BitVec.ofInt 64 (x.toInt + y.toInt * 16))] : List (Instr × (Word64 → Word32 → Word64))) →
    LaneFits s g ⟨[.w a, .v b], [.w d], true⟩ →
    ∃ t, exec i s = .next t ∧
      LaneWord s t g g gd ⟨[.w a, .v b], [.w d], true⟩ (fun _ => noFlags)
        fun l x => dstW g x d (f (srcW g (g.lane l) a) (srcV g l (g.lane l) b)))

/-- The two-operand integer words on V and on W registers (R367 to R370, R372): for every state and operands they answer the next state in which
each Active lane has the value of the rule, and nothing else has changed. -/
def Obligations.IntegerTwoOperand : Prop :=
  Sys2Proof.Rule.IntegerTwoOperand32 ∧ Sys2Proof.Rule.IntegerTwoOperand64

/-- The one-operand words and the forms with a constant (R367, R369, R371). -/
def Sys2Proof.Rule.IntegerOneOperand : Prop :=
  (∀ (s : State) (g : Group) (gd : Guard) (d a imm : Nat) (i : Instr) (f : Word32 → Word32),
    imm < 512 →
    (i, f) ∈ ([(.absS32 gd d a, fun x => BitVec.ofNat 32 x.toInt.natAbs),
      (.negS32 gd d a, fun x => BitVec.ofInt 32 (-x.toInt)),
      (.notB32 gd d a, fun x => ~~~x),
      (.popcB32 gd d a, fun x => BitVec.ofNat 32 ((List.range 32).countP fun k => x.getLsbD k)),
      (.clzB32 gd d a, fun x => BitVec.ofNat 32 (((List.range 32).find? fun k => x.getMsbD k).getD 32)),
      (.ctzB32 gd d a, fun x => BitVec.ofNat 32 (((List.range 32).find? fun k => x.getLsbD k).getD 32)),
      (.brevB32 gd d a, fun x => x.reverse),
      (.addB32Imm gd d a imm, fun x => BitVec.ofInt 32 (x.toInt + signedOf 9 imm)),
      (.andB32Imm gd d a imm, fun x => x &&& BitVec.ofNat 32 imm),
      (.orB32Imm gd d a imm, fun x => x ||| BitVec.ofNat 32 imm),
      (.xorB32Imm gd d a imm, fun x => x ^^^ BitVec.ofNat 32 imm),
      (.shlB32Imm gd d a imm, fun x => BitVec.ofNat 32 (x.toNat * 2 ^ imm)),
      (.shrB32Imm gd d a imm, fun x => BitVec.ofNat 32 (x.toNat / 2 ^ imm)),
      (.sraB32Imm gd d a imm, fun x => BitVec.ofInt 32 (x.toInt / 2 ^ imm))] : List (Instr × (Word32 → Word32))) →
    LaneFits s g ⟨[.v a], [.v d], true⟩ →
    ∃ t, exec i s = .next t ∧
      LaneWord s t g g gd ⟨[.v a], [.v d], true⟩ (fun _ => noFlags) fun l x => dstV g x d (f (srcV g l (g.lane l) a))) ∧
  (∀ (s : State) (g : Group) (gd : Guard) (d a : Nat) (i : Instr) (f : Word64 → Word64),
    (i, f) ∈ ([(.absS64 gd d a, fun x => BitVec.ofNat 64 x.toInt.natAbs),
      (.negS64 gd d a, fun x => BitVec.ofInt 64 (-x.toInt))] : List (Instr × (Word64 → Word64))) →
    LaneFits s g ⟨[.w a], [.w d], true⟩ →
    ∃ t, exec i s = .next t ∧
      LaneWord s t g g gd ⟨[.w a], [.w d], true⟩ (fun _ => noFlags) fun l x => dstW g x d (f (srcW g (g.lane l) a)))

/-- The three-operand integer words (R372 to R374): multiply-add, bit-field insert and select. -/
def Sys2Proof.Rule.IntegerThreeOperand : Prop :=
  ∀ (s : State) (g : Group) (gd : Guard) (d a b c : Nat),
    (LaneFits s g ⟨[.v a, .v b, .v c], [.v d], true⟩ →
      ∃ t, exec (.madB32 gd d a b c) s = .next t ∧ LaneWord s t g g gd ⟨[.v a, .v b, .v c], [.v d], true⟩ (fun _ => noFlags) fun l x =>
        dstV g x d (BitVec.ofNat 32 ((srcV g l (g.lane l) a).toNat * (srcV g l (g.lane l) b).toNat + (srcV g l (g.lane l) c).toNat))) ∧
    (LaneFits s g ⟨[.w a, .w b, .w c], [.w d], true⟩ →
      ∃ t, exec (.madB64 gd d a b c) s = .next t ∧ LaneWord s t g g gd ⟨[.w a, .w b, .w c], [.w d], true⟩ (fun _ => noFlags) fun l x =>
        dstW g x d (BitVec.ofNat 64 ((srcW g (g.lane l) a).toNat * (srcW g (g.lane l) b).toNat + (srcW g (g.lane l) c).toNat))) ∧
    (LaneFits s g ⟨[.v a, .v b, .v c], [.v d], true⟩ →
      ∃ t, exec (.bfiB32 gd d a b c) s = .next t ∧ LaneWord s t g g gd ⟨[.v a, .v b, .v c], [.v d], true⟩ (fun _ => noFlags) fun l x =>
        let p := (srcV g l (g.lane l) c).toNat
        let k := min (min (p / 256 % 64) 32) (32 - p % 32)
        let mask := BitVec.ofNat 32 ((2 ^ k - 1) * 2 ^ (p % 32))
        dstV g x d ((srcV g l (g.lane l) a &&& ~~~mask) ||| (srcV g l (g.lane l) b <<< (p % 32) &&& mask))) ∧
    (∀ n, n < 8 → ∀ neg : Bool, LaneFits s g ⟨[.v a, .v b], [.v d], true⟩ →
      ∃ t, exec (.selB32 gd d a b (n + if neg then 8 else 0)) s = .next t ∧
        LaneWord s t g g gd ⟨[.v a, .v b], [.v d], true⟩ (fun _ => noFlags) fun l x =>
          dstV g x d (if (predP (g.lane l) n != neg) then srcV g l (g.lane l) a else srcV g l (g.lane l) b))

/-- The one-operand words, the forms with a constant, and the three-operand integer words (R367, R369, R371 to R374): the next state has the
value of the rule in each Active lane, and nothing else has changed. -/
def Obligations.IntegerOneAndThree : Prop :=
  Sys2Proof.Rule.IntegerOneOperand ∧ Sys2Proof.Rule.IntegerThreeOperand

/-- Integer and float compares (R375, R381): P(D) of each Active lane says whether the relation of FN holds; a D of 7 changes nothing; no flag
is raised. The words are majors 0x07 to 0x0A by type, and 0x16; an integer compare of FN 6 or 7 is reserved. -/
def Obligations.Compares : Prop :=
  ∀ (s : State) (g : Group) (gd : Guard) (d a b : Nat),
    (LaneFits s g ⟨[.v a, .v b], [], true⟩ → ∀ (i : Instr) (r : Word32 → Word32 → Prop) (_ : ∀ x y, Decidable (r x y)),
      (i, r) ∈ ([(.cmpS32 gd 0 d a b, fun x y => x.toInt = y.toInt), (.cmpS32 gd 1 d a b, fun x y => x.toInt ≠ y.toInt),
        (.cmpS32 gd 2 d a b, fun x y => x.toInt < y.toInt), (.cmpS32 gd 3 d a b, fun x y => x.toInt ≤ y.toInt),
        (.cmpS32 gd 4 d a b, fun x y => x.toInt > y.toInt), (.cmpS32 gd 5 d a b, fun x y => x.toInt ≥ y.toInt),
        (.cmpN32 gd 0 d a b, fun x y => x.toNat = y.toNat), (.cmpN32 gd 1 d a b, fun x y => x.toNat ≠ y.toNat),
        (.cmpN32 gd 2 d a b, fun x y => x.toNat < y.toNat), (.cmpN32 gd 3 d a b, fun x y => x.toNat ≤ y.toNat),
        (.cmpN32 gd 4 d a b, fun x y => x.toNat > y.toNat), (.cmpN32 gd 5 d a b, fun x y => x.toNat ≥ y.toNat)]
        : List (Instr × (Word32 → Word32 → Prop))) →
      ∃ t, exec i s = .next t ∧ LaneWord s t g g gd ⟨[.v a, .v b], [], true⟩ (fun _ => noFlags) fun l x =>
        setP x d (decide (r (srcV g l (g.lane l) a) (srcV g l (g.lane l) b)))) ∧
    (LaneFits s g ⟨[.w a, .w b], [], true⟩ → ∀ (i : Instr) (r : Word64 → Word64 → Prop) (_ : ∀ x y, Decidable (r x y)),
      (i, r) ∈ ([(.cmpS64 gd 0 d a b, fun x y => x.toInt = y.toInt), (.cmpS64 gd 1 d a b, fun x y => x.toInt ≠ y.toInt),
        (.cmpS64 gd 2 d a b, fun x y => x.toInt < y.toInt), (.cmpS64 gd 3 d a b, fun x y => x.toInt ≤ y.toInt),
        (.cmpS64 gd 4 d a b, fun x y => x.toInt > y.toInt), (.cmpS64 gd 5 d a b, fun x y => x.toInt ≥ y.toInt),
        (.cmpN64 gd 0 d a b, fun x y => x.toNat = y.toNat), (.cmpN64 gd 1 d a b, fun x y => x.toNat ≠ y.toNat),
        (.cmpN64 gd 2 d a b, fun x y => x.toNat < y.toNat), (.cmpN64 gd 3 d a b, fun x y => x.toNat ≤ y.toNat),
        (.cmpN64 gd 4 d a b, fun x y => x.toNat > y.toNat), (.cmpN64 gd 5 d a b, fun x y => x.toNat ≥ y.toNat)]
        : List (Instr × (Word64 → Word64 → Prop))) →
      ∃ t, exec i s = .next t ∧ LaneWord s t g g gd ⟨[.w a, .w b], [], true⟩ (fun _ => noFlags) fun l x =>
        setP x d (decide (r (srcW g (g.lane l) a) (srcW g (g.lane l) b)))) ∧
    (LaneFits s g ⟨[.v a, .v b], [], true⟩ → ∀ c, c < 8 →
      ∃ t, exec (.fcmpF32 gd c d a b) s = .next t ∧ LaneWord s t g g gd ⟨[.v a, .v b], [], true⟩ (fun _ => noFlags) fun l x =>
        let u := decodeVal fmtFP32 (srcV g l (g.lane l) a).toNat
        let v := decodeVal fmtFP32 (srcV g l (g.lane l) b).toNat
        let ordered := !u.isNan && !v.isNan
        setP x d (match c with
          | 0 => ordered && Val.cmp u v == .eq
          | 1 => !(ordered && Val.cmp u v == .eq)
          | 2 => ordered && Val.cmp u v == .lt
          | 3 => ordered && Val.cmp u v != .gt
          | 4 => ordered && Val.cmp v u == .lt
          | 5 => ordered && Val.cmp v u != .gt
          | 6 => !ordered
          | _ => ordered)) ∧
    (∀ x : Lane, setP x 7 true = x ∧ setP x 7 false = x) ∧
    (∀ c, encode (.cmpS32 gd c d a b) = some (Enc.lr 0x07 gd d a b c, 0) ∧ encode (.cmpN32 gd c d a b) = some (Enc.lr 0x08 gd d a b c, 0) ∧
      encode (.cmpS64 gd c d a b) = some (Enc.lr 0x09 gd d a b c, 0) ∧ encode (.cmpN64 gd c d a b) = some (Enc.lr 0x0A gd d a b c, 0) ∧
      encode (.fcmpF32 gd c d a b) = some (Enc.lr 0x16 gd d a b c, 0)) ∧
    (∀ m c w, m ∈ [0x07, 0x08, 0x09, 0x0A] → 6 ≤ c → c < 8 → gd.p < 8 → d < 64 → a < 64 → b < 64 →
      ∀ i, decodeWords (Enc.lr m gd d a b c) w ≠ .ok i) ∧
    encode (.cmpS32 ⟨false, 7⟩ 2 2 1 3) = some (0x0EE1021A, 0)

/-- R373: multiply-add writes (A × B + C) mod 2^n; its words are major 0x3C, FN 0 and 1, with V or W operands, and an AUX that is not 0 is
refused. -/
def Obligations.MultiplyAdd : Prop :=
  ∀ (s : State) (g : Group) (gd : Guard) (d a b c : Nat),
    (LaneFits s g ⟨[.v a, .v b, .v c], [.v d], true⟩ →
      ∃ t, exec (.madB32 gd d a b c) s = .next t ∧ LaneWord s t g g gd ⟨[.v a, .v b, .v c], [.v d], true⟩ (fun _ => noFlags) fun l x =>
        dstV g x d (BitVec.ofNat 32 ((srcV g l (g.lane l) a).toNat * (srcV g l (g.lane l) b).toNat + (srcV g l (g.lane l) c).toNat))) ∧
    (LaneFits s g ⟨[.w a, .w b, .w c], [.w d], true⟩ →
      ∃ t, exec (.madB64 gd d a b c) s = .next t ∧ LaneWord s t g g gd ⟨[.w a, .w b, .w c], [.w d], true⟩ (fun _ => noFlags) fun l x =>
        dstW g x d (BitVec.ofNat 64 ((srcW g (g.lane l) a).toNat * (srcW g (g.lane l) b).toNat + (srcW g (g.lane l) c).toNat))) ∧
    encode (.madB32 gd d a b c) = some (Enc.lr 0x3C gd d a b 0, Enc.lx c 0 0 0 0) ∧
    encode (.madB64 gd d a b c) = some (Enc.lr 0x3C gd d a b 1, Enc.lx c 0 0 0 0) ∧
    ∀ fn aux, fn < 2 → 0 < aux → aux < 16 → gd.p < 8 → d < 64 → a < 64 → b < 64 → c < 64 →
      ∀ i, decodeWords (Enc.lr 0x3C gd d a b fn) (Enc.lx c 0 0 aux 0) ≠ .ok i

/-! ## Lane floats -/

/-- The words of R377 on single and on packed elements: the destination takes the rounded results and the group's flags take the OR of the
flags that the Active lanes raise; `fmin`, `fmax`, `fabs` and `fneg` raise none (R378). -/
def Sys2Proof.Rule.FloatTwoOperand : Prop :=
  (∀ (s : State) (g : Group) (gd : Guard) (d a b : Nat) (i : Instr) (f : Word32 → Word32 → Rounded),
    (i, f) ∈ ([(.faddF32 gd d a b, fun x y => fAdd fmtFP32 x.toNat y.toNat),
      (.fsubF32 gd d a b, fun x y => fSub fmtFP32 x.toNat y.toNat),
      (.fmulF32 gd d a b, fun x y => fMul fmtFP32 x.toNat y.toNat),
      (.fminF32 gd d a b, fun x y => ⟨fMin fmtFP32 x.toNat y.toNat, noFlags⟩),
      (.fmaxF32 gd d a b, fun x y => ⟨fMax fmtFP32 x.toNat y.toNat, noFlags⟩),
      (.faddF16x2 gd d a b, halves (fAdd fmtFP16)), (.fsubF16x2 gd d a b, halves (fSub fmtFP16)),
      (.fmulF16x2 gd d a b, halves (fMul fmtFP16)),
      (.fminF16x2 gd d a b, halves fun x y => ⟨fMin fmtFP16 x y, noFlags⟩),
      (.fmaxF16x2 gd d a b, halves fun x y => ⟨fMax fmtFP16 x y, noFlags⟩),
      (.faddBf16x2 gd d a b, halves (fAdd fmtBF16)), (.fsubBf16x2 gd d a b, halves (fSub fmtBF16)),
      (.fmulBf16x2 gd d a b, halves (fMul fmtBF16)),
      (.fminBf16x2 gd d a b, halves fun x y => ⟨fMin fmtBF16 x y, noFlags⟩),
      (.fmaxBf16x2 gd d a b, halves fun x y => ⟨fMax fmtBF16 x y, noFlags⟩)] : List (Instr × (Word32 → Word32 → Rounded))) →
    LaneFits s g ⟨[.v a, .v b], [.v d], true⟩ →
    ∃ t, exec i s = .next t ∧
      LaneWord s t g g gd ⟨[.v a, .v b], [.v d], true⟩ (fun l => (f (srcV g l (g.lane l) a) (srcV g l (g.lane l) b)).flags)
        fun l x => dstV g x d (BitVec.ofNat 32 (f (srcV g l (g.lane l) a) (srcV g l (g.lane l) b)).code)) ∧
  (∀ (s : State) (g : Group) (gd : Guard) (d a : Nat) (i : Instr) (f : Word32 → Word32),
    (i, f) ∈ ([(.fabsF32 gd d a, fun x => x &&& 0x7FFFFFFF#32), (.fnegF32 gd d a, fun x => x ^^^ 0x80000000#32),
      (.fabsF16x2 gd d a, fun x => x &&& 0x7FFF7FFF#32), (.fnegF16x2 gd d a, fun x => x ^^^ 0x80008000#32),
      (.fabsBf16x2 gd d a, fun x => x &&& 0x7FFF7FFF#32), (.fnegBf16x2 gd d a, fun x => x ^^^ 0x80008000#32)]
      : List (Instr × (Word32 → Word32))) →
    LaneFits s g ⟨[.v a], [.v d], true⟩ →
    ∃ t, exec i s = .next t ∧
      LaneWord s t g g gd ⟨[.v a], [.v d], true⟩ (fun _ => noFlags) fun l x => dstV g x d (f (srcV g l (g.lane l) a)))

/-- R378 of every format: `fmin` and `fmax` pass over a NaN operand and give the other, and two NaNs give the canonical NaN; `fabs` and `fneg`
change only the sign bit of each element. -/
def Obligations.FloatExtremes : Prop :=
  ∀ (s : State) (g : Group) (gd : Guard) (d a b : Nat),
    let pick (f : Fmt) (m : Fmt → Nat → Nat → Nat) (x y : Nat) : Nat :=
      if (decodeVal f x).isNan then (if (decodeVal f y).isNan then f.nanCode else y) else if (decodeVal f y).isNan then x else m f x y
    let two (f : Fmt) (m : Fmt → Nat → Nat → Nat) (x y : Word32) : Nat :=
      pick f m (x.toNat % 65536) (y.toNat % 65536) + 65536 * pick f m (x.toNat / 65536) (y.toNat / 65536)
    (LaneFits s g ⟨[.v a, .v b], [.v d], true⟩ → ∀ (i : Instr) (v : Word32 → Word32 → Nat),
      (i, v) ∈ ([(.fminF32 gd d a b, fun x y => pick fmtFP32 fMin x.toNat y.toNat), (.fmaxF32 gd d a b, fun x y => pick fmtFP32 fMax x.toNat y.toNat),
        (.fminF16x2 gd d a b, two fmtFP16 fMin), (.fmaxF16x2 gd d a b, two fmtFP16 fMax),
        (.fminBf16x2 gd d a b, two fmtBF16 fMin), (.fmaxBf16x2 gd d a b, two fmtBF16 fMax)] : List (Instr × (Word32 → Word32 → Nat))) →
      ∃ t, exec i s = .next t ∧ LaneWord s t g g gd ⟨[.v a, .v b], [.v d], true⟩ (fun _ => noFlags) fun l x =>
        dstV g x d (BitVec.ofNat 32 (v (srcV g l (g.lane l) a) (srcV g l (g.lane l) b)))) ∧
    (fmtFP32.nanCode = 0x7FC00000 ∧ fmtFP16.nanCode = 0x7E00 ∧ fmtBF16.nanCode = 0x7FC0) ∧
    (LaneFits s g ⟨[.v a], [.v d], true⟩ → ∀ (i : Instr) (sign : Word32) (clears : Bool),
      (i, sign, clears) ∈ ([(.fabsF32 gd d a, 0x80000000#32, true), (.fnegF32 gd d a, 0x80000000#32, false),
        (.fabsF16x2 gd d a, 0x80008000#32, true), (.fnegF16x2 gd d a, 0x80008000#32, false),
        (.fabsBf16x2 gd d a, 0x80008000#32, true), (.fnegBf16x2 gd d a, 0x80008000#32, false)] : List (Instr × Word32 × Bool)) →
      ∃ t, exec i s = .next t ∧ LaneWord s t g g gd ⟨[.v a], [.v d], true⟩ (fun _ => noFlags) fun l x =>
        let v := srcV g l (g.lane l) a
        dstV g x d (if clears then v &&& ~~~sign else v ^^^ sign))

/-- Fused multiply-add in the mode of AUX, with the draws of `.sr` (R379), clamp (R380) and round to integral (R382). -/
def Sys2Proof.Rule.FloatFusedClampRound : Prop :=
  ∀ (s : State) (g : Group) (gd : Guard) (d a b c : Nat),
    (∀ r, r < 5 → LaneFits s g ⟨[.v a, .v b, .v c], [.v d], true⟩ →
      (let draw (l k : Nat) : Nat :=
        if r = 4 then (drawAt (g.lane l).rngKey.toNat ((g.lane l).rngPos + BitVec.ofNat 64 k).toNat (g.lane l).rngStr.toNat (g.lane l).glob).y0
        else 0
      let one (l : Nat) : Rounded := fFma fmtFP32 (modeOf r) (draw l 0) (srcV g l (g.lane l) a).toNat (srcV g l (g.lane l) b).toNat
        (srcV g l (g.lane l) c).toNat
      let half (l k : Nat) : Rounded := fFma fmtFP16 (modeOf r) (draw l k) ((srcV g l (g.lane l) a).toNat / 65536 ^ k % 65536)
        ((srcV g l (g.lane l) b).toNat / 65536 ^ k % 65536) ((srcV g l (g.lane l) c).toNat / 65536 ^ k % 65536)
      (∃ t, exec (.fmaF32 gd d a b c r) s = .next t ∧
        LaneWord s t g g gd ⟨[.v a, .v b, .v c], [.v d], true⟩ (fun l => (one l).flags) fun l x =>
          dstV g { x with rngPos := x.rngPos + if r = 4 then 1 else 0 } d (BitVec.ofNat 32 (one l).code)) ∧
      (∃ t, exec (.fmaF16x2 gd d a b c r) s = .next t ∧
        LaneWord s t g g gd ⟨[.v a, .v b, .v c], [.v d], true⟩ (fun l => orFlags (half l 0).flags (half l 1).flags) fun l x =>
          dstV g { x with rngPos := x.rngPos + if r = 4 then 2 else 0 } d
            (BitVec.ofNat 32 ((half l 0).code + 65536 * (half l 1).code))))) ∧
    (LaneFits s g ⟨[.v a, .v b, .v c], [.v d], true⟩ →
      ∃ t, exec (.fclampF32 gd d a b c) s = .next t ∧
        LaneWord s t g g gd ⟨[.v a, .v b, .v c], [.v d], true⟩ (fun _ => noFlags) fun l x =>
          dstV g x d (BitVec.ofNat 32 (fMin fmtFP32 (fMax fmtFP32 (srcV g l (g.lane l) a).toNat (srcV g l (g.lane l) b).toNat)
            (srcV g l (g.lane l) c).toNat))) ∧
    (∀ m, m < 4 → LaneFits s g ⟨[.v a], [.v d], true⟩ →
      ∃ t, exec (.frndF32 gd m d a) s = .next t ∧ LaneWord s t g g gd ⟨[.v a], [.v d], true⟩ (fun _ => noFlags) fun l x =>
        dstV g x d (BitVec.ofNat 32 (fRoundIntegral (modeOf m) (srcV g l (g.lane l) a).toNat)))

/-- Float arithmetic (R377 to R380, R382): two-operand words, fused multiply-add in the mode of AUX, clamp, and round to integral, with the
flags they raise; nothing else changes. The flags of conversions among these are read as log entry 26 says (DEDUCED). -/
def Obligations.FloatArithmetic : Prop :=
  Sys2Proof.Rule.FloatTwoOperand ∧ Sys2Proof.Rule.FloatFusedClampRound

/-- The transcendentals (R383): the `x` forms give the reproducible result; the fast forms give it in deterministic mode, and outside it the
fast result, which is a free value within the bound (R253, R254).
The fast result is a free value (DESIGN CHOICE, log entry 11), and the reproducible one is computed as log entry 20 says. -/
def Obligations.Transcendentals : Prop :=
  ∀ (s : State) (g : Group) (gd : Guard) (d a b : Nat),
    let fast (n : Nat) (x y : Word32) : Rounded :=
      if detmOf s g then xReproducible n x.toNat y.toNat else xFast n x.toNat y.toNat
    (LaneFits s g ⟨[.v a], [.v d], true⟩ → ∀ (i : Instr) (f : Word32 → Rounded),
      (i, f) ∈ ([(.rcp gd d a, fun x => fast 0 x 0), (.rsq gd d a, fun x => fast 1 x 0), (.sqrt gd d a, fun x => fast 2 x 0),
        (.exp2 gd d a, fun x => fast 4 x 0), (.log2 gd d a, fun x => fast 5 x 0), (.sin gd d a, fun x => fast 6 x 0),
        (.cos gd d a, fun x => fast 7 x 0), (.tanh gd d a, fun x => fast 8 x 0),
        (.rcpx gd d a, fun x => xReproducible 0 x.toNat 0), (.rsqx gd d a, fun x => xReproducible 1 x.toNat 0),
        (.sqrtx gd d a, fun x => xReproducible 2 x.toNat 0), (.exp2x gd d a, fun x => xReproducible 4 x.toNat 0),
        (.log2x gd d a, fun x => xReproducible 5 x.toNat 0), (.sinx gd d a, fun x => xReproducible 6 x.toNat 0),
        (.cosx gd d a, fun x => xReproducible 7 x.toNat 0), (.tanhx gd d a, fun x => xReproducible 8 x.toNat 0)]
        : List (Instr × (Word32 → Rounded))) →
      ∃ t, exec i s = .next t ∧
        LaneWord s t g g gd ⟨[.v a], [.v d], true⟩ (fun l => (f (srcV g l (g.lane l) a)).flags) fun l x =>
          dstV g x d (BitVec.ofNat 32 (f (srcV g l (g.lane l) a)).code)) ∧
    (LaneFits s g ⟨[.v a, .v b], [.v d], true⟩ → ∀ (i : Instr) (f : Word32 → Word32 → Rounded),
      (i, f) ∈ ([(.div gd d a b, fun x y => fast 3 x y), (.divx gd d a b, fun x y => xReproducible 3 x.toNat y.toNat)]
        : List (Instr × (Word32 → Word32 → Rounded))) →
      ∃ t, exec i s = .next t ∧
        LaneWord s t g g gd ⟨[.v a, .v b], [.v d], true⟩ (fun l => (f (srcV g l (g.lane l) a) (srcV g l (g.lane l) b)).flags) fun l x =>
          dstV g x d (BitVec.ofNat 32 (f (srcV g l (g.lane l) a) (srcV g l (g.lane l) b)).code))

/-- Conversions (R384 to R386): `cvt` in the mode of its field with one draw where it rounds stochastically; `cvtq` quantises a row of A(A)
into T(D) and its side word, and reads every word of a register that the lane's home group has marked invalid as 0x7FC0_DEAD (R124, R279);
`dqv` gives a row back and, executed by all 32 lanes of a group, clears the invalid mark of A(D) (R124).
Flags and infinities are read as log entry 26 says (DEDUCED). -/
def Obligations.Conversions : Prop :=
  ∀ (s : State) (g : Group) (gd : Guard) (d a c n : Nat),
    (∀ st dt r, LaneFits s g ⟨[if codeBits st = 64 then .w a else .v a], [if codeBits dt = 64 then .w d else .v d], true⟩ →
      (let src (l : Nat) : Nat := if codeBits st = 64 then (srcW g (g.lane l) a).toNat else (srcV g l (g.lane l) a).toNat
      let draws := if convertDraws st dt (modeOf r) then 1 else 0
      let q (l : Nat) : Rounded := convert st dt (modeOf r) ((laneDraws (g.lane l) (g.lane l).glob draws).1.getD 0 0) (src l)
      ∃ t, exec (.cvt gd d a st dt r) s = .next t ∧
        LaneWord s t g g gd ⟨[if codeBits st = 64 then .w a else .v a], [if codeBits dt = 64 then .w d else .v d], true⟩
          (fun l => (q l).flags) fun l x =>
            let x := { x with rngPos := x.rngPos + BitVec.ofNat 64 draws }
            if codeBits dt = 64 then dstW g x d (BitVec.ofNat 64 (q l).code) else dstV g x d (BitVec.ofNat 32 (q l).code))) ∧
    (LaneFits s g ⟨[.a a], [.t d, .v c], true⟩ →
      (let sl := slotOf (formatOf s g n)
      let row (l : Nat) : List Nat := if (homeOf s g l).isInvalid a then List.replicate 32 0x7FC0DEAD
        else (List.range 32).map (wordAt (readA g (g.lane l) a))
      let q (l : Nat) := quantRow sl (row l) (laneDraws (g.lane l) (g.lane l).glob (quantDraws sl (row l))).1
      ∃ t, exec (.cvtq gd d a c n) s = .next t ∧
        LaneWord s t g g gd ⟨[.a a], [.t d, .v c], true⟩ (fun l => (q l).2.2) fun l x =>
          let x := { x with rngPos := x.rngPos + BitVec.ofNat 64 (quantDraws sl (row l)) }
          dstV g (writeT g x d (fill64 (q l).1)) c (BitVec.ofNat 32 (q l).2.1))) ∧
    (LaneFits s g (dqvForm s d a c n) →
      (let r (l : Nat) := dequantRow (slotOf (formatOf s g n)) ((readT g (g.lane l) a).map BitVec.toNat) (srcV g l (g.lane l) c).toNat
      ∃ t, exec (.dqv gd d a c n) s = .next t ∧
        LaneWord s t g (if coversGroup g (activeLanes g gd s) then { g with invalidA := g.invalidA &&& ~~~(1#8 <<< d) } else g) gd
          (dqvForm s d a c n) (fun l => (r l).2) fun l x => writeA g x d (bytesOfWords (r l).1)))

/-! ## Lanes across a segment -/

/-- Shuffles and votes (R387 to R389): each member reads sources as they stood at issue; a shuffle whose source is no member keeps the lane's
own value; a vote gives the same result to every member of a segment. Shader state refuses them (R277), which `LaneFits` says. -/
def Sys2Proof.Rule.ShuffleAndVote : Prop :=
  ∀ (s : State) (g : Group) (gd : Guard) (d a b : Nat),
    let act := activeLanes g gd s
    let w := 2 ^ g.wlog
    (LaneFits s g ⟨[.v a, .v b], [.v d], false⟩ → ∀ (i : Instr) (src : Nat → Nat → Option Nat),
      (i, src) ∈ ([(.shflIdx gd d a b, fun _ x => some (x % w)),
        (.shflUp gd d a b, fun p x => if x ≤ p then some (p - x) else none),
        (.shflDown gd d a b, fun p x => if p + x < w then some (p + x) else none),
        (.shflXor gd d a b, fun p x => some (p ^^^ (x % w)))] : List (Instr × (Nat → Nat → Option Nat))) →
      ∃ t, exec i s = .next t ∧ LaneWord s t g g gd ⟨[.v a, .v b], [.v d], false⟩ (fun _ => noFlags) fun l x =>
        dstV g x d (match src (l % w) (srcV g l (g.lane l) b).toNat with
          | some j => if l / w * w + j ∈ act then srcV g (l / w * w + j) (g.lane (l / w * w + j)) a else srcV g l (g.lane l) a
          | none => srcV g l (g.lane l) a)) ∧
    (LaneFits s g ⟨[], [], false⟩ →
      (∃ t, exec (.voteAny gd d a) s = .next t ∧ LaneWord s t g g gd ⟨[], [], false⟩ (fun _ => noFlags) fun l x =>
        setP x d (decide (∃ k ∈ membersOf g act l, predP (g.lane k) a = true))) ∧
      (∃ t, exec (.voteAll gd d a) s = .next t ∧ LaneWord s t g g gd ⟨[], [], false⟩ (fun _ => noFlags) fun l x =>
        setP x d (decide (∀ k ∈ membersOf g act l, predP (g.lane k) a = true)))) ∧
    (LaneFits s g ⟨[], [.v d], false⟩ →
      ∃ t, exec (.voteBallot gd d a) s = .next t ∧ LaneWord s t g g gd ⟨[], [.v d], false⟩ (fun _ => noFlags) fun l x =>
        dstV g x d (maskOf (((membersOf g act l).filter fun k => predP (g.lane k) a).map fun k => k % w)))

/-- Reductions and scans (R390, R391): every member of a segment takes the combination of all members, or of those up to itself, in ascending
order; float sums are the balanced tree of 32 leaves, or the chain from the lowest member, each with its flags. -/
def Sys2Proof.Rule.ReduceAndScan : Prop :=
  ∀ (s : State) (g : Group) (gd : Guard) (f d a : Nat), f < 8 →
    let act := activeLanes g gd s
    let val (k : Nat) : Word32 := srcV g k (g.lane k) a
    let op (x y : Word32) : Word32 := match f with
      | 0 => x + y
      | 1 => BitVec.ofInt 32 (min x.toInt y.toInt)
      | 2 => BitVec.ofInt 32 (max x.toInt y.toInt)
      | 3 => BitVec.ofNat 32 (min x.toNat y.toNat)
      | 4 => BitVec.ofNat 32 (max x.toNat y.toNat)
      | 5 => x &&& y
      | 6 => x ||| y
      | _ => x ^^^ y
    let all (ks : List Nat) : Word32 := match ks.map val with
      | [] => 0
      | v :: vs => vs.foldl op v
    let ext (ks : List Nat) : Nat := match ks.map fun k => canon32 (val k).toNat with
      | [] => 0
      | v :: vs => vs.foldl (if f = 1 then fMin fmtFP32 else fMax fmtFP32) v
    LaneFits s g ⟨[.v a], [.v d], false⟩ →
    (∃ t, exec (.reduxInt gd f d a) s = .next t ∧ LaneWord s t g g gd ⟨[.v a], [.v d], false⟩ (fun _ => noFlags) fun l x =>
      dstV g x d (all (membersOf g act l))) ∧
    (∃ t, exec (.scanInt gd f d a) s = .next t ∧ LaneWord s t g g gd ⟨[.v a], [.v d], false⟩ (fun _ => noFlags) fun l x =>
      dstV g x d (all ((membersOf g act l).filter fun k => k ≤ l))) ∧
    (∃ t, exec (.reduxF32 gd f d a) s = .next t ∧ LaneWord s t g g gd ⟨[.v a], [.v d], false⟩
      (fun l => if f = 0 then (tree32 (reduxLeaves g a act l)).2 else noFlags) fun l x =>
      dstV g x d (BitVec.ofNat 32 (if f = 0 then code32 ((tree32 (reduxLeaves g a act l)).1.getD (.fin false 0 0))
        else ext (membersOf g act l)))) ∧
    (∃ t, exec (.scanF32 gd f d a) s = .next t ∧ LaneWord s t g g gd ⟨[.v a], [.v d], false⟩
      (fun l => if f = 0 then (chainSum (((membersOf g act l).filter fun k => k ≤ l).map fun k => (val k).toNat)).2 else noFlags) fun l x =>
      dstV g x d (BitVec.ofNat 32 (if f = 0 then code32 (chainSum (((membersOf g act l).filter fun k => k ≤ l).map fun k => (val k).toNat)).1
        else ext ((membersOf g act l).filter fun k => k ≤ l))))

/-- `compress` packs the values of the selected members downwards and writes the counts to GB0; `expand` spreads the low values over the
selected members (R392, R393). -/
def Sys2Proof.Rule.CompressAndExpand : Prop :=
  ∀ (s : State) (g : Group) (gd : Guard) (d a p : Nat),
    let act := activeLanes g gd s
    let w := 2 ^ g.wlog
    let sel (l : Nat) : List Nat := (membersOf g act l).filter fun k => predP (g.lane k) p
    LaneFits s g ⟨[.v a], [.v d], false⟩ →
    (∃ t, exec (.compress gd d a p) s = .next t ∧
      LaneWord s t g { g with gb0 := BitVec.ofNat 32 (((List.range (32 / w)).map fun k => (sel (k * w)).length * 2 ^ (k * (g.wlog + 1))).sum) }
        gd ⟨[.v a], [.v d], false⟩ (fun _ => noFlags) fun l x =>
          dstV g x d (match (sel l)[l % w]? with | some k => srcV g k (g.lane k) a | none => 0)) ∧
    (∃ t, exec (.expand gd d a p) s = .next t ∧
      LaneWord s t g g gd ⟨[.v a], [.v d], false⟩ (fun _ => noFlags) fun l x =>
        let k := l / w * w + ((sel l).filter fun m => m < l).length
        dstV g x d (if l ∈ sel l ∧ k ∈ act then srcV g k (g.lane k) a else 0))

/-- Cross-lane words (R387 to R393): shuffles, votes, reductions, scans, compress and expand read every source as it stood at issue and write
what the rule gives the members of each segment. A NaN result of a reduction or scan is canonical (DEDUCED, log entry 23). -/
def Obligations.CrossLane : Prop :=
  Sys2Proof.Rule.ShuffleAndVote ∧ Sys2Proof.Rule.ReduceAndScan ∧ Sys2Proof.Rule.CompressAndExpand

/-! ## Random numbers and reservoir records -/

/-- The random words (R453): `rng` and `rngn` take one draw of each Active lane, by R257, and move its position on by one whatever the
destination; `rngk` sets a lane's key, position and stream from registers and draws nothing. -/
def Sys2Proof.Rule.RandomWords : Prop :=
  ∀ (s : State) (g : Group) (gd : Guard) (d a b : Nat),
    let q (l : Nat) : Quad := drawAt (g.lane l).rngKey.toNat (g.lane l).rngPos.toNat (g.lane l).rngStr.toNat (g.lane l).glob
    (∀ k, k < 3 → LaneFits s g ⟨[], [.v d], true⟩ →
      ∃ t, exec (.rng gd d k) s = .next t ∧ LaneWord s t g g gd ⟨[], [.v d], true⟩ (fun _ => noFlags) fun l x =>
        dstV g { x with rngPos := x.rngPos + 1 } d (BitVec.ofNat 32 (rngValue k (q l).y0))) ∧
    (∀ (i : Instr) (m : Nat), (i, m) ∈ ([(.rngnBm gd d, 0), (.rngnInv gd d, 1)] : List (Instr × Nat)) →
      LaneFits s g ⟨[], vRun d 4, true⟩ →
      ∃ t, exec i s = .next t ∧ LaneWord s t g g gd ⟨[], vRun d 4, true⟩ (fun _ => noFlags) fun l x =>
        dstRun g { x with rngPos := x.rngPos + 1 } d (normals m (q l))) ∧
    (LaneFits s g ⟨[.v d, .w a, .w b], [], true⟩ →
      ∃ t, exec (.rngk gd d a b) s = .next t ∧ LaneWord s t g g gd ⟨[.v d, .w a, .w b], [], true⟩ (fun _ => noFlags) fun l x =>
        { x with rngKey := srcW g (g.lane l) a, rngPos := srcW g (g.lane l) b, rngStr := srcV g l (g.lane l) d })

/-- The record words (R454): each writes the record in half D mod 2 of T(D / 2) from records read whole before any is written; RMCAP is that
of the lane's home group (R279). -/
def Sys2Proof.Rule.ReservoirRecords : Prop :=
  ∀ (s : State) (g : Group) (gd : Guard) (d a b c : Nat),
    let rmcap (l : Nat) : Nat := (homeOf s g l).rmcap
    (LaneFits s g ⟨[.t (d / 2), .w a, .w b, .v c], [.t (d / 2)], true⟩ →
      ∃ t, exec (.resu gd d a b c) s = .next t ∧
        LaneWord s t g g gd ⟨[.t (d / 2), .w a, .w b, .v c], [.t (d / 2)], true⟩ (fun _ => noFlags) fun l x =>
          setRecord g x d (resAdd (recordIn g (g.lane l) d) (srcW g (g.lane l) a).toNat ((srcW g (g.lane l) b).toNat % 2 ^ 32)
            ((srcW g (g.lane l) b).toNat / 2 ^ 32) 1 0 (srcV g l (g.lane l) c).toNat (g.lane l).rngKey.toNat (rmcap l))) ∧
    (∀ src, LaneFits s g ⟨[.t (d / 2), .t (a / 2), .v b, .v c], [.t (d / 2)], true⟩ →
      ∃ t, exec (.resm gd src d a b c) s = .next t ∧
        LaneWord s t g g gd ⟨[.t (d / 2), .t (a / 2), .v b, .v c], [.t (d / 2)], true⟩ (fun _ => noFlags) fun l x =>
          setRecord g x d (resMerge (recordIn g (g.lane l) d) (recordIn g (g.lane l) a) (srcV g l (g.lane l) b).toNat src
            (srcV g l (g.lane l) c).toNat (g.lane l).rngKey.toNat (rmcap l))) ∧
    (LaneFits s g ⟨[.t (d / 2)], [.t (d / 2)], true⟩ →
      ∃ t, exec (.resn gd d) s = .next t ∧ LaneWord s t g g gd ⟨[.t (d / 2)], [.t (d / 2)], true⟩ (fun _ => noFlags) fun l x =>
        setRecord g x d (resNorm (recordIn g (g.lane l) d)))

/-- Random words and reservoir records in registers (R257, R279, R453, R454): draws by the lane's position, and records read whole before any is
written. -/
def Obligations.RandomAndRecords : Prop :=
  Sys2Proof.Rule.RandomWords ∧ Sys2Proof.Rule.ReservoirRecords

/-! ## Group words -/

/-- Uniform arithmetic, compares and moves (R418 to R420), the reads of time and of control registers, and the latches (R421, R429, R433): when
the guard reads 1 the group takes the value that the rule gives and keeps every other register; the cohort passes the word. -/
def Sys2Proof.Rule.UniformWords : Prop :=
  ∀ (s : State) (g : Group) (q d a b imm : Nat),
    GroupFits s g q formG →
    (∀ (i : Instr) (v : Word64), (i, v) ∈ ([(.gadd q d a b, BitVec.ofNat 64 ((regG g a).toNat + (regG g b).toNat)),
        (.gsub q d a b, BitVec.ofInt 64 ((regG g a).toInt - (regG g b).toInt)),
        (.gmul q d a b, BitVec.ofNat 64 ((regG g a).toNat * (regG g b).toNat)),
        (.gand q d a b, regG g a &&& regG g b), (.gor q d a b, regG g a ||| regG g b), (.gxor q d a b, regG g a ^^^ regG g b),
        (.gshl q d a b, BitVec.ofNat 64 ((regG g a).toNat * 2 ^ (regG g b).toNat)),
        (.gshr q d a b, BitVec.ofNat 64 ((regG g a).toNat / 2 ^ (regG g b).toNat)),
        (.gmov q d a, regG g a),
        (.gmovImm q d imm, BitVec.ofInt 64 (signedOf 16 imm)),
        (.gaddImm q d imm, BitVec.ofInt 64 ((regG g d).toInt + signedOf 16 imm)),
        (.gorImm q d imm, regG g d ||| BitVec.ofNat 64 imm),
        (.gshlImm q d imm, BitVec.ofNat 64 ((regG g d).toNat * 2 ^ imm)),
        (.rtime q d, BitVec.ofNat 64 s.time.now)] : List (Instr × Word64)) →
      ∃ t, exec i s = .next t ∧ GroupWord s t { g with g := g.g.set d v }) ∧
    (∀ (c : Nat) (r : Prop) (_ : Decidable r), (c, r) ∈ ([(0, (regG g a).toInt = (regG g b).toInt), (1, (regG g a).toInt ≠ (regG g b).toInt),
        (2, (regG g a).toInt < (regG g b).toInt), (3, (regG g a).toInt ≤ (regG g b).toInt), (4, (regG g a).toInt > (regG g b).toInt),
        (5, (regG g a).toInt ≥ (regG g b).toInt), (6, (regG g a).toNat < (regG g b).toNat), (7, (regG g a).toNat ≤ (regG g b).toNat),
        (8, (regG g a).toNat > (regG g b).toNat), (9, (regG g a).toNat ≥ (regG g b).toNat)] : List (Nat × Prop)) →
      ∃ t, exec (.gcmp q c d a b) s = .next t ∧ GroupWord s t (setQ g d (decide r))) ∧
    (∃ t, exec (.gbc q 0 a) s = .next t ∧ GroupWord s t { g with gb0 := (regG g a).setWidth 32 }) ∧
    (∃ t, exec (.gbc q 1 a) s = .next t ∧ GroupWord s t { g with gb1 := (regG g a).setWidth 32 })

/-- R420: `gcmp` writes Q(D) with whether the relation of FN holds, signed for `.s` and unsigned for `.n`; a D of 7 changes nothing; its word is
major 0x01 in GR form. -/
def Obligations.GroupCompare : Prop :=
  ∀ (s : State) (g : Group) (q d a b : Nat),
    (∀ c, encode (.gcmp q c d a b) = some (Enc.gr 1 q d a b c, 0)) ∧
    (GroupFits s g q formG → ∀ (c : Nat) (r : Word64 → Word64 → Bool), (c, r) ∈ ([(0, fun x y => x == y), (1, fun x y => x != y),
        (2, fun x y => x.toInt < y.toInt), (3, fun x y => x.toInt ≤ y.toInt), (4, fun x y => x.toInt > y.toInt),
        (5, fun x y => x.toInt ≥ y.toInt), (6, fun x y => x.toNat < y.toNat), (7, fun x y => x.toNat ≤ y.toNat),
        (8, fun x y => x.toNat > y.toNat), (9, fun x y => x.toNat ≥ y.toNat)] : List (Nat × (Word64 → Word64 → Bool))) →
      ∃ t h, exec (.gcmp q c d a b) s = .next t ∧ GroupWord s t h ∧ h = { g with q := h.q } ∧
        (∀ k, k < 7 → k ≠ d → h.q.getLsbD k = g.q.getLsbD k) ∧ (d < 7 → h.q.getLsbD d = r (regG g a) (regG g b)) ∧ (d = 7 → h = g))

/-- Control registers (R173, R433): `csrr` reads the value of R173 into G(D), and `csrw` writes each writable one; a write to a read-only one
changes nothing; STKY and AG3 clear the bits that are written 1; a value that a field refuses leaves the field. -/
def Obligations.ControlRegisters : Prop :=
  ∀ (s : State) (g : Group) (q r : Nat), GroupFits s g q formG → inShader s = false →
    let v := (regG g r).toNat
    let x := g.lane (s.issue.lanes.headD 0)
    let lc (n : Nat) : Nat := let k := g.loops.getD n default; k.count + 2 ^ 32 * k.len
    let le (n : Nat) : Nat := (g.loops.getD n default).last.toNat / 4 * 4
    (∀ c w, (c, w) ∈ ([(0x10, g.wlog + 65536 * g.segen), (0x11, g.vbase + 256 * g.tbase + 65536 * g.abase + 2 ^ 24 * g.steps), (0x12, g.ldep),
        (0x14, lc 0), (0x15, lc 1), (0x16, lc 2), (0x18, le 0), (0x19, le 1), (0x1a, le 2), (0x20, g.ag0), (0x21, g.ag1), (0x22, g.ag2),
        (0x23, g.ag3), (0x24, g.rmcap), (0x25, g.stky), (0x30, g.tvec.toNat), (0x31, 64 * g.tframe),
        (0x32, x.tdep + (if x.tmsk then 4 else 0) + 16 * ((List.range 4).map fun c => if (x.pend.getD c none).isSome then 2 ^ c else 0).sum)]
        : List (Nat × Nat)) →
      ∃ t, exec (.csrr q r c) s = .next t ∧ GroupWord s t { g with g := g.g.set r (BitVec.ofNat 64 w) }) ∧
    (∀ c h, (c, h) ∈ ([(0x10, { g with wlog := if 1 ≤ v % 8 ∧ v % 8 ≤ 5 then v % 8 else g.wlog, segen := v / 65536 % 65536 }),
        (0x11, g), (0x12, g), (0x18, g), (0x19, g), (0x1a, g), (0x32, g),
        (0x14, { g with loops := g.loops.modify 0 fun k => { k with count := v % 2 ^ 32 } }),
        (0x15, { g with loops := g.loops.modify 1 fun k => { k with count := v % 2 ^ 32 } }),
        (0x16, { g with loops := g.loops.modify 2 fun k => { k with count := v % 2 ^ 32 } }),
        (0x20, { g with ag0 := if v % 4 = 3 then g.ag0 else v % 4 }), (0x21, { g with ag1 := v % 65536 }), (0x22, { g with ag2 := v % 256 }),
        (0x23, { g with ag3 := g.ag3 - (g.ag3 &&& v % 16) }), (0x24, { g with rmcap := v % 65536 }),
        (0x25, { g with stky := g.stky - (g.stky &&& v % 128) }),
        (0x30, { g with tvec := BitVec.ofNat 64 (v / 4 * 4) }), (0x31, { g with tframe := v / 64 % 32 })] : List (Nat × Group)) →
      ∃ t, exec (.csrw q r c) s = .next t ∧ GroupWord s t h)

/-- A group word whose guard reads 0 has no effect but that the cohort passes it (R352). -/
def Sys2Proof.Rule.GuardedOff : Prop :=
  ∀ (s : State) (g : Group) (q : Nat), s.issuing? = some g → predQ g q = false → inShader s = false →
    ∀ (a b c d n m o : Nat), ∀ i ∈ ([.gadd q d a b, .gsub q d a b, .gmul q d a b, .gand q d a b, .gor q d a b, .gxor q d a b, .gshl q d a b,
      .gshr q d a b, .gmov q d a, .gcmp q c d a b, .gmovImm q d n, .gaddImm q d n, .gorImm q d n, .gshlImm q d n, .gld q d a n, .gst q d a n,
      .gbc q d a, .br q 0 o, .call q 0 o, .ret q a, .rcvSet q n, .rcvJoin q n, .loop q d n, .endloop q, .yield q, .exit q, .segw q a, .view q a,
      .grow q n, .shrink q n, .xfence q n m c, .barTeam q, .barCl q, .tdec q c a b, .twait q c a b, .wtime q a, .rtime q d, .csrr q a c,
      .csrw q a c, .trap q n, .tret q, .tmask q, .tunmask q, .brk q, .launch q a b c n, .copyBlockCmd q a, .copyDirect q a b n, .coll q a,
      .strn q a, .chain q a] : List Instr),
      ∃ t, exec i s = .next t ∧ GroupWord s t g

/-- Group words on G and Q registers, reads of time and of control registers, and latches (R352, R418 to R421, R429, R433): where the guard
reads 1 the group takes the value of the rule; where it reads 0 the cohort only passes the word. -/
def Obligations.GroupWords : Prop :=
  Sys2Proof.Rule.UniformWords ∧ Sys2Proof.Rule.GuardedOff

/-- Branches, calls and returns (R422, R423): the taken lanes go to the target, the others past the word; a call outside shader state leaves
the return address in G63; `ret` sends each lane to G(A). A misaligned return target is the subject of `ReturnMisaligned`. -/
def Sys2Proof.Rule.Transfers : Prop :=
  ∀ (s : State) (g : Group) (q off a : Nat), s.issuing? = some g → inShader s = false →
    let goal : Word64 := s.issue.pc + BitVec.ofInt 64 (4 * signedOf 19 off)
    let at_ (cond : Nat) : List Nat := match cond with
      | 0 => if predQ g q then s.issue.lanes else []
      | 1 => if predQ g q then [] else s.issue.lanes
      | 2 => s.issue.lanes.filter fun l => predP (g.lane l) q
      | _ => s.issue.lanes.filter fun l => !predP (g.lane l) q
    (∃ t, exec (.jmp off) s = .next t ∧ Went s t g g s.issue.lanes fun _ => goal) ∧
    (∀ cond, cond < 4 → ∃ t, exec (.br q cond off) s = .next t ∧ Went s t g g (at_ cond) fun _ => goal) ∧
    (∀ cond, cond < 2 → ∃ t, exec (.call q cond off) s = .next t ∧
      Went s t g (if (at_ cond).isEmpty then g else { g with g := g.g.set 63 s.issue.next }) (at_ cond) fun _ => goal) ∧
    (predQ g q = true → (regG g a).toNat % 4 = 0 →
      ∃ t, exec (.ret q a) s = .next t ∧ Went s t g g s.issue.lanes fun _ => regG g a)

/-! ## Barriers, loops, layout, waits -/

/-- Reconvergence barriers (R157, R158, R424): `rcv.set` makes MASK the arrived lanes and the cohort; `rcv.join` makes the lanes of MASK arrive
and wait at the instruction while some lane of MASK is missing, and lets every lane of MASK pass when none is. -/
def Sys2Proof.Rule.ReconvergenceBarriers : Prop :=
  ∀ (s : State) (g : Group) (q n : Nat), GroupFits s g q formRefused → n < g.bars.length → s.issue.len = 4 →
    let b := g.bars.getD n default
    let here := s.issue.lanes.filter fun l => b.mask.getLsbD l
    (∃ t h, exec (.rcvSet q n) s = .next t ∧ t.issuing? = some h ∧ (h.bars.getD n default).mask = b.arr ||| maskOf s.issue.lanes ∧
      { t with groups := s.groups } = s) ∧
    (b.mask &&& ~~~(b.arr ||| maskOf here) ≠ 0 →
      ∃ t h, exec (.rcvJoin q n) s = .next t ∧ t.issuing? = some h ∧ h.bars = g.bars.set n { b with arr := b.arr ||| maskOf here } ∧
        (∀ l, l < g.lanes.length → l ∈ here → (h.lane l).pc = s.issue.pc ∧ (h.lane l).wait = .join n) ∧
        (∀ l, l < g.lanes.length → l ∈ s.issue.lanes → l ∉ here → (h.lane l).pc = s.issue.next)) ∧
    (b.arr ||| maskOf here ≠ 0 → b.mask &&& ~~~(b.arr ||| maskOf here) = 0 →
      ∃ t h, exec (.rcvJoin q n) s = .next t ∧ t.issuing? = some h ∧ h.bars = g.bars.set n { b with arr := 0 } ∧
        (∀ l, l < g.lanes.length → l < 32 → l ∈ here → (h.lane l).pc = s.issue.pc + 4))

/-- Loops (R160, R425, R426): `loop` with a count opens the next level over its body, with the cohort as members; a count of 0 skips the body;
`endloop` sends the cohort past the body of the innermost level. -/
def Sys2Proof.Rule.Loops : Prop :=
  ∀ (s : State) (g : Group) (q d len : Nat), GroupFits s g q formG →
    let e : Word64 := s.issue.pc + BitVec.ofNat 64 (4 * len)
    let count := (regG g d).toNat % 2 ^ 32
    (g.ldep < 3 → (g.ldep = 0 ∨ e.toNat ≤ (g.loops.getD (g.ldep - 1) default).last.toNat) →
      (count ≠ 0 → ∃ t, exec (.loop q d len) s = .next t ∧
        GroupWord s t { g with loops := g.loops.set g.ldep ⟨count, len - 1, e, maskOf s.issue.lanes⟩, ldep := g.ldep + 1 }) ∧
      (count = 0 → ∃ t, exec (.loop q d len) s = .next t ∧ Went s t g g s.issue.lanes fun _ => e + 4)) ∧
    (g.ldep ≠ 0 → ∃ t, exec (.endloop q) s = .next t ∧
      Went s t g g s.issue.lanes fun _ => (g.loops.getD (g.ldep - 1) default).last + 4)

/-- Loops and reconvergence barriers (R157, R158, R160, R424 to R426). Ends that two levels share are read as log entry 25 says (DEDUCED). -/
def Obligations.LoopsAndReconvergence : Prop :=
  Sys2Proof.Rule.Loops ∧ Sys2Proof.Rule.ReconvergenceBarriers

/-- Layout (R159, R163, R170, R427): `segw` and `view` set the segment and view fields that the rules admit; `grow` adds steps whose bytes read
0 and clears Q6, or sets Q6 where RSIZE would pass 2,048; `shrink` gives steps back. -/
def Sys2Proof.Rule.Layout : Prop :=
  ∀ (s : State) (g : Group) (q a n : Nat), GroupFits s g q formG →
    let v := (regG g a).toNat
    let resized (t : State) (h g₁ : Group) : Prop := { t with groups := s.groups } = s ∧
      (∀ c k, ¬(c = s.issue.core ∧ k = s.issue.slot) → t.group? c k = s.group? c k) ∧
      { h with lanes := g₁.lanes, steps := g₁.steps, loops := g₁.loops, ldep := g₁.ldep } = g₁ ∧ h.lanes.length = g₁.lanes.length ∧
      (∀ k, k < 6 → h.q.getLsbD k = g.q.getLsbD k)
    (1 ≤ v % 8 → v % 8 ≤ 5 → v / 8 % 2 ^ 13 = 0 → v < 2 ^ 32 →
      ∃ t, exec (.segw q a) s = .next t ∧ GroupWord s t { g with wlog := v % 8, segen := v / 2 ^ 16 }) ∧
    (64 * (v % 32) < 256 * g.steps → 64 * (v / 2 ^ 8 % 32) < 256 * g.steps → 64 * (v / 2 ^ 16 % 32) < 256 * g.steps →
      ∃ t, exec (.view q a) s = .next t ∧ GroupWord s t { g with vbase := v % 32, tbase := v / 2 ^ 8 % 32, abase := v / 2 ^ 16 % 32 }) ∧
    (inShader s = false → 8 < g.steps + n → ∃ t, exec (.grow q n) s = .next t ∧ GroupWord s t (setQ g 6 true)) ∧
    (inShader s = false → g.steps + n ≤ 8 → growRequests s g.core = [] → growRoom s g n = true →
      ∃ t h, exec (.grow q n) s = .next t ∧ t.issuing? = some h ∧ h.steps = g.steps + n ∧ predQ h 6 = false ∧ resized t h { g with q := h.q } ∧
        ∀ l, l < g.lanes.length → h.lane l =
          { passed? s g l with regs := (g.lane l).regs.clear (256 * g.steps) (256 * n), wait := (h.lane l).wait }) ∧
    (inShader s = false → n < g.steps →
      ∃ t h, exec (.shrink q n) s = .next t ∧ t.issuing? = some h ∧ h.steps = g.steps - n ∧ resized t h g ∧
        ∀ l, l < g.lanes.length → h.lane l =
          { passed? s g l with regs := (g.lane l).regs.clear (256 * (g.steps - n)) (256 * n), wait := (h.lane l).wait })

/-- Branches, calls, returns, and the layout words (R159, R163, R170, R422, R423, R427): where lanes go, and how segments, views and register
steps change. -/
def Obligations.TransfersAndLayout : Prop :=
  Sys2Proof.Rule.Transfers ∧ Sys2Proof.Rule.Layout

/-- `wait` whose condition holds passes, and ends the stamping run; one whose condition does not hold blocks its cohort at the instruction
(R217, R155). -/
def Sys2Proof.Rule.WaitOnCounters : Prop :=
  ∀ (s : State) (g : Group) (all : Bool) (ld st cp mx : Nat), GroupFits s g 7 formPlain →
    let most (f : Lane → Nat) : Nat := s.issue.lanes.foldl (fun m l => max m (f (g.lane l))) 0
    let conds : List Bool := [decide (most Lane.ld ≤ ld), decide (most Lane.st ≤ st), decide (most Lane.cp ≤ cp), decide (most Lane.mx ≤ mx)]
    let met : Bool := if all then conds.all id else conds.any id
    (met = true → ∃ t, exec (.wait all ld st cp mx) s = .next t ∧ GroupWord s t { g with stampRun := false }) ∧
    (met = false → ∃ t, exec (.wait all ld st cp mx) s = .next t ∧ { t with groups := s.groups } = s ∧
      ∀ l, l < g.lanes.length → l ∈ s.issue.lanes →
        (t.lane s.issue.core s.issue.slot l).pc = s.issue.pc ∧ (t.lane s.issue.core s.issue.slot l).wait = .limits s.issue.lanes all ld st cp mx)

/-- `xfence` (R220, R408) passes once the accesses of its first path are performed and its release is done, and ends the stamping run. A
release at `die` or wider, and a fence from path `lsu` to another path, drain the store buffers and are shown where those are empty. -/
def Sys2Proof.Rule.CrossFence : Prop :=
  ∀ (s : State) (g : Group) (q p1 p2 sc : Nat), GroupFits s g q formPlain → (6 ≤ sc ∨ (p1 = 0 ∧ p2 ≠ 0) → s.ms.sb = []) →
    pathBusy (advance s) g s.issue.lanes p1 = false → releaseWaits (advance s) g s.issue.lanes sc = false →
    ∃ t, exec (.xfence q p1 p2 sc) s = .next t ∧ GroupWord s t { g with stampRun := false }

/-- Yielding (R147, R156, R428): in deterministic mode the group gives up its quarter; outside it the group leaves the active set where a
pending group of its quarter can run, and keeps its place where none can. -/
def Sys2Proof.Rule.Yield : Prop :=
  ∀ (s : State) (g : Group) (q : Nat), GroupFits s g q formRefused →
    (detmOf s g = true → ∃ t, exec (.yield q) s = .next t ∧ GroupWord s t { g with current := false }) ∧
    (detmOf s g = false → rivalWaits (advance s) g = true → ∃ t h, exec (.yield q) s = .next t ∧ t.issuing? = some h ∧ h.active = false ∧
      { t with groups := s.groups, fresh := s.fresh } = s) ∧
    (detmOf s g = false → rivalWaits (advance s) g = false → ∃ t, exec (.yield q) s = .next t ∧ GroupWord s t g)

/-- Waits on time (R429): the cohort passes at or after the target, and else waits at the instruction until the device time reaches it. -/
def Sys2Proof.Rule.WaitOnTime : Prop :=
  ∀ (s : State) (g : Group) (q a : Nat), GroupFits s g q formG →
    ((regG g a).toNat ≤ s.time.now → ∃ t, exec (.wtime q a) s = .next t ∧ GroupWord s t g) ∧
    (s.time.now < (regG g a).toNat → ∃ t, exec (.wtime q a) s = .next t ∧ { t with groups := s.groups } = s ∧
      ∀ l, l < g.lanes.length → l ∈ s.issue.lanes →
        (t.lane s.issue.core s.issue.slot l).pc = s.issue.pc ∧ (t.lane s.issue.core s.issue.slot l).wait = .time (regG g a).toNat)

/-- Waits, fences, yields and waits on time (R147, R155, R156, R217, R220, R408, R428, R429): the word passes where its condition holds, and its
cohort waits where it does not. What ordered words and `xfence` wait for is read as log entries 30 and 33 say. -/
def Obligations.WaitsAndFences : Prop :=
  Sys2Proof.Rule.WaitOnCounters ∧ Sys2Proof.Rule.CrossFence ∧ Sys2Proof.Rule.Yield ∧ Sys2Proof.Rule.WaitOnTime

/-- Team and cluster barriers (R409, R410). An arrival waits at the instruction while a lane of the team, or of a team of the cluster, is
missing; the last arrival lets the cohort pass and starts a new interval, whose team is repeatable again. -/
def Sys2Proof.Rule.Barriers : Prop :=
  ∀ (s : State) (g : Group) (u : Team) (q : Nat), GroupFits s g q formRefused → s.issue.len = 4 → s.team? g.team = some u → u.id = g.team →
    rollbackOn s u.part = false →
    let arrived (w : LaneWait) : State := yieldQuarter (waitHere (advance s) s.issue.lanes w) g.core g.slot
    (releaseWaits (advance s) g s.issue.lanes 3 = false →
      (teamArrived (arrived .barTeam) g.team .barTeam = false →
        ∃ t, exec (.barTeam q) s = .next t ∧ ∀ l, l < g.lanes.length → l ∈ s.issue.lanes →
          (t.lane s.issue.core s.issue.slot l).pc = s.issue.pc ∧ (t.lane s.issue.core s.issue.slot l).wait = .barTeam) ∧
      (teamArrived (arrived .barTeam) g.team .barTeam = true → (∃ l, l < g.lanes.length ∧ l ∈ s.issue.lanes) →
        ∃ t v, exec (.barTeam q) s = .next t ∧ (∀ l, l < g.lanes.length → l < 32 → l ∈ s.issue.lanes →
          (t.lane s.issue.core s.issue.slot l).pc = s.issue.pc + 4) ∧
          t.team? g.team = some v ∧ v.repeatable = true ∧ v.rollbacks = 0)) ∧
    (releaseWaits (advance s) g s.issue.lanes 5 = false → (s.clusterTeams u).map Team.id = [g.team] →
      (teamArrived (arrived .barCl) g.team .barCl = false →
        ∃ t, exec (.barCl q) s = .next t ∧ ∀ l, l < g.lanes.length → l ∈ s.issue.lanes →
          (t.lane s.issue.core s.issue.slot l).pc = s.issue.pc ∧ (t.lane s.issue.core s.issue.slot l).wait = .barCl) ∧
      (teamArrived (arrived .barCl) g.team .barCl = true → (∃ l, l < g.lanes.length ∧ l ∈ s.issue.lanes) →
        ∃ t v, exec (.barCl q) s = .next t ∧ (∀ l, l < g.lanes.length → l < 32 → l ∈ s.issue.lanes →
          (t.lane s.issue.core s.issue.slot l).pc = s.issue.pc + 4) ∧
          t.team? g.team = some v ∧ v.repeatable = true ∧ v.rollbacks = 0))

/-- `exit` (R428) in a team in which no lane waits and no keyring round is open: every lane of the cohort has exited, and its pending slots are
empty. -/
def Sys2Proof.Rule.Exit : Prop :=
  ∀ (s : State) (g : Group) (u : Team) (q : Nat), GroupFits s g q formRefused → s.team? g.team = some u →
    (∀ h ∈ s.groups, ∀ x ∈ h.lanes, x.wait = .none ∧ x.home = none) → (∀ k ∈ u.keyrings, k.open_ = false) → u.latched = none →
    ∃ t, exec (.exit q) s = .next t ∧ ∀ l, l < g.lanes.length → l ∈ s.issue.lanes →
      (t.lane s.issue.core s.issue.slot l).exited = true ∧ (t.lane s.issue.core s.issue.slot l).pend = List.replicate 4 none

/-- What the words of control and waiting leave alone (R157, R158, R217, R409, R428, R429, R433): every byte of memory, and in every group of the
part its registers, its layout, and of each lane its registers, predicates, generator, slice, trap depth and `ld`, `st` and `cp` entries. -/
def Sys2Proof.Rule.ControlFrame : Prop :=
  ∀ (s : State) (g : Group) (q a n ld st cp mx : Nat) (all : Bool), GroupFits s g q formRefused →
    ∀ i ∈ ([.rcvSet q n, .rcvJoin q n, .wait all ld st cp mx, .yield q, .wtime q a, .barTeam q, .barCl q, .exit q, .tmask q, .tunmask q]
        : List Instr),
      ∃ t, exec i s = .next t ∧ t.mem = s.mem ∧ t.scratch = s.scratch ∧ t.chip = s.chip ∧
        ∀ c k x, s.group? c k = some x → ∃ y, t.group? c k = some y ∧ SameFile x y ∧ ∀ l, l < x.lanes.length →
          (y.lane l).slice = (x.lane l).slice ∧ (y.lane l).tdep = (x.lane l).tdep

/-- The end of lanes, team and cluster barriers, and what the words of control and waiting leave alone (R157, R158, R217, R409, R410, R428,
R429, R433). Waiters go on in the same step (DEDUCED, log entry 71). -/
def Obligations.ExitAndBarriers : Prop :=
  Sys2Proof.Rule.Exit ∧ Sys2Proof.Rule.Barriers ∧ Sys2Proof.Rule.ControlFrame

/-! ## Exceptions -/

/-- Entering a handler (R327, R328): at depth 0 or 1 with a handler set, entry does what `Enters` says. -/
def Sys2Proof.Rule.HandlerEntry : Prop :=
  ∀ (g : Group) (x : Lane) (cause info : Nat) (epc val : Word64) (token : Nat), x.slice.wf = true → entryFatal g x = false →
    x.tdep < 2 ∧ g.tvec ≠ 0 ∧ Enters g x (laneEnters g x cause info epc val token) cause info epc val token

/-- `trap` and `brk` (R327, R433) take every lane of the cohort into its handler with cause 12 or 11, EPC the address after the word and VAL
the word. -/
def Obligations.SoftwareTraps : Prop :=
  ∀ (s : State) (g : Group) (q code : Nat), GroupFits s g q formRefused → s.issue.lanes.Nodup →
    (∀ l ∈ s.issue.lanes, l < g.lanes.length ∧ (g.lane l).tdep < 2 ∧ (g.lane l).home = none ∧ (g.lane l).slice.wf = true) → g.tvec ≠ 0 → g.inStore = true →
    ∀ i c, (i, c) ∈ ([(.trap q code, 12), (.brk q, 11)] : List (Instr × Nat)) →
    ∃ t, exec i s = .next t ∧ { t with groups := s.groups } = s ∧
      (∀ k j x, s.group? k j = some x → ∃ y, t.group? k j = some y ∧ SameFile x y) ∧ ∀ l ∈ s.issue.lanes,
      Enters g (g.lane l) (t.lane s.issue.core s.issue.slot l) c 0 s.issue.next s.issue.word 0

/-- `tret` (R329) returns each lane of the cohort that stands in a handler to the address in its frame, with TMSK from PMSK and TDEP one lower;
`tmask` and `tunmask` set and clear TMSK (R433). -/
def Sys2Proof.Rule.TrapReturnAndMasks : Prop :=
  ∀ (s : State) (g : Group) (u : Team) (q : Nat), GroupFits s g q formRefused → s.issue.lanes.Nodup →
    (∀ l ∈ s.issue.lanes, l < g.lanes.length ∧ (g.lane l).home = none) → s.team? g.team = some u → u.latched = none →
    ((∀ l ∈ s.issue.lanes, (g.lane l).tdep ≠ 0) → g.inStore = true →
      ∃ t, exec (.tret q) s = .next t ∧ { t with groups := s.groups } = s ∧
        (∀ k j x, s.group? k j = some x → ∃ y, t.group? k j = some y ∧ SameFile x y) ∧ ∀ l ∈ s.issue.lanes,
        let x := g.lane l
        let y := t.lane s.issue.core s.issue.slot l
        let f := 64 * g.tframe + 32 * (x.tdep - 1)
        y.pc = BitVec.ofNat 64 (x.slice.readN f 8 / 4 * 4) ∧ y.tmsk = (x.slice.read (f + 17)).getLsbD 3 ∧ y.tdep = x.tdep - 1 ∧
          y.regs = x.regs ∧ y.preds = x.preds ∧ y.slice = x.slice) ∧
    (∃ t, exec (.tmask q) s = .next t ∧ { t with groups := s.groups } = s ∧ ∀ l ∈ s.issue.lanes,
      (t.lane s.issue.core s.issue.slot l).tmsk = true ∧ (t.lane s.issue.core s.issue.slot l).pc = s.issue.next) ∧
    (∃ t, exec (.tunmask q) s = .next t ∧ { t with groups := s.groups } = s ∧ ∀ l ∈ s.issue.lanes,
      (t.lane s.issue.core s.issue.slot l).tmsk = false ∧ (t.lane s.issue.core s.issue.slot l).pc = s.issue.next)

/-- Handlers (R327 to R329, R433): entry at depth 0 or 1, return, and the trap mask. -/
def Obligations.Handlers : Prop :=
  Sys2Proof.Rule.HandlerEntry ∧ Sys2Proof.Rule.TrapReturnAndMasks

/-! ## Lane memory -/

/-- Loads (R394 to R398): where nothing holds the word back and every address passes its checks, each Active lane has one read on its way to
its destination, with the bytes that the store buffers hold (R206) and those of its own die, and its `ld` entry is raised; no byte of memory
changes.
Reads that are ordered wait as log entry 30 says, and a walk is made within the access (log entry 70). -/
def Obligations.Loads : Prop :=
  ∀ (s s₁ : State) (g : Group) (gd : Guard) (ps : List (Nat × Place × Word64)) (d a b swz off f : Nat) (m : MemX),
    let act := activeLanes g gd s
    let near (n : Nat) (l : Nat) : Word64 := addrLM g (g.lane l) a off n swz
    (∀ (i : Instr) (form : LaneForm) (sp n sc : Nat) (dest : Dest), (i, form, sp, n, sc, dest) ∈ ([
        (.ldLsB32 gd d a swz off, ⟨[.w a], [.v d], true⟩, 0, 4, 0, if d < 60 then .word (g.vAt d) 4 false else .none),
        (.ldLsB64 gd d a swz off, ⟨[.w a], [.w d], true⟩, 0, 8, 0, if d < 30 then .bytes (g.vAt (2 * d)) 8 else .none),
        (.ldSpB32 gd d a swz off, ⟨[.w a], [.v d], true⟩, 1, 4, 3, if d < 60 then .word (g.vAt d) 4 false else .none),
        (.ldSpB64 gd d a swz off, ⟨[.w a], [.w d], true⟩, 1, 8, 3, if d < 30 then .bytes (g.vAt (2 * d)) 8 else .none),
        (.ldGmB32 gd d a swz off, ⟨[.w a], [.v d], true⟩, 4, 4, 7, if d < 60 then .word (g.vAt d) 4 false else .none),
        (.ldGmB64 gd d a swz off, ⟨[.w a], [.w d], true⟩, 4, 8, 7, if d < 30 then .bytes (g.vAt (2 * d)) 8 else .none)]
        : List (Instr × LaneForm × Nat × Nat × Nat × Dest)) →
      LaneFits s g form → AccessGoes s (advance s) s₁ g act sp n .read .ld (near n) ps → trafficHeld s₁ g (ps.map fun x => x.2.1) = false →
      ∃ t, exec i s = .next t ∧ Loaded s s₁ t g gd form sp n sc false dest ps) ∧
    (∀ (n : Nat) (dest : Dest) (dsts : List Named), (f, n, dest, dsts) ∈ ([
        (0, 1, if d < 60 then .word (g.vAt d) 1 false else .none, [.v d]), (1, 1, if d < 60 then .word (g.vAt d) 1 true else .none, [.v d]),
        (2, 2, if d < 60 then .word (g.vAt d) 2 false else .none, [.v d]), (3, 2, if d < 60 then .word (g.vAt d) 2 true else .none, [.v d]),
        (4, 4, if d < 60 then .word (g.vAt d) 4 false else .none, [.v d]),
        (5, 8, if d < 30 then .bytes (g.vAt (2 * d)) 8 else .none, [.w d]),
        (6, 16, if d < 30 then .bytes (g.vAt (2 * d)) 16 else .none, if d = 60 then [] else [.w d, .w (d + 1)])]
        : List (Nat × Nat × Dest × List Named)) →
      m.cls = 0 → LaneFits s g ⟨[.w a, .v b], dsts, true⟩ →
      AccessGoes s (advance s) s₁ g act m.space n .read .ld (fun l => addrLX g l (g.lane l) a b 16 m.imm m.swz false) ps →
      trafficHeld s₁ g (ps.map fun x => x.2.1) = false →
      ∃ t, exec (.ldLx gd f d a b m) s = .next t ∧
        Loaded s s₁ t g gd ⟨[.w a, .v b], dsts, true⟩ m.space n m.scope (decide (m.ord = 1)) dest ps)

/-- Stores to `.gm` (R206, R394 to R398, R212): data and addresses are read at issue, each Active lane has an entry in the store buffer of its
core and its `st` entry raised, and no byte of memory changes until an entry drains. A release is checked after what it drains. -/
def Obligations.StoresToMemory : Prop :=
  ∀ (s s₁ : State) (g : Group) (gd : Guard) (ps : List (Nat × Place × Word64)) (d a b swz off f : Nat) (m : MemX),
    let act := activeLanes g gd s
    let one (k n : Nat) (l : Nat) : List Byte := bytesOfNum n (srcV g l (g.lane l) k).toNat
    let two (k : Nat) (l : Nat) : List Byte := bytesOfNum 8 (srcW g (g.lane l) k).toNat
    (∀ (i : Instr) (form : LaneForm) (n : Nat) (data : Nat → List Byte), (i, form, n, data) ∈ ([
        (.stGmB32 gd d a swz off, ⟨[.w a, .v d], [], true⟩, 4, one d 4), (.stGmB64 gd d a swz off, ⟨[.w a, .w d], [], true⟩, 8, two d)]
        : List (Instr × LaneForm × Nat × (Nat → List Byte))) →
      LaneFits s g form → AccessGoes s (advance s) s₁ g act 4 n .write .st (fun l => addrLM g (g.lane l) a off n swz) ps →
      ∃ t, exec i s = .next t ∧ LaneGroups s t g g gd form (fun _ => noFlags) (fun _ x => { x with st := x.st + 1 }) ∧
        Buffered s₁ t g ps data (stampsNow s₁ g) false) ∧
    (∀ (n : Nat) (data : Nat → List Byte) (srcs : List Named), (f, n, data, srcs) ∈ ([
        (0, 1, one d 1, [.v d]), (1, 2, one d 2, [.v d]), (2, 4, one d 4, [.v d]), (3, 8, two d, [.w d]),
        (4, 16, fun l => two d l ++ two (if d = 60 then 60 else d + 1) l, if d = 60 then [] else [.w d, .w (d + 1)])]
        : List (Nat × Nat × (Nat → List Byte) × List Named)) →
      let addr (l : Nat) : Word64 := addrLX g l (g.lane l) a b 16 m.imm m.swz false
      let sc := scopeOver m.scope (act.map fun l => (l, addr l))
      let rel := decide (m.ord = 2)
      let s₀ := afterRelease s g act rel sc
      m.cls = 0 → m.space = 4 → LaneFits s g ⟨[.w a, .v b] ++ srcs, [], true⟩ → (rel = true → releaseWaits s₀ g act sc = false) →
      AccessGoes s s₀ s₁ g act 4 n .write .st addr ps →
      ∃ t, exec (.stLx gd f d a b m) s = .next t ∧ LanesFrom s₁ t act (fun x => { x with st := x.st + 1 }) ∧
        (rel = false → LaneGroups s t g g gd ⟨[.w a, .v b] ++ srcs, [], true⟩ (fun _ => noFlags) (fun _ x => { x with st := x.st + 1 })) ∧
        Buffered s₁ t g ps data ((rel && decide (6 ≤ m.scope)) || stampsNow s₁ g) false)

/-- Stores to `.ls`, `.sp`, `.cl` and `.ch` (R205, R223, R394 to R398): those of the own die stand in their SRAM as the word completes, the
highest lane winning a byte, and those of the other die are on their way; the `st` entries are raised. -/
def Obligations.StoresToScratchpads : Prop :=
  ∀ (s s₁ : State) (g : Group) (gd : Guard) (ps : List (Nat × Place × Word64)) (d a b swz off f : Nat) (m : MemX),
    let act := activeLanes g gd s
    let one (k n : Nat) (l : Nat) : List Byte := bytesOfNum n (srcV g l (g.lane l) k).toNat
    let two (k : Nat) (l : Nat) : List Byte := bytesOfNum 8 (srcW g (g.lane l) k).toNat
    let stored (sp : Nat) (addr : Nat → Word64) (data : Nat → List Byte) (l : Nat) (x : Lane) : Lane :=
      { x with st := x.st + 1, slice := if sp = 0 then x.slice.writeBytes (addr l).toNat (data l) else x.slice }
    (∀ l ∈ act, l < g.lanes.length) →
    (∀ (i : Instr) (form : LaneForm) (sp n : Nat) (data : Nat → List Byte), (i, form, sp, n, data) ∈ ([
        (.stLsB32 gd d a swz off, ⟨[.w a, .v d], [], true⟩, 0, 4, one d 4), (.stLsB64 gd d a swz off, ⟨[.w a, .w d], [], true⟩, 0, 8, two d),
        (.stSpB32 gd d a swz off, ⟨[.w a, .v d], [], true⟩, 1, 4, one d 4), (.stSpB64 gd d a swz off, ⟨[.w a, .w d], [], true⟩, 1, 8, two d)]
        : List (Instr × LaneForm × Nat × Nat × (Nat → List Byte))) →
      let addr (l : Nat) : Word64 := addrLM g (g.lane l) a off n swz
      LaneFits s g form → AccessGoes s (advance s) s₁ g act sp n .write .st addr ps → trafficHeld s₁ g (ps.map fun x => x.2.1) = false →
      (∀ x ∈ ps, ∀ k, k < n → (x.2.1.plus k).own s₁) →
      ∃ t, exec i s = .next t ∧ LaneGroups s t g g gd form (fun _ => noFlags) (stored sp addr data) ∧ Scratched s₁ t g n ps data) ∧
    (∀ (n : Nat) (data : Nat → List Byte) (srcs : List Named), (f, n, data, srcs) ∈ ([
        (0, 1, one d 1, [.v d]), (1, 2, one d 2, [.v d]), (2, 4, one d 4, [.v d]), (3, 8, two d, [.w d]),
        (4, 16, fun l => two d l ++ two (if d = 60 then 60 else d + 1) l, if d = 60 then [] else [.w d, .w (d + 1)])]
        : List (Nat × Nat × (Nat → List Byte) × List Named)) →
      let addr (l : Nat) : Word64 := addrLX g l (g.lane l) a b 16 m.imm m.swz false
      let sc := scopeOver m.scope (act.map fun l => (l, addr l))
      let rel := decide (m.ord = 2)
      let s₀ := afterRelease s g act rel sc
      m.cls = 0 → m.space < 4 → LaneFits s g ⟨[.w a, .v b] ++ srcs, [], true⟩ → (rel = true → releaseWaits s₀ g act sc = false) →
      AccessGoes s s₀ s₁ g act m.space n .write .st addr ps → trafficHeld s₁ g (ps.map fun x => x.2.1) = false →
      (∀ x ∈ ps, ∀ k, k < n → (x.2.1.plus k).own s₁) →
      ∃ t, exec (.stLx gd f d a b m) s = .next t ∧ LanesFrom s₁ t act (fun x => { x with st := x.st + 1 }) ∧
        (rel = false → LaneGroups s t g g gd ⟨[.w a, .v b] ++ srcs, [], true⟩ (fun _ => noFlags) (stored m.space addr data)) ∧
        Scratched s₁ t g n ps data)

/-- Ordered pixel accesses (R286, R287, R400): those that fall in the target leave their core for the scoreboard of their order word, each with
its pixel, its order (the low 16 bits of V(B)) and its class: on its own die they stand there, and for the other die a message is on its way,
a load's as an acquire and a store's as a release; those outside the target are performed as unordered ones and set RANGEERR.
The order word is translated like the access (DEDUCED, log entry 17). -/
def Obligations.OrderedAccesses : Prop :=
  ∀ (s s₁ s₂ : State) (g : Group) (gd : Guard) (ps : List (Nat × Place × Word64)) (ok : List (Nat × Place × Word64 × Option (Nat × Place)))
    (d a b f : Nat) (m : MemX),
    let act := activeLanes g gd s
    let addr (l : Nat) : Word64 := addrLX g l (g.lane l) a b 16 m.imm m.swz (m.cls == 1)
    let strict := decide (m.cls = 1)
    let order (l : Nat) : Nat := (srcV g l (g.lane l) b).toNat % 65536
    let homed (die : Nat) (x : Nat × Place × Word64 × Option (Nat × Place)) : Bool := match x.2.2.2 with
      | some kw => decide (kw.2.reach (dieOfCore g.core) = if die = dieOfCore g.core then .here else .across)
      | none => false
    let sent (t : State) (write : Bool) (n : Nat) (data : Nat → List Byte) (dest : Dest) : Prop :=
      ((∀ x ∈ ok, homed (1 - dieOfCore g.core) x = true) → ∃ fs, t.ms.flights = s₂.ms.flights ++ fs ∧
        fs.map (fun f => (f.stage, f.core, f.slot, f.lanes, f.acquire, f.release, f.data)) =
          ok.map fun x => (.request, g.core, g.slot, [x.1], !write, write, data x.1)) ∧
      ((∀ x ∈ ok, homed (dieOfCore g.core) x = true) → ∃ xs, t.render.pixels = s₂.render.pixels ++ xs ∧
        xs.map (fun p => (p.core, p.slot, p.lane, some (p.pixel, p.word), p.order, p.strict, p.write, p.place, p.len, p.data, p.dest)) =
          ok.map fun x => (g.core, g.slot, x.1, x.2.2.2, order x.1, strict, write, x.2.1, n, data x.1, dest))
    (1 ≤ m.cls →
      (∀ n dest, (f, n, dest) ∈ ([(4, 4, destV d 4 false g), (5, 8, destW d 8 g), (6, 16, destW d 16 g), (0, 1, destV d 1 false g),
          (1, 1, destV d 1 true g), (2, 2, destV d 2 false g), (3, 2, destV d 2 true g)] : List (Nat × Nat × Dest)) →
        LaneFits s g ⟨[.w a, .v b], loadNamed f d, true⟩ → AccessGoes s (advance s) s₁ g act 4 n .read .ld addr ps →
        orderWords s₁ g n (if strict then .read else .write) ps = (s₂, ok, []) → trafficHeld s₂ g (ok.map fun x => x.2.1) = false →
        ∃ t, exec (.ldLx gd f d a b m) s = .next t ∧ LanesFrom s₂ t act (fun x => { x with ld := x.ld + 1 }) ∧
          (∀ p, readByte t p = readByte s₂ p) ∧
          sent t false n (fun _ => []) dest ∧
          ((∃ x ∈ ok, x.2.2.2 = none) → s₂.partOf g < s₂.parts.length → (t.part (s₂.partOf g)).px.stat.testBit 2 = true)) ∧
      (∀ n data, (f, n, data) ∈ ([(0, 1, bytesV d 1), (1, 2, bytesV d 2), (2, 4, bytesV d 4), (3, 8, bytesW d), (4, 16, bytesWW d)]
          : List (Nat × Nat × (Group → Nat → Lane → List Byte))) →
        let sc := scopeOver m.scope (act.map fun l => (l, addr l))
        let s₀ := afterRelease s g act true sc
        LaneFits s g ⟨[.w a, .v b] ++ storeNamed f d, [], true⟩ → releaseWaits s₀ g act sc = false →
        AccessGoes s s₀ s₁ g act 4 n .write .st addr ps →
        orderWords s₁ g n .write ps = (s₂, ok, []) → trafficHeld s₂ g (ok.map fun x => x.2.1) = false →
        ∃ t, exec (.stLx gd f d a b m) s = .next t ∧
          ((∀ x ∈ ok, x.2.2.2 ≠ none) → LanesFrom s₂ t act (fun x => { x with st := x.st + 1 }) ∧ (∀ p, readByte t p = readByte s₂ p) ∧
            sent t true n (fun l => data g l (g.lane l)) .none)))

/-- Atomics (R403 to R406): the `ld` entries of the Active lanes are raised; with one Active lane and a place on its die that is not
poisoned, the operation is performed there and then as one event: the new value stands at the place, or a `cas` that fails leaves it, and
the old value is on its way to D; no other byte changes. The memory clause is that of a group outside deterministic mode, whose writes may
be reported in a ring (R148). -/
def Obligations.Atomics : Prop :=
  ∀ (s s₁ : State) (g : Group) (gd : Guard) (ps : List (Nat × Place × Word64)) (d a b : Nat) (m : AtomX) (i : Instr)
    (new : Nat → Nat → Nat → Option Nat) (opnd : Group → Nat → Lane → Nat × Nat) (form : LaneForm),
    let n := if m.typ < 4 then 4 else if m.typ < 7 then 8 else 16
    let lesser (x y : Nat) : Nat := if m.typ = 3 then fMin fmtFP32 x y else if m.typ = 1 ∨ m.typ = 5 then
      (if signedOf (8 * n) x < signedOf (8 * n) y then x else y) else min x y
    let greater (x y : Nat) : Nat := if m.typ = 3 then fMax fmtFP32 x y else if m.typ = 1 ∨ m.typ = 5 then
      (if signedOf (8 * n) x < signedOf (8 * n) y then y else x) else max x y
    let act := activeLanes g gd s
    let addr (l : Nat) : Word64 := addrLX g l (g.lane l) a b 12 m.off m.swz false
    let sc := scopeOver m.scope (act.map fun l => (l, addr l))
    let rel := decide (2 ≤ m.ord)
    let s₀ := afterRelease s g act rel sc
    (i, new, opnd, form) ∈ ([
      (.atomAdd gd d a b m, fun x y _ => some (if m.typ = 3 then (fAdd fmtFP32 x y).code else (x + y) % 256 ^ n), atomOperand m.typ d, atomForm d a b m),
      (.atomMin gd d a b m, fun x y _ => some (lesser x y), atomOperand m.typ d, atomForm d a b m),
      (.atomMax gd d a b m, fun x y _ => some (greater x y), atomOperand m.typ d, atomForm d a b m),
      (.atomAnd gd d a b m, fun x y _ => some (x &&& y), atomOperand m.typ d, atomForm d a b m),
      (.atomOr gd d a b m, fun x y _ => some (x ||| y), atomOperand m.typ d, atomForm d a b m),
      (.atomXor gd d a b m, fun x y _ => some (x ^^^ y), atomOperand m.typ d, atomForm d a b m),
      (.atomExch gd d a b m, fun _ y _ => some y, atomOperand m.typ d, atomForm d a b m),
      (.cas gd d a b m, fun x y z => if x = y then some z else none, casOperand m.typ d,
        ⟨[.w a, .v b] ++ atomNamed m.typ d ++ (if m.typ = 4 then [.w (d + 1)] else [.w (d + 2), .w (d + 3)]), [], true⟩)]
      : List (Instr × (Nat → Nat → Nat → Option Nat) × (Group → Nat → Lane → Nat × Nat) × LaneForm)) →
    LaneFits s g form → (rel = true → releaseWaits s₀ g act sc = false) → (m.space < 4 → chipPending s g act = false) →
    AccessGoes s s₀ s₁ g act m.space n .atomic .ld addr ps →
    trafficHeld s₁ g (ps.map fun x => x.2.1) = false →
    ∃ t, exec i s = .next t ∧ LanesFrom s₁ t act (fun x => { x with ld := x.ld + 1 }) ∧
      ∀ (l : Nat) (p : Place), act = [l] → ps = [(l, p, addr l)] → onDie (dieOfCore g.core) p = true →
        let s₂ := drainOverlap (markInterval (countUp s₁ g.core g.slot [l] .ld) g) g.core p
        let old := (readPlace s₂ p n).1
        let v := new old (opnd g l (g.lane l)).1 (opnd g l (g.lane l)).2
        (readPlace s₂ p n).2 = false →
        (∃ f, t.ms.flights = s₂.ms.flights ++ [f] ∧ (∃ fn x y, f.kind = .atomic fn m.typ x y (atomDest m.typ d g)) ∧ f.lanes = [l] ∧ f.counter = .ld ∧ f.stage = .performed ∧
          f.reads = [⟨p, n, some old, false⟩]) ∧
        (detmWriter s₁ g.core g.slot = none → l < g.lanes.length → (∀ k, k < n → (p.plus k).own s₂) →
          ∀ q, q.own s₂ → readByte t q = ((v.bind fun x => storedAt p (bytesOfNum n x) q).getD (readByte s₂ q)))

/-- Gathers and scatters (R401): where every present element passes, an `ldg` has its 16 words on their way, absent ones as 0, and changes no
byte; a `stg` on its own die leaves the words of T(D) at their elements' places, the last in order of lane and element winning. -/
def Obligations.GathersAndScatters : Prop :=
  ∀ (s s₁ : State) (g : Group) (gd : Guard) (d a b : Nat) (m : MemX) (es : List (Nat × Elems)),
    let act := activeLanes g gd s
    let elems (l : Nat) : List (Option Word64) := (List.range 16).map fun k =>
      let i := wordAt (readT g (g.lane l) (d + 1)) k
      if i = 0x80000000 then none
      else some (BitVec.ofNat 64 (swizzle m.swz (addrLX g l (g.lane l) a b 16 m.imm 0 false + 4 * BitVec.ofInt 64 (signedOf 32 i)).toNat))
    let flat := act.flatMap fun l => (elems l).filterMap fun o => o.map fun w => (l, w)
    let places := es.flatMap fun x => (elemPlaces x.2).filterMap id
    let parts (x : Nat × Elems) : List (Place × List Byte) :=
      ((elemPlaces x.2).mapIdx fun k p => p.map fun q => (q, ((readT g (g.lane x.1) d).drop (4 * k)).take 4)).filterMap id
    (∀ x ∈ es, elemFails x = []) → trafficHeld s₁ g places = false →
    (LaneFits s g ⟨[.w a, .v b, .t (d + 1)], [.t d], true⟩ → memBusy s g act m.space 4 3 .ld flat = false →
      checkGather (advance s) g m.space .read (act.map fun l => (l, elems l)) = (s₁, es) →
      ∃ t, exec (.ldg gd d a b m) s = .next t ∧ OnlySent s₁ t ∧
        LaneGroups s t g g gd ⟨[.w a, .v b, .t (d + 1)], [.t d], true⟩ (fun _ => noFlags) (fun _ x => { x with ld := x.ld + 1 }) ∧
        ∃ fs, t.ms.flights = s₁.ms.flights ++ fs ∧
          fs.map (fun f => (f.kind, f.lanes, f.counter, f.reads)) =
            es.map fun x => (.read (.bytes (g.tAt d) 64), [x.1], .ld, fillParts s₁ (onDie (dieOfCore g.core))
              ((elemPlaces x.2).map fun p => match p with
                | some q => ⟨q, 4, none, false⟩
                | none => ⟨.phys 0, 4, some 0, false⟩))) ∧
    (LaneFits s g ⟨[.w a, .v b, .t d, .t (d + 1)], [], true⟩ → memBusy s g act m.space 4 3 .st flat = false →
      checkGather (advance s) g m.space .write (act.map fun l => (l, elems l)) = (s₁, es) →
      ∃ t, exec (.stg gd d a b m) s = .next t ∧ LanesFrom s₁ t act (fun x => { x with st := x.st + 1 }) ∧
        ((∀ l ∈ act, l < g.lanes.length) → detmWriter s₁ g.core g.slot = none → (∀ p ∈ places, onDie (dieOfCore g.core) p = true) →
          (∀ p ∈ places, ∀ k, k < 4 → (p.plus k).own s₁ ∧ ∀ x, p.plus k = .phys x → regionOf s₁.links x ≠ .outside) →
          ∀ q, q.own s₁ → readByte t q = (lastStored (es.flatMap parts) q).getD (readByte s₁ q)))

/-- A prefetch (R402, R194) changes nothing that a program sees but that its cohort passes it: it starts a walk for each Active lane whose
core's TLB holds no entry for its address, and a domain address is ignored. -/
def Sys2Proof.Rule.Prefetches : Prop :=
  ∀ (s : State) (g : Group) (gd : Guard) (a b sp imm : Nat), LaneFits s g ⟨[.w a, .v b], [], true⟩ →
    let at_ (l : Nat) : Nat :=
      let x := (addrLX g l (g.lane l) a b 16 imm 0 false).toNat
      if sp = 5 then ((recordOf s g).kcbase + x) % 2 ^ 64 else x
    let walks := ((activeLanes g gd s).map at_).filter fun va =>
      decide (va < 2 ^ 48) && !s.ms.tlb.any fun e => e.core == some g.core && e.maps (s.partOf g) va
    ∃ t, exec (.prefetch gd a b sp imm) s = .next t ∧ LaneGroups s t g g gd ⟨[.w a, .v b], [], true⟩ (fun _ => noFlags) (fun _ x => x) ∧
      { t with groups := s.groups, ms := s.ms, fresh := s.fresh } = s ∧ { t.ms with walks := s.ms.walks } = s.ms ∧
      ∃ ws, t.ms.walks = s.ms.walks ++ ws ∧
        ws.map (fun w => (w.die, w.core, w.part, w.va)) = walks.map fun va => (dieOfCore g.core, some g.core, s.partOf g, va)

/-- Reservoir records in memory (R292, R293, R455): `resld` and `resst` form the address of the pixel's record on their die; where the
coordinates and addresses of all Active lanes pass, a load of 32 bytes is on its way, or the record stands in the store buffer. -/
def Obligations.ReservoirMemory : Prop :=
  ∀ (s s₁ : State) (g : Group) (gd : Guard) (d a : Nat) (ps : List (Nat × Place × Word64)),
    let act := activeLanes g gd s
    let xy (l : Nat) : Nat × Word64 := (l, BitVec.ofNat 64 (srcV g l (g.lane l) a).toNat)
    (LaneFits s g ⟨[.v a], [.t (d / 2)], true⟩ → memBusy s g act 4 32 0 .ld [] = false →
      checkCoords (advance s) g .read (act.map xy) = (s₁, ps.map fun x => (x.1, x.2.2, .ok x.2.1)) →
      trafficHeld s₁ g (ps.map fun x => x.2.1) = false →
      ∃ t, exec (.resld gd d a) s = .next t ∧ Loaded s s₁ t g gd ⟨[.v a], [.t (d / 2)], true⟩ 4 32 7 false (.bytes (g.recAt d) 32) ps) ∧
    (LaneFits s g ⟨[.t (d / 2), .v a], [], true⟩ → memBusy s g act 4 32 0 .st [] = false →
      checkCoords (advance s) g .write (act.map xy) = (s₁, ps.map fun x => (x.1, x.2.2, .ok x.2.1)) →
      ∃ t, exec (.resst gd d a) s = .next t ∧
        LaneGroups s t g g gd ⟨[.t (d / 2), .v a], [], true⟩ (fun _ => noFlags) (fun _ x => { x with st := x.st + 1 }) ∧
        Buffered s₁ t g ps (fun l => (g.lane l).regs.bytes (g.recAt d) 32) (stampsNow s₁ g) true)

/-- Group memory (R421, R415, R416): a `gld` has one read of 8 bytes on its way to G(D), counted on every lane of the cohort; a `gst` is one
entry of the store buffer; a `tdec` at a tumbler on its own die that is not poisoned and to whose line no store of the core waits lowers it by G(B) modulo 2^64 and counts
nothing; a `twait` whose tumbler, once the core's stores to its line have gone there (R209), is at most its bound lets the cohort pass. -/
def Sys2Proof.Rule.GroupMemory : Prop :=
  ∀ (s s₁ : State) (g : Group) (q d a b sc off : Nat) (p : Place), GroupFits s g q formG →
    let ls := s.issue.lanes
    let addr : Word64 := regG g a + BitVec.ofNat 64 (8 * off)
    let check (s₀ : State) (acc : Acc) (x : Word64) : Prop := checkAddr s₀ g (ls.headD 0) 4 x 8 acc 0 = (s₁, .ok p)
    (countFull g ls .ld = false → acquirePending s g ls 0 = false → check (advance s) .read addr → trafficHeld s₁ g [p] = false →
      ∃ t, exec (.gld q d a off) s = .next t ∧ LanesFrom s₁ t ls (fun x => { x with ld := x.ld + 1 }) ∧ OnlySent s₁ t ∧
        ∃ f, t.ms.flights = s₁.ms.flights ++ [f] ∧ f.kind = .read (.g d) ∧ f.lanes = ls ∧ f.counter = .ld ∧ f.core = g.core ∧ f.slot = g.slot ∧
          f.reads = fillParts s₁ (onDie (dieOfCore g.core)) (readParts s₁ g 7 p 8)) ∧
    (countFull g ls .st = false → acquirePending s g ls 0 = false → check (advance s) .write addr →
      ∃ t, exec (.gst q d a off) s = .next t ∧ LanesFrom s₁ t ls (fun x => { x with st := x.st + 1 }) ∧
        (∀ x, readByte t x = readByte s₁ x) ∧
        ∃ e, t.ms.sb = s₁.ms.sb ++ [e] ∧ e.core = g.core ∧ e.slot = g.slot ∧ e.lanes = ls ∧ e.place = p ∧
          e.data = bytesOfNum 8 (regG g d).toNat) ∧
    (let scope := effScope (regG g a).toNat sc
     let s₀ := releaseDrain (advance s) g scope
     acquirePending s g ls 0 = false → releaseWaits s₀ g ls scope = false → check s₀ .atomic (regG g a) →
      trafficHeld s₁ g [p] = false → (∀ e ∈ s₁.ms.sb, ¬(e.core = g.core ∧ e.place.lineOf = p.lineOf)) →
      ∃ t, exec (.tdec q sc a b) s = .next t ∧ LanesFrom s₁ t ls (fun x => x) ∧
        (onDie (dieOfCore g.core) p = true → (readPlace s₁ p 8).2 = false → (∀ k, k < 8 → (p.plus k).own s₁) →
          t.ms = s₁.ms ∧ ∀ x, x.own s₁ → readByte t x = (storedAt p (bytesOfNum 8
            (((readPlace s₁ p 8).1 + 2 ^ 64 - (regG g b).toNat) % 2 ^ 64)) x).getD (readByte s₁ x))) ∧
    (let scope := effScope (regG g a).toNat sc
     let w := { waitHere (advance s) ls (.tumbler s.fresh (regG g a) (regG g b) scope) with fresh := s.fresh + 1 }
     acquirePending s g ls 0 = false → (regG g a).toNat % 8 = 0 → ∀ bs s₂,
        unitAcquire (drainTumbler w g (regG g a)) s.fresh (whoLane s g 0) scope (regG g a).toNat 8 = (s₂, .data bs) →
        (BitVec.ofNat 64 (numOfBytes bs)).toInt ≤ (regG g b).toInt →
        ∃ t, exec (.twait q sc a b) s = .next t ∧ (∀ x, readByte t x = readByte s₂ x) ∧
          ∃ h, t.issuing? = some h ∧ ∀ l ∈ ls, l < h.lanes.length → (h.lane l).pc = s.issue.next)

/-- Prefetches and the memory words of groups (R194, R402, R415, R416, R421). -/
def Obligations.PrefetchAndGroupMemory : Prop :=
  Sys2Proof.Rule.Prefetches ∧ Sys2Proof.Rule.GroupMemory

/-! ## Shader control, rays, marches, light walks, rows, drains and signs -/

/-- Shader control (R276, R460, R461): `hitattr` reads the words of the candidate; `accept`, `ignore` and `term` take a lane out of shader
state to SRET, where it waits for its ray again, and the ray commits what the shader gives, or ends; `hitattr.pg` reads a word of the
candidate's page.
Words that no candidate gives are read as log entry 46 says (DEDUCED). -/
def Obligations.ShaderControl : Prop :=
  ∀ (s : State) (g : Group) (gd : Guard) (d n a b l : Nat) (r : RaySlot) (h : Hit), inShader s = true →
    s.issuing? = some g → l < g.lanes.length → calledRay s g.core g.slot l = some r → r.cand = some h → s.ray? r.id = some r →
    let words : List Nat := [h.t, h.bu, h.bv, h.inst, h.field % 4294967296, h.field / 4294967296, h.ref % 4294967296, h.ref / 4294967296,
      if h.proc then 0 else r.word, h.primid, h.hgroup + 65536 * (if h.proc then 0 else r.steps), 0, h.attr.getD 0 0, h.attr.getD 1 0,
      h.attr.getD 2 0, h.attr.getD 3 0, r.geom.ox, r.geom.oy, r.geom.oz, r.geom.dx, r.geom.dy, r.geom.dz, r.geom.tmin, r.geom.tmax]
    let dist := (srcV g l (g.lane l) a).toNat
    let given : Option Hit := if h.proc then
        (if Val.le (decodeVal fmtFP32 r.geom.tmin) (decodeVal fmtFP32 dist) && Val.le (decodeVal fmtFP32 dist) (decodeVal fmtFP32 r.geom.tmax)
         then some { h with t := dist, attr := (List.range 4).map fun i => wordAt (readT g (g.lane l) b) i } else none)
      else some h
    let kept (x : Option Hit) : Option Hit := match x, r.hit with
      | some k, some c => if k.before c then some k else some c
      | some k, none => some k
      | none, c => c
    let goes (i : Instr) (x : Option Hit) (ends : Bool) : Prop :=
      activeLanes g gd s = [l] → (g.lane l).tdep = 0 → (g.lane l).home = none →
      ∃ t y, exec i s = .next t ∧ t.issuing? = some y ∧ (y.lane l).pc = (g.lane l).sret ∧ (y.lane l).shader = false ∧
        (y.lane l).wait = .ray r.id ∧ (y.lane l).regs = (g.lane l).regs ∧ t.mem = s.mem ∧
        ∃ q, t.ray? r.id = some q ∧ q.cand = none ∧ q.hit = kept x ∧ (q.state = .walk ∨ q.state = .done) ∧ (ends = true → q.state = .done)
    (LaneFits s g ⟨[], [.v d], true⟩ → n < 24 →
      ∃ t, exec (.hitattr gd d n) s = .next t ∧ LaneWord s t g g gd ⟨[], [.v d], true⟩ (fun _ => noFlags) fun k x => dstV g x d (attrOf s g k n)) ∧
    (n < 24 → attrOf s g l n = BitVec.ofNat 32 (words.getD n 0)) ∧
    (LaneFits s g ⟨[.v a, .t b], [], true⟩ → goes (.accept gd a b) given false ∧ goes (.term gd a b) given true) ∧
    (LaneFits s g ⟨[], [], true⟩ → goes (.ignore gd) none false) ∧
    (∀ s₁ bs, LaneFits s g ⟨[.v b], [.v d], true⟩ → activeLanes g gd s = [l] → h.proc = false →
      let v := (srcV g l (g.lane l) b).toNat
      v % 4 = 0 → v < 56320 →
      unitRead (advance s) (2 ^ 61 + (g.core * 64 + g.slot) * 32 + l) (whoLane s g 5) .read (h.key + 9216 + v) 4 = (s₁, .data bs) →
      ∃ t y, exec (.hitattrPg gd d b) s = .next t ∧ t.issuing? = some y ∧
        (y.lane l).regs = (dstV g (g.lane l) d (BitVec.ofNat 32 (numOfBytes bs))).regs ∧ (y.lane l).pc = s.issue.next)

/-- Rays (R260, R261, R457): where `mx` has room and the core has slots, each Active lane's ray enters a slot with the lane's geometry, flags,
root and table; a calling lane stays at the word until its result is written, another passes it.
What a malformed ray does is read as log entry 45 says (DEDUCED). -/
def Obligations.Rays : Prop :=
  ∀ (s : State) (g : Group) (gd : Guard) (fl d a b c : Nat), inShader s = false →
    let act := activeLanes g gd s
    let fits (dst : Named) : Prop := LaneFits s g ⟨[.t a, .w b, .w c], [dst], false⟩
    let sent (fl : Nat) (dest : Option (Nat × Nat)) (t : State) : Prop :=
      let calling := !(fl.testBit 0 && fl.testBit 3)
      LanesFrom (advance s) t act (fun x => { x with mx := x.mx + 1, pc := if calling then s.issue.pc else x.pc }) ∧
      (∀ p, readByte t p = readByte s p) ∧ { t with groups := s.groups, render := s.render, fresh := s.fresh } = s ∧
      ∃ rs, t.render = { s.render with rays := s.render.rays ++ rs } ∧
        rs.map (fun r => (r.core, r.owner, r.pc, r.dest, r.calling, r.geom, r.root, r.htab, r.steps, r.stack)) =
          act.map (fun l => (g.core, .lane g.core g.slot l, s.issue.pc, dest, calling, rayOfBytes ((readT g (g.lane l) a).take 32),
            (srcW g (g.lane l) b).toNat, if calling then (srcW g (g.lane l) c).toNat else 0, 0, [((srcW g (g.lane l) b).toNat, false)])) ∧
        (∀ r ∈ rs, r.flags % 16 = fl % 16 ∧ (r.state = .walk ∨ r.state = .done) ∧
          (r.state = .done ↔ r.geom.bad = true ∨ r.root % 64 ≠ 0) ∧ (r.flags.testBit 20 = true ↔ r.state = .done))
    countFull g act .mx = false → act.length ≤ raysFree s g.core →
    (fits (.t d) → ∃ t, exec (.trace gd fl d a b c) s = .next t ∧ sent fl (some (g.tAt d, 64)) t) ∧
    (fits (.v d) → ∃ t, exec (.occl gd fl d a b c) s = .next t ∧ sent (fl ||| 3) (if d < 60 then some (g.vAt d, 4) else none) t)

/-- Marches and light walks (R281, R459, R320, R456): a `march` of lanes that hold no slot takes one for each; `march.res` of a lane whose
event has landed runs its march on, and of a lane without a slot gives it END with MALFORMED at once; an `lwalk` with an aligned base puts
each lane's walk at the root, where the lane waits.
Marches without a slot and walks are read as log entries 47 and 48 say. -/
def Obligations.MarchesAndWalks : Prop :=
  ∀ (s : State) (g : Group) (gd : Guard) (d a b l : Nat),
    let act := activeLanes g gd s
    (inShader s = false → LaneFits s g ⟨[.t a, .w b], [.t d, .t (d + 1)], false⟩ → act.Nodup → countFull g act .mx = false →
      (∀ l ∈ act, marchOf s g.core g.slot l = none) → act.length ≤ marchesFree s g.core →
      ∃ t, exec (.march gd d a b) s = .next t ∧ LanesFrom (advance s) t act (fun x => { x with mx := x.mx + 1 }) ∧
        { t with groups := s.groups, render := s.render, fresh := s.fresh } = s ∧
        ∃ ms, t.render = { s.render with marches := s.render.marches ++ ms } ∧
          ms.map (fun m => (m.core, m.slot, m.lane, m.dest, m.geom, m.grid, m.status, m.k, m.cells, m.cell, m.state)) =
            act.map fun l => (g.core, g.slot, l, g.tAt d, rayOfBytes ((readT g (g.lane l) a).take 32), (srcW g (g.lane l) b).toNat, 0, 0, 0,
              none, .run)) ∧
    (inShader s = false → LaneFits s g ⟨[], [.t d, .t (d + 1), .t a, .w b], false⟩ → act = [l] → l < g.lanes.length → countFull g act .mx = false →
      (∀ m, marchOf s g.core g.slot l = some m → m.state = .landed → s.march? m.id = some m →
        ∃ t, exec (.marchRes gd d a b) s = .next t ∧ LanesFrom (advance s) t [l] (fun x => { x with mx := x.mx + 1 }) ∧
          t.march? m.id = some { m with state := .run, dest := g.tAt d, pc := s.issue.pc }) ∧
      (marchOf s g.core g.slot l = none → g.tAt d + 128 ≤ g.rsize →
        ∃ t y, exec (.marchRes gd d a b) s = .next t ∧ t.issuing? = some y ∧ (y.lane l).mx = (g.lane l).mx ∧ (y.lane l).pc = s.issue.next ∧
          (y.lane l).regs = (g.lane l).regs.writeBytes (g.tAt d) (List.replicate 64 0 ++ bytesOfNum 4 2 ++ List.replicate 20 0 ++
            bytesOfNum 4 (2 ^ 20) ++ List.replicate 36 0))) ∧
    (LaneFits s g ⟨.w a :: vRun b 3, [.w d], true⟩ → (∀ l ∈ act, (srcW g (g.lane l) a).toNat % 128 = 0 ∧ l < g.lanes.length) →
      countFull g act .mx = false →
      ∃ t, exec (.lwalk gd d a b) s = .next t ∧ LanesFrom (advance s) t act (fun x => { x with mx := x.mx + 1, pc := s.issue.pc }) ∧
        { t with groups := s.groups, render := s.render, fresh := s.fresh } = s ∧
        (∀ l ∈ act, ∃ y k, t.issuing? = some y ∧ (y.lane l).wait = .lwalk k) ∧
        ∃ ws, t.render = { s.render with walks := s.render.walks ++ ws } ∧
          ws.map (fun w => (w.core, w.slot, w.lane, w.dest, w.base, w.px, w.py, w.pz, w.node, w.depth, w.pdf, w.draws)) =
            act.map fun l => (g.core, g.slot, l, if d < 30 then some (g.vAt (2 * d)) else none, (srcW g (g.lane l) a).toNat,
              (srcV g l (g.lane l) b).toNat, (srcV g l (g.lane l) (b + 1)).toNat, (srcV g l (g.lane l) (b + 2)).toNat, 0, 0, 0x3F800000, 0))

/-- Rows and drains (R449, R450, R447, R250): a `neval` with an aligned handle puts the lane's row, from A(A) to A(D), into a tile, where the
lane waits at the word; an `mxdrain` for which `mx` has room (R216) and whose epilogues are not reserved writes what `drainRegs` makes of each Active lane's split pair, and
raises AG3. -/
def Sys2Proof.Rule.RowsAndDrains : Prop :=
  ∀ (s : State) (g : Group) (gd : Guard) (m d a b l : Nat) (gr : Grid),
    let act := activeLanes g gd s
    (LaneFits s g ⟨[.a a, .w b], [.a d], true⟩ → act = [l] → l < g.lanes.length → (srcW g (g.lane l) b).toNat % 256 = 0 → (g.lane l).mx < 63 →
      s.gridOf g = some gr → (openTiles s g.core).length < 4 →
      (∀ x ∈ openTiles s g.core, ¬(x.grid = gr.id ∧ x.handle = (srcW g (g.lane l) b).toNat)) →
      ∃ t, exec (.neval gd d a b) s = .next t ∧ LanesFrom (advance s) t [l] (fun x => { x with pc := s.issue.pc }) ∧
        { t with groups := s.groups, render := s.render, fresh := s.fresh } = s ∧
        ∃ x r, t.render = { s.render with tiles := s.render.tiles ++ [x] } ∧ x.core = g.core ∧ x.grid = gr.id ∧
          x.handle = (srcW g (g.lane l) b).toNat ∧ x.opened = s.time.cycle ∧ x.rows = [r] ∧ r.core = g.core ∧ r.slot = g.slot ∧ r.lane = l ∧
          r.src = g.aAt a ∧ r.dst = g.aAt d ∧ r.pc = s.issue.pc ∧ r.inputs = none ∧
          ∃ y, t.issuing? = some y ∧ (y.lane l).wait = .neval r.id) ∧
    (LaneFits s g ⟨[.a a, .a (a + 1), .w b], if m = 0 then [.a d, .a (d + 1)] else [.a d], true⟩ →
      (∀ l ∈ act, l < g.lanes.length ∧ (g.lane l).home = none ∧ epiReserved (srcW g (g.lane l) b).toNat = false) → act.Nodup →
      countFull g act .mx = false →
      ∃ t y, exec (.mxdrain gd m d a b) s = .next t ∧ t.issuing? = some y ∧
        { t with groups := s.groups } = s ∧
        (∀ l, l < g.lanes.length → (y.lane l).pc = (if l ∈ s.issue.lanes then s.issue.next else (g.lane l).pc) ∧
          (y.lane l).regs = if l ∈ act then (drainRegs g (g.lane l) m d a (srcW g (g.lane l) b).toNat).regs else (g.lane l).regs) ∧
        y.ag3 = act.foldl (fun x l => x ||| (drainRow g (g.lane l) m a).2) g.ag3 ∧
        y.invalidA = if coversGroup g act then (g.clearDrained m d).invalidA else g.invalidA)

/-- Signs (R411 to R414, R440): a sign of one lane that can be recorded is recorded at once, and the lane passes the word or waits for the
round; by `mxsign` its `mx` entry rises and its card counts if it is the first. A declare on an IDLE keyring opens its round. -/
def Sys2Proof.Rule.Signs : Prop :=
  ∀ (s : State) (g : Group) (tm : Team) (gd : Guard) (n a l k : Nat), s.issuing? = some g → s.team? g.team = some tm →
    s.groupAt g.team g.index = some g → g.index < 32 → n < 16 → tm.keyrings.length = 16 → g.sln.length = 16 → g.mxs.length = 16 →
    (∀ h ∈ s.groups, ∀ x ∈ h.lanes, x.home = none) → g.lanes.length = 32 →
    (∀ h ∈ s.groups, ∀ x ∈ h.lanes, ∀ c w m, x.wait ≠ .keySign n c w ∧ x.wait ≠ .keyDecl n m) →
    let act := activeLanes g gd s
    let key := tm.keyring n
    let recorded (t : State) (card : Nat) (waits mx : Bool) : Prop :=
      ∃ y tm', t.issuing? = some y ∧ (y.sln.getD n 0) = (g.sln.getD n 0) ||| maskOf [l] ∧
        (y.mxs.getD n 0) = (if mx then (g.mxs.getD n 0) ||| maskOf [l] else g.mxs.getD n 0) ∧
        (y.lane l).mx = (g.lane l).mx + (if mx then 1 else 0) ∧ (y.lane l).regs = (g.lane l).regs ∧
        (y.lane l).pc = (if waits then s.issue.pc else s.issue.pc + 8) ∧ (waits = true → (y.lane l).wait = .keyRound n) ∧
        t.team? g.team = some tm' ∧ tm'.keyring n = { key with card := card } ∧ t.mem = s.mem
    (act = [l] → l < 32 → key.open_ = true → key.decl.getLsbD g.index = true → (g.sln.getD n 0).getLsbD l = false →
      k < 32 → k ≠ l → (g.sln.getD n 0).getLsbD k = false → (g.lane k).exited = false → releaseWaits s g act 3 = false →
      LaneFits s g ⟨[], [], true⟩ →
      (∃ t, exec (.ksign gd n) s = .next t ∧ recorded t key.card false false) ∧
      (∃ t, exec (.ksignWait gd n) s = .next t ∧ recorded t key.card true false) ∧
      ((regG g a).toNat % 64 = 0 → (g.lane l).mx < 63 →
        let card := if key.card = 0 then (regG g a).toNat else key.card
        (∃ t, exec (.mxsign gd n a) s = .next t ∧ recorded t card false true) ∧
        (∃ t, exec (.mxsignWait gd n a) s = .next t ∧ recorded t card true true))) ∧
    (∀ rest, act = l :: rest → (∀ j ∈ act, j < 32) → key.open_ = false → LaneFits s g ⟨[.v a], [], true⟩ →
      let mask := (srcV g l (g.lane l) a).toNat % 2 ^ (recordOf s g).gpt
      (∃ i h, i < 32 ∧ mask.testBit i = true ∧ s.groupAt g.team i = some h ∧ ∃ j, j < 32 ∧ (s.lane h.core h.slot j).exited = false) →
      ∃ t y tm', exec (.ksignDecl gd n a) s = .next t ∧ t.issuing? = some y ∧ t.team? g.team = some tm' ∧
        tm'.keyring n = ⟨true, BitVec.ofNat 32 mask, 0, 0⟩ ∧ y.sln.getD n 0 = 0 ∧ ∀ j ∈ act, (y.lane j).pc = s.issue.pc + 8)

/-- Evaluation rows, drains of accumulators, and signs (R250, R411 to R414, R440, R447, R449, R450). Corners are read as log entries 42 and 43
say (DEDUCED). -/
def Obligations.MatrixLanesAndSigns : Prop :=
  Sys2Proof.Rule.RowsAndDrains ∧ Sys2Proof.Rule.Signs

/-! ## Engine commands -/

/-- The engine commands of groups (R430, R432, R116 to R121, R305): where `cp` has room, the block is read and its checks pass, an engine has
the command with what the block says; a copy is recorded first (R183), `copy.direct` has one row and no tumbler. -/
def Sys2Proof.Rule.EngineCommands : Prop :=
  ∀ (s u : State) (g : Group) (q x y n : Nat) (b : List Byte), GroupFits s g q formG → countFull g s.issue.lanes .cp = false →
    let a := (regG g x).toNat
    let me := Issuer.group g.core g.slot s.issue.lanes
    let copies (v : State) (addr : Nat) (b : List Byte) (j : CopyJob) (i : Instr) : Prop :=
      let c := cohortCmd v g .copy ((pickEngine v (v.partOf g) (dieOfCore g.core) .copy).getD noEngine) addr b (.copy { j with recorded := true })
      copySpanBad v me (v.partOf g) j = none → haloBad v c j = none → entriesFit v (copyEntries v c j) = true →
      ∃ t, exec i s = .next t ∧ Commanded s v t g .copy addr b (.copy { j with recorded := true }) (copyEntries v c j)
    (localForm (regG g x).toNat 48 = none → localForm (regG g y).toNat 56 = none →
      copies (advance s) 0 [] ⟨0, n, 1, (regG g x).toNat, (regG g y).toNat, 0, 0, 0, 0, 0, false⟩ (.copyDirect q x y n)) ∧
    (a % 64 = 0 →
      (blockRead (advance s) g a 128 = some (u, b) → copyChecks b = none → copies u a b (copyJobOf b) (.copyBlockCmd q x)) ∧
      (blockRead (advance s) g a 128 = some (u, b) → collChecks b = none → collSpanBad u me (u.partOf g) (collJobOf b) = none →
        ∃ t, exec (.coll q x) s = .next t ∧ Commanded s u t g .collective a b (.coll (collJobOf b)) []) ∧
      (∀ v b₀, blockRead (advance s) g a 64 = some (v, b₀) → blockRead v g a (if byteAt b₀ 8 = 1 then 64 else 192) = some (u, b) →
        strainerChecks b = none →
        ∃ t, exec (.strn q x) s = .next t ∧ Commanded s u t g .strainer a b (.strainer (strainerJobOf b)) []) ∧
      (∀ k e, blockRead (advance s) g a 64 = some (u, b) → descBad b = none → kindOf (byteAt b 32) = some k → chainEngine u g k = e →
        ∃ t ch, exec (.chain q x) s = .next t ∧ ch ∈ t.eng.chains ∧ t.eng.cmds = u.eng.cmds ∧
          ch.id = u.fresh ∧ ch.desc = a ∧ ch.kind = k ∧ ch.head = fieldAt b 0 8 ∧ ch.tail = fieldAt b 8 8 ∧ ch.seq = fieldAt b 16 8 ∧
          ch.errAddr = fieldAt b 24 8 ∧ ch.scope = byteAt b 33 ∧ ch.halted = false ∧
          (e ≠ noEngine → chainsAt u k e < 16 → (∀ z ∈ u.eng.chains, z.id ≠ u.fresh) → ch.attached = true ∧ ch.engine = e ∧ ch.waiting = none ∧
            LanesFrom u t s.issue.lanes (fun x => x)) ∧
          (e ≠ noEngine → 16 ≤ chainsAt u k e → ch.attached = false ∧ ch.waiting = some (g.core, g.slot, s.issue.lanes) ∧
            LanesFrom u t s.issue.lanes (fun x => { x with cp := x.cp + 1 }))))

/-- `launch` (R431, R112): where the queue's descriptor reads well and nothing has to wait, the cohort takes a slot by an atomic add of 1 to the
tail word, its grid has one more child, and the packet of R431 is on its way to the slot as a release; a cohort that was replayed after it
had reserved a slot writes to that one. `old` is the tail word before. -/
def Sys2Proof.Rule.Launches : Prop :=
  ∀ (s u : State) (g : Group) (gr : Grid) (q x y irq tag : Nat) (b : List Byte), GroupFits s g q formG →
    countFull g s.issue.lanes .cp = false → s.gridOf g = some gr → s.issue.lanes ≠ [] → (∀ l ∈ s.issue.lanes, l < g.lanes.length) →
    (regG g y).toNat % 32 = 0 → blockRead (advance s) g (regG g y).toNat 32 = some (u, b) → queueBad b = false →
    let v := releaseDrain u g 7
    let packet := bytesOfNum 8 (2 + 1024 * irq + 2048 + 4294967296 * tag) ++ bytesOfNum 8 (regG g x).toNat ++
      bytesOfNum 8 (gr.slot + 65536 * gr.gen + 4294967296 * gr.part) ++ List.replicate 40 0
    let slotAt (k : Nat) : Nat := (fieldAt b 0 8 + k % 2 ^ byteAt b 16 * 64) % 2 ^ 64
    let sent (w : State) (k : Nat) : Prop :=
      ∀ w₁ p, translate w (whoLane s g 0) .write (slotAt k) = (w₁, .ok p) →
        ∃ t h, exec (.launch q x y irq tag) s = .next t ∧ t.issuing? = some h ∧
          (∀ l ∈ s.issue.lanes, (h.lane l).pc = s.issue.next ∧ (h.lane l).reserved = none ∧ (h.lane l).cp = (g.lane l).cp + 1) ∧
          ∃ f, t.ms.flights = w₁.ms.flights ++ [f] ∧ f.kind = .write ∧ f.lanes = s.issue.lanes ∧ f.counter = .cp ∧ f.addr = slotAt k ∧
            f.release = true ∧ (onDie (dieOfCore g.core) p = false → f.reads = [⟨p, 64, none, false⟩] ∧ f.data = packet) ∧
            (onDie (dieOfCore g.core) p = true → detmWriter w₁ g.core g.slot = none →
              (∃ m, p = .phys m ∧ ∀ i, i < 64 → regionOf w₁.links (m + i) ≠ .outside ∧ ∀ d, regionOf w₁.links (m + i) ≠ .chip d) →
              ∀ j, j < 64 → readByte t (p.plus j) = packet.getD j 0)
    releaseWaits v g s.issue.lanes 7 = false →
    (∀ k, (g.lane (s.issue.lanes.headD 0)).reserved = some k → sent v k) ∧
    ((g.lane (s.issue.lanes.headD 0)).reserved = none → gr.children < 65535 →
      ∀ w old, addTail v g (fieldAt b 8 8) = (w, .data old) →
        sent (markInterval (w.updGrid gr.id fun h => { h with children := h.children + 1 }) g) (numOfBytes old))

/-- The engine commands of groups and `launch` (R112, R116 to R121, R183, R305, R430 to R432). The order of checks and the cause of a misaligned
block are read as log entry 37 says (DEDUCED). -/
def Obligations.EngineCommandsAndLaunches : Prop :=
  Sys2Proof.Rule.EngineCommands ∧ Sys2Proof.Rule.Launches

/-! ## Events of memory -/

/-- Hinge messages (R36 to R38, R42, R47, R139): a message that may be applied is applied at its home, or where a forwarding entry redirects
it, and counted; a read request brings the data of its parts back, a write stands in memory and is acknowledged, an atomic or a decrement is
performed, answers are taken by lanes, units and other modules, a halo write is accepted in its window and else dropped and counted, an
ordered access reaches its scoreboard, and a time message changes nothing. One with a reserved field set is discarded and counted in CRCERR;
one that may not be applied, or is stale, is held. The clauses on memory are those of a place of module memory outside the chip window or of a
scratchpad, and of a group outside deterministic mode (R148).
The order in which messages are applied, where the rules leave it open, is the agenda's (log entry 1); tags and header fields are read as log entry 65 says. -/
def Obligations.HingeMessages : Prop :=
  ∀ (s : State) (id : Nat) (x : Flight), s.flight? id = some x →
    let f := x.redirected s
    let counted (t : State) (from_ : Nat) : Prop := ∀ i, i < s.ms.applied.length → t.ms.applied.getD i 0 =
      if i = 2 * f.part + (1 - from_) then (s.ms.applied.getD i 0 + 1) % 4294967296 else s.ms.applied.getD i 0
    let quiet (t : State) : Prop := ∀ p, readByte t p = readByte s p
    let plain (p : Place) (n : Nat) : Prop := 0 < n ∧ ((∃ m, p = .phys m ∧ ∀ k, k < n → isHost s (p.plus k) = false ∧
      regionOf s.links (m + k) ≠ .outside ∧ ∀ d, regionOf s.links (m + k) ≠ .chip d) ∨ ∃ c o, p = .sp c o ∧ o + n ≤ 1048576)
    let all : List (Nat × Instr) := [(0, .hingeReadRequest id), (1, .hingeReadData id), (2, .hingeWrite id), (3, .hingeWriteAcknowledge id),
      (4, .hingeAtomic id), (5, .hingeAtomicResult id), (6, .hingeHaloWrite id), (7, .hingeTimeSideband id)]
    (mayApply s x = true → x.stale s = false → headerOk x.header = true →
      (∀ d, f.hingeKind = some 0 → f.kind = .read d → (f.viaOther = true → ∀ p ∈ f.reads, inModule p.place = true) →
        ∃ t q, exec (.hingeReadRequest id) s = .next t ∧ quiet t ∧ counted t f.die ∧ t.flight? id = some q ∧
          q.stage = .answer ∧ q.kind = f.kind ∧ q.lanes = f.lanes ∧ q.reads = fillParts s inModule f.reads) ∧
      (f.hingeKind = some 1 → f.reply = none → f.engine = none → ∃ t, exec (.hingeReadData id) s = .next t ∧ quiet t ∧ counted t (1 - f.die) ∧
        t.flight? id = some { f with stage := if f.reads.all fun p => p.got.isSome then .performed else .outside }) ∧
      (∀ o, f.hingeKind = some 1 → f.reply = none → f.engine = some o → (f.reads.all fun p => p.got.isSome) = true →
        ∃ t, exec (.hingeReadData id) s = .next t ∧ quiet t ∧ counted t (1 - f.die) ∧ t.flight? id = none ∧
          t.ms.arrived = s.ms.arrived ++ [⟨o, f.addr, partsLen f.reads, partsValue f.reads, if f.poisoned then 5 else 0, false⟩]) ∧
      (∀ r, f.hingeKind = some 1 → f.reply = some r → (f.reads.all fun p => p.got.isSome) = true →
        ∃ t, exec (.hingeReadData id) s = .next t ∧ quiet t ∧ counted t (1 - f.die) ∧ t.flight? id = none ∧
          t.out = s.out ++ [.reply r.1 r.2 true f.poisoned (partsValue f.reads)]) ∧
      (∀ p n, f.hingeKind = some 2 → f.kind = .write → f.reads = [⟨p, n, none, false⟩] → f.data.length = n → plain p n →
        detmWriter s f.core f.slot = none →
        ∃ t q, exec (.hingeWrite id) s = .next t ∧ counted t f.die ∧ t.flight? id = some q ∧ q.stage = .answer ∧ q.reads = [] ∧ q.data = [] ∧
          ∀ x, x.own s → readByte t x = (storedAt p f.data x).getD (readByte s x)) ∧
      (f.hingeKind = some 3 → f.reply = none → ∃ t, exec (.hingeWriteAcknowledge id) s = .next t ∧ quiet t ∧ counted t (1 - f.die) ∧
        t.flight? id = some { f with stage := if f.reads.isEmpty then .performed else .outside }) ∧
      (∀ p g fn typ x y d, f.hingeKind = some 4 → f.kind = .atomic fn typ x y d → f.reads = [⟨p, atomSize typ, g, false⟩] →
        plain p (atomSize typ) → (readPlace s p (atomSize typ)).2 = false → detmWriter s f.core f.slot = none →
        let old := (readPlace s p (atomSize typ)).1
        ∃ t q, exec (.hingeAtomic id) s = .next t ∧ counted t f.die ∧ t.flight? id = some q ∧ q.stage = .answer ∧ q.kind = f.kind ∧
          q.reads = [⟨p, atomSize typ, some old, false⟩] ∧
          ∀ z, z.own s → readByte t z = ((atomValue fn typ old x y).bind fun v => storedAt p (bytesOfNum (atomSize typ) v) z).getD (readByte s z)) ∧
      (∀ p g x, f.hingeKind = some 4 → f.kind = .tdec x → f.reads = [⟨p, 8, g, false⟩] → plain p 8 → (readPlace s p 8).2 = false →
        ∃ t q, exec (.hingeAtomic id) s = .next t ∧ counted t f.die ∧ t.flight? id = some q ∧ q.stage = .answer ∧
          ∀ z, z.own s → readByte t z =
            (storedAt p (bytesOfNum 8 (((readPlace s p 8).1 + 2 ^ 64 - x % 2 ^ 64) % 2 ^ 64)) z).getD (readByte s z)) ∧
      (f.hingeKind = some 5 → f.reply = none → f.engine = none → f.poisoned = false →
        ∃ t, exec (.hingeAtomicResult id) s = .next t ∧ quiet t ∧ counted t (1 - f.die) ∧
        (∀ fn typ x y d, f.kind = .atomic fn typ x y d → t.flight? id = some { f with stage := .performed }) ∧
        (∀ x, f.kind = .tdec x → t.flight? id = none)) ∧
      (∀ tag, f.hingeKind = some 6 → f.kind = .halo tag →
        let r := (s.part f.part).res
        let mine := (tag / 2 ^ 32 % 65536 = (if f.die = 0 then r.frame1 else r.frame0) % 65536 ∧
          tag / 2 ^ 48 % 16 = (if f.die = 0 then r.phase1 else r.phase0) % 16)
        ∃ t, exec (.hingeHaloWrite id) s = .next t ∧ counted t f.die ∧ t.flight? id = none ∧
          (¬mine → quiet t ∧ t.links.halodrop = min 4294967295 (s.links.halodrop + 1)) ∧
          (∀ p n, mine → f.reads = [⟨p, n, none, false⟩] → f.data.length = n → plain p n → detmWriter s f.core f.slot = none →
            t.links.halodrop = s.links.halodrop ∧ ∀ x, x.own s → readByte t x = (storedAt p f.data x).getD (readByte s x))) ∧
      (f.hingeKind = some 7 → ∃ t, exec (.hingeTimeSideband id) s = .next t ∧ counted t f.die ∧ t.flight? id = none ∧
        { t with ms := s.ms } = s) ∧
      (∀ p, f.kind = .pixel p → f.stage = .request →
        ∃ t, exec (if f.release then .hingeWrite id else .hingeReadRequest id) s = .next t ∧ counted t f.die ∧ t.flight? id = none ∧
          t.render.pixels = s.render.pixels ++ [{ p with core := f.core, slot := f.slot }] ∧ quiet t) ∧
      (f.stamp.isSome = true → ∀ k i, f.hingeKind = some k → (k, i) ∈ all →
        ∃ t, exec (.stampedMessageApply id) s = .next t ∧ exec i s = .next t)) ∧
    (∀ k i d, mayApply s x = true → x.stale s = false → headerOk x.header = false → x.hingeKind = some k → (k, i) ∈ all → x.sender = some d →
      let n := carrier s x d
      ∃ t, exec i s = .next t ∧ quiet t ∧ t.flight? id = some { x with stage := .lost } ∧ t.ms.applied = s.ms.applied ∧
        (n < s.links.hinge.length → (t.links.hinge.getD n ⟨3, 0, 0⟩).crcerr = min 255 ((s.links.hinge.getD n ⟨3, 0, 0⟩).crcerr + 1))) ∧
    (mayApply s x = false ∨ x.stale s = true → ∀ i ∈ (.stampedMessageApply id :: all.map Prod.snd : List Instr), exec i s = .next s)

/-- Completions (R206, R215, R398, R478, R37, R323): a performed load or atomic delivers its result to its destination within RSIZE and lowers
its entry; poisoned data lower it, write nothing and park the lane with cause 5 at its boundary; a performed write lowers its entry; a
store-buffer entry with no earlier one of its line drains to its home; a request that gets no answer parks its lane with cause 4, and keeps
the access for a replay to repeat.
Errors reach their lane at a boundary (DEDUCED, log entry 16), poison lane by lane (log entry 24), and a timeout or refusal as log entry 29 says. -/
def Obligations.Completions : Prop :=
  ∀ (s : State) (id : Nat) (f : Flight) (g : Group) (l : Nat), s.flight? id = some f → s.group? f.core f.slot = some g → f.lanes = [l] →
    l < g.lanes.length →
    let v := partsValue f.reads
    let gone (t : State) (cause : Option (Nat × Option Flight)) (regs : Mem) : Prop := t.flight? id = none ∧ ∃ h, t.group? f.core f.slot = some h ∧
      (h.lane l).regs = regs ∧ (h.lane l).pc = (g.lane l).pc ∧ (h.lane l).ld = (g.lane l).ld - (if f.counter = .ld then 1 else 0) ∧
      (h.lane l).st = (g.lane l).st - (if f.counter = .st then 1 else 0) ∧
      (h.lane l).cp = (g.lane l).cp - (if f.counter = .cp then 1 else 0) ∧
      match cause with
      | some (c, again) => ∃ k, (h.lane l).parked = some k ∧ k.cause = c ∧ k.boundary = again.isNone ∧ k.redo = again
      | none => (h.lane l).parked = (g.lane l).parked
    (∀ d data ok, (f.kind = .read d ∨ ∃ fn typ x y, f.kind = .atomic fn typ x y d) → f.stage = .performed → f.engine = none → f.poisoned = false →
      ∃ t, exec (.loadDataReturn id data ok) s = .next t ∧ t.mem = s.mem ∧ gone t none (match d with
        | .word at_ n signed => if at_ + 4 ≤ g.rsize then
            (g.lane l).regs.writeN at_ 4 (if signed then wrapTo 32 (signedOf (8 * n) v) else v % 256 ^ n) else (g.lane l).regs
        | .bytes at_ n => if at_ + n ≤ g.rsize then (g.lane l).regs.writeN at_ n v else (g.lane l).regs
        | _ => (g.lane l).regs) ∧
        ∀ k, d = .g k → k < 64 → ∃ h, t.group? f.core f.slot = some h ∧ regG h k = regG (setG g k (BitVec.ofNat 64 v)) k) ∧
    (∀ d, (f.kind = .read d ∨ ∃ fn typ x y, f.kind = .atomic fn typ x y d) → f.stage = .performed → f.engine = none → f.poisoned = true →
      (g.lane l).live = true → (g.lane l).atBoundary = true → (g.lane l).late = [] →
      ∃ t, exec (.poisonReturn id) s = .next t ∧ gone t (some (5, none)) (g.lane l).regs) ∧
    (f.kind = .write → f.stage = .performed → ∀ ok, ∃ t, exec (.writePerformed id ok) s = .next t ∧ t.mem = s.mem ∧
      gone t none (g.lane l).regs) ∧
    (f.onHinge = true → f.reply = none → f.engine = none → f.kind ≠ .time → (∀ x, f.kind ≠ .tdec x) → (g.lane l).live = true →
      (g.lane l).atBoundary = true → (g.lane l).late = [] →
      ∃ t, exec (.hingeRequestTimeout id) s = .next t ∧ gone t (some (4, some f)) (g.lane l).regs) ∧
    (∀ e m, s.ms.sb.find? (fun x => x.id == e.id) = some e → e.place = .phys m → homeDie m = dieOfCore e.core →
      (∀ k, k < e.data.length → regionOf s.links (m + k) ≠ .outside ∧ regionOf s.links (m + k) ≠ .host ∧ ∀ d, regionOf s.links (m + k) ≠ .chip d) →
      (∀ x ∈ s.ms.sb.takeWhile (fun x => x.id != e.id), ¬(x.core = e.core ∧ x.place.lineOf = e.place.lineOf)) → 0 < e.data.length →
      detmWriter s e.core e.slot = none →
      ∃ t, exec (.storeBufferDrain e.id) s = .next t ∧ t.ms.sb = s.ms.sb.filter (fun x => x.id != e.id) ∧
        ∀ x, x.own s → readByte t x = (storedAt e.place e.data x).getD (readByte s x))

/-- The scoreboard of ordered pixels, walks, slices, and accesses from outside (R288, R192, R194, R177, R71, R72, R189). A strict access whose
order is the word's turn is performed and a strict store raises the turn; one whose turn has not come waits. A prefetch's walk ends in TLB
entries; a group's slices come into the store. The host reads and writes module memory, a snoop changes a host line, and a request of another
module is answered, refused outside its partition's ranges, or goes across the Hinge to its home.
The order at a scoreboard is the agenda's (DESIGN CHOICE, log entry 31), and walks are made as log entry 70 says. -/
def Obligations.MemoryEvents : Prop :=
  ∀ (s : State),
    let plain (m n : Nat) : Prop := ∀ k, k < n → regionOf s.links (m + k) ≠ .outside ∧ ∀ d, regionOf s.links (m + k) ≠ .chip d
    (∀ id p w m, s.render.pixels.find? (fun x => x.id == id) = some p → p.strict = true → p.word = .phys w → homeDie w = dieOfCore p.core → p.place = .phys m → plain w 4 →
      plain m p.len → p.data.length = (if p.write then p.len else 0) → (w + 4 ≤ m ∨ m + p.len ≤ w) → detmWriter s p.core p.slot = none →
      (readPlace s (.phys w) 4).2 = false →
      let turn := (readPlace s (.phys w) 4).1
      let done (t : State) : Prop :=
        t.render.pixels = s.render.pixels.filter (fun x => x.id != id) ∧
        (∃ f, t.ms.flights = s.ms.flights ++ [f] ∧ f.lanes = (if p.slot = noSlot then [] else [p.lane]) ∧ f.stage = .performed ∧
          f.kind = (if p.write then .write else .read p.dest)) ∧
        (p.write = true → (readPlace t (.phys w) 4).1 = (turn % 65536 + 1) % 65536 + 65536 * (turn / 65536) ∧
          ∀ k, k < p.len → readByte t (.phys (m + k)) = p.data.getD k 0) ∧
        (p.write = false → ∀ x, readByte t x = readByte s x)
      (p.order = turn % 65536 →
        (p.arrived = false → ∃ t, exec (.orderedAccessArrival id) s = .next t ∧ done t) ∧
        (p.arrived = true → ∃ t, exec (.orderedAccessRelease id) s = .next t ∧ done t)) ∧
      (0 < (p.order + 65536 - turn % 65536) % 65536 → (p.order + 65536 - turn % 65536) % 65536 < 32768 →
        (p.arrived = true → exec (.orderedAccessRelease id) s = .next s) ∧
        (p.arrived = false → scoreboardRoom s p = true → ∃ t q, exec (.orderedAccessArrival id) s = .next t ∧
          t.render.pixels.find? (fun x => x.id == id) = some q ∧ q = { p with arrived := true, held := false } ∧ { t with render := s.render } = s))) ∧
    (∀ id w phys size lv e, s.ms.walks.find? (fun x => x.id == id) = some w → walk s w.part w.die w.va = .leaf phys size lv e →
      (∀ x ∈ s.ms.tlb, x.maps w.part w.va = false) → ((s.part w.part).rf.touchen = true → e.testBit 4 = false) →
      ∃ t, exec (.pageWalkComplete id) s = .next t ∧ { t with ms := s.ms } = s ∧ t.ms.walks = s.ms.walks.filter (fun x => x.id != id) ∧
        ∃ x ∈ t.ms.tlb, x.core = w.core ∧ x.die = w.die ∧ x.part = w.part ∧ x.vbase = w.va / size * size ∧ x.size = size ∧ x.phys = phys ∧
          x.w = e.testBit 1 ∧ x.at_ = e.testBit 2) ∧
    (∀ core slot g, s.group? core slot = some g → teamRuns s g.team = true → g.inStore = false →
      ∃ t h, exec (.sliceMove core slot) s = .next t ∧ t.group? core slot = some h ∧ h.inStore = true ∧ h.lanes = g.lanes ∧ t.mem = s.mem) ∧
    (∀ a n data, (∀ k, k < n → hostReaches s (a + k) = true) →
      exec (.hostMemAccess false a n data) s = .next (s.send (.hostData a (readPlace s (.phys a) n).1 (readPlace s (.phys a) n).2)) ∧
      ∃ t, exec (.hostMemAccess true a n data) s = .next t ∧
        ∀ x, x.own s → readByte t x = (storedAt (.phys a) (bytesOfNum n data) x).getD (readByte s x)) ∧
    (∀ a data, ∃ t, exec (.hostCacheSnoop a data) s = .next t ∧ ∀ x, x.own s → readByte t x =
      (storedAt (.phys (hostBase + a % hostSize / 64 * 64)) (bytesOfNum 64 data) x).getD (readByte s x)) ∧
    (∀ r : DomainRequest,
      ((s.part r.part).state = .free ∨ inRanges (s.part r.part).setup r.addr r.len = false →
        exec (.domainRequestArrival r) s = .next (s.send (.reply r.port r.src false false 0))) ∧
      ((s.part r.part).state ≠ .free → inRanges (s.part r.part).setup r.addr r.len = true →
        reaches s.links (dieOfPort r.port) r.addr = true →
        (homeDie r.addr ≠ dieOfPort r.port → ∃ t f, exec (.domainRequestArrival r) s = .next t ∧ t.ms.flights = s.ms.flights ++ [f] ∧
          f.stage = .request ∧ f.reply = some (r.port, r.src) ∧ f.part = r.part ∧ f.addr = r.addr ∧ f.die = dieOfPort r.port ∧ t.out = s.out) ∧
        (homeDie r.addr = dieOfPort r.port → r.kind = .read → exec (.domainRequestArrival r) s =
          .next (s.send (.reply r.port r.src true (readPlace s (.phys r.addr) r.len).2 (readPlace s (.phys r.addr) r.len).1))) ∧
        (homeDie r.addr = dieOfPort r.port → r.kind = .write → plain r.addr r.len → ∃ t, exec (.domainRequestArrival r) s = .next t ∧
          t.out = s.out ++ [.reply r.port r.src true false 0] ∧
          ∀ x, x.own s → readByte t x = (storedAt (.phys r.addr) (bytesOfNum r.len r.data) x).getD (readByte s x))))

/-- Events of groups (R161, R170, R171, R156, R429, R428, R331, R278, R416): the end step of a loop; a grant of the oldest `grow`; an impasse;
the active set; the end of a wait for time or for a tumbler; the end of a group; the delivery of an asynchronous error; and the return of a
swapped lane.
Order of leaving, entering and growing, and swaps, are the model's (log entries 34, 36). -/
def Obligations.GroupEvents : Prop :=
  ∀ (s : State) (core slot : Nat) (g : Group), s.group? core slot = some g → teamRuns s g.team = true →
    let onlyGroups (t : State) : Prop := { t with groups := s.groups } = s
    (g.loopReady = true → ∃ t h, exec (.loopEndStep core slot) s = .next t ∧ onlyGroups t ∧ t.group? core slot = some h ∧
      let v := g.loops.getD (g.ldep - 1) default
      (1 < v.count → h.ldep = g.ldep ∧ h.loops = g.loops.set (g.ldep - 1) { v with count := v.count - 1 } ∧
        ∀ l ∈ lanesOf v.members, l < g.lanes.length → h.lane l = { g.lane l with pc := v.last - BitVec.ofNat 64 (4 * v.len), wait := .none }) ∧
      (v.count ≤ 1 → h.ldep = g.ldep - 1 ∧ h.loops = g.loops ∧ ∀ l, l < g.lanes.length → (h.lane l).pc = (g.lane l).pc)) ∧
    (∀ order n, oldestGrow s core = some (order, slot, n) → g.steps + n ≤ 8 → growRoom s g n = true →
      ∃ t h, exec (.growGrant core slot) s = .next t ∧ onlyGroups t ∧ t.group? core slot = some h ∧ h.steps = g.steps + n ∧
        predQ h 6 = false ∧ ∀ l, l < g.lanes.length → l < 32 → (g.lane l).wait = .grow n order →
          (h.lane l).pc = (g.lane l).pc + 4 ∧ (h.lane l).regs = (g.lane l).regs.clear (256 * g.steps) (256 * n)) ∧
    (∀ n, let here := s.groups.filter fun h => h.core == core && !groupHeld s h
      let waiting := here.filter Group.growing
      let low := lowestRanked s (waiting.filter fun h => h.active)
      let u := match low with
        | some a => leaveActive s core a.slot
        | none => s
      waiting ≠ [] → (here.all fun h => h.atImpasse && teamRuns s h.team) = true → grantOldest s core = none →
      (low = some g → ∃ t h, exec (.allocatorImpasse core) s = .next t ∧ t.group? core slot = some h ∧ h.active = false) ∧
      (∀ t, grantOldest u core = some t → exec (.allocatorImpasse core) s = .next t) ∧
      (grantOldest u core = none → lowestRanked u waiting = some g →
        (growRequests u core).find? (fun r => r.2.1 == slot) = some n → ∃ t h, exec (.allocatorImpasse core) s = .next t ∧
          t.group? core slot = some h ∧ predQ h 6 = true ∧ h.steps = g.steps)) ∧
    (mayLeave s g = true → ∃ t, exec (.activeSetRotate core slot) s = .next t ∧
      t.group? core slot = some { g with active := false, slowSince := s.time.now, readyAt := 0 }) ∧
    (mayEnter s g = true → ∃ t, exec (.groupEnterActive core slot) s = .next t ∧
      t.group? core slot = some { g with active := true, activeSince := s.time.cycle }) ∧
    (preentryDue s g = true → activeRoom s g = true → ∃ t, exec (.wtimePreentry core slot) s = .next t ∧
      t.group? core slot = some { g with active := true, activeSince := s.time.cycle }) ∧
    (∀ l n, l < 32 → l < g.lanes.length → (g.lane l).wait = .time n → n ≤ s.time.now → meterHeld s (s.partOf g) 0 = false → ∃ t h, exec (.wtimeRelease core slot l) s = .next t ∧
      onlyGroups t ∧ t.group? core slot = some h ∧ (h.lane l).pc = (g.lane l).pc + 4 ∧ (h.lane l).regs = (g.lane l).regs) ∧
    (∀ l id addr bound sc s₁ bs, l < 32 → l < g.lanes.length → (g.lane l).wait = .tumbler id addr bound sc → (g.lane l).parked = none →
      unitAcquire (drainTumbler s g addr) id (whoLane s g 0) sc addr.toNat 8 = (s₁, .data bs) → (BitVec.ofNat 64 (numOfBytes bs)).toInt ≤ bound.toInt →
      ∃ t h, exec (.tumblerPoll core slot l) s = .next t ∧ t.group? core slot = some h ∧ (h.lane l).pc = (g.lane l).pc + 4) ∧
    (∀ tm, s.teamOf g = some tm → g.ended = true → tm.db = .idle → tm.state = .placed →
      ∃ t, exec (.groupEnd core slot) s = .next t ∧ t.group? core slot = none ∧ t.mem = s.mem ∧
        ((∀ h ∈ s.groups, h.team = g.team → h.core = core ∧ h.slot = slot) → (∀ x ∈ s.teams, x.id = tm.id → x = tm) →
          t.team? tm.id = none ∧ ∀ gr, s.grid? tm.grid = some gr → t.grid? tm.grid = some { gr with teamsDone := gr.teamsDone + 1 })) ∧
    (∀ l c p, l < g.lanes.length → (g.lane l).firstPend = some (c, p) → (g.lane l).takesPend = true → (g.lane l).late = [] → (g.lane l).home = none → g.tvec ≠ 0 →
      ∃ t h, exec (.asyncErrorDelivery core slot l) s = .next t ∧ t.group? core slot = some h ∧ (h.lane l).pc = g.tvec ∧
        (h.lane l).tdep = (g.lane l).tdep + 1 ∧ (h.lane l).pend = (g.lane l).pend.set c none ∧
        (h.lane l).slice = (g.lane l).slice.writeBytes (g.tframe * 64 + 32 * (g.lane l).tdep)
          (frameBytes (g.lane l).pc p.val p.cause (infoWith (p.info ||| 2) (g.lane l).tmsk) p.token)) ∧
    (∀ sb l h x y, s.group? core sb = some h → teamRuns s h.team = true → sb ≠ slot → l < g.lanes.length → l < h.lanes.length →
      (g.lane l).home = some sb → (g.lane l).shader = false → g.lane l = x → h.lane l = y → h.slot = sb →
      ∃ t u v, exec (.laneSwap core slot sb l) s = .next t ∧ t.group? core slot = some u ∧ t.group? core sb = some v ∧
        (v.lane l).home = none ∧ (v.lane l).regs = x.regs ∧ (v.lane l).pc = x.pc ∧ (u.lane l).regs = y.regs ∧ (u.lane l).pc = y.pc)

/-! ## Events of partitions -/

/-- The commands of partitions (R65, R84 to R89). Before READY none acts. A partition that is BUSY or RESETTING turns each away with ERR 1; one
in the wrong state with ERR 2; a reserved OP with ERR 3; a record that fails a check with the code of that check. CREATE claims what the record
names and clears it, RESIZE holds the record until the partition's work has left, RESET and DESTROY discard all work of the partition, and
function-level resets wait for BUSY to end. -/
def Sys2Proof.Rule.PartitionCommandChecks : Prop :=
  ∀ (s : State) (p : Nat), p < s.parts.length →
    let q := s.part p
    let errs (i : Instr) (e : Nat) : Prop := exec i s = .next (s.updPart p fun q => { q with err := e })
    let others (t : State) : Prop := ∀ k, k ≠ p → t.part k = s.part k
    let commands (scrub : Bool) : List Instr :=
      [.partitionCreate p, .partitionResize p, .partitionReset p scrub, .partitionDestroy p scrub, .partitionCmdBadOp p]
    (s.caddy.ready = false → ∀ b, ∀ i ∈ commands b, exec i s = .next s) ∧
    (s.caddy.ready = true →
      (q.state = .busy ∨ q.state = .resetting → ∀ b, ∀ i ∈ commands b, errs i 1) ∧
      (q.state = .active → errs (.partitionCreate p) 2 ∧ errs (.partitionCmdBadOp p) 3) ∧
      (q.state = .free → errs (.partitionResize p) 2 ∧ (∀ b, errs (.partitionReset p b) 2) ∧ errs (.partitionCmdBadOp p) 3 ∧
        ∀ b, exec (.partitionDestroy p b) s = .next (s.updPart p fun q => { q with err := 0, done := true })) ∧
      (∀ e, checkSetup s p false = .error e → q.state = .free → errs (.partitionCreate p) e) ∧
      (∀ e, checkSetup s p true = .error e → q.state = .active → errs (.partitionResize p) e) ∧
      (∀ r, readSetup s = none → checkSetup s p r = .error 9) ∧
      (∀ r b, readSetup s = some b → setupFormat p b = false → checkSetup s p r = .error 3) ∧
      (∀ u, checkSetup s p false = .ok u → q.state = .free → ∃ t, exec (.partitionCreate p) s = .next t ∧ others t ∧ t.mem = s.mem ∧
        (t.part p).state = .busy ∧ (t.part p).setup = u ∧ (t.part p).err = 0 ∧ (t.part p).next = none ∧
        (t.part p).streams.length = u.nstream ∧
        (∀ x ∈ (t.part p).streams, x.en = false ∧ x.state = .disabled ∧ x.head = 0 ∧ x.tail = 0) ∧ (∀ x ∈ t.ms.tlb, x.part ≠ p) ∧
        ∀ c o, ownsCore u c = true → o < 1048576 → readByte t (.sp c o) = 0) ∧
      (∀ u, checkSetup s p true = .ok u → q.state = .active → ∃ t, exec (.partitionResize p) s = .next t ∧ others t ∧ t.mem = s.mem ∧
        t.part p = { q with state := .busy, err := 0, next := some u }) ∧
      (∀ b d i, (d, i) ∈ ([(false, .partitionReset p b), (true, .partitionDestroy p b)] : List (Bool × Instr)) → q.state = .active →
        ∃ t, exec i s = .next t ∧ (t.part p).state = .resetting ∧ (t.part p).destroying = d ∧ (t.part p).scrub = b ∧ (t.part p).err = 0 ∧
          (t.part p).setup = q.setup ∧ (∀ x ∈ t.teams, x.part ≠ p) ∧ (∀ x ∈ t.grids, x.part ≠ p) ∧ (∀ x ∈ t.graphs, x.part ≠ p) ∧
          (∀ x ∈ t.eng.chains, x.part ≠ p) ∧ (∀ x ∈ t.eng.cmds, x.part ≠ p) ∧ (∀ x ∈ t.ms.flights, x.part ≠ p) ∧
          (∀ x ∈ t.ms.sb, x.part ≠ p) ∧ (∀ x ∈ t.ms.tlb, x.part ≠ p) ∧ (∀ x ∈ (t.part p).streams, x.en = false ∧ x.state = .disabled) ∧
          ∀ c o, ownsCore q.setup c = true → o < 1048576 → readByte t (.sp c o) = 0)) ∧
    (q.state = .busy → exec (.partitionFlr p) s = .next (s.updPart p fun q => { q with flrpend := true })) ∧
    (q.state = .active → ∃ t, exec (.partitionFlr p) s = .next t ∧ (t.part p).state = .resetting ∧ (t.part p).scrub = false ∧
      (∀ x ∈ t.teams, x.part ≠ p) ∧ ∀ x ∈ t.ms.flights, x.part ≠ p) ∧
    (∃ t, exec .pfFlr s = .next t ∧ (∀ x ∈ t.parts, x.state = .free ∧ x.setup = .none ∧ x.streams = []) ∧ ∀ x ∈ t.teams, 16 ≤ x.part)

/-- How a partition's command ends (R87 to R89, R141): a BUSY partition becomes ACTIVE with DONE, under its new record but for PERIOD and the
budgets, once nothing of its work stands on what the record removes; a reset that waits begins. A RESETTING one is scrubbed if that was asked
for, and becomes ACTIVE, or FREE after DESTROY. -/
def Sys2Proof.Rule.PartitionCommandsEnd : Prop :=
  ∀ (s : State) (p : Nat), p < s.parts.length →
    let q := s.part p
    (q.state = .busy → q.flrpend = false → q.next = none → ∃ t, exec (.partitionApplyComplete p) s = .next t ∧
      (t.part p).state = .active ∧ (t.part p).done = true ∧ (t.part p).setup = q.setup ∧ t.mem = s.mem ∧ t.groups = s.groups) ∧
    (∀ u, q.state = .busy → q.flrpend = false → q.next = some u → stillUses s p u = false →
      ∃ t, exec (.partitionApplyComplete p) s = .next t ∧ (t.part p).state = .active ∧ (t.part p).done = true ∧ (t.part p).next = none ∧
        (t.part p).setup = { u with period := q.setup.period, budget := q.setup.budget } ∧
        (t.part p).pendBudget = some (u.period, u.budget) ∧ t.mem = s.mem ∧ t.groups = s.groups ∧ t.teams = s.teams ∧
        ∀ c o, ownsCore u c = true → ownsCore q.setup c = false → o < 1048576 → readByte t (.sp c o) = 0) ∧
    (∀ u, q.state = .busy → q.next = some u → stillUses s p u = true → exec (.partitionApplyComplete p) s = .next s) ∧
    (q.state = .busy → q.flrpend = true → q.next = none → ∃ t, exec (.partitionApplyComplete p) s = .next t ∧
      (t.part p).state = .resetting ∧ (t.part p).scrub = false ∧ ∀ x ∈ t.teams, x.part ≠ p) ∧
    (q.state = .resetting → ∃ t, exec (.partitionResetComplete p) s = .next t ∧ (t.part p).done = true ∧ (t.part p).flrpend = false ∧
      (t.part p).state = (if q.destroying then .free else .active) ∧
      (q.destroying = true → (t.part p).setup = .none ∧ (t.part p).streams = []) ∧
      (q.destroying = false → (t.part p).setup = q.setup ∧ (t.part p).streams = q.streams) ∧
      (q.scrub = false → t.mem = s.mem) ∧
      (q.scrub = true → ∀ r ∈ q.setup.ranges, ∀ k, k < r.2 → t.mem.read (r.1 + k) = 0) ∧
      ∀ a, (∀ r ∈ q.setup.ranges, a < r.1 ∨ r.1 + r.2 ≤ a) → s.mem.wf = true → t.mem.read a = s.mem.read a) ∧
    (q.state ≠ .resetting → exec (.partitionResetComplete p) s = .next s) ∧
    (q.state ≠ .busy → exec (.partitionApplyComplete p) s = .next s)

/-- The commands of partitions, from their checks to their ends (R65, R84 to R89, R141). Registers that a command keeps or clears and the order
of units are read as log entries 61 and 62 say. -/
def Obligations.PartitionCommands : Prop :=
  Sys2Proof.Rule.PartitionCommandChecks ∧ Sys2Proof.Rule.PartitionCommandsEnd

/-- Replay and invalidation (R90, R93, R94, R324, R341). A HEAD that lies in the occupied span is taken and any other ignored. A replay clears
the pause of the units that it names and lets the parked lanes of a placed group issue again; the unrecoverable mode sends the lanes of its
token to their handler with EPC at the instruction, or, with token 0, does nothing. An invalidation is queued, drops its entries, and is
complete once the walks and accesses that began before it are done.
Tokens of several records and saved lanes are read as log entry 63 says (DEDUCED). -/
def Obligations.ReplayAndInvalidation : Prop :=
  ∀ (s : State) (p : Nat), p < s.parts.length →
    let q := s.part p
    let alone (g : Group) : Prop := g.core < savedBase ∧ ∀ h ∈ s.groups, h.core = g.core → h.slot = g.slot → h = g
    let bears (k : Option Pause) (n : Nat) : Prop := ∃ x, k = some x ∧ x.token = n
    (∀ v, let n := 2 ^ (q.setup.fblog2 - 6)
      let h := v % 2 ^ 18
      exec (.fbheadWrite p v) s = .next (if h < n ∧ (h + n - q.fbHead) % n ≤ (q.fbTail + n - q.fbHead) % n
        then s.updPart p fun q => { q with fbHead := h } else s)) ∧
    (∀ n, ∀ i ∈ (if n = 0 then [.fltreplayAll p] else [.fltreplayAll p, .fltreplayToken p n] : List Instr),
      (∀ h ∈ s.groups, s.partOf h = p → ∀ x ∈ h.lanes, ∀ k, x.parked = some k → k.redo = none) →
      ∃ t, exec i s = .next t ∧ t.parts = s.parts ∧
        (∀ c ∈ s.eng.cmds, c.part = p → ∀ k, c.paused = some k → (n = 0 ∨ k.token = n) → { c with paused := none } ∈ t.eng.cmds) ∧
        (∀ g ∈ s.groups, s.partOf g = p → alone g →
          ∃ h, t.group? g.core g.slot = some h ∧ ∀ l k, l < g.lanes.length → (g.lane l).parked = some k →
            ((n = 0 ∨ k.token = n) → h.lane l = { g.lane l with parked := none, wait := .none }) ∧
            (i = .fltreplayToken p n → k.token ≠ n → k.more = [] → h.lane l = g.lane l))) ∧
    (exec (.fltreplayUnrecoverable p 0) s = .next s) ∧
    (∀ token g, 0 < token → g ∈ s.groups → s.partOf g = p → alone g → g.tvec ≠ 0 → g.lanes.length = 32 →
      (∀ l, l < 32 → (g.lane l).tdep < 2 ∧ (g.lane l).home = none) →
      (∀ h ∈ s.groups, h ≠ g → ∀ x ∈ h.lanes, ∀ k, x.parked = some k → k.token ≠ token ∧ token ∉ k.more) →
      (∀ j ∈ s.render.jobs, ¬bears j.paused token) → (∀ c ∈ s.eng.cmds, ¬bears c.paused token) →
      (∀ c ∈ s.eng.chains, ¬bears c.paused token) → (∀ r ∈ s.render.rays, ∀ k, r.state = .faulted k → k.token ≠ token) →
      (∀ m ∈ s.render.marches, ∀ k, m.state = .faulted k → k.token ≠ token) →
      ∃ t h, exec (.fltreplayUnrecoverable p token) s = .next t ∧ t.parts = s.parts ∧ t.mem = s.mem ∧
        t.group? g.core g.slot = some h ∧ ∀ l k, l < 32 → (g.lane l).parked = some k → k.token = token →
          (h.lane l).pc = g.tvec ∧ (h.lane l).parked = none ∧ (h.lane l).tdep = (g.lane l).tdep + 1 ∧ (h.lane l).regs = (g.lane l).regs ∧
          (h.lane l).slice = (g.lane l).slice.writeBytes (g.tframe * 64 + 32 * (g.lane l).tdep) (frameBytes (k.epc (g.lane l).pc) k.addr k.cause
            (infoWith (if k.boundary then 3 else 1) (g.lane l).tmsk) k.token)) ∧
    (exec (.tlbinvAll p) s = .next (s.updPart p fun q => { q with tlbPend := q.tlbPend ++ [(.all, s.fresh)] })) ∧
    (∀ va, exec (.tlbinvPage p va) s =
      .next (s.updPart p fun q => { q with tlbPend := q.tlbPend ++ [(.page (va / 65536 * 65536), s.fresh)] })) ∧
    (∀ i since rest, q.tlbPend = (i, since) :: rest → ∃ t, exec (.tlbinvComplete p) s = .next t ∧
      t.parts = (if oldAccesses s p since then s else s.updPart p fun q => { q with tlbPend := rest }).parts ∧ { t with parts := s.parts, ms := s.ms } = s ∧
      t.ms = { s.ms with tlb := t.ms.tlb } ∧
      ∀ e, e ∈ t.ms.tlb ↔ e ∈ s.ms.tlb ∧ ¬(e.part = p ∧ (i = .all ∨ ∃ va, i = .page va ∧ e.vbase ≤ va ∧ va < e.vbase + e.size))) ∧
    (∀ since, (∃ w ∈ s.ms.walks, w.part = p ∧ w.id < since) ∨ (∃ e ∈ s.ms.sb, e.part = p ∧ e.id < since) ∨
      (∃ f ∈ s.ms.flights, f.part = p ∧ f.id < since ∧ f.stage = .request) → oldAccesses s p since = true) ∧
    (q.tlbPend = [] → exec (.tlbinvComplete p) s = .next s)

/-- Registers of a partition (R41, R79, R90, R144, R148, R149, R199, R286, R301). A refused field of `PKG_SCREEN` keeps its value; `RES_GEOM` is
written and not yet in force; a VEC of 16 to 31 leaves the VEC of the physical function's map; a HEAD outside the occupied span is ignored; an
area is taken when its LOG2 is legal and it lies in one range (region), the slice area only while no team is placed; and a request to vacate
cores is ignored while another runs, without a context area, for no cores, or for more than are owned. Nothing else changes. -/
def Sys2Proof.Rule.PartitionRegisters : Prop :=
  ∀ (s : State) (p v : Nat), p < s.parts.length →
    let q := s.part p
    let put (i : Instr) (ok : Prop) (f : Partition → Partition) : Prop :=
      (ok → exec i s = .next (s.updPart p f)) ∧ (¬ok → exec i s = .next s)
    let span (head tail n h : Nat) : Prop := h < n ∧ (h + n - head) % n ≤ (tail + n - head) % n
    let area (lo hi : Nat) : Prop := v % 64 = 0 ∨ lo ≤ v % 64 ∧ v % 64 ≤ hi
    let here : Prop := v % 64 = 0 ∨ ∃ r ∈ q.setup.ranges, 0 < r.2 ∧ r.1 ≤ v / 4096 * 4096 ∧ v / 4096 * 4096 + 2 ^ (v % 64) ≤ r.1 + r.2
    let a : AreaReg := ⟨v % 64, v / 4096 * 4096⟩
    let ring (r : AreaReg) : Nat := if r.log2 = 0 then 0 else 2 ^ (r.log2 - 5)
    let bandw : Nat := if v % 8 ∈ [1, 2, 3, 4] then v % 8 else q.screenBandw.written
    let halod : Nat := if v / 16 % 4 < 3 then v / 16 % 4 else q.screenHalod.written
    put (.pkgScreenWrite p v) True
      (fun q => { q with screenBandw := { q.screenBandw with written := bandw }, screenHalod := { q.screenHalod with written := halod } }) ∧
    put (.resGeomWrite p v) True (fun q => { q with res := { q.res with geom := { q.res.geom with written := v &&& 0x07FF07FF } } }) ∧
    (∀ n, n < s.pf.ivmap.length →
      let e := (if v % 32 < 16 then v % 32 else s.pf.ivmap.getD n 0 % 32) + v / 128 % 2 * 128
      exec (.pfivmapWrite n v) s = .next { s with pf := { s.pf with ivmap := s.pf.ivmap.set n e } }) ∧
    put (.odrHeadWrite p v) (span q.sch.odrHead q.sch.odrTail (ring q.sch.odr) (v % 2 ^ 19))
      (fun q => { q with sch := { q.sch with odrHead := v % 2 ^ 19 } }) ∧
    put (.rfHeadWrite p v) (span q.rf.head q.rf.tail (ring q.rf.area) (v % 2 ^ 19)) (fun q => { q with rf := { q.rf with head := v % 2 ^ 19 } }) ∧
    put (.schAreaWrite p 0 v) (area 16 40 ∧ here) (fun q => { q with sch := { q.sch with ctx := a } }) ∧
    put (.schAreaWrite p 1 v) (area 12 24 ∧ here) (fun q => { q with sch := { q.sch with odr := a } }) ∧
    put (.schAreaWrite p 2 v) (area 16 40 ∧ here ∧ ∀ t ∈ s.teams, t.part = p → t.state = .pending)
      (fun q => { q with sch := { q.sch with ls := a } }) ∧
    put (.memRfareaWrite p v) (area 12 24 ∧ (v % 64 = 0 ∨ spanInRegion s.links (v / 4096 * 4096) (2 ^ (v % 64)) = true))
      (fun q => { q with rf := { q.rf with area := a } }) ∧
    (let owned := ((List.range 144).filter fun i => ownsCore q.setup (144 * (v % 2) + i)).length
     let n := v / 256 % 256
     (q.sch.peState ≠ 0 ∨ q.sch.ctx.log2 = 0 ∨ n = 0 ∨ owned < n → exec (.schPreemptWrite p v) s = .next s) ∧
     (q.sch.peState = 0 → q.sch.ctx.log2 ≠ 0 → 0 < n → n ≤ owned →
       (∃ t ∈ s.teams, t.part = p ∧ t.state ≠ .pending ∧ t.core / 144 = v % 2) →
       ∃ t, exec (.schPreemptWrite p v) s = .next t ∧ t.mem = s.mem ∧ t.groups = s.groups ∧
         let cs := pickVacated s p (v % 2) 0 n 288 []
         let cls := v / 65536 % 4
         cs ≠ [] ∧ t.part p = { q with sch :=
           { q.sch with peState := 1, vacated := 0, keep := true, withheld := [], withheldClass := cls, vacating := cs } }))

/-- The register windows (R65, R73 to R79, R84, R96 to R98). A write that is not of 32 or 64 bits or not aligned is ignored; an access of a
partition function before READY is answered with configuration-retry status; the physical function reaches each partition's control page in its own window; and a write of a register
acts as the event that the spec names for it. -/
def Sys2Proof.Rule.RegisterWindows : Prop :=
  ∀ (s : State) (v : Nat),
    let same (fn : RegFn) (off : Nat) (i : Instr) : Prop := exec (.registerWrite fn off 64 (some v)) s = exec i s ∧ ∃ t, exec i s = .next t
    (∀ off w, ¬(w = 64 ∧ off % 8 = 0 ∨ w = 32 ∧ off % 4 = 0) → exec (.registerWrite .pf off w (some v)) s = .next s ∧
      (s.caddy.ready = true → ∀ p, exec (.registerWrite (.part p) off w (some v)) s = .next s)) ∧
    (s.caddy.ready = false → ∀ p off w x, exec (.registerWrite (.part p) off w x) s = .next (s.send (.configRetry p))) ∧
    (s.caddy.ready = true → ∀ p off w, p < 16 → off < 0x10000 →
      exec (.registerWrite .pf (0x100000 + 0x10000 * p + off) w (some v)) s = exec (.registerWrite (.part p) off w (some v)) s) ∧
    (∀ p op b, p < 16 → op < 8 → v = p + 16 * op + (if b then 128 else 0) → same .pf 8 (if op = 1 then .partitionCreate p
      else if op = 2 then .partitionResize p else if op = 3 then .partitionReset p b else if op = 4 then .partitionDestroy p b
      else .partitionCmdBadOp p)) ∧
    same .pf 0x200010 (.pkgPwrcapWrite v) ∧ same .pf 0x200108 (.timAdjWrite v) ∧ same .pf 0x200110 (.timStepWrite v) ∧
    exec (.registerWrite .pf 0x200110 32 (some v)) s = .next s ∧
    (∀ n, n < 40 → v.testBit 31 = true → same .pf (0x400000 + 8 * n) (.hngCrcerrClear n)) ∧
    exec (.registerWrite .pf 0x300 64 (some v)) s = .next { s with pf := { s.pf with istat := s.pf.istat ^^^ (s.pf.istat &&& (v % 2 ^ 64)) } } ∧
    (∀ p, p < 16 →
      (same .pf (0x501008 + 0x100 * p) (.rfHeadWrite p v)) ∧ same .pf (0x601018 + 0x100 * p) (.odrHeadWrite p v) ∧
      same .pf (0x601028 + 0x100 * p) (.schPreemptWrite p v) ∧ same .pf (0x701050 + 0x100 * p) (.resGeomWrite p v)) ∧
    (s.caddy.ready = true → ∀ p,
      same (.part p) 0x08 (.fbheadWrite p v) ∧ same (.part p) 0x38 (.pkgScreenWrite p v) ∧
      (v < 2 ^ 64 →
        (v % 4 = 0 → same (.part p) 0x20 (.fltreplayAll p) ∧ same (.part p) 0x28 (.tlbinvAll p)) ∧
        (v % 4 = 1 → same (.part p) 0x20 (.fltreplayToken p (v / 2 ^ 32)) ∧ same (.part p) 0x28 (.tlbinvPage p v)) ∧
        (v % 4 = 2 → same (.part p) 0x20 (.fltreplayUnrecoverable p (v / 2 ^ 32)))) ∧
      ∀ st x, st < 256 → s.stream? p st = some x →
        same (.part p) (0x100018 + 0x1000 * st) (.doorbell p st v) ∧
        (x.en = true → v.testBit 4 = false → same (.part p) (0x100008 + 0x1000 * st) (.qctlDisable p st)) ∧
        (v.testBit 3 = true → same (.part p) (0x100030 + 0x1000 * st) (.statSkip p st)) ∧
        (v.testBit 3 = false → v.testBit 2 = true → same (.part p) (0x100030 + 0x1000 * st) (.statResume p st)))

/-- Reads of registers (R5, R53, R56, R66, R68, R73 to R77, R85, R98, R149, R322). Software reads the current value of a register; a place
without one, a write-only register, and an access that is not of 32 or 64 bits or not aligned read zero. -/
def Sys2Proof.Rule.RegisterReads : Prop :=
  ∀ (s : State),
    let reads (fn : RegFn) (off w x : Nat) : Prop := exec (.registerWrite fn off w none) s = .next (s.send (.regData fn off w x))
    (∀ off w, ¬(w = 64 ∧ off % 8 = 0 ∨ w = 32 ∧ off % 4 = 0) → reads .pf off w 0) ∧
    (∀ off x, off % 8 = 0 → reads .pf off 64 x → reads .pf off 32 (x % 2 ^ 32) ∧ reads .pf (off + 4) 32 (x / 2 ^ 32 % 2 ^ 32)) ∧
    reads .pf 8 64 0 ∧ reads .pf 0x200110 64 0 ∧ (∀ off, off % 8 = 0 → 0xA00000 ≤ off → reads .pf off 64 0) ∧
    reads .pf 0x200100 64 (s.time.now % 2 ^ 64) ∧ reads .pf 0x300 64 (s.pf.istat % 2 ^ 64) ∧
    (s.links.width ≤ 16 → s.links.rate ≤ 7 → reads .pf 0x10 64 (s.links.width + 32 * s.links.rate + if s.links.downev then 256 else 0)) ∧
    (s.caddy.bootStep < 16 → s.caddy.slotFw < 2 → s.caddy.slotCfg < 2 → s.caddy.spares0 < 16 → s.caddy.spares1 < 16 →
      reads .pf 0x300000 64 (s.caddy.bootStep + (if s.caddy.ready then 16 else 0) + (if s.caddy.stopped then 32 else 0) + 64 * s.caddy.slotFw +
        128 * s.caddy.slotCfg + 65536 * s.caddy.spares0 + 1048576 * s.caddy.spares1)) ∧
    (∀ p, p < 16 → let q := s.part p
      (q.err < 16 → reads .pf (0x100 + 8 * p) 64 ((match q.state with
        | .free => 0 | .busy => 1 | .active => 2 | .resetting => 3) + (if q.done then 4 else 0) + 16 * q.err + if q.flrpend then 256 else 0)) ∧
      (s.caddy.ready = true → ∀ off w x, off < 0x10000 → reads .pf (0x100000 + 0x10000 * p + off) w x → reads (.part p) off w x) ∧
      (s.caddy.ready = true → reads (.part p) 0x30 64 (if q.tlbPend = [] then 0 else 1) ∧ (q.fbTail < 2 ^ 64 → reads (.part p) 0x10 64 q.fbTail) ∧
        ∀ st x, st < 256 → s.stream? p st = some x → x.head < 2 ^ 64 → reads (.part p) (0x100010 + 0x1000 * st) 64 x.head)) ∧
    (∀ n, n < 72 →
      let chains := (s.eng.chains.filter fun c => c.kind == .strainer && c.engine == n && c.attached).length
      let cmds := s.eng.cmds.filter fun c => c.kind == .strainer && c.engine == n
      (chains < 32 → cmds = [] → strainFaulted s n = false → reads .pf (0x800000 + 8 * n) 64 chains) ∧
      (∀ c j, chains < 32 → cmds = [c] → c.body = .strainer j → c.part < 16 → j.pixels.length < 8192 →
        reads .pf (0x800000 + 8 * n) 64 (chains + 32 + (if strainFaulted s n || meterHeld s c.part 3 then 64 else 0) + 256 * c.part +
          65536 * j.pixels.length)))

/-- Registers of a partition, and the windows through which they are written and read (R5, R41, R65, R73 to R79, R84, R90, R96 to R98, R144,
R148, R149, R199, R286, R301). Writes that a field refuses are read as log entry 60 says, MSI-X as log entry 7 says, and reads and STN_STAT
as log entry 73 says. -/
def Obligations.RegistersOfThePart : Prop :=
  Sys2Proof.Rule.PartitionRegisters ∧ Sys2Proof.Rule.RegisterWindows ∧ Sys2Proof.Rule.RegisterReads

/-! ## Events of streams -/

/-- The state of a front end (R95 to R99, R104, R105): the doorbell, the tail word, EN, HEAD and TAIL at zero, RESUME and SKIP, and the reading
of a header: none while its TYPE is 0 or the tail does not cover the packet, a halt when it is ill-formed, else the packet.
The corners of a front end are read as log entry 50 says (DEDUCED). -/
def Obligations.FrontEnds : Prop :=
  ∀ (s : State) (p st : Nat) (x : Stream), s.stream? p st = some x →
    let is (t : State) (y : Stream) : Prop := t.stream? p st = some y
    let only (t : State) : Prop := { t with parts := s.parts } = s
    let halted (t : State) (code slots : Nat) : Prop := ∃ y, t.stream? p st = some y ∧ y.state = .halted ∧ y.ecode = code ∧ y.head = x.head ∧
      y.packet = none ∧ y.haltSlots = slots ∧ (t.part p).istat.testBit st = true
    (∀ v, (x.mtail = true → ∃ t, exec (.doorbell p st v) s = .next t ∧ only t ∧ is t { x with tail := v % 2 ^ 32 }) ∧
      (x.mtail = false → x.en = false → ∃ t, exec (.doorbell p st v) s = .next t ∧ only t ∧
        is t { x with tail := v % 2 ^ 32, seen := v % 2 ^ 32 }) ∧
      (x.mtail = false → x.en = true → x.state = .waiting → ∃ t, exec (.doorbell p st v) s = .next t ∧ only t ∧
        is t { x with tail := v % 2 ^ 32, seen := v % 2 ^ 32 }) ∧
      (x.mtail = false → x.en = true → x.state = .idle → x.head < 2 ^ 32 → 2 ^ x.qlog2 < (v % 2 ^ 32 + 2 ^ 32 - x.head) % 2 ^ 32 →
        ∃ t, exec (.doorbell p st v) s = .next t ∧ halted t 4 1)) ∧
    ((x.en = false ∨ x.mtail = false → exec (.tailWordChange p st) s = .next s) ∧
     (∀ s₁ b, x.en = true → x.mtail = true → x.state = .waiting →
       feAcquire s p st (tailScope s p x.tailaddr) x.tailaddr 8 = (s₁, .data b) →
       ∃ t, exec (.tailWordChange p st) s = .next t ∧ is t { x with seen := fieldAt b 0 4 })) ∧
    (x.en = true → exec (.qctlEnable p st) s = .next s) ∧
    (x.en = false → x.mtail = false → x.tail = x.head → x.head < 2 ^ 32 → ∃ t, exec (.qctlEnable p st) s = .next t ∧ only t ∧
      is t { x with en := true, state := .idle, seen := x.tail }) ∧
    (∃ t, exec (.qctlDisable p st) s = .next t ∧ t.grids = s.grids ∧ t.eng = s.eng ∧ t.mem = s.mem ∧
      is t { x with en := false, state := .disabled, packet := none, jump := none }) ∧
    (∃ t, exec (.qctlZero p st) s = .next t ∧ only t ∧ is t (if x.en then x else { x with head := 0, tail := 0, seen := 0 })) ∧
    (x.state ≠ .halted → exec (.statResume p st) s = .next s ∧ exec (.statSkip p st) s = .next s) ∧
    (x.state = .halted → x.jump = none → x.head < 2 ^ 32 →
      (x.seen = x.head → ∃ t, exec (.statResume p st) s = .next t ∧ only t ∧ is t { x with ecode := 0, state := .idle }) ∧
      (x.seen = (x.head + x.haltSlots) % 2 ^ 32 → ∃ t, exec (.statSkip p st) s = .next t ∧ only t ∧
        is t { x with ecode := 0, state := .idle, head := (x.head + x.haltSlots) % 2 ^ 32 })) ∧
    (∀ s₁ b, x.en = true → x.state = .reading → x.packet = none → x.jump = none → hostGone s p (x.slotAddr x.head) = false →
      feRead (s.updStream p st fun y => { y with state := .reading }) p st (x.slotAddr x.head) 64 = (s₁, .data b) →
      let n := byteAt b 1 % 4 + 1
      let short := (x.seen + 2 ^ 32 - x.head) % 2 ^ 32 < n
      (byteAt b 0 = 0 ∨ short → ∃ t, exec (.headerReread p st) s = .next t ∧ is t x ∧ t.mem = s₁.mem) ∧
      (∀ code off, ¬(byteAt b 0 = 0 ∨ short) → headerBad x b = some (code, off) →
        ∃ t, exec (.headerReread p st) s = .next t ∧ halted t code n) ∧
      (¬(byteAt b 0 = 0 ∨ short) → headerBad x b = none → n = 1 →
        ∃ t, exec (.headerReread p st) s = .next t ∧ is t { x with packet := some ⟨x.slotAddr x.head, 1, b⟩ } ∧ t.mem = s₁.mem)) ∧
    (x.en = false ∨ x.packet ≠ none → exec (.headerReread p st) s = .next s)

/-- The packets of a stream (R99, R101 to R107, R109, R112, R113, R120, R121, R129): a packet whose body is ill-formed halts the stream; one that
may be dispatched starts its work or is complete, its slots are zeroed, HEAD moves past them, and IRQ raises the stream's source; one that may not
yet be dispatched waits. The clauses are those of a last packet of the ring, so that the front end is IDLE after it, in a partition without a
residency ring. -/
def Sys2Proof.Rule.PacketEffects : Prop :=
  ∀ (s : State) (p st : Nat) (x : Stream) (k : Packet), s.stream? p st = some x → x.packet = some k → x.en = true → x.jump = none →
    x.seen = (x.head + k.nslot) % 2 ^ 32 → (s.part p).rf.area.log2 = 0 → s.group? 0 noSlot = none →
    let b := k.bytes
    let irq := packetIrq b
    let gone (u t : State) (work : List Work) : Prop :=
      t.stream? p st = some { x with head := x.seen, packet := none, state := .idle, work := work } ∧ t.grids = u.grids ∧
      t.eng = u.eng ∧ t.groups = u.groups ∧ (∀ z, z.own s → readByte t z = readByte u z ∨ readByte t z = 0) ∧
      (k.nslot = 1 → ∀ m, (translate u (whoFe p) .write (x.slotAddr x.head)).2 = .ok (.phys m) → m < hostBase → homeDie m = 0 →
        readByte t (.phys m) = 0)
    let complete (i : Instr) (u : State) (work : List Work) : Prop := ∃ t, exec i s = .next t ∧ gone u t work ∧
      (irq = true → (t.part p).istat.testBit st = true)
    let started (i : Instr) (u : State) (r : WorkRef) : Prop := ∃ t, exec i s = .next t ∧ gone u t (x.work ++ [⟨r, irq, false⟩])
    let waits (i : Instr) : Prop := ∃ t, exec i s = .next t ∧ t.stream? p st = some { x with state := .waiting } ∧ t.grids = s.grids ∧
      t.eng = s.eng ∧ ∀ z, readByte t z = readByte s z
    let halts (i : Instr) (code : Nat) : Prop := ∃ t y, exec i s = .next t ∧ t.stream? p st = some y ∧ y.state = .halted ∧ y.ecode = code ∧
      y.head = x.head ∧ y.haltSlots = k.nslot ∧ (t.part p).istat.testBit st = true
    let a := fieldAt b 8 8
    let clean := ∀ w ∈ x.work, w.failed = true
    (x.state = .reading →
      (byteAt b 0 = 1 → complete (.nopPacket p st) s x.work) ∧
      (∀ bad, (byteAt b 0, bad) ∈ ([(2, launchBody b), (3, graphBody b), (4, copyChecks b), (5, collChecks b), (6, semwaitBody b),
          (7, semsigBody b), (8, timewaitBody b), (9, fenceBody b), (10, jumpBody b)] : List (Nat × BlockCheck)) →
        ∀ code off, bad = some (code, off) → ∀ i, (byteAt b 0, i) ∈ ([(2, .launchPacket p st), (3, .graphPacket p st), (4, .copyPacket p st),
          (5, .collPacket p st), (6, .semwaitPacket p st), (7, .semsigPacket p st), (8, .timewaitPacket p st), (9, .fencePacket p st),
          (10, .jumpPacket p st)] : List (Nat × Instr)) → halts i code) ∧
      (byteAt b 0 = 8 → timewaitBody b = none →
        (a ≤ s.time.now → complete (.timewaitPacket p st) s x.work) ∧ (s.time.now < a → waits (.timewaitPacket p st))) ∧
      (byteAt b 0 = 9 → fenceBody b = none →
        (x.work = [] → complete (.fencePacket p st) s []) ∧ (¬clean → waits (.fencePacket p st)) ∧
        (clean → x.work ≠ [] → halts (.fencePacket p st) 8)) ∧
      (byteAt b 0 = 7 → semsigBody b = none →
        (¬clean → waits (.semsigPacket p st)) ∧ (clean → x.work ≠ [] → halts (.semsigPacket p st) 8) ∧
        (x.work = [] → a = 0 → complete (.semsigPacket p st) s []) ∧
        (∀ m s₁, x.work = [] → a ≠ 0 → translate s (whoFe p) .atomic a = (s₁, .ok (.phys m)) → (readPlace s (.phys m) 8).2 = false →
          homeDie m = 0 → (8 ≤ byteAt b 24 → outsideWrites s p = false) →
          (∀ j, j < 8 → regionOf s.links (m + j) ≠ .outside ∧ regionOf s.links (m + j) ≠ .host ∧ ∀ d, regionOf s.links (m + j) ≠ .chip d) →
          ∃ u, complete (.semsigPacket p st) u [] ∧ ∀ z, z.own s → readByte u z = (storedAt (.phys m)
            (bytesOfNum 8 (((readPlace s (.phys m) 8).1 + 2 ^ 64 - fieldAt b 16 8) % 2 ^ 64)) z).getD (readByte s z))) ∧
      (byteAt b 0 = 6 → semwaitBody b = none → ∀ s₁ d, feAcquire s p st (byteAt b 24) a 8 = (s₁, .data d) →
        let met := (BitVec.ofNat 64 (numOfBytes d)).toInt ≤ (BitVec.ofNat 64 (fieldAt b 16 8)).toInt
        (met → complete (.semwaitPacket p st) s₁ x.work) ∧ (¬met → waits (.semwaitPacket p st))) ∧
      (byteAt b 0 = 2 → launchBody b = none → ∀ s₁ d, feRead s p st a 256 = (s₁, .data d) →
        (∀ code off, recordBad (s.part p) d = some (code, off) → halts (.launchPacket p st) code) ∧
        (recordBad (s.part p) d = none →
          (∀ code, parentOf s p (fieldAt b 16 8) = .error code → halts (.launchPacket p st) code) ∧
          (∀ parent, parentOf s p (fieldAt b 16 8) = .ok parent → freeGridSlot s p = none → waits (.launchPacket p st)) ∧
          (∀ slot, fieldAt b 16 8 = 0 → freeGridSlot s p = some slot →
            (∀ die, poolFree s die ≠ 0) → ∃ u g, started (.launchPacket p st) u (.grid g.id) ∧ u.grids = s.grids ++ [g] ∧ u.eng = s.eng ∧
              u.groups = s.groups ∧ g.part = p ∧ g.slot = slot ∧ g.rcd = launchRecOf d ∧ g.stream = some st ∧ g.parent = none ∧ g.depth = 0 ∧
              g.children = 0 ∧ g.nextTeam = 0 ∧ g.teamsDone = 0))) ∧
      (∀ kind i body, (byteAt b 0, kind, i, body) ∈ ([(4, .copy, .copyPacket p st, .copy (copyJobOf b)),
          (5, .collective, .collPacket p st, .coll (collJobOf b))] : List (Nat × EngKind × Instr × EngBody)) →
        (kind = .copy → copyChecks b = none ∧ copySpanBad s (.packet st 0 []) p (copyJobOf b) = none) →
        (kind = .collective → collChecks b = none ∧ collSpanBad s (.packet st 0 []) p (collJobOf b) = none) →
        ((∀ e, ownsEngine (s.part p).setup kind e = true → engDie kind e ≠ 0 ∧ engDie kind e ≠ 1) → waits i) ∧
        (∀ e, anyEngine s p kind = some e → ∃ u c, started i u (.command c.id) ∧ u.eng = { s.eng with cmds := s.eng.cmds ++ [c] } ∧
          u.grids = s.grids ∧ u.groups = s.groups ∧ ownsEngine (s.part p).setup kind e = true ∧ c.kind = kind ∧ c.engine = e ∧ c.part = p ∧
          c.body = body ∧ c.tdec = decide (byteAt b 10 % 2 = 1) ∧ c.tumb = fieldAt b 16 8 ∧ c.amount = fieldAt b 24 8)) ∧
      (byteAt b 0 = 3 → graphBody b = none → ∀ g, s.graphs.find? (fun g => g.part == p && g.stream == st && !g.pool) = some g →
        (s.graphs.map Graph.id).Nodup →
        let room := ∀ d, d < 2 → (g.nodes.filter fun n => n.die == d).length ≤ poolFree s d
        (¬room → waits (.graphPacket p st)) ∧
        (room → ∃ u h, started (.graphPacket p st) u (.graph g.id) ∧ u.graph? g.id = some h ∧ h.pool = true ∧
          h.nodes.map GNode.state = g.nodes.map fun n => if n.preds = 0 ∧ n.state = .reserved then .ready else n.state)) ∧
      (byteAt b 0 = 10 → jumpBody b = none → hostGone s p a = false → ∀ s₁ d,
        let into (z : Stream) : Stream := { z with packet := none, jump := some ⟨a, fieldAt b 16 4, 0, irq⟩, state := .reading }
        let y := into x
        feRead (s.updStream p st into) p st a 64 = (s₁, .data d) → headerBad y d = none → packetSlots d = 1 →
        ∃ t, exec (.jumpPacket p st) s = .next t ∧ t.stream? p st = some { y with packet := some ⟨a, 1, d⟩ } ∧ t.mem = s₁.mem)) ∧
    (x.state = .waiting →
      (byteAt b 0 = 8 → (a ≤ s.time.now → complete (.waitConditionMet p st) s x.work) ∧ (s.time.now < a → waits (.waitConditionMet p st))) ∧
      (byteAt b 0 = 9 → (x.work = [] → complete (.waitConditionMet p st) s []) ∧ (¬clean → waits (.waitConditionMet p st))))

/-- Every packet completes (R99, R101 to R103, R106, R109, R112, R113, R120, R121, R128, R129): when what it waits for has come and what it names
is in order, its work starts or is done, and HEAD moves past its slots, whatever packet follows. -/
def Sys2Proof.Rule.PacketsComplete : Prop :=
  ∀ (s : State) (p st : Nat) (x : Stream) (k : Packet), s.stream? p st = some x → x.packet = some k → x.en = true → x.jump = none →
    let b := k.bytes
    let a := fieldAt b 8 8
    let irq := packetIrq b
    let past (t : State) (work : List Work) : Prop := ∃ y, t.stream? p st = some y ∧ y.head = (x.head + k.nslot) % 4294967296 ∧ y.work = work
    let told (t : State) : Prop := irq = true → (t.part p).istat.testBit st = true
    let works (r : WorkRef) : List Work := x.work ++ [⟨r, irq, false⟩]
    (x.state = .reading →
      (byteAt b 0 = 1 → ∃ t, exec (.nopPacket p st) s = .next t ∧ past t x.work ∧ told t) ∧
      (∀ s₁ d slot, byteAt b 0 = 2 → launchBody b = none → fieldAt b 16 8 = 0 → feRead s p st a 256 = (s₁, .data d) →
        recordBad (s.part p) d = none → freeGridSlot s p = some slot → (∀ die, poolFree s die ≠ 0) →
        ∃ t g, exec (.launchPacket p st) s = .next t ∧ past t (works (.grid g.id)) ∧ t.grids = s.grids ++ [g] ∧ g.part = p ∧ g.slot = slot ∧
          g.rcd = launchRecOf d ∧ g.stream = some st) ∧
      (∀ s₁ ns, byteAt b 0 = 3 → graphBody b = none → (∀ g ∈ s.graphs, g.part = p → g.stream = st → g.pool = true) →
        (∀ g ∈ s.graphs, g.id < s.fresh) → readGraph s p st a = (s₁, .nodes ns) →
        (∀ d, d < 2 → (ns.filter fun n => n.die == d).length ≤ poolFree s₁ d) →
        ∃ t g, exec (.graphPacket p st) s = .next t ∧ past t (works (.graph g.id)) ∧ g ∈ t.graphs ∧ g.pool = true ∧ g.part = p ∧ g.stream = st ∧
          g.tumb = fieldAt b 16 8 ∧ g.amount = fieldAt b 24 8 ∧ g.nodes.length = ns.length) ∧
      (∀ e, byteAt b 0 = 4 → copyChecks b = none → copySpanBad s (.packet st 0 []) p (copyJobOf b) = none → anyEngine s p .copy = some e →
        ∃ t c, exec (.copyPacket p st) s = .next t ∧ past t (works (.command c.id)) ∧ t.eng.cmds = s.eng.cmds ++ [c] ∧ c.engine = e ∧
          c.body = .copy (copyJobOf b)) ∧
      (∀ e, byteAt b 0 = 5 → collChecks b = none → collSpanBad s (.packet st 0 []) p (collJobOf b) = none → anyEngine s p .collective = some e →
        ∃ t c, exec (.collPacket p st) s = .next t ∧ past t (works (.command c.id)) ∧ t.eng.cmds = s.eng.cmds ++ [c] ∧ c.engine = e ∧
          c.body = .coll (collJobOf b)) ∧
      (∀ s₁ d, byteAt b 0 = 6 → semwaitBody b = none → feAcquire s p st (byteAt b 24) a 8 = (s₁, .data d) →
        (BitVec.ofNat 64 (numOfBytes d)).toInt ≤ (BitVec.ofNat 64 (fieldAt b 16 8)).toInt →
        ∃ t, exec (.semwaitPacket p st) s = .next t ∧ past t x.work ∧ told t) ∧
      (byteAt b 0 = 7 → semsigBody b = none → x.work = [] → a = 0 → ∃ t, exec (.semsigPacket p st) s = .next t ∧ past t [] ∧ told t) ∧
      (∀ s₁ m, byteAt b 0 = 7 → semsigBody b = none → x.work = [] → a ≠ 0 → translate s (whoFe p) .atomic a = (s₁, .ok (.phys m)) →
        (readPlace s₁ (.phys m) 8).2 = false → homeDie m = 0 → (8 ≤ byteAt b 24 → outsideWrites s₁ p = false) →
        ∃ t, exec (.semsigPacket p st) s = .next t ∧ past t [] ∧ told t) ∧
      (byteAt b 0 = 8 → timewaitBody b = none → a ≤ s.time.now → ∃ t, exec (.timewaitPacket p st) s = .next t ∧ past t x.work ∧ told t) ∧
      (byteAt b 0 = 9 → fenceBody b = none → x.work = [] → ∃ t, exec (.fencePacket p st) s = .next t ∧ past t [] ∧ told t) ∧
      (byteAt b 0 = 10 → jumpBody b = none → ∃ t y, exec (.jumpPacket p st) s = .next t ∧ t.stream? p st = some y ∧ y.head = x.head ∧
        y.jump = some ⟨a, fieldAt b 16 4, 0, irq⟩ ∧ y.work = x.work)) ∧
    (x.state = .waiting →
      (byteAt b 0 = 8 → a ≤ s.time.now → ∃ t, exec (.waitConditionMet p st) s = .next t ∧ past t x.work ∧ told t) ∧
      (byteAt b 0 = 9 → x.work = [] → ∃ t, exec (.waitConditionMet p st) s = .next t ∧ past t [] ∧ told t))

/-- The packets of a stream: what each does, and where each completes. Failing packets and slots are read as log entries 50 to 53 say. -/
def Obligations.Packets : Prop :=
  Sys2Proof.Rule.PacketEffects ∧ Sys2Proof.Rule.PacketsComplete

/-! ## Events of grids and graphs -/

/-- Placement and the end of grids (R110, R113, R134, R137, R172, R476): the first team of a one-core grid without rollback or shadows goes to the
core that is chosen for it, each of its groups in its slot and in its initial state; a grid waits for its teams and children; its end lowers its
parent's count and ends its packet; and a grid with a failed child fails. -/
def Sys2Proof.Rule.Grids : Prop :=
  ∀ (s : State) (p gs : Nat) (gr : Grid), s.grids.find? (fun g => g.part == p && g.slot == gs) = some gr →
    (placeTurn s gr = false → exec (.teamPlace p gs) s = .next s) ∧
    (∀ core slots base, placeTurn s gr = true → gr.rcd.clw = 1 → gr.rcd.clh = 1 → gr.nextTeam < gr.rcd.teams → savedTeams s gr = [] →
      (s.part p).setup.shadow = false → rollbackOn s p = false → bestRect s gr [.start gr.nextTeam] = some [core] →
      pickSlots false (usedSlots s core) (List.range gr.rcd.gpt) = some slots → scratchRun s core gr.rcd.spfoot = some base →
      (s.grids.map Grid.id).Nodup →
      ∃ t tm, exec (.teamPlace p gs) s = .next t ∧ t.teams = s.teams ++ [tm] ∧ tm.grid = gr.id ∧ tm.part = p ∧ tm.linear = gr.nextTeam ∧
        tm.core = core ∧ tm.spbase = base ∧ tm.spfoot = gr.rcd.spfoot ∧ tm.state = .placed ∧ tm.repeatable = true ∧ t.mem = s.mem ∧
        t.grid? gr.id = some { gr with nextTeam := gr.nextTeam + 1 } ∧ slots.length = gr.rcd.gpt ∧
        ∀ i, i < gr.rcd.gpt → ∃ g, t.group? core (slots.getD i (0, none)).1 = some g ∧ g.team = tm.id ∧ g.index = i ∧ g.steps = gr.rcd.regsz ∧
          g.vbase = gr.rcd.vbase ∧ g.tbase = gr.rcd.tbase ∧ g.abase = gr.rcd.abase ∧ g.active = false ∧ g.q = 0 ∧ g.tvec = 0 ∧
          g.g.take 4 = [BitVec.ofNat 64 gr.rcd.args, BitVec.ofNat 64 gr.nextTeam, BitVec.ofNat 64 i, BitVec.ofNat 64 gr.handle] ∧
          g.lanes.length = 32 ∧ ∀ x ∈ g.lanes, x.pc = BitVec.ofNat 64 gr.rcd.entry ∧ x.regs = [] ∧ x.preds = 0 ∧ x.wait = .none ∧
            x.exited = false ∧ x.parked = none ∧ x.ld = 0 ∧ x.st = 0 ∧ x.cp = 0 ∧ x.mx = 0) ∧
    (gr.children ≠ 0 ∨ gr.nextTeam < gr.rcd.teams ∨ (∃ t ∈ s.teams, t.grid = gr.id) → exec (.gridComplete p gs) s = .next s) ∧
    (gr.children = 0 → gr.rcd.teams ≤ gr.nextTeam → (∀ t ∈ s.teams, t.grid ≠ gr.id) →
      (gr.childFailed = true → ∃ t, exec (.gridComplete p gs) s = .next t ∧ (∀ g ∈ t.grids, g.id ≠ gr.id) ∧
        (gr.node.isSome = true → p < s.parts.length → (t.part p).istat.testBit 259 = true) ∧
        (gr.node = none → (t.part p).istat = (s.part p).istat)) ∧
      (gr.childFailed = false → gr.rcd.tumb = 0 → ∃ t, exec (.gridComplete p gs) s = .next t ∧ t.mem = s.mem ∧ t.teams = s.teams ∧
        t.grids = ((s.grids.filter fun g => g.id != gr.id).map fun g =>
          if gr.parent = some g.id then { g with children := g.children - 1 } else g) ∧
        (∀ st x, gr.node = none → gr.stream = some st → s.stream? p st = some x →
          t.stream? p st = some { x with work := x.work.filter fun w => w.ref != .grid gr.id } ∧
          ((∃ w ∈ x.work, w.ref = .grid gr.id ∧ w.irq = true) → (t.part p).istat.testBit st = true))) ∧
      (∀ s₁ m, gr.childFailed = false → gr.rcd.tumb ≠ 0 → translate s gr.who .atomic gr.rcd.tumb = (s₁, .ok (.phys m)) →
        (s.part p).rf.area.log2 = 0 → (readPlace s (.phys m) 8).2 = false → homeDie m = gr.die → (∀ x ∈ s.ms.arrived, x.owner ≠ gr.id) →
        (∀ f ∈ s.ms.flights, f.engine ≠ some gr.id) → (8 ≤ gr.rcd.tscope → outsideWrites s p = false) →
        (∀ j, j < 8 → regionOf s.links (m + j) ≠ .outside ∧ regionOf s.links (m + j) ≠ .host ∧ ∀ d, regionOf s.links (m + j) ≠ .chip d) →
        ∃ t, exec (.gridComplete p gs) s = .next t ∧ (∀ g ∈ t.grids, g.id ≠ gr.id) ∧ ∀ z, z.own s → readByte t z = (storedAt (.phys m)
          (bytesOfNum 8 (((readPlace s (.phys m) 8).1 + 2 ^ 64 - gr.rcd.amount % 2 ^ 64) % 2 ^ 64)) z).getD (readByte s z)))

/-- The nodes of a graph (R130 to R133): a node that is ready and not held back goes to an engine on its die when its turn has come; when its
payload has finished it is complete, and its successors' counts fall, those that reach zero becoming READY; after the last node the `GRAPH` is
complete. -/
def Sys2Proof.Rule.GraphNodes : Prop :=
  ∀ (s : State) (id n : Nat) (g : Graph), s.graph? id = some g → n < g.nodes.length → (s.graphs.map Graph.id).Nodup →
    let x := g.nodes.getD n default
    let y := nodeNow s g n
    (x.state ≠ .ready ∨ g.pool = false ∨ nodeHeldBack g n = true → exec (.nodeDispatch id n) s = .next s) ∧
    (∀ e, x.state = .ready → g.pool = true → nodeHeldBack g n = false → x.kind ≠ .grid → x.kind ≠ .matrix →
      meterHeld s g.part (engClass x.kind.engine) = false → nodeEngine s g y = some e → nodeWaits s y = false →
      (∀ c ∈ s.eng.chains, c.node ≠ some (id, n)) →
      ∃ t c h, exec (.nodeDispatch id n) s = .next t ∧ t.eng = { s.eng with chains := s.eng.chains ++ [c] } ∧ t.mem = s.mem ∧
        ownsEngine (s.part g.part).setup x.kind.engine e = true ∧ chainsAt s x.kind.engine e < 16 ∧
        c.kind = x.kind.engine ∧ c.engine = e ∧ c.part = g.part ∧ c.head = x.payload ∧ c.node = some (id, n) ∧ c.attached = true ∧
        t.graph? id = some h ∧ h.nodes = g.nodes.set n { x with state := .dispatched, die := y.die }) ∧
    (x.state ≠ .dispatched ∨ nodeFinished s g n x = false → exec (.nodeComplete id n) s = .next s) ∧
    (x.state = .dispatched → nodeFinished s g n x = true →
      ((∃ i y, i ≠ n ∧ g.nodes[i]? = some y ∧ y.state ≠ .complete) → ∃ t h, exec (.nodeComplete id n) s = .next t ∧ t.graph? id = some h ∧
        h.nodes.length = g.nodes.length ∧ t.mem = s.mem ∧ t.grids = s.grids ∧
        ∀ i y, g.nodes[i]? = some y → ∃ z, h.nodes[i]? = some z ∧
          (i = n → z = { y with state := .complete }) ∧
          (i ≠ n → z.preds = y.preds - x.succs.count i ∧
            z.state = if y.state = .reserved ∧ y.preds ≤ x.succs.count i then .ready else y.state)) ∧
      ((∀ i y, i ≠ n → g.nodes[i]? = some y → y.state = .complete) → g.tumb = 0 → ∃ t, exec (.nodeComplete id n) s = .next t ∧
        t.graph? id = none ∧ t.mem = s.mem ∧ ∀ w, s.stream? g.part g.stream = some w →
          t.stream? g.part g.stream = some { w with work := w.work.filter fun v => v.ref != .graph g.id }))

/-- Placement and the end of grids, and the nodes of graphs (R110, R113, R130 to R134, R137, R172, R476). Placement order, graphs and handles
are read as log entries 6, 54 and 55 say. -/
def Obligations.GridsAndNodes : Prop :=
  Sys2Proof.Rule.Grids ∧ Sys2Proof.Rule.GraphNodes

/-! ## Events of engines -/

/-- Copies and collectives at work (R117, R120, R121, R140, R142, R183, R215, R303, R344): a copy starts once its checks pass and its scoreboard
entries fit; a chunk is read and written whole, and that of a halo copy leaves in messages of at most 1,024 bytes; a chunk whose write was refused
is repeated; a collective reads its members and source, sends its contribution to one member after the other, and writes its result; a message is
dropped, taken or held by its attempt; a token or a timeout ends the attempt; and a command whose work is done completes for its issuer.
Chunks, engines and failures are read as log entries 38 and 39 say (DEDUCED). -/
def Obligations.CommandsRun : Prop :=
  ∀ (s : State) (id : Nat) (c : EngCmd), s.cmd? id = some c →
    let is (t : State) (d : EngCmd) : Prop := t.cmd? id = some d
    let plain (u : State) (p : Place) (n : Nat) : Prop := u.links.reach c.who.die p = .here ∧ isHost u p = false ∧
      detmWriter u (cmdGroup c).1 (cmdGroup c).2 = none ∧
      ∀ k, k < n → (p.plus k).own u ∧ ∀ x, p.plus k = .phys x → regionOf u.links x ≠ .outside
    let wrote (u t : State) (p : Place) (bs : List Byte) : Prop := ∀ z, z.own u → readByte t z = (storedAt p bs z).getD (readByte u z)
    (∀ j op i, c.body = .copy j →
      (op, i) ∈ ([(0, .copyBlockCopy id), (1, .copyBlockFill id), (2, .copyBlockHalo id)] : List (Nat × Instr)) →
      (c.started = true ∨ c.stopped s = true ∨ j.op ≠ op ∨ earlierWaits s c = true → exec i s = .next s) ∧
      (c.started = false → c.stopped s = false → j.op = op → earlierWaits s c = false → copySpanBad s c.issuer c.part j = none →
        haloBad s c j = none → j.recorded = false →
        (entriesFit s (copyEntries s c j) = false → exec i s = .next s) ∧
        (entriesFit s (copyEntries s c j) = true → ∃ t, exec i s = .next t ∧ t.mem = s.mem ∧
          t.ms = { s.ms with ranges := s.ms.ranges ++ copyEntries s c j } ∧ is t { c with started := true, body := .copy { j with recorded := true } })) ∧
      (∀ code off, c.started = false → c.stopped s = false → j.op = op → earlierWaits s c = false →
        firstBad [copySpanBad s c.issuer c.part j, haloBad s c j] = some (code, off) → ∃ t, exec i s = .next t ∧ t.cmd? id = none)) ∧
    (c.started = true → c.stopped s = false → unitBusy s id = false → failedWrite s id = none → meterHeld s c.part 2 = false →
      (∀ j, c.body = .copy j → j.row < j.rows →
        let n := min 4096 (j.rowBytes - j.off)
        let src := (j.src + j.row * j.sstride + j.off) % 2 ^ 64
        let dst := (j.dst + j.row * j.dstride + j.off) % 2 ^ 64
        let next : CopyJob := if j.rowBytes ≤ j.off + n then { j with row := j.row + 1, off := 0 } else { j with off := j.off + n }
        ∀ s₁ s₂ p, engPlaces s₁ c .write dst n = (s₂, .ok [(p, n)]) → engTrafficHeld s₂ c [(p, n)] = false →
          (j.op = 1 → s₁ = s → plain s₂ p n → ∃ t, exec (.copyChunk id) s = .next t ∧ is t { c with body := .copy next } ∧
            wrote s₂ t p ((List.range n).map fun k => BitVec.ofNat 8 (j.src / 256 ^ ((j.off + k) % 8) % 256))) ∧
          (∀ bs, j.op = 0 → engRead s c src n = (s₁, .data bs) → bs.length = n → plain s₂ p n → ∃ t, exec (.copyChunk id) s = .next t ∧
            is t { c with body := .copy next } ∧ wrote s₂ t p bs) ∧
          (∀ bs, j.op = 2 → engRead s c src n = (s₁, .data bs) → bs.length = n → meterHeld s₂ c.part 4 = false → hingeUp s₂.links = true →
            ∃ t, exec (.copyChunk id) s = .next t ∧ is t { c with body := .copy next } ∧ (∀ z, readByte t z = readByte s₂ z) ∧
              ∀ k, 1024 * k < n → ∃ f ∈ t.ms.flights, f.kind = .halo j.htag ∧ f.data = (bs.drop (1024 * k)).take 1024 ∧ f.engine = some id ∧
                f.reads = [⟨p.plus (1024 * k), min 1024 (n - 1024 * k), none, false⟩])) ∧
      (∀ j, c.body = .coll j → j.sent = false →
        (j.nmem ≤ j.next → ∃ t, exec (.copyChunk id) s = .next t ∧ is t { c with body := .coll { j with sent := true, lastMsg := s.time.now } }) ∧
        (j.next < j.nmem → j.next = j.self → ∃ t, exec (.copyChunk id) s = .next t ∧ t.out = s.out ∧
          is t { c with body := .coll { j with next := j.next + 1 } }) ∧
        (j.next < j.nmem → j.next ≠ j.self →
          let cls := if j.mods.getD j.next 0 = s.links.modid then 4 else 5
          (meterHeld s c.part cls = true → exec (.copyChunk id) s = .next s) ∧
          (meterHeld s c.part cls = false → ∃ t, exec (.copyChunk id) s = .next t ∧ .coll id j.attempt j.next (j.sends j.next) ∈ t.out ∧
            is t { c with body := .coll { j with next := j.next + 1 } }))) ∧
      (∀ j, c.body = .coll j → j.sent = true → j.awaits = [] → j.written < elemBytes j.fmt j.dstCount →
        let bs := ((elemsBytes j.fmt j.result).drop j.written).take 4096
        ∀ s₁ p, engPlaces s c .write (j.dst + j.written) bs.length = (s₁, .ok [(p, bs.length)]) →
          engTrafficHeld s₁ c [(p, bs.length)] = false → plain s₁ p bs.length →
          ∃ t, exec (.copyChunk id) s = .next t ∧ is t { c with body := .coll { j with written := j.written + bs.length } } ∧ wrote s₁ t p bs)) ∧
    (c.started = false ∨ c.stopped s = true ∨ unitBusy s id = true ∨ (failedWrite s id = none ∧ meterHeld s c.part 2 = true) →
      exec (.copyChunk id) s = .next s) ∧
    (∀ j x, c.started = true → c.stopped s = false → unitBusy s id = false → failedWrite s id = some x → c.body = .copy j →
      haltCode (setCopy (dropArrived s id) id j.back) c.part c.who.die x.cause x.addr = none →
      ∃ t p, exec (.copyChunk id) s = .next t ∧ is t { c with body := .copy j.back, paused := some p }) ∧
    (∀ j op i, c.body = .coll j → (op, i) ∈ ([(0, .collAllReduce id), (1, .collReduceScatter id), (2, .collAllGather id),
        (3, .collBroadcast id)] : List (Nat × Instr)) → c.engine ≠ noEngine →
      (c.started = true ∨ c.stopped s = true ∨ j.op ≠ op → exec i s = .next s) ∧
      (∀ s₁ s₂ tab bs self, c.started = false → c.stopped s = false → j.op = op → collSpanBad s c.issuer c.part j = none →
        engRead s c j.memtab (8 * j.nmem) = (s₁, .data tab) → (∀ m, m < j.nmem → fieldAt tab (8 * m) 8 < 2048) →
        (List.range j.nmem).find? (fun m => memberOf tab m == (s₁.links.modid, engDie .collective c.engine)) = some self →
        peersReachable s₁ c.who.die tab j.nmem = true →
        let k := { j with self := self, mods := (List.range j.nmem).map fun m => (memberOf tab m).1 }
        engRead s₁ c j.src (elemBytes j.fmt k.srcCount) = (s₂, .data bs) →
        let held := heldFor s₂ c j
        let e := { k with src0 := elemsOf j.fmt k.srcCount bs, heldMsgs := held.filter (fun m => decide (j.attempt < m.attempt))
                          lastMsg := s₂.time.now, sent := decide (op = 3 ∧ self ≠ j.root) }
        ∃ t, exec i s = .next t ∧ (∀ z, readByte t z = readByte s₂ z) ∧ t.out = s₂.out ∧
          t.eng.dropped = s₂.eng.dropped + (held.filter fun m => decide (m.attempt < j.attempt)).length ∧
          is t { c with started := true, body := .coll ((held.filter fun m => decide (m.attempt = j.attempt)).foldl
            (fun j m => takeMsg j s₂.time.now m) e) })) ∧
    (∀ j, c.body = .coll j →
      (∀ attempt member data, (c.started = true → attempt < j.attempt → ∃ t, exec (.collMessageIngress id attempt member data) s = .next t ∧
          t.eng = { s.eng with dropped := s.eng.dropped + 1 }) ∧
        (c.started = false ∨ j.attempt < attempt → ∃ t, exec (.collMessageIngress id attempt member data) s = .next t ∧
          is t { c with body := .coll { j with heldMsgs := j.heldMsgs ++ [⟨attempt, member, data⟩] } }) ∧
        (c.started = true → attempt = j.attempt → member ∈ j.awaits → ∃ t, exec (.collMessageIngress id attempt member data) s = .next t ∧
          is t { c with body := .coll { j with got := j.got ++ [⟨attempt, member, data⟩], lastMsg := s.time.now } }) ∧
        (c.started = false ∨ attempt ≠ j.attempt → exec (.collAbortToken id attempt) s = .next s)) ∧
      let kept (t : State) : Prop := t.cmd? id = none ∧
        ⟨c.id, c.part, c.blockAddr, j.attempt + 1, j.heldMsgs.filter fun m => decide (j.attempt < m.attempt)⟩ ∈ t.eng.bufs
      (c.started = true → ∃ t, exec (.collAbortToken id j.attempt) s = .next t ∧ kept t) ∧
      (c.started = true → j.awaits ≠ [] → j.lastMsg + 1000000 ≤ s.time.now → ∃ t, exec (.collAttemptTimeout id) s = .next t ∧ kept t ∧
        ∀ m, m < j.nmem → m ≠ j.self → .abort c.id j.attempt m ∈ t.out) ∧
      (c.started = false ∨ j.awaits = [] ∨ s.time.now < j.lastMsg + 1000000 → exec (.collAttemptTimeout id) s = .next s)) ∧
    (c.bodyDone s = false ∨ c.paused ≠ none → exec (.chainBlockComplete id) s = .next s) ∧
    (∀ k ch, c.bodyDone s = true → c.paused = none → seqWaits s c = true → c.issuer = .chain k → s.chain? k = some ch → ch.halted = false → exec (.chainBlockComplete id) s = .next (retireRanges s id)) ∧
    (c.bodyDone s = true → c.paused = none → seqWaits s c = false → c.tdec = false →
      ∃ t, exec (.chainBlockComplete id) s = .next t ∧ t.cmd? id = none ∧
      (∀ st a h x, c.issuer = .packet st a h → s.stream? c.part st = some x → t.mem = s.mem ∧
        t.stream? c.part st = some { x with work := x.work.filter fun w => w.ref != .command id } ∧
        ((∃ w ∈ x.work, w.ref = .command id ∧ w.irq = true) → (t.part c.part).istat.testBit st = true)) ∧
      (∀ k ch, c.issuer = .chain k → s.chain? k = some ch → ch.isPrivate = false → ch.owed = [] →
        ∃ d, t.chain? k = some d ∧ d.seq = ch.seq + 1 ∧ d.running = none ∧ (ch.tail ≤ ch.seq + 1 → d.needNext = true ∧ d.head = ch.head) ∧
          (ch.seq + 1 < ch.tail →
            let x := { ch with seq := ch.seq + 1, running := none, needNext := true }
            let u := writeDesc ((dropCmd s id).updChain k fun _ => x) x 16 (bytesOfNum 8 (ch.seq + 1))
            ∀ s₁ h, u.chain? k = some x → readSpan u k x.who ch.head 32 = (s₁, .data h) → fieldAt h 0 8 ≠ 0 → fieldAt h 0 8 % 64 = 0 →
              d.head = fieldAt h 0 8 ∧ d.needNext = false)) ∧
      (∀ core slot ls g, c.issuer = .group core slot ls → s.group? core slot = some g → ∃ h, t.group? core slot = some h ∧
        ∀ l, l < g.lanes.length → h.lane l = { g.lane l with cp := (g.lane l).cp - if l ∈ ls then 1 else 0 }))

/-- Chains (R104, R115 to R119, R122, R123, R125, R432): a chain that waits is attached while its engine serves fewer than 16; one whose TAIL
exceeds SEQ takes NEXT into HEAD where it needs to and reads its next block, whose command then runs, or halts with HALTED and source 258 when
the block or its address is ill-formed; and a halted chain goes on from its descriptor once HALTED is cleared there, unless that is ill-formed.
The corners of chains are read as log entry 41 says (DEDUCED). -/
def Obligations.ChainsRun : Prop :=
  ∀ (s : State) (id : Nat) (c : Chain), s.chain? id = some c → c.loaded = true → c.isPrivate = false → c.owed = [] → failedWrite s id = none →
    let w := whoEngine c.kind c.engine c.part
    let halted (i : Instr) : Prop := ∃ t d, exec i s = .next t ∧ t.chain? id = some d ∧ d.halted = true ∧ d.running = none ∧
      d.seq = c.seq ∧ (c.part < s.parts.length → (t.part c.part).istat.testBit 258 = true)
    (c.halted = true ∨ c.paused ≠ none ∨ c.running ≠ none → c.attached = true → exec (.chainTailSeen id) s = .next s) ∧
    (c.attached = false → c.halted = false → c.engine ≠ noEngine → 16 ≤ chainsAt s c.kind c.engine → exec (.chainTailSeen id) s = .next s) ∧
    (c.attached = false → c.halted = false → c.engine ≠ noEngine → chainsAt s c.kind c.engine < 16 → ∃ t d,
      exec (.chainTailSeen id) s = .next t ∧ t.chain? id = some d ∧ d.attached = true ∧ d.waiting = none ∧ d.engine = c.engine ∧ d.seq = c.seq) ∧
    (∀ s₁ tb, c.attached = true → c.halted = false → c.paused = none → c.running = none → unitAcquire s id w 6 (c.desc + 8) 8 = (s₁, .data tb) →
      let tail := numOfBytes tb
      let seen := s₁.updChain id fun _ => { c with tail := tail }
      (tail ≤ c.seq → ∃ t, exec (.chainTailSeen id) s = .next t ∧ t.chain? id = some { c with tail := tail } ∧ t.eng.cmds = s₁.eng.cmds ∧
        t.mem = s₁.mem) ∧
      (c.seq < tail → c.needNext = true → ∀ s₂ h, readSpan seen id w c.head 32 = (s₂, .data h) →
        let next := fieldAt h 0 8
        (next = 0 ∨ next % 64 ≠ 0 → halted (.chainTailSeen id)) ∧
        (next ≠ 0 → next % 64 = 0 → ∃ t d, exec (.chainTailSeen id) s = .next t ∧ t.chain? id = some d ∧ d.head = next ∧ d.needNext = false ∧
          d.seq = c.seq)) ∧
      (c.seq < tail → c.needNext = false →
        (c.head % 64 ≠ 0 → halted (.chainTailSeen id)) ∧
        (∀ s₂ b₀, c.head % 64 = 0 → readSpan seen id w c.head 64 = (s₂, .data b₀) →
          (∀ code off, byteAt b₀ 9 = 0 ∨ 4 < byteAt b₀ 9 → kindChecks c.kind b₀ = some (code, off) → halted (.chainTailSeen id)) ∧
          (∀ s₃ b, 0 < byteAt b₀ 9 → byteAt b₀ 9 ≤ 4 → readSpan s₂ id w c.head (64 * byteAt b₀ 9) = (s₃, .data b) →
            (∀ code off, kindChecks c.kind b = some (code, off) → halted (.chainTailSeen id)) ∧
            (kindChecks c.kind b = none → ∃ t d, exec (.chainTailSeen id) s = .next t ∧ t.eng.cmds = s₃.eng.cmds ++ [d] ∧
              d.issuer = .chain id ∧ d.kind = c.kind ∧ d.engine = c.engine ∧ d.part = c.part ∧ d.blockAddr = c.head ∧
              d.body = kindBody c.kind b ∧ d.started = false ∧
              t.chain? id = some { c with tail := tail, running := some d.id } ∧ t.mem = s₃.mem))))) ∧
    (c.halted = false ∨ c.paused ≠ none → exec (.chainResume id) s = .next s) ∧
    (∀ s₁ b, c.halted = true → c.paused = none → unitAcquire s id w 6 c.desc 64 = (s₁, .data b) →
      (byteAt b 34 % 2 = 1 → ∃ t, exec (.chainResume id) s = .next t ∧ t.eng = s₁.eng ∧ t.mem = s₁.mem) ∧
      (byteAt b 34 % 2 = 0 →
        let took (d : Chain) : Prop := d.head = fieldAt b 0 8 ∧ d.tail = fieldAt b 8 8 ∧ d.seq = fieldAt b 16 8 ∧ d.errAddr = fieldAt b 24 8 ∧
          d.scope = byteAt b 33 ∧ d.needNext = decide (byteAt b 34 / 4 % 2 = 1)
        let checks := descChecks b (need (byteAt b 32 = c.kind.code) errKind 32) fun st => decide (st < 8)
        ∃ t d, exec (.chainResume id) s = .next t ∧ t.chain? id = some d ∧ took d ∧ d.halted = decide (checks ≠ none)))

/-! ## Events of units -/

/-- Matrix jobs and the Blend unit at work (R116, R437 to R445, R449 to R452): a block's card starts a job; a card that is read starts the
accumulators or, ill-formed, ends the job; a K-step adds one block product to each element; the results go to the registers of the declared
groups and the job leaves. A tile that closes accepts its rows, whose lanes go on; an accepted row's result lands in its lane, and one whose team has moved takes its descriptor and inputs again (R339).
The corners of matrix jobs and the Blend unit, the PC of a tile's record among them, are read as log entries 42 and 43 say. -/
def Obligations.MatrixAndBlendRun : Prop :=
  ∀ (s : State) (id : Nat),
    (∀ c card, s.cmd? id = some c → c.body = .matrix card →
      (c.started = true ∨ c.paused ≠ none → exec (.matrixBlock id) s = .next s) ∧
      (c.started = false → c.paused = none → ∃ t j, exec (.matrixBlock id) s = .next t ∧ t.render.jobs = s.render.jobs ++ [j] ∧
        t.cmd? id = some { c with started := true } ∧ t.mem = s.mem ∧ j.core = c.engine ∧ j.part = c.part ∧ j.cmd = some id ∧
        j.card = some card ∧ j.step = 0 ∧ j.accs = [] ∧ j.paused = none)) ∧
    (∀ j, s.job? id = some j →
      let w : Who := ⟨dieOfCore j.core, some j.core, j.part, 2, false⟩
      let fs := if j.cmd.isSome then [] else (jobRecord s j).fs
      (jobMayRun s j = false → exec (.matrixKstep id) s = .next s ∧ (j.card ≠ none → exec (.matrixJobComplete id) s = .next s)) ∧
      (∀ s₁ b, jobMayRun s j = true → j.card = none → unitRead s id w .read j.cardAddr 128 = (s₁, .data b) →
        (∀ code off, j.cmd = none → j.id < s.fresh → cardChecks b fs false = some (code, off) → (b.getD 53 0).getLsbD 5 = false →
          ∃ t, exec (.matrixKstep id) s = .next t ∧ t.job? id = none ∧ (j.part < s.parts.length → (t.part j.part).istat.testBit 258 = true)) ∧
        (cardChecks b fs j.cmd.isSome = none → (cardOf b fs).acc = false → (cardOf b fs).mem = true → ∃ t, exec (.matrixKstep id) s = .next t ∧
          t.job? id = some { j with card := some b, accs := List.replicate (j.ranks * (cardOf b fs).nt) (List.replicate 1024 0) })) ∧
      (∀ s₁ b d, jobMayRun s j = true → j.card = some b → j.accs ≠ [] → j.step < (cardOf b fs).total →
        let c := cardOf b fs
        let as := (List.range j.ranks).map fun r => spansA c j.step r
        let bs := (List.range c.nt).map fun t => spansB c j.step t
        let at_ (k : Nat) : List (List Byte) := (d.drop ((as ++ bs).take k).flatten.length).take ((as ++ bs).getD k []).length
        unitReads s id w .read (as ++ bs).flatten = (s₁, .ok d) → ∃ t k, exec (.matrixKstep id) s = .next t ∧ t.job? id = some k ∧
          k.step = j.step + 1 ∧ k.card = j.card ∧ k.regs = j.regs ∧ k.accs.length = j.ranks * c.nt ∧
          ∀ n, n < j.ranks * c.nt → k.accs.getD n [] =
            (stepTile c.split (j.accs.getD n []) (tileA c.fmtA (at_ (n / c.nt))) (tileB c.fmtB (at_ (j.ranks + n % c.nt)))).1) ∧
      (∀ b g, jobMayRun s j = true → j.card = some b → j.accs ≠ [] → j.cmd = none → j.id < s.fresh →
        let c := cardOf b fs
        let r := j.regs.getD 0 default
        let o := r.base + 128 * c.dst
        (j.step < c.total → exec (.matrixJobComplete id) s = .next s) ∧
        (j.step = c.total → c.mem = false → j.ranks = 1 → c.nt = 1 → unitBusy s id = false → failedWrite s id = none → s.groupAt j.team r.group = some g →
          s.group? g.core g.slot = some g → (∀ h ∈ s.groups, ∀ x ∈ h.lanes, x.home = none) → g.lanes.length = 32 →
          o + (if c.split then 256 else 128) ≤ g.rsize →
          ∃ t h, exec (.matrixJobComplete id) s = .next t ∧ t.job? id = none ∧ t.mem = s.mem ∧ t.group? g.core g.slot = some h ∧
            ∀ i, i < 32 → (h.lane i).regs = if (g.lane i).exited then (g.lane i).regs else
              (g.lane i).regs.writeBytes o (rowData c ((jobResults s j c).getD 0 []) i))) ∧
      (∀ b, jobMayRun s j = true → j.card = some b → j.accs ≠ [] → (cardOf b fs).total < j.step → j.cmd ≠ none → unitBusy s id = false → failedWrite s id = none →
        ∃ t, exec (.matrixJobComplete id) s = .next t ∧ t.job? id = none)) ∧
    (∀ x, s.tile? id = some x →
      let w : Who := ⟨dieOfCore x.core, some x.core, x.part, 3, false⟩
      let due := x.desc = none ∧ (32 ≤ x.rows.length ∨ x.opened + max 1 x.win ≤ s.time.cycle)
      (¬due → exec (.blendTileClose id) s = .next s) ∧
      (∀ s₁ s₂ b, due → unitRead s id w .read x.handle 256 = (s₁, .data b) →
        let n := netOf b (gridSlots s x.grid)
        netBad b (gridSlots s x.grid) = false → (∀ r ∈ x.rows, rowPast s n r = false) →
        checkSpans (dropArrived s₁ id) w n.spans.flatten = (s₂, none) → (x.rows.map fun r => (r.core, r.slot, r.lane)).Nodup →
        ∃ t y, exec (.blendTileClose id) s = .next t ∧ t.tile? id = some y ∧ y.desc = some b ∧ t.mem = s₂.mem ∧
          y.rows.map (fun r => { r with inputs := none }) = x.rows.map (fun r => { r with inputs := none }) ∧
          ∀ r ∈ x.rows, ∀ g, s.group? r.core r.slot = some g → r.lane < g.lanes.length →
            { r with inputs := some ((List.range n.iw).map fun j => (g.lane r.lane).regs.readN (r.src + 4 * j) 4) } ∈ y.rows ∧
            ∃ h, t.group? r.core r.slot = some h ∧ (h.lane r.lane).pc = (g.lane r.lane).pc + 8 ∧
              (h.lane r.lane).mx = (g.lane r.lane).mx + 1 ∧ (h.lane r.lane).regs = (g.lane r.lane).regs)) ∧
    (∀ x r b g s₁ d, s.render.tiles.find? (fun x => x.rows.any fun r => r.id == id) = some x → x.rows.find? (fun r => r.id == id) = some r →
      x.desc = some b → x.ran = true → s.group? r.core r.slot = some g → r.lane < g.lanes.length →
      let n := netOf b (gridSlots s x.grid)
      let ids := (s.render.tiles.map BlendTile.id).Nodup
      (rowRuns s r = false → exec (.blendRowWriteback id) s = .next s) ∧
      (∀ s₂ new, rowRuns s r = true → r.inputs = none → ids → unitRead s id x.who .read x.handle 256 = (s₂, .data new) →
        let k := netOf new (gridSlots s x.grid)
        netBad new (gridSlots s x.grid) = false → rowPast s k r = false → ∃ t y, exec (.blendRowWriteback id) s = .next t ∧ t.mem = s₂.mem ∧
          t.tile? x.id = some y ∧ y.desc = some new ∧
          { r with inputs := some ((List.range k.iw).map fun j => (g.lane r.lane).regs.readN (r.src + 4 * j) 4) } ∈ y.rows) ∧
      (rowRuns s r = true → r.inputs ≠ none → unitReads s id x.who .read n.spans.flatten = (s₁, .ok d) → ∃ t h, exec (.blendRowWriteback id) s = .next t ∧ t.group? r.core r.slot = some h ∧
        let ys := rowResults n (some (cutLike n.spans d)) (r.inputs.getD [])
        (h.lane r.lane).mx = (g.lane r.lane).mx - 1 ∧ (h.lane r.lane).pc = (g.lane r.lane).pc ∧
        (h.lane r.lane).regs = (if r.dst + 4 * ys.length ≤ g.rsize then
          (g.lane r.lane).regs.writeBytes r.dst (ys.flatMap (bytesOfNum 4)) else (g.lane r.lane).regs) ∧
        (ids → ∀ y ∈ t.render.tiles, y.id = x.id → ∀ v ∈ y.rows, v.id ≠ id)))

/-- The Strainer at work (R41, R302, R305 to R311, R316, R317): a pass latches what is in force and takes the pixels of its own tiles; a pixel is
opened, its candidates are merged one by one, an invalid one with target value 0, and its record joins the results; a visibility ray's hit drops
its candidate; a pass whose backing region is gone fails (R301); the results are written as records; and an advance puts the frame and the written registers of its die in force.
The corners of a pass are read as log entry 49 says (DEDUCED), and the evaluator's lane is a free value (log entry 18). -/
def Obligations.StrainerRuns : Prop :=
  ∀ (s : State) (id : Nat) (c : EngCmd) (j : StrainJob), s.cmd? id = some c → c.body = .strainer j →
    let q := s.part c.part
    let die := engDie c.kind c.engine
    let with_ (k : StrainJob) : EngCmd := { c with body := .strainer k }
    let mode := byteAt j.bytes 8
    (c.started = true ∨ c.stopped s = true ∨ mode = 1 → exec (.strainerPass id) s = .next s) ∧
    (c.started = false → c.stopped s = false → mode ≠ 1 →
      let v := screenOn q die
      let k := { j with die := die, frame := q.res.frame die, tcols := v.tcols, trows := v.trows, bandw := v.bandw, halod := v.halod }
      let tiles := ownTiles k die
      (v.tcols < j.tx0 + j.ntx ∨ v.trows < j.ty0 + j.nty ∨ (tiles ≠ [] ∧ q.res.back die = 0) →
        ∃ t, exec (.strainerPass id) s = .next t ∧ t.cmd? id = none) ∧
      (∀ s₁ ws, j.tx0 + j.ntx ≤ v.tcols → j.ty0 + j.nty ≤ v.trows → (tiles = [] ∨ q.res.back die ≠ 0) →
        readCallable s c j.call = (s₁, .ok (.ok ws)) → ∃ t, exec (.strainerPass id) s = .next t ∧ t.mem = s₁.mem ∧
          t.cmd? id = some { with_ { k with words := ws, pixels := tiles.flatMap fun x => (List.range 256).map (pixOf x.1 x.2) } with
            started := true })) ∧
    (c.started = false ∨ c.stopped s = true → exec (.strainerPixel id) s = .next s ∧ exec (.strainerPassComplete id) s = .next s) ∧
    (c.started = true → c.stopped s = false →
      (∀ pix rest, j.work = none → j.pixels = pix :: rest → meterHeld s c.part 3 = false → q.res.back j.die = 0 →
        ∃ t, exec (.strainerPixel id) s = .next t ∧ t.cmd? id = none) ∧
      (∀ s₁ w pix rest, j.work = none → j.pixels = pix :: rest → meterHeld s c.part 3 = false → openPixel s c j pix = (s₁, .ok w) →
        ∃ t, exec (.strainerPixel id) s = .next t ∧ t.mem = s₁.mem ∧ t.cmd? id = some (with_ { j with work := some w })) ∧
      (∀ w, j.work = some w → w.testing = none →
        (w.cands.length ≤ w.pos →
          let rcd := if (byteAt j.bytes 42).testBit 2 then resNorm w.rcd else w.rcd
          ∃ t, exec (.strainerPixel id) s = .next t ∧ t.mem = s.mem ∧
            t.cmd? id = some (with_ { j with work := none, pixels := j.pixels.drop 1, results := j.results ++ [(w.pix, rcd)] })) ∧
        (∀ x, w.cands[w.pos]? = some x → x.1.valid = false →
          let rcd := resMerge w.rcd x.1 0 x.2 w.pix j.key j.mcap
          ∃ t, exec (.strainerPixel id) s = .next t ∧ t.mem = s.mem ∧
            t.cmd? id = some (with_ { j with work := some { w with rcd := rcd, pos := w.pos + 1, testing := none } }))) ∧
      (∀ w r pc rid x, j.work = some w → w.testing = some (pc, rid) → w.cands[w.pos]? = some x → s.ray? rid = some r → r.owner = .strainer id →
        (r.state ≠ .done → exec (.strainerVisRayResult rid) s = .next s) ∧
        (r.state = .done →
          let lost : Bool := r.flags.testBit 18 || r.flags.testBit 20 || r.flags.testBit 21
          let merged := resMerge w.rcd x.1 pc x.2 w.pix j.key j.mcap
          let rcd := if r.hit.isSome then w.rcd else if lost then w.rcd.setFlag 3 else merged
          ∃ t, exec (.strainerVisRayResult rid) s = .next t ∧ t.mem = s.mem ∧ t.ray? rid = none ∧
            t.cmd? id = some (with_ { j with work := some { w with pos := w.pos + 1, testing := none, rcd := rcd } }))) ∧
      (∀ s₁ pix r m, j.pixels = [] → j.work = none → j.results = [(pix, r)] → j.sent = false → unitBusy s id = false → failedWrite s id = none →
        q.res.back j.die ≠ 0 → engPlaces s c .write (recordAddr (q.res.back j.die) j.screen (physPlane 0 j.frame) (pix % 65536 / 16) (pix / 65536 / 16)
          (16 * (pix / 65536 % 16) + pix % 65536 % 16)) 32 = (s₁, .ok [(.phys m, 32)]) →
        engTrafficHeld s₁ c [(.phys m, 32)] = false → s₁.links.reach c.who.die (.phys m) = .here →
        (∀ k, k < 32 → regionOf s₁.links (m + k) ≠ .outside ∧ regionOf s₁.links (m + k) ≠ .host ∧ ∀ d, regionOf s₁.links (m + k) ≠ .chip d) →
        detmWriter s₁ (cmdGroup c).1 (cmdGroup c).2 = none → ∃ t, exec (.strainerPassComplete id) s = .next t ∧
          t.cmd? id = some (with_ { j with results := [] }) ∧
          ∀ z, z.own s₁ → readByte t z = (storedAt (.phys m) r.toBytes z).getD (readByte s₁ z)) ∧
      (j.pixels = [] → j.work = none → j.results = [] → unitBusy s id = false → failedWrite s id = none → seqWaits s c = false → c.tdec = false →
        ∃ t, exec (.strainerPassComplete id) s = .next t ∧ t.cmd? id = none)) ∧
    (c.started = true ∨ c.stopped s = true ∨ mode ≠ 1 → exec (.strainerAdvance id) s = .next s) ∧
    (c.started = false → c.stopped s = false → mode = 1 → c.tdec = false → seqWaits s c = false → c.part < s.parts.length → ∃ t, exec (.strainerAdvance id) s = .next t ∧
      t.cmd? id = none ∧
      let r := (t.part c.part).res
      let force (v : PerDie) : PerDie := if die = 0 then { v with die0 := v.written } else { v with die1 := v.written }
      r.geom = force q.res.geom ∧ (t.part c.part).screenBandw = force q.screenBandw ∧ (t.part c.part).screenHalod = force q.screenHalod ∧
      (if die = 0 then r.frame0 = fieldAt j.bytes 32 4 ∧ r.phase0 = byteAt j.bytes 36 % 16 ∧ r.frame1 = q.res.frame1 ∧ r.phase1 = q.res.phase1
       else r.frame1 = fieldAt j.bytes 32 4 ∧ r.phase1 = byteAt j.bytes 36 % 16 ∧ r.frame0 = q.res.frame0 ∧ r.phase0 = q.res.phase0))

/-- The traversal unit, the march unit and the light walker at work (R260 to R275, R281 to R283, R319 to R321, R456, R458, R459): a record is read
and tested; a fault pauses the unit (cause 1) or ends the work with its cause; a result is written to its lane, whose `mx` entry falls, and a
calling lane goes on, at its home (R278). A ray ends at 4,096 steps with RAYLIM (R270).
The corners of the units are read as log entries 45, 47 and 48 say. -/
def Obligations.SceneUnitsRun : Prop :=
  ∀ (s : State) (id : Nat),
    let wrote (t : State) (core slot l : Nat) (g : Group) (dest : Option (Nat × Nat)) (bs : List Byte) (len : Nat) : Prop :=
      ∃ h, t.group? core slot = some h ∧ (h.lane l).mx = (g.lane l).mx - 1 ∧ (h.lane l).pc = (g.lane l).pc + BitVec.ofNat 64 len ∧
        (h.lane l).regs = match dest with
          | some (a, n) => if a + n ≤ g.rsize then (g.lane l).regs.writeBytes a (bs.take n) else (g.lane l).regs
          | none => (g.lane l).regs
    (∀ r, s.ray? id = some r →
      (r.state ≠ .walk ∨ rayRuns s r = false → exec (.rayNodeRead id) s = .next s) ∧
      (∀ a isRef rest, r.state = .walk → rayRuns s r = true → r.page = none → r.stack = (a, isRef) :: rest →
        (∀ s₁ b, unitRead s id ⟨dieOfCore r.core, some r.core, r.part, 5, false⟩ .read a 64 = (s₁, .data b) →
          let u := { r with steps := r.steps + 1, stack := rest }
          ∃ t, exec (.rayNodeRead id) s = .next t ∧ t.mem = s₁.mem ∧ t.groups = s.groups ∧
            (isRef = false → t.ray? id = some (((u.setIf (boxChildren r.line a b).2 20).push ((boxChildren r.line a b).1.map Prod.snd)).settle)) ∧
            (isRef = true → refBad b = true → t.ray? id = some (u.set 20).settle) ∧
            (isRef = true → refBad b = false → refProc b = false → ∃ v, t.ray? id = some v ∧ v.steps = r.steps + 1 ∧
              (4096 ≤ r.steps + 1 → v.state = .done ∧ v.page = none ∧ v.flags.testBit 18 = true) ∧
              (r.steps + 1 < 4096 → v.state = .walk ∧ ∃ k, v.page = some k ∧ k.ref = a ∧ k.bytes = b ∧ k.opened = false))) ∧
        (∀ s₁ cause lv x, unitRead s id ⟨dieOfCore r.core, some r.core, r.part, 5, false⟩ .read a 64 = (s₁, .fault cause lv x) →
          ∃ t v, exec (.rayNodeRead id) s = .next t ∧ t.ray? id = some v ∧
            (cause = 1 → ∃ k, v = { r with state := .faulted k } ∧ k.cause = 1 ∧ k.addr = x) ∧
            (cause ≠ 1 → v.state = .done ∧ v.flags.testBit 21 = true ∧ v.hit = r.hit ∧ (cause < 256 → v.flags / 16777216 = cause)))) ∧
      (∀ core slot l g, r.owner = .lane core slot l → s.group? core slot = some g → l < g.lanes.length →
        (r.state ≠ .done → exec (.rayResultWrite id) s = .next s) ∧
        (∀ bs, ((∃ a, r.dest = some (a, 4)) → bs = bytesOfNum 4 r.word) → ((∀ a, r.dest ≠ some (a, 4)) → bs = r.result) → r.state = .done →
          rayRuns s r = true → ∃ t, exec (.rayResultWrite id) s = .next t ∧ t.ray? id = none ∧ t.mem = s.mem ∧
          (r.calling = false ∨ (g.lane l).home = none → wrote t core slot l g r.dest bs (if r.calling then 8 else 0)) ∧
          (∀ h k, r.calling = true → (g.lane l).home = some h → (swapBack s core slot l).group? core h = some k → l < k.lanes.length →
            wrote t core h l k r.dest bs 8)))) ∧
    (∀ m g, s.march? id = some m → s.group? m.core m.slot = some g → m.lane < g.lanes.length →
      let ended (t : State) (status cells : Nat) : Prop := t.march? id = none ∧
        wrote t m.core m.slot m.lane g (some (m.dest, 128)) (eventBytes [] 2 0 [] (m.status ||| status) cells) 0
      (laneUnitRuns s m.core m.slot = false ∨ m.state = .landed → exec (.marchEvent id) s = .next s) ∧
      (laneUnitRuns s m.core m.slot = true → m.state = .run →
        ((m.geom.bad = true ∨ m.grid % 64 ≠ 0) → ∃ t, exec (.marchEvent id) s = .next t ∧ ended t (2 ^ 20) m.cells) ∧
        (∀ s₁ b, m.geom.bad = false → m.grid % 64 = 0 → m.cell = none →
          unitRead s id ⟨dieOfCore m.core, some m.core, m.part, 5, false⟩ .read m.grid 64 = (s₁, .data b) →
          (gridBad b = true → ∃ t, exec (.marchEvent id) s = .next t ∧ ended t (2 ^ 20) m.cells) ∧
          (gridBad b = false → (gridOfBytes b).firstCell m.line = none → ∃ t, exec (.marchEvent id) s = .next t ∧ ended t 0 m.cells) ∧
          (∀ c, gridBad b = false → (gridOfBytes b).firstCell m.line = some c → m.cells < 65536 → ∃ t, exec (.marchEvent id) s = .next t ∧
            t.groups = s.groups ∧ t.march? id = some { m with cell := some c, cells := m.cells + 1, state := .run })))) ∧
    (∀ w g, s.walk? id = some w → s.group? w.core w.slot = some g → w.lane < g.lanes.length →
      (laneUnitRuns s w.core w.slot = false → exec (.lwalkNodeRead id) s = .next s) ∧
      (∀ s₁ b, laneUnitRuns s w.core w.slot = true →
        unitRead s id ⟨dieOfCore w.core, some w.core, w.part, 3, false⟩ .read ((w.base + 128 * w.node) % 2 ^ 64) 128 = (s₁, .data b) →
        let returns (emitter pdf draws : Nat) : Prop := ∃ t, exec (.lwalkNodeRead id) s = .next t ∧ t.walk? id = none ∧
          wrote t w.core w.slot w.lane g (w.dest.map fun a => (a, 8)) (bytesOfNum 4 emitter ++ bytesOfNum 4 pdf) 4 ∧
          ∃ h, t.group? w.core w.slot = some h ∧ (h.lane w.lane).rngPos = (g.lane w.lane).rngPos + BitVec.ofNat 64 draws
        (lightBad b = true → returns 0xFFFFFFFF 0 w.draws) ∧
        (∀ k, k < 2 → lightBad b = false → fieldAt b (64 * (1 - k) + 36) 4 = 0xFFFFFFFF →
          let ref := fieldAt b (64 * k + 36) 4
          (2 ^ 31 ≤ ref → returns (ref % 2 ^ 31) (mul32 w.pdf 0x3F800000) w.draws) ∧
          (ref < 2 ^ 31 → w.depth = 63 → returns 0xFFFFFFFF 0 w.draws) ∧
          (ref < 2 ^ 31 → w.depth < 63 → ∃ t, exec (.lwalkNodeRead id) s = .next t ∧ t.groups = s.groups ∧
            t.walk? id = some { w with node := ref, depth := w.depth + 1, pdf := mul32 w.pdf 0x3F800000 }))))

/-! ## Events of the Deadbolt and the scheduler -/

/-- The Deadbolt (R145, R333, R335, R337, R338, R342, R345, R146, R184): a request that is open stops the team; one under a mask is latched, and
taken at its deadline outside deterministic mode; a rollback is counted, and the third aborts the grid. The states follow each other; the shadows
drain their queues; the scan waits for copies into the scratchpad and for room, and writes the image, or, where it meets poison, retires the core
and rolls back; the close waits for the team's accesses, completes the image, and leaves the team PENDING after a cut, running after a checkpoint,
as its checkpoint has it after a rollback, and ready for its copy in a migration.
Where images stand and when requests are taken are the model's (log entries 14, 57), and a scan that reads poison is read as log entry 68 says. -/
def Obligations.Deadbolts : Prop :=
  ∀ (s : State) (team : Nat) (tm : Team), s.team? team = some tm →
    let only (t : State) (u : Team) : Prop := { t with teams := s.teams } = s ∧ t.team? team = some u ∧ ∀ k, k ≠ team → t.team? k = s.team? k
    let begun (k : DbKind) : Team := { tm with
      db := .drainShd, dbKind := k, latched := (match k with | .cut | .migrate => none | _ => tm.latched), due := tm.due && decide (k ≠ .checkpoint),
      state := (match k with | .cut => .stopping | .migrate => .migrating | _ => tm.state) }
    let reaches (i : Instr) (u : Team) : Prop := ∃ t, exec i s = .next t ∧ only t u
    let due := s.time.now + predlTicks s tm.part
    let image (t : State) (a : Nat) (checkpoint : Bool) (ps : List Piece) : Prop :=
      t.mem = writePieces (s.mem.clear a (sectionsOf s tm).len) a ps ∧
      ∃ x ∈ t.images, x.team = team ∧ x.checkpoint = checkpoint ∧ x.addr = a ∧ x.len = (sectionsOf s tm).len ∧ x.written = true
    (tm.db = .idle → tm.state = .placed → tm.latched = none →
      ((s.part tm.part).sch.ctx.log2 = 0 → ∀ k, k ≠ .migrate → exec (.deadboltRequest team k) s = .next s) ∧
      ((s.part tm.part).sch.ctx.log2 ≠ 0 →
        (latchOpen s tm = true → reaches (.deadboltRequest team .cut) { begun .cut with dest := none }) ∧
        (latchOpen s tm = false → reaches (.deadboltRequest team .cut) { tm with dest := none, latched := some (.cut, due) }) ∧
        ((s.part tm.part).setup.rollback = true → reaches (.deadboltRequest team .checkpoint) (begun .checkpoint) ∧
          (tm.repeatable = true → tm.rollbacks < 2 → ∃ t, exec (.deadboltRequest team .rollback) s = .next t ∧
            t.team? team = some { begun .rollback with rollbacks := tm.rollbacks + 1 } ∧ t.groups = s.groups ∧ t.mem = s.mem) ∧
          (tm.repeatable = false ∨ 2 ≤ tm.rollbacks → s.grid? tm.grid ≠ none → ∃ t, exec (.deadboltRequest team .rollback) s = .next t ∧
            (∀ x ∈ t.teams, x.grid ≠ tm.grid) ∧ ∀ x ∈ t.grids, x.id ≠ tm.grid)) ∧
        ((s.part tm.part).setup.rollback = false → exec (.deadboltRequest team .checkpoint) s = .next s ∧
          exec (.deadboltRequest team .rollback) s = .next s)) ∧
      (tm.dest = none → exec (.deadboltRequest team .migrate) s = .next s) ∧
      (tm.dest ≠ none → latchOpen s tm = true → reaches (.deadboltRequest team .migrate) (begun .migrate)) ∧
      (tm.dest ≠ none → latchOpen s tm = false → reaches (.deadboltRequest team .migrate) { tm with latched := some (.migrate, due) })) ∧
    (∀ k d, tm.latched = some (k, d) → tm.db = .idle → tm.state = .placed →
      (latchOpen s tm = true → reaches (.deadboltRequest team k) (begun k)) ∧
      (d ≤ s.time.now → teamDetm s tm = false → reaches (.preemptDeadlineExpire team) (begun k)) ∧
      (s.time.now < d ∨ teamDetm s tm = true → exec (.preemptDeadlineExpire team) s = .next s)) ∧
    (tm.latched = none → exec (.preemptDeadlineExpire team) s = .next s) ∧
    (tm.db = .drainShd → (shadowsDrained s team = true → reaches (.shadowQueuesEmpty team) { tm with db := .freeze }) ∧
      (shadowsDrained s team = false → exec (.shadowQueuesEmpty team) s = .next s)) ∧
    (tm.db ≠ .drainShd → exec (.shadowQueuesEmpty team) s = .next s) ∧
    (tm.db ≠ .freeze → exec (.deadboltFreeze team) s = .next s) ∧
    (tm.db = .freeze → ∃ t, exec (.deadboltFreeze team) s = .next t ∧ { t with teams := s.teams, render := s.render } = s ∧
      t.team? team = some { tm with db := .scan, state := if tm.dbKind = .cut then .saving else tm.state, frozenAt := s.time.now } ∧
      (tm.dbKind ≠ .rollback → (let r := t.render; { r with walks := s.render.walks } = s.render)) ∧
      (tm.dbKind = .rollback → t.render.pixels = s.render.pixels ∧ ∀ g ∈ s.groupsOf team, ∀ r ∈ t.render.rays,
        r.goesWith s.render.marches (fun c k => g.isAt c k) = false)) ∧
    (tm.db ≠ .scan → exec (.deadboltScanDone team) s = .next s ∧ exec (.saveAreaAvailable team) s = .next s) ∧
    (tm.db = .scan →
      let cp := decide (tm.dbKind = .checkpoint)
      let room := areaPlace s tm.part team cp (sectionsOf s tm).len
      (copyRecorded s tm = true → exec (.deadboltScanDone team) s = .next s) ∧
      (copyRecorded s tm = false → tm.dbKind = .migrate ∨ tm.dbKind = .rollback → reaches (.deadboltScanDone team) { tm with db := .complete }) ∧
      (copyRecorded s tm = false → tm.dbKind = .cut ∨ tm.dbKind = .checkpoint → imagePoison s tm 0 ≠ [] → rollbackOn s tm.part = true →
        tm.repeatable = true → tm.rollbacks < 2 → ∃ t u, exec (.deadboltScanDone team) s = .next t ∧ t.team? team = some u ∧ u.db = .drainShd ∧
          u.dbKind = .rollback ∧ u.rollbacks = tm.rollbacks + 1 ∧ (tm.core ∈ t.retiring ∨ tm.core ∈ s.disabledCores)) ∧
      (copyRecorded s tm = false → tm.dbKind = .cut ∨ tm.dbKind = .checkpoint → imagePoison s tm 0 = [] →
        (room = none → exec (.saveAreaAvailable team) s = .next s ∧ ∃ t, exec (.deadboltScanDone team) s = .next t ∧
          { t with parts := s.parts } = s ∧ (tm.part < s.parts.length → (s.part tm.part).sch.vacating ≠ [] →
            (t.part tm.part).sch.peState = 3)) ∧
        (∀ a, room = some a → ∃ t, exec (.deadboltScanDone team) s = .next t ∧ exec (.saveAreaAvailable team) s = .next t ∧
          t.team? team = some { tm with db := .complete } ∧ t.groups = s.groups ∧ image t a cp (bodyPieces s tm)))) ∧
    (tm.db ≠ .complete → exec (.deadboltDrainDone team) s = .next s) ∧
    (tm.db = .complete → teamBusy s team = true ∨ copyRecorded s tm = true → exec (.deadboltDrainDone team) s = .next s) ∧
    (tm.db = .complete → teamBusy s team = false → copyRecorded s tm = false → (∀ g ∈ s.groupsOf team, ∀ l, l < 32 → (s.lane g.core g.slot l).home = none) →
      (tm.dbKind = .migrate → reaches (.deadboltDrainDone team) { tm with db := .close }) ∧
      (tm.dbKind = .checkpoint → ∃ t, exec (.deadboltDrainDone team) s = .next t ∧ t.groups = s.groups ∧
        t.team? team = some { tm with
          db := .idle, state := .placed, dest := (match tm.latched with | some (.migrate, _) => tm.dest | _ => none) } ∧
        image t (imageAddr s tm) true (bodyPieces s tm ++ headerPieces s tm true)) ∧
      (tm.dbKind = .cut → ∃ t u, exec (.deadboltDrainDone team) s = .next t ∧ t.team? team = some u ∧ u.state = .pending ∧ u.db = .idle ∧
        u.latched = none ∧ u.dest = none ∧ u.core = parkedCore team ∧ u.grid = tm.grid ∧ u.linear = tm.linear ∧ u.keyrings = tm.keyrings ∧
        (∀ f ∈ t.fwd, f.team ≠ team) ∧ image t (imageAddr s tm) false (bodyPieces s tm ++ headerPieces s tm false) ∧
        ∀ g ∈ s.groupsOf team, (∀ h ∈ s.groupsOf team, h.slot = g.slot → h = g) →
          ∃ h ∈ t.groups, h = { g with
            core := parkedCore team, slot := g.index, shadow := none, active := false, slowSince := s.time.now, current := false, inStore := false,
            lanes := g.lanes.map (Lane.regather s.render.tiles) }) ∧
      (tm.dbKind = .rollback → s.checkpoint? team = none → s.grid? tm.grid ≠ none → ∃ t, exec (.deadboltDrainDone team) s = .next t ∧
        (∀ x ∈ t.teams, x.grid ≠ tm.grid) ∧ ∀ x ∈ t.grids, x.id ≠ tm.grid) ∧
      (∀ i slots, tm.dbKind = .rollback → s.checkpoint? team = some i → i.written = false → checkpointSlots s tm i = some slots →
        checkpointFits s tm i = true → (∀ g ∈ i.groups, g.team = team) → (i.groups.map Group.slot).Nodup →
        ∃ t u, exec (.deadboltDrainDone team) s = .next t ∧ t.team? team = some u ∧ u.db = .idle ∧ u.state = .placed ∧ u.repeatable = true ∧
          u.keyrings = i.record.keyrings ∧ u.slots = slots.map Prod.fst ∧ t.mem = s.mem ∧ t.scratch = s.scratch ∧
          (∀ h ∈ t.groups, h.team = team → ∃ g ∈ i.groups, h.index = g.index) ∧
          ∀ (k : Nat) (g : Group) (sl : Nat × Option Nat), i.groups[k]? = some g → slots[k]? = some sl → ∃ h ∈ t.groups, h = { g with
            core := tm.core, slot := sl.1, shadow := sl.2, active := false, slowSince := s.time.now, current := false, inStore := false,
            readyAt := s.fresh }))

/-- Migration (R138, R139): the eligible team of the highest linear index freezes for a core of its partition on its die that holds nothing;
its copy done, it resumes there, with its groups, registers and scratchpad, and its old core forwards for 64 µs. A message that meets an entry
goes to the team, and one that meets none is dropped.
When requests are taken is read as log entry 57 says (DEDUCED). -/
def Obligations.Migrations : Prop :=
  ∀ (s : State) (team core : Nat) (tm : Team), s.team? team = some tm →
    let due := s.time.now + predlTicks s tm.part
    let eligible := mayMigrate s tm core = true ∧ ∀ u ∈ s.teams, u.core = tm.core → mayMigrate s u core = true → u.linear ≤ tm.linear
    ((s.part tm.part).sch.migen = false ∨ tm.state ≠ .placed ∨ tm.db ≠ .idle ∨ tm.latched ≠ none ∨ dieOfCore tm.core ≠ dieOfCore core ∨ s.therm.trip = true ∨
      ownsCore (s.part tm.part).setup core = false ∨ (∃ u ∈ s.teams, u.core = core) ∨ copyRecorded s tm = true ∨
      (∃ gr, s.grid? tm.grid = some gr ∧ gr.rcd.cluster ≠ 1) ∨ (∃ u ∈ s.teams, u.core = tm.core ∧ mayMigrate s u core = true ∧ tm.linear < u.linear) →
        exec (.migrationStart team core) s = .next s) ∧
    (eligible → ∃ t u, exec (.migrationStart team core) s = .next t ∧ { t with teams := s.teams } = s ∧ t.team? team = some u ∧
      (latchOpen s tm = true → u = { tm with dest := some core, db := .drainShd, dbKind := .migrate, state := .migrating, latched := none }) ∧
      (latchOpen s tm = false → u = { tm with dest := some core, latched := some (.migrate, due) })) ∧
    (tm.db ≠ .close → exec (.migrationCopyDone team) s = .next s) ∧
    (∀ slots base, tm.db = .close → tm.dest = some core → tm.latched = none → copyRecorded s tm = false →
      pickSlots (s.part tm.part).setup.shadow (usedSlots s core) ((s.groupsOf team).map Group.index) = some slots →
      scratchRun s core tm.spfoot = some base → ((s.groupsOf team).map Group.slot).Nodup → s.scratch.wf = true →
      ∃ t u, exec (.migrationCopyDone team) s = .next t ∧ t.team? team = some u ∧ u.core = core ∧ u.spbase = base ∧ u.spfoot = tm.spfoot ∧
        u.db = .idle ∧ u.state = .placed ∧ u.dest = none ∧ u.since = s.time.now ∧ t.mem = s.mem ∧
        t.fwd = s.fwd ++ [⟨tm.core, tm.slots, team, s.time.now + 64000, tm.spbase, tm.spfoot⟩] ∧
        (∀ k, k < tm.spfoot → readByte t (.sp core (base + k)) = readByte s (.sp tm.core (tm.spbase + k))) ∧
        ∀ (i : Nat) (g : Group) (sl : Nat × Option Nat), (s.groupsOf team)[i]? = some g → slots[i]? = some sl → ∃ h ∈ t.groups, h.team = team ∧ h.core = core ∧ h.slot = sl.1 ∧
          h.index = g.index ∧ h.g = g.g ∧ h.q = g.q ∧ h.loops = g.loops ∧ h.bars = g.bars ∧ h.active = false ∧
          h.lanes = g.lanes.map (Lane.regather s.render.tiles)) ∧
    (∀ n, (s.fwd.filter fun f => f.core == core)[n]? = none → exec (.forwardEntryExpire core n) s = .next s) ∧
    (∀ n f, (s.fwd.filter fun f => f.core == core)[n]? = some f →
      exec (.forwardEntryExpire core n) s = .next (if f.until_ ≤ s.time.now then { s with fwd := s.fwd.erase f } else s)) ∧
    (∀ id slot f o len, s.flight? id = some f → f.stage ≠ .performed → f.reads = [⟨.sp core o, len, none, false⟩] →
      (∀ e, s.fwd.find? (fun e => e.core == core && e.slots.contains slot && decide (s.time.now < e.until_)) = some e → e.team = team →
        e.spbase ≤ o → o < e.spbase + e.spfoot → ∃ t, exec (.forwardedMessage id core slot) s = .next t ∧ { t with ms := s.ms } = s ∧
          t.flight? id = some { f with reads := [⟨.sp tm.core (tm.spbase + o - e.spbase), len, none, false⟩] }) ∧
      (s.fwd.find? (fun e => e.core == core && e.slots.contains slot && decide (s.time.now < e.until_)) = none →
        (f.stale s = false → exec (.forwardedMessage id core slot) s = .next s) ∧
        (f.stale s = true → f.engine = none → ∃ t, exec (.forwardedMessage id core slot) s = .next t ∧ t.flight? id = none)))

/-- Periods, class pre-emption and the withheld cores (R141, R143, R144, R146): at a boundary each meter gives up the budget of the period that
ends, and HELD follows the new budget; a grid whose class may pre-empt, a READY node's among them, vacates cores, and their teams are cut; 1 ms
after they were vacated withheld cores are free. -/
def Sys2Proof.Rule.PeriodsAndClasses : Prop :=
  ∀ (s : State) (p : Nat), p < s.parts.length →
    let q := s.part p
    (q.state = .free ∨ s.time.now < q.sch.periodNext → exec (.periodBoundary p) s = .next s) ∧
    (q.state ≠ .free → q.sch.periodNext ≤ s.time.now → ∃ t, exec (.periodBoundary p) s = .next t ∧ { t with parts := s.parts } = s ∧
      let period := (q.pendBudget.getD (q.setup.period, q.setup.budget)).1
      let budget := (q.pendBudget.getD (q.setup.period, q.setup.budget)).2
      let ticks := 1000 * (if period = 0 then 1000 else period)
      (t.part p).setup = { q.setup with period := period, budget := budget } ∧ (t.part p).pendBudget = none ∧
      q.sch.periodNext < (t.part p).sch.periodNext ∧ (t.part p).sch.periodNext ≤ q.sch.periodNext + ticks ∧
      (t.part p).sch.periodNext % ticks = 0 ∧ (t.part p).sch.meters.length = q.sch.meters.length ∧
      (∀ (i : Nat) (m : Meter), q.sch.meters[i]? = some m → (t.part p).sch.meters[i]? = some
        ⟨m.used - q.setup.budget.getD i 0, decide (budget.getD i 0 ≠ 0) && decide (budget.getD i 0 ≤ m.used - q.setup.budget.getD i 0)⟩) ∧
      ∀ k, k < s.parts.length → k ≠ p → { t.part k with sch := { (t.part k).sch with oversub := (s.part k).sch.oversub } } = s.part k) ∧
    (q.sch.withheld = [] ∨ s.time.now < q.sch.withheldUntil → exec (.withholdExpire p) s = .next s) ∧
    (q.sch.withheld ≠ [] → q.sch.withheldUntil ≤ s.time.now → exec (.withholdExpire p) s =
      .next (s.updPart p fun q => { q with sch := { q.sch with withheld := [], peState := if q.sch.peState = 2 then 0 else q.sch.peState } })) ∧
    (∀ gs, (q.sch.preen = false ∨ q.sch.peState ≠ 0 ∨ q.sch.ctx.log2 = 0 ∨ (∀ g ∈ waitingGrids s p, g.slot = gs → classTriggers s g = false)) →
      exec (.preemptClassTrigger p gs) s = .next s) ∧
    (∀ gs gr, (waitingGrids s p).find? (fun g => g.slot == gs && classTriggers s g) = some gr →
      let cs := pickVacated s p gr.die (gr.rcd.bclass + 1) gr.rcd.cluster 288 []
      cs ≠ [] → ∃ t, exec (.preemptClassTrigger p gs) s = .next t ∧ { t with parts := s.parts, teams := s.teams } = s ∧
        (t.part p).sch = { q.sch with
          vacating := cs, keep := false, withheld := [], withheldClass := gr.rcd.bclass, peState := 1, vacated := 0 } ∧
        ∀ tm ∈ s.teams, (s.teams.map Team.id).Nodup → tm.part = p → tm.state = .placed → tm.db = .idle → latchOpen s tm = true →
          tm.core ∈ cs → ∃ u, t.team? tm.id = some u ∧ u.state = .stopping ∧ u.db = .drainShd ∧ u.dbKind = .cut)

/-- Shadow groups (R342, R343, R345): a leading group stalls while its shadow's queue is full; an access that a compare releases waits until the
shadow has come to it, and is then made where the shadow makes the same; where the compare fails the access is discarded and counted, and the
team rolls back, or every live lane of the leading group queues cause 13. A shadow issues by taking the next entry of its queue. -/
def Sys2Proof.Rule.ShadowGroups : Prop :=
  ∀ (s : State),
    (∀ core slot lane g, s.group? core slot = some g → (shadowOf s g = none ∨ ∃ h, shadowOf s g = some h ∧ h.queue ≠ []) →
      exec (.shadowMismatch core slot lane) s = .next s) ∧
    (∀ core slot lane g h t w1 w2 i v, s.group? core slot = some g → shadowOf s g = some h → h.queue = [] →
      fetchCohort s core slot lane = .words t w1 w2 → decodeWords w1 w2 = .ok i → comparedVal t g (t.issue.lanes.headD 0) i = some v →
      exec (.shadowMismatch core slot lane) s = .next (mismatched t g v)) ∧
    (∀ (g : Group) v, s.group? g.core g.slot = some g →
      let u := mismatched s g v
      let past := runIssue s id
      (g.core, s.time.now) ∈ u.caddy.mismatches ∧
      (rollbackOn s (s.partOf g) = false → u.mem = s.mem ∧ u.ms = s.ms ∧ ∃ k, u.group? g.core g.slot = some k ∧ ∀ l, l < g.lanes.length →
        let x := past.lane g.core g.slot l
        (x.live = false → k.lane l = x) ∧
        (x.live = true → x.pend.getD 3 none = none → k.lane l = { x with pend := x.pend.set 3 (some ⟨13, 2, 0, v, 0⟩) })) ∧
      (∀ tm, rollbackOn s (s.partOf g) = true → s.team? g.team = some tm → tm.part = s.partOf g → tm.repeatable = true → tm.rollbacks < 2 →
        tm.db = .idle → tm.state = .placed → u.mem = s.mem ∧ u.ms = s.ms ∧ ∃ k, u.team? g.team = some k ∧ k.db = .drainShd ∧ k.dbKind = .rollback ∧
          k.rollbacks = tm.rollbacks + 1)) ∧
    (∀ i g h, s.issuing? = some g → shadowOf s g = some h →
      let compared := comparedVal s g (s.issue.lanes.headD 0) i
      (256 ≤ h.queue.length → issueShadowed exec i s = .next s) ∧
      (h.queue.length < 256 → compared = none → ∃ t, exec i s = .next t ∧
        issueShadowed exec i s = .next (if shadowExecutes s t g i then t.putShadow { h with queue := h.queue ++ [.issue s.issue] } else t)) ∧
      (∀ v, compared = some v → h.queue ≠ [] → issueShadowed exec i s = .next s) ∧
      (∀ v, compared = some v → h.queue = [] →
        ((∃ l ∈ s.issue.lanes, (h.group.lane l).pc ≠ s.issue.pc) → issueShadowed exec i s = .next (mismatched s g v)) ∧
        (∀ t u, (∀ l ∈ s.issue.lanes, (h.group.lane l).pc = s.issue.pc) → exec i s = .next t → exec i (withShadow s g h) = .next u →
          (agrees g t u = true → ∃ k, issueShadowed exec i s = .next (t.putShadow k) ∧ k.queue = [] ∧ k.lead = h.lead) ∧
          (agrees g t u = false → issueShadowed exec i s = .next (mismatched s g v))))) ∧
    (∀ core slot lane rest h, s.agenda = .issue core slot lane :: rest → shadowIn { s with agenda := rest } core slot = some h →
      step s = .next (settleAfter s (shadowStep exec { s with agenda := rest } h))) ∧
    (∀ h e rest g, h ∈ s.shadows → h.queue = e :: rest → h.leader s = some g → ∃ k, shadowStep exec s h = s.putShadow k ∧ k.queue = rest ∧
      k.lead = h.lead)

/-- Periods, class pre-emption, withheld cores, and shadow groups (R141 to R146, R342, R343, R345). Budgets that change, vacated cores and
shadow groups are read as log entries 56, 58 and 59 say. -/
def Obligations.PeriodsAndPreemption : Prop :=
  Sys2Proof.Rule.PeriodsAndClasses ∧ Sys2Proof.Rule.ShadowGroups

/-! ## Events of the module -/

/-- Device time, sensors, and the clock (R48 to R54, R56): a tick adds 1 + ADJ × 2^-32 ns with the remainder carried, and what TIM_STEP left; ADJ is
clamped to ±500 ppm; PPS and PTP are timestamped; a refresh finds the hottest sensor and its state, and 110 °C trips; the clock moves by 100 MHz
once per ms, and CAP is clamped to 600 to 1,800 W. -/
def Sys2Proof.Rule.TimeAndPower : Prop :=
  ∀ (s : State),
    let timed (t : State) (f : TimeBase) : Prop := t = { s with time := f }
    (s.caddy.bootStep < 7 → exec .deviceTimeTick s = .next s) ∧
    (7 ≤ s.caddy.bootStep → -2147484 ≤ s.time.adj → s.time.adj ≤ 2147484 → ∃ t, exec .deviceTimeTick s = .next t ∧
      let sum : Int := (s.time.frac : Int) + 4294967296 + s.time.adj
      (t.time.now : Int) = ((s.time.now : Int) + sum / 4294967296 + s.time.step) % 18446744073709551616 ∧ (t.time.frac : Int) = sum % 4294967296 ∧
      t.time.step = 0 ∧ t.time.adj = s.time.adj ∧ 100 * t.time.cycle + t.time.cycFrac = 100 * s.time.cycle + s.time.cycFrac + s.therm.clock ∧
      t.time.cycFrac < 100 ∧ { t with time := s.time, parts := s.parts } = s) ∧
    (∀ v, ∃ t, exec (.timAdjWrite v) s = .next t ∧ timed t { s.time with adj := max (-2147484) (min 2147484 (BitVec.ofNat 32 v).toInt) }) ∧
    (∀ v, ∃ t, exec (.timStepWrite v) s = .next t ∧ timed t { s.time with step := (s.time.step + v) % 2 ^ 64 }) ∧
    (∃ t, exec .ppsEdge s = .next t ∧ timed t { s.time with pps := s.time.now, ppsv := true }) ∧
    (∀ k n r, (s.caddy.running = false → exec (.ptpMessage k n r) s = .next s) ∧ (s.caddy.running = true → ∃ t,
      exec (.ptpMessage k n r) s = .next t ∧ t.out = s.out ++ [.ptp k n s.time.now] ∧ { t with time := s.time, out := s.out } = s)) ∧
    (∀ l, (s.caddy.running = false → exec (.sensorRefresh l) s = .next s) ∧
      (s.caddy.running = true → ∃ t, exec (.sensorRefresh l) s = .next t ∧ t.groups = s.groups ∧ t.mem = s.mem ∧
        t.therm.sensors = l.foldl putSample s.therm.sensors ∧
        ∀ n v, hottest t.therm.sensors = some (n, v) → t.therm.sensor = n ∧ t.therm.temp = (v / 8).toNat % 256 ∧
          (s.therm.trip = true → t.therm.trip = true ∧ t.therm.state = s.therm.state) ∧
          (s.therm.trip = false →
            t.therm.state = (if v < 8 * 95 then 0 else if v < 8 * 100 then 1 else if v < 8 * 110 then 2 else 3) ∧
            (s.therm.state ≠ 3 → t.therm.trip = decide (8 * 110 ≤ v)) ∧ (t.therm.state ≠ s.therm.state → t.pf.istat.testBit 33 = true)))) ∧
    (s.caddy.running = false ∨ s.time.now < s.therm.lastStep + 1000000 → exec .clockStep s = .next s) ∧
    (s.caddy.running = true → s.therm.lastStep + 1000000 ≤ s.time.now → ∃ t, exec .clockStep s = .next t ∧ { t with therm := s.therm } = s ∧
      t.therm.heatClock = (if 2 ≤ s.therm.state then s.therm.heatClock - 10 else min 250 (s.therm.heatClock + 10)) ∧
      t.therm.capClock = (if s.therm.cap < s.therm.meas then s.therm.capClock - 10 else min 250 (s.therm.capClock + 10)) ∧
      t.therm.lastStep = s.time.now ∧ t.therm.state = s.therm.state ∧ t.therm.trip = s.therm.trip) ∧
    (∀ v, ∃ t, exec (.pkgPwrcapWrite v) s = .next t ∧ t.therm = { s.therm with cap := max 600 (min 1800 (v % 4096)) } ∧
      { t with therm := s.therm } = s)

/-- The links (R31, R34, R35, R46, R60, R67 to R70): a Hinge module repairs up to four lanes and goes on, and retires beyond them, which the next
configuration image records; CRCERR saturates at 255 and is cleared, ports go to four lanes or down, a CXL port that goes down keeps its capacity, and the host link trains at x16, x8 or x4; when it goes
down DOWNEV and source 34 are raised. -/
def Sys2Proof.Rule.LinkEvents : Prop :=
  ∀ (s : State),
    let links (i : Instr) (k : Links) : Prop := exec i s = .next { s with links := k }
    (∀ (n : Nat) (m : HingeMod), s.links.hinge[n]? = some m →
      let c := s.caddy
      let hinge (i : Instr) (x : HingeMod) : Prop := links i { s.links with hinge := s.links.hinge.set n x }
      let noted (i : Instr) (x : HingeMod) (k : Nat) : Prop := ∃ t, exec i s = .next t ∧ { t with links := s.links, caddy := c } = s ∧
        t.links = { s.links with hinge := s.links.hinge.set n x } ∧
        ∀ g, c.cfg (if c.pendCfg then 1 - c.nextCfg else c.nextCfg) = some g → t.caddy.pendCfg = true ∧
          ∃ h, t.caddy.cfg (1 - c.nextCfg) = some h ∧ h.signed = true ∧
            h.body = { g.body with hingeRepairs := g.body.hingeRepairs.modify n (· + k) }
      exec (.hingeLaneRepair n 0) s = .next s ∧
      (∀ k, k ≠ 0 → noted (.hingeLaneRepair n k) (if m.state = 3 then m else if 4 < m.repaired + k then { m with state := 3 }
        else { m with state := if m.state = 2 then 2 else 1, repaired := m.repaired + k }) k) ∧
      noted (.hingeModuleRetire n) { m with state := 3 } 5 ∧
      hinge (.hingeModuleRetrained n) (if m.state = 2 then { m with state := if m.repaired = 0 then 0 else 1 } else m) ∧
      hinge (.hingeCrcRetry n) { m with crcerr := min 255 (m.crcerr + 1) } ∧ hinge (.hngCrcerrClear n) { m with crcerr := 0 }) ∧
    (∀ (n w : Nat), s.links.ports[n]? = some w →
      links (.scaleupPortRetrain n) { s.links with ports := s.links.ports.set n (if w = 0 then 0 else 4) } ∧
      links (.scaleupPortDown n) { s.links with ports := s.links.ports.set n 0 }) ∧
    (∀ n cap, links (.cxlPortTrained n cap) { s.links with
        cxlUp := s.links.cxlUp.set n true, cxlCap := s.links.cxlCap.set n (min 1152000000000 cap) } ∧
      links (.cxlPortDown n) { s.links with cxlUp := s.links.cxlUp.set n false }) ∧
    (∀ w r, (w = 4 ∨ w = 8 ∨ w = 16) → 1 ≤ r → r ≤ 3 → links (.hostLinkTrained w r) { s.links with width := w, rate := r }) ∧
    (∀ w r, (w ≠ 4 ∧ w ≠ 8 ∧ w ≠ 16) ∨ r = 0 ∨ 3 < r → links (.hostLinkTrained w r) s.links) ∧
    (s.links.width = 0 → exec .hostLinkDown s = .next s) ∧
    (s.links.width ≠ 0 → ∃ t, exec .hostLinkDown s = .next t ∧ t.links = { s.links with width := 0, rate := 0, downev := true } ∧
      t.pf.istat.testBit 34 = true ∧ { t with links := s.links, pf := s.pf, caddy := s.caddy, out := s.out } = s)

/-- Device time, sensors, the clock, and the links (R31, R34, R35, R46, R48 to R54, R56, R67 to R70). Log classes, the clock and retrained links
are read as log entries 12, 64 and 65 say. -/
def Obligations.TimePowerAndLinks : Prop :=
  Sys2Proof.Rule.TimeAndPower ∧ Sys2Proof.Rule.LinkEvents

/-- Caddy (R55, R57, R58, R63, R64): a lockstep mismatch stops its firmware, and the restart is logged with class 5; a flush takes the buffered
records to flash, and a record can be read from there; four attestation requests are held, and the oldest is answered; one update session runs
at a time and writes the inactive slot; a loss of power takes the buffered records, and may tear the one that is being written.
Codes, signatures and sessions are the model's or free (log entries 12, 13, 66). -/
def Obligations.CaddyServes : Prop :=
  ∀ (s : State),
    let c := s.caddy
    let caddy (i : Instr) (d : Caddy) : Prop := exec i s = .next { s with caddy := d }
    let logged (t : State) (cls : Nat) : Prop := c.logBuf.length < 256 → ∃ r, t.caddy.logBuf = c.logBuf ++ [r] ∧ r.cls = cls ∧
      r.seqNo = c.nextSeq ∧ r.time = s.time.now
    caddy .caddyLockstepMismatch { c with running := false, mismatch := true } ∧
    (c.running = true → exec .caddyRestartComplete s = .next s) ∧
    (c.running = false → ∃ t, exec .caddyRestartComplete s = .next t ∧ t.caddy.running = true ∧ t.caddy.mismatch = false ∧ logged t 5 ∧
      t.pf.istat.testBit 32 = true ∧ { t with caddy := c, pf := s.pf, out := s.out } = s) ∧
    (c.running = false → exec .logFlush s = .next s) ∧
    (c.running = true → ∃ t, exec .logFlush s = .next t ∧ { t with caddy := c } = s ∧ t.caddy.logBuf = [] ∧
      ((∀ r ∈ c.logBuf, r.seqNo % 64 ≠ 0 ∧ ∀ x ∈ c.flash, x.seqNo % 65536 ≠ r.seqNo % 65536) →
        (c.logBuf.map fun r => r.seqNo % 65536).Nodup → t.caddy.flash = c.flash ++ c.logBuf) ∧
      (∀ r, c.logBuf = [r] → t.caddy.logSeq = r.seqNo ∧ t.caddy.flash = (c.flash.filter fun x =>
        if r.seqNo % 64 = 0 then decide (x.seqNo % 65536 / 64 ≠ r.seqNo % 65536 / 64) else decide (x.seqNo % 65536 ≠ r.seqNo % 65536)) ++ [r])) ∧
    (∀ n, (∀ r ∈ c.flash, r.seqNo ≠ n ∨ r.crcOk = false) → exec (.logRead n) s = .next s) ∧
    (∀ (n : Nat) (r : LogRec), c.flash.find? (fun r => r.seqNo == n && r.crcOk) = some r → ∃ b, exec (.logRead n) s = .next (s.send (.log b)) ∧ b.length = 64 ∧
      fieldAt b 0 8 = r.time % 2 ^ 64 ∧ fieldAt b 8 4 = n % 2 ^ 32 ∧ byteAt b 14 = r.cls % 256 ∧ byteAt b 15 = r.source % 256 ∧
      byteAt b 16 = r.part % 256 ∧ fieldAt b 60 4 = numOfBytes (bytesOfNum 4 (crc32 (b.take 60)))) ∧
    (∀ n, (c.attest.length < 4 → caddy (.attestRequest n) { c with attest := c.attest ++ [n] }) ∧
      (4 ≤ c.attest.length → exec (.attestRequest n) s = .next (s.send (.busy 0)))) ∧
    (c.attest = [] ∨ c.running = false → exec .attestReport s = .next s) ∧
    (∀ n rest, c.attest = n :: rest → c.running = true →
      (c.mayReport = false → caddy .attestReport { c with attest := rest }) ∧
      (c.mayReport = true → ∃ t b, exec .attestReport s = .next t ∧ t.out = s.out ++ [.report b] ∧ t.caddy = { c with attest := rest } ∧
        fieldAt b 0 4 = 0x54504154 ∧ fieldAt b 8 32 = n % 2 ^ 256 ∧ fieldAt b 40 8 = s.time.now % 2 ^ 64 ∧
        (s.parts.length = 16 → b.length = 31064 ∧ b.drop 1272 = signatureOf (b.take 1272)))) ∧
    (∀ u : UpdateRequest, (c.running = false → exec (.firmwareUpdate u) s = .next s) ∧
      (c.running = true → c.session = none → u.finish = false → caddy (.firmwareUpdate u) { c with session := some u.requester }) ∧
      (c.running = true → c.session = none → u.finish = true → exec (.firmwareUpdate u) s = .next (s.send (.busy 1))) ∧
      (∀ r, c.running = true → c.session = some r → u.finish = false ∨ r ≠ u.requester →
        exec (.firmwareUpdate u) s = .next (s.send (.busy 1))) ∧
      (∀ i, c.running = true → c.session = some u.requester → u.finish = true → u.image = .firmware i → c.nextFw < 2 →
        ∃ t, exec (.firmwareUpdate u) s = .next t ∧ t.caddy.session = none ∧ t.caddy.fw (1 - c.nextFw) = some i ∧
          t.caddy.fw c.nextFw = c.fw c.nextFw ∧ t.caddy.pendFw = (i.signed && decide (c.minSvn ≤ i.svn)) ∧
          (t.caddy.pendFw = false → logged t 4)) ∧
      (∀ i, c.running = true → c.session = some u.requester → u.finish = true → u.image = .config i → c.nextCfg < 2 →
        ∃ t, exec (.firmwareUpdate u) s = .next t ∧ t.caddy.session = none ∧ t.caddy.cfg (1 - c.nextCfg) = some i ∧
          t.caddy.cfg c.nextCfg = c.cfg c.nextCfg ∧ t.caddy.pendCfg = (i.signed && decide (i.spare = 0) && i.bodyZero && decide (c.minSvn ≤ i.svn) &&
            coremapOk i.coremap0 && coremapOk i.coremap1) ∧ (t.caddy.pendCfg = false → logged t 4))) ∧
    (c.logBuf = [] ∨ c.running = false ∨ Config.tornRecord s.fresh = false →
      exec .powerFail s = .next { s with caddy := { c with logBuf := [] }, powered := false }) ∧
    (∀ r rest, c.logBuf = r :: rest → c.running = true → Config.tornRecord s.fresh = true → exec .powerFail s =
      .next { s with caddy := { c with logBuf := [], flash := putFlash c.flash { r with crcOk := false } }, powered := false })

/-- Reset, bring-up, errors and retirement (R28, R29, R34, R45, R57, R60, R65, R66, R87, R188, R345, R346): a module reset leaves no work and no partition, keeps flash and, with
power, memory, and starts bring-up, whose steps follow each other up to READY or stop it. A symbol region that reaches the threshold is recorded,
a block or word beyond correction is poisoned; a core that holds teams is vacated, and then a spare takes its place or it is disabled; a retired L2
slice leaves its partition's set.
What a reset keeps, what the Hinge records and when a core retires are read as log entries 65, 66 and 68 say. -/
def Obligations.ResetAndRetirement : Prop :=
  ∀ (s : State),
    let c := s.caddy
    let image := (c.cfg c.slotCfg).getD default
    let step (n : Nat) : Prop := c.stopped = false ∧ c.ready = false ∧ c.bootStep = n
    let caddy (r : BringupResult) (d : Caddy) : Prop := exec (.bringupStepComplete r) s = .next { s with caddy := d }
    let goodFw (i : Option FirmwareImage) : Prop := ∃ x, i = some x ∧ x.signed = true ∧ c.minSvn ≤ x.svn
    let goodCfg (i : Option ConfigImage) : Prop := ∃ x, i = some x ∧ x.signed = true ∧ x.spare = 0 ∧ x.bodyZero = true ∧ c.minSvn ≤ x.svn ∧
      ∀ k, k < 144 → x.coremap0.count k = 1 ∧ x.coremap1.count k = 1
    (∃ t, exec .moduleReset s = .next t ∧ t.powered = true ∧ t.groups = [] ∧ t.teams = [] ∧ t.grids = [] ∧ t.graphs = [] ∧
      t.eng = Engines.reset ∧ t.parts = State.reset.parts ∧ t.links = { Links.reset with modid := s.links.modid } ∧
      t.caddy.flash = c.flash ∧ t.caddy.bootStep = 1 ∧ t.caddy.ready = false ∧ t.caddy.stopped = false ∧ t.caddy.minSvn = c.minSvn ∧
      t.caddy.slotFw = 0 ∧ t.caddy.slotCfg = 0 ∧
      (c.pendFw = true → t.caddy.nextFw = 1 - c.nextFw) ∧ t.caddy.nextCfg = (if c.pendCfg then 1 - c.nextCfg else c.nextCfg) ∧
      (s.powered = true → t.mem = s.mem) ∧
      (s.powered = false → s.mem.wf = true → ∀ a, t.mem.read a = if cxlBase ≤ a then s.mem.read a else 0)) ∧
    (∀ r, (c.stopped = true ∨ c.ready = true → exec (.bringupStepComplete r) s = .next s) ∧
      (step 1 → (r.ok = true → caddy r { c with bootStep := 2 }) ∧ (r.ok = false → exec (.bringupStepComplete r) s = .next s)) ∧
      (r.ok = false → step 2 ∨ step 3 ∨ step 6 → caddy r { c with stopped := true }) ∧
      (r.ok = true → step 2 →
        (goodFw (c.fw c.nextFw) → caddy r { c with slotFw := c.nextFw, bootStep := 3 }) ∧
        (¬goodFw (c.fw c.nextFw) → goodFw (c.fw (1 - c.nextFw)) → caddy r { c with slotFw := 1 - c.nextFw, nextFw := 1 - c.nextFw, bootStep := 3 }) ∧
        (¬goodFw (c.fw c.nextFw) → ¬goodFw (c.fw (1 - c.nextFw)) → caddy r { c with stopped := true })) ∧
      (r.ok = true → step 3 →
        (goodCfg (c.cfg c.nextCfg) → ∃ t, exec (.bringupStepComplete r) s = .next t ∧ t.caddy.bootStep = 4 ∧ t.caddy.slotCfg = c.nextCfg ∧
          t.caddy.mayReport = r.keyMatches) ∧
        (¬goodCfg (c.cfg c.nextCfg) → goodCfg (c.cfg (1 - c.nextCfg)) → ∃ t, exec (.bringupStepComplete r) s = .next t ∧
          t.caddy.bootStep = 4 ∧ t.caddy.slotCfg = 1 - c.nextCfg ∧ t.caddy.mayReport = r.keyMatches) ∧
        (¬goodCfg (c.cfg c.nextCfg) → ¬goodCfg (c.cfg (1 - c.nextCfg)) → ∃ t, exec (.bringupStepComplete r) s = .next t ∧
          t.caddy.stopped = true ∧ t.caddy.bootStep = 3)) ∧
      (step 4 → caddy r { c with failedChannels := r.failedChannels, failedRegions := image.body.failedRegions, bootStep := 5 }) ∧
      (step 5 → ∃ t, exec (.bringupStepComplete r) s = .next t ∧ t.caddy.bootStep = 6 ∧ { t with caddy := c, links := s.links } = s ∧ t.links.modid = r.modid % 1024 ∧
        (r.retiredModules = [] → r.repairedModules = [] → t.caddy = { c with bootStep := 6 }) ∧
        (∀ (n : Nat) (m : HingeMod), s.links.hinge[n]? = some m → ∃ x, t.links.hinge[n]? = some x ∧ x.crcerr = m.crcerr ∧
          let lanes := image.body.hingeRepairs.getD n 0 + r.repairedModules.count n
          (n ∈ r.retiredModules ∨ 4 < lanes → x.state = 3) ∧
          (n ∉ r.retiredModules → lanes ≤ 4 → x.repaired = lanes ∧ x.state = if lanes = 0 then 0 else 1)) ∧
        (∀ (n l : Nat), s.links.ports[n]? = some l → t.links.ports[n]? = some (if n ∈ r.portsDown then 0 else l))) ∧
      (r.ok = true → step 6 → ∃ t, exec (.bringupStepComplete r) s = .next t ∧ t.caddy.bootStep = 7 ∧ t.disabledCores = image.body.disabled ∧
        t.l2ret0 = image.l2ret0 ∧ t.l2ret1 = image.l2ret1 ∧ t.caddy.spares0 = image.coremap0.count 0xFFFE ∧ t.caddy.spares1 = image.coremap1.count 0xFFFE ∧
        t.time.now = 0 ∧ t.scratch = [] ∧ t.chip = [] ∧ t.mem = s.mem) ∧
      (step 7 → ∃ t, exec (.bringupStepComplete r) s = .next t ∧ { t with caddy := c } = s ∧ t.caddy.ready = true ∧
        t.caddy.minSvn = max c.minSvn (max (((c.fw c.slotFw).map FirmwareImage.svn).getD 0) image.svn))) ∧
    (∀ d r, 2 ≤ d → exec (.scrubPeriod d r) s = .next s) ∧
    (∀ (d k n : Nat), d < 2 → c.lastScrub.length = 2 →
      let report : ErrorReport := { regions := [(k, n)], blocks := [], corrected := [], words := [] }
      let total := countOf c.regionErrs d k + n
      (s.time.now < c.lastScrub.getD d 0 + s.config.body.scrubPeriod → exec (.scrubPeriod d report) s = .next s) ∧
      (c.lastScrub.getD d 0 + s.config.body.scrubPeriod ≤ s.time.now → ∃ t, exec (.scrubPeriod d report) s = .next t ∧ t.mem = s.mem ∧
        t.caddy.lastScrub.getD d 0 = s.time.now ∧ countOf t.caddy.regionErrs d k = total ∧
        t.caddy.failedRegions = (if (d, k) ∈ c.failedRegions ∨ total < max 1 s.config.body.threshold then c.failedRegions
          else c.failedRegions ++ [(d, k)]))) ∧
    (∀ (d b : Nat), d < 2 → (∃ n, regionOf s.links (64 * b) = .gddr n ∨ regionOf s.links (64 * b) = .lpddr n ∨ regionOf s.links (64 * b) = .cxl n) →
      ∃ t, exec (.scrubPeriod d { regions := [], blocks := [b], corrected := [], words := [] }) s = .next t ∧ t.mem = s.mem ∧ b ∈ t.poison ∧
        (c.running = true → c.logBuf.length < 256 → ∃ x, t.caddy.logBuf = c.logBuf ++ [x] ∧ x.cls = 3)) ∧
    (∀ (d core o : Nat), d < 2 → core < 288 → ∃ t,
      exec (.scrubPeriod d { regions := [], blocks := [], corrected := [], words := [(.scratchpad core, o)] }) s = .next t ∧ t.mem = s.mem ∧
        Place.sp core (o / 8 * 8) ∈ t.sramPoison ∧ (core ∈ t.retiring ∨ core ∈ s.disabledCores)) ∧
    (∀ (d slice : Nat), d < 2 → slice < 64 → ∃ t,
      exec (.scrubPeriod d { regions := [], blocks := [], corrected := [.l2 d slice], words := [] }) s = .next t ∧ t.mem = s.mem ∧
        t.caddy.softErrs = c.softErrs + 1 ∧ countOf t.caddy.sliceErrs d slice = countOf c.sliceErrs d slice + 1 ∧
        (max 1 s.config.body.threshold ≤ countOf c.sliceErrs d slice + 1 → (if d = 0 then t.l2ret0 else t.l2ret1).testBit slice = true)) ∧
    (∀ core, 288 ≤ core ∨ core ∈ s.disabledCores → exec (.coreRetire core) s = .next s) ∧
    (∀ core, core < 288 → core ∉ s.disabledCores →
      ((∃ x ∈ s.teams, x.core = core) → ∃ t, exec (.coreRetire core) s = .next t ∧ core ∈ t.retiring ∧ t.groups = s.groups ∧
        t.disabledCores = s.disabledCores ∧
        ∀ tm ∈ s.teams, (s.teams.map Team.id).Nodup → tm.core = core → tm.part < 16 → (s.part tm.part).sch.ctx.log2 ≠ 0 → tm.state = .placed →
          tm.db = .idle → latchOpen s tm = true → ∃ u, t.team? tm.id = some u ∧ u.state = .stopping ∧ u.db = .drainShd ∧ u.dbKind = .cut) ∧
      ((∀ x ∈ s.teams, x.core ≠ core) → ∃ t, exec (.coreRetire core) s = .next t ∧ core ∉ t.retiring ∧
        (0 < c.spares (dieOfCore core) → t.disabledCores = s.disabledCores ∧ t.caddy.spares (dieOfCore core) = c.spares (dieOfCore core) - 1) ∧
        (c.spares (dieOfCore core) = 0 → t.disabledCores = s.disabledCores ++ [core] ∧
          t.caddy.spares (dieOfCore core) = c.spares (dieOfCore core)))) ∧
    (∀ d n, 2 ≤ d ∨ 64 ≤ n → exec (.l2SliceRetire d n) s = .next s) ∧
    (∀ (d n p : Nat) (q : Partition), d < 2 → n < 64 → s.parts[p]? = some q → ∃ t r, exec (.l2SliceRetire d n) s = .next t ∧ t.parts[p]? = some r ∧
      (if d = 0 then t.l2ret0 else t.l2ret1).testBit n = true ∧
      ∀ k, r.setup.l2mask0.testBit k = (q.setup.l2mask0.testBit k && !(d == 0 && k == n)) ∧
        r.setup.l2mask1.testBit k = (q.setup.l2mask1.testBit k && !(d == 1 && k == n)))
end

