-- ==== Sys2Proof/Laws/State.lean ====
section
/-!
SUPPORT. Each update of one part of the state leaves every other field as it is: one lemma for each field of each update, so that no proof
unfolds a record update.
-/
namespace Sys2Proof.Machine

variable (s : State)

@[simp] theorem State.updGroup_agenda (core slot : Nat) (f : Group → Group) : (s.updGroup core slot f).agenda = s.agenda := rfl
@[simp] theorem State.updGroup_turn (core slot : Nat) (f : Group → Group) : (s.updGroup core slot f).turn = s.turn := rfl
@[simp] theorem State.updGroup_issue (core slot : Nat) (f : Group → Group) : (s.updGroup core slot f).issue = s.issue := rfl
@[simp] theorem State.updGroup_fresh (core slot : Nat) (f : Group → Group) : (s.updGroup core slot f).fresh = s.fresh := rfl
@[simp] theorem State.updGroup_out (core slot : Nat) (f : Group → Group) : (s.updGroup core slot f).out = s.out := rfl
@[simp] theorem State.updGroup_mem (core slot : Nat) (f : Group → Group) : (s.updGroup core slot f).mem = s.mem := rfl
@[simp] theorem State.updGroup_scratch (core slot : Nat) (f : Group → Group) : (s.updGroup core slot f).scratch = s.scratch := rfl
@[simp] theorem State.updGroup_chip (core slot : Nat) (f : Group → Group) : (s.updGroup core slot f).chip = s.chip := rfl
@[simp] theorem State.updGroup_poison (core slot : Nat) (f : Group → Group) : (s.updGroup core slot f).poison = s.poison := rfl
@[simp] theorem State.updGroup_sramPoison (core slot : Nat) (f : Group → Group) : (s.updGroup core slot f).sramPoison = s.sramPoison := rfl
@[simp] theorem State.updGroup_ms (core slot : Nat) (f : Group → Group) : (s.updGroup core slot f).ms = s.ms := rfl
@[simp] theorem State.updGroup_parts (core slot : Nat) (f : Group → Group) : (s.updGroup core slot f).parts = s.parts := rfl
@[simp] theorem State.updGroup_grids (core slot : Nat) (f : Group → Group) : (s.updGroup core slot f).grids = s.grids := rfl
@[simp] theorem State.updGroup_teams (core slot : Nat) (f : Group → Group) : (s.updGroup core slot f).teams = s.teams := rfl
@[simp] theorem State.updGroup_shadows (core slot : Nat) (f : Group → Group) : (s.updGroup core slot f).shadows = s.shadows := rfl
@[simp] theorem State.updGroup_graphs (core slot : Nat) (f : Group → Group) : (s.updGroup core slot f).graphs = s.graphs := rfl
@[simp] theorem State.updGroup_fwd (core slot : Nat) (f : Group → Group) : (s.updGroup core slot f).fwd = s.fwd := rfl
@[simp] theorem State.updGroup_lines (core slot : Nat) (f : Group → Group) : (s.updGroup core slot f).lines = s.lines := rfl
@[simp] theorem State.updGroup_eng (core slot : Nat) (f : Group → Group) : (s.updGroup core slot f).eng = s.eng := rfl
@[simp] theorem State.updGroup_render (core slot : Nat) (f : Group → Group) : (s.updGroup core slot f).render = s.render := rfl
@[simp] theorem State.updGroup_images (core slot : Nat) (f : Group → Group) : (s.updGroup core slot f).images = s.images := rfl
@[simp] theorem State.updGroup_time (core slot : Nat) (f : Group → Group) : (s.updGroup core slot f).time = s.time := rfl
@[simp] theorem State.updGroup_therm (core slot : Nat) (f : Group → Group) : (s.updGroup core slot f).therm = s.therm := rfl
@[simp] theorem State.updGroup_caddy (core slot : Nat) (f : Group → Group) : (s.updGroup core slot f).caddy = s.caddy := rfl
@[simp] theorem State.updGroup_links (core slot : Nat) (f : Group → Group) : (s.updGroup core slot f).links = s.links := rfl
@[simp] theorem State.updGroup_pf (core slot : Nat) (f : Group → Group) : (s.updGroup core slot f).pf = s.pf := rfl
@[simp] theorem State.updGroup_disabledCores (core slot : Nat) (f : Group → Group) : (s.updGroup core slot f).disabledCores = s.disabledCores := rfl
@[simp] theorem State.updGroup_retiring (core slot : Nat) (f : Group → Group) : (s.updGroup core slot f).retiring = s.retiring := rfl
@[simp] theorem State.updGroup_vacant (core slot : Nat) (f : Group → Group) : (s.updGroup core slot f).vacant = s.vacant := rfl
@[simp] theorem State.updGroup_l2ret0 (core slot : Nat) (f : Group → Group) : (s.updGroup core slot f).l2ret0 = s.l2ret0 := rfl
@[simp] theorem State.updGroup_l2ret1 (core slot : Nat) (f : Group → Group) : (s.updGroup core slot f).l2ret1 = s.l2ret1 := rfl
@[simp] theorem State.updGroup_powered (core slot : Nat) (f : Group → Group) : (s.updGroup core slot f).powered = s.powered := rfl

@[simp] theorem State.updLane_agenda (core slot l : Nat) (f : Lane → Lane) : (s.updLane core slot l f).agenda = s.agenda := rfl
@[simp] theorem State.updLane_turn (core slot l : Nat) (f : Lane → Lane) : (s.updLane core slot l f).turn = s.turn := rfl
@[simp] theorem State.updLane_issue (core slot l : Nat) (f : Lane → Lane) : (s.updLane core slot l f).issue = s.issue := rfl
@[simp] theorem State.updLane_fresh (core slot l : Nat) (f : Lane → Lane) : (s.updLane core slot l f).fresh = s.fresh := rfl
@[simp] theorem State.updLane_out (core slot l : Nat) (f : Lane → Lane) : (s.updLane core slot l f).out = s.out := rfl
@[simp] theorem State.updLane_mem (core slot l : Nat) (f : Lane → Lane) : (s.updLane core slot l f).mem = s.mem := rfl
@[simp] theorem State.updLane_scratch (core slot l : Nat) (f : Lane → Lane) : (s.updLane core slot l f).scratch = s.scratch := rfl
@[simp] theorem State.updLane_chip (core slot l : Nat) (f : Lane → Lane) : (s.updLane core slot l f).chip = s.chip := rfl
@[simp] theorem State.updLane_poison (core slot l : Nat) (f : Lane → Lane) : (s.updLane core slot l f).poison = s.poison := rfl
@[simp] theorem State.updLane_sramPoison (core slot l : Nat) (f : Lane → Lane) : (s.updLane core slot l f).sramPoison = s.sramPoison := rfl
@[simp] theorem State.updLane_ms (core slot l : Nat) (f : Lane → Lane) : (s.updLane core slot l f).ms = s.ms := rfl
@[simp] theorem State.updLane_parts (core slot l : Nat) (f : Lane → Lane) : (s.updLane core slot l f).parts = s.parts := rfl
@[simp] theorem State.updLane_grids (core slot l : Nat) (f : Lane → Lane) : (s.updLane core slot l f).grids = s.grids := rfl
@[simp] theorem State.updLane_teams (core slot l : Nat) (f : Lane → Lane) : (s.updLane core slot l f).teams = s.teams := rfl
@[simp] theorem State.updLane_shadows (core slot l : Nat) (f : Lane → Lane) : (s.updLane core slot l f).shadows = s.shadows := rfl
@[simp] theorem State.updLane_graphs (core slot l : Nat) (f : Lane → Lane) : (s.updLane core slot l f).graphs = s.graphs := rfl
@[simp] theorem State.updLane_fwd (core slot l : Nat) (f : Lane → Lane) : (s.updLane core slot l f).fwd = s.fwd := rfl
@[simp] theorem State.updLane_lines (core slot l : Nat) (f : Lane → Lane) : (s.updLane core slot l f).lines = s.lines := rfl
@[simp] theorem State.updLane_eng (core slot l : Nat) (f : Lane → Lane) : (s.updLane core slot l f).eng = s.eng := rfl
@[simp] theorem State.updLane_render (core slot l : Nat) (f : Lane → Lane) : (s.updLane core slot l f).render = s.render := rfl
@[simp] theorem State.updLane_images (core slot l : Nat) (f : Lane → Lane) : (s.updLane core slot l f).images = s.images := rfl
@[simp] theorem State.updLane_time (core slot l : Nat) (f : Lane → Lane) : (s.updLane core slot l f).time = s.time := rfl
@[simp] theorem State.updLane_therm (core slot l : Nat) (f : Lane → Lane) : (s.updLane core slot l f).therm = s.therm := rfl
@[simp] theorem State.updLane_caddy (core slot l : Nat) (f : Lane → Lane) : (s.updLane core slot l f).caddy = s.caddy := rfl
@[simp] theorem State.updLane_links (core slot l : Nat) (f : Lane → Lane) : (s.updLane core slot l f).links = s.links := rfl
@[simp] theorem State.updLane_pf (core slot l : Nat) (f : Lane → Lane) : (s.updLane core slot l f).pf = s.pf := rfl
@[simp] theorem State.updLane_disabledCores (core slot l : Nat) (f : Lane → Lane) : (s.updLane core slot l f).disabledCores = s.disabledCores := rfl
@[simp] theorem State.updLane_retiring (core slot l : Nat) (f : Lane → Lane) : (s.updLane core slot l f).retiring = s.retiring := rfl
@[simp] theorem State.updLane_vacant (core slot l : Nat) (f : Lane → Lane) : (s.updLane core slot l f).vacant = s.vacant := rfl
@[simp] theorem State.updLane_l2ret0 (core slot l : Nat) (f : Lane → Lane) : (s.updLane core slot l f).l2ret0 = s.l2ret0 := rfl
@[simp] theorem State.updLane_l2ret1 (core slot l : Nat) (f : Lane → Lane) : (s.updLane core slot l f).l2ret1 = s.l2ret1 := rfl
@[simp] theorem State.updLane_powered (core slot l : Nat) (f : Lane → Lane) : (s.updLane core slot l f).powered = s.powered := rfl

@[simp] theorem State.updLanes_agenda (core slot : Nat) (ls : List Nat) (f : Lane → Lane) : (s.updLanes core slot ls f).agenda = s.agenda := rfl
@[simp] theorem State.updLanes_turn (core slot : Nat) (ls : List Nat) (f : Lane → Lane) : (s.updLanes core slot ls f).turn = s.turn := rfl
@[simp] theorem State.updLanes_issue (core slot : Nat) (ls : List Nat) (f : Lane → Lane) : (s.updLanes core slot ls f).issue = s.issue := rfl
@[simp] theorem State.updLanes_fresh (core slot : Nat) (ls : List Nat) (f : Lane → Lane) : (s.updLanes core slot ls f).fresh = s.fresh := rfl
@[simp] theorem State.updLanes_out (core slot : Nat) (ls : List Nat) (f : Lane → Lane) : (s.updLanes core slot ls f).out = s.out := rfl
@[simp] theorem State.updLanes_mem (core slot : Nat) (ls : List Nat) (f : Lane → Lane) : (s.updLanes core slot ls f).mem = s.mem := rfl
@[simp] theorem State.updLanes_scratch (core slot : Nat) (ls : List Nat) (f : Lane → Lane) : (s.updLanes core slot ls f).scratch = s.scratch := rfl
@[simp] theorem State.updLanes_chip (core slot : Nat) (ls : List Nat) (f : Lane → Lane) : (s.updLanes core slot ls f).chip = s.chip := rfl
@[simp] theorem State.updLanes_poison (core slot : Nat) (ls : List Nat) (f : Lane → Lane) : (s.updLanes core slot ls f).poison = s.poison := rfl
@[simp] theorem State.updLanes_sramPoison (core slot : Nat) (ls : List Nat) (f : Lane → Lane) : (s.updLanes core slot ls f).sramPoison = s.sramPoison := rfl
@[simp] theorem State.updLanes_ms (core slot : Nat) (ls : List Nat) (f : Lane → Lane) : (s.updLanes core slot ls f).ms = s.ms := rfl
@[simp] theorem State.updLanes_parts (core slot : Nat) (ls : List Nat) (f : Lane → Lane) : (s.updLanes core slot ls f).parts = s.parts := rfl
@[simp] theorem State.updLanes_grids (core slot : Nat) (ls : List Nat) (f : Lane → Lane) : (s.updLanes core slot ls f).grids = s.grids := rfl
@[simp] theorem State.updLanes_teams (core slot : Nat) (ls : List Nat) (f : Lane → Lane) : (s.updLanes core slot ls f).teams = s.teams := rfl
@[simp] theorem State.updLanes_shadows (core slot : Nat) (ls : List Nat) (f : Lane → Lane) : (s.updLanes core slot ls f).shadows = s.shadows := rfl
@[simp] theorem State.updLanes_graphs (core slot : Nat) (ls : List Nat) (f : Lane → Lane) : (s.updLanes core slot ls f).graphs = s.graphs := rfl
@[simp] theorem State.updLanes_fwd (core slot : Nat) (ls : List Nat) (f : Lane → Lane) : (s.updLanes core slot ls f).fwd = s.fwd := rfl
@[simp] theorem State.updLanes_lines (core slot : Nat) (ls : List Nat) (f : Lane → Lane) : (s.updLanes core slot ls f).lines = s.lines := rfl
@[simp] theorem State.updLanes_eng (core slot : Nat) (ls : List Nat) (f : Lane → Lane) : (s.updLanes core slot ls f).eng = s.eng := rfl
@[simp] theorem State.updLanes_render (core slot : Nat) (ls : List Nat) (f : Lane → Lane) : (s.updLanes core slot ls f).render = s.render := rfl
@[simp] theorem State.updLanes_images (core slot : Nat) (ls : List Nat) (f : Lane → Lane) : (s.updLanes core slot ls f).images = s.images := rfl
@[simp] theorem State.updLanes_time (core slot : Nat) (ls : List Nat) (f : Lane → Lane) : (s.updLanes core slot ls f).time = s.time := rfl
@[simp] theorem State.updLanes_therm (core slot : Nat) (ls : List Nat) (f : Lane → Lane) : (s.updLanes core slot ls f).therm = s.therm := rfl
@[simp] theorem State.updLanes_caddy (core slot : Nat) (ls : List Nat) (f : Lane → Lane) : (s.updLanes core slot ls f).caddy = s.caddy := rfl
@[simp] theorem State.updLanes_links (core slot : Nat) (ls : List Nat) (f : Lane → Lane) : (s.updLanes core slot ls f).links = s.links := rfl
@[simp] theorem State.updLanes_pf (core slot : Nat) (ls : List Nat) (f : Lane → Lane) : (s.updLanes core slot ls f).pf = s.pf := rfl
@[simp] theorem State.updLanes_disabledCores (core slot : Nat) (ls : List Nat) (f : Lane → Lane) : (s.updLanes core slot ls f).disabledCores = s.disabledCores := rfl
@[simp] theorem State.updLanes_retiring (core slot : Nat) (ls : List Nat) (f : Lane → Lane) : (s.updLanes core slot ls f).retiring = s.retiring := rfl
@[simp] theorem State.updLanes_vacant (core slot : Nat) (ls : List Nat) (f : Lane → Lane) : (s.updLanes core slot ls f).vacant = s.vacant := rfl
@[simp] theorem State.updLanes_l2ret0 (core slot : Nat) (ls : List Nat) (f : Lane → Lane) : (s.updLanes core slot ls f).l2ret0 = s.l2ret0 := rfl
@[simp] theorem State.updLanes_l2ret1 (core slot : Nat) (ls : List Nat) (f : Lane → Lane) : (s.updLanes core slot ls f).l2ret1 = s.l2ret1 := rfl
@[simp] theorem State.updLanes_powered (core slot : Nat) (ls : List Nat) (f : Lane → Lane) : (s.updLanes core slot ls f).powered = s.powered := rfl

@[simp] theorem State.updPart_agenda (p : Nat) (f : Partition → Partition) : (s.updPart p f).agenda = s.agenda := rfl
@[simp] theorem State.updPart_turn (p : Nat) (f : Partition → Partition) : (s.updPart p f).turn = s.turn := rfl
@[simp] theorem State.updPart_issue (p : Nat) (f : Partition → Partition) : (s.updPart p f).issue = s.issue := rfl
@[simp] theorem State.updPart_fresh (p : Nat) (f : Partition → Partition) : (s.updPart p f).fresh = s.fresh := rfl
@[simp] theorem State.updPart_out (p : Nat) (f : Partition → Partition) : (s.updPart p f).out = s.out := rfl
@[simp] theorem State.updPart_mem (p : Nat) (f : Partition → Partition) : (s.updPart p f).mem = s.mem := rfl
@[simp] theorem State.updPart_scratch (p : Nat) (f : Partition → Partition) : (s.updPart p f).scratch = s.scratch := rfl
@[simp] theorem State.updPart_chip (p : Nat) (f : Partition → Partition) : (s.updPart p f).chip = s.chip := rfl
@[simp] theorem State.updPart_poison (p : Nat) (f : Partition → Partition) : (s.updPart p f).poison = s.poison := rfl
@[simp] theorem State.updPart_sramPoison (p : Nat) (f : Partition → Partition) : (s.updPart p f).sramPoison = s.sramPoison := rfl
@[simp] theorem State.updPart_ms (p : Nat) (f : Partition → Partition) : (s.updPart p f).ms = s.ms := rfl
@[simp] theorem State.updPart_grids (p : Nat) (f : Partition → Partition) : (s.updPart p f).grids = s.grids := rfl
@[simp] theorem State.updPart_teams (p : Nat) (f : Partition → Partition) : (s.updPart p f).teams = s.teams := rfl
@[simp] theorem State.updPart_groups (p : Nat) (f : Partition → Partition) : (s.updPart p f).groups = s.groups := rfl
@[simp] theorem State.updPart_shadows (p : Nat) (f : Partition → Partition) : (s.updPart p f).shadows = s.shadows := rfl
@[simp] theorem State.updPart_graphs (p : Nat) (f : Partition → Partition) : (s.updPart p f).graphs = s.graphs := rfl
@[simp] theorem State.updPart_fwd (p : Nat) (f : Partition → Partition) : (s.updPart p f).fwd = s.fwd := rfl
@[simp] theorem State.updPart_lines (p : Nat) (f : Partition → Partition) : (s.updPart p f).lines = s.lines := rfl
@[simp] theorem State.updPart_eng (p : Nat) (f : Partition → Partition) : (s.updPart p f).eng = s.eng := rfl
@[simp] theorem State.updPart_render (p : Nat) (f : Partition → Partition) : (s.updPart p f).render = s.render := rfl
@[simp] theorem State.updPart_images (p : Nat) (f : Partition → Partition) : (s.updPart p f).images = s.images := rfl
@[simp] theorem State.updPart_time (p : Nat) (f : Partition → Partition) : (s.updPart p f).time = s.time := rfl
@[simp] theorem State.updPart_therm (p : Nat) (f : Partition → Partition) : (s.updPart p f).therm = s.therm := rfl
@[simp] theorem State.updPart_caddy (p : Nat) (f : Partition → Partition) : (s.updPart p f).caddy = s.caddy := rfl
@[simp] theorem State.updPart_links (p : Nat) (f : Partition → Partition) : (s.updPart p f).links = s.links := rfl
@[simp] theorem State.updPart_pf (p : Nat) (f : Partition → Partition) : (s.updPart p f).pf = s.pf := rfl
@[simp] theorem State.updPart_disabledCores (p : Nat) (f : Partition → Partition) : (s.updPart p f).disabledCores = s.disabledCores := rfl
@[simp] theorem State.updPart_retiring (p : Nat) (f : Partition → Partition) : (s.updPart p f).retiring = s.retiring := rfl
@[simp] theorem State.updPart_vacant (p : Nat) (f : Partition → Partition) : (s.updPart p f).vacant = s.vacant := rfl
@[simp] theorem State.updPart_l2ret0 (p : Nat) (f : Partition → Partition) : (s.updPart p f).l2ret0 = s.l2ret0 := rfl
@[simp] theorem State.updPart_l2ret1 (p : Nat) (f : Partition → Partition) : (s.updPart p f).l2ret1 = s.l2ret1 := rfl
@[simp] theorem State.updPart_powered (p : Nat) (f : Partition → Partition) : (s.updPart p f).powered = s.powered := rfl

@[simp] theorem State.updTeam_agenda (id : Nat) (f : Team → Team) : (s.updTeam id f).agenda = s.agenda := rfl
@[simp] theorem State.updTeam_turn (id : Nat) (f : Team → Team) : (s.updTeam id f).turn = s.turn := rfl
@[simp] theorem State.updTeam_issue (id : Nat) (f : Team → Team) : (s.updTeam id f).issue = s.issue := rfl
@[simp] theorem State.updTeam_fresh (id : Nat) (f : Team → Team) : (s.updTeam id f).fresh = s.fresh := rfl
@[simp] theorem State.updTeam_out (id : Nat) (f : Team → Team) : (s.updTeam id f).out = s.out := rfl
@[simp] theorem State.updTeam_mem (id : Nat) (f : Team → Team) : (s.updTeam id f).mem = s.mem := rfl
@[simp] theorem State.updTeam_scratch (id : Nat) (f : Team → Team) : (s.updTeam id f).scratch = s.scratch := rfl
@[simp] theorem State.updTeam_chip (id : Nat) (f : Team → Team) : (s.updTeam id f).chip = s.chip := rfl
@[simp] theorem State.updTeam_poison (id : Nat) (f : Team → Team) : (s.updTeam id f).poison = s.poison := rfl
@[simp] theorem State.updTeam_sramPoison (id : Nat) (f : Team → Team) : (s.updTeam id f).sramPoison = s.sramPoison := rfl
@[simp] theorem State.updTeam_ms (id : Nat) (f : Team → Team) : (s.updTeam id f).ms = s.ms := rfl
@[simp] theorem State.updTeam_parts (id : Nat) (f : Team → Team) : (s.updTeam id f).parts = s.parts := rfl
@[simp] theorem State.updTeam_grids (id : Nat) (f : Team → Team) : (s.updTeam id f).grids = s.grids := rfl
@[simp] theorem State.updTeam_groups (id : Nat) (f : Team → Team) : (s.updTeam id f).groups = s.groups := rfl
@[simp] theorem State.updTeam_shadows (id : Nat) (f : Team → Team) : (s.updTeam id f).shadows = s.shadows := rfl
@[simp] theorem State.updTeam_graphs (id : Nat) (f : Team → Team) : (s.updTeam id f).graphs = s.graphs := rfl
@[simp] theorem State.updTeam_fwd (id : Nat) (f : Team → Team) : (s.updTeam id f).fwd = s.fwd := rfl
@[simp] theorem State.updTeam_lines (id : Nat) (f : Team → Team) : (s.updTeam id f).lines = s.lines := rfl
@[simp] theorem State.updTeam_eng (id : Nat) (f : Team → Team) : (s.updTeam id f).eng = s.eng := rfl
@[simp] theorem State.updTeam_render (id : Nat) (f : Team → Team) : (s.updTeam id f).render = s.render := rfl
@[simp] theorem State.updTeam_images (id : Nat) (f : Team → Team) : (s.updTeam id f).images = s.images := rfl
@[simp] theorem State.updTeam_time (id : Nat) (f : Team → Team) : (s.updTeam id f).time = s.time := rfl
@[simp] theorem State.updTeam_therm (id : Nat) (f : Team → Team) : (s.updTeam id f).therm = s.therm := rfl
@[simp] theorem State.updTeam_caddy (id : Nat) (f : Team → Team) : (s.updTeam id f).caddy = s.caddy := rfl
@[simp] theorem State.updTeam_links (id : Nat) (f : Team → Team) : (s.updTeam id f).links = s.links := rfl
@[simp] theorem State.updTeam_pf (id : Nat) (f : Team → Team) : (s.updTeam id f).pf = s.pf := rfl
@[simp] theorem State.updTeam_disabledCores (id : Nat) (f : Team → Team) : (s.updTeam id f).disabledCores = s.disabledCores := rfl
@[simp] theorem State.updTeam_retiring (id : Nat) (f : Team → Team) : (s.updTeam id f).retiring = s.retiring := rfl
@[simp] theorem State.updTeam_vacant (id : Nat) (f : Team → Team) : (s.updTeam id f).vacant = s.vacant := rfl
@[simp] theorem State.updTeam_l2ret0 (id : Nat) (f : Team → Team) : (s.updTeam id f).l2ret0 = s.l2ret0 := rfl
@[simp] theorem State.updTeam_l2ret1 (id : Nat) (f : Team → Team) : (s.updTeam id f).l2ret1 = s.l2ret1 := rfl
@[simp] theorem State.updTeam_powered (id : Nat) (f : Team → Team) : (s.updTeam id f).powered = s.powered := rfl

@[simp] theorem State.updGrid_agenda (id : Nat) (f : Grid → Grid) : (s.updGrid id f).agenda = s.agenda := rfl
@[simp] theorem State.updGrid_turn (id : Nat) (f : Grid → Grid) : (s.updGrid id f).turn = s.turn := rfl
@[simp] theorem State.updGrid_issue (id : Nat) (f : Grid → Grid) : (s.updGrid id f).issue = s.issue := rfl
@[simp] theorem State.updGrid_fresh (id : Nat) (f : Grid → Grid) : (s.updGrid id f).fresh = s.fresh := rfl
@[simp] theorem State.updGrid_out (id : Nat) (f : Grid → Grid) : (s.updGrid id f).out = s.out := rfl
@[simp] theorem State.updGrid_mem (id : Nat) (f : Grid → Grid) : (s.updGrid id f).mem = s.mem := rfl
@[simp] theorem State.updGrid_scratch (id : Nat) (f : Grid → Grid) : (s.updGrid id f).scratch = s.scratch := rfl
@[simp] theorem State.updGrid_chip (id : Nat) (f : Grid → Grid) : (s.updGrid id f).chip = s.chip := rfl
@[simp] theorem State.updGrid_poison (id : Nat) (f : Grid → Grid) : (s.updGrid id f).poison = s.poison := rfl
@[simp] theorem State.updGrid_sramPoison (id : Nat) (f : Grid → Grid) : (s.updGrid id f).sramPoison = s.sramPoison := rfl
@[simp] theorem State.updGrid_ms (id : Nat) (f : Grid → Grid) : (s.updGrid id f).ms = s.ms := rfl
@[simp] theorem State.updGrid_parts (id : Nat) (f : Grid → Grid) : (s.updGrid id f).parts = s.parts := rfl
@[simp] theorem State.updGrid_teams (id : Nat) (f : Grid → Grid) : (s.updGrid id f).teams = s.teams := rfl
@[simp] theorem State.updGrid_groups (id : Nat) (f : Grid → Grid) : (s.updGrid id f).groups = s.groups := rfl
@[simp] theorem State.updGrid_shadows (id : Nat) (f : Grid → Grid) : (s.updGrid id f).shadows = s.shadows := rfl
@[simp] theorem State.updGrid_graphs (id : Nat) (f : Grid → Grid) : (s.updGrid id f).graphs = s.graphs := rfl
@[simp] theorem State.updGrid_fwd (id : Nat) (f : Grid → Grid) : (s.updGrid id f).fwd = s.fwd := rfl
@[simp] theorem State.updGrid_lines (id : Nat) (f : Grid → Grid) : (s.updGrid id f).lines = s.lines := rfl
@[simp] theorem State.updGrid_eng (id : Nat) (f : Grid → Grid) : (s.updGrid id f).eng = s.eng := rfl
@[simp] theorem State.updGrid_render (id : Nat) (f : Grid → Grid) : (s.updGrid id f).render = s.render := rfl
@[simp] theorem State.updGrid_images (id : Nat) (f : Grid → Grid) : (s.updGrid id f).images = s.images := rfl
@[simp] theorem State.updGrid_time (id : Nat) (f : Grid → Grid) : (s.updGrid id f).time = s.time := rfl
@[simp] theorem State.updGrid_therm (id : Nat) (f : Grid → Grid) : (s.updGrid id f).therm = s.therm := rfl
@[simp] theorem State.updGrid_caddy (id : Nat) (f : Grid → Grid) : (s.updGrid id f).caddy = s.caddy := rfl
@[simp] theorem State.updGrid_links (id : Nat) (f : Grid → Grid) : (s.updGrid id f).links = s.links := rfl
@[simp] theorem State.updGrid_pf (id : Nat) (f : Grid → Grid) : (s.updGrid id f).pf = s.pf := rfl
@[simp] theorem State.updGrid_disabledCores (id : Nat) (f : Grid → Grid) : (s.updGrid id f).disabledCores = s.disabledCores := rfl
@[simp] theorem State.updGrid_retiring (id : Nat) (f : Grid → Grid) : (s.updGrid id f).retiring = s.retiring := rfl
@[simp] theorem State.updGrid_vacant (id : Nat) (f : Grid → Grid) : (s.updGrid id f).vacant = s.vacant := rfl
@[simp] theorem State.updGrid_l2ret0 (id : Nat) (f : Grid → Grid) : (s.updGrid id f).l2ret0 = s.l2ret0 := rfl
@[simp] theorem State.updGrid_l2ret1 (id : Nat) (f : Grid → Grid) : (s.updGrid id f).l2ret1 = s.l2ret1 := rfl
@[simp] theorem State.updGrid_powered (id : Nat) (f : Grid → Grid) : (s.updGrid id f).powered = s.powered := rfl

@[simp] theorem State.send_agenda (m : OutMsg) : (s.send m).agenda = s.agenda := rfl
@[simp] theorem State.send_turn (m : OutMsg) : (s.send m).turn = s.turn := rfl
@[simp] theorem State.send_issue (m : OutMsg) : (s.send m).issue = s.issue := rfl
@[simp] theorem State.send_fresh (m : OutMsg) : (s.send m).fresh = s.fresh := rfl
@[simp] theorem State.send_mem (m : OutMsg) : (s.send m).mem = s.mem := rfl
@[simp] theorem State.send_scratch (m : OutMsg) : (s.send m).scratch = s.scratch := rfl
@[simp] theorem State.send_chip (m : OutMsg) : (s.send m).chip = s.chip := rfl
@[simp] theorem State.send_poison (m : OutMsg) : (s.send m).poison = s.poison := rfl
@[simp] theorem State.send_sramPoison (m : OutMsg) : (s.send m).sramPoison = s.sramPoison := rfl
@[simp] theorem State.send_ms (m : OutMsg) : (s.send m).ms = s.ms := rfl
@[simp] theorem State.send_parts (m : OutMsg) : (s.send m).parts = s.parts := rfl
@[simp] theorem State.send_grids (m : OutMsg) : (s.send m).grids = s.grids := rfl
@[simp] theorem State.send_teams (m : OutMsg) : (s.send m).teams = s.teams := rfl
@[simp] theorem State.send_groups (m : OutMsg) : (s.send m).groups = s.groups := rfl
@[simp] theorem State.send_shadows (m : OutMsg) : (s.send m).shadows = s.shadows := rfl
@[simp] theorem State.send_graphs (m : OutMsg) : (s.send m).graphs = s.graphs := rfl
@[simp] theorem State.send_fwd (m : OutMsg) : (s.send m).fwd = s.fwd := rfl
@[simp] theorem State.send_lines (m : OutMsg) : (s.send m).lines = s.lines := rfl
@[simp] theorem State.send_eng (m : OutMsg) : (s.send m).eng = s.eng := rfl
@[simp] theorem State.send_render (m : OutMsg) : (s.send m).render = s.render := rfl
@[simp] theorem State.send_images (m : OutMsg) : (s.send m).images = s.images := rfl
@[simp] theorem State.send_time (m : OutMsg) : (s.send m).time = s.time := rfl
@[simp] theorem State.send_therm (m : OutMsg) : (s.send m).therm = s.therm := rfl
@[simp] theorem State.send_caddy (m : OutMsg) : (s.send m).caddy = s.caddy := rfl
@[simp] theorem State.send_links (m : OutMsg) : (s.send m).links = s.links := rfl
@[simp] theorem State.send_pf (m : OutMsg) : (s.send m).pf = s.pf := rfl
@[simp] theorem State.send_disabledCores (m : OutMsg) : (s.send m).disabledCores = s.disabledCores := rfl
@[simp] theorem State.send_retiring (m : OutMsg) : (s.send m).retiring = s.retiring := rfl
@[simp] theorem State.send_vacant (m : OutMsg) : (s.send m).vacant = s.vacant := rfl
@[simp] theorem State.send_l2ret0 (m : OutMsg) : (s.send m).l2ret0 = s.l2ret0 := rfl
@[simp] theorem State.send_l2ret1 (m : OutMsg) : (s.send m).l2ret1 = s.l2ret1 := rfl
@[simp] theorem State.send_powered (m : OutMsg) : (s.send m).powered = s.powered := rfl

@[simp] theorem State.updCaddy_agenda (f : Caddy → Caddy) : (s.updCaddy f).agenda = s.agenda := rfl
@[simp] theorem State.updCaddy_turn (f : Caddy → Caddy) : (s.updCaddy f).turn = s.turn := rfl
@[simp] theorem State.updCaddy_issue (f : Caddy → Caddy) : (s.updCaddy f).issue = s.issue := rfl
@[simp] theorem State.updCaddy_fresh (f : Caddy → Caddy) : (s.updCaddy f).fresh = s.fresh := rfl
@[simp] theorem State.updCaddy_out (f : Caddy → Caddy) : (s.updCaddy f).out = s.out := rfl
@[simp] theorem State.updCaddy_mem (f : Caddy → Caddy) : (s.updCaddy f).mem = s.mem := rfl
@[simp] theorem State.updCaddy_scratch (f : Caddy → Caddy) : (s.updCaddy f).scratch = s.scratch := rfl
@[simp] theorem State.updCaddy_chip (f : Caddy → Caddy) : (s.updCaddy f).chip = s.chip := rfl
@[simp] theorem State.updCaddy_poison (f : Caddy → Caddy) : (s.updCaddy f).poison = s.poison := rfl
@[simp] theorem State.updCaddy_sramPoison (f : Caddy → Caddy) : (s.updCaddy f).sramPoison = s.sramPoison := rfl
@[simp] theorem State.updCaddy_ms (f : Caddy → Caddy) : (s.updCaddy f).ms = s.ms := rfl
@[simp] theorem State.updCaddy_parts (f : Caddy → Caddy) : (s.updCaddy f).parts = s.parts := rfl
@[simp] theorem State.updCaddy_grids (f : Caddy → Caddy) : (s.updCaddy f).grids = s.grids := rfl
@[simp] theorem State.updCaddy_teams (f : Caddy → Caddy) : (s.updCaddy f).teams = s.teams := rfl
@[simp] theorem State.updCaddy_groups (f : Caddy → Caddy) : (s.updCaddy f).groups = s.groups := rfl
@[simp] theorem State.updCaddy_shadows (f : Caddy → Caddy) : (s.updCaddy f).shadows = s.shadows := rfl
@[simp] theorem State.updCaddy_graphs (f : Caddy → Caddy) : (s.updCaddy f).graphs = s.graphs := rfl
@[simp] theorem State.updCaddy_fwd (f : Caddy → Caddy) : (s.updCaddy f).fwd = s.fwd := rfl
@[simp] theorem State.updCaddy_lines (f : Caddy → Caddy) : (s.updCaddy f).lines = s.lines := rfl
@[simp] theorem State.updCaddy_eng (f : Caddy → Caddy) : (s.updCaddy f).eng = s.eng := rfl
@[simp] theorem State.updCaddy_render (f : Caddy → Caddy) : (s.updCaddy f).render = s.render := rfl
@[simp] theorem State.updCaddy_images (f : Caddy → Caddy) : (s.updCaddy f).images = s.images := rfl
@[simp] theorem State.updCaddy_time (f : Caddy → Caddy) : (s.updCaddy f).time = s.time := rfl
@[simp] theorem State.updCaddy_therm (f : Caddy → Caddy) : (s.updCaddy f).therm = s.therm := rfl
@[simp] theorem State.updCaddy_links (f : Caddy → Caddy) : (s.updCaddy f).links = s.links := rfl
@[simp] theorem State.updCaddy_pf (f : Caddy → Caddy) : (s.updCaddy f).pf = s.pf := rfl
@[simp] theorem State.updCaddy_disabledCores (f : Caddy → Caddy) : (s.updCaddy f).disabledCores = s.disabledCores := rfl
@[simp] theorem State.updCaddy_retiring (f : Caddy → Caddy) : (s.updCaddy f).retiring = s.retiring := rfl
@[simp] theorem State.updCaddy_vacant (f : Caddy → Caddy) : (s.updCaddy f).vacant = s.vacant := rfl
@[simp] theorem State.updCaddy_l2ret0 (f : Caddy → Caddy) : (s.updCaddy f).l2ret0 = s.l2ret0 := rfl
@[simp] theorem State.updCaddy_l2ret1 (f : Caddy → Caddy) : (s.updCaddy f).l2ret1 = s.l2ret1 := rfl
@[simp] theorem State.updCaddy_powered (f : Caddy → Caddy) : (s.updCaddy f).powered = s.powered := rfl

@[simp] theorem State.updGraph_agenda (id : Nat) (f : Graph → Graph) : (s.updGraph id f).agenda = s.agenda := rfl
@[simp] theorem State.updGraph_turn (id : Nat) (f : Graph → Graph) : (s.updGraph id f).turn = s.turn := rfl
@[simp] theorem State.updGraph_issue (id : Nat) (f : Graph → Graph) : (s.updGraph id f).issue = s.issue := rfl
@[simp] theorem State.updGraph_fresh (id : Nat) (f : Graph → Graph) : (s.updGraph id f).fresh = s.fresh := rfl
@[simp] theorem State.updGraph_out (id : Nat) (f : Graph → Graph) : (s.updGraph id f).out = s.out := rfl
@[simp] theorem State.updGraph_mem (id : Nat) (f : Graph → Graph) : (s.updGraph id f).mem = s.mem := rfl
@[simp] theorem State.updGraph_scratch (id : Nat) (f : Graph → Graph) : (s.updGraph id f).scratch = s.scratch := rfl
@[simp] theorem State.updGraph_chip (id : Nat) (f : Graph → Graph) : (s.updGraph id f).chip = s.chip := rfl
@[simp] theorem State.updGraph_poison (id : Nat) (f : Graph → Graph) : (s.updGraph id f).poison = s.poison := rfl
@[simp] theorem State.updGraph_sramPoison (id : Nat) (f : Graph → Graph) : (s.updGraph id f).sramPoison = s.sramPoison := rfl
@[simp] theorem State.updGraph_ms (id : Nat) (f : Graph → Graph) : (s.updGraph id f).ms = s.ms := rfl
@[simp] theorem State.updGraph_parts (id : Nat) (f : Graph → Graph) : (s.updGraph id f).parts = s.parts := rfl
@[simp] theorem State.updGraph_grids (id : Nat) (f : Graph → Graph) : (s.updGraph id f).grids = s.grids := rfl
@[simp] theorem State.updGraph_teams (id : Nat) (f : Graph → Graph) : (s.updGraph id f).teams = s.teams := rfl
@[simp] theorem State.updGraph_groups (id : Nat) (f : Graph → Graph) : (s.updGraph id f).groups = s.groups := rfl
@[simp] theorem State.updGraph_shadows (id : Nat) (f : Graph → Graph) : (s.updGraph id f).shadows = s.shadows := rfl
@[simp] theorem State.updGraph_fwd (id : Nat) (f : Graph → Graph) : (s.updGraph id f).fwd = s.fwd := rfl
@[simp] theorem State.updGraph_lines (id : Nat) (f : Graph → Graph) : (s.updGraph id f).lines = s.lines := rfl
@[simp] theorem State.updGraph_eng (id : Nat) (f : Graph → Graph) : (s.updGraph id f).eng = s.eng := rfl
@[simp] theorem State.updGraph_render (id : Nat) (f : Graph → Graph) : (s.updGraph id f).render = s.render := rfl
@[simp] theorem State.updGraph_images (id : Nat) (f : Graph → Graph) : (s.updGraph id f).images = s.images := rfl
@[simp] theorem State.updGraph_time (id : Nat) (f : Graph → Graph) : (s.updGraph id f).time = s.time := rfl
@[simp] theorem State.updGraph_therm (id : Nat) (f : Graph → Graph) : (s.updGraph id f).therm = s.therm := rfl
@[simp] theorem State.updGraph_caddy (id : Nat) (f : Graph → Graph) : (s.updGraph id f).caddy = s.caddy := rfl
@[simp] theorem State.updGraph_links (id : Nat) (f : Graph → Graph) : (s.updGraph id f).links = s.links := rfl
@[simp] theorem State.updGraph_pf (id : Nat) (f : Graph → Graph) : (s.updGraph id f).pf = s.pf := rfl
@[simp] theorem State.updGraph_disabledCores (id : Nat) (f : Graph → Graph) : (s.updGraph id f).disabledCores = s.disabledCores := rfl
@[simp] theorem State.updGraph_retiring (id : Nat) (f : Graph → Graph) : (s.updGraph id f).retiring = s.retiring := rfl
@[simp] theorem State.updGraph_vacant (id : Nat) (f : Graph → Graph) : (s.updGraph id f).vacant = s.vacant := rfl
@[simp] theorem State.updGraph_l2ret0 (id : Nat) (f : Graph → Graph) : (s.updGraph id f).l2ret0 = s.l2ret0 := rfl
@[simp] theorem State.updGraph_l2ret1 (id : Nat) (f : Graph → Graph) : (s.updGraph id f).l2ret1 = s.l2ret1 := rfl
@[simp] theorem State.updGraph_powered (id : Nat) (f : Graph → Graph) : (s.updGraph id f).powered = s.powered := rfl

@[simp] theorem State.updCmd_agenda (id : Nat) (f : EngCmd → EngCmd) : (s.updCmd id f).agenda = s.agenda := rfl
@[simp] theorem State.updCmd_turn (id : Nat) (f : EngCmd → EngCmd) : (s.updCmd id f).turn = s.turn := rfl
@[simp] theorem State.updCmd_issue (id : Nat) (f : EngCmd → EngCmd) : (s.updCmd id f).issue = s.issue := rfl
@[simp] theorem State.updCmd_fresh (id : Nat) (f : EngCmd → EngCmd) : (s.updCmd id f).fresh = s.fresh := rfl
@[simp] theorem State.updCmd_out (id : Nat) (f : EngCmd → EngCmd) : (s.updCmd id f).out = s.out := rfl
@[simp] theorem State.updCmd_mem (id : Nat) (f : EngCmd → EngCmd) : (s.updCmd id f).mem = s.mem := rfl
@[simp] theorem State.updCmd_scratch (id : Nat) (f : EngCmd → EngCmd) : (s.updCmd id f).scratch = s.scratch := rfl
@[simp] theorem State.updCmd_chip (id : Nat) (f : EngCmd → EngCmd) : (s.updCmd id f).chip = s.chip := rfl
@[simp] theorem State.updCmd_poison (id : Nat) (f : EngCmd → EngCmd) : (s.updCmd id f).poison = s.poison := rfl
@[simp] theorem State.updCmd_sramPoison (id : Nat) (f : EngCmd → EngCmd) : (s.updCmd id f).sramPoison = s.sramPoison := rfl
@[simp] theorem State.updCmd_ms (id : Nat) (f : EngCmd → EngCmd) : (s.updCmd id f).ms = s.ms := rfl
@[simp] theorem State.updCmd_parts (id : Nat) (f : EngCmd → EngCmd) : (s.updCmd id f).parts = s.parts := rfl
@[simp] theorem State.updCmd_grids (id : Nat) (f : EngCmd → EngCmd) : (s.updCmd id f).grids = s.grids := rfl
@[simp] theorem State.updCmd_teams (id : Nat) (f : EngCmd → EngCmd) : (s.updCmd id f).teams = s.teams := rfl
@[simp] theorem State.updCmd_groups (id : Nat) (f : EngCmd → EngCmd) : (s.updCmd id f).groups = s.groups := rfl
@[simp] theorem State.updCmd_shadows (id : Nat) (f : EngCmd → EngCmd) : (s.updCmd id f).shadows = s.shadows := rfl
@[simp] theorem State.updCmd_graphs (id : Nat) (f : EngCmd → EngCmd) : (s.updCmd id f).graphs = s.graphs := rfl
@[simp] theorem State.updCmd_fwd (id : Nat) (f : EngCmd → EngCmd) : (s.updCmd id f).fwd = s.fwd := rfl
@[simp] theorem State.updCmd_lines (id : Nat) (f : EngCmd → EngCmd) : (s.updCmd id f).lines = s.lines := rfl
@[simp] theorem State.updCmd_render (id : Nat) (f : EngCmd → EngCmd) : (s.updCmd id f).render = s.render := rfl
@[simp] theorem State.updCmd_images (id : Nat) (f : EngCmd → EngCmd) : (s.updCmd id f).images = s.images := rfl
@[simp] theorem State.updCmd_time (id : Nat) (f : EngCmd → EngCmd) : (s.updCmd id f).time = s.time := rfl
@[simp] theorem State.updCmd_therm (id : Nat) (f : EngCmd → EngCmd) : (s.updCmd id f).therm = s.therm := rfl
@[simp] theorem State.updCmd_caddy (id : Nat) (f : EngCmd → EngCmd) : (s.updCmd id f).caddy = s.caddy := rfl
@[simp] theorem State.updCmd_links (id : Nat) (f : EngCmd → EngCmd) : (s.updCmd id f).links = s.links := rfl
@[simp] theorem State.updCmd_pf (id : Nat) (f : EngCmd → EngCmd) : (s.updCmd id f).pf = s.pf := rfl
@[simp] theorem State.updCmd_disabledCores (id : Nat) (f : EngCmd → EngCmd) : (s.updCmd id f).disabledCores = s.disabledCores := rfl
@[simp] theorem State.updCmd_retiring (id : Nat) (f : EngCmd → EngCmd) : (s.updCmd id f).retiring = s.retiring := rfl
@[simp] theorem State.updCmd_vacant (id : Nat) (f : EngCmd → EngCmd) : (s.updCmd id f).vacant = s.vacant := rfl
@[simp] theorem State.updCmd_l2ret0 (id : Nat) (f : EngCmd → EngCmd) : (s.updCmd id f).l2ret0 = s.l2ret0 := rfl
@[simp] theorem State.updCmd_l2ret1 (id : Nat) (f : EngCmd → EngCmd) : (s.updCmd id f).l2ret1 = s.l2ret1 := rfl
@[simp] theorem State.updCmd_powered (id : Nat) (f : EngCmd → EngCmd) : (s.updCmd id f).powered = s.powered := rfl

@[simp] theorem State.updChain_agenda (id : Nat) (f : Chain → Chain) : (s.updChain id f).agenda = s.agenda := rfl
@[simp] theorem State.updChain_turn (id : Nat) (f : Chain → Chain) : (s.updChain id f).turn = s.turn := rfl
@[simp] theorem State.updChain_issue (id : Nat) (f : Chain → Chain) : (s.updChain id f).issue = s.issue := rfl
@[simp] theorem State.updChain_fresh (id : Nat) (f : Chain → Chain) : (s.updChain id f).fresh = s.fresh := rfl
@[simp] theorem State.updChain_out (id : Nat) (f : Chain → Chain) : (s.updChain id f).out = s.out := rfl
@[simp] theorem State.updChain_mem (id : Nat) (f : Chain → Chain) : (s.updChain id f).mem = s.mem := rfl
@[simp] theorem State.updChain_scratch (id : Nat) (f : Chain → Chain) : (s.updChain id f).scratch = s.scratch := rfl
@[simp] theorem State.updChain_chip (id : Nat) (f : Chain → Chain) : (s.updChain id f).chip = s.chip := rfl
@[simp] theorem State.updChain_poison (id : Nat) (f : Chain → Chain) : (s.updChain id f).poison = s.poison := rfl
@[simp] theorem State.updChain_sramPoison (id : Nat) (f : Chain → Chain) : (s.updChain id f).sramPoison = s.sramPoison := rfl
@[simp] theorem State.updChain_ms (id : Nat) (f : Chain → Chain) : (s.updChain id f).ms = s.ms := rfl
@[simp] theorem State.updChain_parts (id : Nat) (f : Chain → Chain) : (s.updChain id f).parts = s.parts := rfl
@[simp] theorem State.updChain_grids (id : Nat) (f : Chain → Chain) : (s.updChain id f).grids = s.grids := rfl
@[simp] theorem State.updChain_teams (id : Nat) (f : Chain → Chain) : (s.updChain id f).teams = s.teams := rfl
@[simp] theorem State.updChain_groups (id : Nat) (f : Chain → Chain) : (s.updChain id f).groups = s.groups := rfl
@[simp] theorem State.updChain_shadows (id : Nat) (f : Chain → Chain) : (s.updChain id f).shadows = s.shadows := rfl
@[simp] theorem State.updChain_graphs (id : Nat) (f : Chain → Chain) : (s.updChain id f).graphs = s.graphs := rfl
@[simp] theorem State.updChain_fwd (id : Nat) (f : Chain → Chain) : (s.updChain id f).fwd = s.fwd := rfl
@[simp] theorem State.updChain_lines (id : Nat) (f : Chain → Chain) : (s.updChain id f).lines = s.lines := rfl
@[simp] theorem State.updChain_render (id : Nat) (f : Chain → Chain) : (s.updChain id f).render = s.render := rfl
@[simp] theorem State.updChain_images (id : Nat) (f : Chain → Chain) : (s.updChain id f).images = s.images := rfl
@[simp] theorem State.updChain_time (id : Nat) (f : Chain → Chain) : (s.updChain id f).time = s.time := rfl
@[simp] theorem State.updChain_therm (id : Nat) (f : Chain → Chain) : (s.updChain id f).therm = s.therm := rfl
@[simp] theorem State.updChain_caddy (id : Nat) (f : Chain → Chain) : (s.updChain id f).caddy = s.caddy := rfl
@[simp] theorem State.updChain_links (id : Nat) (f : Chain → Chain) : (s.updChain id f).links = s.links := rfl
@[simp] theorem State.updChain_pf (id : Nat) (f : Chain → Chain) : (s.updChain id f).pf = s.pf := rfl
@[simp] theorem State.updChain_disabledCores (id : Nat) (f : Chain → Chain) : (s.updChain id f).disabledCores = s.disabledCores := rfl
@[simp] theorem State.updChain_retiring (id : Nat) (f : Chain → Chain) : (s.updChain id f).retiring = s.retiring := rfl
@[simp] theorem State.updChain_vacant (id : Nat) (f : Chain → Chain) : (s.updChain id f).vacant = s.vacant := rfl
@[simp] theorem State.updChain_l2ret0 (id : Nat) (f : Chain → Chain) : (s.updChain id f).l2ret0 = s.l2ret0 := rfl
@[simp] theorem State.updChain_l2ret1 (id : Nat) (f : Chain → Chain) : (s.updChain id f).l2ret1 = s.l2ret1 := rfl
@[simp] theorem State.updChain_powered (id : Nat) (f : Chain → Chain) : (s.updChain id f).powered = s.powered := rfl

@[simp] theorem State.updStream_agenda (p st : Nat) (f : Stream → Stream) : (s.updStream p st f).agenda = s.agenda := rfl
@[simp] theorem State.updStream_turn (p st : Nat) (f : Stream → Stream) : (s.updStream p st f).turn = s.turn := rfl
@[simp] theorem State.updStream_issue (p st : Nat) (f : Stream → Stream) : (s.updStream p st f).issue = s.issue := rfl
@[simp] theorem State.updStream_fresh (p st : Nat) (f : Stream → Stream) : (s.updStream p st f).fresh = s.fresh := rfl
@[simp] theorem State.updStream_out (p st : Nat) (f : Stream → Stream) : (s.updStream p st f).out = s.out := rfl
@[simp] theorem State.updStream_mem (p st : Nat) (f : Stream → Stream) : (s.updStream p st f).mem = s.mem := rfl
@[simp] theorem State.updStream_scratch (p st : Nat) (f : Stream → Stream) : (s.updStream p st f).scratch = s.scratch := rfl
@[simp] theorem State.updStream_chip (p st : Nat) (f : Stream → Stream) : (s.updStream p st f).chip = s.chip := rfl
@[simp] theorem State.updStream_poison (p st : Nat) (f : Stream → Stream) : (s.updStream p st f).poison = s.poison := rfl
@[simp] theorem State.updStream_sramPoison (p st : Nat) (f : Stream → Stream) : (s.updStream p st f).sramPoison = s.sramPoison := rfl
@[simp] theorem State.updStream_ms (p st : Nat) (f : Stream → Stream) : (s.updStream p st f).ms = s.ms := rfl
@[simp] theorem State.updStream_grids (p st : Nat) (f : Stream → Stream) : (s.updStream p st f).grids = s.grids := rfl
@[simp] theorem State.updStream_teams (p st : Nat) (f : Stream → Stream) : (s.updStream p st f).teams = s.teams := rfl
@[simp] theorem State.updStream_groups (p st : Nat) (f : Stream → Stream) : (s.updStream p st f).groups = s.groups := rfl
@[simp] theorem State.updStream_shadows (p st : Nat) (f : Stream → Stream) : (s.updStream p st f).shadows = s.shadows := rfl
@[simp] theorem State.updStream_graphs (p st : Nat) (f : Stream → Stream) : (s.updStream p st f).graphs = s.graphs := rfl
@[simp] theorem State.updStream_fwd (p st : Nat) (f : Stream → Stream) : (s.updStream p st f).fwd = s.fwd := rfl
@[simp] theorem State.updStream_lines (p st : Nat) (f : Stream → Stream) : (s.updStream p st f).lines = s.lines := rfl
@[simp] theorem State.updStream_eng (p st : Nat) (f : Stream → Stream) : (s.updStream p st f).eng = s.eng := rfl
@[simp] theorem State.updStream_render (p st : Nat) (f : Stream → Stream) : (s.updStream p st f).render = s.render := rfl
@[simp] theorem State.updStream_images (p st : Nat) (f : Stream → Stream) : (s.updStream p st f).images = s.images := rfl
@[simp] theorem State.updStream_time (p st : Nat) (f : Stream → Stream) : (s.updStream p st f).time = s.time := rfl
@[simp] theorem State.updStream_therm (p st : Nat) (f : Stream → Stream) : (s.updStream p st f).therm = s.therm := rfl
@[simp] theorem State.updStream_caddy (p st : Nat) (f : Stream → Stream) : (s.updStream p st f).caddy = s.caddy := rfl
@[simp] theorem State.updStream_links (p st : Nat) (f : Stream → Stream) : (s.updStream p st f).links = s.links := rfl
@[simp] theorem State.updStream_pf (p st : Nat) (f : Stream → Stream) : (s.updStream p st f).pf = s.pf := rfl
@[simp] theorem State.updStream_disabledCores (p st : Nat) (f : Stream → Stream) : (s.updStream p st f).disabledCores = s.disabledCores := rfl
@[simp] theorem State.updStream_retiring (p st : Nat) (f : Stream → Stream) : (s.updStream p st f).retiring = s.retiring := rfl
@[simp] theorem State.updStream_vacant (p st : Nat) (f : Stream → Stream) : (s.updStream p st f).vacant = s.vacant := rfl
@[simp] theorem State.updStream_l2ret0 (p st : Nat) (f : Stream → Stream) : (s.updStream p st f).l2ret0 = s.l2ret0 := rfl
@[simp] theorem State.updStream_l2ret1 (p st : Nat) (f : Stream → Stream) : (s.updStream p st f).l2ret1 = s.l2ret1 := rfl
@[simp] theorem State.updStream_powered (p st : Nat) (f : Stream → Stream) : (s.updStream p st f).powered = s.powered := rfl

@[simp] theorem State.updJob_agenda (id : Nat) (f : MatrixJob → MatrixJob) : (s.updJob id f).agenda = s.agenda := rfl
@[simp] theorem State.updJob_turn (id : Nat) (f : MatrixJob → MatrixJob) : (s.updJob id f).turn = s.turn := rfl
@[simp] theorem State.updJob_issue (id : Nat) (f : MatrixJob → MatrixJob) : (s.updJob id f).issue = s.issue := rfl
@[simp] theorem State.updJob_fresh (id : Nat) (f : MatrixJob → MatrixJob) : (s.updJob id f).fresh = s.fresh := rfl
@[simp] theorem State.updJob_out (id : Nat) (f : MatrixJob → MatrixJob) : (s.updJob id f).out = s.out := rfl
@[simp] theorem State.updJob_mem (id : Nat) (f : MatrixJob → MatrixJob) : (s.updJob id f).mem = s.mem := rfl
@[simp] theorem State.updJob_scratch (id : Nat) (f : MatrixJob → MatrixJob) : (s.updJob id f).scratch = s.scratch := rfl
@[simp] theorem State.updJob_chip (id : Nat) (f : MatrixJob → MatrixJob) : (s.updJob id f).chip = s.chip := rfl
@[simp] theorem State.updJob_poison (id : Nat) (f : MatrixJob → MatrixJob) : (s.updJob id f).poison = s.poison := rfl
@[simp] theorem State.updJob_sramPoison (id : Nat) (f : MatrixJob → MatrixJob) : (s.updJob id f).sramPoison = s.sramPoison := rfl
@[simp] theorem State.updJob_ms (id : Nat) (f : MatrixJob → MatrixJob) : (s.updJob id f).ms = s.ms := rfl
@[simp] theorem State.updJob_parts (id : Nat) (f : MatrixJob → MatrixJob) : (s.updJob id f).parts = s.parts := rfl
@[simp] theorem State.updJob_grids (id : Nat) (f : MatrixJob → MatrixJob) : (s.updJob id f).grids = s.grids := rfl
@[simp] theorem State.updJob_teams (id : Nat) (f : MatrixJob → MatrixJob) : (s.updJob id f).teams = s.teams := rfl
@[simp] theorem State.updJob_groups (id : Nat) (f : MatrixJob → MatrixJob) : (s.updJob id f).groups = s.groups := rfl
@[simp] theorem State.updJob_shadows (id : Nat) (f : MatrixJob → MatrixJob) : (s.updJob id f).shadows = s.shadows := rfl
@[simp] theorem State.updJob_graphs (id : Nat) (f : MatrixJob → MatrixJob) : (s.updJob id f).graphs = s.graphs := rfl
@[simp] theorem State.updJob_fwd (id : Nat) (f : MatrixJob → MatrixJob) : (s.updJob id f).fwd = s.fwd := rfl
@[simp] theorem State.updJob_lines (id : Nat) (f : MatrixJob → MatrixJob) : (s.updJob id f).lines = s.lines := rfl
@[simp] theorem State.updJob_eng (id : Nat) (f : MatrixJob → MatrixJob) : (s.updJob id f).eng = s.eng := rfl
@[simp] theorem State.updJob_images (id : Nat) (f : MatrixJob → MatrixJob) : (s.updJob id f).images = s.images := rfl
@[simp] theorem State.updJob_time (id : Nat) (f : MatrixJob → MatrixJob) : (s.updJob id f).time = s.time := rfl
@[simp] theorem State.updJob_therm (id : Nat) (f : MatrixJob → MatrixJob) : (s.updJob id f).therm = s.therm := rfl
@[simp] theorem State.updJob_caddy (id : Nat) (f : MatrixJob → MatrixJob) : (s.updJob id f).caddy = s.caddy := rfl
@[simp] theorem State.updJob_links (id : Nat) (f : MatrixJob → MatrixJob) : (s.updJob id f).links = s.links := rfl
@[simp] theorem State.updJob_pf (id : Nat) (f : MatrixJob → MatrixJob) : (s.updJob id f).pf = s.pf := rfl
@[simp] theorem State.updJob_disabledCores (id : Nat) (f : MatrixJob → MatrixJob) : (s.updJob id f).disabledCores = s.disabledCores := rfl
@[simp] theorem State.updJob_retiring (id : Nat) (f : MatrixJob → MatrixJob) : (s.updJob id f).retiring = s.retiring := rfl
@[simp] theorem State.updJob_vacant (id : Nat) (f : MatrixJob → MatrixJob) : (s.updJob id f).vacant = s.vacant := rfl
@[simp] theorem State.updJob_l2ret0 (id : Nat) (f : MatrixJob → MatrixJob) : (s.updJob id f).l2ret0 = s.l2ret0 := rfl
@[simp] theorem State.updJob_l2ret1 (id : Nat) (f : MatrixJob → MatrixJob) : (s.updJob id f).l2ret1 = s.l2ret1 := rfl
@[simp] theorem State.updJob_powered (id : Nat) (f : MatrixJob → MatrixJob) : (s.updJob id f).powered = s.powered := rfl

@[simp] theorem State.updTile_agenda (id : Nat) (f : BlendTile → BlendTile) : (s.updTile id f).agenda = s.agenda := rfl
@[simp] theorem State.updTile_turn (id : Nat) (f : BlendTile → BlendTile) : (s.updTile id f).turn = s.turn := rfl
@[simp] theorem State.updTile_issue (id : Nat) (f : BlendTile → BlendTile) : (s.updTile id f).issue = s.issue := rfl
@[simp] theorem State.updTile_fresh (id : Nat) (f : BlendTile → BlendTile) : (s.updTile id f).fresh = s.fresh := rfl
@[simp] theorem State.updTile_out (id : Nat) (f : BlendTile → BlendTile) : (s.updTile id f).out = s.out := rfl
@[simp] theorem State.updTile_mem (id : Nat) (f : BlendTile → BlendTile) : (s.updTile id f).mem = s.mem := rfl
@[simp] theorem State.updTile_scratch (id : Nat) (f : BlendTile → BlendTile) : (s.updTile id f).scratch = s.scratch := rfl
@[simp] theorem State.updTile_chip (id : Nat) (f : BlendTile → BlendTile) : (s.updTile id f).chip = s.chip := rfl
@[simp] theorem State.updTile_poison (id : Nat) (f : BlendTile → BlendTile) : (s.updTile id f).poison = s.poison := rfl
@[simp] theorem State.updTile_sramPoison (id : Nat) (f : BlendTile → BlendTile) : (s.updTile id f).sramPoison = s.sramPoison := rfl
@[simp] theorem State.updTile_ms (id : Nat) (f : BlendTile → BlendTile) : (s.updTile id f).ms = s.ms := rfl
@[simp] theorem State.updTile_parts (id : Nat) (f : BlendTile → BlendTile) : (s.updTile id f).parts = s.parts := rfl
@[simp] theorem State.updTile_grids (id : Nat) (f : BlendTile → BlendTile) : (s.updTile id f).grids = s.grids := rfl
@[simp] theorem State.updTile_teams (id : Nat) (f : BlendTile → BlendTile) : (s.updTile id f).teams = s.teams := rfl
@[simp] theorem State.updTile_groups (id : Nat) (f : BlendTile → BlendTile) : (s.updTile id f).groups = s.groups := rfl
@[simp] theorem State.updTile_shadows (id : Nat) (f : BlendTile → BlendTile) : (s.updTile id f).shadows = s.shadows := rfl
@[simp] theorem State.updTile_graphs (id : Nat) (f : BlendTile → BlendTile) : (s.updTile id f).graphs = s.graphs := rfl
@[simp] theorem State.updTile_fwd (id : Nat) (f : BlendTile → BlendTile) : (s.updTile id f).fwd = s.fwd := rfl
@[simp] theorem State.updTile_lines (id : Nat) (f : BlendTile → BlendTile) : (s.updTile id f).lines = s.lines := rfl
@[simp] theorem State.updTile_eng (id : Nat) (f : BlendTile → BlendTile) : (s.updTile id f).eng = s.eng := rfl
@[simp] theorem State.updTile_images (id : Nat) (f : BlendTile → BlendTile) : (s.updTile id f).images = s.images := rfl
@[simp] theorem State.updTile_time (id : Nat) (f : BlendTile → BlendTile) : (s.updTile id f).time = s.time := rfl
@[simp] theorem State.updTile_therm (id : Nat) (f : BlendTile → BlendTile) : (s.updTile id f).therm = s.therm := rfl
@[simp] theorem State.updTile_caddy (id : Nat) (f : BlendTile → BlendTile) : (s.updTile id f).caddy = s.caddy := rfl
@[simp] theorem State.updTile_links (id : Nat) (f : BlendTile → BlendTile) : (s.updTile id f).links = s.links := rfl
@[simp] theorem State.updTile_pf (id : Nat) (f : BlendTile → BlendTile) : (s.updTile id f).pf = s.pf := rfl
@[simp] theorem State.updTile_disabledCores (id : Nat) (f : BlendTile → BlendTile) : (s.updTile id f).disabledCores = s.disabledCores := rfl
@[simp] theorem State.updTile_retiring (id : Nat) (f : BlendTile → BlendTile) : (s.updTile id f).retiring = s.retiring := rfl
@[simp] theorem State.updTile_vacant (id : Nat) (f : BlendTile → BlendTile) : (s.updTile id f).vacant = s.vacant := rfl
@[simp] theorem State.updTile_l2ret0 (id : Nat) (f : BlendTile → BlendTile) : (s.updTile id f).l2ret0 = s.l2ret0 := rfl
@[simp] theorem State.updTile_l2ret1 (id : Nat) (f : BlendTile → BlendTile) : (s.updTile id f).l2ret1 = s.l2ret1 := rfl
@[simp] theorem State.updTile_powered (id : Nat) (f : BlendTile → BlendTile) : (s.updTile id f).powered = s.powered := rfl

@[simp] theorem State.updRay_agenda (id : Nat) (f : RaySlot → RaySlot) : (s.updRay id f).agenda = s.agenda := rfl
@[simp] theorem State.updRay_turn (id : Nat) (f : RaySlot → RaySlot) : (s.updRay id f).turn = s.turn := rfl
@[simp] theorem State.updRay_issue (id : Nat) (f : RaySlot → RaySlot) : (s.updRay id f).issue = s.issue := rfl
@[simp] theorem State.updRay_fresh (id : Nat) (f : RaySlot → RaySlot) : (s.updRay id f).fresh = s.fresh := rfl
@[simp] theorem State.updRay_out (id : Nat) (f : RaySlot → RaySlot) : (s.updRay id f).out = s.out := rfl
@[simp] theorem State.updRay_mem (id : Nat) (f : RaySlot → RaySlot) : (s.updRay id f).mem = s.mem := rfl
@[simp] theorem State.updRay_scratch (id : Nat) (f : RaySlot → RaySlot) : (s.updRay id f).scratch = s.scratch := rfl
@[simp] theorem State.updRay_chip (id : Nat) (f : RaySlot → RaySlot) : (s.updRay id f).chip = s.chip := rfl
@[simp] theorem State.updRay_poison (id : Nat) (f : RaySlot → RaySlot) : (s.updRay id f).poison = s.poison := rfl
@[simp] theorem State.updRay_sramPoison (id : Nat) (f : RaySlot → RaySlot) : (s.updRay id f).sramPoison = s.sramPoison := rfl
@[simp] theorem State.updRay_ms (id : Nat) (f : RaySlot → RaySlot) : (s.updRay id f).ms = s.ms := rfl
@[simp] theorem State.updRay_parts (id : Nat) (f : RaySlot → RaySlot) : (s.updRay id f).parts = s.parts := rfl
@[simp] theorem State.updRay_grids (id : Nat) (f : RaySlot → RaySlot) : (s.updRay id f).grids = s.grids := rfl
@[simp] theorem State.updRay_teams (id : Nat) (f : RaySlot → RaySlot) : (s.updRay id f).teams = s.teams := rfl
@[simp] theorem State.updRay_groups (id : Nat) (f : RaySlot → RaySlot) : (s.updRay id f).groups = s.groups := rfl
@[simp] theorem State.updRay_shadows (id : Nat) (f : RaySlot → RaySlot) : (s.updRay id f).shadows = s.shadows := rfl
@[simp] theorem State.updRay_graphs (id : Nat) (f : RaySlot → RaySlot) : (s.updRay id f).graphs = s.graphs := rfl
@[simp] theorem State.updRay_fwd (id : Nat) (f : RaySlot → RaySlot) : (s.updRay id f).fwd = s.fwd := rfl
@[simp] theorem State.updRay_lines (id : Nat) (f : RaySlot → RaySlot) : (s.updRay id f).lines = s.lines := rfl
@[simp] theorem State.updRay_eng (id : Nat) (f : RaySlot → RaySlot) : (s.updRay id f).eng = s.eng := rfl
@[simp] theorem State.updRay_images (id : Nat) (f : RaySlot → RaySlot) : (s.updRay id f).images = s.images := rfl
@[simp] theorem State.updRay_time (id : Nat) (f : RaySlot → RaySlot) : (s.updRay id f).time = s.time := rfl
@[simp] theorem State.updRay_therm (id : Nat) (f : RaySlot → RaySlot) : (s.updRay id f).therm = s.therm := rfl
@[simp] theorem State.updRay_caddy (id : Nat) (f : RaySlot → RaySlot) : (s.updRay id f).caddy = s.caddy := rfl
@[simp] theorem State.updRay_links (id : Nat) (f : RaySlot → RaySlot) : (s.updRay id f).links = s.links := rfl
@[simp] theorem State.updRay_pf (id : Nat) (f : RaySlot → RaySlot) : (s.updRay id f).pf = s.pf := rfl
@[simp] theorem State.updRay_disabledCores (id : Nat) (f : RaySlot → RaySlot) : (s.updRay id f).disabledCores = s.disabledCores := rfl
@[simp] theorem State.updRay_retiring (id : Nat) (f : RaySlot → RaySlot) : (s.updRay id f).retiring = s.retiring := rfl
@[simp] theorem State.updRay_vacant (id : Nat) (f : RaySlot → RaySlot) : (s.updRay id f).vacant = s.vacant := rfl
@[simp] theorem State.updRay_l2ret0 (id : Nat) (f : RaySlot → RaySlot) : (s.updRay id f).l2ret0 = s.l2ret0 := rfl
@[simp] theorem State.updRay_l2ret1 (id : Nat) (f : RaySlot → RaySlot) : (s.updRay id f).l2ret1 = s.l2ret1 := rfl
@[simp] theorem State.updRay_powered (id : Nat) (f : RaySlot → RaySlot) : (s.updRay id f).powered = s.powered := rfl

@[simp] theorem State.updMarch_agenda (id : Nat) (f : MarchSlot → MarchSlot) : (s.updMarch id f).agenda = s.agenda := rfl
@[simp] theorem State.updMarch_turn (id : Nat) (f : MarchSlot → MarchSlot) : (s.updMarch id f).turn = s.turn := rfl
@[simp] theorem State.updMarch_issue (id : Nat) (f : MarchSlot → MarchSlot) : (s.updMarch id f).issue = s.issue := rfl
@[simp] theorem State.updMarch_fresh (id : Nat) (f : MarchSlot → MarchSlot) : (s.updMarch id f).fresh = s.fresh := rfl
@[simp] theorem State.updMarch_out (id : Nat) (f : MarchSlot → MarchSlot) : (s.updMarch id f).out = s.out := rfl
@[simp] theorem State.updMarch_mem (id : Nat) (f : MarchSlot → MarchSlot) : (s.updMarch id f).mem = s.mem := rfl
@[simp] theorem State.updMarch_scratch (id : Nat) (f : MarchSlot → MarchSlot) : (s.updMarch id f).scratch = s.scratch := rfl
@[simp] theorem State.updMarch_chip (id : Nat) (f : MarchSlot → MarchSlot) : (s.updMarch id f).chip = s.chip := rfl
@[simp] theorem State.updMarch_poison (id : Nat) (f : MarchSlot → MarchSlot) : (s.updMarch id f).poison = s.poison := rfl
@[simp] theorem State.updMarch_sramPoison (id : Nat) (f : MarchSlot → MarchSlot) : (s.updMarch id f).sramPoison = s.sramPoison := rfl
@[simp] theorem State.updMarch_ms (id : Nat) (f : MarchSlot → MarchSlot) : (s.updMarch id f).ms = s.ms := rfl
@[simp] theorem State.updMarch_parts (id : Nat) (f : MarchSlot → MarchSlot) : (s.updMarch id f).parts = s.parts := rfl
@[simp] theorem State.updMarch_grids (id : Nat) (f : MarchSlot → MarchSlot) : (s.updMarch id f).grids = s.grids := rfl
@[simp] theorem State.updMarch_teams (id : Nat) (f : MarchSlot → MarchSlot) : (s.updMarch id f).teams = s.teams := rfl
@[simp] theorem State.updMarch_groups (id : Nat) (f : MarchSlot → MarchSlot) : (s.updMarch id f).groups = s.groups := rfl
@[simp] theorem State.updMarch_shadows (id : Nat) (f : MarchSlot → MarchSlot) : (s.updMarch id f).shadows = s.shadows := rfl
@[simp] theorem State.updMarch_graphs (id : Nat) (f : MarchSlot → MarchSlot) : (s.updMarch id f).graphs = s.graphs := rfl
@[simp] theorem State.updMarch_fwd (id : Nat) (f : MarchSlot → MarchSlot) : (s.updMarch id f).fwd = s.fwd := rfl
@[simp] theorem State.updMarch_lines (id : Nat) (f : MarchSlot → MarchSlot) : (s.updMarch id f).lines = s.lines := rfl
@[simp] theorem State.updMarch_eng (id : Nat) (f : MarchSlot → MarchSlot) : (s.updMarch id f).eng = s.eng := rfl
@[simp] theorem State.updMarch_images (id : Nat) (f : MarchSlot → MarchSlot) : (s.updMarch id f).images = s.images := rfl
@[simp] theorem State.updMarch_time (id : Nat) (f : MarchSlot → MarchSlot) : (s.updMarch id f).time = s.time := rfl
@[simp] theorem State.updMarch_therm (id : Nat) (f : MarchSlot → MarchSlot) : (s.updMarch id f).therm = s.therm := rfl
@[simp] theorem State.updMarch_caddy (id : Nat) (f : MarchSlot → MarchSlot) : (s.updMarch id f).caddy = s.caddy := rfl
@[simp] theorem State.updMarch_links (id : Nat) (f : MarchSlot → MarchSlot) : (s.updMarch id f).links = s.links := rfl
@[simp] theorem State.updMarch_pf (id : Nat) (f : MarchSlot → MarchSlot) : (s.updMarch id f).pf = s.pf := rfl
@[simp] theorem State.updMarch_disabledCores (id : Nat) (f : MarchSlot → MarchSlot) : (s.updMarch id f).disabledCores = s.disabledCores := rfl
@[simp] theorem State.updMarch_retiring (id : Nat) (f : MarchSlot → MarchSlot) : (s.updMarch id f).retiring = s.retiring := rfl
@[simp] theorem State.updMarch_vacant (id : Nat) (f : MarchSlot → MarchSlot) : (s.updMarch id f).vacant = s.vacant := rfl
@[simp] theorem State.updMarch_l2ret0 (id : Nat) (f : MarchSlot → MarchSlot) : (s.updMarch id f).l2ret0 = s.l2ret0 := rfl
@[simp] theorem State.updMarch_l2ret1 (id : Nat) (f : MarchSlot → MarchSlot) : (s.updMarch id f).l2ret1 = s.l2ret1 := rfl
@[simp] theorem State.updMarch_powered (id : Nat) (f : MarchSlot → MarchSlot) : (s.updMarch id f).powered = s.powered := rfl

@[simp] theorem State.updWalk_agenda (id : Nat) (f : LightWalk → LightWalk) : (s.updWalk id f).agenda = s.agenda := rfl
@[simp] theorem State.updWalk_turn (id : Nat) (f : LightWalk → LightWalk) : (s.updWalk id f).turn = s.turn := rfl
@[simp] theorem State.updWalk_issue (id : Nat) (f : LightWalk → LightWalk) : (s.updWalk id f).issue = s.issue := rfl
@[simp] theorem State.updWalk_fresh (id : Nat) (f : LightWalk → LightWalk) : (s.updWalk id f).fresh = s.fresh := rfl
@[simp] theorem State.updWalk_out (id : Nat) (f : LightWalk → LightWalk) : (s.updWalk id f).out = s.out := rfl
@[simp] theorem State.updWalk_mem (id : Nat) (f : LightWalk → LightWalk) : (s.updWalk id f).mem = s.mem := rfl
@[simp] theorem State.updWalk_scratch (id : Nat) (f : LightWalk → LightWalk) : (s.updWalk id f).scratch = s.scratch := rfl
@[simp] theorem State.updWalk_chip (id : Nat) (f : LightWalk → LightWalk) : (s.updWalk id f).chip = s.chip := rfl
@[simp] theorem State.updWalk_poison (id : Nat) (f : LightWalk → LightWalk) : (s.updWalk id f).poison = s.poison := rfl
@[simp] theorem State.updWalk_sramPoison (id : Nat) (f : LightWalk → LightWalk) : (s.updWalk id f).sramPoison = s.sramPoison := rfl
@[simp] theorem State.updWalk_ms (id : Nat) (f : LightWalk → LightWalk) : (s.updWalk id f).ms = s.ms := rfl
@[simp] theorem State.updWalk_parts (id : Nat) (f : LightWalk → LightWalk) : (s.updWalk id f).parts = s.parts := rfl
@[simp] theorem State.updWalk_grids (id : Nat) (f : LightWalk → LightWalk) : (s.updWalk id f).grids = s.grids := rfl
@[simp] theorem State.updWalk_teams (id : Nat) (f : LightWalk → LightWalk) : (s.updWalk id f).teams = s.teams := rfl
@[simp] theorem State.updWalk_groups (id : Nat) (f : LightWalk → LightWalk) : (s.updWalk id f).groups = s.groups := rfl
@[simp] theorem State.updWalk_shadows (id : Nat) (f : LightWalk → LightWalk) : (s.updWalk id f).shadows = s.shadows := rfl
@[simp] theorem State.updWalk_graphs (id : Nat) (f : LightWalk → LightWalk) : (s.updWalk id f).graphs = s.graphs := rfl
@[simp] theorem State.updWalk_fwd (id : Nat) (f : LightWalk → LightWalk) : (s.updWalk id f).fwd = s.fwd := rfl
@[simp] theorem State.updWalk_lines (id : Nat) (f : LightWalk → LightWalk) : (s.updWalk id f).lines = s.lines := rfl
@[simp] theorem State.updWalk_eng (id : Nat) (f : LightWalk → LightWalk) : (s.updWalk id f).eng = s.eng := rfl
@[simp] theorem State.updWalk_images (id : Nat) (f : LightWalk → LightWalk) : (s.updWalk id f).images = s.images := rfl
@[simp] theorem State.updWalk_time (id : Nat) (f : LightWalk → LightWalk) : (s.updWalk id f).time = s.time := rfl
@[simp] theorem State.updWalk_therm (id : Nat) (f : LightWalk → LightWalk) : (s.updWalk id f).therm = s.therm := rfl
@[simp] theorem State.updWalk_caddy (id : Nat) (f : LightWalk → LightWalk) : (s.updWalk id f).caddy = s.caddy := rfl
@[simp] theorem State.updWalk_links (id : Nat) (f : LightWalk → LightWalk) : (s.updWalk id f).links = s.links := rfl
@[simp] theorem State.updWalk_pf (id : Nat) (f : LightWalk → LightWalk) : (s.updWalk id f).pf = s.pf := rfl
@[simp] theorem State.updWalk_disabledCores (id : Nat) (f : LightWalk → LightWalk) : (s.updWalk id f).disabledCores = s.disabledCores := rfl
@[simp] theorem State.updWalk_retiring (id : Nat) (f : LightWalk → LightWalk) : (s.updWalk id f).retiring = s.retiring := rfl
@[simp] theorem State.updWalk_vacant (id : Nat) (f : LightWalk → LightWalk) : (s.updWalk id f).vacant = s.vacant := rfl
@[simp] theorem State.updWalk_l2ret0 (id : Nat) (f : LightWalk → LightWalk) : (s.updWalk id f).l2ret0 = s.l2ret0 := rfl
@[simp] theorem State.updWalk_l2ret1 (id : Nat) (f : LightWalk → LightWalk) : (s.updWalk id f).l2ret1 = s.l2ret1 := rfl
@[simp] theorem State.updWalk_powered (id : Nat) (f : LightWalk → LightWalk) : (s.updWalk id f).powered = s.powered := rfl

/-! ## The changed fields -/

theorem State.updGroup_groups (core slot : Nat) (f : Group → Group) :
    (s.updGroup core slot f).groups = s.groups.map fun g => if g.isAt core slot then f g else g := rfl
theorem State.updPart_parts (p : Nat) (f : Partition → Partition) : (s.updPart p f).parts = s.parts.modify p f := rfl
theorem State.updTeam_teams (id : Nat) (f : Team → Team) :
    (s.updTeam id f).teams = s.teams.map fun t => if t.id == id then f t else t := rfl
theorem State.updGrid_grids (id : Nat) (f : Grid → Grid) :
    (s.updGrid id f).grids = s.grids.map fun g => if g.id == id then f g else g := rfl
@[simp] theorem State.send_out (m : OutMsg) : (s.send m).out = s.out ++ [m] := rfl
@[simp] theorem State.updCaddy_caddy (f : Caddy → Caddy) : (s.updCaddy f).caddy = f s.caddy := rfl

/-- A second update of the same group follows the first. -/
theorem State.updGroup_updGroup (core slot : Nat) (f h : Group → Group) (hf : ∀ g, (f g).isAt core slot = g.isAt core slot) :
    (s.updGroup core slot f).updGroup core slot h = s.updGroup core slot fun g => h (f g) := by
  unfold State.updGroup
  simp only [List.map_map]
  congr 1
  apply List.map_congr_left
  intro g _
  by_cases hg : g.isAt core slot <;> simp [hg, hf]

/-- An update that keeps the place of a group is found where the group stood. -/
theorem State.group?_updGroup (core slot c t : Nat) (f : Group → Group) (hf : ∀ g, (f g).core = g.core ∧ (f g).slot = g.slot) :
    (s.updGroup core slot f).group? c t =
      if c = core ∧ t = slot then (s.group? c t).map f else s.group? c t := by
  unfold State.group? State.updGroup
  simp only
  induction s.groups with
  | nil => simp
  | cons g gs ih =>
    simp only [List.map_cons, List.find?_cons]
    have hp : (if g.isAt core slot = true then f g else g).isAt c t = g.isAt c t := by
      split
      · simp only [Group.isAt, hf g]
      · rfl
    rw [hp]
    by_cases hh : g.isAt c t
    · simp only [hh]
      by_cases hk : c = core ∧ t = slot
      · obtain ⟨rfl, rfl⟩ := hk
        simp [hh]
      · have : g.isAt core slot = false := by
          rw [Bool.eq_false_iff]
          intro hz
          simp [Group.isAt] at hh hz
          exact hk ⟨by omega, by omega⟩
        simp [hk, this]
    · simp only [hh]
      exact ih

end Sys2Proof.Machine
end

