-- ==== Sys2Proof/Laws/Issue.lean ====
section
/-!
SUPPORT. What the wrappers of R354 do, said once: a lane-set word that computes (`laneCompute_word`) and a group-set word that changes the
group alone (`groupCompute_word`).
-/
namespace Sys2Proof.Machine

/-! ## Finding a group -/

/-- A change of every group that keeps its place is found where the group stood. -/
theorem State.group?_map (s : State) (f : Group → Group) (hf : ∀ g, (f g).core = g.core ∧ (f g).slot = g.slot) (c k : Nat) :
    ({ s with groups := s.groups.map f } : State).group? c k = (s.group? c k).map f := by
  unfold State.group?
  induction s.groups with
  | nil => rfl
  | cons g gs ih =>
    have : (f g).isAt c k = g.isAt c k := by simp only [Group.isAt, hf g]
    simp only [List.map_cons, List.find?_cons, this]
    cases g.isAt c k
    · simpa using ih
    · rfl

theorem isAt_of_group? {s : State} {c k : Nat} {g : Group} (h : s.group? c k = some g) : g.core = c ∧ g.slot = k := by
  have := List.find?_some h
  simpa [Group.isAt] using this

theorem isAt_of_issuing {s : State} {g : Group} (h : s.issuing? = some g) : g.core = s.issue.core ∧ g.slot = s.issue.slot := isAt_of_group? h

/-! ## Lanes -/

theorem Group.lane_of_lt {g : Group} {l : Nat} (h : l < g.lanes.length) : g.lane l = g.lanes[l] := by
  simp [Group.lane, h]

/-- A group whose lanes are rebuilt one by one. -/
theorem lane_mapIdx (g : Group) (f : Nat → Lane → Lane) (l : Nat) (h : l < g.lanes.length) :
    ({ g with lanes := g.lanes.mapIdx f } : Group).lane l = f l (g.lane l) := by
  simp [Group.lane, h]

/-! ## Flags -/

theorem orFlags_none : orFlags noFlags noFlags = noFlags := rfl

theorem orAllFlags_none (ls : List Nat) : orAllFlags (ls.map fun _ => noFlags) = noFlags := by
  unfold orAllFlags
  induction ls with
  | nil => rfl
  | cons _ _ ih => simpa [orFlags_none] using ih

theorem raiseFlags_none (x : Nat) : raiseFlags x noFlags = x := by simp [raiseFlags, flagBits, noFlags, bitOf]

/-- A word whose lanes raise no flag leaves a group as it is. -/
@[simp] theorem Group.raised_none (h g : Group) (act : List Nat) : h.raised g act (fun _ => noFlags) = h := by
  unfold Group.raised homeFlags
  split
  · rw [orAllFlags_none, raiseFlags_none]
  · rfl

/-- A word that raises no flag and reads no invalid register leaves the flags of every group. -/
theorem raisedBy_none (s : State) (g : Group) (act : List Nat) (form : LaneForm)
    (hv : ∀ r ∈ form.srcs, ∀ l, r.meetsInvalid (homeOf s g l) = false) (h : Group) : raisedBy s g act form (fun _ => noFlags) h = h := by
  have : readsInvalid s g form = fun _ => noFlags := by
    funext l
    have hl : (form.srcs.any fun r => r.meetsInvalid (homeOf s g l)) = false := List.any_eq_false.2 fun r hr => by simp [hv r hr l]
    simp only [readsInvalid, hl, Bool.false_eq_true, if_false]
  simp [raisedBy, this]

theorem Group.raised_place (h g : Group) (act : List Nat) (f : Nat → FlagSet) :
    (h.raised g act f).core = h.core ∧ (h.raised g act f).slot = h.slot := by
  unfold Group.raised; split <;> exact ⟨rfl, rfl⟩

theorem Group.raised_lanes (h g : Group) (act : List Nat) (f : Nat → FlagSet) : (h.raised g act f).lanes = h.lanes := by
  unfold Group.raised; split <;> rfl
theorem Group.raised_loops (h g : Group) (act : List Nat) (f : Nat → FlagSet) : (h.raised g act f).loops = h.loops := by
  unfold Group.raised; split <;> rfl
theorem Group.raised_ldep (h g : Group) (act : List Nat) (f : Nat → FlagSet) : (h.raised g act f).ldep = h.ldep := by
  unfold Group.raised; split <;> rfl
/-- Flags and the registers of lanes and loops do not meet. -/
theorem Group.raised_with (h g : Group) (act : List Nat) (f : Nat → FlagSet) (ls : List Lane) (vs : List LoopLevel) (n : Nat) :
    ({ h.raised g act f with lanes := ls, loops := vs, ldep := n } : Group) =
      ({ h with lanes := ls, loops := vs, ldep := n } : Group).raised g act f := by
  unfold Group.raised; split <;> rfl

/-! ## Loop ends -/

/-- `h` is `g` but for its loops and what its lanes wait for. -/
def Group.SameFlow (g h : Group) : Prop :=
  { h with lanes := g.lanes, loops := g.loops, ldep := g.ldep } = g ∧ h.lanes.length = g.lanes.length ∧
    ∀ l, l < g.lanes.length → h.lane l = { g.lane l with wait := (h.lane l).wait }

theorem Group.SameFlow.refl (g : Group) : g.SameFlow g := ⟨rfl, rfl, fun _ _ => rfl⟩

theorem Group.SameFlow.trans {a b c : Group} (h : a.SameFlow b) (k : b.SameFlow c) : a.SameFlow c := by
  obtain ⟨h1, h2, h3⟩ := h
  obtain ⟨k1, k2, k3⟩ := k
  refine ⟨?_, by omega, fun l hl => ?_⟩
  · rw [← h1, ← k1]
  · rw [k3 l (by omega)]
    simp only
    rw [h3 l hl]

theorem Group.SameFlow.place {a b : Group} (h : a.SameFlow b) : b.core = a.core ∧ b.slot = a.slot := by
  have hc := congrArg Group.core h.1
  have hs := congrArg Group.slot h.1
  exact ⟨hc, hs⟩

theorem Group.sameFlow_closeLevels (g : Group) : g.SameFlow g.closeLevels := by
  unfold Group.closeLevels
  simp only
  split
  · exact .refl g
  · refine ⟨rfl, by simp, fun l hl => ?_⟩
    simp [Group.lane, hl]

theorem Group.sameFlow_leaveFrom (g : Group) (k : Nat) (m : BitVec 32) : g.SameFlow (g.leaveFrom k m) := by
  unfold Group.leaveFrom
  refine Group.SameFlow.trans ?_ (Group.sameFlow_closeLevels _)
  exact ⟨rfl, rfl, fun _ _ => rfl⟩

theorem Group.sameFlow_leaveBy (g : Group) (ls : List Nat) (a : Word64) (f : Nat → Word64) : g.SameFlow (g.leaveBy ls a f) := by
  unfold Group.leaveBy
  induction ls generalizing g with
  | nil => exact .refl g
  | cons l ls ih =>
    simp only [List.foldl_cons]
    refine Group.SameFlow.trans ?_ (ih _)
    split
    · exact Group.sameFlow_leaveFrom ..
    · exact .refl g

theorem Group.sameFlow_passTail (g : Group) (ls : List Nat) (pc : Word64) : g.SameFlow (g.passTail ls pc) :=
  Group.sameFlow_leaveBy ..

/-- What the end of an issue does to a group: those of `ls` that stand past the word may wait for a loop's end (R161). -/
def Group.atLoopEnd (g : Group) (i : Issue) (ls : List Nat) : Group :=
  let on (l : Nat) (x : Lane) : Bool :=
    ls.contains l && decide (x.pc = i.next) && x.parked.isNone && x.live && decide (x.wait = .none)
  let h := { g with lanes := g.lanes.mapIdx fun l x => if on l x then { x with wait := g.waitAt l x.shader x.pc } else x }
  if i.len = 8 then h.passTail (ls.filter fun l => on l (g.lane l)) i.pc else h

theorem markLoopEnd_eq (s : State) (ls : List Nat) :
    markLoopEnd s ls = s.updGroup s.issue.core s.issue.slot fun g => g.atLoopEnd s.issue ls := rfl

theorem Group.sameFlow_atLoopEnd (g : Group) (i : Issue) (ls : List Nat) : g.SameFlow (g.atLoopEnd i ls) := by
  unfold Group.atLoopEnd
  have h : g.SameFlow { g with lanes := g.lanes.mapIdx fun l x =>
      if (ls.contains l && decide (x.pc = i.next) && x.parked.isNone && x.live && decide (x.wait = .none)) = true
      then { x with wait := g.waitAt l x.shader x.pc } else x } := by
    refine ⟨rfl, by simp, fun l hl => ?_⟩
    rw [lane_mapIdx g _ l hl]
    split <;> rfl
  simp only
  split
  · exact h.trans (Group.sameFlow_passTail ..)
  · exact h

theorem Group.waitAt_cases (g : Group) (l : Nat) (sh : Bool) (a : Word64) : g.waitAt l sh a = .none ∨ ∃ k, g.waitAt l sh a = .loopEnd k := by
  unfold Group.waitAt
  split
  · split
    · exact .inr ⟨_, rfl⟩
    · exact .inl rfl
  · exact .inl rfl

/-- After a one-word form the loops stand as they did, and only lanes of `ls` that waited for nothing may now wait for a loop's end. -/
theorem Group.atLoopEnd_short (g : Group) (i : Issue) (ls : List Nat) (h : i.len = 4) :
    (g.atLoopEnd i ls).loops = g.loops ∧ (g.atLoopEnd i ls).ldep = g.ldep ∧ ∀ l, l < g.lanes.length →
      ((g.atLoopEnd i ls).lane l).wait = (g.lane l).wait ∨
        (l ∈ ls ∧ (g.lane l).wait = .none ∧ ∃ k, ((g.atLoopEnd i ls).lane l).wait = .loopEnd k) := by
  unfold Group.atLoopEnd
  simp only [h, show ¬((4 : Nat) = 8) by decide, if_false]
  refine ⟨trivial, trivial, fun l hl => ?_⟩
  rw [lane_mapIdx g _ l hl]
  split
  · rename_i hon
    simp only [Bool.and_eq_true, decide_eq_true_eq, List.contains_iff_mem] at hon
    rcases g.waitAt_cases l (g.lane l).shader (g.lane l).pc with hw | ⟨k, hw⟩
    · left; simp only [hw, hon.2]
    · right; exact ⟨hon.1.1.1.1, hon.2, k, hw⟩
  · exact .inl rfl

/-! ## Lane-set words -/

theorem raisedBy_place (s : State) (g : Group) (act : List Nat) (form : LaneForm) (fl : Nat → FlagSet) (h : Group) :
    (raisedBy s g act form fl h).core = h.core ∧ (raisedBy s g act form fl h).slot = h.slot := by
  unfold raisedBy
  obtain ⟨a, b⟩ := Group.raised_place (h.raised g act fl) g act (readsInvalid s g form)
  obtain ⟨c, d⟩ := Group.raised_place h g act fl
  exact ⟨a.trans c, b.trans d⟩

theorem raisedBy_with (s : State) (g : Group) (act : List Nat) (form : LaneForm) (fl : Nat → FlagSet) (h : Group) (ls : List Lane) (vs : List LoopLevel)
    (n : Nat) :
    ({ raisedBy s g act form fl h with lanes := ls, loops := vs, ldep := n } : Group) =
      raisedBy s g act form fl { h with lanes := ls, loops := vs, ldep := n } := by
  simp only [raisedBy, Group.raised_with]

theorem raisedBy_lanes (s : State) (g : Group) (act : List Nat) (form : LaneForm) (fl : Nat → FlagSet) (h : Group) :
    (raisedBy s g act form fl h).lanes = h.lanes := by simp only [raisedBy, Group.raised_lanes]
theorem raisedBy_loops (s : State) (g : Group) (act : List Nat) (form : LaneForm) (fl : Nat → FlagSet) (h : Group) :
    (raisedBy s g act form fl h).loops = h.loops := by simp only [raisedBy, Group.raised_loops]
theorem raisedBy_ldep (s : State) (g : Group) (act : List Nat) (form : LaneForm) (fl : Nat → FlagSet) (h : Group) :
    (raisedBy s g act form fl h).ldep = h.ldep := by simp only [raisedBy, Group.raised_ldep]

/-- The lanes of a group with the cohort past the word and `f` in the Active lanes. -/
def computed (s : State) (g : Group) (act : List Nat) (f : LaneFn) (x : Group) : Group :=
  { x with
    lanes := (x.lanes.mapIdx fun l y => if s.issue.lanes.contains l then { y with pc := s.issue.next, wait := .none } else y).mapIdx
      fun l y => if act.contains l then (f g l y).1 else y }

/-- A change of a group's own registers: its place, its lanes and its loops stay, and flags commute with it. -/
structure GroupOwn (k : Group → Group) : Prop where
  core : ∀ h, (k h).core = h.core
  slot : ∀ h, (k h).slot = h.slot
  lanes : ∀ h, (k h).lanes = h.lanes
  loops : ∀ h, (k h).loops = h.loops
  ldep : ∀ h, (k h).ldep = h.ldep
  withFlow : ∀ h : Group, ∀ ls vs n, ({ k h with lanes := ls, loops := vs, ldep := n } : Group) = k { h with lanes := ls, loops := vs, ldep := n }
  raised : ∀ h g act f, (k h).raised g act f = k (h.raised g act f)

theorem GroupOwn.id : GroupOwn (fun h => h) :=
  ⟨fun _ => rfl, fun _ => rfl, fun _ => rfl, fun _ => rfl, fun _ => rfl, fun _ _ _ _ => rfl, fun _ _ _ _ => rfl⟩

/-- A word that computes in its lanes and then changes its group's own registers. -/
def laneThen (s : State) (gd : Guard) (form : LaneForm) (f : LaneFn) (k : Group → Group) : Result :=
  .next (laneIssue s gd form fun g act s' => (applyLanes f g act s').updGroup s.issue.core s.issue.slot k)

/-- What a computing word makes of any group of the state. -/
def afterCompute (s : State) (g : Group) (act : List Nat) (form : LaneForm) (f : LaneFn) (k : Group → Group) (x : Group) : Group :=
  let y := raisedBy s g act form (fun l => (f g l (g.lane l)).2) (if x.isAt s.issue.core s.issue.slot then k (computed s g act f x) else x)
  if y.isAt s.issue.core s.issue.slot then y.atLoopEnd s.issue s.issue.lanes else y

/-- What a computing word does to the list of groups. -/
theorem laneThen_groups {s : State} {g : Group} {gd : Guard} {form : LaneForm} (hf : LaneFits s g form) (f : LaneFn) {k : Group → Group}
    (ho : GroupOwn k) :
    laneThen s gd form f k = .next { s with groups := s.groups.map (afterCompute s g (activeLanes g gd s) form f k) } := by
  obtain ⟨hg, hp, hs⟩ := hf
  have hbad : ((form.srcs ++ form.dsts).any fun r => r.past g) = false := by
    rw [List.any_eq_false]; intro r hr; simp [hp r hr]
  have hrefused : (inShader s && (!form.shaderOk || form.srcs.any Named.isLatch)) = false := by
    cases hsh : inShader s
    · rfl
    · obtain ⟨h1, h2⟩ := hs hsh
      have h3 : form.srcs.any Named.isLatch = false := by
        rw [List.any_eq_false]; intro r hr; simp [h2 r hr]
      simp [h1, h3]
  unfold laneThen laneIssue
  simp only [hg, hbad, hrefused, Bool.or_false, Bool.false_eq_true, if_false, runIssue, markLoopEnd_eq]
  refine congrArg Host.Outcome.next ?_
  unfold applyLanes advance State.updLanes
  have lat : ∀ (x : Group) (ls : List Lane), ({ x with lanes := ls } : Group).isAt s.issue.core s.issue.slot = x.isAt s.issue.core s.issue.slot :=
    fun _ _ => rfl
  have hat : ∀ (x h : Group) (act : List Nat) (fl : Nat → FlagSet),
      (x.raised h act fl).isAt s.issue.core s.issue.slot = x.isAt s.issue.core s.issue.slot := by
    intro x h act fl
    obtain ⟨a, b⟩ := Group.raised_place x h act fl
    simp only [Group.isAt, a, b]
  have kat : ∀ x : Group, (k x).isAt s.issue.core s.issue.slot = x.isAt s.issue.core s.issue.slot := by
    intro x; simp only [Group.isAt, ho.core, ho.slot]
  simp only [raiseOf, State.updGroup, List.map_map]
  refine congrArg (fun gs => ({ s with groups := gs } : State)) (List.map_congr_left fun x _ => ?_)
  cases hx : x.isAt s.issue.core s.issue.slot <;>
    simp only [Function.comp_apply, afterCompute, computed, raisedBy, lat, hat, kat, hx, if_true, if_false, Bool.false_eq_true, ho.raised]

/-- A computing word is one that changes nothing of its group's own registers. -/
theorem laneCompute_eq {s : State} {g : Group} (hg : s.issuing? = some g) (gd : Guard) (form : LaneForm) (f : LaneFn) :
    laneCompute s gd form f = laneThen s gd form f fun h => h := by
  have : ∀ t : State, t.updGroup s.issue.core s.issue.slot (fun h => h) = t := by
    intro t; unfold State.updGroup; simp
  simp only [laneCompute, laneThen, laneIssue, hg, this]

theorem laneComputeWith_eq {s : State} {g : Group} (hg : s.issuing? = some g) (gd : Guard) (form : LaneForm) (f : Group → LaneFn) :
    laneComputeWith s gd form f = laneCompute s gd form (f g) := by
  simp only [laneComputeWith, laneCompute, laneIssue, hg]

theorem computed_lane (s : State) (g : Group) (act : List Nat) (f : LaneFn) (l : Nat) (h : l < g.lanes.length) :
    (computed s g act f g).lane l = if l ∈ act then (f g l (passed? s g l)).1 else passed? s g l := by
  simp only [computed, Group.lane, passed?, List.contains_iff_mem]
  simp [h]

theorem afterCompute_place (s : State) (g : Group) (act : List Nat) (form : LaneForm) (f : LaneFn) {k : Group → Group} (ho : GroupOwn k)
    (x : Group) : (afterCompute s g act form f k x).core = x.core ∧ (afterCompute s g act form f k x).slot = x.slot := by
  unfold afterCompute
  generalize hz : (if x.isAt s.issue.core s.issue.slot then k (computed s g act f x) else x) = z
  have c : z.core = x.core ∧ z.slot = x.slot := by
    subst hz; split
    · exact ⟨ho.core _, ho.slot _⟩
    · exact ⟨rfl, rfl⟩
  have h := raisedBy_place s g act form (fun l => (f g l (g.lane l)).2) z
  generalize raisedBy s g act form (fun l => (f g l (g.lane l)).2) z = y at h ⊢
  simp only
  split
  · have m := (Group.sameFlow_atLoopEnd y s.issue s.issue.lanes).place
    exact ⟨m.1.trans (h.1.trans c.1), m.2.trans (h.2.trans c.2)⟩
  · exact ⟨h.1.trans c.1, h.2.trans c.2⟩

/-- A computing word that fits completes, and this is all it does (R354, R365): `f` in each Active lane from the group at issue, the flags
in the home groups, `k` on the group's own registers, the cohort past the word. -/
theorem laneThen_word {s : State} {g : Group} {gd : Guard} {form : LaneForm} (hf : LaneFits s g form) (f : LaneFn) {k : Group → Group}
    (ho : GroupOwn k) (hw : ∀ l x, (f g l x).1.wait = x.wait) :
    ∃ t, laneThen s gd form f k = .next t ∧
      LaneWord s t g (k g) gd form (fun l => (f g l (g.lane l)).2) (fun l x => (f g l x).1) := by
  refine ⟨_, laneThen_groups hf f ho, rfl, fun c t hck => ?_, ?_⟩
  · rw [State.group?_map s _ (afterCompute_place s g _ form f ho)]
    cases hx : s.group? c t with
    | none => rfl
    | some x =>
      have hp := isAt_of_group? hx
      have hn : x.isAt s.issue.core s.issue.slot = false := by
        rw [Bool.eq_false_iff]; intro hz
        simp only [Group.isAt, Bool.and_eq_true, decide_eq_true_eq] at hz
        exact hck ⟨hp.1.symm.trans hz.1, hp.2.symm.trans hz.2⟩
      have hn2 : (raisedBy s g (activeLanes g gd s) form (fun l => (f g l (g.lane l)).2) x).isAt s.issue.core s.issue.slot = false := by
        simpa [Group.isAt, raisedBy_place] using hn
      simp only [Option.map_some, afterCompute, hn, hn2, Bool.false_eq_true, if_false]
  · have hg := hf.1
    have hp := isAt_of_issuing hg
    have hat : g.isAt s.issue.core s.issue.slot = true := by simp [Group.isAt, hp]
    let y := raisedBy s g (activeLanes g gd s) form (fun l => (f g l (g.lane l)).2) (k (computed s g (activeLanes g gd s) f g))
    have hy : y.isAt s.issue.core s.issue.slot = true := by
      have := raisedBy_place s g (activeLanes g gd s) form (fun l => (f g l (g.lane l)).2) (k (computed s g (activeLanes g gd s) f g))
      have c1 : y.core = s.issue.core := this.1.trans ((ho.core _).trans hp.1)
      have c2 : y.slot = s.issue.slot := this.2.trans ((ho.slot _).trans hp.2)
      simp only [Group.isAt, c1, c2, decide_true, Bool.and_self]
    have hlen : y.lanes.length = g.lanes.length := by simp [y, raisedBy_lanes, ho.lanes, computed]
    have hlane : ∀ l, l < g.lanes.length → y.lane l =
        if l ∈ activeLanes g gd s then (f g l (passed? s g l)).1 else passed? s g l := by
      intro l hl
      rw [← computed_lane s g _ f l hl]
      simp only [Group.lane, y, raisedBy_lanes, ho.lanes]
    obtain ⟨h1, h2, h3⟩ := Group.sameFlow_atLoopEnd y s.issue s.issue.lanes
    refine ⟨y.atLoopEnd s.issue s.issue.lanes, ?_, ?_, by omega, fun l hl => ?_, fun h4 => ?_⟩
    · show ({ s with groups := s.groups.map (afterCompute s g (activeLanes g gd s) form f k) } : State).group? s.issue.core s.issue.slot = _
      rw [State.group?_map s _ (afterCompute_place s g _ form f ho), show s.group? s.issue.core s.issue.slot = some g from hg]
      simp only [Option.map_some, afterCompute, hat, if_true]
      rw [if_pos hy]
    · have := congrArg (fun z : Group => ({ z with lanes := g.lanes, loops := g.loops, ldep := g.ldep } : Group)) h1
      rw [show raisedBy s g (activeLanes g gd s) form (fun l => (f g l (g.lane l)).2) (k g) =
        ({ y with lanes := g.lanes, loops := g.loops, ldep := g.ldep } : Group) by
          simp only [y, raisedBy_with, ho.withFlow]; rfl]
      exact this
    · rw [h3 l (by omega), hlane l hl]
    · obtain ⟨k1, k2, k3⟩ := Group.atLoopEnd_short y s.issue s.issue.lanes h4
      refine ⟨k1.trans (by simp only [y, raisedBy_loops, ho.loops]; rfl), k2.trans (by simp only [y, raisedBy_ldep, ho.ldep]; rfl), fun l hl => ?_⟩
      have hwait : (y.lane l).wait = (passed? s g l).wait := by
        rw [hlane l hl]; split
        · exact hw l _
        · rfl
      rcases k3 l (by omega) with hk | ⟨hm, hk, n, hn⟩
      · split
        · left; rw [hk, hwait]; simp [passed?, *]
        · rw [hk, hwait]; simp [passed?, *]
      · rw [if_pos hm]; exact .inr ⟨n, hn⟩

/-- The same of a word that changes nothing of its group's own registers. -/
theorem laneCompute_word {s : State} {g : Group} {gd : Guard} {form : LaneForm} (hf : LaneFits s g form) (f : LaneFn)
    (hw : ∀ l x, (f g l x).1.wait = x.wait) :
    ∃ t, laneCompute s gd form f = .next t ∧
      LaneWord s t g g gd form (fun l => (f g l (g.lane l)).2) (fun l x => (f g l x).1) := by
  rw [laneCompute_eq hf.1]
  exact laneThen_word hf f .id hw

/-- Any lane-set word that fits and whose body changes no group but its Active lanes, by `eff`: it completes, what it makes of the groups is
said by `LaneGroups`, and the rest of the state is what the body leaves. -/
theorem laneIssue_groups {s : State} {g : Group} {gd : Guard} {form : LaneForm} (hf : LaneFits s g form)
    (body : Group → List Nat → State → State) (eff : Nat → Lane → Lane) (hw : ∀ l x, (eff l x).wait = x.wait)
    (hb : (body g (activeLanes g gd s) (advance s)).groups = ((advance s).updGroup s.issue.core s.issue.slot fun h =>
      { h with lanes := h.lanes.mapIdx fun l x => if (activeLanes g gd s).contains l then eff l x else x }).groups)
    (hi : (body g (activeLanes g gd s) (advance s)).issue = s.issue) :
    LaneGroups s (laneIssue s gd form body) g g gd form (fun _ => noFlags) eff ∧
      { laneIssue s gd form body with groups := (body g (activeLanes g gd s) (advance s)).groups } =
        body g (activeLanes g gd s) (advance s) := by
  obtain ⟨t, ht, -, h2⟩ := laneCompute_word (gd := gd) hf (fun _ l x => (eff l x, noFlags)) hw
  have hu : body g (activeLanes g gd s) (advance s) =
      { body g (activeLanes g gd s) (advance s) with
        groups := (applyLanes (fun _ l x => (eff l x, noFlags)) g (activeLanes g gd s) (advance s)).groups } := by
    have e : (applyLanes (fun _ l x => (eff l x, noFlags)) g (activeLanes g gd s) (advance s)).groups =
        (body g (activeLanes g gd s) (advance s)).groups := by
      rw [hb]
      simp only [applyLanes, raiseOf, Group.raised_none, List.map_id']
      rfl
    rw [e]
  have ht' : t = laneIssue s gd form (applyLanes (fun _ l x => (eff l x, noFlags))) := by
    have := ht; unfold laneCompute at this; exact (Host.Outcome.next.inj this).symm
  obtain ⟨hg, hp, hs⟩ := hf
  have hbad : ((form.srcs ++ form.dsts).any fun r => r.past g) = false := by
    rw [List.any_eq_false]; intro r hr; simp [hp r hr]
  have hrefused : (inShader s && (!form.shaderOk || form.srcs.any Named.isLatch)) = false := by
    cases hsh : inShader s
    · rfl
    · obtain ⟨h1, h2⟩ := hs hsh
      have h3 : form.srcs.any Named.isLatch = false := by
        rw [List.any_eq_false]; intro r hr; simp [h2 r hr]
      simp [h1, h3]
  have key : ∀ b : Group → List Nat → State → State, laneIssue s gd form b =
      markLoopEnd (raiseOf g (activeLanes g gd s) (readsInvalid s g form) (b g (activeLanes g gd s) (advance s))) s.issue.lanes := by
    intro b
    unfold laneIssue
    simp only [hg, hbad, hrefused, Bool.or_false, Bool.false_eq_true, if_false, runIssue]
  have hfin : laneIssue s gd form body = { body g (activeLanes g gd s) (advance s) with groups := t.groups } := by
    rw [ht', key, key, hu]
    have hi2 : (applyLanes (fun _ l x => (eff l x, noFlags)) g (activeLanes g gd s) (advance s)).issue = s.issue := rfl
    simp only [markLoopEnd_eq, State.updGroup, raiseOf, hi, hi2]
  rw [hfin]
  refine ⟨?_, rfl⟩
  obtain ⟨a, y, b⟩ := h2
  have hq : ∀ c k, ({ body g (activeLanes g gd s) (advance s) with groups := t.groups } : State).group? c k = t.group? c k := fun _ _ => rfl
  have hti : t.issue = s.issue := by
    rw [ht', key]; rfl
  refine ⟨fun c k h => by rw [hq]; exact a c k h, y, ?_, b.2⟩
  have b1 := b.1
  simp only [State.issuing?, hi, hti] at b1 ⊢
  exact b1

/-- Only what a word does in its Active lanes counts. -/
theorem LaneWord.congr {s t : State} {g g₁ : Group} {gd : Guard} {form : LaneForm} {fl fl' : Nat → FlagSet} {eff eff' : Nat → Lane → Lane}
    (h : LaneWord s t g g₁ gd form fl eff) (hf : fl = fl') (he : ∀ l, eff l (passed? s g l) = eff' l (passed? s g l)) :
    LaneWord s t g g₁ gd form fl' eff' := by
  subst hf
  obtain ⟨h1, h2, y, h3, h4, h5, h6, h7⟩ := h
  refine ⟨h1, h2, y, h3, h4, h5, fun l hl => ?_, h7⟩
  rw [h6 l hl, he l]

section passed
variable (s : State) (g : Group) (l : Nat)

@[simp] theorem passed?_regs : (passed? s g l).regs = (g.lane l).regs := by unfold passed?; split <;> rfl
@[simp] theorem passed?_preds : (passed? s g l).preds = (g.lane l).preds := by unfold passed?; split <;> rfl
@[simp] theorem passed?_rngKey : (passed? s g l).rngKey = (g.lane l).rngKey := by unfold passed?; split <;> rfl
@[simp] theorem passed?_rngPos : (passed? s g l).rngPos = (g.lane l).rngPos := by unfold passed?; split <;> rfl
@[simp] theorem passed?_rngStr : (passed? s g l).rngStr = (g.lane l).rngStr := by unfold passed?; split <;> rfl
@[simp] theorem passed?_glob : (passed? s g l).glob = (g.lane l).glob := by unfold passed?; split <;> rfl
@[simp] theorem srcV_passed? (h : Group) (k n : Nat) : srcV h k (passed? s g l) n = srcV h k (g.lane l) n := by simp [srcV]
@[simp] theorem srcW_passed? (h : Group) (n : Nat) : srcW h (passed? s g l) n = srcW h (g.lane l) n := by simp [srcW]
@[simp] theorem predP_passed? (n : Nat) : predP (passed? s g l) n = predP (g.lane l) n := by simp [predP]
@[simp] theorem readT_passed? (h : Group) (n : Nat) : readT h (passed? s g l) n = readT h (g.lane l) n := by simp [readT]
@[simp] theorem readA_passed? (h : Group) (n : Nat) : readA h (passed? s g l) n = readA h (g.lane l) n := by simp [readA]
end passed

section wait
variable (g : Group) (x : Lane) (k : Nat)
@[simp] theorem dstV_wait (v : Word32) : (dstV g x k v).wait = x.wait := by unfold dstV; split <;> rfl
@[simp] theorem dstW_wait (v : Word64) : (dstW g x k v).wait = x.wait := by unfold dstW; split <;> rfl
@[simp] theorem setP_wait (v : Bool) : (setP x k v).wait = x.wait := by unfold setP; split <;> rfl
@[simp] theorem writeT_wait (bs : List Byte) : (writeT g x k bs).wait = x.wait := rfl
@[simp] theorem writeA_wait (bs : List Byte) : (writeA g x k bs).wait = x.wait := rfl
@[simp] theorem laneDraw_wait (gl : Nat) : (laneDraw x gl).2.wait = x.wait := rfl
@[simp] theorem laneDraws_wait (gl n : Nat) : (laneDraws x gl n).2.wait = x.wait := by
  induction n generalizing x with
  | zero => rfl
  | succ n ih => exact ih _
end wait

/-! ## Group-set words -/

/-- The cohort of a group past the word. -/
def advanced (s : State) (x : Group) : Group :=
  { x with lanes := x.lanes.mapIdx fun l y => if s.issue.lanes.contains l then { y with pc := s.issue.next, wait := .none } else y }

/-- A group-set word that fits and changes the registers of its group alone completes, and this is all it does (R352). -/
theorem groupCompute_word {s : State} {g : Group} {q : Nat} {form : GroupForm} (hf : GroupFits s g q form) (f : Group → Group)
    (hc : ∀ h, (f h).core = h.core) (hs : ∀ h, (f h).slot = h.slot)
    (hl : ∀ h : Group, ∀ ls, f { h with lanes := ls } = { f h with lanes := ls }) :
    ∃ t, groupCompute s q form f = .next t ∧ GroupWord s t (f g) := by
  obtain ⟨hg, hq, hr⟩ := hf
  have hlanes : ∀ h, (f h).lanes = h.lanes := fun h => by
    have e := congrArg Group.lanes (hl h h.lanes)
    exact e
  have hrefused : (inShader s && form.refused q) = false := by
    cases h : inShader s
    · rfl
    · simp [hr h]
  let F : Group → Group := fun x =>
    if x.isAt s.issue.core s.issue.slot then (f (advanced s x)).atLoopEnd s.issue s.issue.lanes else x
  have hF : ∀ x, (F x).core = x.core ∧ (F x).slot = x.slot := by
    intro x
    simp only [F]
    split
    · have m := (Group.sameFlow_atLoopEnd (f (advanced s x)) s.issue s.issue.lanes).place
      exact ⟨m.1.trans (hc _), m.2.trans (hs _)⟩
    · exact ⟨rfl, rfl⟩
  have hgroups : groupCompute s q form f = .next { s with groups := s.groups.map F } := by
    unfold groupCompute groupIssue
    simp only [hg, hrefused, hq, Bool.false_eq_true, if_false, if_true, runIssue, markLoopEnd_eq]
    congr 1
    unfold advance State.updLanes
    have lat : ∀ (x : Group) (ls : List Lane), ({ x with lanes := ls } : Group).isAt s.issue.core s.issue.slot = x.isAt s.issue.core s.issue.slot :=
      fun _ _ => rfl
    have fat : ∀ x : Group, (f x).isAt s.issue.core s.issue.slot = x.isAt s.issue.core s.issue.slot := by
      intro x; simp only [Group.isAt, hc, hs]
    simp only [State.updGroup, List.map_map]
    congr 1
    apply List.map_congr_left
    intro x _
    cases hx : x.isAt s.issue.core s.issue.slot <;>
      simp only [Function.comp_apply, F, advanced, lat, fat, hx, if_true, if_false, Bool.false_eq_true]
  have hp := isAt_of_issuing hg
  have hat : g.isAt s.issue.core s.issue.slot = true := by simp [Group.isAt, hp]
  have hlen : (f (advanced s g)).lanes.length = (f g).lanes.length := by simp [hlanes, advanced]
  have hlane : ∀ l, l < (f g).lanes.length → (f (advanced s g)).lane l = passed? s (f g) l := by
    intro l h
    simp only [hlanes] at h
    simp only [Group.lane, hlanes, advanced, passed?, List.contains_iff_mem]
    simp [h]
  have hwith : ∀ h : Group, f (advanced s h) = { f h with lanes := (advanced s h).lanes } := fun h => hl h _
  obtain ⟨h1, h2, h3⟩ := Group.sameFlow_atLoopEnd (f (advanced s g)) s.issue s.issue.lanes
  refine ⟨_, hgroups, rfl, fun c t hck => ?_, (f (advanced s g)).atLoopEnd s.issue s.issue.lanes, ?_, ?_, by omega, fun l h => ?_, fun h4 => ?_⟩
  · rw [State.group?_map s _ hF]
    cases hx : s.group? c t with
    | none => rfl
    | some x =>
      have hpx := isAt_of_group? hx
      have hn : x.isAt s.issue.core s.issue.slot = false := by
        rw [Bool.eq_false_iff]; intro hz
        simp only [Group.isAt, Bool.and_eq_true, decide_eq_true_eq] at hz
        exact hck ⟨hpx.1.symm.trans hz.1, hpx.2.symm.trans hz.2⟩
      simp only [Option.map_some, F, hn, Bool.false_eq_true, if_false]
  · show ({ s with groups := s.groups.map F } : State).group? s.issue.core s.issue.slot = _
    rw [State.group?_map s _ hF, show s.group? s.issue.core s.issue.slot = some g from hg]
    simp only [Option.map_some, F, hat, if_true]
  · have e := congrArg (fun z : Group => ({ z with lanes := (f g).lanes, loops := (f g).loops, ldep := (f g).ldep } : Group)) h1
    refine e.trans ?_
    rw [hwith]
  · rw [h3 l (by omega), hlane l h]
  · obtain ⟨k1, k2, k3⟩ := Group.atLoopEnd_short (f (advanced s g)) s.issue s.issue.lanes h4
    refine ⟨k1.trans (by rw [hwith]), k2.trans (by rw [hwith]), fun l h => ?_⟩
    rcases k3 l (by omega) with hk | ⟨hm, hk, n, hn⟩
    · split
      · rename_i hm; left; rw [hk, hlane l h]; simp only [passed?, if_pos hm]
      · rename_i hm; rw [hk, hlane l h]; simp only [passed?, if_neg hm]
    · rw [if_pos hm]; exact .inr ⟨n, hn⟩

end Sys2Proof.Machine
end

