-- ==== Sys2Proof/Laws/Access.lean ====
section
/-!
SUPPORT. What starting accesses does, said once: checks that all pass, the fold over the lanes of a load, and reads that see through what
accesses leave behind.
-/
namespace Sys2Proof.Machine

/-! ## Checks that pass -/

theorem State.updGroup_id (s : State) (c k : Nat) : s.updGroup c k (fun g => g) = s := by unfold State.updGroup; simp

theorem State.updLanes_nil (s : State) (c k : Nat) (f : Lane → Lane) : s.updLanes c k [] f = s := by
  have h : ∀ l : List Lane, l.mapIdx (fun _ x => x) = l := fun l => by apply List.ext_getElem <;> simp
  unfold State.updLanes State.updGroup
  simp [h]

theorem trapEnter_nil (s : State) (c k cause info : Nat) : trapEnter s c k cause info [] = s := by
  unfold trapEnter; split <;> simp

theorem parkLanes_nil (s : State) (c k acc : Nat) : parkLanes s c k acc [] = s := by
  unfold parkLanes; split
  · rfl
  · simp [firstPerLane, trapEnter_nil]

/-- When every address of a word passes, no lane fails. -/
theorem failLanes_ok (s : State) (acc : Nat) (ps : List (Nat × Place × Word64)) :
    failLanes s acc (ps.map fun x => (x.1, x.2.2, .ok x.2.1)) = s := by
  have h1 : ∀ c, trapped (ps.map fun x => (x.1, x.2.2, .ok x.2.1)) c = [] := by
    intro c; simp [trapped, List.filterMap_map, Function.comp_def]
  have h2 : parked (ps.map fun x => (x.1, x.2.2, .ok x.2.1)) = [] := by simp [parked, List.filterMap_map, Function.comp_def]
  have h3 : stales (ps.map fun x => (x.1, x.2.2, .ok x.2.1)) = [] := by simp [stales, List.filterMap_map, Function.comp_def]
  unfold failLanes
  simp only [h1, h2, h3, List.foldl_nil, parkLanes_nil, List.filterMap_map, Function.comp_def, hold]
  simp [State.updLanes_nil]

theorem passed_ok (ps : List (Nat × Place × Word64)) : passed (ps.map fun x => (x.1, x.2.2, .ok x.2.1)) = ps := by
  simp [passed, List.filterMap_map, Function.comp_def]

/-- The lanes of a check are those of its addresses. -/
theorem checkAll_lanes (s : State) (g : Group) (sp n : Nat) (acc : Acc) (path : Nat) (as_ : List (Nat × Word64)) :
    ((checkAll s g sp n acc path as_).2.map fun x => x.1) = as_.map Prod.fst := by
  induction as_ generalizing s with
  | nil => rfl
  | cons a as_ ih => obtain ⟨l, a⟩ := a; simp [checkAll, ih]

/-- What holds a word back does not depend on where its cohort stands. -/
theorem memBusy_advance (s : State) (g : Group) (act : List Nat) (sp n path : Nat) (c : Counter) (as_ : List (Nat × Word64)) :
    memBusy (advance s) g act sp n path c as_ = memBusy s g act sp n path c as_ := rfl

/-! ## What sending leaves -/

/-- `t` differs from `s` in nothing that reads, translations and buffers see: flights, counts, meters, messages and identifiers only. -/
structure Sent (s t : State) : Prop where
  state : { t with ms := s.ms, parts := s.parts, out := s.out, fresh := s.fresh } = s
  ms : { t.ms with flights := s.ms.flights, sent := s.ms.sent } = s.ms
  part : ∀ q, { t.part q with sch := { (t.part q).sch with meters := (s.part q).sch.meters } } = s.part q

theorem Sent.refl (s : State) : Sent s s := ⟨rfl, rfl, fun _ => rfl⟩

theorem Sent.trans {a b c : State} (h : Sent a b) (k : Sent b c) : Sent a c := by
  refine ⟨?_, ?_, fun q => ?_⟩
  · rw [← h.state, ← k.state]
  · rw [← h.ms, ← k.ms]
  · rw [← h.part q, ← k.part q]

theorem Sent.addFlight (s : State) (f : Flight) : Sent s (addFlight s f) := ⟨rfl, rfl, fun _ => rfl⟩

theorem part_updPart (s : State) (p : Nat) (f : Partition → Partition) (q : Nat) :
    (s.updPart p f).part q = if p = q ∧ q < s.parts.length then f (s.part q) else s.part q := by
  unfold State.updPart State.part
  by_cases h : p = q
  · subst h
    by_cases hq : p < s.parts.length
    · simp [hq]
    · simp [hq]
  · simp [h, List.getElem?_modify]

theorem Sent.charge (s : State) (p c n : Nat) : Sent s (charge s p c n) := by
  unfold Machine.charge
  simp only
  split
  · exact .refl s
  · refine ⟨rfl, rfl, fun q => ?_⟩
    rw [part_updPart]
    split <;> rfl

theorem Sent.sendHinge (s : State) (f : Flight) (d : Nat) (b : Bool) (n : Nat) : Sent s (sendHinge s f d b n).1 := by
  unfold Machine.sendHinge
  simp only
  exact Sent.trans (b := { s with ms := { s.ms with sent := s.ms.sent.set (countAt f.part d) ((s.ms.sent.getD (countAt f.part d) 0 + 1) % 4294967296) } })
    ⟨rfl, rfl, fun _ => rfl⟩ (Sent.charge ..)

theorem Sent.sendOutside (s : State) (f : Flight) (k : DomainKind) (a n d : Nat) : Sent s (sendOutside s f k a n d) := by
  unfold Machine.sendOutside
  exact Sent.trans (b := s.send (.request f.id (portFor s.links f.die a) k a n d)) ⟨rfl, rfl, fun _ => rfl⟩ (Sent.charge ..)

theorem Sent.fresh (s : State) (n : Nat) : Sent s { s with fresh := n } := ⟨rfl, rfl, fun _ => rfl⟩

/-- A fold of steps that only send only sends. -/
theorem Sent.foldl {α : Type} (f : State → α → State) (h : ∀ s x, Sent s (f s x)) (s : State) (xs : List α) : Sent s (xs.foldl f s) := by
  induction xs generalizing s with
  | nil => exact .refl s
  | cons x xs ih => exact (h s x).trans (ih _)

theorem Sent.sendReads (s : State) (f : Flight) : Sent s (sendReads s f) := by
  refine Sent.foldl _ (fun s x => ?_) _ _
  split
  · split
    · exact Sent.sendOutside ..
    · exact .refl s
  · exact .refl s

theorem Sent.startRead (s : State) (f : Flight) (d : Dest) (ps : List ReadPart) : Sent s (startRead s f d ps) := by
  unfold Machine.startRead
  simp only
  generalize hr : @ite (State × Flight) (readStage s.links f.die (Machine.fillParts s (fun p => decide (p.reach f.die = .here)) ps) = .request) _ _ _ = r
  have h : Sent s r.1 := by
    rw [← hr]
    split
    · exact Sent.sendHinge ..
    · exact .refl s
  refine h.trans (Sent.trans (b := { Machine.addFlight r.1 r.2 with fresh := r.1.fresh + 1 }) ⟨rfl, rfl, fun _ => rfl⟩ ?_)
  split
  · exact .refl _
  · exact Sent.sendReads ..

theorem Sent.groups {s t : State} (h : Sent s t) : t.groups = s.groups := by have := congrArg State.groups h.state; exact this
theorem Sent.issue {s t : State} (h : Sent s t) : t.issue = s.issue := by have := congrArg State.issue h.state; exact this
theorem Sent.links {s t : State} (h : Sent s t) : t.links = s.links := by have := congrArg State.links h.state; exact this
theorem Sent.mem {s t : State} (h : Sent s t) : t.mem = s.mem := by have := congrArg State.mem h.state; exact this

/-- Reads see through what is sent. -/
theorem Sent.readByte {s t : State} (h : Sent s t) (p : Place) : readByte t p = readByte s p := by
  have := congrArg (fun s => Machine.readByte s p) h.state
  exact this

theorem Sent.readPlace {s t : State} (h : Sent s t) (p : Place) (n : Nat) : readPlace t p n = readPlace s p n := by
  have := congrArg (fun s => Machine.readPlace s p n) h.state
  exact this

theorem Sent.fillParts {s t : State} (h : Sent s t) (sel : Place → Bool) (ps : List ReadPart) : fillParts t sel ps = fillParts s sel ps := by
  unfold Machine.fillParts
  simp only [h.readPlace]

theorem Sent.sb {s t : State} (h : Sent s t) : t.ms.sb = s.ms.sb := by have := congrArg MemSys.sb h.ms; exact this

theorem Sent.clusterCores {s t : State} (h : Sent s t) (g : Group) : clusterCores t g = clusterCores s g := by
  have := congrArg (fun s => Machine.clusterCores s g) h.state
  exact this

theorem Sent.readParts {s t : State} (h : Sent s t) (g : Group) (sc : Nat) (p : Place) (n : Nat) : readParts t g sc p n = readParts s g sc p n := by
  unfold Machine.readParts bufferByte
  simp only [h.sb, h.clusterCores]

/-! ## Loads -/

/-- The flight of a read, in the fields that say whose it is and what it brings. -/
def Flight.about (f : Flight) : FlightKind × List Nat × Nat × Nat × Counter × Nat × Bool × List ReadPart :=
  (f.kind, f.lanes, f.core, f.slot, f.counter, f.addr, f.acquire, f.reads)

theorem charge_flights (s : State) (p c n : Nat) : (charge s p c n).ms.flights = s.ms.flights := by
  unfold charge; simp only; split <;> rfl

theorem sendOutside_flights (s : State) (f : Flight) (k : DomainKind) (a n d : Nat) : (sendOutside s f k a n d).ms.flights = s.ms.flights := by
  unfold sendOutside; rw [charge_flights]; rfl

theorem sendHinge_flights (s : State) (f : Flight) (d : Nat) (b : Bool) (n : Nat) : (sendHinge s f d b n).1.ms.flights = s.ms.flights := by
  unfold sendHinge; simp only; rw [charge_flights]

theorem foldl_flights {α : Type} (f : State → α → State) (h : ∀ s x, (f s x).ms.flights = s.ms.flights) (xs : List α) (s : State) :
    (xs.foldl f s).ms.flights = s.ms.flights := by
  induction xs generalizing s with
  | nil => rfl
  | cons x xs ih => exact (ih _).trans (h s x)

theorem sendReads_flights (s : State) (f : Flight) : (sendReads s f).ms.flights = s.ms.flights := by
  refine foldl_flights _ (fun s x => ?_) _ _
  split
  · split
    · exact sendOutside_flights ..
    · rfl
  · rfl

/-- A read that starts adds one flight. -/
theorem startRead_flights (s : State) (f : Flight) (d : Dest) (ps : List ReadPart) :
    ∃ k : Flight, (startRead s f d ps).ms.flights = s.ms.flights ++ [k] ∧
      k.about = (.read d, f.lanes, f.core, f.slot, f.counter, f.addr, f.acquire, fillParts s (onDie f.die) ps) := by
  unfold startRead
  simp only
  generalize hr : @ite (State × Flight) (readStage s.links f.die (fillParts s (fun p => decide (p.reach f.die = .here)) ps) = .request) _ _ _ = r
  have h : r.1.ms.flights = s.ms.flights ∧
      r.2.about = (.read d, f.lanes, f.core, f.slot, f.counter, f.addr, f.acquire, fillParts s (onDie f.die) ps) := by
    rw [← hr]
    split
    · exact ⟨sendHinge_flights .., rfl⟩
    · exact ⟨rfl, rfl⟩
  refine ⟨r.2, ?_, h.2⟩
  rw [← h.1]
  split
  · rfl
  · rw [sendReads_flights]; rfl

theorem loadOne_sent (g : Group) (path sc : Nat) (acq : Bool) (n : Nat) (d : Dest) (s : State) (x : Nat × Place × Word64) :
    Sent s (loadOne g path sc acq n d s x) := Sent.startRead ..

/-- The fold of a load over its lanes. -/
theorem loads_flights (s₁ : State) (g : Group) (path sc : Nat) (acq : Bool) (n : Nat) (d : Dest) (ps : List (Nat × Place × Word64)) (s : State)
    (h : ∀ x p, readParts s g x p n = readParts s₁ g x p n) (h2 : ∀ sel q, fillParts s sel q = fillParts s₁ sel q) :
    ∃ fs : List Flight, (ps.foldl (loadOne g path sc acq n d) s).ms.flights = s.ms.flights ++ fs ∧
      fs.map Flight.about = ps.map fun x => (.read d, [x.1], g.core, g.slot, .ld, x.2.2.toNat, acq,
        fillParts s₁ (onDie (dieOfCore g.core)) (readParts s₁ g (effScope x.2.2.toNat sc) x.2.1 n)) := by
  induction ps generalizing s with
  | nil => exact ⟨[], by simp, rfl⟩
  | cons x ps ih =>
    obtain ⟨k, hk, ha⟩ := startRead_flights s { laneFlight s g [x.1] path (effScope x.2.2.toNat sc) .ld x.2.2.toNat with acquire := acq } d
      (readParts s g (effScope x.2.2.toNat sc) x.2.1 n)
    have hs : Sent s (loadOne g path sc acq n d s x) := loadOne_sent ..
    obtain ⟨fs, hfs, hfa⟩ := ih (loadOne g path sc acq n d s x) (fun a p => (hs.readParts ..).trans (h a p))
      (fun a q => (hs.fillParts ..).trans (h2 a q))
    refine ⟨k :: fs, ?_, ?_⟩
    · simp only [List.foldl_cons, hfs]
      rw [show (loadOne g path sc acq n d s x).ms.flights = _ from hk]
      simp
    · simp only [List.map_cons, hfa, ha, h, h2]
      rfl

end Sys2Proof.Machine
end

