-- ==== Sys2Proof/Laws/Encode.lean ====
section
/-!
SUPPORT. The fields of an encoded word, format by format (R349, R350): what the decoder reads where the encoder wrote.
-/
namespace Sys2Proof
open Enc Dec

/-- Words that the encoder gives decode to their instruction once the raw decoder finds it. -/
theorem decodeWords_of_raw {i : Instr} {w : Nat × Nat} (h : i.wf = true) (e : encode i = some w) (hz : isTwoWord w.1 = false → w.2 = 0)
    (hr : decodeRaw w.1 w.2 = some i) : decodeWords w.1 w.2 = .ok i := by
  have he : encode i = some (w.1, if isTwoWord w.1 then w.2 else 0) := by
    rw [e]; cases hw : isTwoWord w.1
    · simp [← hz hw]
    · simp
  simp [decodeWords, hr, h, he]

theorem lr_fields {maj d a b fn : Nat} {g : Guard} (hm : maj < 64) (hg : g.p < 8) (hd : d < 64) (ha : a < 64) (hb : b < 64) (hf : fn < 8) :
    lr maj g d a b fn < 2 ^ 32 ∧ field (lr maj g d a b fn) 31 1 = 0 ∧ field (lr maj g d a b fn) 25 6 = maj ∧ Dec.guard (lr maj g d a b fn) = g ∧
    laneD (lr maj g d a b fn) = d ∧ laneA (lr maj g d a b fn) = a ∧ laneB (lr maj g d a b fn) = b ∧ field (lr maj g d a b fn) 0 3 = fn := by
  obtain ⟨n, p⟩ := g
  simp only at hg
  cases n <;> simp only [lr, guardBits, field, Dec.guard, laneD, laneA, laneB, if_true, if_false, Bool.false_eq_true, Guard.mk.injEq,
    decide_eq_true_eq, decide_eq_false_iff_not] <;> omega

theorem li_fields {maj d a imm : Nat} {g : Guard} (hm : maj < 64) (hg : g.p < 8) (hd : d < 64) (ha : a < 64) (hi : imm < 512) :
    li maj g d a imm < 2 ^ 32 ∧ field (li maj g d a imm) 31 1 = 0 ∧ field (li maj g d a imm) 25 6 = maj ∧ Dec.guard (li maj g d a imm) = g ∧
    laneD (li maj g d a imm) = d ∧ laneA (li maj g d a imm) = a ∧ field (li maj g d a imm) 0 9 = imm := by
  obtain ⟨n, p⟩ := g
  simp only at hg
  cases n <;> simp only [li, guardBits, field, Dec.guard, laneD, laneA, if_true, if_false, Bool.false_eq_true, Guard.mk.injEq,
    decide_eq_true_eq, decide_eq_false_iff_not] <;> omega

theorem lm_fields {maj d a swz off : Nat} {g : Guard} (hm : maj < 64) (hg : g.p < 8) (hd : d < 64) (ha : a < 64) (hs : swz < 8)
    (ho : off < 64) :
    lm maj g d a swz off < 2 ^ 32 ∧ field (lm maj g d a swz off) 31 1 = 0 ∧ field (lm maj g d a swz off) 25 6 = maj ∧
    Dec.guard (lm maj g d a swz off) = g ∧ laneD (lm maj g d a swz off) = d ∧ laneA (lm maj g d a swz off) = a ∧
    field (lm maj g d a swz off) 6 3 = swz ∧ field (lm maj g d a swz off) 0 6 = off := by
  obtain ⟨n, p⟩ := g
  simp only at hg
  cases n <;> simp only [lm, guardBits, field, Dec.guard, laneD, laneA, if_true, if_false, Bool.false_eq_true, Guard.mk.injEq,
    decide_eq_true_eq, decide_eq_false_iff_not] <;> omega

theorem lx_fields {c scope ord aux imm : Nat} (hc : c < 64) (hs : scope < 16) (ho : ord < 4) (hx : aux < 16) (hi : imm < 65536) :
    lx c scope ord aux imm < 2 ^ 32 ∧ lxC (lx c scope ord aux imm) = c ∧ lxScope (lx c scope ord aux imm) = scope ∧
    lxOrd (lx c scope ord aux imm) = ord ∧ lxAux (lx c scope ord aux imm) = aux ∧ lxImm (lx c scope ord aux imm) = imm := by
  simp only [lx, field, lxC, lxScope, lxOrd, lxAux, lxImm]; omega

theorem gr_fields {maj q d a b fn : Nat} (hm : maj < 64) (hq : q < 8) (hd : d < 64) (ha : a < 64) (hb : b < 64) (hf : fn < 16) :
    gr maj q d a b fn < 2 ^ 32 ∧ field (gr maj q d a b fn) 31 1 = 1 ∧ field (gr maj q d a b fn) 25 6 = maj ∧ groupQ (gr maj q d a b fn) = q ∧
    groupD (gr maj q d a b fn) = d ∧ groupA (gr maj q d a b fn) = a ∧ groupB (gr maj q d a b fn) = b ∧ field (gr maj q d a b fn) 0 4 = fn := by
  simp only [gr, field, groupQ, groupD, groupA, groupB]; omega

theorem gi_fields {maj q d imm : Nat} (hm : maj < 64) (hq : q < 8) (hd : d < 64) (hi : imm < 65536) :
    gi maj q d imm < 2 ^ 32 ∧ field (gi maj q d imm) 31 1 = 1 ∧ field (gi maj q d imm) 25 6 = maj ∧ groupQ (gi maj q d imm) = q ∧
    groupD (gi maj q d imm) = d ∧ field (gi maj q d imm) 0 16 = imm := by
  simp only [gi, field, groupQ, groupD]; omega

theorem gj_fields {maj q c off : Nat} (hm : maj < 64) (hq : q < 8) (hc : c < 8) (ho : off < 524288) :
    gj maj q c off < 2 ^ 32 ∧ field (gj maj q c off) 31 1 = 1 ∧ field (gj maj q c off) 25 6 = maj ∧ groupQ (gj maj q c off) = q ∧
    field (gj maj q c off) 19 3 = c ∧ field (gj maj q c off) 0 19 = off := by
  simp only [gj, field, groupQ]; omega

theorem gw_fields {all : Bool} {ld st cp mx : Nat} (hl : ld < 64) (hs : st < 64) (hc : cp < 64) (hm : mx < 64) :
    gw all ld st cp mx < 2 ^ 32 ∧ field (gw all ld st cp mx) 31 1 = 1 ∧ field (gw all ld st cp mx) 25 6 = 16 ∧
    decide (field (gw all ld st cp mx) 24 1 = 1) = all ∧ field (gw all ld st cp mx) 18 6 = ld ∧ field (gw all ld st cp mx) 12 6 = st ∧
    field (gw all ld st cp mx) 6 6 = cp ∧ field (gw all ld st cp mx) 0 6 = mx := by
  cases all <;> simp only [gw, field, if_true, if_false, Bool.false_eq_true, decide_eq_true_eq, decide_eq_false_iff_not] <;> omega

theorem gs_fields {maj fn q g imm : Nat} (hm : maj < 64) (hq : q < 8) (hg : g < 64) (hi : imm < 4096) (hf : fn < 16) :
    gs maj fn q g imm < 2 ^ 32 ∧ field (gs maj fn q g imm) 31 1 = 1 ∧ field (gs maj fn q g imm) 25 6 = maj ∧
    groupQ (gs maj fn q g imm) = q ∧ groupD (gs maj fn q g imm) = g ∧ field (gs maj fn q g imm) 4 12 = imm ∧
    field (gs maj fn q g imm) 0 4 = fn := by
  simp only [gs, field, groupQ, groupD]; omega

theorem ge_fields {maj q x y opt : Nat} (hm : maj < 64) (hq : q < 8) (hx : x < 64) (hy : y < 64) (ho : opt < 1024) :
    ge maj q x y opt < 2 ^ 32 ∧ field (ge maj q x y opt) 31 1 = 1 ∧ field (ge maj q x y opt) 25 6 = maj ∧ groupQ (ge maj q x y opt) = q ∧
    groupD (ge maj q x y opt) = x ∧ groupA (ge maj q x y opt) = y ∧ field (ge maj q x y opt) 0 10 = opt := by
  simp only [ge, field, groupQ, groupD, groupA]; omega

end Sys2Proof
end

