-- ==== Sys2Proof/Laws/Mem.lean ====
section
/-!
SUPPORT. The laws of byte memories: every operation keeps the canonical form, a byte reads as it was last written, and memories in canonical
form that read alike are equal.
-/
namespace Sys2Proof.Machine
namespace Mem

theorem wfAbove_cons {lo : Option Nat} {a : Nat} {b : Byte} {m : Mem} :
    wfAbove lo ((a, b) :: m) = true ↔ (∀ l, lo = some l → l < a) ∧ b ≠ unlistedByte ∧ wfAbove (some a) m = true := by
  cases lo <;> simp [wfAbove, and_assoc]

theorem wfAbove_mono {lo lo' : Option Nat} {m : Mem} (h : wfAbove lo m = true) (hl : ∀ l', lo' = some l' → ∃ l, lo = some l ∧ l' ≤ l) :
    wfAbove lo' m = true := by
  cases m with
  | nil => rfl
  | cons c m =>
    rw [wfAbove_cons] at h ⊢
    refine ⟨fun l' e => ?_, h.2⟩
    obtain ⟨l, e', k⟩ := hl l' e
    exact Nat.lt_of_le_of_lt k (h.1 l e')

theorem wf_of_above {lo : Option Nat} {m : Mem} (h : wfAbove lo m = true) : wf m = true := wfAbove_mono h nofun

/-- Below every entry nothing is listed. -/
theorem read_below {l x : Nat} {m : Mem} (h : wfAbove (some l) m = true) (hx : x ≤ l) : read m x = unlistedByte := by
  cases m with
  | nil => rfl
  | cons c m => rw [wfAbove_cons] at h; simp [read, Nat.lt_of_le_of_lt hx (h.1 l rfl)]

theorem wfAbove_write {lo : Option Nat} {m : Mem} {x : Nat} {v : Byte} (h : wfAbove lo m = true) (hx : ∀ l, lo = some l → l < x) :
    wfAbove lo (write m x v) = true := by
  induction m generalizing lo with
  | nil =>
    unfold write; split
    · rfl
    · exact wfAbove_cons.2 ⟨hx, ‹_›, rfl⟩
  | cons c m ih =>
    obtain ⟨h1, h2, h3⟩ := wfAbove_cons.1 h
    unfold write
    split
    · split
      · exact h
      · exact wfAbove_cons.2 ⟨hx, ‹_›, wfAbove_cons.2 ⟨by rintro l ⟨⟩; assumption, h2, h3⟩⟩
    · split
      · split
        · exact wfAbove_mono h3 fun l e => ⟨_, rfl, Nat.le_of_lt (h1 l e)⟩
        · subst x; exact wfAbove_cons.2 ⟨hx, ‹_›, h3⟩
      · exact wfAbove_cons.2 ⟨h1, h2, ih h3 (by rintro l ⟨⟩; omega)⟩

/-- A write keeps the canonical form. -/
theorem wf_write {m : Mem} (h : m.wf = true) (x : Nat) (v : Byte) : (m.write x v).wf = true := wfAbove_write h nofun

theorem read_write_above {lo : Option Nat} {m : Mem} (h : wfAbove lo m = true) (x : Nat) (v : Byte) (y : Nat) :
    read (write m x v) y = if y = x then v else read m y := by
  induction m generalizing lo with
  | nil =>
    unfold write; split
    · subst v; simp [read]
    · simp only [read]
      rcases Nat.lt_trichotomy y x with k | k | k
      · rw [if_pos k, if_neg (by omega)]
      · subst y; simp
      · rw [if_neg (by omega), if_neg (by omega)]
  | cons c m ih =>
    obtain ⟨a, b⟩ := c
    obtain ⟨h1, h2, h3⟩ := wfAbove_cons.1 h
    unfold write
    split
    · split
      · subst v; split
        · subst y; simp [read, *]
        · rfl
      · simp only [read]; split
        · rw [if_neg (by omega), if_pos (by omega)]
        · rfl
    · split
      · subst x
        split
        · subst v
          rcases Nat.lt_trichotomy y a with k | k | k
          · simp [read, k, read_below h3 (Nat.le_of_lt k)]
          · subst y; simp [read_below h3 (Nat.le_refl _)]
          · simp only [read]; rw [if_neg (by omega : ¬y = a), if_neg (by omega), if_neg (by omega)]
        · simp only [read]; split
          · rw [if_neg (by omega)]
          · split <;> simp_all
      · simp only [read]
        rw [ih h3]
        rcases Nat.lt_trichotomy y a with k | k | k
        · rw [if_pos k, if_pos k, if_neg (by omega)]
        · subst y; rw [if_neg (by omega), if_pos rfl, if_neg (by omega)]; simp
        · rw [if_neg (by omega), if_neg (by omega), if_neg (by omega : ¬y < a), if_neg (by omega : ¬y = a)]

/-- A byte reads as it was last written, and every other byte as before. -/
theorem read_write {m : Mem} (h : m.wf = true) (x : Nat) (v : Byte) (y : Nat) :
    read (m.write x v) y = if y = x then v else read m y := read_write_above h x v y

theorem wf_writeN {m : Mem} (h : m.wf = true) (a n v : Nat) : (m.writeN a n v).wf = true := by
  induction n generalizing m a v with
  | zero => exact h
  | succ n ih => exact ih (wf_write h _ _) _ _

theorem wf_writeBytes {m : Mem} (h : m.wf = true) (a : Nat) (bs : List Byte) : (m.writeBytes a bs).wf = true := by
  induction bs generalizing m a with
  | nil => exact h
  | cons b bs ih => exact ih (wf_write h _ _) _

theorem read_writeBytes {m : Mem} (h : m.wf = true) (a : Nat) (bs : List Byte) (y : Nat) :
    read (m.writeBytes a bs) y = if a ≤ y ∧ y < a + bs.length then bs.getD (y - a) 0 else read m y := by
  induction bs generalizing m a with
  | nil => rw [writeBytes, if_neg]; simp only [List.length_nil]; omega
  | cons b bs ih =>
    rw [writeBytes, ih (wf_write h _ _), read_write h]
    simp only [List.length_cons]
    rcases Nat.lt_trichotomy y a with k | k | k
    · rw [if_neg (by omega), if_neg (by omega), if_neg (by omega)]
    · subst y; rw [if_neg (by omega), if_pos rfl, if_pos (by omega)]; simp
    · by_cases hy : y < a + 1 + bs.length
      · rw [if_pos (by omega), if_pos (by omega), show y - a = (y - (a + 1)) + 1 by omega]; simp
      · rw [if_neg (by omega), if_neg (by omega), if_neg (by omega)]

theorem wfAbove_filter {lo : Option Nat} {m : Mem} (h : wfAbove lo m = true) (p : Host.Cell → Bool) : wfAbove lo (m.filter p) = true := by
  induction m generalizing lo with
  | nil => rfl
  | cons c m ih =>
    obtain ⟨a, b⟩ := c
    obtain ⟨h1, h2, h3⟩ := wfAbove_cons.1 h
    rw [List.filter_cons]; split
    · exact wfAbove_cons.2 ⟨h1, h2, ih h3⟩
    · exact ih (wfAbove_mono h3 fun l e => ⟨_, rfl, Nat.le_of_lt (h1 l e)⟩)

/-- Dropping entries keeps the canonical form. -/
theorem wf_filter {m : Mem} (h : m.wf = true) (p : Host.Cell → Bool) : wf (m.filter p) = true := wfAbove_filter h p

theorem wf_clear {m : Mem} (h : m.wf = true) (a n : Nat) : (m.clear a n).wf = true := wf_filter h _

theorem read_filter {lo : Option Nat} {m : Mem} (h : wfAbove lo m = true) (p : Nat → Bool) (y : Nat) :
    read (m.filter fun c => p c.1) y = if p y = true then read m y else unlistedByte := by
  induction m generalizing lo with
  | nil => simp [read]
  | cons c m ih =>
    obtain ⟨a, b⟩ := c
    obtain ⟨h1, h2, h3⟩ := wfAbove_cons.1 h
    rw [List.filter_cons]
    split
    · simp only [read]; rw [ih h3]
      split
      · split <;> rfl
      · split
        · subst y; simp_all
        · rfl
    · rw [ih h3]
      split
      · rename_i hp
        rcases Nat.lt_trichotomy y a with k | k | k
        · simp [read, k, read_below h3 (Nat.le_of_lt k)]
        · subst y; simp_all
        · simp only [read]; rw [if_neg (by omega), if_neg (by omega)]
      · rfl

/-- A cleared span reads as nothing was written there, and every other byte as before. -/
theorem read_clear {m : Mem} (h : m.wf = true) (a n y : Nat) :
    read (m.clear a n) y = if a ≤ y ∧ y < a + n then unlistedByte else read m y := by
  rw [clear, read_filter h (fun x => decide (x < a) || decide (a + n ≤ x))]
  by_cases k : a ≤ y ∧ y < a + n
  · rw [if_pos k, if_neg]; simp; omega
  · rw [if_neg k, if_pos]; simp; omega

theorem wfAbove_shift {lo : Option Nat} {m : Mem} {a : Nat} (h : wfAbove lo m = true) (ha : ∀ c ∈ m, a ≤ c.1) :
    wfAbove (lo.bind fun l => if a ≤ l then some (l - a) else none) (m.map fun c => (c.1 - a, c.2)) = true := by
  induction m generalizing lo with
  | nil => rfl
  | cons c m ih =>
    obtain ⟨x, b⟩ := c
    obtain ⟨h1, h2, h3⟩ := wfAbove_cons.1 h
    have hx : a ≤ x := ha (x, b) (by simp)
    have k := ih h3 fun c hc => ha c (by simp [hc])
    simp only [Option.bind_some, if_pos hx] at k
    refine wfAbove_cons.2 ⟨fun l e => ?_, h2, k⟩
    cases lo with
    | none => simp at e
    | some l' =>
      have := h1 l' rfl
      simp only [Option.bind_some] at e
      split at e
      · cases e; simp only; omega
      · exact nomatch e

/-- The entries of a span, counted from its start, are in canonical form. -/
theorem wf_slice {m : Mem} (h : m.wf = true) (a n : Nat) : (m.slice a n).wf = true :=
  wfAbove_shift (lo := none) (wfAbove_filter h _) fun c hc => by simp at hc; omega

/-- Memories in canonical form that read alike are equal. -/
theorem ext_above {lo lo' : Option Nat} {m m' : Mem} (h : wfAbove lo m = true) (h' : wfAbove lo' m' = true)
    (e : ∀ x, read m x = read m' x) : m = m' := by
  induction m generalizing lo lo' m' with
  | nil =>
    cases m' with
    | nil => rfl
    | cons c m' => have := (wfAbove_cons.1 h').2.1; have k := e c.1; simp [read] at k; exact absurd k.symm this
  | cons c m ih =>
    obtain ⟨a, b⟩ := c
    obtain ⟨-, h2, h3⟩ := wfAbove_cons.1 h
    cases m' with
    | nil => have k := e a; simp [read] at k; exact absurd k h2
    | cons c' m' =>
      obtain ⟨a', b'⟩ := c'
      obtain ⟨-, h2', h3'⟩ := wfAbove_cons.1 h'
      rcases Nat.lt_trichotomy a a' with k | k | k
      · have q := e a; simp [read, k] at q; exact absurd q h2
      · subst a'
        have q := e a; simp [read] at q; subst b'
        rw [ih h3 h3' fun x => ?_]
        rcases Nat.lt_trichotomy x a with k | k | k
        · rw [read_below h3 (Nat.le_of_lt k), read_below h3' (Nat.le_of_lt k)]
        · subst x; rw [read_below h3 (Nat.le_refl _), read_below h3' (Nat.le_refl _)]
        · have q := e x; simp only [read] at q; rwa [if_neg (by omega), if_neg (by omega), if_neg (by omega), if_neg (by omega)] at q
      · have q := e a'; simp [read, k] at q; exact absurd q.symm h2'

theorem ext {m m' : Mem} (h : m.wf = true) (h' : m'.wf = true) (e : ∀ x, read m x = read m' x) : m = m' := ext_above h h' e

end Mem
end Sys2Proof.Machine
end

