-- ==== Sys2Proof/Laws/PerInstr.lean ====
section
/-!
SUPPORT. Encoding and decoding agree, instruction by instruction: the words of a well-formed instruction decode to it, and lie in 32 bits.
-/
namespace Sys2Proof.Laws.RoundTrip
open Enc Dec

/-- The words of a well-formed instruction decode to that instruction, with every operand, and each has 32 bits. -/
def Statement (i : Instr) : Prop :=
  i.wf = true → ∀ w, encode i = some w → decodeWords w.1 w.2 = .ok i ∧ w.1 < 2 ^ 32 ∧ w.2 < 2 ^ 32

/-! ## Register classes as bounds -/

theorem dstV_lt {k : Nat} (h : Wf.dstV k = true) : k < 64 := by simp [Wf.dstV] at h; omega
theorem srcV_lt {k : Nat} (h : Wf.srcV k = true) : k < 64 := by simpa [Wf.srcV] using h
theorem regW_lt {k : Nat} (h : Wf.regW k = true) : k < 64 := by simp [Wf.regW] at h; omega
theorem pairW_lt {k : Nat} (h : Wf.pairW k = true) : k < 64 := by simp [Wf.pairW] at h; omega
theorem ldDst_lt {f k : Nat} (h : Wf.ldDst f k = true) : k < 64 := by
  unfold Wf.ldDst at h; split at h
  · exact dstV_lt h
  · split at h
    · exact regW_lt h
    · exact pairW_lt h
theorem stSrc_lt {f k : Nat} (h : Wf.stSrc f k = true) : k < 64 := by
  unfold Wf.stSrc at h; split at h
  · exact srcV_lt h
  · split at h
    · exact regW_lt h
    · exact pairW_lt h
theorem atomTyped_lt {f t k : Nat} (h : Wf.atomTyped f t k = true) : k < 64 := by
  unfold Wf.atomTyped at h; rw [Bool.and_eq_true] at h; replace h := h.2; split at h
  · exact dstV_lt h
  · split at h
    · exact regW_lt h
    · exact pairW_lt h
theorem casTyped_lt {t k : Nat} (h : Wf.casTyped t k = true) : k < 64 := by simp [Wf.casTyped] at h; omega
theorem cvtDst_lt {t k : Nat} (h : Wf.cvtDst t k = true) : k < 64 := by
  unfold Wf.cvtDst at h; split at h
  · exact dstV_lt h
  · exact regW_lt h
theorem cvtSrc_lt {t k : Nat} (h : Wf.cvtSrc t k = true) : k < 64 := by
  unfold Wf.cvtSrc at h; split at h
  · exact srcV_lt h
  · exact regW_lt h
theorem csrListed_lt {k : Nat} (h : Wf.csrListed k = true) : k < 4096 := by simp [Wf.csrListed] at h; omega
theorem clsOk_lt {m : MemX} (h : Wf.clsOk m = true) : m.cls < 8 := by simp [Wf.clsOk] at h; omega
theorem swzOk_lt {sp k : Nat} (h : Wf.swzOk sp k = true) : k < 8 := by simp [Wf.swzOk] at h; omega

/-- The bounds of a memory form's second word. -/
def Fits (m : MemX) : Prop := m.space < 8 ∧ m.cls < 8 ∧ m.scope < 16 ∧ m.ord < 4 ∧ m.swz < 16 ∧ m.imm < 65536

theorem okLoad_fits {m : MemX} (h : Wf.okLoad m = true) : Fits m := by
  simp only [Wf.okLoad, Bool.and_eq_true, decide_eq_true_eq] at h
  have := clsOk_lt h.1.1.1.1.2; have := swzOk_lt h.1.2
  exact ⟨by omega, by omega, by omega, by omega, by omega, by omega⟩
theorem okStore_fits {m : MemX} (h : Wf.okStore m = true) : Fits m := by
  simp only [Wf.okStore, Bool.and_eq_true, Bool.or_eq_true, decide_eq_true_eq] at h
  have := clsOk_lt h.1.1.1.1.2; have := swzOk_lt h.1.2
  exact ⟨by omega, by omega, by omega, by omega, by omega, by omega⟩
theorem okGather_fits {m : MemX} (h : Wf.okGather m = true) : Fits m ∧ m.cls = 0 ∧ m.ord = 0 := by
  simp only [Wf.okGather, Bool.and_eq_true, decide_eq_true_eq] at h
  have := swzOk_lt h.1.2
  exact ⟨⟨by omega, by omega, by omega, by omega, by omega, by omega⟩, by omega, by omega⟩

theorem memX_eq {v : Nat} {m : MemX} (hf : Fits m) (hc : lxC v = m.space + 8 * m.cls) (hs : lxScope v = m.scope) (ho : lxOrd v = m.ord)
    (hx : lxAux v = m.swz) (hi : lxImm v = m.imm) : memX v = m := by
  obtain ⟨h1, h2, -, -, -, -⟩ := hf
  simp only [memX, hc, hs, ho, hx, hi, show (m.space + 8 * m.cls) % 8 = m.space by omega, show (m.space + 8 * m.cls) / 8 = m.cls by omega]

/-- The bounds of an atomic's second word. -/
def FitsAtom (m : AtomX) : Prop := m.space < 8 ∧ m.scope < 16 ∧ m.ord < 4 ∧ m.swz < 16 ∧ m.typ < 16 ∧ m.off < 4096

theorem okAtom_fits {m : AtomX} (h : Wf.okAtom m = true) : FitsAtom m := by
  simp only [Wf.okAtom, Bool.and_eq_true, decide_eq_true_eq] at h
  have := swzOk_lt h.1.1.2
  exact ⟨by omega, by omega, by omega, by omega, by omega, by omega⟩

theorem atomX_eq {v : Nat} {m : AtomX} (hf : FitsAtom m) (hc : lxC v = m.space) (hs : lxScope v = m.scope) (ho : lxOrd v = m.ord)
    (hx : lxAux v = m.swz) (hi : lxImm v = 4096 * m.typ + m.off) : atomX v = m := by
  obtain ⟨h1, -, -, -, -, h6⟩ := hf
  simp only [atomX, hc, hs, ho, hx, hi, show m.space % 8 = m.space by omega, show (4096 * m.typ + m.off) / 4096 = m.typ by omega,
    show (4096 * m.typ + m.off) % 4096 = m.off by omega]

/-! ## One lemma per format -/

theorem twoWord {w m : Nat} (h : field w 25 6 = m) : isTwoWord w = decide (56 ≤ m) := by simp [isTwoWord, h]

theorem statement_of {i : Instr} {u v : Nat} (e : encode i = some (u, v)) (hu : u < 2 ^ 32) (hv : v < 2 ^ 32) {m : Nat}
    (hm : field u 25 6 = m) (hz : m < 56 → v = 0) (hr : decodeRaw u v = some i) : Statement i := by
  intro h w e'
  rw [e] at e'; obtain rfl := Option.some.inj e'
  refine ⟨decodeWords_of_raw h e (fun k => hz ?_) hr, hu, hv⟩
  simpa [twoWord hm] using k

theorem of_lr {i : Instr} {maj d a b fn : Nat} {g : Guard} (hm : maj < 56) (hg : g.p < 8) (hd : d < 64) (ha : a < 64) (hb : b < 64)
    (hf : fn < 8) (e : encode i = some (lr maj g d a b fn, 0))
    (hr : ∀ w v, field w 25 6 = maj → Dec.guard w = g → laneD w = d → laneA w = a → laneB w = b → field w 0 3 = fn → laneWord w v = some i) :
    Statement i := by
  obtain ⟨h0, h1, h2, h3, h4, h5, h6, h7⟩ := lr_fields (maj := maj) (by omega) hg hd ha hb hf
  refine statement_of e h0 (by simp) h2 (fun _ => rfl) ?_
  simp only [decodeRaw, h1, if_true]; exact hr _ _ h2 h3 h4 h5 h6 h7

theorem of_lx {i : Instr} {maj d a b fn c scope ord aux imm : Nat} {g : Guard} (hm : 56 ≤ maj ∧ maj < 64) (hg : g.p < 8) (hd : d < 64)
    (ha : a < 64) (hb : b < 64) (hf : fn < 8) (hc : c < 64) (hs : scope < 16) (ho : ord < 4) (hx : aux < 16) (hi : imm < 65536)
    (e : encode i = some (lr maj g d a b fn, lx c scope ord aux imm))
    (hr : ∀ w v, field w 25 6 = maj → Dec.guard w = g → laneD w = d → laneA w = a → laneB w = b → field w 0 3 = fn → lxC v = c →
      lxScope v = scope → lxOrd v = ord → lxAux v = aux → lxImm v = imm → laneWord w v = some i) : Statement i := by
  obtain ⟨h0, h1, h2, h3, h4, h5, h6, h7⟩ := lr_fields (maj := maj) (by omega) hg hd ha hb hf
  obtain ⟨k0, k1, k2, k3, k4, k5⟩ := lx_fields hc hs ho hx hi
  refine statement_of e h0 k0 h2 (fun _ => by omega) ?_
  simp only [decodeRaw, h1, if_true]; exact hr _ _ h2 h3 h4 h5 h6 h7 k1 k2 k3 k4 k5

theorem of_li {i : Instr} {maj d a imm : Nat} {g : Guard} (hm : maj < 56) (hg : g.p < 8) (hd : d < 64) (ha : a < 64) (hi : imm < 512)
    (e : encode i = some (li maj g d a imm, 0))
    (hr : ∀ w v, field w 25 6 = maj → Dec.guard w = g → laneD w = d → laneA w = a → field w 0 9 = imm → laneWord w v = some i) :
    Statement i := by
  obtain ⟨h0, h1, h2, h3, h4, h5, h6⟩ := li_fields (maj := maj) (by omega) hg hd ha hi
  refine statement_of e h0 (by simp) h2 (fun _ => rfl) ?_
  simp only [decodeRaw, h1, if_true]; exact hr _ _ h2 h3 h4 h5 h6

theorem of_lm {i : Instr} {maj d a swz off : Nat} {g : Guard} (hm : maj < 56) (hg : g.p < 8) (hd : d < 64) (ha : a < 64) (hs : swz < 8)
    (ho : off < 64) (e : encode i = some (lm maj g d a swz off, 0))
    (hr : ∀ w v, field w 25 6 = maj → Dec.guard w = g → laneD w = d → laneA w = a → field w 6 3 = swz → field w 0 6 = off →
      laneWord w v = some i) : Statement i := by
  obtain ⟨h0, h1, h2, h3, h4, h5, h6, h7⟩ := lm_fields (maj := maj) (by omega) hg hd ha hs ho
  refine statement_of e h0 (by simp) h2 (fun _ => rfl) ?_
  simp only [decodeRaw, h1, if_true]; exact hr _ _ h2 h3 h4 h5 h6 h7

theorem of_gr {i : Instr} {maj q d a b fn : Nat} (hm : maj < 56) (hq : q < 8) (hd : d < 64) (ha : a < 64) (hb : b < 64) (hf : fn < 16)
    (e : encode i = some (gr maj q d a b fn, 0))
    (hr : ∀ w v, field w 25 6 = maj → groupQ w = q → groupD w = d → groupA w = a → groupB w = b → field w 0 4 = fn →
      groupWord w v = some i) : Statement i := by
  obtain ⟨h0, h1, h2, h3, h4, h5, h6, h7⟩ := gr_fields (maj := maj) (by omega) hq hd ha hb hf
  refine statement_of e h0 (by simp) h2 (fun _ => rfl) ?_
  simp only [decodeRaw, h1, if_neg (by decide : ¬(1 : Nat) = 0)]; exact hr _ _ h2 h3 h4 h5 h6 h7

theorem of_gi {i : Instr} {maj q d imm : Nat} (hm : maj < 56) (hq : q < 8) (hd : d < 64) (hi : imm < 65536)
    (e : encode i = some (gi maj q d imm, 0))
    (hr : ∀ w v, field w 25 6 = maj → groupQ w = q → groupD w = d → field w 0 16 = imm → groupWord w v = some i) : Statement i := by
  obtain ⟨h0, h1, h2, h3, h4, h5⟩ := gi_fields (maj := maj) (by omega) hq hd hi
  refine statement_of e h0 (by simp) h2 (fun _ => rfl) ?_
  simp only [decodeRaw, h1, if_neg (by decide : ¬(1 : Nat) = 0)]; exact hr _ _ h2 h3 h4 h5

theorem of_gj {i : Instr} {maj q c off : Nat} (hm : maj < 56) (hq : q < 8) (hc : c < 8) (ho : off < 524288)
    (e : encode i = some (gj maj q c off, 0))
    (hr : ∀ w v, field w 25 6 = maj → groupQ w = q → field w 19 3 = c → field w 0 19 = off → groupWord w v = some i) : Statement i := by
  obtain ⟨h0, h1, h2, h3, h4, h5⟩ := gj_fields (maj := maj) (by omega) hq hc ho
  refine statement_of e h0 (by simp) h2 (fun _ => rfl) ?_
  simp only [decodeRaw, h1, if_neg (by decide : ¬(1 : Nat) = 0)]; exact hr _ _ h2 h3 h4 h5

theorem of_gs {i : Instr} {maj fn q g imm : Nat} (hm : maj < 56) (hq : q < 8) (hg : g < 64) (hi : imm < 4096) (hf : fn < 16)
    (e : encode i = some (gs maj fn q g imm, 0))
    (hr : ∀ w v, field w 25 6 = maj → groupQ w = q → groupD w = g → field w 4 12 = imm → field w 0 4 = fn → groupWord w v = some i) :
    Statement i := by
  obtain ⟨h0, h1, h2, h3, h4, h5, h6⟩ := gs_fields (maj := maj) (by omega) hq hg hi hf
  refine statement_of e h0 (by simp) h2 (fun _ => rfl) ?_
  simp only [decodeRaw, h1, if_neg (by decide : ¬(1 : Nat) = 0)]; exact hr _ _ h2 h3 h4 h5 h6

theorem of_ge {i : Instr} {maj q x y opt v : Nat} (hm : 56 ≤ maj ∧ maj < 64) (hq : q < 8) (hx : x < 64) (hy : y < 64) (ho : opt < 1024)
    (hv : v < 2 ^ 32) (e : encode i = some (ge maj q x y opt, v))
    (hr : ∀ w, field w 25 6 = maj → groupQ w = q → groupD w = x → groupA w = y → field w 0 10 = opt → groupWord w v = some i) :
    Statement i := by
  obtain ⟨h0, h1, h2, h3, h4, h5, h6⟩ := ge_fields (maj := maj) (by omega) hq hx hy ho
  refine statement_of e h0 hv h2 (fun _ => by omega) ?_
  simp only [decodeRaw, h1, if_neg (by decide : ¬(1 : Nat) = 0)]; exact hr _ h2 h3 h4 h5 h6

theorem of_none {i : Instr} (e : encode i = none) : Statement i := by
  intro _ w h; rw [e] at h; exact nomatch h

/-! ## Majors -/

theorem lane_0 {w v : Nat} (h : field w 25 6 = 0) : laneWord w v = lane00 w v (field w 0 3) := by unfold laneWord; rw [h]; rfl
theorem lane_1 {w v : Nat} (h : field w 25 6 = 1) : laneWord w v = lane01 w v (field w 0 3) := by unfold laneWord; rw [h]; rfl
theorem lane_2 {w v : Nat} (h : field w 25 6 = 2) : laneWord w v = lane02 w v (field w 0 3) := by unfold laneWord; rw [h]; rfl
theorem lane_3 {w v : Nat} (h : field w 25 6 = 3) : laneWord w v = lane03 w v (field w 0 3) := by unfold laneWord; rw [h]; rfl
theorem lane_4 {w v : Nat} (h : field w 25 6 = 4) : laneWord w v = lane04 w v (field w 0 3) := by unfold laneWord; rw [h]; rfl
theorem lane_5 {w v : Nat} (h : field w 25 6 = 5) : laneWord w v = lane05 w v (field w 0 3) := by unfold laneWord; rw [h]; rfl
theorem lane_6 {w v : Nat} (h : field w 25 6 = 6) : laneWord w v = some (.lea (Dec.guard w) (field w 0 3) (laneD w) (laneA w) (laneB w)) := by unfold laneWord; rw [h]; rfl
theorem lane_7 {w v : Nat} (h : field w 25 6 = 7) : laneWord w v = some (.cmpS32 (Dec.guard w) (field w 0 3) (laneD w) (laneA w) (laneB w)) := by unfold laneWord; rw [h]; rfl
theorem lane_8 {w v : Nat} (h : field w 25 6 = 8) : laneWord w v = some (.cmpN32 (Dec.guard w) (field w 0 3) (laneD w) (laneA w) (laneB w)) := by unfold laneWord; rw [h]; rfl
theorem lane_9 {w v : Nat} (h : field w 25 6 = 9) : laneWord w v = some (.cmpS64 (Dec.guard w) (field w 0 3) (laneD w) (laneA w) (laneB w)) := by unfold laneWord; rw [h]; rfl
theorem lane_10 {w v : Nat} (h : field w 25 6 = 10) : laneWord w v = some (.cmpN64 (Dec.guard w) (field w 0 3) (laneD w) (laneA w) (laneB w)) := by unfold laneWord; rw [h]; rfl
theorem lane_11 {w v : Nat} (h : field w 25 6 = 11) : laneWord w v = some (.addB32Imm (Dec.guard w) (laneD w) (laneA w) (field w 0 9)) := by unfold laneWord; rw [h]; rfl
theorem lane_12 {w v : Nat} (h : field w 25 6 = 12) : laneWord w v = some (.andB32Imm (Dec.guard w) (laneD w) (laneA w) (field w 0 9)) := by unfold laneWord; rw [h]; rfl
theorem lane_13 {w v : Nat} (h : field w 25 6 = 13) : laneWord w v = some (.orB32Imm (Dec.guard w) (laneD w) (laneA w) (field w 0 9)) := by unfold laneWord; rw [h]; rfl
theorem lane_14 {w v : Nat} (h : field w 25 6 = 14) : laneWord w v = some (.xorB32Imm (Dec.guard w) (laneD w) (laneA w) (field w 0 9)) := by unfold laneWord; rw [h]; rfl
theorem lane_15 {w v : Nat} (h : field w 25 6 = 15) : laneWord w v = some (.shlB32Imm (Dec.guard w) (laneD w) (laneA w) (field w 0 9)) := by unfold laneWord; rw [h]; rfl
theorem lane_16 {w v : Nat} (h : field w 25 6 = 16) : laneWord w v = some (.shrB32Imm (Dec.guard w) (laneD w) (laneA w) (field w 0 9)) := by unfold laneWord; rw [h]; rfl
theorem lane_17 {w v : Nat} (h : field w 25 6 = 17) : laneWord w v = some (.sraB32Imm (Dec.guard w) (laneD w) (laneA w) (field w 0 9)) := by unfold laneWord; rw [h]; rfl
theorem lane_19 {w v : Nat} (h : field w 25 6 = 19) : laneWord w v = lane13 w v (field w 0 3) := by unfold laneWord; rw [h]; rfl
theorem lane_20 {w v : Nat} (h : field w 25 6 = 20) : laneWord w v = lane14 w v (field w 0 3) := by unfold laneWord; rw [h]; rfl
theorem lane_21 {w v : Nat} (h : field w 25 6 = 21) : laneWord w v = lane15 w v (field w 0 3) := by unfold laneWord; rw [h]; rfl
theorem lane_22 {w v : Nat} (h : field w 25 6 = 22) : laneWord w v = some (.fcmpF32 (Dec.guard w) (field w 0 3) (laneD w) (laneA w) (laneB w)) := by unfold laneWord; rw [h]; rfl
theorem lane_23 {w v : Nat} (h : field w 25 6 = 23) : laneWord w v = some (.frndF32 (Dec.guard w) (field w 0 3) (laneD w) (laneA w)) := by unfold laneWord; rw [h]; rfl
theorem lane_24 {w v : Nat} (h : field w 25 6 = 24) : laneWord w v = lane18 w v (field w 0 3) := by unfold laneWord; rw [h]; rfl
theorem lane_25 {w v : Nat} (h : field w 25 6 = 25) : laneWord w v = lane19 w v (field w 0 3) := by unfold laneWord; rw [h]; rfl
theorem lane_26 {w v : Nat} (h : field w 25 6 = 26) : laneWord w v = lane1A w v (field w 0 3) := by unfold laneWord; rw [h]; rfl
theorem lane_28 {w v : Nat} (h : field w 25 6 = 28) : laneWord w v = lane1C w v (field w 0 3) := by unfold laneWord; rw [h]; rfl
theorem lane_29 {w v : Nat} (h : field w 25 6 = 29) : laneWord w v = lane1D w v (field w 0 3) := by unfold laneWord; rw [h]; rfl
theorem lane_30 {w v : Nat} (h : field w 25 6 = 30) : laneWord w v = some (.reduxInt (Dec.guard w) (field w 0 3) (laneD w) (laneA w)) := by unfold laneWord; rw [h]; rfl
theorem lane_31 {w v : Nat} (h : field w 25 6 = 31) : laneWord w v = some (.reduxF32 (Dec.guard w) (field w 0 3) (laneD w) (laneA w)) := by unfold laneWord; rw [h]; rfl
theorem lane_32 {w v : Nat} (h : field w 25 6 = 32) : laneWord w v = some (.scanInt (Dec.guard w) (field w 0 3) (laneD w) (laneA w)) := by unfold laneWord; rw [h]; rfl
theorem lane_33 {w v : Nat} (h : field w 25 6 = 33) : laneWord w v = some (.scanF32 (Dec.guard w) (field w 0 3) (laneD w) (laneA w)) := by unfold laneWord; rw [h]; rfl
theorem lane_34 {w v : Nat} (h : field w 25 6 = 34) : laneWord w v = lane22 w v (field w 0 3) := by unfold laneWord; rw [h]; rfl
theorem lane_35 {w v : Nat} (h : field w 25 6 = 35) : laneWord w v = some (.ldLsB32 (Dec.guard w) (laneD w) (laneA w) (field w 6 3) (field w 0 6)) := by unfold laneWord; rw [h]; rfl
theorem lane_36 {w v : Nat} (h : field w 25 6 = 36) : laneWord w v = some (.ldLsB64 (Dec.guard w) (laneD w) (laneA w) (field w 6 3) (field w 0 6)) := by unfold laneWord; rw [h]; rfl
theorem lane_37 {w v : Nat} (h : field w 25 6 = 37) : laneWord w v = some (.stLsB32 (Dec.guard w) (laneD w) (laneA w) (field w 6 3) (field w 0 6)) := by unfold laneWord; rw [h]; rfl
theorem lane_38 {w v : Nat} (h : field w 25 6 = 38) : laneWord w v = some (.stLsB64 (Dec.guard w) (laneD w) (laneA w) (field w 6 3) (field w 0 6)) := by unfold laneWord; rw [h]; rfl
theorem lane_39 {w v : Nat} (h : field w 25 6 = 39) : laneWord w v = some (.ldSpB32 (Dec.guard w) (laneD w) (laneA w) (field w 6 3) (field w 0 6)) := by unfold laneWord; rw [h]; rfl
theorem lane_40 {w v : Nat} (h : field w 25 6 = 40) : laneWord w v = some (.ldSpB64 (Dec.guard w) (laneD w) (laneA w) (field w 6 3) (field w 0 6)) := by unfold laneWord; rw [h]; rfl
theorem lane_41 {w v : Nat} (h : field w 25 6 = 41) : laneWord w v = some (.stSpB32 (Dec.guard w) (laneD w) (laneA w) (field w 6 3) (field w 0 6)) := by unfold laneWord; rw [h]; rfl
theorem lane_42 {w v : Nat} (h : field w 25 6 = 42) : laneWord w v = some (.stSpB64 (Dec.guard w) (laneD w) (laneA w) (field w 6 3) (field w 0 6)) := by unfold laneWord; rw [h]; rfl
theorem lane_43 {w v : Nat} (h : field w 25 6 = 43) : laneWord w v = some (.ldGmB32 (Dec.guard w) (laneD w) (laneA w) (field w 6 3) (field w 0 6)) := by unfold laneWord; rw [h]; rfl
theorem lane_44 {w v : Nat} (h : field w 25 6 = 44) : laneWord w v = some (.ldGmB64 (Dec.guard w) (laneD w) (laneA w) (field w 6 3) (field w 0 6)) := by unfold laneWord; rw [h]; rfl
theorem lane_45 {w v : Nat} (h : field w 25 6 = 45) : laneWord w v = some (.stGmB32 (Dec.guard w) (laneD w) (laneA w) (field w 6 3) (field w 0 6)) := by unfold laneWord; rw [h]; rfl
theorem lane_46 {w v : Nat} (h : field w 25 6 = 46) : laneWord w v = some (.stGmB64 (Dec.guard w) (laneD w) (laneA w) (field w 6 3) (field w 0 6)) := by unfold laneWord; rw [h]; rfl
theorem lane_47 {w v : Nat} (h : field w 25 6 = 47) : laneWord w v = lane2F w v (field w 0 3) := by unfold laneWord; rw [h]; rfl
theorem lane_48 {w v : Nat} (h : field w 25 6 = 48) : laneWord w v = lane30 w v (field w 0 3) := by unfold laneWord; rw [h]; rfl
theorem lane_49 {w v : Nat} (h : field w 25 6 = 49) : laneWord w v = lane31 w v (field w 0 3) := by unfold laneWord; rw [h]; rfl
theorem lane_50 {w v : Nat} (h : field w 25 6 = 50) : laneWord w v = lane32 w v (field w 0 3) := by unfold laneWord; rw [h]; rfl
theorem lane_56 {w v : Nat} (h : field w 25 6 = 56) : laneWord w v = some (.ldLx (Dec.guard w) (field w 0 3) (laneD w) (laneA w) (laneB w) (memX v)) := by unfold laneWord; rw [h]; rfl
theorem lane_57 {w v : Nat} (h : field w 25 6 = 57) : laneWord w v = some (.stLx (Dec.guard w) (field w 0 3) (laneD w) (laneA w) (laneB w) (memX v)) := by unfold laneWord; rw [h]; rfl
theorem lane_58 {w v : Nat} (h : field w 25 6 = 58) : laneWord w v = lane3A w v (field w 0 3) := by unfold laneWord; rw [h]; rfl
theorem lane_59 {w v : Nat} (h : field w 25 6 = 59) : laneWord w v = lane3B w v (field w 0 3) := by unfold laneWord; rw [h]; rfl
theorem lane_60 {w v : Nat} (h : field w 25 6 = 60) : laneWord w v = lane3C w v (field w 0 3) := by unfold laneWord; rw [h]; rfl
theorem lane_61 {w v : Nat} (h : field w 25 6 = 61) : laneWord w v = lane3D w v (field w 0 3) := by unfold laneWord; rw [h]; rfl
theorem lane_62 {w v : Nat} (h : field w 25 6 = 62) : laneWord w v = lane3E w v (field w 0 3) := by unfold laneWord; rw [h]; rfl
theorem lane_63 {w v : Nat} (h : field w 25 6 = 63) : laneWord w v = lane3F w v (field w 0 3) := by unfold laneWord; rw [h]; rfl
theorem group_0 {w v : Nat} (h : field w 25 6 = 0) : groupWord w v = group00 w v (field w 0 4) := by unfold groupWord; rw [h]; rfl
theorem group_1 {w v : Nat} (h : field w 25 6 = 1) : groupWord w v = some (.gcmp (groupQ w) (field w 0 4) (groupD w) (groupA w) (groupB w)) := by unfold groupWord; rw [h]; rfl
theorem group_2 {w v : Nat} (h : field w 25 6 = 2) : groupWord w v = some (.gmovImm (groupQ w) (groupD w) (field w 0 16)) := by unfold groupWord; rw [h]; rfl
theorem group_3 {w v : Nat} (h : field w 25 6 = 3) : groupWord w v = some (.gaddImm (groupQ w) (groupD w) (field w 0 16)) := by unfold groupWord; rw [h]; rfl
theorem group_4 {w v : Nat} (h : field w 25 6 = 4) : groupWord w v = some (.gorImm (groupQ w) (groupD w) (field w 0 16)) := by unfold groupWord; rw [h]; rfl
theorem group_5 {w v : Nat} (h : field w 25 6 = 5) : groupWord w v = some (.gshlImm (groupQ w) (groupD w) (field w 0 16)) := by unfold groupWord; rw [h]; rfl
theorem group_6 {w v : Nat} (h : field w 25 6 = 6) : groupWord w v = group06 w v (field w 0 4) := by unfold groupWord; rw [h]; rfl
theorem group_8 {w v : Nat} (h : field w 25 6 = 8) : groupWord w v = some (.br (groupQ w) (field w 19 3) (field w 0 19)) := by unfold groupWord; rw [h]; rfl
theorem group_9 {w v : Nat} (h : field w 25 6 = 9) : groupWord w v = some (.jmp (field w 0 19)) := by unfold groupWord; rw [h]; rfl
theorem group_10 {w v : Nat} (h : field w 25 6 = 10) : groupWord w v = some (.call (groupQ w) (field w 19 3) (field w 0 19)) := by unfold groupWord; rw [h]; rfl
theorem group_11 {w v : Nat} (h : field w 25 6 = 11) : groupWord w v = group0B w v (field w 0 4) := by unfold groupWord; rw [h]; rfl
theorem group_12 {w v : Nat} (h : field w 25 6 = 12) : groupWord w v = group0C w v (field w 0 4) := by unfold groupWord; rw [h]; rfl
theorem group_13 {w v : Nat} (h : field w 25 6 = 13) : groupWord w v = some (.loop (groupQ w) (groupD w) (field w 0 16)) := by unfold groupWord; rw [h]; rfl
theorem group_14 {w v : Nat} (h : field w 25 6 = 14) : groupWord w v = group0E w v (field w 0 4) := by unfold groupWord; rw [h]; rfl
theorem group_15 {w v : Nat} (h : field w 25 6 = 15) : groupWord w v = group0F w v (field w 0 4) := by unfold groupWord; rw [h]; rfl
theorem group_16 {w v : Nat} (h : field w 25 6 = 16) : groupWord w v = some (.wait (decide (field w 24 1 = 1)) (field w 18 6) (field w 12 6) (field w 6 6) (field w 0 6)) := by unfold groupWord; rw [h]; rfl
theorem group_17 {w v : Nat} (h : field w 25 6 = 17) : groupWord w v = group11 w v (field w 0 4) := by unfold groupWord; rw [h]; rfl
theorem group_18 {w v : Nat} (h : field w 25 6 = 18) : groupWord w v = group12 w v (field w 0 4) := by unfold groupWord; rw [h]; rfl
theorem group_19 {w v : Nat} (h : field w 25 6 = 19) : groupWord w v = group13 w v (field w 0 4) := by unfold groupWord; rw [h]; rfl
theorem group_20 {w v : Nat} (h : field w 25 6 = 20) : groupWord w v = group14 w v (field w 0 4) := by unfold groupWord; rw [h]; rfl
theorem group_56 {w v : Nat} (h : field w 25 6 = 56) : groupWord w v = some (.launch (groupQ w) (groupD w) (groupA w) (field w 0 10) v) := by unfold groupWord; rw [h]; rfl
theorem group_57 {w v : Nat} (h : field w 25 6 = 57) : groupWord w v = copyForm w v := by unfold groupWord; rw [h]; rfl
theorem group_58 {w v : Nat} (h : field w 25 6 = 58) : groupWord w v = some (.coll (groupQ w) (groupD w)) := by unfold groupWord; rw [h]; rfl
theorem group_59 {w v : Nat} (h : field w 25 6 = 59) : groupWord w v = some (.strn (groupQ w) (groupD w)) := by unfold groupWord; rw [h]; rfl
theorem group_60 {w v : Nat} (h : field w 25 6 = 60) : groupWord w v = some (.chain (groupQ w) (groupD w)) := by unfold groupWord; rw [h]; rfl

/-! ## The instructions -/

theorem addB32 (g : Guard) (d a b : Nat) : Statement (.addB32 g d a b) := by
  intro h
  have k : (Wf.guard g && Wf.dstV d && Wf.srcV a && Wf.srcV b) = true := h
  simp only [Wf.guard, Wf.dstV, Wf.srcV, Bool.and_eq_true, decide_eq_true_eq] at k
  refine of_lr (maj := 0) (by omega) (by omega) (by omega) (by omega) (by omega) (by omega) rfl ?_ h
  intro w v hm hg hd ha hb hf
  rw [lane_0 hm]; simp only [lane00, hg, hd, ha, hb, hf]
theorem subB32 (g : Guard) (d a b : Nat) : Statement (.subB32 g d a b) := by
  intro h
  have k : (Wf.guard g && Wf.dstV d && Wf.srcV a && Wf.srcV b) = true := h
  simp only [Wf.guard, Wf.dstV, Wf.srcV, Bool.and_eq_true, decide_eq_true_eq] at k
  refine of_lr (maj := 0) (by omega) (by omega) (by omega) (by omega) (by omega) (by omega) rfl ?_ h
  intro w v hm hg hd ha hb hf
  rw [lane_0 hm]; simp only [lane00, hg, hd, ha, hb, hf]
theorem mulB32 (g : Guard) (d a b : Nat) : Statement (.mulB32 g d a b) := by
  intro h
  have k : (Wf.guard g && Wf.dstV d && Wf.srcV a && Wf.srcV b) = true := h
  simp only [Wf.guard, Wf.dstV, Wf.srcV, Bool.and_eq_true, decide_eq_true_eq] at k
  refine of_lr (maj := 0) (by omega) (by omega) (by omega) (by omega) (by omega) (by omega) rfl ?_ h
  intro w v hm hg hd ha hb hf
  rw [lane_0 hm]; simp only [lane00, hg, hd, ha, hb, hf]
theorem mulhiS32 (g : Guard) (d a b : Nat) : Statement (.mulhiS32 g d a b) := by
  intro h
  have k : (Wf.guard g && Wf.dstV d && Wf.srcV a && Wf.srcV b) = true := h
  simp only [Wf.guard, Wf.dstV, Wf.srcV, Bool.and_eq_true, decide_eq_true_eq] at k
  refine of_lr (maj := 0) (by omega) (by omega) (by omega) (by omega) (by omega) (by omega) rfl ?_ h
  intro w v hm hg hd ha hb hf
  rw [lane_0 hm]; simp only [lane00, hg, hd, ha, hb, hf]
theorem mulhiN32 (g : Guard) (d a b : Nat) : Statement (.mulhiN32 g d a b) := by
  intro h
  have k : (Wf.guard g && Wf.dstV d && Wf.srcV a && Wf.srcV b) = true := h
  simp only [Wf.guard, Wf.dstV, Wf.srcV, Bool.and_eq_true, decide_eq_true_eq] at k
  refine of_lr (maj := 0) (by omega) (by omega) (by omega) (by omega) (by omega) (by omega) rfl ?_ h
  intro w v hm hg hd ha hb hf
  rw [lane_0 hm]; simp only [lane00, hg, hd, ha, hb, hf]
theorem absS32 (g : Guard) (d a : Nat) : Statement (.absS32 g d a) := by
  intro h
  have k : (Wf.guard g && Wf.dstV d && Wf.srcV a) = true := h
  simp only [Wf.guard, Wf.dstV, Wf.srcV, Bool.and_eq_true, decide_eq_true_eq] at k
  refine of_lr (maj := 0) (by omega) (by omega) (by omega) (by omega) (by omega) (by omega) rfl ?_ h
  intro w v hm hg hd ha hb hf
  rw [lane_0 hm]; simp only [lane00, hg, hd, ha, hb, hf]
theorem negS32 (g : Guard) (d a : Nat) : Statement (.negS32 g d a) := by
  intro h
  have k : (Wf.guard g && Wf.dstV d && Wf.srcV a) = true := h
  simp only [Wf.guard, Wf.dstV, Wf.srcV, Bool.and_eq_true, decide_eq_true_eq] at k
  refine of_lr (maj := 0) (by omega) (by omega) (by omega) (by omega) (by omega) (by omega) rfl ?_ h
  intro w v hm hg hd ha hb hf
  rw [lane_0 hm]; simp only [lane00, hg, hd, ha, hb, hf]
theorem minS32 (g : Guard) (d a b : Nat) : Statement (.minS32 g d a b) := by
  intro h
  have k : (Wf.guard g && Wf.dstV d && Wf.srcV a && Wf.srcV b) = true := h
  simp only [Wf.guard, Wf.dstV, Wf.srcV, Bool.and_eq_true, decide_eq_true_eq] at k
  refine of_lr (maj := 1) (by omega) (by omega) (by omega) (by omega) (by omega) (by omega) rfl ?_ h
  intro w v hm hg hd ha hb hf
  rw [lane_1 hm]; simp only [lane01, hg, hd, ha, hb, hf]
theorem maxS32 (g : Guard) (d a b : Nat) : Statement (.maxS32 g d a b) := by
  intro h
  have k : (Wf.guard g && Wf.dstV d && Wf.srcV a && Wf.srcV b) = true := h
  simp only [Wf.guard, Wf.dstV, Wf.srcV, Bool.and_eq_true, decide_eq_true_eq] at k
  refine of_lr (maj := 1) (by omega) (by omega) (by omega) (by omega) (by omega) (by omega) rfl ?_ h
  intro w v hm hg hd ha hb hf
  rw [lane_1 hm]; simp only [lane01, hg, hd, ha, hb, hf]
theorem minN32 (g : Guard) (d a b : Nat) : Statement (.minN32 g d a b) := by
  intro h
  have k : (Wf.guard g && Wf.dstV d && Wf.srcV a && Wf.srcV b) = true := h
  simp only [Wf.guard, Wf.dstV, Wf.srcV, Bool.and_eq_true, decide_eq_true_eq] at k
  refine of_lr (maj := 1) (by omega) (by omega) (by omega) (by omega) (by omega) (by omega) rfl ?_ h
  intro w v hm hg hd ha hb hf
  rw [lane_1 hm]; simp only [lane01, hg, hd, ha, hb, hf]
theorem maxN32 (g : Guard) (d a b : Nat) : Statement (.maxN32 g d a b) := by
  intro h
  have k : (Wf.guard g && Wf.dstV d && Wf.srcV a && Wf.srcV b) = true := h
  simp only [Wf.guard, Wf.dstV, Wf.srcV, Bool.and_eq_true, decide_eq_true_eq] at k
  refine of_lr (maj := 1) (by omega) (by omega) (by omega) (by omega) (by omega) (by omega) rfl ?_ h
  intro w v hm hg hd ha hb hf
  rw [lane_1 hm]; simp only [lane01, hg, hd, ha, hb, hf]
theorem minS64 (g : Guard) (d a b : Nat) : Statement (.minS64 g d a b) := by
  intro h
  have k : (Wf.guard g && Wf.regW d && Wf.regW a && Wf.regW b) = true := h
  simp only [Wf.guard, Wf.regW, Bool.or_eq_true, Bool.and_eq_true, decide_eq_true_eq] at k
  refine of_lr (maj := 1) (by omega) (by omega) (by omega) (by omega) (by omega) (by omega) rfl ?_ h
  intro w v hm hg hd ha hb hf
  rw [lane_1 hm]; simp only [lane01, hg, hd, ha, hb, hf]
theorem maxS64 (g : Guard) (d a b : Nat) : Statement (.maxS64 g d a b) := by
  intro h
  have k : (Wf.guard g && Wf.regW d && Wf.regW a && Wf.regW b) = true := h
  simp only [Wf.guard, Wf.regW, Bool.or_eq_true, Bool.and_eq_true, decide_eq_true_eq] at k
  refine of_lr (maj := 1) (by omega) (by omega) (by omega) (by omega) (by omega) (by omega) rfl ?_ h
  intro w v hm hg hd ha hb hf
  rw [lane_1 hm]; simp only [lane01, hg, hd, ha, hb, hf]
theorem minN64 (g : Guard) (d a b : Nat) : Statement (.minN64 g d a b) := by
  intro h
  have k : (Wf.guard g && Wf.regW d && Wf.regW a && Wf.regW b) = true := h
  simp only [Wf.guard, Wf.regW, Bool.or_eq_true, Bool.and_eq_true, decide_eq_true_eq] at k
  refine of_lr (maj := 1) (by omega) (by omega) (by omega) (by omega) (by omega) (by omega) rfl ?_ h
  intro w v hm hg hd ha hb hf
  rw [lane_1 hm]; simp only [lane01, hg, hd, ha, hb, hf]
theorem maxN64 (g : Guard) (d a b : Nat) : Statement (.maxN64 g d a b) := by
  intro h
  have k : (Wf.guard g && Wf.regW d && Wf.regW a && Wf.regW b) = true := h
  simp only [Wf.guard, Wf.regW, Bool.or_eq_true, Bool.and_eq_true, decide_eq_true_eq] at k
  refine of_lr (maj := 1) (by omega) (by omega) (by omega) (by omega) (by omega) (by omega) rfl ?_ h
  intro w v hm hg hd ha hb hf
  rw [lane_1 hm]; simp only [lane01, hg, hd, ha, hb, hf]
theorem addB64 (g : Guard) (d a b : Nat) : Statement (.addB64 g d a b) := by
  intro h
  have k : (Wf.guard g && Wf.regW d && Wf.regW a && Wf.regW b) = true := h
  simp only [Wf.guard, Wf.regW, Bool.or_eq_true, Bool.and_eq_true, decide_eq_true_eq] at k
  refine of_lr (maj := 2) (by omega) (by omega) (by omega) (by omega) (by omega) (by omega) rfl ?_ h
  intro w v hm hg hd ha hb hf
  rw [lane_2 hm]; simp only [lane02, hg, hd, ha, hb, hf]
theorem subB64 (g : Guard) (d a b : Nat) : Statement (.subB64 g d a b) := by
  intro h
  have k : (Wf.guard g && Wf.regW d && Wf.regW a && Wf.regW b) = true := h
  simp only [Wf.guard, Wf.regW, Bool.or_eq_true, Bool.and_eq_true, decide_eq_true_eq] at k
  refine of_lr (maj := 2) (by omega) (by omega) (by omega) (by omega) (by omega) (by omega) rfl ?_ h
  intro w v hm hg hd ha hb hf
  rw [lane_2 hm]; simp only [lane02, hg, hd, ha, hb, hf]
theorem mulB64 (g : Guard) (d a b : Nat) : Statement (.mulB64 g d a b) := by
  intro h
  have k : (Wf.guard g && Wf.regW d && Wf.regW a && Wf.regW b) = true := h
  simp only [Wf.guard, Wf.regW, Bool.or_eq_true, Bool.and_eq_true, decide_eq_true_eq] at k
  refine of_lr (maj := 2) (by omega) (by omega) (by omega) (by omega) (by omega) (by omega) rfl ?_ h
  intro w v hm hg hd ha hb hf
  rw [lane_2 hm]; simp only [lane02, hg, hd, ha, hb, hf]
theorem mulhiS64 (g : Guard) (d a b : Nat) : Statement (.mulhiS64 g d a b) := by
  intro h
  have k : (Wf.guard g && Wf.regW d && Wf.regW a && Wf.regW b) = true := h
  simp only [Wf.guard, Wf.regW, Bool.or_eq_true, Bool.and_eq_true, decide_eq_true_eq] at k
  refine of_lr (maj := 2) (by omega) (by omega) (by omega) (by omega) (by omega) (by omega) rfl ?_ h
  intro w v hm hg hd ha hb hf
  rw [lane_2 hm]; simp only [lane02, hg, hd, ha, hb, hf]
theorem mulhiN64 (g : Guard) (d a b : Nat) : Statement (.mulhiN64 g d a b) := by
  intro h
  have k : (Wf.guard g && Wf.regW d && Wf.regW a && Wf.regW b) = true := h
  simp only [Wf.guard, Wf.regW, Bool.or_eq_true, Bool.and_eq_true, decide_eq_true_eq] at k
  refine of_lr (maj := 2) (by omega) (by omega) (by omega) (by omega) (by omega) (by omega) rfl ?_ h
  intro w v hm hg hd ha hb hf
  rw [lane_2 hm]; simp only [lane02, hg, hd, ha, hb, hf]
theorem absS64 (g : Guard) (d a : Nat) : Statement (.absS64 g d a) := by
  intro h
  have k : (Wf.guard g && Wf.regW d && Wf.regW a) = true := h
  simp only [Wf.guard, Wf.regW, Bool.or_eq_true, Bool.and_eq_true, decide_eq_true_eq] at k
  refine of_lr (maj := 2) (by omega) (by omega) (by omega) (by omega) (by omega) (by omega) rfl ?_ h
  intro w v hm hg hd ha hb hf
  rw [lane_2 hm]; simp only [lane02, hg, hd, ha, hb, hf]
theorem negS64 (g : Guard) (d a : Nat) : Statement (.negS64 g d a) := by
  intro h
  have k : (Wf.guard g && Wf.regW d && Wf.regW a) = true := h
  simp only [Wf.guard, Wf.regW, Bool.or_eq_true, Bool.and_eq_true, decide_eq_true_eq] at k
  refine of_lr (maj := 2) (by omega) (by omega) (by omega) (by omega) (by omega) (by omega) rfl ?_ h
  intro w v hm hg hd ha hb hf
  rw [lane_2 hm]; simp only [lane02, hg, hd, ha, hb, hf]
theorem andB32 (g : Guard) (d a b : Nat) : Statement (.andB32 g d a b) := by
  intro h
  have k : (Wf.guard g && Wf.dstV d && Wf.srcV a && Wf.srcV b) = true := h
  simp only [Wf.guard, Wf.dstV, Wf.srcV, Bool.and_eq_true, decide_eq_true_eq] at k
  refine of_lr (maj := 3) (by omega) (by omega) (by omega) (by omega) (by omega) (by omega) rfl ?_ h
  intro w v hm hg hd ha hb hf
  rw [lane_3 hm]; simp only [lane03, hg, hd, ha, hb, hf]
theorem orB32 (g : Guard) (d a b : Nat) : Statement (.orB32 g d a b) := by
  intro h
  have k : (Wf.guard g && Wf.dstV d && Wf.srcV a && Wf.srcV b) = true := h
  simp only [Wf.guard, Wf.dstV, Wf.srcV, Bool.and_eq_true, decide_eq_true_eq] at k
  refine of_lr (maj := 3) (by omega) (by omega) (by omega) (by omega) (by omega) (by omega) rfl ?_ h
  intro w v hm hg hd ha hb hf
  rw [lane_3 hm]; simp only [lane03, hg, hd, ha, hb, hf]
theorem xorB32 (g : Guard) (d a b : Nat) : Statement (.xorB32 g d a b) := by
  intro h
  have k : (Wf.guard g && Wf.dstV d && Wf.srcV a && Wf.srcV b) = true := h
  simp only [Wf.guard, Wf.dstV, Wf.srcV, Bool.and_eq_true, decide_eq_true_eq] at k
  refine of_lr (maj := 3) (by omega) (by omega) (by omega) (by omega) (by omega) (by omega) rfl ?_ h
  intro w v hm hg hd ha hb hf
  rw [lane_3 hm]; simp only [lane03, hg, hd, ha, hb, hf]
theorem notB32 (g : Guard) (d a : Nat) : Statement (.notB32 g d a) := by
  intro h
  have k : (Wf.guard g && Wf.dstV d && Wf.srcV a) = true := h
  simp only [Wf.guard, Wf.dstV, Wf.srcV, Bool.and_eq_true, decide_eq_true_eq] at k
  refine of_lr (maj := 3) (by omega) (by omega) (by omega) (by omega) (by omega) (by omega) rfl ?_ h
  intro w v hm hg hd ha hb hf
  rw [lane_3 hm]; simp only [lane03, hg, hd, ha, hb, hf]
theorem popcB32 (g : Guard) (d a : Nat) : Statement (.popcB32 g d a) := by
  intro h
  have k : (Wf.guard g && Wf.dstV d && Wf.srcV a) = true := h
  simp only [Wf.guard, Wf.dstV, Wf.srcV, Bool.and_eq_true, decide_eq_true_eq] at k
  refine of_lr (maj := 3) (by omega) (by omega) (by omega) (by omega) (by omega) (by omega) rfl ?_ h
  intro w v hm hg hd ha hb hf
  rw [lane_3 hm]; simp only [lane03, hg, hd, ha, hb, hf]
theorem clzB32 (g : Guard) (d a : Nat) : Statement (.clzB32 g d a) := by
  intro h
  have k : (Wf.guard g && Wf.dstV d && Wf.srcV a) = true := h
  simp only [Wf.guard, Wf.dstV, Wf.srcV, Bool.and_eq_true, decide_eq_true_eq] at k
  refine of_lr (maj := 3) (by omega) (by omega) (by omega) (by omega) (by omega) (by omega) rfl ?_ h
  intro w v hm hg hd ha hb hf
  rw [lane_3 hm]; simp only [lane03, hg, hd, ha, hb, hf]
theorem ctzB32 (g : Guard) (d a : Nat) : Statement (.ctzB32 g d a) := by
  intro h
  have k : (Wf.guard g && Wf.dstV d && Wf.srcV a) = true := h
  simp only [Wf.guard, Wf.dstV, Wf.srcV, Bool.and_eq_true, decide_eq_true_eq] at k
  refine of_lr (maj := 3) (by omega) (by omega) (by omega) (by omega) (by omega) (by omega) rfl ?_ h
  intro w v hm hg hd ha hb hf
  rw [lane_3 hm]; simp only [lane03, hg, hd, ha, hb, hf]
theorem brevB32 (g : Guard) (d a : Nat) : Statement (.brevB32 g d a) := by
  intro h
  have k : (Wf.guard g && Wf.dstV d && Wf.srcV a) = true := h
  simp only [Wf.guard, Wf.dstV, Wf.srcV, Bool.and_eq_true, decide_eq_true_eq] at k
  refine of_lr (maj := 3) (by omega) (by omega) (by omega) (by omega) (by omega) (by omega) rfl ?_ h
  intro w v hm hg hd ha hb hf
  rw [lane_3 hm]; simp only [lane03, hg, hd, ha, hb, hf]
theorem shlB32 (g : Guard) (d a b : Nat) : Statement (.shlB32 g d a b) := by
  intro h
  have k : (Wf.guard g && Wf.dstV d && Wf.srcV a && Wf.srcV b) = true := h
  simp only [Wf.guard, Wf.dstV, Wf.srcV, Bool.and_eq_true, decide_eq_true_eq] at k
  refine of_lr (maj := 4) (by omega) (by omega) (by omega) (by omega) (by omega) (by omega) rfl ?_ h
  intro w v hm hg hd ha hb hf
  rw [lane_4 hm]; simp only [lane04, hg, hd, ha, hb, hf]
theorem shrB32 (g : Guard) (d a b : Nat) : Statement (.shrB32 g d a b) := by
  intro h
  have k : (Wf.guard g && Wf.dstV d && Wf.srcV a && Wf.srcV b) = true := h
  simp only [Wf.guard, Wf.dstV, Wf.srcV, Bool.and_eq_true, decide_eq_true_eq] at k
  refine of_lr (maj := 4) (by omega) (by omega) (by omega) (by omega) (by omega) (by omega) rfl ?_ h
  intro w v hm hg hd ha hb hf
  rw [lane_4 hm]; simp only [lane04, hg, hd, ha, hb, hf]
theorem sraB32 (g : Guard) (d a b : Nat) : Statement (.sraB32 g d a b) := by
  intro h
  have k : (Wf.guard g && Wf.dstV d && Wf.srcV a && Wf.srcV b) = true := h
  simp only [Wf.guard, Wf.dstV, Wf.srcV, Bool.and_eq_true, decide_eq_true_eq] at k
  refine of_lr (maj := 4) (by omega) (by omega) (by omega) (by omega) (by omega) (by omega) rfl ?_ h
  intro w v hm hg hd ha hb hf
  rw [lane_4 hm]; simp only [lane04, hg, hd, ha, hb, hf]
theorem rotB32 (g : Guard) (d a b : Nat) : Statement (.rotB32 g d a b) := by
  intro h
  have k : (Wf.guard g && Wf.dstV d && Wf.srcV a && Wf.srcV b) = true := h
  simp only [Wf.guard, Wf.dstV, Wf.srcV, Bool.and_eq_true, decide_eq_true_eq] at k
  refine of_lr (maj := 4) (by omega) (by omega) (by omega) (by omega) (by omega) (by omega) rfl ?_ h
  intro w v hm hg hd ha hb hf
  rw [lane_4 hm]; simp only [lane04, hg, hd, ha, hb, hf]
theorem shlB64 (g : Guard) (d a b : Nat) : Statement (.shlB64 g d a b) := by
  intro h
  have k : (Wf.guard g && Wf.regW d && Wf.regW a && Wf.srcV b) = true := h
  simp only [Wf.guard, Wf.srcV, Wf.regW, Bool.or_eq_true, Bool.and_eq_true, decide_eq_true_eq] at k
  refine of_lr (maj := 4) (by omega) (by omega) (by omega) (by omega) (by omega) (by omega) rfl ?_ h
  intro w v hm hg hd ha hb hf
  rw [lane_4 hm]; simp only [lane04, hg, hd, ha, hb, hf]
theorem shrB64 (g : Guard) (d a b : Nat) : Statement (.shrB64 g d a b) := by
  intro h
  have k : (Wf.guard g && Wf.regW d && Wf.regW a && Wf.srcV b) = true := h
  simp only [Wf.guard, Wf.srcV, Wf.regW, Bool.or_eq_true, Bool.and_eq_true, decide_eq_true_eq] at k
  refine of_lr (maj := 4) (by omega) (by omega) (by omega) (by omega) (by omega) (by omega) rfl ?_ h
  intro w v hm hg hd ha hb hf
  rw [lane_4 hm]; simp only [lane04, hg, hd, ha, hb, hf]
theorem sraB64 (g : Guard) (d a b : Nat) : Statement (.sraB64 g d a b) := by
  intro h
  have k : (Wf.guard g && Wf.regW d && Wf.regW a && Wf.srcV b) = true := h
  simp only [Wf.guard, Wf.srcV, Wf.regW, Bool.or_eq_true, Bool.and_eq_true, decide_eq_true_eq] at k
  refine of_lr (maj := 4) (by omega) (by omega) (by omega) (by omega) (by omega) (by omega) rfl ?_ h
  intro w v hm hg hd ha hb hf
  rw [lane_4 hm]; simp only [lane04, hg, hd, ha, hb, hf]
theorem rotB64 (g : Guard) (d a b : Nat) : Statement (.rotB64 g d a b) := by
  intro h
  have k : (Wf.guard g && Wf.regW d && Wf.regW a && Wf.srcV b) = true := h
  simp only [Wf.guard, Wf.srcV, Wf.regW, Bool.or_eq_true, Bool.and_eq_true, decide_eq_true_eq] at k
  refine of_lr (maj := 4) (by omega) (by omega) (by omega) (by omega) (by omega) (by omega) rfl ?_ h
  intro w v hm hg hd ha hb hf
  rw [lane_4 hm]; simp only [lane04, hg, hd, ha, hb, hf]
theorem bfeS32 (g : Guard) (d a b : Nat) : Statement (.bfeS32 g d a b) := by
  intro h
  have k : (Wf.guard g && Wf.dstV d && Wf.srcV a && Wf.srcV b) = true := h
  simp only [Wf.guard, Wf.dstV, Wf.srcV, Bool.and_eq_true, decide_eq_true_eq] at k
  refine of_lr (maj := 5) (by omega) (by omega) (by omega) (by omega) (by omega) (by omega) rfl ?_ h
  intro w v hm hg hd ha hb hf
  rw [lane_5 hm]; simp only [lane05, hg, hd, ha, hb, hf]
theorem bfeN32 (g : Guard) (d a b : Nat) : Statement (.bfeN32 g d a b) := by
  intro h
  have k : (Wf.guard g && Wf.dstV d && Wf.srcV a && Wf.srcV b) = true := h
  simp only [Wf.guard, Wf.dstV, Wf.srcV, Bool.and_eq_true, decide_eq_true_eq] at k
  refine of_lr (maj := 5) (by omega) (by omega) (by omega) (by omega) (by omega) (by omega) rfl ?_ h
  intro w v hm hg hd ha hb hf
  rw [lane_5 hm]; simp only [lane05, hg, hd, ha, hb, hf]
theorem lea (g : Guard) (f d a b : Nat) : Statement (.lea g f d a b) := by
  intro h
  have k : (Wf.guard g && decide (f < 5) && Wf.regW d && Wf.regW a && Wf.srcV b) = true := h
  simp only [Wf.guard, Wf.srcV, Wf.regW, Bool.or_eq_true, Bool.and_eq_true, decide_eq_true_eq] at k
  refine of_lr (maj := 6) (by omega) (by omega) (by omega) (by omega) (by omega) (by omega) rfl ?_ h
  intro w v hm hg hd ha hb hf
  rw [lane_6 hm]; simp only [hg, hd, ha, hb, hf]
theorem cmpS32 (g : Guard) (c d a b : Nat) : Statement (.cmpS32 g c d a b) := by
  intro h
  have k : (Wf.guard g && decide (c < 6) && Wf.regP d && Wf.srcV a && Wf.srcV b) = true := h
  simp only [Wf.guard, Wf.srcV, Wf.regP, Bool.and_eq_true, decide_eq_true_eq] at k
  refine of_lr (maj := 7) (by omega) (by omega) (by omega) (by omega) (by omega) (by omega) rfl ?_ h
  intro w v hm hg hd ha hb hf
  rw [lane_7 hm]; simp only [hg, hd, ha, hb, hf]
theorem cmpN32 (g : Guard) (c d a b : Nat) : Statement (.cmpN32 g c d a b) := by
  intro h
  have k : (Wf.guard g && decide (c < 6) && Wf.regP d && Wf.srcV a && Wf.srcV b) = true := h
  simp only [Wf.guard, Wf.srcV, Wf.regP, Bool.and_eq_true, decide_eq_true_eq] at k
  refine of_lr (maj := 8) (by omega) (by omega) (by omega) (by omega) (by omega) (by omega) rfl ?_ h
  intro w v hm hg hd ha hb hf
  rw [lane_8 hm]; simp only [hg, hd, ha, hb, hf]
theorem cmpS64 (g : Guard) (c d a b : Nat) : Statement (.cmpS64 g c d a b) := by
  intro h
  have k : (Wf.guard g && decide (c < 6) && Wf.regP d && Wf.regW a && Wf.regW b) = true := h
  simp only [Wf.guard, Wf.regW, Wf.regP, Bool.or_eq_true, Bool.and_eq_true, decide_eq_true_eq] at k
  refine of_lr (maj := 9) (by omega) (by omega) (by omega) (by omega) (by omega) (by omega) rfl ?_ h
  intro w v hm hg hd ha hb hf
  rw [lane_9 hm]; simp only [hg, hd, ha, hb, hf]
theorem cmpN64 (g : Guard) (c d a b : Nat) : Statement (.cmpN64 g c d a b) := by
  intro h
  have k : (Wf.guard g && decide (c < 6) && Wf.regP d && Wf.regW a && Wf.regW b) = true := h
  simp only [Wf.guard, Wf.regW, Wf.regP, Bool.or_eq_true, Bool.and_eq_true, decide_eq_true_eq] at k
  refine of_lr (maj := 10) (by omega) (by omega) (by omega) (by omega) (by omega) (by omega) rfl ?_ h
  intro w v hm hg hd ha hb hf
  rw [lane_10 hm]; simp only [hg, hd, ha, hb, hf]
theorem addB32Imm (g : Guard) (d a imm : Nat) : Statement (.addB32Imm g d a imm) := by
  intro h
  have k : (Wf.guard g && Wf.dstV d && Wf.srcV a && decide (imm < 512)) = true := h
  simp only [Wf.guard, Wf.dstV, Wf.srcV, Bool.and_eq_true, decide_eq_true_eq] at k
  refine of_li (maj := 11) (by omega) (by omega) (by omega) (by omega) (by omega) rfl ?_ h
  intro w v hm hg hd ha hi
  rw [lane_11 hm]; simp only [hg, hd, ha, hi]
theorem andB32Imm (g : Guard) (d a imm : Nat) : Statement (.andB32Imm g d a imm) := by
  intro h
  have k : (Wf.guard g && Wf.dstV d && Wf.srcV a && decide (imm < 512)) = true := h
  simp only [Wf.guard, Wf.dstV, Wf.srcV, Bool.and_eq_true, decide_eq_true_eq] at k
  refine of_li (maj := 12) (by omega) (by omega) (by omega) (by omega) (by omega) rfl ?_ h
  intro w v hm hg hd ha hi
  rw [lane_12 hm]; simp only [hg, hd, ha, hi]
theorem orB32Imm (g : Guard) (d a imm : Nat) : Statement (.orB32Imm g d a imm) := by
  intro h
  have k : (Wf.guard g && Wf.dstV d && Wf.srcV a && decide (imm < 512)) = true := h
  simp only [Wf.guard, Wf.dstV, Wf.srcV, Bool.and_eq_true, decide_eq_true_eq] at k
  refine of_li (maj := 13) (by omega) (by omega) (by omega) (by omega) (by omega) rfl ?_ h
  intro w v hm hg hd ha hi
  rw [lane_13 hm]; simp only [hg, hd, ha, hi]
theorem xorB32Imm (g : Guard) (d a imm : Nat) : Statement (.xorB32Imm g d a imm) := by
  intro h
  have k : (Wf.guard g && Wf.dstV d && Wf.srcV a && decide (imm < 512)) = true := h
  simp only [Wf.guard, Wf.dstV, Wf.srcV, Bool.and_eq_true, decide_eq_true_eq] at k
  refine of_li (maj := 14) (by omega) (by omega) (by omega) (by omega) (by omega) rfl ?_ h
  intro w v hm hg hd ha hi
  rw [lane_14 hm]; simp only [hg, hd, ha, hi]
theorem shlB32Imm (g : Guard) (d a imm : Nat) : Statement (.shlB32Imm g d a imm) := by
  intro h
  have k : (Wf.guard g && Wf.dstV d && Wf.srcV a && decide (imm < 32)) = true := h
  simp only [Wf.guard, Wf.dstV, Wf.srcV, Bool.and_eq_true, decide_eq_true_eq] at k
  refine of_li (maj := 15) (by omega) (by omega) (by omega) (by omega) (by omega) rfl ?_ h
  intro w v hm hg hd ha hi
  rw [lane_15 hm]; simp only [hg, hd, ha, hi]
theorem shrB32Imm (g : Guard) (d a imm : Nat) : Statement (.shrB32Imm g d a imm) := by
  intro h
  have k : (Wf.guard g && Wf.dstV d && Wf.srcV a && decide (imm < 32)) = true := h
  simp only [Wf.guard, Wf.dstV, Wf.srcV, Bool.and_eq_true, decide_eq_true_eq] at k
  refine of_li (maj := 16) (by omega) (by omega) (by omega) (by omega) (by omega) rfl ?_ h
  intro w v hm hg hd ha hi
  rw [lane_16 hm]; simp only [hg, hd, ha, hi]
theorem sraB32Imm (g : Guard) (d a imm : Nat) : Statement (.sraB32Imm g d a imm) := by
  intro h
  have k : (Wf.guard g && Wf.dstV d && Wf.srcV a && decide (imm < 32)) = true := h
  simp only [Wf.guard, Wf.dstV, Wf.srcV, Bool.and_eq_true, decide_eq_true_eq] at k
  refine of_li (maj := 17) (by omega) (by omega) (by omega) (by omega) (by omega) rfl ?_ h
  intro w v hm hg hd ha hi
  rw [lane_17 hm]; simp only [hg, hd, ha, hi]
theorem faddF32 (g : Guard) (d a b : Nat) : Statement (.faddF32 g d a b) := by
  intro h
  have k : (Wf.guard g && Wf.dstV d && Wf.srcV a && Wf.srcV b) = true := h
  simp only [Wf.guard, Wf.dstV, Wf.srcV, Bool.and_eq_true, decide_eq_true_eq] at k
  refine of_lr (maj := 19) (by omega) (by omega) (by omega) (by omega) (by omega) (by omega) rfl ?_ h
  intro w v hm hg hd ha hb hf
  rw [lane_19 hm]; simp only [lane13, hg, hd, ha, hb, hf]
theorem fsubF32 (g : Guard) (d a b : Nat) : Statement (.fsubF32 g d a b) := by
  intro h
  have k : (Wf.guard g && Wf.dstV d && Wf.srcV a && Wf.srcV b) = true := h
  simp only [Wf.guard, Wf.dstV, Wf.srcV, Bool.and_eq_true, decide_eq_true_eq] at k
  refine of_lr (maj := 19) (by omega) (by omega) (by omega) (by omega) (by omega) (by omega) rfl ?_ h
  intro w v hm hg hd ha hb hf
  rw [lane_19 hm]; simp only [lane13, hg, hd, ha, hb, hf]
theorem fmulF32 (g : Guard) (d a b : Nat) : Statement (.fmulF32 g d a b) := by
  intro h
  have k : (Wf.guard g && Wf.dstV d && Wf.srcV a && Wf.srcV b) = true := h
  simp only [Wf.guard, Wf.dstV, Wf.srcV, Bool.and_eq_true, decide_eq_true_eq] at k
  refine of_lr (maj := 19) (by omega) (by omega) (by omega) (by omega) (by omega) (by omega) rfl ?_ h
  intro w v hm hg hd ha hb hf
  rw [lane_19 hm]; simp only [lane13, hg, hd, ha, hb, hf]
theorem fminF32 (g : Guard) (d a b : Nat) : Statement (.fminF32 g d a b) := by
  intro h
  have k : (Wf.guard g && Wf.dstV d && Wf.srcV a && Wf.srcV b) = true := h
  simp only [Wf.guard, Wf.dstV, Wf.srcV, Bool.and_eq_true, decide_eq_true_eq] at k
  refine of_lr (maj := 19) (by omega) (by omega) (by omega) (by omega) (by omega) (by omega) rfl ?_ h
  intro w v hm hg hd ha hb hf
  rw [lane_19 hm]; simp only [lane13, hg, hd, ha, hb, hf]
theorem fmaxF32 (g : Guard) (d a b : Nat) : Statement (.fmaxF32 g d a b) := by
  intro h
  have k : (Wf.guard g && Wf.dstV d && Wf.srcV a && Wf.srcV b) = true := h
  simp only [Wf.guard, Wf.dstV, Wf.srcV, Bool.and_eq_true, decide_eq_true_eq] at k
  refine of_lr (maj := 19) (by omega) (by omega) (by omega) (by omega) (by omega) (by omega) rfl ?_ h
  intro w v hm hg hd ha hb hf
  rw [lane_19 hm]; simp only [lane13, hg, hd, ha, hb, hf]
theorem fabsF32 (g : Guard) (d a : Nat) : Statement (.fabsF32 g d a) := by
  intro h
  have k : (Wf.guard g && Wf.dstV d && Wf.srcV a) = true := h
  simp only [Wf.guard, Wf.dstV, Wf.srcV, Bool.and_eq_true, decide_eq_true_eq] at k
  refine of_lr (maj := 19) (by omega) (by omega) (by omega) (by omega) (by omega) (by omega) rfl ?_ h
  intro w v hm hg hd ha hb hf
  rw [lane_19 hm]; simp only [lane13, hg, hd, ha, hb, hf]
theorem fnegF32 (g : Guard) (d a : Nat) : Statement (.fnegF32 g d a) := by
  intro h
  have k : (Wf.guard g && Wf.dstV d && Wf.srcV a) = true := h
  simp only [Wf.guard, Wf.dstV, Wf.srcV, Bool.and_eq_true, decide_eq_true_eq] at k
  refine of_lr (maj := 19) (by omega) (by omega) (by omega) (by omega) (by omega) (by omega) rfl ?_ h
  intro w v hm hg hd ha hb hf
  rw [lane_19 hm]; simp only [lane13, hg, hd, ha, hb, hf]
theorem faddF16x2 (g : Guard) (d a b : Nat) : Statement (.faddF16x2 g d a b) := by
  intro h
  have k : (Wf.guard g && Wf.dstV d && Wf.srcV a && Wf.srcV b) = true := h
  simp only [Wf.guard, Wf.dstV, Wf.srcV, Bool.and_eq_true, decide_eq_true_eq] at k
  refine of_lr (maj := 20) (by omega) (by omega) (by omega) (by omega) (by omega) (by omega) rfl ?_ h
  intro w v hm hg hd ha hb hf
  rw [lane_20 hm]; simp only [lane14, hg, hd, ha, hb, hf]
theorem fsubF16x2 (g : Guard) (d a b : Nat) : Statement (.fsubF16x2 g d a b) := by
  intro h
  have k : (Wf.guard g && Wf.dstV d && Wf.srcV a && Wf.srcV b) = true := h
  simp only [Wf.guard, Wf.dstV, Wf.srcV, Bool.and_eq_true, decide_eq_true_eq] at k
  refine of_lr (maj := 20) (by omega) (by omega) (by omega) (by omega) (by omega) (by omega) rfl ?_ h
  intro w v hm hg hd ha hb hf
  rw [lane_20 hm]; simp only [lane14, hg, hd, ha, hb, hf]
theorem fmulF16x2 (g : Guard) (d a b : Nat) : Statement (.fmulF16x2 g d a b) := by
  intro h
  have k : (Wf.guard g && Wf.dstV d && Wf.srcV a && Wf.srcV b) = true := h
  simp only [Wf.guard, Wf.dstV, Wf.srcV, Bool.and_eq_true, decide_eq_true_eq] at k
  refine of_lr (maj := 20) (by omega) (by omega) (by omega) (by omega) (by omega) (by omega) rfl ?_ h
  intro w v hm hg hd ha hb hf
  rw [lane_20 hm]; simp only [lane14, hg, hd, ha, hb, hf]
theorem fminF16x2 (g : Guard) (d a b : Nat) : Statement (.fminF16x2 g d a b) := by
  intro h
  have k : (Wf.guard g && Wf.dstV d && Wf.srcV a && Wf.srcV b) = true := h
  simp only [Wf.guard, Wf.dstV, Wf.srcV, Bool.and_eq_true, decide_eq_true_eq] at k
  refine of_lr (maj := 20) (by omega) (by omega) (by omega) (by omega) (by omega) (by omega) rfl ?_ h
  intro w v hm hg hd ha hb hf
  rw [lane_20 hm]; simp only [lane14, hg, hd, ha, hb, hf]
theorem fmaxF16x2 (g : Guard) (d a b : Nat) : Statement (.fmaxF16x2 g d a b) := by
  intro h
  have k : (Wf.guard g && Wf.dstV d && Wf.srcV a && Wf.srcV b) = true := h
  simp only [Wf.guard, Wf.dstV, Wf.srcV, Bool.and_eq_true, decide_eq_true_eq] at k
  refine of_lr (maj := 20) (by omega) (by omega) (by omega) (by omega) (by omega) (by omega) rfl ?_ h
  intro w v hm hg hd ha hb hf
  rw [lane_20 hm]; simp only [lane14, hg, hd, ha, hb, hf]
theorem fabsF16x2 (g : Guard) (d a : Nat) : Statement (.fabsF16x2 g d a) := by
  intro h
  have k : (Wf.guard g && Wf.dstV d && Wf.srcV a) = true := h
  simp only [Wf.guard, Wf.dstV, Wf.srcV, Bool.and_eq_true, decide_eq_true_eq] at k
  refine of_lr (maj := 20) (by omega) (by omega) (by omega) (by omega) (by omega) (by omega) rfl ?_ h
  intro w v hm hg hd ha hb hf
  rw [lane_20 hm]; simp only [lane14, hg, hd, ha, hb, hf]
theorem fnegF16x2 (g : Guard) (d a : Nat) : Statement (.fnegF16x2 g d a) := by
  intro h
  have k : (Wf.guard g && Wf.dstV d && Wf.srcV a) = true := h
  simp only [Wf.guard, Wf.dstV, Wf.srcV, Bool.and_eq_true, decide_eq_true_eq] at k
  refine of_lr (maj := 20) (by omega) (by omega) (by omega) (by omega) (by omega) (by omega) rfl ?_ h
  intro w v hm hg hd ha hb hf
  rw [lane_20 hm]; simp only [lane14, hg, hd, ha, hb, hf]
theorem faddBf16x2 (g : Guard) (d a b : Nat) : Statement (.faddBf16x2 g d a b) := by
  intro h
  have k : (Wf.guard g && Wf.dstV d && Wf.srcV a && Wf.srcV b) = true := h
  simp only [Wf.guard, Wf.dstV, Wf.srcV, Bool.and_eq_true, decide_eq_true_eq] at k
  refine of_lr (maj := 21) (by omega) (by omega) (by omega) (by omega) (by omega) (by omega) rfl ?_ h
  intro w v hm hg hd ha hb hf
  rw [lane_21 hm]; simp only [lane15, hg, hd, ha, hb, hf]
theorem fsubBf16x2 (g : Guard) (d a b : Nat) : Statement (.fsubBf16x2 g d a b) := by
  intro h
  have k : (Wf.guard g && Wf.dstV d && Wf.srcV a && Wf.srcV b) = true := h
  simp only [Wf.guard, Wf.dstV, Wf.srcV, Bool.and_eq_true, decide_eq_true_eq] at k
  refine of_lr (maj := 21) (by omega) (by omega) (by omega) (by omega) (by omega) (by omega) rfl ?_ h
  intro w v hm hg hd ha hb hf
  rw [lane_21 hm]; simp only [lane15, hg, hd, ha, hb, hf]
theorem fmulBf16x2 (g : Guard) (d a b : Nat) : Statement (.fmulBf16x2 g d a b) := by
  intro h
  have k : (Wf.guard g && Wf.dstV d && Wf.srcV a && Wf.srcV b) = true := h
  simp only [Wf.guard, Wf.dstV, Wf.srcV, Bool.and_eq_true, decide_eq_true_eq] at k
  refine of_lr (maj := 21) (by omega) (by omega) (by omega) (by omega) (by omega) (by omega) rfl ?_ h
  intro w v hm hg hd ha hb hf
  rw [lane_21 hm]; simp only [lane15, hg, hd, ha, hb, hf]
theorem fminBf16x2 (g : Guard) (d a b : Nat) : Statement (.fminBf16x2 g d a b) := by
  intro h
  have k : (Wf.guard g && Wf.dstV d && Wf.srcV a && Wf.srcV b) = true := h
  simp only [Wf.guard, Wf.dstV, Wf.srcV, Bool.and_eq_true, decide_eq_true_eq] at k
  refine of_lr (maj := 21) (by omega) (by omega) (by omega) (by omega) (by omega) (by omega) rfl ?_ h
  intro w v hm hg hd ha hb hf
  rw [lane_21 hm]; simp only [lane15, hg, hd, ha, hb, hf]
theorem fmaxBf16x2 (g : Guard) (d a b : Nat) : Statement (.fmaxBf16x2 g d a b) := by
  intro h
  have k : (Wf.guard g && Wf.dstV d && Wf.srcV a && Wf.srcV b) = true := h
  simp only [Wf.guard, Wf.dstV, Wf.srcV, Bool.and_eq_true, decide_eq_true_eq] at k
  refine of_lr (maj := 21) (by omega) (by omega) (by omega) (by omega) (by omega) (by omega) rfl ?_ h
  intro w v hm hg hd ha hb hf
  rw [lane_21 hm]; simp only [lane15, hg, hd, ha, hb, hf]
theorem fabsBf16x2 (g : Guard) (d a : Nat) : Statement (.fabsBf16x2 g d a) := by
  intro h
  have k : (Wf.guard g && Wf.dstV d && Wf.srcV a) = true := h
  simp only [Wf.guard, Wf.dstV, Wf.srcV, Bool.and_eq_true, decide_eq_true_eq] at k
  refine of_lr (maj := 21) (by omega) (by omega) (by omega) (by omega) (by omega) (by omega) rfl ?_ h
  intro w v hm hg hd ha hb hf
  rw [lane_21 hm]; simp only [lane15, hg, hd, ha, hb, hf]
theorem fnegBf16x2 (g : Guard) (d a : Nat) : Statement (.fnegBf16x2 g d a) := by
  intro h
  have k : (Wf.guard g && Wf.dstV d && Wf.srcV a) = true := h
  simp only [Wf.guard, Wf.dstV, Wf.srcV, Bool.and_eq_true, decide_eq_true_eq] at k
  refine of_lr (maj := 21) (by omega) (by omega) (by omega) (by omega) (by omega) (by omega) rfl ?_ h
  intro w v hm hg hd ha hb hf
  rw [lane_21 hm]; simp only [lane15, hg, hd, ha, hb, hf]
theorem fcmpF32 (g : Guard) (c d a b : Nat) : Statement (.fcmpF32 g c d a b) := by
  intro h
  have k : (Wf.guard g && decide (c < 8) && Wf.regP d && Wf.srcV a && Wf.srcV b) = true := h
  simp only [Wf.guard, Wf.srcV, Wf.regP, Bool.and_eq_true, decide_eq_true_eq] at k
  refine of_lr (maj := 22) (by omega) (by omega) (by omega) (by omega) (by omega) (by omega) rfl ?_ h
  intro w v hm hg hd ha hb hf
  rw [lane_22 hm]; simp only [hg, hd, ha, hb, hf]
theorem frndF32 (g : Guard) (m d a : Nat) : Statement (.frndF32 g m d a) := by
  intro h
  have k : (Wf.guard g && decide (m < 4) && Wf.dstV d && Wf.srcV a) = true := h
  simp only [Wf.guard, Wf.dstV, Wf.srcV, Bool.and_eq_true, decide_eq_true_eq] at k
  refine of_lr (maj := 23) (by omega) (by omega) (by omega) (by omega) (by omega) (by omega) rfl ?_ h
  intro w v hm hg hd ha hb hf
  rw [lane_23 hm]; simp only [hg, hd, ha, hb, hf]
theorem rcp (g : Guard) (d a : Nat) : Statement (.rcp g d a) := by
  intro h
  have k : (Wf.guard g && Wf.dstV d && Wf.srcV a) = true := h
  simp only [Wf.guard, Wf.dstV, Wf.srcV, Bool.and_eq_true, decide_eq_true_eq] at k
  refine of_lr (maj := 24) (by omega) (by omega) (by omega) (by omega) (by omega) (by omega) rfl ?_ h
  intro w v hm hg hd ha hb hf
  rw [lane_24 hm]; simp only [lane18, hg, hd, ha, hb, hf]
theorem rsq (g : Guard) (d a : Nat) : Statement (.rsq g d a) := by
  intro h
  have k : (Wf.guard g && Wf.dstV d && Wf.srcV a) = true := h
  simp only [Wf.guard, Wf.dstV, Wf.srcV, Bool.and_eq_true, decide_eq_true_eq] at k
  refine of_lr (maj := 24) (by omega) (by omega) (by omega) (by omega) (by omega) (by omega) rfl ?_ h
  intro w v hm hg hd ha hb hf
  rw [lane_24 hm]; simp only [lane18, hg, hd, ha, hb, hf]
theorem sqrt (g : Guard) (d a : Nat) : Statement (.sqrt g d a) := by
  intro h
  have k : (Wf.guard g && Wf.dstV d && Wf.srcV a) = true := h
  simp only [Wf.guard, Wf.dstV, Wf.srcV, Bool.and_eq_true, decide_eq_true_eq] at k
  refine of_lr (maj := 24) (by omega) (by omega) (by omega) (by omega) (by omega) (by omega) rfl ?_ h
  intro w v hm hg hd ha hb hf
  rw [lane_24 hm]; simp only [lane18, hg, hd, ha, hb, hf]
theorem div (g : Guard) (d a b : Nat) : Statement (.div g d a b) := by
  intro h
  have k : (Wf.guard g && Wf.dstV d && Wf.srcV a && Wf.srcV b) = true := h
  simp only [Wf.guard, Wf.dstV, Wf.srcV, Bool.and_eq_true, decide_eq_true_eq] at k
  refine of_lr (maj := 24) (by omega) (by omega) (by omega) (by omega) (by omega) (by omega) rfl ?_ h
  intro w v hm hg hd ha hb hf
  rw [lane_24 hm]; simp only [lane18, hg, hd, ha, hb, hf]
theorem exp2 (g : Guard) (d a : Nat) : Statement (.exp2 g d a) := by
  intro h
  have k : (Wf.guard g && Wf.dstV d && Wf.srcV a) = true := h
  simp only [Wf.guard, Wf.dstV, Wf.srcV, Bool.and_eq_true, decide_eq_true_eq] at k
  refine of_lr (maj := 24) (by omega) (by omega) (by omega) (by omega) (by omega) (by omega) rfl ?_ h
  intro w v hm hg hd ha hb hf
  rw [lane_24 hm]; simp only [lane18, hg, hd, ha, hb, hf]
theorem log2 (g : Guard) (d a : Nat) : Statement (.log2 g d a) := by
  intro h
  have k : (Wf.guard g && Wf.dstV d && Wf.srcV a) = true := h
  simp only [Wf.guard, Wf.dstV, Wf.srcV, Bool.and_eq_true, decide_eq_true_eq] at k
  refine of_lr (maj := 24) (by omega) (by omega) (by omega) (by omega) (by omega) (by omega) rfl ?_ h
  intro w v hm hg hd ha hb hf
  rw [lane_24 hm]; simp only [lane18, hg, hd, ha, hb, hf]
theorem sin (g : Guard) (d a : Nat) : Statement (.sin g d a) := by
  intro h
  have k : (Wf.guard g && Wf.dstV d && Wf.srcV a) = true := h
  simp only [Wf.guard, Wf.dstV, Wf.srcV, Bool.and_eq_true, decide_eq_true_eq] at k
  refine of_lr (maj := 24) (by omega) (by omega) (by omega) (by omega) (by omega) (by omega) rfl ?_ h
  intro w v hm hg hd ha hb hf
  rw [lane_24 hm]; simp only [lane18, hg, hd, ha, hb, hf]
theorem cos (g : Guard) (d a : Nat) : Statement (.cos g d a) := by
  intro h
  have k : (Wf.guard g && Wf.dstV d && Wf.srcV a) = true := h
  simp only [Wf.guard, Wf.dstV, Wf.srcV, Bool.and_eq_true, decide_eq_true_eq] at k
  refine of_lr (maj := 24) (by omega) (by omega) (by omega) (by omega) (by omega) (by omega) rfl ?_ h
  intro w v hm hg hd ha hb hf
  rw [lane_24 hm]; simp only [lane18, hg, hd, ha, hb, hf]
theorem rcpx (g : Guard) (d a : Nat) : Statement (.rcpx g d a) := by
  intro h
  have k : (Wf.guard g && Wf.dstV d && Wf.srcV a) = true := h
  simp only [Wf.guard, Wf.dstV, Wf.srcV, Bool.and_eq_true, decide_eq_true_eq] at k
  refine of_lr (maj := 25) (by omega) (by omega) (by omega) (by omega) (by omega) (by omega) rfl ?_ h
  intro w v hm hg hd ha hb hf
  rw [lane_25 hm]; simp only [lane19, hg, hd, ha, hb, hf]
theorem rsqx (g : Guard) (d a : Nat) : Statement (.rsqx g d a) := by
  intro h
  have k : (Wf.guard g && Wf.dstV d && Wf.srcV a) = true := h
  simp only [Wf.guard, Wf.dstV, Wf.srcV, Bool.and_eq_true, decide_eq_true_eq] at k
  refine of_lr (maj := 25) (by omega) (by omega) (by omega) (by omega) (by omega) (by omega) rfl ?_ h
  intro w v hm hg hd ha hb hf
  rw [lane_25 hm]; simp only [lane19, hg, hd, ha, hb, hf]
theorem sqrtx (g : Guard) (d a : Nat) : Statement (.sqrtx g d a) := by
  intro h
  have k : (Wf.guard g && Wf.dstV d && Wf.srcV a) = true := h
  simp only [Wf.guard, Wf.dstV, Wf.srcV, Bool.and_eq_true, decide_eq_true_eq] at k
  refine of_lr (maj := 25) (by omega) (by omega) (by omega) (by omega) (by omega) (by omega) rfl ?_ h
  intro w v hm hg hd ha hb hf
  rw [lane_25 hm]; simp only [lane19, hg, hd, ha, hb, hf]
theorem divx (g : Guard) (d a b : Nat) : Statement (.divx g d a b) := by
  intro h
  have k : (Wf.guard g && Wf.dstV d && Wf.srcV a && Wf.srcV b) = true := h
  simp only [Wf.guard, Wf.dstV, Wf.srcV, Bool.and_eq_true, decide_eq_true_eq] at k
  refine of_lr (maj := 25) (by omega) (by omega) (by omega) (by omega) (by omega) (by omega) rfl ?_ h
  intro w v hm hg hd ha hb hf
  rw [lane_25 hm]; simp only [lane19, hg, hd, ha, hb, hf]
theorem exp2x (g : Guard) (d a : Nat) : Statement (.exp2x g d a) := by
  intro h
  have k : (Wf.guard g && Wf.dstV d && Wf.srcV a) = true := h
  simp only [Wf.guard, Wf.dstV, Wf.srcV, Bool.and_eq_true, decide_eq_true_eq] at k
  refine of_lr (maj := 25) (by omega) (by omega) (by omega) (by omega) (by omega) (by omega) rfl ?_ h
  intro w v hm hg hd ha hb hf
  rw [lane_25 hm]; simp only [lane19, hg, hd, ha, hb, hf]
theorem log2x (g : Guard) (d a : Nat) : Statement (.log2x g d a) := by
  intro h
  have k : (Wf.guard g && Wf.dstV d && Wf.srcV a) = true := h
  simp only [Wf.guard, Wf.dstV, Wf.srcV, Bool.and_eq_true, decide_eq_true_eq] at k
  refine of_lr (maj := 25) (by omega) (by omega) (by omega) (by omega) (by omega) (by omega) rfl ?_ h
  intro w v hm hg hd ha hb hf
  rw [lane_25 hm]; simp only [lane19, hg, hd, ha, hb, hf]
theorem sinx (g : Guard) (d a : Nat) : Statement (.sinx g d a) := by
  intro h
  have k : (Wf.guard g && Wf.dstV d && Wf.srcV a) = true := h
  simp only [Wf.guard, Wf.dstV, Wf.srcV, Bool.and_eq_true, decide_eq_true_eq] at k
  refine of_lr (maj := 25) (by omega) (by omega) (by omega) (by omega) (by omega) (by omega) rfl ?_ h
  intro w v hm hg hd ha hb hf
  rw [lane_25 hm]; simp only [lane19, hg, hd, ha, hb, hf]
theorem cosx (g : Guard) (d a : Nat) : Statement (.cosx g d a) := by
  intro h
  have k : (Wf.guard g && Wf.dstV d && Wf.srcV a) = true := h
  simp only [Wf.guard, Wf.dstV, Wf.srcV, Bool.and_eq_true, decide_eq_true_eq] at k
  refine of_lr (maj := 25) (by omega) (by omega) (by omega) (by omega) (by omega) (by omega) rfl ?_ h
  intro w v hm hg hd ha hb hf
  rw [lane_25 hm]; simp only [lane19, hg, hd, ha, hb, hf]
theorem tanh (g : Guard) (d a : Nat) : Statement (.tanh g d a) := by
  intro h
  have k : (Wf.guard g && Wf.dstV d && Wf.srcV a) = true := h
  simp only [Wf.guard, Wf.dstV, Wf.srcV, Bool.and_eq_true, decide_eq_true_eq] at k
  refine of_lr (maj := 26) (by omega) (by omega) (by omega) (by omega) (by omega) (by omega) rfl ?_ h
  intro w v hm hg hd ha hb hf
  rw [lane_26 hm]; simp only [lane1A, hg, hd, ha, hb, hf]
theorem tanhx (g : Guard) (d a : Nat) : Statement (.tanhx g d a) := by
  intro h
  have k : (Wf.guard g && Wf.dstV d && Wf.srcV a) = true := h
  simp only [Wf.guard, Wf.dstV, Wf.srcV, Bool.and_eq_true, decide_eq_true_eq] at k
  refine of_lr (maj := 26) (by omega) (by omega) (by omega) (by omega) (by omega) (by omega) rfl ?_ h
  intro w v hm hg hd ha hb hf
  rw [lane_26 hm]; simp only [lane1A, hg, hd, ha, hb, hf]
theorem shflIdx (g : Guard) (d a b : Nat) : Statement (.shflIdx g d a b) := by
  intro h
  have k : (Wf.guard g && Wf.dstV d && Wf.srcV a && Wf.srcV b) = true := h
  simp only [Wf.guard, Wf.dstV, Wf.srcV, Bool.and_eq_true, decide_eq_true_eq] at k
  refine of_lr (maj := 28) (by omega) (by omega) (by omega) (by omega) (by omega) (by omega) rfl ?_ h
  intro w v hm hg hd ha hb hf
  rw [lane_28 hm]; simp only [lane1C, hg, hd, ha, hb, hf]
theorem shflUp (g : Guard) (d a b : Nat) : Statement (.shflUp g d a b) := by
  intro h
  have k : (Wf.guard g && Wf.dstV d && Wf.srcV a && Wf.srcV b) = true := h
  simp only [Wf.guard, Wf.dstV, Wf.srcV, Bool.and_eq_true, decide_eq_true_eq] at k
  refine of_lr (maj := 28) (by omega) (by omega) (by omega) (by omega) (by omega) (by omega) rfl ?_ h
  intro w v hm hg hd ha hb hf
  rw [lane_28 hm]; simp only [lane1C, hg, hd, ha, hb, hf]
theorem shflDown (g : Guard) (d a b : Nat) : Statement (.shflDown g d a b) := by
  intro h
  have k : (Wf.guard g && Wf.dstV d && Wf.srcV a && Wf.srcV b) = true := h
  simp only [Wf.guard, Wf.dstV, Wf.srcV, Bool.and_eq_true, decide_eq_true_eq] at k
  refine of_lr (maj := 28) (by omega) (by omega) (by omega) (by omega) (by omega) (by omega) rfl ?_ h
  intro w v hm hg hd ha hb hf
  rw [lane_28 hm]; simp only [lane1C, hg, hd, ha, hb, hf]
theorem shflXor (g : Guard) (d a b : Nat) : Statement (.shflXor g d a b) := by
  intro h
  have k : (Wf.guard g && Wf.dstV d && Wf.srcV a && Wf.srcV b) = true := h
  simp only [Wf.guard, Wf.dstV, Wf.srcV, Bool.and_eq_true, decide_eq_true_eq] at k
  refine of_lr (maj := 28) (by omega) (by omega) (by omega) (by omega) (by omega) (by omega) rfl ?_ h
  intro w v hm hg hd ha hb hf
  rw [lane_28 hm]; simp only [lane1C, hg, hd, ha, hb, hf]
theorem voteAny (g : Guard) (d a : Nat) : Statement (.voteAny g d a) := by
  intro h
  have k : (Wf.guard g && Wf.regP d && Wf.regP a) = true := h
  simp only [Wf.guard, Wf.regP, Bool.and_eq_true, decide_eq_true_eq] at k
  refine of_lr (maj := 29) (by omega) (by omega) (by omega) (by omega) (by omega) (by omega) rfl ?_ h
  intro w v hm hg hd ha hb hf
  rw [lane_29 hm]; simp only [lane1D, hg, hd, ha, hb, hf]
theorem voteAll (g : Guard) (d a : Nat) : Statement (.voteAll g d a) := by
  intro h
  have k : (Wf.guard g && Wf.regP d && Wf.regP a) = true := h
  simp only [Wf.guard, Wf.regP, Bool.and_eq_true, decide_eq_true_eq] at k
  refine of_lr (maj := 29) (by omega) (by omega) (by omega) (by omega) (by omega) (by omega) rfl ?_ h
  intro w v hm hg hd ha hb hf
  rw [lane_29 hm]; simp only [lane1D, hg, hd, ha, hb, hf]
theorem voteBallot (g : Guard) (d a : Nat) : Statement (.voteBallot g d a) := by
  intro h
  have k : (Wf.guard g && Wf.dstV d && Wf.regP a) = true := h
  simp only [Wf.guard, Wf.dstV, Wf.regP, Bool.and_eq_true, decide_eq_true_eq] at k
  refine of_lr (maj := 29) (by omega) (by omega) (by omega) (by omega) (by omega) (by omega) rfl ?_ h
  intro w v hm hg hd ha hb hf
  rw [lane_29 hm]; simp only [lane1D, hg, hd, ha, hb, hf]
theorem reduxInt (g : Guard) (f d a : Nat) : Statement (.reduxInt g f d a) := by
  intro h
  have k : (Wf.guard g && decide (f < 8) && Wf.dstV d && Wf.srcV a) = true := h
  simp only [Wf.guard, Wf.dstV, Wf.srcV, Bool.and_eq_true, decide_eq_true_eq] at k
  refine of_lr (maj := 30) (by omega) (by omega) (by omega) (by omega) (by omega) (by omega) rfl ?_ h
  intro w v hm hg hd ha hb hf
  rw [lane_30 hm]; simp only [hg, hd, ha, hb, hf]
theorem reduxF32 (g : Guard) (f d a : Nat) : Statement (.reduxF32 g f d a) := by
  intro h
  have k : (Wf.guard g && decide (f < 3) && Wf.dstV d && Wf.srcV a) = true := h
  simp only [Wf.guard, Wf.dstV, Wf.srcV, Bool.and_eq_true, decide_eq_true_eq] at k
  refine of_lr (maj := 31) (by omega) (by omega) (by omega) (by omega) (by omega) (by omega) rfl ?_ h
  intro w v hm hg hd ha hb hf
  rw [lane_31 hm]; simp only [hg, hd, ha, hb, hf]
theorem scanInt (g : Guard) (f d a : Nat) : Statement (.scanInt g f d a) := by
  intro h
  have k : (Wf.guard g && decide (f < 8) && Wf.dstV d && Wf.srcV a) = true := h
  simp only [Wf.guard, Wf.dstV, Wf.srcV, Bool.and_eq_true, decide_eq_true_eq] at k
  refine of_lr (maj := 32) (by omega) (by omega) (by omega) (by omega) (by omega) (by omega) rfl ?_ h
  intro w v hm hg hd ha hb hf
  rw [lane_32 hm]; simp only [hg, hd, ha, hb, hf]
theorem scanF32 (g : Guard) (f d a : Nat) : Statement (.scanF32 g f d a) := by
  intro h
  have k : (Wf.guard g && decide (f < 3) && Wf.dstV d && Wf.srcV a) = true := h
  simp only [Wf.guard, Wf.dstV, Wf.srcV, Bool.and_eq_true, decide_eq_true_eq] at k
  refine of_lr (maj := 33) (by omega) (by omega) (by omega) (by omega) (by omega) (by omega) rfl ?_ h
  intro w v hm hg hd ha hb hf
  rw [lane_33 hm]; simp only [hg, hd, ha, hb, hf]
theorem compress (g : Guard) (d a b : Nat) : Statement (.compress g d a b) := by
  intro h
  have k : (Wf.guard g && Wf.dstV d && Wf.srcV a && Wf.regP b) = true := h
  simp only [Wf.guard, Wf.dstV, Wf.srcV, Wf.regP, Bool.and_eq_true, decide_eq_true_eq] at k
  refine of_lr (maj := 34) (by omega) (by omega) (by omega) (by omega) (by omega) (by omega) rfl ?_ h
  intro w v hm hg hd ha hb hf
  rw [lane_34 hm]; simp only [lane22, hg, hd, ha, hb, hf]
theorem expand (g : Guard) (d a b : Nat) : Statement (.expand g d a b) := by
  intro h
  have k : (Wf.guard g && Wf.dstV d && Wf.srcV a && Wf.regP b) = true := h
  simp only [Wf.guard, Wf.dstV, Wf.srcV, Wf.regP, Bool.and_eq_true, decide_eq_true_eq] at k
  refine of_lr (maj := 34) (by omega) (by omega) (by omega) (by omega) (by omega) (by omega) rfl ?_ h
  intro w v hm hg hd ha hb hf
  rw [lane_34 hm]; simp only [lane22, hg, hd, ha, hb, hf]
theorem ldLsB32 (g : Guard) (d a swz off : Nat) : Statement (.ldLsB32 g d a swz off) := by
  intro h
  have k : (Wf.guard g && Wf.dstV d && Wf.regW a && decide (swz = 0) && decide (off < 64)) = true := h
  simp only [Wf.guard, Wf.dstV, Wf.regW, Bool.or_eq_true, Bool.and_eq_true, decide_eq_true_eq] at k
  refine of_lm (maj := 35) (by omega) (by omega) (by omega) (by omega) (by omega) (by omega) rfl ?_ h
  intro w v hm hg hd ha hs ho
  rw [lane_35 hm]; simp only [hg, hd, ha, hs, ho]
theorem ldLsB64 (g : Guard) (d a swz off : Nat) : Statement (.ldLsB64 g d a swz off) := by
  intro h
  have k : (Wf.guard g && Wf.regW d && Wf.regW a && decide (swz = 0) && decide (off < 64)) = true := h
  simp only [Wf.guard, Wf.regW, Bool.or_eq_true, Bool.and_eq_true, decide_eq_true_eq] at k
  refine of_lm (maj := 36) (by omega) (by omega) (by omega) (by omega) (by omega) (by omega) rfl ?_ h
  intro w v hm hg hd ha hs ho
  rw [lane_36 hm]; simp only [hg, hd, ha, hs, ho]
theorem stLsB32 (g : Guard) (d a swz off : Nat) : Statement (.stLsB32 g d a swz off) := by
  intro h
  have k : (Wf.guard g && Wf.srcV d && Wf.regW a && decide (swz = 0) && decide (off < 64)) = true := h
  simp only [Wf.guard, Wf.srcV, Wf.regW, Bool.or_eq_true, Bool.and_eq_true, decide_eq_true_eq] at k
  refine of_lm (maj := 37) (by omega) (by omega) (by omega) (by omega) (by omega) (by omega) rfl ?_ h
  intro w v hm hg hd ha hs ho
  rw [lane_37 hm]; simp only [hg, hd, ha, hs, ho]
theorem stLsB64 (g : Guard) (d a swz off : Nat) : Statement (.stLsB64 g d a swz off) := by
  intro h
  have k : (Wf.guard g && Wf.regW d && Wf.regW a && decide (swz = 0) && decide (off < 64)) = true := h
  simp only [Wf.guard, Wf.regW, Bool.or_eq_true, Bool.and_eq_true, decide_eq_true_eq] at k
  refine of_lm (maj := 38) (by omega) (by omega) (by omega) (by omega) (by omega) (by omega) rfl ?_ h
  intro w v hm hg hd ha hs ho
  rw [lane_38 hm]; simp only [hg, hd, ha, hs, ho]
theorem ldSpB32 (g : Guard) (d a swz off : Nat) : Statement (.ldSpB32 g d a swz off) := by
  intro h
  have k : (Wf.guard g && Wf.dstV d && Wf.regW a && decide (swz < 8) && decide (off < 64)) = true := h
  simp only [Wf.guard, Wf.dstV, Wf.regW, Bool.or_eq_true, Bool.and_eq_true, decide_eq_true_eq] at k
  refine of_lm (maj := 39) (by omega) (by omega) (by omega) (by omega) (by omega) (by omega) rfl ?_ h
  intro w v hm hg hd ha hs ho
  rw [lane_39 hm]; simp only [hg, hd, ha, hs, ho]
theorem ldSpB64 (g : Guard) (d a swz off : Nat) : Statement (.ldSpB64 g d a swz off) := by
  intro h
  have k : (Wf.guard g && Wf.regW d && Wf.regW a && decide (swz < 8) && decide (off < 64)) = true := h
  simp only [Wf.guard, Wf.regW, Bool.or_eq_true, Bool.and_eq_true, decide_eq_true_eq] at k
  refine of_lm (maj := 40) (by omega) (by omega) (by omega) (by omega) (by omega) (by omega) rfl ?_ h
  intro w v hm hg hd ha hs ho
  rw [lane_40 hm]; simp only [hg, hd, ha, hs, ho]
theorem stSpB32 (g : Guard) (d a swz off : Nat) : Statement (.stSpB32 g d a swz off) := by
  intro h
  have k : (Wf.guard g && Wf.srcV d && Wf.regW a && decide (swz < 8) && decide (off < 64)) = true := h
  simp only [Wf.guard, Wf.srcV, Wf.regW, Bool.or_eq_true, Bool.and_eq_true, decide_eq_true_eq] at k
  refine of_lm (maj := 41) (by omega) (by omega) (by omega) (by omega) (by omega) (by omega) rfl ?_ h
  intro w v hm hg hd ha hs ho
  rw [lane_41 hm]; simp only [hg, hd, ha, hs, ho]
theorem stSpB64 (g : Guard) (d a swz off : Nat) : Statement (.stSpB64 g d a swz off) := by
  intro h
  have k : (Wf.guard g && Wf.regW d && Wf.regW a && decide (swz < 8) && decide (off < 64)) = true := h
  simp only [Wf.guard, Wf.regW, Bool.or_eq_true, Bool.and_eq_true, decide_eq_true_eq] at k
  refine of_lm (maj := 42) (by omega) (by omega) (by omega) (by omega) (by omega) (by omega) rfl ?_ h
  intro w v hm hg hd ha hs ho
  rw [lane_42 hm]; simp only [hg, hd, ha, hs, ho]
theorem ldGmB32 (g : Guard) (d a swz off : Nat) : Statement (.ldGmB32 g d a swz off) := by
  intro h
  have k : (Wf.guard g && Wf.dstV d && Wf.regW a && decide (swz = 0) && decide (off < 64)) = true := h
  simp only [Wf.guard, Wf.dstV, Wf.regW, Bool.or_eq_true, Bool.and_eq_true, decide_eq_true_eq] at k
  refine of_lm (maj := 43) (by omega) (by omega) (by omega) (by omega) (by omega) (by omega) rfl ?_ h
  intro w v hm hg hd ha hs ho
  rw [lane_43 hm]; simp only [hg, hd, ha, hs, ho]
theorem ldGmB64 (g : Guard) (d a swz off : Nat) : Statement (.ldGmB64 g d a swz off) := by
  intro h
  have k : (Wf.guard g && Wf.regW d && Wf.regW a && decide (swz = 0) && decide (off < 64)) = true := h
  simp only [Wf.guard, Wf.regW, Bool.or_eq_true, Bool.and_eq_true, decide_eq_true_eq] at k
  refine of_lm (maj := 44) (by omega) (by omega) (by omega) (by omega) (by omega) (by omega) rfl ?_ h
  intro w v hm hg hd ha hs ho
  rw [lane_44 hm]; simp only [hg, hd, ha, hs, ho]
theorem stGmB32 (g : Guard) (d a swz off : Nat) : Statement (.stGmB32 g d a swz off) := by
  intro h
  have k : (Wf.guard g && Wf.srcV d && Wf.regW a && decide (swz = 0) && decide (off < 64)) = true := h
  simp only [Wf.guard, Wf.srcV, Wf.regW, Bool.or_eq_true, Bool.and_eq_true, decide_eq_true_eq] at k
  refine of_lm (maj := 45) (by omega) (by omega) (by omega) (by omega) (by omega) (by omega) rfl ?_ h
  intro w v hm hg hd ha hs ho
  rw [lane_45 hm]; simp only [hg, hd, ha, hs, ho]
theorem stGmB64 (g : Guard) (d a swz off : Nat) : Statement (.stGmB64 g d a swz off) := by
  intro h
  have k : (Wf.guard g && Wf.regW d && Wf.regW a && decide (swz = 0) && decide (off < 64)) = true := h
  simp only [Wf.guard, Wf.regW, Bool.or_eq_true, Bool.and_eq_true, decide_eq_true_eq] at k
  refine of_lm (maj := 46) (by omega) (by omega) (by omega) (by omega) (by omega) (by omega) rfl ?_ h
  intro w v hm hg hd ha hs ho
  rw [lane_46 hm]; simp only [hg, hd, ha, hs, ho]
theorem rng (g : Guard) (d k : Nat) : Statement (.rng g d k) := by
  intro h
  have k : (Wf.guard g && Wf.dstV d && decide (k < 3)) = true := h
  simp only [Wf.guard, Wf.dstV, Bool.and_eq_true, decide_eq_true_eq] at k
  refine of_lr (maj := 47) (by omega) (by omega) (by omega) (by omega) (by omega) (by omega) rfl ?_ h
  intro w v hm hg hd ha hb hf
  rw [lane_47 hm]; simp only [lane2F, hg, hd, ha, hb, hf]
theorem rngnBm (g : Guard) (d : Nat) : Statement (.rngnBm g d) := by
  intro h
  have k : (Wf.guard g && Wf.run4 d) = true := h
  simp only [Wf.guard, Wf.run4, Bool.or_eq_true, Bool.and_eq_true, decide_eq_true_eq] at k
  refine of_lr (maj := 47) (by omega) (by omega) (by omega) (by omega) (by omega) (by omega) rfl ?_ h
  intro w v hm hg hd ha hb hf
  rw [lane_47 hm]; simp only [lane2F, hg, hd, ha, hb, hf]
theorem rngnInv (g : Guard) (d : Nat) : Statement (.rngnInv g d) := by
  intro h
  have k : (Wf.guard g && Wf.run4 d) = true := h
  simp only [Wf.guard, Wf.run4, Bool.or_eq_true, Bool.and_eq_true, decide_eq_true_eq] at k
  refine of_lr (maj := 47) (by omega) (by omega) (by omega) (by omega) (by omega) (by omega) rfl ?_ h
  intro w v hm hg hd ha hb hf
  rw [lane_47 hm]; simp only [lane2F, hg, hd, ha, hb, hf]
theorem rngk (g : Guard) (d a b : Nat) : Statement (.rngk g d a b) := by
  intro h
  have k : (Wf.guard g && Wf.srcV d && Wf.regW a && Wf.regW b) = true := h
  simp only [Wf.guard, Wf.srcV, Wf.regW, Bool.or_eq_true, Bool.and_eq_true, decide_eq_true_eq] at k
  refine of_lr (maj := 47) (by omega) (by omega) (by omega) (by omega) (by omega) (by omega) rfl ?_ h
  intro w v hm hg hd ha hb hf
  rw [lane_47 hm]; simp only [lane2F, hg, hd, ha, hb, hf]
theorem resn (g : Guard) (d : Nat) : Statement (.resn g d) := by
  intro h
  have k : (Wf.guard g && Wf.recF d) = true := h
  simp only [Wf.guard, Wf.recF, Bool.and_eq_true, decide_eq_true_eq] at k
  refine of_lr (maj := 48) (by omega) (by omega) (by omega) (by omega) (by omega) (by omega) rfl ?_ h
  intro w v hm hg hd ha hb hf
  rw [lane_48 hm]; simp only [lane30, hg, hd, ha, hb, hf]
theorem resld (g : Guard) (d a : Nat) : Statement (.resld g d a) := by
  intro h
  have k : (Wf.guard g && Wf.recF d && Wf.srcV a) = true := h
  simp only [Wf.guard, Wf.srcV, Wf.recF, Bool.and_eq_true, decide_eq_true_eq] at k
  refine of_lr (maj := 48) (by omega) (by omega) (by omega) (by omega) (by omega) (by omega) rfl ?_ h
  intro w v hm hg hd ha hb hf
  rw [lane_48 hm]; simp only [lane30, hg, hd, ha, hb, hf]
theorem resst (g : Guard) (d a : Nat) : Statement (.resst g d a) := by
  intro h
  have k : (Wf.guard g && Wf.recF d && Wf.srcV a) = true := h
  simp only [Wf.guard, Wf.srcV, Wf.recF, Bool.and_eq_true, decide_eq_true_eq] at k
  refine of_lr (maj := 48) (by omega) (by omega) (by omega) (by omega) (by omega) (by omega) rfl ?_ h
  intro w v hm hg hd ha hb hf
  rw [lane_48 hm]; simp only [lane30, hg, hd, ha, hb, hf]
theorem hitattr (g : Guard) (d n : Nat) : Statement (.hitattr g d n) := by
  intro h
  have k : (Wf.guard g && Wf.dstV d && decide (n < 24)) = true := h
  simp only [Wf.guard, Wf.dstV, Bool.and_eq_true, decide_eq_true_eq] at k
  refine of_lr (maj := 49) (by omega) (by omega) (by omega) (by omega) (by omega) (by omega) rfl ?_ h
  intro w v hm hg hd ha hb hf
  have q : ¬n = 32 := (by omega); rw [lane_49 hm]; simp only [lane31, hg, hd, ha, hb, hf, if_neg q]
theorem hitattrPg (g : Guard) (d b : Nat) : Statement (.hitattrPg g d b) := by
  intro h
  have k : (Wf.guard g && Wf.dstV d && Wf.srcV b) = true := h
  simp only [Wf.guard, Wf.dstV, Wf.srcV, Bool.and_eq_true, decide_eq_true_eq] at k
  refine of_lr (maj := 49) (by omega) (by omega) (by omega) (by omega) (by omega) (by omega) rfl ?_ h
  intro w v hm hg hd ha hb hf
  rw [lane_49 hm]; simp only [lane31, hg, hd, ha, hb, hf, if_true]
theorem accept (g : Guard) (a b : Nat) : Statement (.accept g a b) := by
  intro h
  have k : (Wf.guard g && Wf.srcV a && Wf.regT b) = true := h
  simp only [Wf.guard, Wf.srcV, Wf.regT, Bool.and_eq_true, decide_eq_true_eq] at k
  refine of_lr (maj := 49) (by omega) (by omega) (by omega) (by omega) (by omega) (by omega) rfl ?_ h
  intro w v hm hg hd ha hb hf
  rw [lane_49 hm]; simp only [lane31, hg, hd, ha, hb, hf]
theorem ignore (g : Guard) : Statement (.ignore g) := by
  intro h
  have k : (Wf.guard g) = true := h
  simp only [Wf.guard, decide_eq_true_eq] at k
  refine of_lr (maj := 49) (by omega) (by omega) (by omega) (by omega) (by omega) (by omega) rfl ?_ h
  intro w v hm hg hd ha hb hf
  rw [lane_49 hm]; simp only [lane31, hg, hd, ha, hb, hf]
theorem term (g : Guard) (a b : Nat) : Statement (.term g a b) := by
  intro h
  have k : (Wf.guard g && Wf.srcV a && Wf.regT b) = true := h
  simp only [Wf.guard, Wf.srcV, Wf.regT, Bool.and_eq_true, decide_eq_true_eq] at k
  refine of_lr (maj := 49) (by omega) (by omega) (by omega) (by omega) (by omega) (by omega) rfl ?_ h
  intro w v hm hg hd ha hb hf
  rw [lane_49 hm]; simp only [lane31, hg, hd, ha, hb, hf]
theorem lwalk (g : Guard) (d a b : Nat) : Statement (.lwalk g d a b) := by
  intro h
  have k : (Wf.guard g && Wf.regW d && Wf.regW a && Wf.run3 b) = true := h
  simp only [Wf.guard, Wf.regW, Wf.run3, Bool.or_eq_true, Bool.and_eq_true, decide_eq_true_eq] at k
  refine of_lr (maj := 50) (by omega) (by omega) (by omega) (by omega) (by omega) (by omega) rfl ?_ h
  intro w v hm hg hd ha hb hf
  rw [lane_50 hm]; simp only [lane32, hg, hd, ha, hb, hf]
theorem ldLx (g : Guard) (f d a b : Nat) (m : MemX) : Statement (.ldLx g f d a b m) := by
  intro h
  have k : (Wf.guard g && decide (f < 7) && Wf.ldDst f d && Wf.regW a && Wf.srcV b && Wf.okLoad m) = true := h
  simp only [Bool.and_eq_true] at k
  have b2 := ldDst_lt k.1.1.1.2
  have b5 := okLoad_fits k.2
  simp only [Wf.guard, Wf.srcV, Wf.regW, Bool.or_eq_true, Bool.and_eq_true, decide_eq_true_eq] at k
  obtain ⟨c1, c2, c3, c4, c5, c6⟩ := b5; have b5 : Fits m := ⟨c1, c2, c3, c4, c5, c6⟩
  refine of_lx (maj := 56) (by omega) (by omega) (by omega) (by omega) (by omega) (by omega) (by omega) (by omega) (by omega) (by omega) (by omega) rfl ?_ h
  intro w v hm hg hd ha hb hf hc hs ho hx hi
  have q : memX v = m := memX_eq b5 hc hs ho hx hi; rw [lane_56 hm]; simp only [hg, hd, ha, hb, hf, hc, hs, ho, hx, hi, q]
theorem stLx (g : Guard) (f d a b : Nat) (m : MemX) : Statement (.stLx g f d a b m) := by
  intro h
  have k : (Wf.guard g && decide (f < 5) && Wf.stSrc f d && Wf.regW a && Wf.srcV b && Wf.okStore m) = true := h
  simp only [Bool.and_eq_true] at k
  have b2 := stSrc_lt k.1.1.1.2
  have b5 := okStore_fits k.2
  simp only [Wf.guard, Wf.srcV, Wf.regW, Bool.or_eq_true, Bool.and_eq_true, decide_eq_true_eq] at k
  obtain ⟨c1, c2, c3, c4, c5, c6⟩ := b5; have b5 : Fits m := ⟨c1, c2, c3, c4, c5, c6⟩
  refine of_lx (maj := 57) (by omega) (by omega) (by omega) (by omega) (by omega) (by omega) (by omega) (by omega) (by omega) (by omega) (by omega) rfl ?_ h
  intro w v hm hg hd ha hb hf hc hs ho hx hi
  have q : memX v = m := memX_eq b5 hc hs ho hx hi; rw [lane_57 hm]; simp only [hg, hd, ha, hb, hf, hc, hs, ho, hx, hi, q]
theorem atomAdd (g : Guard) (d a b : Nat) (m : AtomX) : Statement (.atomAdd g d a b m) := by
  intro h
  have k : (Wf.guard g && Wf.okAtom m && Wf.atomTyped 0 m.typ d && Wf.regW a && Wf.srcV b) = true := h
  simp only [Bool.and_eq_true] at k
  have b1 := okAtom_fits k.1.1.1.2
  have b2 := atomTyped_lt k.1.1.2
  simp only [Wf.guard, Wf.srcV, Wf.regW, Bool.or_eq_true, Bool.and_eq_true, decide_eq_true_eq] at k
  obtain ⟨c1, c2, c3, c4, c5, c6⟩ := b1; have b1 : FitsAtom m := ⟨c1, c2, c3, c4, c5, c6⟩
  refine of_lx (maj := 58) (by omega) (by omega) (by omega) (by omega) (by omega) (by omega) (by omega) (by omega) (by omega) (by omega) (by omega) rfl ?_ h
  intro w v hm hg hd ha hb hf hc hs ho hx hi
  have q : atomX v = m := atomX_eq b1 hc hs ho hx hi; rw [lane_58 hm]; simp only [lane3A, hg, hd, ha, hb, hf, hc, hs, ho, hx, hi, q]
theorem atomMin (g : Guard) (d a b : Nat) (m : AtomX) : Statement (.atomMin g d a b m) := by
  intro h
  have k : (Wf.guard g && Wf.okAtom m && Wf.atomTyped 1 m.typ d && Wf.regW a && Wf.srcV b) = true := h
  simp only [Bool.and_eq_true] at k
  have b1 := okAtom_fits k.1.1.1.2
  have b2 := atomTyped_lt k.1.1.2
  simp only [Wf.guard, Wf.srcV, Wf.regW, Bool.or_eq_true, Bool.and_eq_true, decide_eq_true_eq] at k
  obtain ⟨c1, c2, c3, c4, c5, c6⟩ := b1; have b1 : FitsAtom m := ⟨c1, c2, c3, c4, c5, c6⟩
  refine of_lx (maj := 58) (by omega) (by omega) (by omega) (by omega) (by omega) (by omega) (by omega) (by omega) (by omega) (by omega) (by omega) rfl ?_ h
  intro w v hm hg hd ha hb hf hc hs ho hx hi
  have q : atomX v = m := atomX_eq b1 hc hs ho hx hi; rw [lane_58 hm]; simp only [lane3A, hg, hd, ha, hb, hf, hc, hs, ho, hx, hi, q]
theorem atomMax (g : Guard) (d a b : Nat) (m : AtomX) : Statement (.atomMax g d a b m) := by
  intro h
  have k : (Wf.guard g && Wf.okAtom m && Wf.atomTyped 2 m.typ d && Wf.regW a && Wf.srcV b) = true := h
  simp only [Bool.and_eq_true] at k
  have b1 := okAtom_fits k.1.1.1.2
  have b2 := atomTyped_lt k.1.1.2
  simp only [Wf.guard, Wf.srcV, Wf.regW, Bool.or_eq_true, Bool.and_eq_true, decide_eq_true_eq] at k
  obtain ⟨c1, c2, c3, c4, c5, c6⟩ := b1; have b1 : FitsAtom m := ⟨c1, c2, c3, c4, c5, c6⟩
  refine of_lx (maj := 58) (by omega) (by omega) (by omega) (by omega) (by omega) (by omega) (by omega) (by omega) (by omega) (by omega) (by omega) rfl ?_ h
  intro w v hm hg hd ha hb hf hc hs ho hx hi
  have q : atomX v = m := atomX_eq b1 hc hs ho hx hi; rw [lane_58 hm]; simp only [lane3A, hg, hd, ha, hb, hf, hc, hs, ho, hx, hi, q]
theorem atomAnd (g : Guard) (d a b : Nat) (m : AtomX) : Statement (.atomAnd g d a b m) := by
  intro h
  have k : (Wf.guard g && Wf.okAtom m && Wf.atomTyped 3 m.typ d && Wf.regW a && Wf.srcV b) = true := h
  simp only [Bool.and_eq_true] at k
  have b1 := okAtom_fits k.1.1.1.2
  have b2 := atomTyped_lt k.1.1.2
  simp only [Wf.guard, Wf.srcV, Wf.regW, Bool.or_eq_true, Bool.and_eq_true, decide_eq_true_eq] at k
  obtain ⟨c1, c2, c3, c4, c5, c6⟩ := b1; have b1 : FitsAtom m := ⟨c1, c2, c3, c4, c5, c6⟩
  refine of_lx (maj := 58) (by omega) (by omega) (by omega) (by omega) (by omega) (by omega) (by omega) (by omega) (by omega) (by omega) (by omega) rfl ?_ h
  intro w v hm hg hd ha hb hf hc hs ho hx hi
  have q : atomX v = m := atomX_eq b1 hc hs ho hx hi; rw [lane_58 hm]; simp only [lane3A, hg, hd, ha, hb, hf, hc, hs, ho, hx, hi, q]
theorem atomOr (g : Guard) (d a b : Nat) (m : AtomX) : Statement (.atomOr g d a b m) := by
  intro h
  have k : (Wf.guard g && Wf.okAtom m && Wf.atomTyped 4 m.typ d && Wf.regW a && Wf.srcV b) = true := h
  simp only [Bool.and_eq_true] at k
  have b1 := okAtom_fits k.1.1.1.2
  have b2 := atomTyped_lt k.1.1.2
  simp only [Wf.guard, Wf.srcV, Wf.regW, Bool.or_eq_true, Bool.and_eq_true, decide_eq_true_eq] at k
  obtain ⟨c1, c2, c3, c4, c5, c6⟩ := b1; have b1 : FitsAtom m := ⟨c1, c2, c3, c4, c5, c6⟩
  refine of_lx (maj := 58) (by omega) (by omega) (by omega) (by omega) (by omega) (by omega) (by omega) (by omega) (by omega) (by omega) (by omega) rfl ?_ h
  intro w v hm hg hd ha hb hf hc hs ho hx hi
  have q : atomX v = m := atomX_eq b1 hc hs ho hx hi; rw [lane_58 hm]; simp only [lane3A, hg, hd, ha, hb, hf, hc, hs, ho, hx, hi, q]
theorem atomXor (g : Guard) (d a b : Nat) (m : AtomX) : Statement (.atomXor g d a b m) := by
  intro h
  have k : (Wf.guard g && Wf.okAtom m && Wf.atomTyped 5 m.typ d && Wf.regW a && Wf.srcV b) = true := h
  simp only [Bool.and_eq_true] at k
  have b1 := okAtom_fits k.1.1.1.2
  have b2 := atomTyped_lt k.1.1.2
  simp only [Wf.guard, Wf.srcV, Wf.regW, Bool.or_eq_true, Bool.and_eq_true, decide_eq_true_eq] at k
  obtain ⟨c1, c2, c3, c4, c5, c6⟩ := b1; have b1 : FitsAtom m := ⟨c1, c2, c3, c4, c5, c6⟩
  refine of_lx (maj := 58) (by omega) (by omega) (by omega) (by omega) (by omega) (by omega) (by omega) (by omega) (by omega) (by omega) (by omega) rfl ?_ h
  intro w v hm hg hd ha hb hf hc hs ho hx hi
  have q : atomX v = m := atomX_eq b1 hc hs ho hx hi; rw [lane_58 hm]; simp only [lane3A, hg, hd, ha, hb, hf, hc, hs, ho, hx, hi, q]
theorem atomExch (g : Guard) (d a b : Nat) (m : AtomX) : Statement (.atomExch g d a b m) := by
  intro h
  have k : (Wf.guard g && Wf.okAtom m && Wf.atomTyped 6 m.typ d && Wf.regW a && Wf.srcV b) = true := h
  simp only [Bool.and_eq_true] at k
  have b1 := okAtom_fits k.1.1.1.2
  have b2 := atomTyped_lt k.1.1.2
  simp only [Wf.guard, Wf.srcV, Wf.regW, Bool.or_eq_true, Bool.and_eq_true, decide_eq_true_eq] at k
  obtain ⟨c1, c2, c3, c4, c5, c6⟩ := b1; have b1 : FitsAtom m := ⟨c1, c2, c3, c4, c5, c6⟩
  refine of_lx (maj := 58) (by omega) (by omega) (by omega) (by omega) (by omega) (by omega) (by omega) (by omega) (by omega) (by omega) (by omega) rfl ?_ h
  intro w v hm hg hd ha hb hf hc hs ho hx hi
  have q : atomX v = m := atomX_eq b1 hc hs ho hx hi; rw [lane_58 hm]; simp only [lane3A, hg, hd, ha, hb, hf, hc, hs, ho, hx, hi, q]
theorem cas (g : Guard) (d a b : Nat) (m : AtomX) : Statement (.cas g d a b m) := by
  intro h
  have k : (Wf.guard g && Wf.okAtom m && Wf.casTyped m.typ d && Wf.regW a && Wf.srcV b) = true := h
  simp only [Bool.and_eq_true] at k
  have b1 := okAtom_fits k.1.1.1.2
  have b2 := casTyped_lt k.1.1.2
  simp only [Wf.guard, Wf.srcV, Wf.regW, Bool.or_eq_true, Bool.and_eq_true, decide_eq_true_eq] at k
  obtain ⟨c1, c2, c3, c4, c5, c6⟩ := b1; have b1 : FitsAtom m := ⟨c1, c2, c3, c4, c5, c6⟩
  refine of_lx (maj := 58) (by omega) (by omega) (by omega) (by omega) (by omega) (by omega) (by omega) (by omega) (by omega) (by omega) (by omega) rfl ?_ h
  intro w v hm hg hd ha hb hf hc hs ho hx hi
  have q : atomX v = m := atomX_eq b1 hc hs ho hx hi; rw [lane_58 hm]; simp only [lane3A, hg, hd, ha, hb, hf, hc, hs, ho, hx, hi, q]
theorem ldg (g : Guard) (d a b : Nat) (m : MemX) : Statement (.ldg g d a b m) := by
  intro h
  have k : (Wf.guard g && decide (d < 15) && Wf.regW a && Wf.srcV b && Wf.okGather m) = true := h
  simp only [Bool.and_eq_true] at k
  have b4 := okGather_fits k.2
  simp only [Wf.guard, Wf.srcV, Wf.regW, Bool.or_eq_true, Bool.and_eq_true, decide_eq_true_eq] at k
  obtain ⟨⟨c1, c2, c3, c4, c5, c6⟩, z1, z2⟩ := b4; have b4 : Fits m := ⟨c1, c2, c3, c4, c5, c6⟩
  refine of_lx (maj := 59) (by omega) (by omega) (by omega) (by omega) (by omega) (by omega) (by omega) (by omega) (by omega) (by omega) (by omega) rfl ?_ h
  intro w v hm hg hd ha hb hf hc hs ho hx hi
  have q : memX v = m := memX_eq b4 (by omega) hs (by omega) hx hi; rw [lane_59 hm]; simp only [lane3B, hg, hd, ha, hb, hf, hc, hs, ho, hx, hi, q]
theorem stg (g : Guard) (d a b : Nat) (m : MemX) : Statement (.stg g d a b m) := by
  intro h
  have k : (Wf.guard g && decide (d < 15) && Wf.regW a && Wf.srcV b && Wf.okGather m) = true := h
  simp only [Bool.and_eq_true] at k
  have b4 := okGather_fits k.2
  simp only [Wf.guard, Wf.srcV, Wf.regW, Bool.or_eq_true, Bool.and_eq_true, decide_eq_true_eq] at k
  obtain ⟨⟨c1, c2, c3, c4, c5, c6⟩, z1, z2⟩ := b4; have b4 : Fits m := ⟨c1, c2, c3, c4, c5, c6⟩
  refine of_lx (maj := 59) (by omega) (by omega) (by omega) (by omega) (by omega) (by omega) (by omega) (by omega) (by omega) (by omega) (by omega) rfl ?_ h
  intro w v hm hg hd ha hb hf hc hs ho hx hi
  have q : memX v = m := memX_eq b4 (by omega) hs (by omega) hx hi; rw [lane_59 hm]; simp only [lane3B, hg, hd, ha, hb, hf, hc, hs, ho, hx, hi, q]
theorem prefetch (g : Guard) (a b sp imm : Nat) : Statement (.prefetch g a b sp imm) := by
  intro h
  have k : (Wf.guard g && Wf.regW a && Wf.srcV b && (decide (sp = 4) || decide (sp = 5)) && decide (imm < 65536)) = true := h
  simp only [Wf.guard, Wf.srcV, Wf.regW, Bool.or_eq_true, Bool.and_eq_true, decide_eq_true_eq] at k
  refine of_lx (maj := 59) (by omega) (by omega) (by omega) (by omega) (by omega) (by omega) (by omega) (by omega) (by omega) (by omega) (by omega) rfl ?_ h
  intro w v hm hg hd ha hb hf hc hs ho hx hi
  rw [lane_59 hm]; simp only [lane3B, hg, hd, ha, hb, hf, hc, hs, ho, hx, hi]
theorem madB32 (g : Guard) (d a b c : Nat) : Statement (.madB32 g d a b c) := by
  intro h
  have k : (Wf.guard g && Wf.dstV d && Wf.srcV a && Wf.srcV b && Wf.srcV c) = true := h
  simp only [Wf.guard, Wf.dstV, Wf.srcV, Bool.and_eq_true, decide_eq_true_eq] at k
  refine of_lx (maj := 60) (by omega) (by omega) (by omega) (by omega) (by omega) (by omega) (by omega) (by omega) (by omega) (by omega) (by omega) rfl ?_ h
  intro w v hm hg hd ha hb hf hc hs ho hx hi
  rw [lane_60 hm]; simp only [lane3C, hg, hd, ha, hb, hf, hc, hs, ho, hx, hi]
theorem madB64 (g : Guard) (d a b c : Nat) : Statement (.madB64 g d a b c) := by
  intro h
  have k : (Wf.guard g && Wf.regW d && Wf.regW a && Wf.regW b && Wf.regW c) = true := h
  simp only [Wf.guard, Wf.regW, Bool.or_eq_true, Bool.and_eq_true, decide_eq_true_eq] at k
  refine of_lx (maj := 60) (by omega) (by omega) (by omega) (by omega) (by omega) (by omega) (by omega) (by omega) (by omega) (by omega) (by omega) rfl ?_ h
  intro w v hm hg hd ha hb hf hc hs ho hx hi
  rw [lane_60 hm]; simp only [lane3C, hg, hd, ha, hb, hf, hc, hs, ho, hx, hi]
theorem fmaF32 (g : Guard) (d a b c r : Nat) : Statement (.fmaF32 g d a b c r) := by
  intro h
  have k : (Wf.guard g && Wf.dstV d && Wf.srcV a && Wf.srcV b && Wf.srcV c && decide (r < 5)) = true := h
  simp only [Wf.guard, Wf.dstV, Wf.srcV, Bool.and_eq_true, decide_eq_true_eq] at k
  refine of_lx (maj := 60) (by omega) (by omega) (by omega) (by omega) (by omega) (by omega) (by omega) (by omega) (by omega) (by omega) (by omega) rfl ?_ h
  intro w v hm hg hd ha hb hf hc hs ho hx hi
  rw [lane_60 hm]; simp only [lane3C, hg, hd, ha, hb, hf, hc, hs, ho, hx, hi]
theorem fmaF16x2 (g : Guard) (d a b c r : Nat) : Statement (.fmaF16x2 g d a b c r) := by
  intro h
  have k : (Wf.guard g && Wf.dstV d && Wf.srcV a && Wf.srcV b && Wf.srcV c && decide (r < 5)) = true := h
  simp only [Wf.guard, Wf.dstV, Wf.srcV, Bool.and_eq_true, decide_eq_true_eq] at k
  refine of_lx (maj := 60) (by omega) (by omega) (by omega) (by omega) (by omega) (by omega) (by omega) (by omega) (by omega) (by omega) (by omega) rfl ?_ h
  intro w v hm hg hd ha hb hf hc hs ho hx hi
  rw [lane_60 hm]; simp only [lane3C, hg, hd, ha, hb, hf, hc, hs, ho, hx, hi]
theorem bfiB32 (g : Guard) (d a b c : Nat) : Statement (.bfiB32 g d a b c) := by
  intro h
  have k : (Wf.guard g && Wf.dstV d && Wf.srcV a && Wf.srcV b && Wf.srcV c) = true := h
  simp only [Wf.guard, Wf.dstV, Wf.srcV, Bool.and_eq_true, decide_eq_true_eq] at k
  refine of_lx (maj := 60) (by omega) (by omega) (by omega) (by omega) (by omega) (by omega) (by omega) (by omega) (by omega) (by omega) (by omega) rfl ?_ h
  intro w v hm hg hd ha hb hf hc hs ho hx hi
  rw [lane_60 hm]; simp only [lane3C, hg, hd, ha, hb, hf, hc, hs, ho, hx, hi]
theorem selB32 (g : Guard) (d a b p : Nat) : Statement (.selB32 g d a b p) := by
  intro h
  have k : (Wf.guard g && Wf.dstV d && Wf.srcV a && Wf.srcV b && decide (p < 16)) = true := h
  simp only [Wf.guard, Wf.dstV, Wf.srcV, Bool.and_eq_true, decide_eq_true_eq] at k
  refine of_lx (maj := 60) (by omega) (by omega) (by omega) (by omega) (by omega) (by omega) (by omega) (by omega) (by omega) (by omega) (by omega) rfl ?_ h
  intro w v hm hg hd ha hb hf hc hs ho hx hi
  rw [lane_60 hm]; simp only [lane3C, hg, hd, ha, hb, hf, hc, hs, ho, hx, hi]
theorem fclampF32 (g : Guard) (d a b c : Nat) : Statement (.fclampF32 g d a b c) := by
  intro h
  have k : (Wf.guard g && Wf.dstV d && Wf.srcV a && Wf.srcV b && Wf.srcV c) = true := h
  simp only [Wf.guard, Wf.dstV, Wf.srcV, Bool.and_eq_true, decide_eq_true_eq] at k
  refine of_lx (maj := 60) (by omega) (by omega) (by omega) (by omega) (by omega) (by omega) (by omega) (by omega) (by omega) (by omega) (by omega) rfl ?_ h
  intro w v hm hg hd ha hb hf hc hs ho hx hi
  rw [lane_60 hm]; simp only [lane3C, hg, hd, ha, hb, hf, hc, hs, ho, hx, hi]
theorem cvt (g : Guard) (d a st dt r : Nat) : Statement (.cvt g d a st dt r) := by
  intro h
  have k : (Wf.guard g && Wf.cvtDst dt d && Wf.cvtSrc st a && decide (st < 14) && decide (dt < 14) && decide (r < 5)) = true := h
  simp only [Bool.and_eq_true] at k
  have b1 := cvtDst_lt k.1.1.1.1.2
  have b2 := cvtSrc_lt k.1.1.1.2
  simp only [Wf.guard, Bool.and_eq_true, decide_eq_true_eq] at k
  refine of_lx (maj := 61) (by omega) (by omega) (by omega) (by omega) (by omega) (by omega) (by omega) (by omega) (by omega) (by omega) (by omega) rfl ?_ h
  intro w v hm hg hd ha hb hf hc hs ho hx hi
  rw [lane_61 hm]; simp only [lane3D, hg, hd, ha, hb, hf, hc, hs, ho, hx, hi, show (st + 16 * dt) % 16 = st by omega, show (st + 16 * dt) / 16 = dt by omega]
theorem cvtq (g : Guard) (d a c n : Nat) : Statement (.cvtq g d a c n) := by
  intro h
  have k : (Wf.guard g && Wf.regT d && Wf.regA a && Wf.dstV c && decide (n < 8)) = true := h
  simp only [Wf.guard, Wf.dstV, Wf.regT, Wf.regA, Bool.and_eq_true, decide_eq_true_eq] at k
  refine of_lx (maj := 61) (by omega) (by omega) (by omega) (by omega) (by omega) (by omega) (by omega) (by omega) (by omega) (by omega) (by omega) rfl ?_ h
  intro w v hm hg hd ha hb hf hc hs ho hx hi
  rw [lane_61 hm]; simp only [lane3D, hg, hd, ha, hb, hf, hc, hs, ho, hx, hi]
theorem dqv (g : Guard) (d a b n : Nat) : Statement (.dqv g d a b n) := by
  intro h
  have k : (Wf.guard g && Wf.regA d && Wf.regT a && Wf.srcV b && decide (n < 8)) = true := h
  simp only [Wf.guard, Wf.srcV, Wf.regT, Wf.regA, Bool.and_eq_true, decide_eq_true_eq] at k
  refine of_lx (maj := 61) (by omega) (by omega) (by omega) (by omega) (by omega) (by omega) (by omega) (by omega) (by omega) (by omega) (by omega) rfl ?_ h
  intro w v hm hg hd ha hb hf hc hs ho hx hi
  rw [lane_61 hm]; simp only [lane3D, hg, hd, ha, hb, hf, hc, hs, ho, hx, hi]
theorem mxsign (g : Guard) (key a : Nat) : Statement (.mxsign g key a) := by
  intro h
  have k : (Wf.guard g && decide (key < 16) && Wf.regG a) = true := h
  simp only [Wf.guard, Wf.regG, Bool.and_eq_true, decide_eq_true_eq] at k
  refine of_lx (maj := 62) (by omega) (by omega) (by omega) (by omega) (by omega) (by omega) (by omega) (by omega) (by omega) (by omega) (by omega) rfl ?_ h
  intro w v hm hg hd ha hb hf hc hs ho hx hi
  rw [lane_62 hm]; simp only [lane3E, hg, hd, ha, hb, hf, hc, hs, ho, hx, hi, if_neg (by decide : ¬(0 : Nat) = 1)]
theorem mxsignWait (g : Guard) (key a : Nat) : Statement (.mxsignWait g key a) := by
  intro h
  have k : (Wf.guard g && decide (key < 16) && Wf.regG a) = true := h
  simp only [Wf.guard, Wf.regG, Bool.and_eq_true, decide_eq_true_eq] at k
  refine of_lx (maj := 62) (by omega) (by omega) (by omega) (by omega) (by omega) (by omega) (by omega) (by omega) (by omega) (by omega) (by omega) rfl ?_ h
  intro w v hm hg hd ha hb hf hc hs ho hx hi
  rw [lane_62 hm]; simp only [lane3E, hg, hd, ha, hb, hf, hc, hs, ho, hx, hi, if_true]
theorem mxdrain (g : Guard) (m d a b : Nat) : Statement (.mxdrain g m d a b) := by
  intro h
  have k : (Wf.guard g && decide (m < 4) && Wf.regA d && (decide (m ≠ 0) || decide (d % 2 = 0)) && Wf.regA a && decide (a % 2 = 0) && Wf.regW b) = true := h
  simp only [Wf.guard, Wf.regW, Wf.regA, Bool.or_eq_true, Bool.and_eq_true, decide_eq_true_eq] at k
  refine of_lx (maj := 62) (by omega) (by omega) (by omega) (by omega) (by omega) (by omega) (by omega) (by omega) (by omega) (by omega) (by omega) rfl ?_ h
  intro w v hm hg hd ha hb hf hc hs ho hx hi
  rw [lane_62 hm]; simp only [lane3E, hg, hd, ha, hb, hf, hc, hs, ho, hx, hi]
theorem neval (g : Guard) (d a b : Nat) : Statement (.neval g d a b) := by
  intro h
  have k : (Wf.guard g && Wf.regA d && Wf.regA a && Wf.regW b) = true := h
  simp only [Wf.guard, Wf.regW, Wf.regA, Bool.or_eq_true, Bool.and_eq_true, decide_eq_true_eq] at k
  refine of_lx (maj := 62) (by omega) (by omega) (by omega) (by omega) (by omega) (by omega) (by omega) (by omega) (by omega) (by omega) (by omega) rfl ?_ h
  intro w v hm hg hd ha hb hf hc hs ho hx hi
  rw [lane_62 hm]; simp only [lane3E, hg, hd, ha, hb, hf, hc, hs, ho, hx, hi]
theorem ksign (g : Guard) (key : Nat) : Statement (.ksign g key) := by
  intro h
  have k : (Wf.guard g && decide (key < 16)) = true := h
  simp only [Wf.guard, Bool.and_eq_true, decide_eq_true_eq] at k
  refine of_lx (maj := 62) (by omega) (by omega) (by omega) (by omega) (by omega) (by omega) (by omega) (by omega) (by omega) (by omega) (by omega) rfl ?_ h
  intro w v hm hg hd ha hb hf hc hs ho hx hi
  rw [lane_62 hm]; simp only [lane3E, hg, hd, ha, hb, hf, hc, hs, ho, hx, hi, if_true]
theorem ksignWait (g : Guard) (key : Nat) : Statement (.ksignWait g key) := by
  intro h
  have k : (Wf.guard g && decide (key < 16)) = true := h
  simp only [Wf.guard, Bool.and_eq_true, decide_eq_true_eq] at k
  refine of_lx (maj := 62) (by omega) (by omega) (by omega) (by omega) (by omega) (by omega) (by omega) (by omega) (by omega) (by omega) (by omega) rfl ?_ h
  intro w v hm hg hd ha hb hf hc hs ho hx hi
  rw [lane_62 hm]; simp only [lane3E, hg, hd, ha, hb, hf, hc, hs, ho, hx, hi, if_neg (by decide : ¬(1 : Nat) = 0), if_true]
theorem ksignDecl (g : Guard) (key a : Nat) : Statement (.ksignDecl g key a) := by
  intro h
  have k : (Wf.guard g && decide (key < 16) && Wf.srcV a) = true := h
  simp only [Wf.guard, Wf.srcV, Bool.and_eq_true, decide_eq_true_eq] at k
  refine of_lx (maj := 62) (by omega) (by omega) (by omega) (by omega) (by omega) (by omega) (by omega) (by omega) (by omega) (by omega) (by omega) rfl ?_ h
  intro w v hm hg hd ha hb hf hc hs ho hx hi
  rw [lane_62 hm]; simp only [lane3E, hg, hd, ha, hb, hf, hc, hs, ho, hx, hi, if_neg (by decide : ¬(2 : Nat) = 0), if_neg (by decide : ¬(2 : Nat) = 1), if_true]
theorem trace (g : Guard) (fl d a b c : Nat) : Statement (.trace g fl d a b c) := by
  intro h
  have k : (Wf.guard g && decide (fl < 16) && Wf.regT d && Wf.regT a && Wf.regW b && Wf.regW c) = true := h
  simp only [Wf.guard, Wf.regW, Wf.regT, Bool.or_eq_true, Bool.and_eq_true, decide_eq_true_eq] at k
  refine of_lx (maj := 63) (by omega) (by omega) (by omega) (by omega) (by omega) (by omega) (by omega) (by omega) (by omega) (by omega) (by omega) rfl ?_ h
  intro w v hm hg hd ha hb hf hc hs ho hx hi
  rw [lane_63 hm]; simp only [lane3F, hg, hd, ha, hb, hf, hc, hs, ho, hx, hi]
theorem occl (g : Guard) (fl d a b c : Nat) : Statement (.occl g fl d a b c) := by
  intro h
  have k : (Wf.guard g && decide (fl < 16) && Wf.dstV d && Wf.regT a && Wf.regW b && Wf.regW c) = true := h
  simp only [Wf.guard, Wf.dstV, Wf.regW, Wf.regT, Bool.or_eq_true, Bool.and_eq_true, decide_eq_true_eq] at k
  refine of_lx (maj := 63) (by omega) (by omega) (by omega) (by omega) (by omega) (by omega) (by omega) (by omega) (by omega) (by omega) (by omega) rfl ?_ h
  intro w v hm hg hd ha hb hf hc hs ho hx hi
  rw [lane_63 hm]; simp only [lane3F, hg, hd, ha, hb, hf, hc, hs, ho, hx, hi]
theorem march (g : Guard) (d a b : Nat) : Statement (.march g d a b) := by
  intro h
  have k : (Wf.guard g && decide (d < 15) && Wf.regT a && Wf.regW b) = true := h
  simp only [Wf.guard, Wf.regW, Wf.regT, Bool.or_eq_true, Bool.and_eq_true, decide_eq_true_eq] at k
  refine of_lx (maj := 63) (by omega) (by omega) (by omega) (by omega) (by omega) (by omega) (by omega) (by omega) (by omega) (by omega) (by omega) rfl ?_ h
  intro w v hm hg hd ha hb hf hc hs ho hx hi
  rw [lane_63 hm]; simp only [lane3F, hg, hd, ha, hb, hf, hc, hs, ho, hx, hi, if_neg (by decide : ¬(0 : Nat) = 1)]
theorem marchRes (g : Guard) (d a b : Nat) : Statement (.marchRes g d a b) := by
  intro h
  have k : (Wf.guard g && decide (d < 15) && Wf.regT a && Wf.regW b) = true := h
  simp only [Wf.guard, Wf.regW, Wf.regT, Bool.or_eq_true, Bool.and_eq_true, decide_eq_true_eq] at k
  refine of_lx (maj := 63) (by omega) (by omega) (by omega) (by omega) (by omega) (by omega) (by omega) (by omega) (by omega) (by omega) (by omega) rfl ?_ h
  intro w v hm hg hd ha hb hf hc hs ho hx hi
  rw [lane_63 hm]; simp only [lane3F, hg, hd, ha, hb, hf, hc, hs, ho, hx, hi, if_true]
theorem resu (g : Guard) (d a b c : Nat) : Statement (.resu g d a b c) := by
  intro h
  have k : (Wf.guard g && Wf.recF d && Wf.regW a && Wf.regW b && Wf.srcV c) = true := h
  simp only [Wf.guard, Wf.srcV, Wf.regW, Wf.recF, Bool.or_eq_true, Bool.and_eq_true, decide_eq_true_eq] at k
  refine of_lx (maj := 63) (by omega) (by omega) (by omega) (by omega) (by omega) (by omega) (by omega) (by omega) (by omega) (by omega) (by omega) rfl ?_ h
  intro w v hm hg hd ha hb hf hc hs ho hx hi
  rw [lane_63 hm]; simp only [lane3F, hg, hd, ha, hb, hf, hc, hs, ho, hx, hi]
theorem resm (g : Guard) (src d a b c : Nat) : Statement (.resm g src d a b c) := by
  intro h
  have k : (Wf.guard g && decide (src < 4) && Wf.recF d && Wf.recF a && Wf.srcV b && Wf.srcV c) = true := h
  simp only [Wf.guard, Wf.srcV, Wf.recF, Bool.and_eq_true, decide_eq_true_eq] at k
  refine of_lx (maj := 63) (by omega) (by omega) (by omega) (by omega) (by omega) (by omega) (by omega) (by omega) (by omega) (by omega) (by omega) rfl ?_ h
  intro w v hm hg hd ha hb hf hc hs ho hx hi
  rw [lane_63 hm]; simp only [lane3F, hg, hd, ha, hb, hf, hc, hs, ho, hx, hi]
theorem gadd (q d a b : Nat) : Statement (.gadd q d a b) := by
  intro h
  have k : (Wf.regQ q && Wf.regG d && Wf.regG a && Wf.regG b) = true := h
  simp only [Wf.regG, Wf.regQ, Bool.and_eq_true, decide_eq_true_eq] at k
  refine of_gr (maj := 0) (by omega) (by omega) (by omega) (by omega) (by omega) (by omega) rfl ?_ h
  intro w v hm hq hd ha hb hf
  rw [group_0 hm]; simp only [group00, hq, hd, ha, hb, hf]
theorem gsub (q d a b : Nat) : Statement (.gsub q d a b) := by
  intro h
  have k : (Wf.regQ q && Wf.regG d && Wf.regG a && Wf.regG b) = true := h
  simp only [Wf.regG, Wf.regQ, Bool.and_eq_true, decide_eq_true_eq] at k
  refine of_gr (maj := 0) (by omega) (by omega) (by omega) (by omega) (by omega) (by omega) rfl ?_ h
  intro w v hm hq hd ha hb hf
  rw [group_0 hm]; simp only [group00, hq, hd, ha, hb, hf]
theorem gmul (q d a b : Nat) : Statement (.gmul q d a b) := by
  intro h
  have k : (Wf.regQ q && Wf.regG d && Wf.regG a && Wf.regG b) = true := h
  simp only [Wf.regG, Wf.regQ, Bool.and_eq_true, decide_eq_true_eq] at k
  refine of_gr (maj := 0) (by omega) (by omega) (by omega) (by omega) (by omega) (by omega) rfl ?_ h
  intro w v hm hq hd ha hb hf
  rw [group_0 hm]; simp only [group00, hq, hd, ha, hb, hf]
theorem gand (q d a b : Nat) : Statement (.gand q d a b) := by
  intro h
  have k : (Wf.regQ q && Wf.regG d && Wf.regG a && Wf.regG b) = true := h
  simp only [Wf.regG, Wf.regQ, Bool.and_eq_true, decide_eq_true_eq] at k
  refine of_gr (maj := 0) (by omega) (by omega) (by omega) (by omega) (by omega) (by omega) rfl ?_ h
  intro w v hm hq hd ha hb hf
  rw [group_0 hm]; simp only [group00, hq, hd, ha, hb, hf]
theorem gor (q d a b : Nat) : Statement (.gor q d a b) := by
  intro h
  have k : (Wf.regQ q && Wf.regG d && Wf.regG a && Wf.regG b) = true := h
  simp only [Wf.regG, Wf.regQ, Bool.and_eq_true, decide_eq_true_eq] at k
  refine of_gr (maj := 0) (by omega) (by omega) (by omega) (by omega) (by omega) (by omega) rfl ?_ h
  intro w v hm hq hd ha hb hf
  rw [group_0 hm]; simp only [group00, hq, hd, ha, hb, hf]
theorem gxor (q d a b : Nat) : Statement (.gxor q d a b) := by
  intro h
  have k : (Wf.regQ q && Wf.regG d && Wf.regG a && Wf.regG b) = true := h
  simp only [Wf.regG, Wf.regQ, Bool.and_eq_true, decide_eq_true_eq] at k
  refine of_gr (maj := 0) (by omega) (by omega) (by omega) (by omega) (by omega) (by omega) rfl ?_ h
  intro w v hm hq hd ha hb hf
  rw [group_0 hm]; simp only [group00, hq, hd, ha, hb, hf]
theorem gshl (q d a b : Nat) : Statement (.gshl q d a b) := by
  intro h
  have k : (Wf.regQ q && Wf.regG d && Wf.regG a && Wf.regG b) = true := h
  simp only [Wf.regG, Wf.regQ, Bool.and_eq_true, decide_eq_true_eq] at k
  refine of_gr (maj := 0) (by omega) (by omega) (by omega) (by omega) (by omega) (by omega) rfl ?_ h
  intro w v hm hq hd ha hb hf
  rw [group_0 hm]; simp only [group00, hq, hd, ha, hb, hf]
theorem gshr (q d a b : Nat) : Statement (.gshr q d a b) := by
  intro h
  have k : (Wf.regQ q && Wf.regG d && Wf.regG a && Wf.regG b) = true := h
  simp only [Wf.regG, Wf.regQ, Bool.and_eq_true, decide_eq_true_eq] at k
  refine of_gr (maj := 0) (by omega) (by omega) (by omega) (by omega) (by omega) (by omega) rfl ?_ h
  intro w v hm hq hd ha hb hf
  rw [group_0 hm]; simp only [group00, hq, hd, ha, hb, hf]
theorem gmov (q d a : Nat) : Statement (.gmov q d a) := by
  intro h
  have k : (Wf.regQ q && Wf.regG d && Wf.regG a) = true := h
  simp only [Wf.regG, Wf.regQ, Bool.and_eq_true, decide_eq_true_eq] at k
  refine of_gr (maj := 0) (by omega) (by omega) (by omega) (by omega) (by omega) (by omega) rfl ?_ h
  intro w v hm hq hd ha hb hf
  rw [group_0 hm]; simp only [group00, hq, hd, ha, hb, hf]
theorem gcmp (q c d a b : Nat) : Statement (.gcmp q c d a b) := by
  intro h
  have k : (Wf.regQ q && decide (c < 10) && Wf.regQ d && Wf.regG a && Wf.regG b) = true := h
  simp only [Wf.regG, Wf.regQ, Bool.and_eq_true, decide_eq_true_eq] at k
  refine of_gr (maj := 1) (by omega) (by omega) (by omega) (by omega) (by omega) (by omega) rfl ?_ h
  intro w v hm hq hd ha hb hf
  rw [group_1 hm]; simp only [hq, hd, ha, hb, hf]
theorem gmovImm (q d imm : Nat) : Statement (.gmovImm q d imm) := by
  intro h
  have k : (Wf.regQ q && Wf.regG d && decide (imm < 65536)) = true := h
  simp only [Wf.regG, Wf.regQ, Bool.and_eq_true, decide_eq_true_eq] at k
  refine of_gi (maj := 2) (by omega) (by omega) (by omega) (by omega) rfl ?_ h
  intro w v hm hq hd hi
  rw [group_2 hm]; simp only [hq, hd, hi]
theorem gaddImm (q d imm : Nat) : Statement (.gaddImm q d imm) := by
  intro h
  have k : (Wf.regQ q && Wf.regG d && decide (imm < 65536)) = true := h
  simp only [Wf.regG, Wf.regQ, Bool.and_eq_true, decide_eq_true_eq] at k
  refine of_gi (maj := 3) (by omega) (by omega) (by omega) (by omega) rfl ?_ h
  intro w v hm hq hd hi
  rw [group_3 hm]; simp only [hq, hd, hi]
theorem gorImm (q d imm : Nat) : Statement (.gorImm q d imm) := by
  intro h
  have k : (Wf.regQ q && Wf.regG d && decide (imm < 65536)) = true := h
  simp only [Wf.regG, Wf.regQ, Bool.and_eq_true, decide_eq_true_eq] at k
  refine of_gi (maj := 4) (by omega) (by omega) (by omega) (by omega) rfl ?_ h
  intro w v hm hq hd hi
  rw [group_4 hm]; simp only [hq, hd, hi]
theorem gshlImm (q d imm : Nat) : Statement (.gshlImm q d imm) := by
  intro h
  have k : (Wf.regQ q && Wf.regG d && decide (imm < 64)) = true := h
  simp only [Wf.regG, Wf.regQ, Bool.and_eq_true, decide_eq_true_eq] at k
  refine of_gi (maj := 5) (by omega) (by omega) (by omega) (by omega) rfl ?_ h
  intro w v hm hq hd hi
  rw [group_5 hm]; simp only [hq, hd, hi]
theorem gld (q d a off : Nat) : Statement (.gld q d a off) := by
  intro h
  have k : (Wf.regQ q && Wf.regG d && Wf.regG a && decide (off < 64)) = true := h
  simp only [Wf.regG, Wf.regQ, Bool.and_eq_true, decide_eq_true_eq] at k
  refine of_gr (maj := 6) (by omega) (by omega) (by omega) (by omega) (by omega) (by omega) rfl ?_ h
  intro w v hm hq hd ha hb hf
  rw [group_6 hm]; simp only [group06, hq, hd, ha, hb, hf]
theorem gst (q d a off : Nat) : Statement (.gst q d a off) := by
  intro h
  have k : (Wf.regQ q && Wf.regG d && Wf.regG a && decide (off < 64)) = true := h
  simp only [Wf.regG, Wf.regQ, Bool.and_eq_true, decide_eq_true_eq] at k
  refine of_gr (maj := 6) (by omega) (by omega) (by omega) (by omega) (by omega) (by omega) rfl ?_ h
  intro w v hm hq hd ha hb hf
  rw [group_6 hm]; simp only [group06, hq, hd, ha, hb, hf]
theorem gbc (q d a : Nat) : Statement (.gbc q d a) := by
  intro h
  have k : (Wf.regQ q && decide (d < 2) && Wf.regG a) = true := h
  simp only [Wf.regG, Wf.regQ, Bool.and_eq_true, decide_eq_true_eq] at k
  refine of_gr (maj := 6) (by omega) (by omega) (by omega) (by omega) (by omega) (by omega) rfl ?_ h
  intro w v hm hq hd ha hb hf
  rw [group_6 hm]; simp only [group06, hq, hd, ha, hb, hf]
theorem br (q cond off : Nat) : Statement (.br q cond off) := by
  intro h
  have k : (Wf.regQ q && decide (cond < 4) && decide (off < 524288)) = true := h
  simp only [Wf.regQ, Bool.and_eq_true, decide_eq_true_eq] at k
  refine of_gj (maj := 8) (by omega) (by omega) (by omega) (by omega) rfl ?_ h
  intro w v hm hq hc ho
  rw [group_8 hm]; simp only [hq, hc, ho]
theorem jmp (off : Nat) : Statement (.jmp off) := by
  intro h
  have k : (decide (off < 524288)) = true := h
  simp only [decide_eq_true_eq] at k
  refine of_gj (maj := 9) (by omega) (by omega) (by omega) (by omega) rfl ?_ h
  intro w v hm hq hc ho
  rw [group_9 hm]; simp only [hq, hc, ho]
theorem call (q cond off : Nat) : Statement (.call q cond off) := by
  intro h
  have k : (Wf.regQ q && decide (cond < 2) && decide (off < 524288)) = true := h
  simp only [Wf.regQ, Bool.and_eq_true, decide_eq_true_eq] at k
  refine of_gj (maj := 10) (by omega) (by omega) (by omega) (by omega) rfl ?_ h
  intro w v hm hq hc ho
  rw [group_10 hm]; simp only [hq, hc, ho]
theorem ret (q a : Nat) : Statement (.ret q a) := by
  intro h
  have k : (Wf.regQ q && Wf.regG a) = true := h
  simp only [Wf.regG, Wf.regQ, Bool.and_eq_true, decide_eq_true_eq] at k
  refine of_gr (maj := 11) (by omega) (by omega) (by omega) (by omega) (by omega) (by omega) rfl ?_ h
  intro w v hm hq hd ha hb hf
  rw [group_11 hm]; simp only [group0B, hq, hd, ha, hb, hf]
theorem rcvSet (q n : Nat) : Statement (.rcvSet q n) := by
  intro h
  have k : (Wf.regQ q && decide (n < 16)) = true := h
  simp only [Wf.regQ, Bool.and_eq_true, decide_eq_true_eq] at k
  refine of_gr (maj := 12) (by omega) (by omega) (by omega) (by omega) (by omega) (by omega) rfl ?_ h
  intro w v hm hq hd ha hb hf
  rw [group_12 hm]; simp only [group0C, hq, hd, ha, hb, hf]
theorem rcvJoin (q n : Nat) : Statement (.rcvJoin q n) := by
  intro h
  have k : (Wf.regQ q && decide (n < 16)) = true := h
  simp only [Wf.regQ, Bool.and_eq_true, decide_eq_true_eq] at k
  refine of_gr (maj := 12) (by omega) (by omega) (by omega) (by omega) (by omega) (by omega) rfl ?_ h
  intro w v hm hq hd ha hb hf
  rw [group_12 hm]; simp only [group0C, hq, hd, ha, hb, hf]
theorem loop (q d len : Nat) : Statement (.loop q d len) := by
  intro h
  have k : (Wf.regQ q && Wf.regG d && decide (0 < len) && decide (len ≤ 256)) = true := h
  simp only [Wf.regG, Wf.regQ, Bool.and_eq_true, decide_eq_true_eq] at k
  refine of_gi (maj := 13) (by omega) (by omega) (by omega) (by omega) rfl ?_ h
  intro w v hm hq hd hi
  rw [group_13 hm]; simp only [hq, hd, hi]
theorem endloop (q : Nat) : Statement (.endloop q) := by
  intro h
  have k : (Wf.regQ q) = true := h
  simp only [Wf.regQ, decide_eq_true_eq] at k
  refine of_gr (maj := 14) (by omega) (by omega) (by omega) (by omega) (by omega) (by omega) rfl ?_ h
  intro w v hm hq hd ha hb hf
  rw [group_14 hm]; simp only [group0E, hq, hd, ha, hb, hf]
theorem yield (q : Nat) : Statement (.yield q) := by
  intro h
  have k : (Wf.regQ q) = true := h
  simp only [Wf.regQ, decide_eq_true_eq] at k
  refine of_gr (maj := 14) (by omega) (by omega) (by omega) (by omega) (by omega) (by omega) rfl ?_ h
  intro w v hm hq hd ha hb hf
  rw [group_14 hm]; simp only [group0E, hq, hd, ha, hb, hf]
theorem exit (q : Nat) : Statement (.exit q) := by
  intro h
  have k : (Wf.regQ q) = true := h
  simp only [Wf.regQ, decide_eq_true_eq] at k
  refine of_gr (maj := 14) (by omega) (by omega) (by omega) (by omega) (by omega) (by omega) rfl ?_ h
  intro w v hm hq hd ha hb hf
  rw [group_14 hm]; simp only [group0E, hq, hd, ha, hb, hf]
theorem segw (q a : Nat) : Statement (.segw q a) := by
  intro h
  have k : (Wf.regQ q && Wf.regG a) = true := h
  simp only [Wf.regG, Wf.regQ, Bool.and_eq_true, decide_eq_true_eq] at k
  refine of_gr (maj := 15) (by omega) (by omega) (by omega) (by omega) (by omega) (by omega) rfl ?_ h
  intro w v hm hq hd ha hb hf
  rw [group_15 hm]; simp only [group0F, hq, hd, ha, hb, hf]
theorem view (q a : Nat) : Statement (.view q a) := by
  intro h
  have k : (Wf.regQ q && Wf.regG a) = true := h
  simp only [Wf.regG, Wf.regQ, Bool.and_eq_true, decide_eq_true_eq] at k
  refine of_gr (maj := 15) (by omega) (by omega) (by omega) (by omega) (by omega) (by omega) rfl ?_ h
  intro w v hm hq hd ha hb hf
  rw [group_15 hm]; simp only [group0F, hq, hd, ha, hb, hf]
theorem grow (q n : Nat) : Statement (.grow q n) := by
  intro h
  have k : (Wf.regQ q && decide (0 < n) && decide (n < 8)) = true := h
  simp only [Wf.regQ, Bool.and_eq_true, decide_eq_true_eq] at k
  refine of_gr (maj := 15) (by omega) (by omega) (by omega) (by omega) (by omega) (by omega) rfl ?_ h
  intro w v hm hq hd ha hb hf
  rw [group_15 hm]; simp only [group0F, hq, hd, ha, hb, hf]
theorem shrink (q n : Nat) : Statement (.shrink q n) := by
  intro h
  have k : (Wf.regQ q && decide (0 < n) && decide (n < 8)) = true := h
  simp only [Wf.regQ, Bool.and_eq_true, decide_eq_true_eq] at k
  refine of_gr (maj := 15) (by omega) (by omega) (by omega) (by omega) (by omega) (by omega) rfl ?_ h
  intro w v hm hq hd ha hb hf
  rw [group_15 hm]; simp only [group0F, hq, hd, ha, hb, hf]
theorem wait (all : Bool) (ld st cp mx : Nat) : Statement (.wait all ld st cp mx) := by
  intro h
  have k : (decide (ld < 64) && decide (st < 64) && decide (cp < 64) && decide (mx < 64)) = true := h
  simp only [Bool.and_eq_true, decide_eq_true_eq] at k
  obtain ⟨h0, h1, h2, h3, h4, h5, h6, h7⟩ := gw_fields (all := all) (ld := ld) (st := st) (cp := cp) (mx := mx) (by omega) (by omega) (by omega) (by omega)
  refine statement_of rfl h0 (by simp) h2 (fun _ => rfl) ?_ h
  simp only [decodeRaw, h1, if_neg (by decide : ¬(1 : Nat) = 0)]; rw [group_16 h2]; simp only [h3, h4, h5, h6, h7]
theorem xfence (q p1 p2 sc : Nat) : Statement (.xfence q p1 p2 sc) := by
  intro h
  have k : (Wf.regQ q && decide (p1 < 8) && decide (p2 < 8) && decide (sc < 10)) = true := h
  simp only [Wf.regQ, Bool.and_eq_true, decide_eq_true_eq] at k
  refine of_gr (maj := 17) (by omega) (by omega) (by omega) (by omega) (by omega) (by omega) rfl ?_ h
  intro w v hm hq hd ha hb hf
  rw [group_17 hm]; simp only [group11, hq, hd, ha, hb, hf, show (8 * p1 + p2) / 8 = p1 by omega, show (8 * p1 + p2) % 8 = p2 by omega]
theorem barTeam (q : Nat) : Statement (.barTeam q) := by
  intro h
  have k : (Wf.regQ q) = true := h
  simp only [Wf.regQ, decide_eq_true_eq] at k
  refine of_gr (maj := 17) (by omega) (by omega) (by omega) (by omega) (by omega) (by omega) rfl ?_ h
  intro w v hm hq hd ha hb hf
  rw [group_17 hm]; simp only [group11, hq, hd, ha, hb, hf]
theorem barCl (q : Nat) : Statement (.barCl q) := by
  intro h
  have k : (Wf.regQ q) = true := h
  simp only [Wf.regQ, decide_eq_true_eq] at k
  refine of_gr (maj := 17) (by omega) (by omega) (by omega) (by omega) (by omega) (by omega) rfl ?_ h
  intro w v hm hq hd ha hb hf
  rw [group_17 hm]; simp only [group11, hq, hd, ha, hb, hf]
theorem tdec (q sc a b : Nat) : Statement (.tdec q sc a b) := by
  intro h
  have k : (Wf.regQ q && decide (sc < 10) && Wf.regG a && Wf.regG b) = true := h
  simp only [Wf.regG, Wf.regQ, Bool.and_eq_true, decide_eq_true_eq] at k
  refine of_gr (maj := 18) (by omega) (by omega) (by omega) (by omega) (by omega) (by omega) rfl ?_ h
  intro w v hm hq hd ha hb hf
  rw [group_18 hm]; simp only [group12, hq, hd, ha, hb, hf]
theorem twait (q sc a b : Nat) : Statement (.twait q sc a b) := by
  intro h
  have k : (Wf.regQ q && decide (sc < 10) && Wf.regG a && Wf.regG b) = true := h
  simp only [Wf.regG, Wf.regQ, Bool.and_eq_true, decide_eq_true_eq] at k
  refine of_gr (maj := 18) (by omega) (by omega) (by omega) (by omega) (by omega) (by omega) rfl ?_ h
  intro w v hm hq hd ha hb hf
  rw [group_18 hm]; simp only [group12, hq, hd, ha, hb, hf]
theorem wtime (q a : Nat) : Statement (.wtime q a) := by
  intro h
  have k : (Wf.regQ q && Wf.regG a) = true := h
  simp only [Wf.regG, Wf.regQ, Bool.and_eq_true, decide_eq_true_eq] at k
  refine of_gr (maj := 19) (by omega) (by omega) (by omega) (by omega) (by omega) (by omega) rfl ?_ h
  intro w v hm hq hd ha hb hf
  rw [group_19 hm]; simp only [group13, hq, hd, ha, hb, hf]
theorem rtime (q d : Nat) : Statement (.rtime q d) := by
  intro h
  have k : (Wf.regQ q && Wf.regG d) = true := h
  simp only [Wf.regG, Wf.regQ, Bool.and_eq_true, decide_eq_true_eq] at k
  refine of_gr (maj := 19) (by omega) (by omega) (by omega) (by omega) (by omega) (by omega) rfl ?_ h
  intro w v hm hq hd ha hb hf
  rw [group_19 hm]; simp only [group13, hq, hd, ha, hb, hf]
theorem csrr (q r csr : Nat) : Statement (.csrr q r csr) := by
  intro h
  have k : (Wf.regQ q && Wf.regG r && Wf.csrListed csr) = true := h
  simp only [Bool.and_eq_true] at k
  have b2 := csrListed_lt k.2
  simp only [Wf.regG, Wf.regQ, Bool.and_eq_true, decide_eq_true_eq] at k
  refine of_gs (maj := 20) (by omega) (by omega) (by omega) (by omega) (by omega) rfl ?_ h
  intro w v hm hq hd hi hf
  rw [group_20 hm]; simp only [group14, hq, hd, hi, hf]
theorem csrw (q r csr : Nat) : Statement (.csrw q r csr) := by
  intro h
  have k : (Wf.regQ q && Wf.regG r && Wf.csrListed csr) = true := h
  simp only [Bool.and_eq_true] at k
  have b2 := csrListed_lt k.2
  simp only [Wf.regG, Wf.regQ, Bool.and_eq_true, decide_eq_true_eq] at k
  refine of_gs (maj := 20) (by omega) (by omega) (by omega) (by omega) (by omega) rfl ?_ h
  intro w v hm hq hd hi hf
  rw [group_20 hm]; simp only [group14, hq, hd, hi, hf]
theorem trap (q code : Nat) : Statement (.trap q code) := by
  intro h
  have k : (Wf.regQ q && decide (code < 4096)) = true := h
  simp only [Wf.regQ, Bool.and_eq_true, decide_eq_true_eq] at k
  refine of_gs (maj := 20) (by omega) (by omega) (by omega) (by omega) (by omega) rfl ?_ h
  intro w v hm hq hd hi hf
  rw [group_20 hm]; simp only [group14, hq, hd, hi, hf]
theorem tret (q : Nat) : Statement (.tret q) := by
  intro h
  have k : (Wf.regQ q) = true := h
  simp only [Wf.regQ, decide_eq_true_eq] at k
  refine of_gs (maj := 20) (by omega) (by omega) (by omega) (by omega) (by omega) rfl ?_ h
  intro w v hm hq hd hi hf
  rw [group_20 hm]; simp only [group14, hq, hd, hi, hf]
theorem tmask (q : Nat) : Statement (.tmask q) := by
  intro h
  have k : (Wf.regQ q) = true := h
  simp only [Wf.regQ, decide_eq_true_eq] at k
  refine of_gs (maj := 20) (by omega) (by omega) (by omega) (by omega) (by omega) rfl ?_ h
  intro w v hm hq hd hi hf
  rw [group_20 hm]; simp only [group14, hq, hd, hi, hf]
theorem tunmask (q : Nat) : Statement (.tunmask q) := by
  intro h
  have k : (Wf.regQ q) = true := h
  simp only [Wf.regQ, decide_eq_true_eq] at k
  refine of_gs (maj := 20) (by omega) (by omega) (by omega) (by omega) (by omega) rfl ?_ h
  intro w v hm hq hd hi hf
  rw [group_20 hm]; simp only [group14, hq, hd, hi, hf]
theorem brk (q : Nat) : Statement (.brk q) := by
  intro h
  have k : (Wf.regQ q) = true := h
  simp only [Wf.regQ, decide_eq_true_eq] at k
  refine of_gs (maj := 20) (by omega) (by omega) (by omega) (by omega) (by omega) rfl ?_ h
  intro w v hm hq hd hi hf
  rw [group_20 hm]; simp only [group14, hq, hd, hi, hf]
theorem launch (q x y irq tag : Nat) : Statement (.launch q x y irq tag) := by
  intro h
  have k : (Wf.regQ q && Wf.regG x && Wf.regG y && decide (irq < 2) && decide (tag < 4294967296)) = true := h
  simp only [Wf.regG, Wf.regQ, Bool.and_eq_true, decide_eq_true_eq] at k
  refine of_ge (maj := 56) (by omega) (by omega) (by omega) (by omega) (by omega) (by omega) rfl ?_ h
  intro w hm hq hd ha ho
  rw [group_56 hm]; simp only [hq, hd, ha, ho]
theorem copyBlockCmd (q x : Nat) : Statement (.copyBlockCmd q x) := by
  intro h
  have k : (Wf.regQ q && Wf.regG x) = true := h
  simp only [Wf.regG, Wf.regQ, Bool.and_eq_true, decide_eq_true_eq] at k
  refine of_ge (maj := 57) (by omega) (by omega) (by omega) (by omega) (by omega) (by omega) rfl ?_ h
  intro w hm hq hd ha ho
  rw [group_57 hm]; simp only [copyForm, hq, hd, ha, ho, if_true]
theorem copyDirect (q x y n : Nat) : Statement (.copyDirect q x y n) := by
  intro h
  have k : (Wf.regQ q && Wf.regG x && Wf.regG y && decide (0 < n) && decide (n < 4294967296)) = true := h
  simp only [Wf.regG, Wf.regQ, Bool.and_eq_true, decide_eq_true_eq] at k
  refine of_ge (maj := 57) (by omega) (by omega) (by omega) (by omega) (by omega) (by omega) rfl ?_ h
  intro w hm hq hd ha ho
  rw [group_57 hm]; simp only [copyForm, hq, hd, ha, ho, if_neg (by decide : ¬(1 : Nat) = 0), if_true]
theorem coll (q x : Nat) : Statement (.coll q x) := by
  intro h
  have k : (Wf.regQ q && Wf.regG x) = true := h
  simp only [Wf.regG, Wf.regQ, Bool.and_eq_true, decide_eq_true_eq] at k
  refine of_ge (maj := 58) (by omega) (by omega) (by omega) (by omega) (by omega) (by omega) rfl ?_ h
  intro w hm hq hd ha ho
  rw [group_58 hm]; simp only [hq, hd, ha, ho]
theorem strn (q x : Nat) : Statement (.strn q x) := by
  intro h
  have k : (Wf.regQ q && Wf.regG x) = true := h
  simp only [Wf.regG, Wf.regQ, Bool.and_eq_true, decide_eq_true_eq] at k
  refine of_ge (maj := 59) (by omega) (by omega) (by omega) (by omega) (by omega) (by omega) rfl ?_ h
  intro w hm hq hd ha ho
  rw [group_59 hm]; simp only [hq, hd, ha, ho]
theorem chain (q x : Nat) : Statement (.chain q x) := by
  intro h
  have k : (Wf.regQ q && Wf.regG x) = true := h
  simp only [Wf.regG, Wf.regQ, Bool.and_eq_true, decide_eq_true_eq] at k
  refine of_ge (maj := 60) (by omega) (by omega) (by omega) (by omega) (by omega) (by omega) rfl ?_ h
  intro w hm hq hd ha ho
  rw [group_60 hm]; simp only [hq, hd, ha, ho]
theorem hingeReadRequest (id : Nat) : Statement (.hingeReadRequest id) := of_none rfl
theorem hingeReadData (id : Nat) : Statement (.hingeReadData id) := of_none rfl
theorem hingeWrite (id : Nat) : Statement (.hingeWrite id) := of_none rfl
theorem hingeWriteAcknowledge (id : Nat) : Statement (.hingeWriteAcknowledge id) := of_none rfl
theorem hingeAtomic (id : Nat) : Statement (.hingeAtomic id) := of_none rfl
theorem hingeAtomicResult (id : Nat) : Statement (.hingeAtomicResult id) := of_none rfl
theorem hingeHaloWrite (id : Nat) : Statement (.hingeHaloWrite id) := of_none rfl
theorem hingeTimeSideband (id : Nat) : Statement (.hingeTimeSideband id) := of_none rfl
theorem stampedMessageApply (id : Nat) : Statement (.stampedMessageApply id) := of_none rfl
theorem hingeLaneRepair (n lanes : Nat) : Statement (.hingeLaneRepair n lanes) := of_none rfl
theorem hingeModuleRetire (n : Nat) : Statement (.hingeModuleRetire n) := of_none rfl
theorem hngCrcerrClear (n : Nat) : Statement (.hngCrcerrClear n) := of_none rfl
theorem scaleupPortRetrain (port : Nat) : Statement (.scaleupPortRetrain port) := of_none rfl
theorem scaleupPortDown (port : Nat) : Statement (.scaleupPortDown port) := of_none rfl
theorem domainRequestArrival (r : DomainRequest) : Statement (.domainRequestArrival r) := of_none rfl
theorem cxlPortTrained (port cap : Nat) : Statement (.cxlPortTrained port cap) := of_none rfl
theorem cxlPortDown (port : Nat) : Statement (.cxlPortDown port) := of_none rfl
theorem hostLinkTrained (width rate : Nat) : Statement (.hostLinkTrained width rate) := of_none rfl
theorem hostLinkDown : Statement (.hostLinkDown) := of_none rfl
theorem hostMemAccess (write : Bool) (addr len data : Nat) : Statement (.hostMemAccess write addr len data) := of_none rfl
theorem pkgScreenWrite (p v : Nat) : Statement (.pkgScreenWrite p v) := of_none rfl
theorem resGeomWrite (p v : Nat) : Statement (.resGeomWrite p v) := of_none rfl
theorem deviceTimeTick : Statement (.deviceTimeTick) := of_none rfl
theorem timAdjWrite (v : Nat) : Statement (.timAdjWrite v) := of_none rfl
theorem timStepWrite (v : Nat) : Statement (.timStepWrite v) := of_none rfl
theorem ppsEdge : Statement (.ppsEdge) := of_none rfl
theorem ptpMessage (kind seq remote : Nat) : Statement (.ptpMessage kind seq remote) := of_none rfl
theorem sensorRefresh (samples : List SensorSample) : Statement (.sensorRefresh samples) := of_none rfl
theorem clockStep : Statement (.clockStep) := of_none rfl
theorem pkgPwrcapWrite (v : Nat) : Statement (.pkgPwrcapWrite v) := of_none rfl
theorem caddyLockstepMismatch : Statement (.caddyLockstepMismatch) := of_none rfl
theorem logFlush : Statement (.logFlush) := of_none rfl
theorem logRead (seq : Nat) : Statement (.logRead seq) := of_none rfl
theorem attestRequest (nonce : Nat) : Statement (.attestRequest nonce) := of_none rfl
theorem attestReport : Statement (.attestReport) := of_none rfl
theorem firmwareUpdate (u : UpdateRequest) : Statement (.firmwareUpdate u) := of_none rfl
theorem moduleReset : Statement (.moduleReset) := of_none rfl
theorem bringupStepComplete (r : BringupResult) : Statement (.bringupStepComplete r) := of_none rfl
theorem scrubPeriod (die : Nat) (r : ErrorReport) : Statement (.scrubPeriod die r) := of_none rfl
theorem coreRetire (core : Nat) : Statement (.coreRetire core) := of_none rfl
theorem l2SliceRetire (die slice : Nat) : Statement (.l2SliceRetire die slice) := of_none rfl
theorem partitionCreate (p : Nat) : Statement (.partitionCreate p) := of_none rfl
theorem partitionResize (p : Nat) : Statement (.partitionResize p) := of_none rfl
theorem partitionReset (p : Nat) (scrub : Bool) : Statement (.partitionReset p scrub) := of_none rfl
theorem partitionDestroy (p : Nat) (scrub : Bool) : Statement (.partitionDestroy p scrub) := of_none rfl
theorem partitionCmdBadOp (p : Nat) : Statement (.partitionCmdBadOp p) := of_none rfl
theorem partitionApplyComplete (p : Nat) : Statement (.partitionApplyComplete p) := of_none rfl
theorem partitionResetComplete (p : Nat) : Statement (.partitionResetComplete p) := of_none rfl
theorem partitionFlr (p : Nat) : Statement (.partitionFlr p) := of_none rfl
theorem pfFlr : Statement (.pfFlr) := of_none rfl
theorem pfivmapWrite (n v : Nat) : Statement (.pfivmapWrite n v) := of_none rfl
theorem fbheadWrite (p v : Nat) : Statement (.fbheadWrite p v) := of_none rfl
theorem fltreplayAll (p : Nat) : Statement (.fltreplayAll p) := of_none rfl
theorem fltreplayToken (p token : Nat) : Statement (.fltreplayToken p token) := of_none rfl
theorem fltreplayUnrecoverable (p token : Nat) : Statement (.fltreplayUnrecoverable p token) := of_none rfl
theorem tlbinvAll (p : Nat) : Statement (.tlbinvAll p) := of_none rfl
theorem tlbinvPage (p va : Nat) : Statement (.tlbinvPage p va) := of_none rfl
theorem tlbinvComplete (p : Nat) : Statement (.tlbinvComplete p) := of_none rfl
theorem odrHeadWrite (p v : Nat) : Statement (.odrHeadWrite p v) := of_none rfl
theorem rfHeadWrite (p v : Nat) : Statement (.rfHeadWrite p v) := of_none rfl
theorem schAreaWrite (p area v : Nat) : Statement (.schAreaWrite p area v) := of_none rfl
theorem memRfareaWrite (p v : Nat) : Statement (.memRfareaWrite p v) := of_none rfl
theorem schPreemptWrite (p v : Nat) : Statement (.schPreemptWrite p v) := of_none rfl
theorem registerWrite (fn : RegFn) (off width : Nat) (v : Option Nat) : Statement (.registerWrite fn off width v) := of_none rfl
theorem doorbell (p st v : Nat) : Statement (.doorbell p st v) := of_none rfl
theorem tailWordChange (p st : Nat) : Statement (.tailWordChange p st) := of_none rfl
theorem qctlEnable (p st : Nat) : Statement (.qctlEnable p st) := of_none rfl
theorem qctlDisable (p st : Nat) : Statement (.qctlDisable p st) := of_none rfl
theorem qctlZero (p st : Nat) : Statement (.qctlZero p st) := of_none rfl
theorem statResume (p st : Nat) : Statement (.statResume p st) := of_none rfl
theorem statSkip (p st : Nat) : Statement (.statSkip p st) := of_none rfl
theorem headerReread (p st : Nat) : Statement (.headerReread p st) := of_none rfl
theorem nopPacket (p st : Nat) : Statement (.nopPacket p st) := of_none rfl
theorem launchPacket (p st : Nat) : Statement (.launchPacket p st) := of_none rfl
theorem graphPacket (p st : Nat) : Statement (.graphPacket p st) := of_none rfl
theorem copyPacket (p st : Nat) : Statement (.copyPacket p st) := of_none rfl
theorem collPacket (p st : Nat) : Statement (.collPacket p st) := of_none rfl
theorem semwaitPacket (p st : Nat) : Statement (.semwaitPacket p st) := of_none rfl
theorem semsigPacket (p st : Nat) : Statement (.semsigPacket p st) := of_none rfl
theorem timewaitPacket (p st : Nat) : Statement (.timewaitPacket p st) := of_none rfl
theorem fencePacket (p st : Nat) : Statement (.fencePacket p st) := of_none rfl
theorem jumpPacket (p st : Nat) : Statement (.jumpPacket p st) := of_none rfl
theorem waitConditionMet (p st : Nat) : Statement (.waitConditionMet p st) := of_none rfl
theorem tumblerPoll (core slot lane : Nat) : Statement (.tumblerPoll core slot lane) := of_none rfl
theorem gridComplete (p gs : Nat) : Statement (.gridComplete p gs) := of_none rfl
theorem nodeDispatch (graph node : Nat) : Statement (.nodeDispatch graph node) := of_none rfl
theorem nodeComplete (graph node : Nat) : Statement (.nodeComplete graph node) := of_none rfl
theorem teamPlace (p gs : Nat) : Statement (.teamPlace p gs) := of_none rfl
theorem groupEnd (core slot : Nat) : Statement (.groupEnd core slot) := of_none rfl
theorem chainTailSeen (id : Nat) : Statement (.chainTailSeen id) := of_none rfl
theorem chainBlockComplete (id : Nat) : Statement (.chainBlockComplete id) := of_none rfl
theorem chainResume (id : Nat) : Statement (.chainResume id) := of_none rfl
theorem copyBlockCopy (id : Nat) : Statement (.copyBlockCopy id) := of_none rfl
theorem copyBlockFill (id : Nat) : Statement (.copyBlockFill id) := of_none rfl
theorem copyBlockHalo (id : Nat) : Statement (.copyBlockHalo id) := of_none rfl
theorem copyChunk (id : Nat) : Statement (.copyChunk id) := of_none rfl
theorem collAllReduce (id : Nat) : Statement (.collAllReduce id) := of_none rfl
theorem collReduceScatter (id : Nat) : Statement (.collReduceScatter id) := of_none rfl
theorem collAllGather (id : Nat) : Statement (.collAllGather id) := of_none rfl
theorem collBroadcast (id : Nat) : Statement (.collBroadcast id) := of_none rfl
theorem collMessageIngress (id attempt member : Nat) (data : List Nat) : Statement (.collMessageIngress id attempt member data) := of_none rfl
theorem collAbortToken (id attempt : Nat) : Statement (.collAbortToken id attempt) := of_none rfl
theorem collAttemptTimeout (id : Nat) : Statement (.collAttemptTimeout id) := of_none rfl
theorem matrixBlock (id : Nat) : Statement (.matrixBlock id) := of_none rfl
theorem matrixKstep (id : Nat) : Statement (.matrixKstep id) := of_none rfl
theorem matrixJobComplete (id : Nat) : Statement (.matrixJobComplete id) := of_none rfl
theorem blendTileClose (id : Nat) : Statement (.blendTileClose id) := of_none rfl
theorem blendRowWriteback (id : Nat) : Statement (.blendRowWriteback id) := of_none rfl
theorem strainerPass (id : Nat) : Statement (.strainerPass id) := of_none rfl
theorem strainerPixel (id : Nat) : Statement (.strainerPixel id) := of_none rfl
theorem strainerVisRayResult (id : Nat) : Statement (.strainerVisRayResult id) := of_none rfl
theorem strainerPassComplete (id : Nat) : Statement (.strainerPassComplete id) := of_none rfl
theorem strainerAdvance (id : Nat) : Statement (.strainerAdvance id) := of_none rfl
theorem rayNodeRead (id : Nat) : Statement (.rayNodeRead id) := of_none rfl
theorem rayResultWrite (id : Nat) : Statement (.rayResultWrite id) := of_none rfl
theorem marchEvent (id : Nat) : Statement (.marchEvent id) := of_none rfl
theorem lwalkNodeRead (id : Nat) : Statement (.lwalkNodeRead id) := of_none rfl
theorem laneSwap (core sa sb lane : Nat) : Statement (.laneSwap core sa sb lane) := of_none rfl
theorem orderedAccessArrival (id : Nat) : Statement (.orderedAccessArrival id) := of_none rfl
theorem orderedAccessRelease (id : Nat) : Statement (.orderedAccessRelease id) := of_none rfl
theorem pageWalkComplete (id : Nat) : Statement (.pageWalkComplete id) := of_none rfl
theorem loadDataReturn (id data : Nat) (ok : Bool) : Statement (.loadDataReturn id data ok) := of_none rfl
theorem poisonReturn (id : Nat) : Statement (.poisonReturn id) := of_none rfl
theorem writePerformed (id : Nat) (ok : Bool) : Statement (.writePerformed id ok) := of_none rfl
theorem storeBufferDrain (id : Nat) : Statement (.storeBufferDrain id) := of_none rfl
theorem sliceMove (core slot : Nat) : Statement (.sliceMove core slot) := of_none rfl
theorem loopEndStep (core slot : Nat) : Statement (.loopEndStep core slot) := of_none rfl
theorem growGrant (core slot : Nat) : Statement (.growGrant core slot) := of_none rfl
theorem allocatorImpasse (core : Nat) : Statement (.allocatorImpasse core) := of_none rfl
theorem activeSetRotate (core slot : Nat) : Statement (.activeSetRotate core slot) := of_none rfl
theorem groupEnterActive (core slot : Nat) : Statement (.groupEnterActive core slot) := of_none rfl
theorem wtimeRelease (core slot lane : Nat) : Statement (.wtimeRelease core slot lane) := of_none rfl
theorem wtimePreentry (core slot : Nat) : Statement (.wtimePreentry core slot) := of_none rfl
theorem periodBoundary (p : Nat) : Statement (.periodBoundary p) := of_none rfl
theorem migrationStart (team core : Nat) : Statement (.migrationStart team core) := of_none rfl
theorem migrationCopyDone (team : Nat) : Statement (.migrationCopyDone team) := of_none rfl
theorem forwardEntryExpire (core entry : Nat) : Statement (.forwardEntryExpire core entry) := of_none rfl
theorem forwardedMessage (id core slot : Nat) : Statement (.forwardedMessage id core slot) := of_none rfl
theorem preemptClassTrigger (p gs : Nat) : Statement (.preemptClassTrigger p gs) := of_none rfl
theorem preemptDeadlineExpire (team : Nat) : Statement (.preemptDeadlineExpire team) := of_none rfl
theorem withholdExpire (p : Nat) : Statement (.withholdExpire p) := of_none rfl
theorem saveAreaAvailable (team : Nat) : Statement (.saveAreaAvailable team) := of_none rfl
theorem deadboltRequest (team : Nat) (kind : DbKind) : Statement (.deadboltRequest team kind) := of_none rfl
theorem shadowQueuesEmpty (team : Nat) : Statement (.shadowQueuesEmpty team) := of_none rfl
theorem deadboltFreeze (team : Nat) : Statement (.deadboltFreeze team) := of_none rfl
theorem deadboltScanDone (team : Nat) : Statement (.deadboltScanDone team) := of_none rfl
theorem deadboltDrainDone (team : Nat) : Statement (.deadboltDrainDone team) := of_none rfl
theorem shadowMismatch (core slot lane : Nat) : Statement (.shadowMismatch core slot lane) := of_none rfl
theorem asyncErrorDelivery (core slot lane : Nat) : Statement (.asyncErrorDelivery core slot lane) := of_none rfl
theorem hostCacheSnoop (addr data : Nat) : Statement (.hostCacheSnoop addr data) := of_none rfl
theorem hingeCrcRetry (n : Nat) : Statement (.hingeCrcRetry n) := of_none rfl
theorem hingeModuleRetrained (n : Nat) : Statement (.hingeModuleRetrained n) := of_none rfl
theorem hingeRequestTimeout (id : Nat) : Statement (.hingeRequestTimeout id) := of_none rfl
theorem caddyRestartComplete : Statement (.caddyRestartComplete) := of_none rfl
theorem powerFail : Statement .powerFail := of_none rfl

end Sys2Proof.Laws.RoundTrip
end

