-- ==== Sys2Proof/Laws/Phys.lean ====
section
/-!
SUPPORT. Every operation that writes module memory, a scratchpad or a chip scratchpad keeps their canonical form.
-/
namespace Sys2Proof.Machine

theorem MemOk.of_eq {s t : State} (h : MemOk s) (h₁ : t.mem = s.mem) (h₂ : t.scratch = s.scratch) (h₃ : t.chip = s.chip) : MemOk t := by
  unfold MemOk; rw [h₁, h₂, h₃]; exact h

theorem MemOk.reset : MemOk State.reset := ⟨rfl, rfl, rfl⟩

theorem MemOk.writeByte {s : State} (h : MemOk s) (p : Place) (b : Byte) : MemOk (writeByte s p b) := by
  obtain ⟨h₁, h₂, h₃⟩ := h
  unfold Machine.writeByte
  split
  · split
    · exact ⟨h₁, h₂, Mem.wf_write h₃ _ _⟩
    · exact ⟨h₁, h₂, h₃⟩
    · exact ⟨Mem.wf_write h₁ _ _, h₂, h₃⟩
  · exact ⟨h₁, Mem.wf_write h₂ _ _, h₃⟩
  · exact ⟨h₁, h₂, Mem.wf_write h₃ _ _⟩
  · exact ⟨h₁, h₂, h₃⟩
  · exact ⟨h₁, h₂, h₃⟩

theorem MemOk.writeFrom {s : State} (h : MemOk s) (p : Place) (bs : List Byte) : MemOk (writeFrom s p bs) := by
  induction bs generalizing s p with
  | nil => exact h
  | cons b bs ih => exact ih (h.writeByte p b) _

theorem MemOk.clearPoison {s : State} (h : MemOk s) (p : Place) (n : Nat) : MemOk (clearPoison s p n) := by
  exact h

theorem MemOk.performWrite {s : State} (h : MemOk s) (p : Place) (bs : List Byte) : MemOk (performWrite s p bs) :=
  (h.writeFrom p bs).clearPoison p _

theorem wf_writePieces {m : Mem} (h : m.wf = true) (a : Nat) (ps : List Piece) : (writePieces m a ps).wf = true := by
  induction ps generalizing m with
  | nil => exact h
  | cons p ps ih => exact ih (Mem.wf_writeBytes h _ _)

theorem MemOk.writeImage {s : State} (h : MemOk s) (t : Team) (a : Nat) (cp hd : Bool) : MemOk (writeImage s t a cp hd) :=
  ⟨wf_writePieces (Mem.wf_clear h.1 _ _) _ _, h.2⟩

theorem MemOk.loadScratch {s : State} (h : MemOk s) (i : Image) (c b o : Nat) : MemOk (loadScratch s i c b o) :=
  ⟨h.1, wf_writePieces (Mem.wf_clear h.2.1 _ _) _ _, h.2.2⟩

theorem MemOk.relocate {s : State} (h : MemOk s) (m : Move) : MemOk (relocate s m) := by
  unfold Machine.relocate MemOk
  exact ⟨h.1, Mem.wf_writeBytes (Mem.wf_clear h.2.1 _ _) _ _, h.2.2⟩

theorem MemOk.placeWord {s : State} (h : MemOk s) (n w : Nat) : MemOk (s.withFetchWord n w) := by
  unfold State.withFetchWord Machine.placeWord MemOk
  refine ⟨?_, h.2⟩
  apply Mem.wf_writeBytes; apply Mem.wf_writeN; exact Mem.wf_writeN h.1 _ _ _

end Sys2Proof.Machine
end

