-- ==== Sys2Proof/Laws/Step.lean ====
section
/-!
SUPPORT. What a step does around a move, said once: the cases of a step that goes on, and what settling after a move leaves unchanged.
-/
namespace Sys2Proof.Machine

/-- A changed result goes on exactly where the result does. -/
theorem onNext_eq_next {f : State → State} {r : Result} {s' : State} : onNext f r = .next s' ↔ ∃ t, r = .next t ∧ f t = s' := by
  cases r <;> simp [onNext]

/-- A step that goes on settles after the first move of the agenda, or, with power and an empty agenda, after the move of the default rule. -/
theorem step_cases {s s' : State} (h : step s = .next s') :
    ∃ t, settleAfter s t = s' ∧
      ((∃ a rest, s.agenda = a :: rest ∧ stepAct { s with agenda := rest } a = .next t) ∨
        (s.agenda = [] ∧ s.powered = true ∧
          defaultMove (fun core slot lane t => stepIssue t core slot lane) s { s with turn := s.turn + 1 } = .next t)) := by
  unfold step at h
  split at h
  · obtain ⟨t, h, e⟩ := onNext_eq_next.1 h
    exact ⟨t, e, .inl ⟨_, _, ‹_›, h⟩⟩
  · split at h
    · cases h
    · obtain ⟨t, h, e⟩ := onNext_eq_next.1 h
      exact ⟨t, e, .inr ⟨‹_›, by simpa using ‹¬(!s.powered) = true›, h⟩⟩

/-! Settling changes the groups, their shadows and the counter of identifiers. -/

variable (s t : State)

@[simp] theorem settleAfter_agenda : (settleAfter s t).agenda = t.agenda := rfl
@[simp] theorem settleAfter_turn : (settleAfter s t).turn = t.turn := rfl
@[simp] theorem settleAfter_issue : (settleAfter s t).issue = t.issue := rfl
@[simp] theorem settleAfter_out : (settleAfter s t).out = t.out := rfl
@[simp] theorem settleAfter_mem : (settleAfter s t).mem = t.mem := rfl
@[simp] theorem settleAfter_scratch : (settleAfter s t).scratch = t.scratch := rfl
@[simp] theorem settleAfter_chip : (settleAfter s t).chip = t.chip := rfl
@[simp] theorem settleAfter_poison : (settleAfter s t).poison = t.poison := rfl
@[simp] theorem settleAfter_sramPoison : (settleAfter s t).sramPoison = t.sramPoison := rfl
@[simp] theorem settleAfter_ms : (settleAfter s t).ms = t.ms := rfl
@[simp] theorem settleAfter_parts : (settleAfter s t).parts = t.parts := rfl
@[simp] theorem settleAfter_grids : (settleAfter s t).grids = t.grids := rfl
@[simp] theorem settleAfter_teams : (settleAfter s t).teams = t.teams := rfl
@[simp] theorem settleAfter_graphs : (settleAfter s t).graphs = t.graphs := rfl
@[simp] theorem settleAfter_fwd : (settleAfter s t).fwd = t.fwd := rfl
@[simp] theorem settleAfter_lines : (settleAfter s t).lines = t.lines := rfl
@[simp] theorem settleAfter_eng : (settleAfter s t).eng = t.eng := rfl
@[simp] theorem settleAfter_render : (settleAfter s t).render = t.render := rfl
@[simp] theorem settleAfter_images : (settleAfter s t).images = t.images := rfl
@[simp] theorem settleAfter_time : (settleAfter s t).time = t.time := rfl
@[simp] theorem settleAfter_therm : (settleAfter s t).therm = t.therm := rfl
@[simp] theorem settleAfter_caddy : (settleAfter s t).caddy = t.caddy := rfl
@[simp] theorem settleAfter_links : (settleAfter s t).links = t.links := rfl
@[simp] theorem settleAfter_pf : (settleAfter s t).pf = t.pf := rfl
@[simp] theorem settleAfter_disabledCores : (settleAfter s t).disabledCores = t.disabledCores := rfl
@[simp] theorem settleAfter_retiring : (settleAfter s t).retiring = t.retiring := rfl
@[simp] theorem settleAfter_vacant : (settleAfter s t).vacant = t.vacant := rfl
@[simp] theorem settleAfter_l2ret0 : (settleAfter s t).l2ret0 = t.l2ret0 := rfl
@[simp] theorem settleAfter_l2ret1 : (settleAfter s t).l2ret1 = t.l2ret1 := rfl
@[simp] theorem settleAfter_powered : (settleAfter s t).powered = t.powered := rfl

/-- The lanes and registers of a group are as they were before it settled. -/
@[simp] theorem Group.settled_lanes (g : Group) (now : Nat) : (g.settled now).lanes = g.lanes := rfl

end Sys2Proof.Machine
end

