-- ==== Sys2Proof/Laws/Xlat.lean ====
section
/-!
SUPPORT. What a translation may change (R192 to R199): the TLBs, the residency filter and ring with the bytes of a record, and the interrupt
that a ring raises. And that reads of places do not see where cohorts stand.
-/
namespace Sys2Proof.Machine

/-- `t` differs from `s` at most as translations make it. -/
structure Walked (s t : State) : Prop where
  state : { t with ms := s.ms, parts := s.parts, mem := s.mem, chip := s.chip, poison := s.poison, sramPoison := s.sramPoison, out := s.out,
                   pf := s.pf } = s
  ms : { t.ms with tlb := s.ms.tlb, filter := s.ms.filter } = s.ms

theorem Walked.refl (s : State) : Walked s s := ⟨rfl, rfl⟩
theorem Walked.trans {a b c : State} (h : Walked a b) (k : Walked b c) : Walked a c := by
  refine ⟨?_, ?_⟩
  · rw [← h.state, ← k.state]
  · rw [← h.ms, ← k.ms]

theorem Walked.groups {s t : State} (h : Walked s t) : t.groups = s.groups := by have := congrArg State.groups h.state; exact this
theorem Walked.issue {s t : State} (h : Walked s t) : t.issue = s.issue := by have := congrArg State.issue h.state; exact this
theorem Walked.flights {s t : State} (h : Walked s t) : t.ms.flights = s.ms.flights := by have := congrArg MemSys.flights h.ms; exact this

theorem Walked.raisePf (s : State) (n : Nat) : Walked s (raisePf s n) := by
  unfold Machine.raisePf
  simp only
  split <;> exact ⟨rfl, rfl⟩

theorem Walked.writeFrom (s : State) (a : Nat) (bs : List Byte) : Walked s (writeFrom s (.phys a) bs) := by
  induction bs generalizing s a with
  | nil => exact .refl s
  | cons b bs ih =>
    refine Walked.trans ?_ (ih _ _)
    unfold Machine.writeByte
    simp only
    split <;> exact ⟨rfl, rfl⟩

theorem Walked.writePhys (s : State) (a : Nat) (bs : List Byte) : Walked s (writePhys s a bs) := by
  unfold Machine.writePhys
  simp only
  have h : Walked s (performWrite s (.phys a) bs) := (Walked.writeFrom s a bs).trans ⟨rfl, rfl⟩
  split
  · exact h.trans ⟨rfl, rfl⟩
  · exact h

theorem Walked.putResidency (s : State) (p : Nat) (bs : List Byte) : Walked s (putResidency s p bs) := by
  unfold Machine.putResidency
  simp only
  split
  · exact .refl s
  · split
    · exact ⟨rfl, rfl⟩
    · refine (Walked.writePhys s ((s.part p).rf.area.base + 32 * (s.part p).rf.tail) bs).trans ?_
      split
      · refine Walked.trans ?_ (Walked.raisePf _ _)
        exact ⟨rfl, rfl⟩
      · exact ⟨rfl, rfl⟩

theorem Walked.noteResidency (s : State) (p die va kind acc lv core e : Nat) : Walked s (noteResidency s p die va kind acc lv core e) := by
  unfold Machine.noteResidency
  simp only
  split
  · exact .refl s
  · split
    · exact .refl s
    · refine Walked.trans ?_ (Walked.putResidency _ _ _)
      exact ⟨rfl, rfl⟩

theorem Walked.addTlb (s : State) (t : TlbEntry) : Walked s (addTlb s t) := ⟨rfl, rfl⟩

/-- What a translation may change. -/
theorem translateVa_walked (s : State) (w : Who) (acc : Acc) (va : Nat) : Walked s (translateVa s w acc va).1 := by
  unfold translateVa
  simp only
  split
  · exact .refl s
  · split
    · simp only
      split
      · exact Walked.addTlb ..
      · exact .refl s
    · split
      · simp only
        split
        · exact Walked.noteResidency ..
        · exact .refl s
      · rename_i phys size lv e _
        have h : Walked s (if (leafEntry w.die none w.part va phys size e).rt && (s.part w.part).rf.touchen then
            noteResidency s w.part w.die (va / size * size) 1 (w.access acc) lv w.coreField e else s) := by
          split
          · exact Walked.noteResidency ..
          · exact .refl s
        refine h.trans ((Walked.addTlb _ (leafEntry w.die none w.part va phys size e)).trans ?_)
        generalize addTlb _ _ = u
        simp only
        cases w.core.isSome
        · exact .refl u
        · exact Walked.addTlb _ _

theorem translate_walked (s : State) (w : Who) (acc : Acc) (a : Nat) : Walked s (translate s w acc a).1 := by
  unfold translate
  split
  · exact .refl s
  · split
    · simp only
      split <;> exact .refl s
    · split
      · exact .refl s
      · exact translateVa_walked ..

theorem checkAddr_walked (s : State) (g : Group) (l sp : Nat) (a : Word64) (n : Nat) (acc : Acc) (path : Nat) :
    Walked s (checkAddr s g l sp a n acc path).1 := by
  unfold checkAddr
  split
  · exact .refl s
  · split
    · have h := translate_walked s (whoLane s g path) acc a.toNat
      split <;> rename_i e <;> simpa [e] using h
    · split
      · split
        · exact .refl s
        · simp only
          generalize (_ % 2 ^ 64 : Nat) = x
          have h := translate_walked s (whoLane s g path) .read x
          split <;> rename_i e <;> simpa [e] using h
      · split <;> exact .refl s

/-- What the checks of a word may change. -/
theorem checkAll_walked (s : State) (g : Group) (sp n : Nat) (acc : Acc) (path : Nat) (as_ : List (Nat × Word64)) :
    Walked s (checkAll s g sp n acc path as_).1 := by
  induction as_ generalizing s with
  | nil => exact .refl s
  | cons x as_ ih => exact (checkAddr_walked ..).trans (ih _)

/-! ## Reads and counters -/

/-- A change of counters is not seen by reads. -/
theorem readByte_countUp (s : State) (c k : Nat) (ls : List Nat) (n : Counter) (p : Place) : readByte (countUp s c k ls n) p = readByte s p := by
  cases p with
  | slice core slot lane off =>
    have hg : (countUp s c k ls n).group? core slot = (s.group? core slot).map fun g => if g.isAt c k then
        { g with lanes := g.lanes.mapIdx fun l x => if ls.contains l then x.updCount n (· + 1) else x } else g :=
      State.group?_map s _ (fun g => by split <;> exact ⟨rfl, rfl⟩) core slot
    have hl : ((countUp s c k ls n).lane core slot lane).slice = (s.lane core slot lane).slice := by
      unfold State.lane
      rw [hg]
      cases s.group? core slot with
      | none => rfl
      | some g =>
        simp only [Option.map_some]
        split
        · by_cases h : lane < g.lanes.length
          · rw [lane_mapIdx g _ lane h]
            split
            · cases n <;> rfl
            · rfl
          · simp [Group.lane, h]
        · rfl
    simp only [readByte, hl]
  | _ => rfl

theorem readPlace_congr {s t : State} (h : ∀ p, readByte t p = readByte s p) (hb : ∀ p, bytePoison t p = bytePoison s p) (p : Place) (n : Nat) :
    readPlace t p n = readPlace s p n := by
  unfold readPlace; simp only [h, hb]

theorem fillParts_countUp (s : State) (c k : Nat) (ls : List Nat) (n : Counter) (sel : Place → Bool) (ps : List ReadPart) :
    fillParts (countUp s c k ls n) sel ps = fillParts s sel ps := by
  unfold fillParts
  simp only [readPlace_congr (readByte_countUp s c k ls n) (fun _ => rfl)]

/-- Where a cohort stands is not seen by reads. -/
theorem readByte_flow {s t : State} (f : Group → Group) (hf : ∀ g, (f g).core = g.core ∧ (f g).slot = g.slot)
    (hs : ∀ g l, ((f g).lane l).slice = (g.lane l).slice) (h : t = { s with groups := s.groups.map f }) (p : Place) :
    readByte t p = readByte s p := by
  subst h
  cases p with
  | slice core slot lane off =>
    have : (({ s with groups := s.groups.map f } : State).lane core slot lane).slice = (s.lane core slot lane).slice := by
      unfold State.lane
      rw [State.group?_map s f hf]
      cases s.group? core slot with
      | none => rfl
      | some g => exact hs g lane
    simp only [readByte, this]
  | _ => rfl

theorem Group.SameFlow.slice {a b : Group} (h : a.SameFlow b) (l : Nat) : (b.lane l).slice = (a.lane l).slice := by
  by_cases hl : l < a.lanes.length
  · rw [h.2.2 l hl]
  · have : ¬l < b.lanes.length := by rw [h.2.1]; exact hl
    simp [Group.lane, hl, this]

/-- The end of an issue is not seen by reads. -/
theorem readByte_markLoopEnd (s : State) (ls : List Nat) (p : Place) : readByte (markLoopEnd s ls) p = readByte s p := by
  rw [markLoopEnd_eq]
  refine readByte_flow (fun g => if g.isAt s.issue.core s.issue.slot then g.atLoopEnd s.issue ls else g) (fun g => ?_) (fun g l => ?_) rfl p
  · split
    · exact (Group.sameFlow_atLoopEnd ..).place
    · exact ⟨rfl, rfl⟩
  · split
    · exact (Group.sameFlow_atLoopEnd ..).slice l
    · rfl

theorem readByte_raiseOf (s : State) (g : Group) (act : List Nat) (fl : Nat → FlagSet) (p : Place) :
    readByte (raiseOf g act fl s) p = readByte s p :=
  readByte_flow (fun h => h.raised g act fl) (fun h => Group.raised_place h g act fl)
    (fun h l => by simp only [Group.lane, Group.raised_lanes]) rfl p

/-- A lane-set word that fits: reads after it see what its body leaves. -/
theorem readByte_laneIssue {s : State} {g : Group} {gd : Guard} {form : LaneForm} (hf : LaneFits s g form)
    (body : Group → List Nat → State → State) (p : Place) :
    readByte (laneIssue s gd form body) p = readByte (body g (activeLanes g gd s) (advance s)) p := by
  obtain ⟨hg, hq, hs⟩ := hf
  unfold laneIssue
  have hbad : ((form.srcs ++ form.dsts).any fun r => r.past g) = false := by
    rw [List.any_eq_false]; intro r hr; simp [hq r hr]
  have hrefused : (inShader s && (!form.shaderOk || form.srcs.any Named.isLatch)) = false := by
    cases hsh : inShader s
    · rfl
    · obtain ⟨h1, h2⟩ := hs hsh
      have h3 : form.srcs.any Named.isLatch = false := by
        rw [List.any_eq_false]; intro r hr; simp [h2 r hr]
      simp [h1, h3]
  simp only [hg, hbad, hrefused, Bool.or_false, Bool.false_eq_true, if_false, runIssue, readByte_markLoopEnd]
  exact readByte_raiseOf ..

/-- Loads whose checks pass (R394, R398): all that they do. -/
theorem loadLanes_done {s s₁ : State} {g : Group} {gd : Guard} {form : LaneForm} {sp n sc : Nat} {acq : Bool} {dest : Group → Dest}
    {addr : Group → Nat → Lane → Word64} {ps : List (Nat × Place × Word64)} (hf : LaneFits s g form)
    (hgo : AccessGoes s (advance s) s₁ g (activeLanes g gd s) sp n .read .ld (fun l => addr g l (g.lane l)) ps)
    (hheld : trafficHeld s₁ g (ps.map fun x => x.2.1) = false) :
    ∃ t, loadLanes s gd form sp n sc acq dest addr = .next t ∧ Loaded s s₁ t g gd form sp n sc acq (dest g) ps := by
  obtain ⟨hbusy, hchk⟩ := hgo
  have hw : Walked (advance s) s₁ := by have := checkAll_walked (advance s) g sp n .read 0 ((activeLanes g gd s).map fun l => (l, addr g l (g.lane l))); rw [hchk] at this; exact this
  have hl : ps.map Prod.fst = activeLanes g gd s := by
    have := checkAll_lanes (advance s) g sp n .read 0 ((activeLanes g gd s).map fun l => (l, addr g l (g.lane l)))
    rw [hchk] at this
    simpa [List.map_map, Function.comp_def] using this
  have hp := isAt_of_issuing hf.1
  let B : Group → List Nat → State → State := fun g act s' =>
    let addrs := act.map fun l => (l, addr g l (g.lane l))
    if memBusy s g act sp n 0 .ld addrs then block s' s.issue.lanes
    else
      let (s', cs) := checkAll s' g sp n .read 0 addrs
      let ok := passed cs
      if trafficHeld s' g (ok.map fun x => x.2.1) then block s' s.issue.lanes
      else
        let s' := countUp s' g.core g.slot (ok.map Prod.fst) .ld
        failLanes ((ok.map fun x => (x.1, x.2.1, spaceVa s g sp x.2.2)).foldl (loadOne g 0 sc acq n (dest g)) s') 0 cs
  let u := countUp s₁ g.core g.slot (activeLanes g gd s) .ld
  have hB : B g (activeLanes g gd s) (advance s) =
      (ps.map fun x => (x.1, x.2.1, spaceVa s g sp x.2.2)).foldl (loadOne g 0 sc acq n (dest g)) u := by
    simp only [B, hbusy, hchk, passed_ok, hheld, failLanes_ok, hl, u]
    rfl
  have hsent : Sent u (B g (activeLanes g gd s) (advance s)) := by rw [hB]; exact Sent.foldl _ (fun _ _ => loadOne_sent ..) _ _
  have hug : u.groups = ((advance s).updGroup s.issue.core s.issue.slot fun h =>
      { h with lanes := h.lanes.mapIdx fun l x => if (activeLanes g gd s).contains l then { x with ld := x.ld + 1 } else x }).groups := by
    simp only [u, countUp, State.updLanes, State.updGroup, hp.1, hp.2, hw.groups]; rfl
  have hL := laneIssue_groups (gd := gd) hf B (fun _ x => { x with ld := x.ld + 1 }) (fun _ _ => rfl) (hsent.groups.trans hug)
    (hsent.issue.trans hw.issue)
  refine ⟨laneIssue s gd form B, rfl, hL.1, ?_, ?_⟩
  · generalize ht : laneIssue s gd form B = t at hL
    have h2 := hL.2
    have hst := hsent.state
    rw [← h2] at hst
    have hms := hsent.ms
    rw [← h2] at hms
    have hpt := hsent.part
    rw [← h2] at hpt
    have e1 : { t with groups := s₁.groups, ms := s₁.ms, parts := s₁.parts, out := s₁.out, fresh := s₁.fresh } = s₁ := by
      have := congrArg (fun z : State => ({ z with groups := s₁.groups } : State)) hst
      exact this
    refine ⟨e1, hms, hpt, fun p => ?_⟩
    have hr : readByte (B g (activeLanes g gd s) (advance s)) p = readByte s₁ p := by
      rw [hsent.readByte]; exact readByte_countUp ..
    rw [← hr, ← ht]
    exact readByte_laneIssue hf B p
  · obtain ⟨fs, h1, h2⟩ := loads_flights s₁ g 0 sc acq n (dest g) (ps.map fun x => (x.1, x.2.1, spaceVa s g sp x.2.2)) u (fun a p => rfl) (fun a q => fillParts_countUp ..)
    rw [List.map_map] at h2
    refine ⟨fs, ?_, h2⟩
    rw [← hB] at h1
    have : (laneIssue s gd form B).ms = (B g (activeLanes g gd s) (advance s)).ms := by
      have := congrArg State.ms hL.2; exact this
    exact (congrArg MemSys.flights this).trans h1

end Sys2Proof.Machine
end

