-- ==== Sys2Proof/Tests/Slice0.lean ====
section
/-!
SUPPORT. Tests: ill-formed terms, words written out from the encodings of the spec, worked examples of the spec, and for each statement
concrete states and operands that meet its hypotheses.
-/

set_option maxRecDepth 20000

namespace Sys2Proof.Tests

open Sys2Proof Sys2Proof.Machine Sys2Proof.Rule

/-! ## The state of the tests: one group on core 0, with page tables, about to issue -/

/-- The state that a step answers. -/
def nextOf (o : Host.Outcome State Fault Refusal) : Option State :=
  match o with
  | .next t => some t
  | _ => none

/-- The placed group with a word at its program counter. -/
def placed : State := State.reset.withFetchWord 32 0x06FE79E1
/-- All its lanes about to issue a one-word form. -/
def base : State := { placed with agenda := [], issue := ⟨0, 0, List.range 32, 0x10000, 0x06FE79E1, 0⟩ }
/-- `base` with a change of its group. -/
def withG (f : Group → Group) : State := base.updGroup 0 0 f
/-- `base` with a change of every lane. -/
def withLanes (f : Lane → Lane) : State := withG fun g => { g with lanes := g.lanes.map f }
/-- `s` with only some lanes in the cohort. -/
def only (s : State) (ls : List Nat) : State := { s with issue := { s.issue with lanes := ls } }
/-- The group. -/
def grp (s : State) : Group := (s.group? 0 0).getD default
/-- `base` with a value in a register of every lane. -/
def withV (k : Nat) (v : Nat) : State := withLanes fun x => { x with regs := x.regs.writeN (4 * k) 4 v }
/-- `base` with a value in a register pair of every lane. -/
def withW (k : Nat) (v : Nat) : State := withLanes fun x => { x with regs := x.regs.writeN (8 * k) 8 v }
/-- `base` with a value in a G register. -/
def withG64 (k v : Nat) : State := withG fun g => { g with g := g.g.set k (BitVec.ofNat 64 v) }
/-- `base` after a change of its one grid's record. -/
def withRec (f : LaunchRec → LaunchRec) : State := { base with grids := base.grids.map fun g => { g with rcd := f g.rcd } }
/-- The word V(k) of lane `l` after an instruction. -/
def vAfter (i : Instr) (s : State) (l k : Nat) : Option Nat := (nextOf (exec i s)).map fun t => (t.lane 0 0 l).regs.readN (4 * k) 4
/-- The sticky flags after an instruction. -/
def flagsAfter (i : Instr) (s : State) : Option Nat := (nextOf (exec i s)).map fun t => (grp t).stky

/-- A pair whose second part answers a value is a state with that value. -/
theorem ok_of {α β ε : Type} {r : α × Except ε β} {v : β} (h : r.2.toOption = some v) : ∃ u, r = (u, .ok v) := by
  obtain ⟨u, e⟩ := r
  cases e with
  | ok a => exact ⟨u, by simp [Except.toOption] at h; rw [h]⟩
  | error _ => simp [Except.toOption] at h

/-- The error of an answer. -/
def errorOf {β ε : Type} (e : Except ε β) : Option ε :=
  match e with
  | .ok _ => none
  | .error x => some x

/-- A pair whose second part is an error. -/
theorem error_of {α β ε : Type} {r : α × Except ε β} {v : ε} (h : errorOf r.2 = some v) : ∃ u, r = (u, .error v) := by
  obtain ⟨u, e⟩ := r
  cases e with
  | error a => exact ⟨u, by simp [errorOf] at h; rw [h]⟩
  | ok _ => simp [errorOf] at h

/-- The place that a translation answers. -/
def placeOf (r : Xlat) : Option Place :=
  match r with
  | .ok p => some p
  | .fault _ _ => none

/-- A translation that answers a place. -/
theorem place_of {r : State × Xlat} {p : Place} (h : placeOf r.2 = some p) : ∃ u, r = (u, .ok p) := by
  obtain ⟨u, e⟩ := r
  cases e with
  | ok a => exact ⟨u, by simp [placeOf] at h; rw [h]⟩
  | fault _ _ => simp [placeOf] at h

/-- The bytes that a unit's read answers. -/
def unitBytes (r : UnitData) : Option (List Byte) :=
  match r with
  | .data bs => some bs
  | _ => none

/-- A read of a unit that answers bytes. -/
theorem unit_data {r : State × UnitData} {bs : List Byte} (h : unitBytes r.2 = some bs) : ∃ u, r = (u, .data bs) := by
  obtain ⟨u, e⟩ := r
  cases e with
  | data x => exact ⟨u, by simp [unitBytes] at h; rw [h]⟩
  | _ => simp [unitBytes] at h

/-- The bytes that a front end's read answers. -/
def feBytes (r : FeRead) : Option (List Byte) :=
  match r with
  | .data bs => some bs
  | _ => none

/-- A read of a front end that answers bytes. -/
theorem fe_data {r : State × FeRead} {bs : List Byte} (h : feBytes r.2 = some bs) : ∃ u, r = (u, .data bs) := by
  obtain ⟨u, e⟩ := r
  cases e with
  | data x => exact ⟨u, by simp [feBytes] at h; rw [h]⟩
  | _ => simp [feBytes] at h

/-- The bytes that an engine's read answers. -/
def engBytes (r : EngData) : Option (List Byte) :=
  match r with
  | .data bs => some bs
  | _ => none

/-- A read of an engine that answers bytes. -/
theorem eng_data {r : State × EngData} {bs : List Byte} (h : engBytes r.2 = some bs) : ∃ u, r = (u, .data bs) := by
  obtain ⟨u, e⟩ := r
  cases e with
  | data x => exact ⟨u, by simp [engBytes] at h; rw [h]⟩
  | _ => simp [engBytes] at h

/-- A step that answers a state. -/
theorem next_of {o : Host.Outcome State Fault Refusal} (h : (nextOf o).isSome = true) : ∃ t, o = .next t := by
  cases o <;> simp_all [nextOf]


/-- The words that a fetch answers. -/
def fetchedWords (r : Fetch) : Option (Nat × Nat) :=
  match r with
  | .words a b => some (a, b)
  | _ => none

/-- A fetch that answers words. -/
theorem fetch_words {r : State × Fetch} {w : Nat × Nat} (h : fetchedWords r.2 = some w) : ∃ u, r = (u, .words w.1 w.2) := by
  obtain ⟨u, e⟩ := r
  cases e with
  | words a b => exact ⟨u, by simp [fetchedWords] at h; simp [← h]⟩
  | _ => simp [fetchedWords] at h
/-! ## Well-formedness: an ill-formed term for each check, and its neighbour that the check admits -/

/-- The guard of the terms below. -/
def gd : Guard := ⟨false, 7⟩

/-- Register classes of R351 and the runs of R404, R453 and R456: the codes just outside are refused. -/
theorem test_wf_registers : ∀ i ∈ ([.addB32 ⟨false, 8⟩ 0 0 0, .addB32 gd 61 0 0, .addB32 gd 0 64 0, .addB32 gd 0 0 64, .addB64 gd 30 0 0,
    .addB64 gd 0 59 0, .addB64 gd 0 0 61, .cvtq gd 16 0 0 0, .cvtq gd 0 8 0 0, .cvtq gd 0 0 61 0, .cmpS32 gd 0 8 0 0, .voteAny gd 0 8,
    .gadd 8 0 0 0, .gadd 7 64 0 0, .gcmp 7 0 8 0 0, .gbc 7 2 0, .rngnBm gd 57, .lwalk gd 0 0 58, .resn gd 32, .march gd 15 0 0,
    .ldg gd 15 0 0 ⟨4, 0, 7, 0, 0, 0⟩, .mxdrain gd 0 1 0 0, .mxdrain gd 1 0 1 0, .ldLx gd 6 29 0 0 ⟨4, 0, 7, 0, 0, 0⟩,
    .ldLx gd 6 3 0 0 ⟨4, 0, 7, 0, 0, 0⟩, .stLx gd 4 29 0 0 ⟨4, 0, 7, 0, 0, 0⟩, .cas gd 60 0 0 ⟨4, 7, 0, 0, 4, 0⟩,
    .cas gd 29 0 0 ⟨4, 7, 0, 0, 4, 0⟩, .cas gd 25 0 0 ⟨4, 7, 0, 0, 7, 0⟩, .cvt gd 30 0 0 12 0, .cvt gd 0 30 12 0 0] : List Instr),
    i.wf = false := by decide +kernel

/-- Qualifiers and values (R353): those that a description does not list are refused. -/
theorem test_wf_values : ∀ i ∈ ([.lea gd 5 0 0 0, .cmpS32 gd 6 0 0 0, .addB32Imm gd 0 0 512, .shlB32Imm gd 0 0 32, .frndF32 gd 4 0 0,
    .reduxF32 gd 3 0 0, .rng gd 0 3, .hitattr gd 0 24, .ldLsB32 gd 0 0 1 0, .ldSpB32 gd 0 0 8 0, .ldGmB32 gd 0 0 0 64,
    .ldLx gd 7 0 0 0 ⟨4, 0, 7, 0, 0, 0⟩, .ldLx gd 4 0 0 0 ⟨6, 0, 7, 0, 0, 0⟩, .ldLx gd 4 0 0 0 ⟨1, 1, 7, 0, 0, 0⟩,
    .ldLx gd 4 0 0 0 ⟨4, 1, 7, 1, 0, 0⟩, .ldLx gd 4 0 0 0 ⟨4, 3, 7, 0, 0, 0⟩, .ldLx gd 4 0 0 0 ⟨4, 0, 10, 0, 0, 0⟩,
    .ldLx gd 4 0 0 0 ⟨4, 0, 7, 2, 0, 0⟩, .ldLx gd 4 0 0 0 ⟨4, 0, 7, 0, 1, 0⟩, .ldLx gd 4 0 0 0 ⟨4, 0, 7, 0, 0, 65536⟩,
    .stLx gd 5 0 0 0 ⟨4, 0, 7, 0, 0, 0⟩, .stLx gd 2 0 0 0 ⟨5, 0, 7, 0, 0, 0⟩, .stLx gd 2 0 0 0 ⟨4, 0, 7, 1, 0, 0⟩,
    .ldg gd 0 0 0 ⟨0, 0, 7, 0, 0, 0⟩, .ldg gd 0 0 0 ⟨4, 0, 7, 1, 0, 0⟩, .atomAdd gd 0 0 0 ⟨0, 7, 0, 0, 0, 0⟩,
    .atomAdd gd 0 0 0 ⟨4, 7, 4, 0, 0, 0⟩, .atomAdd gd 0 0 0 ⟨4, 7, 0, 0, 1, 0⟩, .atomAdd gd 0 0 0 ⟨4, 7, 0, 0, 0, 4096⟩,
    .atomMin gd 0 0 0 ⟨4, 7, 0, 0, 0, 0⟩, .atomAnd gd 0 0 0 ⟨4, 7, 0, 0, 3, 0⟩, .atomExch gd 0 0 0 ⟨4, 7, 0, 0, 1, 0⟩,
    .prefetch gd 0 0 3 0, .fmaF32 gd 0 0 0 0 5, .selB32 gd 0 0 0 16, .cvt gd 0 0 14 0 0, .cvt gd 0 0 0 14 0, .cvt gd 0 0 0 0 5,
    .dqv gd 0 0 0 8, .mxsign gd 16 0, .mxdrain gd 4 0 0 0, .trace gd 16 0 0 0 0, .resm gd 4 0 0 0 0, .gcmp 7 10 0 0 0, .gmovImm 7 0 65536,
    .gshlImm 7 0 64, .gld 7 0 0 64, .br 7 4 0, .br 7 0 524288, .call 7 2 0, .rcvSet 7 16, .loop 7 0 0, .loop 7 0 257, .grow 7 0, .grow 7 8,
    .wait true 64 0 0 0, .xfence 7 8 0 0, .xfence 7 0 0 10, .tdec 7 10 0 0, .csrr 7 0 0x13, .trap 7 4096, .launch 7 0 0 2 0,
    .launch 7 0 0 0 4294967296, .copyDirect 7 0 0 0] : List Instr), i.wf = false := by decide +kernel

/-- The neighbours on the other side of those bounds are admitted. -/
theorem test_wf_admits : ∀ i ∈ ([.addB32 gd 60 63 61, .addB64 gd 60 29 60, .cvtq gd 15 7 60 7, .rngnBm gd 56, .rngnBm gd 60, .lwalk gd 60 29 57,
    .resn gd 31, .march gd 14 15 60, .mxdrain gd 0 6 6 60, .mxdrain gd 3 7 6 60, .ldLx gd 6 28 0 60 ⟨3, 0, 9, 1, 7, 65535⟩,
    .ldLx gd 4 0 0 60 ⟨4, 2, 7, 0, 0, 0⟩, .stLx gd 4 60 0 60 ⟨4, 0, 7, 2, 0, 0⟩, .cas gd 28 0 60 ⟨4, 7, 3, 0, 4, 4095⟩,
    .cas gd 26 0 60 ⟨4, 7, 3, 0, 7, 0⟩, .atomExch gd 28 0 60 ⟨1, 0, 0, 7, 7, 0⟩, .lea gd 4 0 0 61, .hitattr gd 0 23, .gcmp 7 9 7 63 63,
    .loop 7 63 256, .grow 7 7, .csrw 7 0 0x32, .copyDirect 7 0 0 1] : List Instr), i.wf = true := by decide +kernel

/-- Every check is met by a word: one whose fields break it is refused by name (R353, R354). -/
theorem test_wf_by_decoder : decodeWords 0xFFFFFFFF 0 = .error .reservedCode ∧ decodeWords 0x00FE8000 0 = .error .illegalOperand ∧
    decodeWords 0x9DC00010 0 = .error .unusedField := by decide +kernel

/-- One-word instructions of the opcode table, from `ADD_B32` on: its fixed bits with a value in every field. -/
theorem test_decode_one_word_1 : ∀ x ∈ ([(0x1A20C18, .addB32 ⟨true, 5⟩ 4 6 3), (0x1A20C19, .subB32 ⟨true, 5⟩ 4 6 3), (0x1A20C1A, .mulB32 ⟨true, 5⟩ 4 6 3),
     (0x1A20C1B, .mulhiS32 ⟨true, 5⟩ 4 6 3), (0x1A20C1C, .mulhiN32 ⟨true, 5⟩ 4 6 3), (0x1A20C05, .absS32 ⟨true, 5⟩ 4 6),
     (0x1A20C06, .negS32 ⟨true, 5⟩ 4 6), (0x3A20C18, .minS32 ⟨true, 5⟩ 4 6 3), (0x3A20C19, .maxS32 ⟨true, 5⟩ 4 6 3),
     (0x3A20C1A, .minN32 ⟨true, 5⟩ 4 6 3), (0x3A20C1B, .maxN32 ⟨true, 5⟩ 4 6 3), (0x3A20C1C, .minS64 ⟨true, 5⟩ 4 6 3),
     (0x3A20C1D, .maxS64 ⟨true, 5⟩ 4 6 3), (0x3A20C1E, .minN64 ⟨true, 5⟩ 4 6 3), (0x3A20C1F, .maxN64 ⟨true, 5⟩ 4 6 3),
     (0x5A20C18, .addB64 ⟨true, 5⟩ 4 6 3), (0x5A20C19, .subB64 ⟨true, 5⟩ 4 6 3), (0x5A20C1A, .mulB64 ⟨true, 5⟩ 4 6 3),
     (0x5A20C1B, .mulhiS64 ⟨true, 5⟩ 4 6 3), (0x5A20C1C, .mulhiN64 ⟨true, 5⟩ 4 6 3), (0x5A20C05, .absS64 ⟨true, 5⟩ 4 6),
     (0x5A20C06, .negS64 ⟨true, 5⟩ 4 6), (0x7A20C18, .andB32 ⟨true, 5⟩ 4 6 3), (0x7A20C19, .orB32 ⟨true, 5⟩ 4 6 3),
     (0x7A20C1A, .xorB32 ⟨true, 5⟩ 4 6 3), (0x7A20C03, .notB32 ⟨true, 5⟩ 4 6), (0x7A20C04, .popcB32 ⟨true, 5⟩ 4 6),
     (0x7A20C05, .clzB32 ⟨true, 5⟩ 4 6), (0x7A20C06, .ctzB32 ⟨true, 5⟩ 4 6), (0x7A20C07, .brevB32 ⟨true, 5⟩ 4 6),
     (0x9A20C18, .shlB32 ⟨true, 5⟩ 4 6 3), (0x9A20C19, .shrB32 ⟨true, 5⟩ 4 6 3), (0x9A20C1A, .sraB32 ⟨true, 5⟩ 4 6 3),
     (0x9A20C1B, .rotB32 ⟨true, 5⟩ 4 6 3), (0x9A20C1C, .shlB64 ⟨true, 5⟩ 4 6 3), (0x9A20C1D, .shrB64 ⟨true, 5⟩ 4 6 3),
     (0x9A20C1E, .sraB64 ⟨true, 5⟩ 4 6 3), (0x9A20C1F, .rotB64 ⟨true, 5⟩ 4 6 3), (0xBA20C18, .bfeS32 ⟨true, 5⟩ 4 6 3),
     (0xBA20C19, .bfeN32 ⟨true, 5⟩ 4 6 3), (0xDA20C1B, .lea ⟨true, 5⟩ 3 4 6 3), (0xFA20C1A, .cmpS32 ⟨true, 5⟩ 2 4 6 3),
     (0x11A20C1A, .cmpN32 ⟨true, 5⟩ 2 4 6 3), (0x13A20C1A, .cmpS64 ⟨true, 5⟩ 2 4 6 3), (0x15A20C1A, .cmpN64 ⟨true, 5⟩ 2 4 6 3)]
    : List (Nat × Instr)), decodeTableWord 32 x.1 = some x.2 := by decide +kernel

/-- One-word instructions of the opcode table, from `ADD_B32_IMM` on: its fixed bits with a value in every field. -/
theorem test_decode_one_word_2 : ∀ x ∈ ([(0x17A20DFD, .addB32Imm ⟨true, 5⟩ 4 6 509), (0x19A20C15, .andB32Imm ⟨true, 5⟩ 4 6 21), (0x1BA20C15, .orB32Imm ⟨true, 5⟩ 4 6 21),
     (0x1DA20C15, .xorB32Imm ⟨true, 5⟩ 4 6 21), (0x1FA20C15, .shlB32Imm ⟨true, 5⟩ 4 6 21), (0x21A20C15, .shrB32Imm ⟨true, 5⟩ 4 6 21),
     (0x23A20C15, .sraB32Imm ⟨true, 5⟩ 4 6 21), (0x27A20C18, .faddF32 ⟨true, 5⟩ 4 6 3), (0x27A20C19, .fsubF32 ⟨true, 5⟩ 4 6 3),
     (0x27A20C1A, .fmulF32 ⟨true, 5⟩ 4 6 3), (0x27A20C1B, .fminF32 ⟨true, 5⟩ 4 6 3), (0x27A20C1C, .fmaxF32 ⟨true, 5⟩ 4 6 3),
     (0x27A20C05, .fabsF32 ⟨true, 5⟩ 4 6), (0x27A20C06, .fnegF32 ⟨true, 5⟩ 4 6), (0x29A20C18, .faddF16x2 ⟨true, 5⟩ 4 6 3),
     (0x29A20C19, .fsubF16x2 ⟨true, 5⟩ 4 6 3), (0x29A20C1A, .fmulF16x2 ⟨true, 5⟩ 4 6 3), (0x29A20C1B, .fminF16x2 ⟨true, 5⟩ 4 6 3),
     (0x29A20C1C, .fmaxF16x2 ⟨true, 5⟩ 4 6 3), (0x29A20C05, .fabsF16x2 ⟨true, 5⟩ 4 6), (0x29A20C06, .fnegF16x2 ⟨true, 5⟩ 4 6),
     (0x2BA20C18, .faddBf16x2 ⟨true, 5⟩ 4 6 3), (0x2BA20C19, .fsubBf16x2 ⟨true, 5⟩ 4 6 3), (0x2BA20C1A, .fmulBf16x2 ⟨true, 5⟩ 4 6 3),
     (0x2BA20C1B, .fminBf16x2 ⟨true, 5⟩ 4 6 3), (0x2BA20C1C, .fmaxBf16x2 ⟨true, 5⟩ 4 6 3), (0x2BA20C05, .fabsBf16x2 ⟨true, 5⟩ 4 6),
     (0x2BA20C06, .fnegBf16x2 ⟨true, 5⟩ 4 6), (0x2DA20C1A, .fcmpF32 ⟨true, 5⟩ 2 4 6 3), (0x2FA20C02, .frndF32 ⟨true, 5⟩ 2 4 6),
     (0x31A20C00, .rcp ⟨true, 5⟩ 4 6), (0x31A20C01, .rsq ⟨true, 5⟩ 4 6), (0x31A20C02, .sqrt ⟨true, 5⟩ 4 6),
     (0x31A20C1B, .div ⟨true, 5⟩ 4 6 3), (0x31A20C04, .exp2 ⟨true, 5⟩ 4 6), (0x31A20C05, .log2 ⟨true, 5⟩ 4 6),
     (0x31A20C06, .sin ⟨true, 5⟩ 4 6), (0x31A20C07, .cos ⟨true, 5⟩ 4 6), (0x33A20C00, .rcpx ⟨true, 5⟩ 4 6),
     (0x33A20C01, .rsqx ⟨true, 5⟩ 4 6), (0x33A20C02, .sqrtx ⟨true, 5⟩ 4 6), (0x33A20C1B, .divx ⟨true, 5⟩ 4 6 3),
     (0x33A20C04, .exp2x ⟨true, 5⟩ 4 6), (0x33A20C05, .log2x ⟨true, 5⟩ 4 6), (0x33A20C06, .sinx ⟨true, 5⟩ 4 6)]
    : List (Nat × Instr)), decodeTableWord 32 x.1 = some x.2 := by decide +kernel

/-- One-word instructions of the opcode table, from `COSX` on: its fixed bits with a value in every field. -/
theorem test_decode_one_word_3 : ∀ x ∈ ([(0x33A20C07, .cosx ⟨true, 5⟩ 4 6), (0x35A20C00, .tanh ⟨true, 5⟩ 4 6), (0x35A20C01, .tanhx ⟨true, 5⟩ 4 6),
     (0x39A20C18, .shflIdx ⟨true, 5⟩ 4 6 3), (0x39A20C19, .shflUp ⟨true, 5⟩ 4 6 3), (0x39A20C1A, .shflDown ⟨true, 5⟩ 4 6 3),
     (0x39A20C1B, .shflXor ⟨true, 5⟩ 4 6 3), (0x3BA20C00, .voteAny ⟨true, 5⟩ 4 6), (0x3BA20C01, .voteAll ⟨true, 5⟩ 4 6),
     (0x3BA20C02, .voteBallot ⟨true, 5⟩ 4 6), (0x3DA20C05, .reduxInt ⟨true, 5⟩ 5 4 6), (0x3FA20C02, .reduxF32 ⟨true, 5⟩ 2 4 6),
     (0x41A20C05, .scanInt ⟨true, 5⟩ 5 4 6), (0x43A20C02, .scanF32 ⟨true, 5⟩ 2 4 6), (0x45A20C18, .compress ⟨true, 5⟩ 4 6 3),
     (0x45A20C19, .expand ⟨true, 5⟩ 4 6 3), (0x47A20C25, .ldLsB32 ⟨true, 5⟩ 4 6 0 37), (0x49A20C25, .ldLsB64 ⟨true, 5⟩ 4 6 0 37),
     (0x4BA20C25, .stLsB32 ⟨true, 5⟩ 4 6 0 37), (0x4DA20C25, .stLsB64 ⟨true, 5⟩ 4 6 0 37), (0x4FA20CE5, .ldSpB32 ⟨true, 5⟩ 4 6 3 37),
     (0x51A20CE5, .ldSpB64 ⟨true, 5⟩ 4 6 3 37), (0x53A20CE5, .stSpB32 ⟨true, 5⟩ 4 6 3 37), (0x55A20CE5, .stSpB64 ⟨true, 5⟩ 4 6 3 37),
     (0x57A20C25, .ldGmB32 ⟨true, 5⟩ 4 6 0 37), (0x59A20C25, .ldGmB64 ⟨true, 5⟩ 4 6 0 37), (0x5BA20C25, .stGmB32 ⟨true, 5⟩ 4 6 0 37),
     (0x5DA20C25, .stGmB64 ⟨true, 5⟩ 4 6 0 37), (0x5FA20400, .rng ⟨true, 5⟩ 4 2), (0x5FA20001, .rngnBm ⟨true, 5⟩ 4),
     (0x5FA20002, .rngnInv ⟨true, 5⟩ 4), (0x5FA20C1B, .rngk ⟨true, 5⟩ 4 6 3), (0x61A20000, .resn ⟨true, 5⟩ 4),
     (0x61A20C01, .resld ⟨true, 5⟩ 4 6), (0x61A20C02, .resst ⟨true, 5⟩ 4 6), (0x63A20C00, .hitattr ⟨true, 5⟩ 4 6),
     (0x63A24018, .hitattrPg ⟨true, 5⟩ 4 3), (0x63A00C19, .accept ⟨true, 5⟩ 6 3), (0x63A00002, .ignore ⟨true, 5⟩),
     (0x63A00C1B, .term ⟨true, 5⟩ 6 3), (0x65A20C18, .lwalk ⟨true, 5⟩ 4 6 3), (0x80C41830, .gadd 3 4 6 3), (0x80C41831, .gsub 3 4 6 3),
     (0x80C41832, .gmul 3 4 6 3), (0x80C41833, .gand 3 4 6 3)]
    : List (Nat × Instr)), decodeTableWord 32 x.1 = some x.2 := by decide +kernel

/-- One-word instructions of the opcode table, from `GOR` on: its fixed bits with a value in every field. -/
theorem test_decode_one_word_4 : ∀ x ∈ ([(0x80C41834, .gor 3 4 6 3), (0x80C41835, .gxor 3 4 6 3), (0x80C41836, .gshl 3 4 6 3), (0x80C41837, .gshr 3 4 6 3),
     (0x80C41808, .gmov 3 4 6), (0x82C41832, .gcmp 3 2 4 6 3), (0x84C48001, .gmovImm 3 4 32769), (0x86C48001, .gaddImm 3 4 32769),
     (0x88C48001, .gorImm 3 4 32769), (0x8AC40015, .gshlImm 3 4 21), (0x8CC41A10, .gld 3 4 6 33), (0x8CC41A11, .gst 3 4 6 33),
     (0x8CC11802, .gbc 3 1 6), (0x90D7FFFC, .br 3 2 524284), (0x93C7FFFC, .jmp 524284), (0x94CFFFFC, .call 3 1 524284),
     (0x96C01800, .ret 3 6), (0x98C30000, .rcvSet 3 3), (0x98C30001, .rcvJoin 3 3), (0x9AC40100, .loop 3 4 256), (0x9CC00000, .endloop 3),
     (0x9CC00001, .yield 3), (0x9CC00002, .exit 3), (0x9EC01800, .segw 3 6), (0x9EC01801, .view 3 6), (0x9EC00042, .grow 3 4),
     (0x9EC00043, .shrink 3 4), (0xA125187E, .wait true 9 17 33 62), (0xA2D41C00, .xfence 3 2 4 7), (0xA2C00001, .barTeam 3),
     (0xA2C00002, .barCl 3), (0xA4C91830, .tdec 3 9 6 3), (0xA4C91831, .twait 3 9 6 3), (0xA6C01800, .wtime 3 6),
     (0xA6C40001, .rtime 3 4), (0xA8C90250, .csrr 3 9 37), (0xA8C90251, .csrw 3 9 37), (0xA8C0ABC2, .trap 3 2748), (0xA8C00003, .tret 3),
     (0xA8C00004, .tmask 3), (0xA8C00005, .tunmask 3), (0xA8C00006, .brk 3)]
    : List (Nat × Instr)), decodeTableWord 32 x.1 = some x.2 := by decide +kernel

/-- Words that the spec assembles (R349, R350, R367 to R461). -/
theorem test_decode_assembled : ∀ x ∈ ([(0x26210620, .faddF32 ⟨false, 1⟩ 2 3 4), (0x16E493FD, .addB32Imm ⟨false, 7⟩ 9 9 509), (0x4EE384C4, .ldSpB32 ⟨false, 7⟩ 7 2 3 4),
     (0x4EE38404, .ldSpB32 ⟨false, 7⟩ 7 2 0 4), (0x9090000F, .br 2 2 15), (0xA103FFC0, .wait true 0 63 63 0), (0x80441460, .gadd 1 4 5 6),
     (0x85C50020, .gmovImm 7 5 32), (0x81C60057, .gshr 7 6 0 5), (0x8DC00002, .gbc 7 0 0), (0x8DC11802, .gbc 7 1 6),
     (0x6E07DE1, .orB32 ⟨false, 7⟩ 0 62 60), (0xCE001EA, .lea ⟨false, 7⟩ 2 0 0 61), (0x1EE17A01, .shlB32Imm ⟨false, 7⟩ 2 61 1),
     (0x5AE10000, .stGmB32 ⟨false, 7⟩ 2 0 0 0), (0x9DC00002, .exit 7), (0xE28C3C, .mulhiN32 ⟨false, 7⟩ 5 6 7),
     (0x22E18805, .sraB32Imm ⟨false, 7⟩ 3 4 5), (0xEE1021A, .cmpS32 ⟨false, 7⟩ 2 2 1 3), (0x32E21200, .rcpx ⟨false, 7⟩ 4 9),
     (0x38E51663, .shflXor ⟨false, 7⟩ 10 11 12), (0x44E10608, .compress ⟨false, 7⟩ 2 3 1), (0xA1FFF03F, .wait true 63 63 0 63),
     (0xA3C81800, .xfence 7 1 0 6), (0xA3C00001, .barTeam 7), (0xA3C00002, .barCl 7), (0xA5C72090, .tdec 7 7 8 9),
     (0xA5C720A1, .twait 7 7 8 10), (0x81C10831, .gsub 7 1 2 3), (0x83C21052, .gcmp 7 2 2 4 5), (0x89C300FF, .gorImm 7 3 255),
     (0x8BC3000C, .gshlImm 7 3 12), (0x8DC90020, .gld 7 9 0 2), (0x90C7FFFC, .br 3 0 0x7FFFC), (0x93C7FFFC, .jmp 0x7FFFC),
     (0x99C30001, .rcvJoin 7 3), (0x9DC00000, .endloop 7), (0x9DC00001, .yield 7), (0x9FC01800, .segw 7 6), (0x9FC01801, .view 7 6),
     (0x9FC00042, .grow 7 4), (0x9FC00023, .shrink 7 2), (0xA7C03000, .wtime 7 12), (0xA7CD0001, .rtime 7 13),
     (0xA9C50210, .csrr 7 5 0x21), (0xA9C60231, .csrw 7 6 0x23), (0xA9C00072, .trap 7 7), (0xA9C00003, .tret 7), (0xA9C00004, .tmask 7),
     (0xA9C00005, .tunmask 7), (0xA9C00006, .brk 7), (0x9BC70002, .loop 7 7 2), (0x87C50001, .gaddImm 7 5 1), (0x95C00003, .call 7 0 3),
     (0x8DC40001, .gst 7 4 0 0), (0x97C0FC00, .ret 7 63), (0x60E32801, .resld ⟨false, 7⟩ 6 20), (0x60E32802, .resst ⟨false, 7⟩ 6 20),
     (0x60E30000, .resn ⟨false, 7⟩ 6), (0x64E304A0, .lwalk ⟨false, 7⟩ 6 2 20)]
    : List (Nat × Instr)), decodeTableWord 32 x.1 = some x.2 := by decide +kernel

/-- Two-word forms: those that the spec assembles, and the fields of R349 and R350 for the others. -/
theorem test_decode_two_words : ∀ x ∈ ([(0x9F50ABC75A20C18, .atomAdd ⟨true, 5⟩ 4 6 3 ⟨2, 7, 3, 5, 0, 0xABC⟩),
     (0x9F51ABC75A20C19, .atomMin ⟨true, 5⟩ 4 6 3 ⟨2, 7, 3, 5, 1, 0xABC⟩),
     (0x9F51ABC75A20C1A, .atomMax ⟨true, 5⟩ 4 6 3 ⟨2, 7, 3, 5, 1, 0xABC⟩),
     (0x9F50ABC75A20C1B, .atomAnd ⟨true, 5⟩ 4 6 3 ⟨2, 7, 3, 5, 0, 0xABC⟩),
     (0x9F50ABC75A20C1C, .atomOr ⟨true, 5⟩ 4 6 3 ⟨2, 7, 3, 5, 0, 0xABC⟩),
     (0x9F50ABC75A20C1D, .atomXor ⟨true, 5⟩ 4 6 3 ⟨2, 7, 3, 5, 0, 0xABC⟩),
     (0x9F50ABC75A20C1E, .atomExch ⟨true, 5⟩ 4 6 3 ⟨2, 7, 3, 5, 0, 0xABC⟩),
     (0x11C0800177A20C19, .stg ⟨true, 5⟩ 4 6 3 ⟨4, 0, 7, 0, 0, 0x8001⟩), (0x1400800177A00C1A, .prefetch ⟨true, 5⟩ 6 3 5 0x8001),
     (0x2400000079A20C18, .madB32 ⟨true, 5⟩ 4 6 3 9), (0x2400000079A20C19, .madB64 ⟨true, 5⟩ 4 6 3 9),
     (0x2404000079A20C1B, .fmaF16x2 ⟨true, 5⟩ 4 6 3 9 4), (0x2400000079A20C1C, .bfiB32 ⟨true, 5⟩ 4 6 3 9),
     (0x2400000079A20C1E, .fclampF32 ⟨true, 5⟩ 4 6 3 9), (0x240700007BA20C01, .cvtq ⟨true, 5⟩ 4 6 9 7),
     (0x700007BA20C1A, .dqv ⟨true, 5⟩ 4 6 3 7), (0xF2C90000, .copyBlockCmd 3 9), (0xF4C90000, .coll 3 9), (0xF6C90000, .strn 3 9),
     (0xF8C90000, .chain 3 9), (0x1800000078E1882A, .fmaF32 ⟨false, 7⟩ 3 4 5 6 0),
     (0x11D0004070E4022C, .ldLx ⟨false, 7⟩ 4 8 1 5 ⟨4, 0, 7, 1, 0, 0x40⟩), (0x4000078E0841D, .selB32 ⟨false, 7⟩ 1 2 3 4),
     (0x307AE38400, .cvt ⟨false, 7⟩ 7 2 0 3 0), (0x31C0000072E1884A, .stLx ⟨false, 7⟩ 2 3 4 9 ⟨4, 1, 7, 0, 0, 0⟩),
     (0x11C0000076E10DE0, .ldg ⟨false, 7⟩ 2 6 60 ⟨4, 0, 7, 0, 0, 0⟩), (0x11F0700074E215E7, .cas ⟨false, 7⟩ 4 10 60 ⟨4, 7, 3, 0, 7, 0⟩),
     (0x300027CE00E03, .ksignDecl ⟨false, 7⟩ 3 7), (0x300007CE00003, .ksign ⟨false, 7⟩ 3), (0x300017CE00003, .ksignWait ⟨false, 7⟩ 3),
     (0x200007CE00E00, .mxsign ⟨false, 7⟩ 2 7), (0x200017CE00E00, .mxsignWait ⟨false, 7⟩ 2 7),
     (0x300007CE101E1, .mxdrain ⟨false, 7⟩ 3 2 0 60), (0x7CE20452, .neval ⟨false, 7⟩ 4 2 10),
     (0x300000007EE3082B, .resu ⟨false, 7⟩ 6 4 5 12), (0x300000007EE3104C, .resm ⟨false, 7⟩ 0 6 8 9 12),
     (0x200000047EE20430, .trace ⟨false, 7⟩ 4 4 2 6 8), (0x200000007EE48431, .occl ⟨false, 7⟩ 0 9 2 6 8),
     (0x7EE30462, .march ⟨false, 7⟩ 6 2 12), (0x17EE30462, .marchRes ⟨false, 7⟩ 6 2 12), (0x11F1C82400, .launch 7 8 9 0 17),
     (0x1000F3D45401, .copyDirect 7 20 21 4096)]
    : List (Nat × Instr)), decodeTableWord 64 x.1 = some x.2 := by decide +kernel
/-! ## Witnesses: the step and decoding -/

/-- `placed` with its move taken from the agenda. -/
def moved : State := { placed with agenda := [] }

/-- `StepRunsDecoded`: an issue of one word, which decodes. -/
theorem witness_StepRunsDecoded_issue : ∃ g u' w1 w2 i, placed.agenda = .issue 0 0 0 :: [] ∧ shadowIn moved 0 0 = none ∧
    moved.group? 0 0 = some g ∧ groupMayIssue moved g = true ∧ cohortOf moved g 0 ≠ [] ∧
    fetchInstr moved g 0 (g.lane 0).pc.toNat = (u', .words w1 w2) ∧ decodeWords w1 w2 = .ok i ∧
    shadowOf { takeQuarter (dropArrived u' (fetchOwner g 0)) g with issue := ⟨0, 0, cohortOf moved g 0, (g.lane 0).pc, w1, w2⟩ } g = none := by
  obtain ⟨u, h⟩ := fetch_words (r := fetchInstr moved (grp moved) 0 0x10000) (w := (0x06FE79E1, 0)) (by decide +kernel)
  refine ⟨grp moved, u, _, _, .orB32 ⟨false, 7⟩ 60 60 60, rfl, by decide +kernel, by decide +kernel, by decide +kernel, by decide +kernel, h,
    by decide +kernel, ?_⟩
  have e : u = (fetchInstr moved (grp moved) 0 0x10000).1 := by rw [h]
  subst e
  decide +kernel

/-- The cause, level and address of a fetch that faults. -/
def fetchFault (r : Fetch) : Option (Nat × Nat × Nat) :=
  match r with
  | .fault c lv a => some (c, lv, a)
  | _ => none

/-- A fetch that faults. -/
theorem fetch_fault {r : State × Fetch} {w : Nat × Nat × Nat} (h : fetchFault r.2 = some w) : ∃ u, r = (u, .fault w.1 w.2.1 w.2.2) := by
  obtain ⟨u, e⟩ := r
  cases e with
  | fault a b c => exact ⟨u, by simp [fetchFault] at h; simp [← h]⟩
  | _ => simp [fetchFault] at h

/-- `placed` with its lanes at an address. -/
def placedAt (pc : Nat) : State := moved.updGroup 0 0 fun g => { g with lanes := g.lanes.map fun x => { x with pc := BitVec.ofNat 64 pc } }

/-- `StepRunsDecoded`: a reserved word, a fetch that faults, an issue that finds no group, and rows with and without an encoding. -/
theorem witness_StepRunsDecoded_others : (∃ e, decodeWords 0xFFFFFFFF 0 = .error e) ∧
    (let s := placedAt 0x80000000
     shadowIn s 0 0 = none ∧ s.group? 0 0 = some (grp s) ∧ groupMayIssue s (grp s) = true ∧ cohortOf s (grp s) 0 ≠ [] ∧
       ∃ u' c lv a, fetchInstr s (grp s) 0 0x80000000 = (u', .fault c lv a)) ∧
    moved.group? 1 0 = none ∧ shadowIn moved 1 0 = none ∧ encode .deviceTimeTick = none ∧ encode (.exit 7) ≠ none :=
  ⟨⟨.reservedCode, by decide +kernel⟩, ⟨by decide +kernel, by decide +kernel, by decide +kernel, by decide +kernel,
    (fetch_fault (w := (1, 3, 0x80000000)) (by decide +kernel)).imp fun _ h => ⟨_, _, _, h⟩⟩, by decide +kernel, by decide +kernel, by decide +kernel,
    by decide +kernel⟩

/-- `StepRunsDecoded`: the places of a one-word and of a two-word form. -/
theorem witness_StepRunsDecoded_fetch :
    (∃ u' p, translate placed (whoLane placed (grp placed) 0) .fetch 0x10000 = (u', .ok p) ∧ placed.links.reach 0 p = .here ∧
      (readPlace placed p 4).2 = false ∧ isTwoWord (readPlace placed p 4).1 = false) ∧
    let s := State.reset.withFetchWord 64 0x000000307AE38400
    (∃ u' p, translate s (whoLane s (grp s) 0) .fetch 0x10000 = (u', .ok p) ∧ s.links.reach 0 p = .here ∧ (readPlace s p 4).2 = false ∧
      isTwoWord (readPlace s p 4).1 = true) ∧
    ∃ u' p, translate s (whoLane s (grp s) 0) .fetch 0x10004 = (u', .ok p) ∧ s.links.reach 0 p = .here ∧ (readPlace s p 4).2 = false := by
  refine ⟨(place_of (p := .phys 0x10000) (by decide +kernel)).imp fun u h => ⟨_, h, by decide +kernel, by decide +kernel, by decide +kernel⟩,
    (place_of (p := .phys 0x10000) (by decide +kernel)).imp fun u h => ⟨_, h, by decide +kernel, by decide +kernel, by decide +kernel⟩,
    (place_of (p := .phys 0x10004) (by decide +kernel)).imp fun u h => ⟨_, h, by decide +kernel, by decide +kernel⟩⟩

/-- The group with a handler. -/
def handled : State := withG fun g => { g with tvec := 0x8000 }

/-- `DecodeSanity`, `ReservedWords`: lanes that can enter their handlers at a reserved group word, and at a reserved lane-set word inside and
outside the segment mask. -/
theorem witness_ReservedWords : (∃ w1 w2 i, decodeWords w1 w2 = .ok i) ∧ MayEnter handled (grp handled) ∧
    (let s := { handled with issue := { handled.issue with w1 := 0xFFFFFFFF } }
     MayEnter s (grp s) ∧ s.issue.w1 = 0xFFFFFFFF) ∧
    (let s := (withG fun g => { g with tvec := 0x8000, wlog := 4, segen := 1 })
     MayEnter s (grp s) ∧ s.issue.w1 < 2 ^ 31 ∧ (grp s).inSegment 0 = true ∧ (grp s).inSegment 16 = false) := by
  refine ⟨⟨0, 0, .addB32 ⟨false, 0⟩ 0 0 0, by decide +kernel⟩, ?_⟩
  unfold MayEnter
  decide +kernel

/-- `EncodeDecode`: a well-formed instruction with words. -/
theorem witness_EncodeDecode : ∃ i w, Instr.wf i = true ∧ encode i = some w :=
  ⟨.launch 7 8 9 0 17, (0xF1C82400, 0x11), by decide +kernel, by decide +kernel⟩

/-- `MemoryStaysCanonical`: reset, and a placed instruction whose step goes on. -/
theorem witness_MemoryStaysCanonical : MemOk State.reset ∧ MemOk placed ∧ ∃ t, step placed = .next t :=
  ⟨MemOk.reset, MemOk.reset.placeWord 32 _, next_of (by decide +kernel)⟩

/-! ## Witnesses: lane words that compute -/

/-- The forms of lane words that only compute fit in `base`: V, W, T and A operands at both ends of their classes (`IntegerTwoOperand` to
`RandomAndRecords`). -/
theorem witness_lane_forms : ∀ form ∈ ([⟨[.v 0, .v 59], [.v 60], true⟩, ⟨[.w 0, .w 29], [.w 60], true⟩, ⟨[.w 28, .v 61], [.w 29], true⟩,
    ⟨[.v 63], [.v 59], true⟩, ⟨[.w 60], [.w 0], true⟩, ⟨[.v 1, .v 2, .v 62], [.v 3], true⟩, ⟨[.w 1, .w 2, .w 3], [.w 4], true⟩,
    ⟨[.v 1, .v 2], [], true⟩, ⟨[.w 1, .w 2], [], true⟩, ⟨[.v 1, .v 2], [.v 3], false⟩, ⟨[], [], false⟩, ⟨[], [.v 3], false⟩,
    ⟨[.v 1], [.v 2], false⟩, ⟨[.a 7], [.t 15, .v 60], true⟩, ⟨[], [.v 0], true⟩, ⟨[], vRun 56 4, true⟩, ⟨[.v 1, .w 2, .w 3], [], true⟩,
    ⟨[.t 15, .w 0, .w 1, .v 4], [.t 15], true⟩, ⟨[.t 15, .t 0, .v 1, .v 2], [.t 15], true⟩, ⟨[.t 0], [.t 0], true⟩,
    dqvForm base 0 1 2 0] : List LaneForm), LaneFits base (grp base) form := by
  unfold LaneFits
  decide +kernel

/-- A group whose lanes are in shader state, in which a word that shader state allows fits. -/
theorem witness_lane_forms_shader : let s := withLanes fun x => { x with shader := true }
    inShader s = true ∧ LaneFits s (grp s) ⟨[.v 1, .v 2], [.v 3], true⟩ := by
  unfold LaneFits
  decide +kernel

/-! ## Witnesses: group words -/

/-- `GroupWords`, `GroupCompare`, `ControlRegisters`: a guard that reads 1 outside shader state, and one that reads 0. -/
theorem witness_GroupWords : GroupFits base (grp base) 7 formG ∧ inShader base = false ∧ predQ (grp base) 0 = false ∧
    base.issuing? = some (grp base) := by
  unfold GroupFits
  decide +kernel

/-- `TransfersAndLayout`: a transfer, an aligned `ret`, segments, views, and each case of `grow` and `shrink`. -/
theorem witness_TransfersAndLayout :
    (base.issuing? = some (grp base) ∧ inShader base = false ∧ predQ (grp base) 7 = true ∧ (regG (grp base) 1).toNat % 4 = 0) ∧
    (let s := withG64 4 0x00010005
     GroupFits s (grp s) 7 formG ∧ (regG (grp s) 4).toNat % 8 = 5 ∧ (regG (grp s) 4).toNat / 8 % 2 ^ 13 = 0 ∧ (regG (grp s) 4).toNat < 2 ^ 32) ∧
    (let s := withG64 4 0x001F1F1F
     GroupFits s (grp s) 7 formG ∧ 64 * ((regG (grp s) 4).toNat % 32) < 256 * (grp s).steps ∧
       64 * ((regG (grp s) 4).toNat / 2 ^ 8 % 32) < 256 * (grp s).steps ∧ 64 * ((regG (grp s) 4).toNat / 2 ^ 16 % 32) < 256 * (grp s).steps) ∧
    (8 < (grp base).steps + 1 ∧ 7 < (grp base).steps) ∧
    (let s := withG fun g => { g with steps := 4 }
     GroupFits s (grp s) 7 formG ∧ (grp s).steps + 4 ≤ 8 ∧ growRequests s (grp s).core = [] ∧ growRoom s (grp s) 4 = true) := by
  unfold GroupFits
  decide +kernel

/-- `LoopsAndReconvergence`: a loop with a count and one without, `endloop` at depth 1, and a `rcv.join` that waits and one that passes. -/
theorem witness_LoopsAndReconvergence :
    (GroupFits base (grp base) 7 formG ∧ (grp base).ldep < 3 ∧ (grp base).ldep = 0 ∧ (regG (grp base) 3).toNat % 2 ^ 32 ≠ 0 ∧
      (regG (grp base) 0).toNat % 2 ^ 32 = 0) ∧
    (let s := withG fun g => { g with ldep := 1, loops := [⟨2, 8, 0x10020, 0xFFFFFFFF⟩, default, default] }
     GroupFits s (grp s) 7 formG ∧ (grp s).ldep ≠ 0 ∧ (s.issue.pc + BitVec.ofNat 64 (4 * 8)).toNat ≤ ((grp s).loops.getD 0 default).last.toNat) ∧
    (let s := only (withG fun g => { g with bars := g.bars.set 3 ⟨3, 0⟩ }) [0]
     GroupFits s (grp s) 7 formRefused ∧ 3 < (grp s).bars.length ∧ s.issue.len = 4 ∧
       ((grp s).bars.getD 3 default).mask &&& ~~~(((grp s).bars.getD 3 default).arr ||| maskOf [0]) ≠ 0) ∧
    (let s := withG fun g => { g with bars := g.bars.set 15 ⟨3, 0⟩ }
     GroupFits s (grp s) 7 formRefused ∧ 15 < (grp s).bars.length ∧
       ((grp s).bars.getD 15 default).arr ||| maskOf [0, 1] ≠ 0 ∧
       ((grp s).bars.getD 15 default).mask &&& ~~~(((grp s).bars.getD 15 default).arr ||| maskOf [0, 1]) = 0) := by
  unfold GroupFits
  decide +kernel

/-- `WaitsAndFences`: a `wait` that holds and one that does not, a fence at `die` scope, the three cases of `yield`, and both of `wtime`. -/
theorem witness_WaitsAndFences :
    (GroupFits base (grp base) 7 formPlain ∧ base.issue.lanes.foldl (fun m l => max m ((grp base).lane l).ld) 0 ≤ 0 ∧ base.ms.sb = [] ∧
      pathBusy (advance base) (grp base) base.issue.lanes 0 = false ∧ releaseWaits (advance base) (grp base) base.issue.lanes 6 = false) ∧
    (let s := withLanes fun x => { x with ld := 5 }
     GroupFits s (grp s) 7 formPlain ∧ ¬s.issue.lanes.foldl (fun m l => max m ((grp s).lane l).ld) 0 ≤ 4) ∧
    (let s := withRec fun r => { r with detm := true }
     GroupFits s (grp s) 7 formRefused ∧ detmOf s (grp s) = true) ∧
    (GroupFits base (grp base) 7 formRefused ∧ detmOf base (grp base) = false ∧ rivalWaits (advance base) (grp base) = false) ∧
    (let s := { base with groups := base.groups ++ [{ grp base with slot := 4, active := false }] }
     GroupFits s (grp s) 7 formRefused ∧ detmOf s (grp s) = false ∧ rivalWaits (advance s) (grp s) = true) ∧
    (GroupFits base (grp base) 7 formG ∧ (regG (grp base) 0).toNat ≤ base.time.now ∧ base.time.now < (regG (grp base) 3).toNat) := by
  unfold GroupFits
  decide +kernel

/-- `ExitAndBarriers`: one lane that arrives where others are missing, all lanes that arrive, and a team in which no lane waits. -/
theorem witness_ExitAndBarriers :
    (let s := only base [0]
     GroupFits s (grp s) 7 formRefused ∧ s.issue.len = 4 ∧ rollbackOn s 0 = false ∧ releaseWaits (advance s) (grp s) s.issue.lanes 3 = false ∧
       teamArrived (yieldQuarter (waitHere (advance s) s.issue.lanes .barTeam) 0 0) 0 .barTeam = false ∧
       teamArrived (yieldQuarter (waitHere (advance s) s.issue.lanes .barCl) 0 0) 0 .barCl = false) ∧
    ((base.team? (grp base).team).map Team.id = some (grp base).team ∧ releaseWaits (advance base) (grp base) base.issue.lanes 5 = false ∧
      (base.team? 0).map (fun u => (base.clusterTeams u).map Team.id) = some [0] ∧
      teamArrived (yieldQuarter (waitHere (advance base) base.issue.lanes .barTeam) 0 0) 0 .barTeam = true ∧
      teamArrived (yieldQuarter (waitHere (advance base) base.issue.lanes .barCl) 0 0) 0 .barCl = true) ∧
    (∀ h ∈ base.groups, ∀ x ∈ h.lanes, x.wait = .none ∧ x.home = none) ∧
    ((base.team? 0).map fun u => (u.keyrings.all (fun k => !k.open_), u.latched)) = some (true, none) := by
  unfold GroupFits
  decide +kernel

/-- `Handlers`, `SoftwareTraps`: lanes at depth 0 with a handler, and lanes that stand in one. -/
theorem witness_Handlers :
    (GroupFits handled (grp handled) 7 formRefused ∧ handled.issue.lanes.Nodup ∧ (grp handled).tvec ≠ 0 ∧ (grp handled).inStore = true ∧
      (∀ l ∈ handled.issue.lanes, l < (grp handled).lanes.length ∧ ((grp handled).lane l).tdep < 2 ∧ ((grp handled).lane l).home = none ∧
        ((grp handled).lane l).slice.wf = true ∧ entryFatal (grp handled) ((grp handled).lane l) = false) ∧
      ((handled.team? (grp handled).team).map fun u => u.latched) = some none) ∧
    (let s := withG fun g => { g with tvec := 0x8000, lanes := g.lanes.map fun x => { x with tdep := 1 } }
     GroupFits s (grp s) 7 formRefused ∧ (∀ l ∈ s.issue.lanes, ((grp s).lane l).tdep ≠ 0 ∧ ((grp s).lane l).home = none ∧
       entryFatal (grp s) ((grp s).lane l) = false) ∧ (grp s).inStore = true) := by
  unfold GroupFits
  decide +kernel

/-! ## Witnesses: lane memory -/

/-- Lanes 0 and 1 about to issue, with an address in W0. -/
def memS (a : Nat) : State := only (withW 0 a) [0, 1]
/-- What the accesses of R394 check for some lanes, each at one address. -/
def check (s s₀ : State) (sp n : Nat) (acc : Acc) (act : List Nat) (addr : Nat → Word64) : State × List (Nat × Word64 × Check) :=
  checkAll s₀ (grp s) sp n acc 0 (act.map fun l => (l, addr l))

/-- Accesses that go ahead and that no budget holds. -/
theorem goes_of {s s₀ : State} {act : List Nat} {sp n : Nat} {acc : Acc} {c : Counter} {addr : Nat → Word64} {ps : List (Nat × Place × Word64)}
    (h₁ : memBusy s (grp s) act sp n 0 c (act.map fun l => (l, addr l)) = false)
    (h₂ : (check s s₀ sp n acc act addr).2 = ps.map fun x => (x.1, x.2.2, .ok x.2.1))
    (h₃ : trafficHeld (check s s₀ sp n acc act addr).1 (grp s) (ps.map fun x => x.2.1) = false) :
    ∃ s₁, AccessGoes s s₀ s₁ (grp s) act sp n acc c addr ps ∧ trafficHeld s₁ (grp s) (ps.map fun x => x.2.1) = false :=
  ⟨_, ⟨h₁, Prod.ext rfl h₂⟩, h₃⟩

/-- A form fits in a state. -/
theorem fits_of {s : State} {form : LaneForm}
    (h : s.issuing? = some (grp s) ∧ (∀ r ∈ form.srcs ++ form.dsts, r.past (grp s) = false) ∧ inShader s = false) : LaneFits s (grp s) form :=
  ⟨h.1, h.2.1, fun hs => by rw [h.2.2] at hs; cases hs⟩

/-- `Loads`: short loads from `.ls`, `.sp` and `.gm`, and a long acquiring one. -/
theorem witness_Loads :
    (let s := memS 0x100
     LaneFits s (grp s) ⟨[.w 0], [.v 8], true⟩ ∧ ∃ s₁ ps, AccessGoes s (advance s) s₁ (grp s) (activeLanes (grp s) gd s) 0 4 .read .ld
       (fun l => addrLM (grp s) ((grp s).lane l) 0 3 4 0) ps ∧ trafficHeld s₁ (grp s) (ps.map fun x => x.2.1) = false) ∧
    (let s := memS 0x200
     LaneFits s (grp s) ⟨[.w 0], [.w 60], true⟩ ∧ ∃ s₁ ps, AccessGoes s (advance s) s₁ (grp s) (activeLanes (grp s) gd s) 1 8 .read .ld
       (fun l => addrLM (grp s) ((grp s).lane l) 0 3 8 0) ps ∧ trafficHeld s₁ (grp s) (ps.map fun x => x.2.1) = false) ∧
    (let s := memS 0x20000
     let m : MemX := ⟨4, 0, 7, 1, 0, 0x40⟩
     m.cls = 0 ∧ LaneFits s (grp s) ⟨[.w 0, .v 5], [.v 8], true⟩ ∧ ∃ s₁ ps, AccessGoes s (advance s) s₁ (grp s) (activeLanes (grp s) gd s) m.space 4
       .read .ld (fun l => addrLX (grp s) l ((grp s).lane l) 0 5 16 m.imm m.swz false) ps ∧
       trafficHeld s₁ (grp s) (ps.map fun x => x.2.1) = false) := by
  refine ⟨⟨fits_of (by decide +kernel), ?_⟩, ⟨fits_of (by decide +kernel), ?_⟩, rfl, fits_of (by decide +kernel), ?_⟩
  · exact (goes_of (ps := [(0, .slice 0 0 0 0x10C, 0x10C), (1, .slice 0 0 1 0x10C, 0x10C)]) (by decide +kernel) (by decide +kernel)
      (by decide +kernel)).imp fun _ h => ⟨_, h⟩
  · exact (goes_of (ps := [(0, .sp 0 0x218, 0x218), (1, .sp 0 0x218, 0x218)]) (by decide +kernel) (by decide +kernel)
      (by decide +kernel)).imp fun _ h => ⟨_, h⟩
  · exact (goes_of (ps := [(0, .phys 0x20040, 0x20040), (1, .phys 0x20040, 0x20040)]) (by decide +kernel) (by decide +kernel)
      (by decide +kernel)).imp fun _ h => ⟨_, h⟩

/-- `StoresToMemory`: a short store and a long releasing one. -/
theorem witness_StoresToMemory :
    (let s := memS 0x20000
     LaneFits s (grp s) ⟨[.w 0, .v 8], [], true⟩ ∧ ∃ s₁ ps, AccessGoes s (advance s) s₁ (grp s) (activeLanes (grp s) gd s) 4 4 .write .st
       (fun l => addrLM (grp s) ((grp s).lane l) 0 0 4 0) ps) ∧
    (let s := memS 0x20000
     let m : MemX := ⟨4, 0, 7, 2, 0, 0⟩
     let act := activeLanes (grp s) gd s
     m.cls = 0 ∧ m.space = 4 ∧ LaneFits s (grp s) ⟨[.w 0, .v 60] ++ [.w 2, .w 3], [], true⟩ ∧
       releaseWaits (afterRelease s (grp s) act true 7) (grp s) act 7 = false ∧
       ∃ s₁ ps, AccessGoes s (afterRelease s (grp s) act true 7) s₁ (grp s) act 4 16 .write .st
         (fun l => addrLX (grp s) l ((grp s).lane l) 0 60 16 m.imm m.swz false) ps) := by
  refine ⟨⟨fits_of (by decide +kernel), ?_⟩, rfl, rfl, fits_of (by decide +kernel), by decide +kernel, ?_⟩
  · exact (goes_of (ps := [(0, .phys 0x20000, 0x20000), (1, .phys 0x20000, 0x20000)]) (by decide +kernel) (by decide +kernel)
      (by decide +kernel)).imp fun _ h => ⟨_, h.1⟩
  · exact (goes_of (ps := [(0, .phys 0x20000, 0x20000), (1, .phys 0x20000, 0x20000)]) (by decide +kernel) (by decide +kernel)
      (by decide +kernel)).imp fun _ h => ⟨_, h.1⟩

/-- `StoresToScratchpads`: a store to the last word of the lane slice, and a store to the core scratchpad. -/
theorem witness_StoresToScratchpads :
    (let s := memS 0x7FC
     let act := activeLanes (grp s) gd s
     (∀ l ∈ act, l < (grp s).lanes.length) ∧ LaneFits s (grp s) ⟨[.w 0, .v 8], [], true⟩ ∧
       ∃ s₁ ps, AccessGoes s (advance s) s₁ (grp s) act 0 4 .write .st (fun l => addrLM (grp s) ((grp s).lane l) 0 0 4 0) ps ∧
         trafficHeld s₁ (grp s) (ps.map fun x => x.2.1) = false ∧ ∀ x ∈ ps, ∀ k, k < 4 → (x.2.1.plus k).own s₁) ∧
    (let s := memS 0x200
     let act := activeLanes (grp s) gd s
     let m : MemX := ⟨1, 0, 3, 0, 2, 0⟩
     m.cls = 0 ∧ m.space < 4 ∧ LaneFits s (grp s) ⟨[.w 0, .v 60] ++ [.v 8], [], true⟩ ∧
       ∃ s₁ ps, AccessGoes s (afterRelease s (grp s) act false 3) s₁ (grp s) act 1 1 .write .st
         (fun l => addrLX (grp s) l ((grp s).lane l) 0 60 16 m.imm m.swz false) ps ∧
         trafficHeld s₁ (grp s) (ps.map fun x => x.2.1) = false ∧ ∀ x ∈ ps, ∀ k, k < 1 → (x.2.1.plus k).own s₁) := by
  refine ⟨⟨by decide +kernel, fits_of (by decide +kernel), ?_⟩, rfl, by decide, fits_of (by decide +kernel), ?_⟩
  · obtain ⟨s₁, h, h'⟩ := goes_of (s := memS 0x7FC) (s₀ := advance (memS 0x7FC)) (sp := 0) (n := 4) (acc := .write) (c := .st)
      (act := activeLanes (grp (memS 0x7FC)) gd (memS 0x7FC)) (addr := fun l => addrLM (grp (memS 0x7FC)) ((grp (memS 0x7FC)).lane l) 0 0 4 0)
      (ps := [(0, .slice 0 0 0 0x7FC, 0x7FC), (1, .slice 0 0 1 0x7FC, 0x7FC)]) (by decide +kernel) (by decide +kernel) (by decide +kernel)
    exact ⟨s₁, _, h, h', by simp [Place.plus, Place.own]⟩
  · obtain ⟨s₁, h, h'⟩ := goes_of (s := memS 0x200) (s₀ := afterRelease (memS 0x200) (grp (memS 0x200))
        (activeLanes (grp (memS 0x200)) gd (memS 0x200)) false 3) (sp := 1) (n := 1) (acc := .write) (c := .st)
      (act := activeLanes (grp (memS 0x200)) gd (memS 0x200)) (addr := fun l => addrLX (grp (memS 0x200)) l ((grp (memS 0x200)).lane l) 0 60 16 0 2 false)
      (ps := [(0, .sp 0 0x200, 0x200), (1, .sp 0 0x200, 0x200)]) (by decide +kernel) (by decide +kernel) (by decide +kernel)
    refine ⟨s₁, _, h, h', fun x hx k hk => ?_⟩
    obtain rfl : k = 0 := by omega
    simp at hx
    rcases hx with rfl | rfl <;> simp [Place.plus, Place.own]

/-- A partition with a pixel target of one tile at 0x20000 and order words at 0x40000. -/
def pixelS (a : Nat) : State := (memS a).updPart 0 fun q => { q with px := { q.px with base := 0x20000, bpp := 2, tcols := 1, trows := 1, ord := 0x40000 } }

/-- `OrderedAccesses`: a strict load inside the target and one past its last pixel, and an `inst` store. -/
theorem witness_OrderedAccesses :
    (∀ a ∈ [0x203FC, 0x20400], let s := pixelS a
     LaneFits s (grp s) ⟨[.w 0, .v 9], loadNamed 4 8, true⟩ ∧ ∃ s₁ s₂ ps ok, AccessGoes s (advance s) s₁ (grp s) (activeLanes (grp s) gd s) 4 4 .read .ld
       (fun l => addrLX (grp s) l ((grp s).lane l) 0 9 16 0 0 true) ps ∧ orderWords s₁ (grp s) 4 .read ps = (s₂, ok, []) ∧
       trafficHeld s₂ (grp s) (ok.map fun x => x.2.1) = false ∧
       ((a = 0x203FC ∧ ∀ x ∈ ok, x.2.2.2 ≠ none) ∨ (a = 0x20400 ∧ (∃ x ∈ ok, x.2.2.2 = none) ∧ s₂.partOf (grp s) < s₂.parts.length))) ∧
    (let s := pixelS 0x20000
     let act := activeLanes (grp s) gd s
     let s₀ := afterRelease s (grp s) act true 7
     LaneFits s (grp s) ⟨[.w 0, .v 9] ++ storeNamed 2 3, [], true⟩ ∧ releaseWaits s₀ (grp s) act 7 = false ∧
       ∃ s₁ s₂ ps ok, AccessGoes s s₀ s₁ (grp s) act 4 4 .write .st (fun l => addrLX (grp s) l ((grp s).lane l) 0 9 16 0 0 false) ps ∧
         orderWords s₁ (grp s) 4 .write ps = (s₂, ok, []) ∧ trafficHeld s₂ (grp s) (ok.map fun x => x.2.1) = false ∧ ∀ x ∈ ok, x.2.2.2 ≠ none) := by
  have key : ∀ (s s₀ : State) (acc : Acc) (a : Word64) (c : Counter) (strict : Bool) (o : Option (Nat × Place)),
      let act := activeLanes (grp s) gd s
      let addr := fun l => addrLX (grp s) l ((grp s).lane l) 0 9 16 0 0 strict
      let ps : List (Nat × Place × Word64) := [(0, .phys a.toNat, a), (1, .phys a.toNat, a)]
      let ok : List (Nat × Place × Word64 × Option (Nat × Place)) := [(0, .phys a.toNat, a, o), (1, .phys a.toNat, a, o)]
      memBusy s (grp s) act 4 4 0 c (act.map fun l => (l, addr l)) = false →
      (check s s₀ 4 4 acc act addr).2 = ps.map (fun x => (x.1, x.2.2, .ok x.2.1)) →
      (orderWords (check s s₀ 4 4 acc act addr).1 (grp s) 4 acc ps).2.1 = ok →
      (orderWords (check s s₀ 4 4 acc act addr).1 (grp s) 4 acc ps).2.2 = [] →
      trafficHeld (orderWords (check s s₀ 4 4 acc act addr).1 (grp s) 4 acc ps).1 (grp s) (ok.map fun x => x.2.1) = false →
      (orderWords (check s s₀ 4 4 acc act addr).1 (grp s) 4 acc ps).1.partOf (grp s) <
        (orderWords (check s s₀ 4 4 acc act addr).1 (grp s) 4 acc ps).1.parts.length →
      ∃ s₁ s₂, AccessGoes s s₀ s₁ (grp s) act 4 4 acc c addr ps ∧ orderWords s₁ (grp s) 4 acc ps = (s₂, ok, []) ∧
        trafficHeld s₂ (grp s) (ok.map fun x => x.2.1) = false ∧ s₂.partOf (grp s) < s₂.parts.length := by
    intro s s₀ acc a c strict o act addr ps ok h₁ h₂ h₃ h₃' h₄ h₅
    exact ⟨_, _, ⟨h₁, Prod.ext rfl h₂⟩, Prod.ext rfl (Prod.ext h₃ h₃'), h₄, h₅⟩
  refine ⟨fun a ha => ?_, fits_of (by decide +kernel), by decide +kernel, ?_⟩
  · simp at ha
    rcases ha with rfl | rfl
    · obtain ⟨s₁, s₂, h, h', h'', -⟩ := key (pixelS 0x203FC) (advance (pixelS 0x203FC)) .read 0x203FC .ld true (some (255, .phys 0x403FC))
        (by decide +kernel) (by decide +kernel) (by decide +kernel) (by decide +kernel) (by decide +kernel) (by decide +kernel)
      exact ⟨fits_of (by decide +kernel), s₁, s₂, _, _, h, h', h'', .inl ⟨rfl, by simp⟩⟩
    · obtain ⟨s₁, s₂, h, h', h'', h₅⟩ := key (pixelS 0x20400) (advance (pixelS 0x20400)) .read 0x20400 .ld true none
        (by decide +kernel) (by decide +kernel) (by decide +kernel) (by decide +kernel) (by decide +kernel) (by decide +kernel)
      exact ⟨fits_of (by decide +kernel), s₁, s₂, _, _, h, h', h'', .inr ⟨rfl, by simp, h₅⟩⟩
  · obtain ⟨s₁, s₂, h, h', h'', -⟩ := key (pixelS 0x20000) (afterRelease (pixelS 0x20000) (grp (pixelS 0x20000))
        (activeLanes (grp (pixelS 0x20000)) gd (pixelS 0x20000)) true 7) .write 0x20000 .st false (some (0, .phys 0x40000))
      (by decide +kernel) (by decide +kernel) (by decide +kernel) (by decide +kernel) (by decide +kernel) (by decide +kernel)
    exact ⟨s₁, s₂, _, _, h, h', h'', by simp⟩

/-- `Atomics`: one Active lane, at a place of its die, in an acquire-release add. -/
theorem witness_Atomics : let s := only (withW 0 0x20000) [5]
    let m : AtomX := ⟨4, 7, 3, 0, 0, 0⟩
    let act := activeLanes (grp s) gd s
    let s₀ := afterRelease s (grp s) act true 7
    act = [5] ∧ LaneFits s (grp s) (atomForm 3 0 60 m) ∧ releaseWaits s₀ (grp s) act 7 = false ∧ chipPending s (grp s) act = false ∧
      ∃ s₁, AccessGoes s s₀ s₁ (grp s) act m.space 4 .atomic .ld (fun l => addrLX (grp s) l ((grp s).lane l) 0 60 12 m.off m.swz false)
        [(5, .phys 0x20000, 0x20000)] ∧ trafficHeld s₁ (grp s) [.phys 0x20000] = false ∧ onDie 0 (.phys 0x20000) = true ∧
        (readPlace (drainOverlap (markInterval (countUp s₁ 0 0 [5] .ld) (grp s)) 0 (.phys 0x20000)) (.phys 0x20000) 4).2 = false ∧
        detmWriter s₁ 0 0 = none := by
  refine ⟨by decide +kernel, fits_of (by decide +kernel), by decide +kernel, by decide +kernel, _, ⟨by decide +kernel, Prod.ext rfl ?_⟩,
    by decide +kernel, by decide +kernel, by decide +kernel, by decide +kernel⟩
  decide +kernel

/-- The lanes whose T3 holds the indices of the gather of R401, and W6 an address. -/
def gatherS : State := only (withLanes fun x => { x with regs := (((List.range 16).foldl (fun r k =>
  r.writeN (64 * 3 + 4 * k) 4 (if k = 0 then 0 else if k = 1 then 5 else if k = 3 then 0xFFFFFFFF else 0x80000000)) x.regs).writeN 48 8 0x20100) }) [0, 1]

/-- `GathersAndScatters`: the gather of the example of R401, and a scatter through the same indices. -/
theorem witness_GathersAndScatters : ∀ (acc : Acc) (c : Counter) (form : LaneForm), (acc, c, form) ∈ ([(.read, .ld, ⟨[.w 6, .v 60, .t 3], [.t 2], true⟩),
      (.write, .st, ⟨[.w 6, .v 60, .t 2, .t 3], [], true⟩)] : List (Acc × Counter × LaneForm)) →
    let s := gatherS
    let act := activeLanes (grp s) gd s
    let elems (l : Nat) : List (Option Word64) := (List.range 16).map fun k =>
      let i := wordAt (readT (grp s) ((grp s).lane l) (2 + 1)) k
      if i = 0x80000000 then none
      else some (BitVec.ofNat 64 (swizzle 0 (addrLX (grp s) l ((grp s).lane l) 6 60 16 0 0 false + 4 * BitVec.ofInt 64 (signedOf 32 i)).toNat))
    let flat := act.flatMap fun l => (elems l).filterMap fun o => o.map fun w => (l, w)
    LaneFits s (grp s) form ∧ memBusy s (grp s) act 4 4 3 c flat = false ∧
      ∃ s₁ es, checkGather (advance s) (grp s) 4 acc (act.map fun l => (l, elems l)) = (s₁, es) ∧ (∀ x ∈ es, elemFails x = []) ∧
        trafficHeld s₁ (grp s) (es.flatMap fun x => (elemPlaces x.2).filterMap id) = false ∧
        (es.flatMap fun x => (elemPlaces x.2).filterMap id) = [.phys 0x20100, .phys 0x20114, .phys 0x200FC, .phys 0x20100, .phys 0x20114, .phys 0x200FC] ∧
        detmWriter s₁ 0 0 = none := by
  intro acc c form h
  simp at h
  rcases h with ⟨rfl, rfl, rfl⟩ | ⟨rfl, rfl, rfl⟩ <;>
    exact ⟨fits_of (by decide +kernel), by decide +kernel, _, _, rfl, by decide +kernel, by decide +kernel, by decide +kernel, by decide +kernel⟩

/-- A partition with a reservoir screen of one tile and a backing at 0x100000, and the coordinate of the last pixel of plane 0 in V20. -/
def resS : State := (only (withV 20 0xFF) [0, 1]).updPart 0 fun q => { q with
  res := { q.res with back0 := 0x100000, geom := ⟨0x10001, 0x10001, 0x10001⟩ } }

/-- `ReservoirMemory`: coordinates that pass, for a load and for a store. -/
theorem witness_ReservoirMemory : ∀ (acc : Acc) (c : Counter) (form : LaneForm), (acc, c, form) ∈ ([(.read, .ld, ⟨[.v 20], [.t 3], true⟩),
      (.write, .st, ⟨[.t 3, .v 20], [], true⟩)] : List (Acc × Counter × LaneForm)) →
    let s := resS
    let act := activeLanes (grp s) gd s
    LaneFits s (grp s) form ∧ memBusy s (grp s) act 4 32 0 c [] = false ∧
      ∃ (s₁ : State) (ps : List (Nat × Place × Word64)), checkCoords (advance s) (grp s) acc (act.map fun l => (l, BitVec.ofNat 64 (srcV (grp s) l ((grp s).lane l) 20).toNat)) =
        (s₁, ps.map fun x => (x.1, x.2.2, .ok x.2.1)) ∧ ps.length = 2 ∧ trafficHeld s₁ (grp s) (ps.map fun x => x.2.1) = false := by
  intro acc c form h
  simp at h
  rcases h with ⟨rfl, rfl, rfl⟩ | ⟨rfl, rfl, rfl⟩ <;>
    exact ⟨fits_of (by decide +kernel), by decide +kernel, _, [(0, .phys 0x101FE0, 0x101FE0), (1, .phys 0x101FE0, 0x101FE0)],
      Prod.ext rfl (by decide +kernel), rfl, by decide +kernel⟩

/-- `PrefetchAndGroupMemory`: a prefetch, `gld`, `gst`, `tdec` and a `twait` whose tumbler is at most its bound. -/
theorem witness_PrefetchAndGroupMemory :
    LaneFits base (grp base) ⟨[.w 0, .v 60], [], true⟩ ∧
    (let s := withG64 8 0x20000
     let ls := s.issue.lanes
     GroupFits s (grp s) 7 formG ∧ countFull (grp s) ls .ld = false ∧ countFull (grp s) ls .st = false ∧ acquirePending s (grp s) ls 0 = false ∧
       releaseWaits (releaseDrain (advance s) (grp s) 7) (grp s) ls 7 = false ∧
       (∀ acc ∈ [Acc.read, .write, .atomic], ∃ s₁ p, checkAddr (advance s) (grp s) (ls.headD 0) 4 (regG (grp s) 8 + BitVec.ofNat 64 (8 * 2)) 8 acc 0 =
         (s₁, .ok p) ∧ trafficHeld s₁ (grp s) [p] = false ∧ s₁.ms.sb = []) ∧
       (readPlace s (.phys 0x20000) 8).2 = false ∧ (regG (grp s) 8).toNat % 8 = 0 ∧
       let w := { waitHere (advance s) ls (.tumbler s.fresh (regG (grp s) 8) (regG (grp s) 0) (effScope (regG (grp s) 8).toNat 7)) with
         fresh := s.fresh + 1 }
       ∃ s₂ bs, unitAcquire (drainTumbler w (grp s) (regG (grp s) 8)) s.fresh (whoLane s (grp s) 0) (effScope (regG (grp s) 8).toNat 7)
           (regG (grp s) 8).toNat 8 = (s₂, .data bs) ∧
         (BitVec.ofNat 64 (numOfBytes bs)).toInt ≤ (regG (grp s) 0).toInt) := by
  refine ⟨fits_of (by decide +kernel), by unfold GroupFits; decide +kernel, by decide +kernel, by decide +kernel, by decide +kernel, by decide +kernel,
    fun acc h => ?_, by decide +kernel, by decide +kernel, ?_⟩
  · simp at h
    rcases h with rfl | rfl | rfl <;> exact ⟨_, .phys 0x20010, Prod.ext rfl (by decide +kernel), by decide +kernel, by decide +kernel⟩
  · exact (unit_data (bs := List.replicate 8 0) (by decide +kernel)).imp fun _ h => ⟨_, h, by decide +kernel⟩

/-! ## Witnesses: units that lane words drive -/

/-- A candidate on the page at 0x20000, or a procedural one. -/
def cand (proc : Bool) : Hit := { (default : Hit) with t := 0x3F800000, key := 0x20000, proc := proc }
/-- A ray of lane 3 that has called it with a candidate. -/
def calledRay3 (proc : Bool) : RaySlot :=
  { (default : RaySlot) with
    id := 4, owner := .lane 0 0 3, state := .awaitShd, cand := some (cand proc), calling := true,
    geom := ⟨0, 0, 0, 0x3F800000, 0, 0, 0, 0x40000000⟩ }
/-- Lane 3 in shader state, with a value in V0. -/
def shaderS (proc : Bool) (v : Nat) : State :=
  let s := only (withLanes fun x => { x with shader := true, sret := 0x10000, regs := x.regs.writeN 0 4 v }) [3]
  { s with
    render := { Render.reset with rays := [calledRay3 proc] } }

/-- `ShaderControl`: calls with a triangle's candidate and with a procedural one; the first and the last word of a page that `hitattr.pg`
reads. -/
theorem witness_ShaderControl :
    (∀ proc ∈ [false, true], let s := shaderS proc 0x40000000
     inShader s = true ∧ calledRay s 0 0 3 = some (calledRay3 proc) ∧ s.ray? 4 = some (calledRay3 proc) ∧ activeLanes (grp s) gd s = [3] ∧
       ((grp s).lane 3).tdep = 0 ∧ ((grp s).lane 3).home = none ∧
       (∀ form ∈ ([⟨[], [.v 8], true⟩, ⟨[.v 0, .t 1], [], true⟩, ⟨[], [], true⟩] : List LaneForm),
         s.issuing? = some (grp s) ∧ (∀ r ∈ form.srcs ++ form.dsts, r.past (grp s) = false))) ∧
    (∀ v ∈ [0, 56316], let s := shaderS false v
     (srcV (grp s) 3 ((grp s).lane 3) 0).toNat = v ∧ ∃ s₁, unitRead (advance s) (2 ^ 61 + 3) (whoLane s (grp s) 5) .read (0x20000 + 9216 + v) 4 =
       (s₁, .data (List.replicate 4 0))) := by
  refine ⟨by decide +kernel, fun v h => ?_⟩
  simp at h
  rcases h with rfl | rfl <;> exact ⟨by decide +kernel, unit_data (by decide +kernel)⟩

/-- A forward ray in T1, W8 the root and W9 the hit group table. -/
def rayS (root : Nat) : State := only (withLanes fun x => { x with regs :=
  (((x.regs.writeBytes 64 (List.replicate 12 0 ++ bytesOfNum 4 0x3F800000 ++ List.replicate 12 0 ++ bytesOfNum 4 0x7F800000)).writeN 64 8 root).writeN 72 8 0) }) [0, 31]

/-- `Rays`: two lanes with room in `mx` and in the core's slots. -/
theorem witness_Rays : let s := rayS 0x20000
    inShader s = false ∧ countFull (grp s) (activeLanes (grp s) gd s) .mx = false ∧ (activeLanes (grp s) gd s).length ≤ raysFree s 0 ∧
      LaneFits s (grp s) ⟨[.t 1, .w 8, .w 9], [.t 15], false⟩ ∧ LaneFits s (grp s) ⟨[.t 1, .w 8, .w 9], [.v 60], false⟩ :=
  ⟨by decide +kernel, by decide +kernel, by decide +kernel, fits_of (by decide +kernel), fits_of (by decide +kernel)⟩

/-- A march slot of lane 0 whose event has landed. -/
def landed : MarchSlot := { (default : MarchSlot) with id := 9, state := .landed }

/-- `MarchesAndWalks`: marches of two lanes, a resume with a slot and one without, and a walk. -/
theorem witness_MarchesAndWalks :
    (let s := rayS 0x20000
     let act := activeLanes (grp s) gd s
     inShader s = false ∧ LaneFits s (grp s) ⟨[.t 1, .w 8], [.t 2, .t 3], false⟩ ∧ act.Nodup ∧ countFull (grp s) act .mx = false ∧
       (∀ l ∈ act, marchOf s 0 0 l = none) ∧ act.length ≤ marchesFree s 0) ∧
    (let s := ({ only base [0] with render := { Render.reset with marches := [landed] } } : State)
     inShader s = false ∧ LaneFits s (grp s) ⟨[], [.t 2, .t 3, .t 1, .w 8], false⟩ ∧ activeLanes (grp s) gd s = [0] ∧ 0 < (grp s).lanes.length ∧
       countFull (grp s) [0] .mx = false ∧ marchOf s 0 0 0 = some landed ∧ s.march? 9 = some landed) ∧
    (let s := only base [0]
     marchOf s 0 0 0 = none ∧ (grp s).tAt 14 + 128 ≤ (grp s).rsize ∧ LaneFits s (grp s) ⟨[], [.t 14, .t 15, .t 1, .w 8], false⟩) ∧
    (let s := only (withW 0 0x20080) [0, 7]
     let act := activeLanes (grp s) gd s
     LaneFits s (grp s) ⟨.w 0 :: vRun 57 3, [.w 60], true⟩ ∧ (∀ l ∈ act, (srcW (grp s) ((grp s).lane l) 0).toNat % 128 = 0 ∧ l < (grp s).lanes.length) ∧
       countFull (grp s) act .mx = false) :=
  ⟨⟨by decide +kernel, fits_of (by decide +kernel), by decide +kernel, by decide +kernel, by decide +kernel, by decide +kernel⟩,
    ⟨by decide +kernel, fits_of (by decide +kernel), by decide +kernel, by decide +kernel, by decide +kernel, by decide +kernel, by decide +kernel⟩,
    ⟨by decide +kernel, by decide +kernel, fits_of (by decide +kernel)⟩, fits_of (by decide +kernel), by decide +kernel, by decide +kernel⟩

/-- `MatrixLanesAndSigns`: a row whose tile opens, and drains of both precisions whose epilogues are not reserved. -/
theorem witness_RowsAndDrains :
    (let s := only (withW 0 0x20100) [2]
     LaneFits s (grp s) ⟨[.a 0, .w 0], [.a 7], true⟩ ∧ activeLanes (grp s) gd s = [2] ∧ 2 < (grp s).lanes.length ∧
       (srcW (grp s) ((grp s).lane 2) 0).toNat % 256 = 0 ∧ ((grp s).lane 2).mx < 63 ∧ s.gridOf (grp s) = some oneGrid ∧ (openTiles s 0).length < 4 ∧
       ∀ x ∈ openTiles s 0, ¬(x.grid = oneGrid.id ∧ x.handle = (srcW (grp s) ((grp s).lane 2) 0).toNat)) ∧
    ∀ m ∈ [0, 1, 7], let s := base
      let act := activeLanes (grp s) gd s
      LaneFits s (grp s) ⟨[.a 6, .a 7, .w 60], if m = 0 then [.a 4, .a 5] else [.a 4], true⟩ ∧ act.Nodup ∧ countFull (grp s) act .mx = false ∧
        ∀ l ∈ act, l < (grp s).lanes.length ∧ ((grp s).lane l).home = none ∧ epiReserved (srcW (grp s) ((grp s).lane l) 60).toNat = false := by
  refine ⟨⟨fits_of (by decide +kernel), by decide +kernel, by decide +kernel, by decide +kernel, by decide +kernel, by decide +kernel,
    by decide +kernel, by decide +kernel⟩, fun m h => ?_⟩
  simp at h
  rcases h with rfl | rfl | rfl <;> exact ⟨fits_of (by decide +kernel), by decide +kernel, by decide +kernel, by decide +kernel⟩

/-- Keyring 15 of the one team, with its words; lane 31 issues, and G8 holds a card address. -/
def keyS (k : Keyring) (card : Nat) : State :=
  let s := only (withG fun g => { g with g := g.g.set 8 (BitVec.ofNat 64 card), lanes := g.lanes.map fun x => { x with regs := x.regs.writeN 0 4 1 } }) [31]
  { s with teams := s.teams.map fun t => { t with keyrings := t.keyrings.set 15 k } }

/-- `MatrixLanesAndSigns`: a sign that leaves the round open, and a declare on an IDLE keyring. -/
theorem witness_Signs :
    (∀ key ∈ [Keyring.mk true 1 0 0, ⟨false, 0, 0, 0⟩], let s := keyS key 0x20040
      ∃ tm, s.issuing? = some (grp s) ∧ s.team? (grp s).team = some tm ∧ s.groupAt (grp s).team (grp s).index = some (grp s) ∧ (grp s).index < 32 ∧
        tm.keyrings.length = 16 ∧ (grp s).sln.length = 16 ∧ (grp s).mxs.length = 16 ∧ (∀ h ∈ s.groups, ∀ x ∈ h.lanes, x.home = none) ∧
        (grp s).lanes.length = 32 ∧ (∀ h ∈ s.groups, ∀ x ∈ h.lanes, x.wait = .none) ∧ activeLanes (grp s) gd s = [31] ∧ tm.keyring 15 = key ∧
        (key.open_ = true → key.decl.getLsbD (grp s).index = true ∧ ((grp s).sln.getD 15 0).getLsbD 31 = false ∧
          ((grp s).sln.getD 15 0).getLsbD 0 = false ∧ ((grp s).lane 0).exited = false ∧ releaseWaits s (grp s) [31] 3 = false ∧
          (regG (grp s) 8).toNat % 64 = 0 ∧ ((grp s).lane 31).mx < 63) ∧
        (key.open_ = false → (srcV (grp s) 31 ((grp s).lane 31) 0).toNat % 2 ^ (recordOf s (grp s)).gpt = 1 ∧
          s.groupAt (grp s).team 0 = some (grp s))) ∧
    LaneFits (keyS ⟨true, 1, 0, 0⟩ 0x20040) (grp (keyS ⟨true, 1, 0, 0⟩ 0x20040)) ⟨[], [], true⟩ ∧
    LaneFits (keyS ⟨false, 0, 0, 0⟩ 0x20040) (grp (keyS ⟨false, 0, 0, 0⟩ 0x20040)) ⟨[.v 0], [], true⟩ := by
  refine ⟨fun key h => ?_, fits_of (by decide +kernel), fits_of (by decide +kernel)⟩
  simp at h
  rcases h with rfl | rfl <;> exact ⟨_, by decide +kernel, rfl, by decide +kernel, by decide +kernel, by decide +kernel, by decide +kernel,
    by decide +kernel, by decide +kernel, by decide +kernel, by decide +kernel, by decide +kernel, by decide +kernel, by decide +kernel, by decide +kernel⟩
/-! ## Witnesses: engine commands of groups -/

/-- `base` with bytes at 0x20000, its address in G8 and the group's other arguments in G9 and G10. -/
def blockS (bs : List (Nat × Nat × Nat)) : State :=
  let s := withG fun g => { g with g := ((g.g.set 8 0x20000).set 9 0x30000).set 10 0x40000 }
  { s with mem := bs.foldl (fun m x => m.writeN (0x20000 + x.1) x.2.1 x.2.2) s.mem }

/-- The bytes of a block of `n` bytes, its fields given as offset, length and value. -/
def blockOf (n : Nat) (bs : List (Nat × Nat × Nat)) : List Byte := bytesOfNum n (bs.foldl (fun a x => a + x.2.2 * 256 ^ x.1) 0)

/-- A block that is read. -/
theorem block_of {o : Option (State × List Byte)} {b : List Byte} (h : o.map Prod.snd = some b) : ∃ u, o = some (u, b) := by
  cases o with
  | none => cases h
  | some x => exact ⟨x.1, by simp at h; simp [← h]⟩

/-- A copy block: one row of 64 bytes from 0x30000 to 0x40000, scope module. -/
def copyFields : List (Nat × Nat × Nat) := [(9, 1, 2), (11, 1, 6), (36, 4, 64), (40, 4, 1), (48, 8, 0x30000), (56, 8, 0x40000)]
/-- A collective block: an all-reduce of two members. -/
def collFields : List (Nat × Nat × Nat) := [(9, 1, 2), (11, 1, 6), (36, 4, 2), (40, 8, 0x30000), (48, 8, 0x30100), (56, 8, 0x40000), (64, 8, 4)]
/-- An advance of the reservoirs' frame. -/
def advFields : List (Nat × Nat × Nat) := [(8, 1, 1), (9, 1, 1), (11, 1, 6)]
/-- A descriptor of a matrix chain, scope module. -/
def descFields : List (Nat × Nat × Nat) := [(0, 8, 0x30000), (8, 8, 0x30040), (32, 1, 3), (33, 1, 6)]
/-- A queue of 16 slots at 0x30000 with its tail word at 0x40000. -/
def queueFields : List (Nat × Nat × Nat) := [(0, 8, 0x30000), (8, 8, 0x40000), (16, 1, 4)]

/-- `EngineCommandsAndLaunches`: blocks of a copy, a collective, a Strainer and a chain that are read and pass their checks, and a
`copy.direct`. -/
theorem witness_EngineCommands :
    (let s := blockS []
     GroupFits s (grp s) 7 formG ∧ countFull (grp s) s.issue.lanes .cp = false ∧ localForm (regG (grp s) 9).toNat 48 = none ∧
       localForm (regG (grp s) 10).toNat 56 = none ∧
       (let j : CopyJob := ⟨0, 64, 1, 0x30000, 0x40000, 0, 0, 0, 0, 0, false⟩
        let v := advance s
        let c := cohortCmd v (grp s) .copy ((pickEngine v (v.partOf (grp s)) (dieOfCore (grp s).core) .copy).getD noEngine) 0 []
          (.copy { j with recorded := true })
        copySpanBad v (.group 0 0 s.issue.lanes) 0 j = none ∧ haloBad v c j = none ∧ entriesFit v (copyEntries v c j) = true)) ∧
    (∃ u, blockRead (advance (blockS copyFields)) (grp (blockS copyFields)) 0x20000 128 = some (u, blockOf 128 copyFields)) ∧
    copyChecks (blockOf 128 copyFields) = none ∧
    (let v := blockS copyFields
     let j := copyJobOf (blockOf 128 copyFields)
     let c := cohortCmd v (grp v) .copy ((pickEngine v (v.partOf (grp v)) (dieOfCore (grp v).core) .copy).getD noEngine) 0x20000 (blockOf 128 copyFields)
       (.copy { j with recorded := true })
     copySpanBad v (.group 0 0 (List.range 32)) 0 j = none ∧ haloBad v c j = none ∧ entriesFit v (copyEntries v c j) = true) ∧
    (∃ u, blockRead (advance (blockS collFields)) (grp (blockS collFields)) 0x20000 128 = some (u, blockOf 128 collFields)) ∧
    collChecks (blockOf 128 collFields) = none ∧
    collSpanBad (blockS collFields) (.group 0 0 (List.range 32)) 0 (collJobOf (blockOf 128 collFields)) = none ∧
    (∃ v, blockRead (advance (blockS advFields)) (grp (blockS advFields)) 0x20000 64 = some (v, blockOf 64 advFields) ∧
      ∃ u, blockRead v (grp (blockS advFields)) 0x20000 64 = some (u, blockOf 64 advFields)) ∧
    strainerChecks (blockOf 64 advFields) = none ∧
    (∃ u, blockRead (advance (blockS descFields)) (grp (blockS descFields)) 0x20000 64 = some (u, blockOf 64 descFields) ∧
      chainEngine u (grp (blockS descFields)) .matrix = 0 ∧ chainsAt u .matrix 0 < 16 ∧ ∀ z ∈ u.eng.chains, z.id ≠ u.fresh) ∧
    descBad (blockOf 64 descFields) = none ∧ kindOf (byteAt (blockOf 64 descFields) 32) = some .matrix := by
  refine ⟨⟨by unfold GroupFits; decide +kernel, by decide +kernel, by decide +kernel, by decide +kernel, by decide +kernel⟩,
    block_of (by decide +kernel), by decide +kernel, by decide +kernel, block_of (by decide +kernel), by decide +kernel, by decide +kernel,
    ?_, by decide +kernel, ?_, by decide +kernel, by decide +kernel⟩
  · exact ⟨_, by rfl, block_of (by decide +kernel)⟩
  · exact ⟨_, by rfl, by decide +kernel⟩

/-- `EngineCommandsAndLaunches`: a launch that takes a slot, in a queue that the descriptor at 0x20000 names, and one that has reserved slot 5. -/
theorem witness_Launches :
    (let s := blockS queueFields
     GroupFits s (grp s) 7 formG ∧ countFull (grp s) s.issue.lanes .cp = false ∧ s.gridOf (grp s) = some oneGrid ∧ s.issue.lanes ≠ [] ∧
       (∀ l ∈ s.issue.lanes, l < (grp s).lanes.length) ∧ (regG (grp s) 8).toNat % 32 = 0 ∧ queueBad (blockOf 32 queueFields) = false ∧
       oneGrid.children < 65535 ∧ ((grp s).lane (s.issue.lanes.headD 0)).reserved = none) ∧
    (∃ u, blockRead (advance (blockS queueFields)) (grp (blockS queueFields)) 0x20000 32 = some (u, blockOf 32 queueFields) ∧
      releaseWaits (releaseDrain u (grp (blockS queueFields)) 7) (grp (blockS queueFields)) (List.range 32) 7 = false ∧
      ∃ w, addTail (releaseDrain u (grp (blockS queueFields)) 7) (grp (blockS queueFields)) 0x40000 = (w, .data (List.replicate 8 0)) ∧
        ∃ w₁, translate w (whoLane (blockS queueFields) (grp (blockS queueFields)) 0) .write 0x30000 = (w₁, .ok (.phys 0x30000)) ∧
          onDie 0 (.phys 0x30000) = true ∧ detmWriter w₁ 0 0 = none) ∧
    (let s := (blockS queueFields).updGroup 0 0 fun g => { g with lanes := g.lanes.map fun x => { x with reserved := some 5 } }
     ((grp s).lane (s.issue.lanes.headD 0)).reserved = some 5 ∧
       (blockRead (advance s) (grp s) 0x20000 32).map Prod.snd = some (blockOf 32 queueFields)) := by
  refine ⟨⟨by unfold GroupFits; decide +kernel, by decide +kernel, by decide +kernel, by decide +kernel, by decide +kernel, by decide +kernel,
    by decide +kernel, by decide +kernel, by decide +kernel⟩, ?_, by decide +kernel, by decide +kernel⟩
  refine ⟨_, by rfl, by decide +kernel, _, Prod.ext rfl (by decide +kernel), _, Prod.ext rfl (by decide +kernel), by decide +kernel, by decide +kernel⟩
/-! ## Witnesses: memory in flight -/

/-- Bytes that stand in DRAM of the module lie outside every other region. -/
theorem dram_of {s : State} {m n : Nat} (h : ∀ k, k < n → hostReaches s (m + k) = true) :
    ∀ k, k < n → regionOf s.links (m + k) ≠ .outside ∧ regionOf s.links (m + k) ≠ .host ∧ ∀ d, regionOf s.links (m + k) ≠ .chip d := by
  intro k hk
  have := h k hk
  unfold hostReaches at this
  split at this <;> simp_all

/-- `base` with one access in flight. -/
def flying (f : Flight) : State := { base with ms := { base.ms with flights := [f] } }
/-- Four bytes of a part at 0x20000. -/
def part4 : ReadPart := ⟨.phys 0x20000, 4, none, false⟩
/-- A flight of lane 6 from die 1. -/
def fl (k : FlightKind) (st : Stage) (rs : List ReadPart) (d : List Byte) : Flight :=
  { (default : Flight) with id := 5, kind := k, stage := st, die := 1, lanes := [6], reads := rs, data := d }

/-- `HingeMessages`: a message of each kind that may be applied, a halo write inside its window and one outside, a message that waits for
another of its line, answers for an engine and for another module, ordered accesses, one with a reserved field set, and messages to a core that
the team has left, with and without a forwarding entry. -/
theorem witness_HingeMessages :
    (∀ (x : Flight × Nat), x ∈ ([(fl (.read .none) .request [part4] [], 0), (fl (.read .none) .answer [part4] [], 1),
        (fl .write .request [part4] [1, 2, 3, 4], 2), (fl .write .answer [part4] [], 3), (fl (.atomic 0 0 1 0 .none) .request [part4] [], 4),
        (fl (.tdec 1) .request [⟨.phys 0x20000, 8, none, false⟩] [], 4), (fl (.atomic 0 0 1 0 .none) .answer [part4] [], 5),
        (fl (.tdec 1) .answer [] [], 5), (fl (.halo 0) .request [part4] [1, 2, 3, 4], 6), (fl (.halo (2 ^ 32)) .request [part4] [1, 2, 3, 4], 6),
        (fl .time .request [] [], 7), ({ fl .write .request [part4] [1, 2, 3, 4] with stamp := some (0, 0) }, 2)] : List (Flight × Nat)) →
      (flying x.1).flight? 5 = some x.1 ∧ mayApply (flying x.1) x.1 = true ∧ x.1.hingeKind = some x.2 ∧ x.1.stale (flying x.1) = false ∧
        headerOk x.1.header = true ∧ x.1.redirected (flying x.1) = x.1 ∧ x.1.reply = none ∧ x.1.engine = none ∧ x.1.poisoned = false ∧ x.1.viaOther = false ∧
        detmWriter (flying x.1) x.1.core x.1.slot = none ∧ (readPlace (flying x.1) (.phys 0x20000) 8).2 = false ∧ atomSize 0 = 4) ∧
    (∀ s : State, s.links = Links.reset → ∀ k, k < 8 → isHost s (.phys (0x20000 + k)) = false ∧ regionOf s.links (0x20000 + k) ≠ .outside ∧
      ∀ d, regionOf s.links (0x20000 + k) ≠ .chip d) ∧
    (let f := fl .write .request [part4] [1, 2, 3, 4]
     let s := { base with ms := { base.ms with flights := [{ f with id := 4, seqNo := 4294967295 }, f] } }
     s.flight? 5 = some f ∧ mayApply s f = false) ∧
    (let full : ReadPart := { part4 with got := some 7 }
     ∀ f ∈ [{ fl (.read .none) .answer [full] [] with engine := some 9 }, { fl (.read .none) .answer [full] [] with reply := some (3, 4) },
         { fl (.read .none) .request [part4] [] with viaOther := true }],
       (flying f).flight? 5 = some f ∧ mayApply (flying f) f = true ∧ f.stale (flying f) = false ∧ headerOk f.header = true ∧
         f.redirected (flying f) = f ∧ (f.stage = .answer → (f.reads.all fun p => p.got.isSome) = true) ∧ ∀ p ∈ f.reads, inModule p.place = true) ∧
    (∀ release ∈ [false, true], let p : PixelAccess := { (default : PixelAccess) with place := .phys 0x20000, word := .phys 0x40000 }
      let f := { fl (.pixel p) .request [] [] with release := release }
      (flying f).flight? 5 = some f ∧ mayApply (flying f) f = true ∧ f.stale (flying f) = false ∧ headerOk f.header = true ∧ f.redirected (flying f) = f) ∧
    (let f := fl (.halo (2 ^ 54)) .request [part4] [1, 2, 3, 4]
     mayApply (flying f) f = true ∧ f.stale (flying f) = false ∧ headerOk f.header = false ∧ f.hingeKind = some 6 ∧ f.sender = some 1 ∧
       (flying f).links.hinge.length = 40) ∧
    (let f := fl .write .request [⟨.sp 2 256, 4, none, false⟩] [1, 2, 3, 4]
     f.stale (flying f) = true) ∧
    (let e : FwdEntry := ⟨2, [0], 0, 64000, 0, 65536⟩
     let f := fl .write .request [⟨.sp 2 256, 4, none, false⟩] [1, 2, 3, 4]
     let s := { flying f with fwd := [e] }
     f.stale s = false ∧ (f.redirected s).reads = [⟨.sp 0 256, 4, none, false⟩]) := by
  refine ⟨by decide +kernel, fun s h k hk => ?_, by decide +kernel, by decide +kernel, by decide +kernel, by decide +kernel, by decide +kernel,
    by decide +kernel⟩
  have r := dram_of (s := s) (m := 0x20000) (n := 8) (by rw [show hostReaches s = hostReaches State.reset by funext a; simp [hostReaches, h]; rfl]; decide +kernel) k hk
  refine ⟨?_, r.1, r.2.2⟩
  simpa [isHost] using r.2.1

/-- `Completions`: performed loads of each kind of destination, poisoned data, a performed write, a request that gets no answer, and a
store-buffer entry that drains. -/
theorem witness_Completions :
    (∀ f ∈ [fl (.read (.word 32 1 true)) .performed [⟨.phys 0x20000, 1, some 255, false⟩] [],
        fl (.read (.bytes 2040 8)) .performed [⟨.phys 0x20000, 8, some 9, false⟩] [], fl (.read (.g 63)) .performed [⟨.phys 0x20000, 8, some 9, false⟩] [],
        fl (.read (.word 32 4 false)) .performed [⟨.phys 0x20000, 4, some 1, true⟩] [], fl .write .performed [] [],
        fl (.read (.word 32 4 false)) .request [part4] [],
        fl (.atomic 0 0 1 0 (.word 32 4 false)) .performed [⟨.phys 0x20000, 4, some 1, false⟩] []],
      (flying f).flight? 5 = some f ∧ (flying f).group? f.core f.slot = some (grp (flying f)) ∧ f.lanes = [6] ∧ 6 < (grp (flying f)).lanes.length ∧
        f.engine = none ∧ f.reply = none ∧ (f.stage = .request → f.onHinge = true) ∧ ((grp (flying f)).lane 6).live = true ∧
        ((grp (flying f)).lane 6).atBoundary = true ∧ ((grp (flying f)).lane 6).late = []) ∧
    (let e : BufEntry := { (default : BufEntry) with id := 3, lanes := [1], place := .phys 0x20000, data := [1, 2] }
     let s := { base with ms := { base.ms with sb := [e] } }
     s.ms.sb.find? (fun x => x.id == e.id) = some e ∧ e.place = .phys 0x20000 ∧ homeDie 0x20000 = dieOfCore e.core ∧
       (∀ x ∈ s.ms.sb.takeWhile (fun x => x.id != e.id), ¬(x.core = e.core ∧ x.place.lineOf = e.place.lineOf)) ∧ 0 < e.data.length ∧
       detmWriter s e.core e.slot = none ∧ (∀ k, k < e.data.length → regionOf s.links (0x20000 + k) ≠ .outside ∧
         regionOf s.links (0x20000 + k) ≠ .host ∧ ∀ d, regionOf s.links (0x20000 + k) ≠ .chip d)) :=
  ⟨by decide +kernel, by decide +kernel, by decide +kernel, by decide +kernel, by decide +kernel, by decide +kernel, by decide +kernel,
    dram_of (by decide +kernel)⟩

/-- An ordered access of lane 2 to the first pixel of a target at 0x20000, its order word at 0x40000. -/
def pixel (order : Nat) (write arrived : Bool) : PixelAccess :=
  { (default : PixelAccess) with
    id := 8, lane := 2, order := order, strict := true, write := write, word := .phys 0x40000, place := .phys 0x20000, len := 4,
    data := if write then [1, 2, 3, 4] else [], arrived := arrived }

/-- `MemoryEvents`: a strict access at its turn and one before it, a walk that ends in a leaf, a group whose slices are not in the store, a host
access at both ends of a word, and requests of another module inside and outside the ranges of an ACTIVE partition. -/
theorem witness_MemoryEvents :
    (∀ order ∈ [0, 1, 32767], ∀ write ∈ [false, true], ∀ arrived ∈ [false, true], let p := pixel order write arrived
      let s := { base with render := { base.render with pixels := [p] } }
      s.render.pixels.find? (fun x => x.id == 8) = some p ∧ p.data.length = (if p.write then p.len else 0) ∧ detmWriter s p.core p.slot = none ∧
        (readPlace s (.phys 0x40000) 4).1 % 65536 = 0 ∧ (readPlace s (.phys 0x40000) 4).2 = false ∧ scoreboardRoom s p = true ∧ homeDie 0x40000 = dieOfCore p.core) ∧
    (∀ a ∈ [0x20000, 0x40000], ∀ k, k < 4 → regionOf base.links (a + k) ≠ .outside ∧ ∀ d, regionOf base.links (a + k) ≠ .chip d) ∧
    (let w : Walk := ⟨2, 0, none, 0, 0x3FFFFFFF⟩
     let s := { base with ms := { base.ms with walks := [w] } }
     s.ms.walks.find? (fun x => x.id == 2) = some w ∧ walk s 0 0 w.va = .leaf 0 1073741824 3 0xF ∧ ∀ x ∈ s.ms.tlb, x.maps w.part w.va = false ∧ (s.part w.part).rf.touchen = false) ∧
    (let s := withG fun g => { g with inStore := false }
     s.group? 0 0 = some (grp s) ∧ teamRuns s (grp s).team = true ∧ (grp s).inStore = false) ∧
    (∀ k, k < 8 → hostReaches base (0x20000 + k) = true) ∧
    (∀ r ∈ [DomainRequest.mk 0 1 0 .read 0x3FFFFFF8 8 0, ⟨0, 1, 0, .write, 0x20000, 8, 5⟩], (base.part r.part).state ≠ .free ∧
      inRanges (base.part r.part).setup r.addr r.len = true ∧ reaches base.links (dieOfPort r.port) r.addr = true) ∧
    (let port := (List.range 16).find? fun n => dieOfPort n = homeDie 0x20000
     let far := (List.range 16).find? fun n => dieOfPort n ≠ homeDie 0x20000
     port.isSome = true ∧ far.isSome = true ∧ reaches base.links (dieOfPort (far.getD 0)) 0x20000 = true) ∧
    (∀ r ∈ [DomainRequest.mk 0 1 1 .read 0x20000 8 0, ⟨0, 1, 0, .read, 0x3FFFFFF9, 8, 0⟩], (base.part r.part).state = .free ∨
      inRanges (base.part r.part).setup r.addr r.len = false) := by
  refine ⟨by decide +kernel, fun a h k hk => ?_, by decide +kernel, by decide +kernel, by decide +kernel, by decide +kernel, by decide +kernel, by decide +kernel⟩
  simp at h
  rcases h with rfl | rfl
  · have := dram_of (s := base) (m := 0x20000) (n := 4) (by decide +kernel) k hk
    exact ⟨this.1, this.2.2⟩
  · have := dram_of (s := base) (m := 0x40000) (n := 4) (by decide +kernel) k hk
    exact ⟨this.1, this.2.2⟩

/-! ## Witnesses: events of groups -/

/-- Every lane of the group with a wait, and a change of the group. -/
def waitS (w : LaneWait) (f : Group → Group) : State := withG fun g => f { g with lanes := g.lanes.map fun x => { x with wait := w } }
/-- Another group of core 0 in a slot, of the same team, whose lanes wait. -/
def other (slot steps : Nat) (w : LaneWait) (act : Bool) : Group :=
  let g := grp base
  { g with slot := slot, index := slot, steps := steps, active := act, lanes := g.lanes.map fun x => { x with wait := w } }

/-- `GroupEvents`: loops that go round and that end, a grant, both impasses, and groups that leave and enter the active set. -/
theorem witness_GroupEvents_group :
    (∀ c ∈ [0, 1, 2], let s := waitS (.loopEnd 0) fun g => { g with ldep := 1, loops := g.loops.set 0 ⟨c, 3, 0x10010, 0xFFFFFFFF⟩ }
     s.group? 0 0 = some (grp s) ∧ teamRuns s (grp s).team = true ∧ (grp s).loopReady = true) ∧
    (let s := waitS (.grow 4 7) fun g => { g with steps := 4 }
     oldestGrow s 0 = some (7, 0, 4) ∧ (grp s).steps + 4 ≤ 8 ∧ growRoom s (grp s) 4 = true) ∧
    (let s := waitS (.grow 4 7) fun g => { g with steps := 4 }
     let s := { s with groups := s.groups ++ [other 4 8 .barTeam true] }
     let here := s.groups.filter fun h => h.core == 0 && !groupHeld s h
     (here.filter Group.growing) ≠ [] ∧ (here.all fun h => h.atImpasse && teamRuns s h.team) = true ∧ (grantOldest s 0).isNone = true ∧
       lowestRanked s ((here.filter Group.growing).filter fun h => h.active) = some (grp s) ∧ (grantOldest (leaveActive s 0 0) 0).isSome = true) ∧
    (let s := waitS (.grow 4 7) fun g => { g with steps := 4, active := false }
     let s := { s with groups := s.groups ++ other 1 4 .barTeam false :: (List.range 15).map fun k => other (k + 2) 8 .barTeam false }
     let here := s.groups.filter fun h => h.core == 0 && !groupHeld s h
     (here.filter Group.growing) ≠ [] ∧ (here.all fun h => h.atImpasse && teamRuns s h.team) = true ∧ (grantOldest s 0).isNone = true ∧
       lowestRanked s ((here.filter Group.growing).filter fun h => h.active) = none ∧
       lowestRanked s (here.filter Group.growing) = some (grp s) ∧ (growRequests s 0).find? (fun r => r.2.1 == 0) = some (7, 0, 4)) ∧
    (let s := waitS .barTeam id
     mayLeave s (grp s) = true) ∧
    (let s := withG fun g => { g with active := false }
     mayEnter s (grp s) = true) ∧
    (let s := waitS (.time 500) fun g => { g with active := false }
     preentryDue s (grp s) = true ∧ activeRoom s (grp s) = true) := by
  refine ⟨by decide +kernel, by decide +kernel, by decide +kernel, by decide +kernel, by decide +kernel, by decide +kernel, by decide +kernel⟩

/-- `GroupEvents`: waits that end, a group that ends, a pending error, and a swapped lane. -/
theorem witness_GroupEvents_lane :
    (let s := waitS (.time 0) id
     ((grp s).lane 31).wait = .time 0 ∧ 0 ≤ s.time.now ∧ meterHeld s (s.partOf (grp s)) 0 = false) ∧
    (let s := waitS (.tumbler 3 0x20000 0 6) id
     ((grp s).lane 31).wait = .tumbler 3 0x20000 0 6 ∧ ((grp s).lane 31).parked = none ∧
       ∃ s₁, unitAcquire (drainTumbler s (grp s) 0x20000) 3 (whoLane s (grp s) 0) 6 0x20000 8 = (s₁, .data (List.replicate 8 0))) ∧
    (let s := withLanes fun x => { x with exited := true }
     ∃ tm, s.teamOf (grp s) = some tm ∧ (grp s).ended = true ∧ tm.db = .idle ∧ tm.state = .placed ∧
       (∀ h ∈ s.groups, h.team = (grp s).team → h.core = 0 ∧ h.slot = 0) ∧ ∀ x ∈ s.teams, x.id = tm.id → x = tm) ∧
    (∀ c ∈ [0, 3], let p : PendSlot := ⟨1, 0, 0x10000, 0x20000, 0⟩
     let s := withG fun g => { g with tvec := 0x8000, lanes := g.lanes.map fun x => { x with pend := x.pend.set c (some p) } }
     ((grp s).lane 0).firstPend = some (c, p) ∧ ((grp s).lane 0).takesPend = true ∧ ((grp s).lane 0).late = [] ∧ ((grp s).lane 0).home = none ∧ (grp s).tvec ≠ 0) ∧
    (let s := withLanes fun x => { x with home := some 1 }
     let h := other 1 8 .none true
     let s := { s with groups := s.groups ++ [{ h with lanes := h.lanes.map fun x => { x with home := some 0 } }] }
     s.group? 0 1 = some ((s.group? 0 1).getD default) ∧ teamRuns s (grp s).team = true ∧ ((grp s).lane 9).home = some 1 ∧
       ((grp s).lane 9).shader = false) := by
  refine ⟨by decide +kernel, ⟨by decide +kernel, by decide +kernel, unit_data (by decide +kernel)⟩, ⟨_, by rfl, by decide +kernel⟩, by decide +kernel,
    by decide +kernel⟩

/-! ## Witnesses: partitions and registers -/

/-- The module READY, with partition 1 in a state and a setup record for it at 0x100000: one quad, one slice, one copy engine, one stream and
one range of 2 MiB. -/
def partS (f : Partition → Partition) (rcd : List (Nat × Nat × Nat)) : State :=
  let s := State.reset.updPart 1 f
  { s with
    caddy := { s.caddy with ready := true }, pf := { s.pf with prec := 0x100000 }
    mem := rcd.foldl (fun m x => m.writeN (0x100000 + x.1) x.2.1 x.2.2) s.mem }

/-- The record's fields. -/
def rcdFields : List (Nat × Nat × Nat) :=
  [(0, 2, 1), (2, 1, 1), (24, 1, 12), (26, 2, 1), (32, 8, 1), (48, 8, 1), (68, 4, 1), (256, 8, 0x200000), (264, 8, 0x200000)]
/-- What the record says. -/
def rcdSetup : Setup :=
  ⟨false, false, 0, 0, 12, 1, 0, 1, 0, 1, 0, 0, 0, 0, 0, 1, 0, 0, List.replicate 6 0, (0x200000, 0x200000) :: List.replicate 15 (0, 0)⟩
/-- A partition in a state, with a record. -/
def inState (st : PartState) (q : Partition) : Partition := { q with state := st, setup := rcdSetup }

/-- The setup record that is read depends on memory and on where it stands alone. -/
theorem readSetup_congr {s t : State} (h₁ : s.pf = t.pf) (h₂ : s.mem = t.mem) (h₃ : s.chip = t.chip) (h₄ : s.poison = t.poison)
    (h₅ : s.links = t.links) (h₆ : s.sramPoison = t.sramPoison) : readSetup s = readSetup t := by
  have e (k : Nat) : readByte s (.phys k) = readByte t (.phys k) ∧ bytePoison s (.phys k) = bytePoison t (.phys k) := by
    simp only [readByte, bytePoison, h₂, h₃, h₄, h₅, h₆, and_self]
  simp only [readSetup, e, h₁, h₅]

/-- The record as it is read. -/
theorem rcd_read (f : Partition → Partition) : readSetup (partS f rcdFields) = some (blockOf 512 rcdFields) := by
  have h : readSetup (partS id rcdFields) = some (blockOf 512 rcdFields) := by decide +kernel
  exact (readSetup_congr rfl rfl rfl rfl rfl rfl).trans h
/-- It is well formed. -/
theorem rcd_format : setupFormat 1 (blockOf 512 rcdFields) = true := by decide +kernel
/-- Its fields. -/
theorem rcd_setup : setupOf (blockOf 512 rcdFields) = rcdSetup := by decide +kernel

/-- What makes a record pass. -/
theorem check_ok {s : State} {b : List Byte} {u : Setup} {r : Bool} (h : readSetup s = some b) (h₀ : setupFormat 1 b = true) (h₀' : setupOf b = u)
    (h₁ : (otherSetups s 1).any (setupsMeet u) = false)
    (h₂ : (selfMeets u.used || !u.used.all fun x => spanInRegion s.links x.1 x.2) = false) (h₃ : setupCapacity s 1 u = true)
    (h₄ : s.grids = []) (h₅ : (s.part 1).streams = []) (h₆ : u.without s.l2ret0 s.l2ret1 = u) : checkSetup s 1 r = .ok u := by
  unfold checkSetup
  rw [h]
  simp only [h₀, h₀', h₆, h₁, h₂, h₃, h₅]
  simp [gridsFit, largestClusters, h₄]

/-- The record passes the checks of CREATE and of RESIZE. -/
theorem rcd_passes : checkSetup (partS id rcdFields) 1 false = .ok rcdSetup ∧
    checkSetup (partS (inState .active) rcdFields) 1 true = .ok rcdSetup :=
  ⟨check_ok (rcd_read _) rcd_format rcd_setup (by decide +kernel) (by decide +kernel) (by decide +kernel) (by decide +kernel) (by decide +kernel)
      (by decide +kernel),
    check_ok (rcd_read _) rcd_format rcd_setup (by decide +kernel) (by decide +kernel) (by decide +kernel) (by decide +kernel) (by decide +kernel)
      (by decide +kernel)⟩

/-- A check that fails. -/
theorem check_bad {e : Except Nat Setup} {c : Nat} (h : errorOf e = some c) : e = .error c := by
  cases e <;> simp_all [errorOf]

/-- `PartitionCommands`: partitions in each state before and after READY, a record that passes its checks and one with a bad field or at an
address that cannot be read, and completions with and without a record that waits. -/
theorem witness_PartitionCommands :
    1 < State.reset.parts.length ∧ State.reset.caddy.ready = false ∧
    (∀ st ∈ [PartState.free, .busy, .active, .resetting], let s := partS (inState st) rcdFields
      1 < s.parts.length ∧ s.caddy.ready = true ∧ (s.part 1).state = st ∧ (s.part 1).flrpend = false ∧ (s.part 1).next = none) ∧
    checkSetup (partS id rcdFields) 1 false = .ok rcdSetup ∧ checkSetup (partS (inState .active) rcdFields) 1 true = .ok rcdSetup ∧
    checkSetup (partS id [(0, 2, 1)]) 1 false = .error 3 ∧ checkSetup (partS (inState .active) [(0, 2, 1)]) 1 true = .error 3 ∧
    (∃ b, readSetup (partS id [(0, 2, 1)]) = some b ∧ setupFormat 1 b = false) ∧
    (let s := partS id rcdFields
     readSetup { s with pf := { s.pf with prec := 0x40000000000000 } } = none) ∧
    (let s := partS (fun q => { inState .busy q with next := some rcdSetup }) rcdFields
     (s.part 1).state = .busy ∧ (s.part 1).next = some rcdSetup ∧ stillUses s 1 rcdSetup = false ∧
       (let t := { s with teams := [{ Team.start 0 0 1 0 8 [0] 0 0 with part := 1 }] }
        stillUses t 1 rcdSetup = true)) ∧
    (let s := partS (fun q => { inState .busy q with flrpend := true }) rcdFields
     (s.part 1).state = .busy ∧ (s.part 1).flrpend = true ∧ (s.part 1).next = none) ∧
    (let s := partS (fun q => { inState .resetting q with destroying := true, scrub := true }) rcdFields
     (s.part 1).state = .resetting ∧ (s.part 1).destroying = true ∧ (s.part 1).scrub = true ∧ s.mem.wf = true) := by
  refine ⟨by decide +kernel, by decide +kernel, by decide +kernel, rcd_passes.1, rcd_passes.2,
    check_bad (by decide +kernel), check_bad (by decide +kernel), ⟨_, by rfl, by decide +kernel⟩, by decide +kernel, by decide +kernel,
    by decide +kernel, by decide +kernel⟩

/-- Lane 4 of the group parked under token 6, with a handler. -/
def parkedS : State := withG fun g => { g with
  tvec := 0x8000
  lanes := g.lanes.set 4 { g.lane 4 with parked := some ⟨1, 6, [], 0x80000000, 0, false, .none, none⟩, wait := .none } }

/-- `ReplayAndInvalidation`: a parked lane of a placed group, a unit that waits, and queued invalidations with and without a walk. -/
theorem witness_ReplayAndInvalidation :
    (let s := parkedS
     let p := 0
     p < s.parts.length ∧ grp s ∈ s.groups ∧ s.partOf (grp s) = 0 ∧ (grp s).core < savedBase ∧
       (∀ h ∈ s.groups, h.core = (grp s).core → h.slot = (grp s).slot → h = grp s) ∧ (grp s).tvec ≠ 0 ∧ (grp s).lanes.length = 32 ∧
       (∀ l, l < 32 → ((grp s).lane l).tdep < 2 ∧ ((grp s).lane l).home = none) ∧ (∀ h ∈ s.groups, h = grp s) ∧ s.render = Render.reset ∧
       s.eng = Engines.reset ∧ ((grp s).lane 4).parked = some ⟨1, 6, [], 0x80000000, 0, false, .none, none⟩) ∧
    (let c : EngCmd := { (default : EngCmd) with id := 1, paused := some ⟨6, 1, 0⟩ }
     let s := { base with eng := { base.eng with cmds := [c] } }
     c ∈ s.eng.cmds ∧ c.part = 0 ∧ c.paused = some ⟨6, 1, 0⟩) ∧
    (let s := base.updPart 0 fun q => { q with tlbPend := [(.page 0x20000, 4), (.all, 5)] }
     (s.part 0).tlbPend = [(.page 0x20000, 4), (.all, 5)] ∧ (s.part 1).tlbPend = [] ∧ oldAccesses s 0 4 = false) ∧
    (∀ since ∈ [3, 4], let s := { base with ms := { base.ms with
        walks := [⟨2, 0, none, 0, 0x20000⟩], sb := [{ (default : BufEntry) with id := 2 }], flights := [{ (default : Flight) with id := 2, stage := .request }] } }
     (∃ w ∈ s.ms.walks, w.part = 0 ∧ w.id < since) ∧ (∃ e ∈ s.ms.sb, e.part = 0 ∧ e.id < since) ∧
       ∃ f ∈ s.ms.flights, f.part = 0 ∧ f.id < since ∧ f.stage = .request) := by
  refine ⟨by decide +kernel, by decide +kernel, by decide +kernel, by decide +kernel⟩

/-- Partition 0 with areas, and a team on core 0 that the partition owns. -/
def areaS (f : Partition → Partition) : State :=
  base.updPart 0 fun q => f { q with
    setup := { q.setup with qmask0 := 1 }, sch := { q.sch with ctx := ⟨20, 0x100000⟩, odr := ⟨12, 0⟩, odrTail := 5 }, rf := { q.rf with area := ⟨12, 0⟩, tail := 5 } }

/-- `RegistersOfThePart`: heads inside and outside their spans, areas that fit and that do not, a request to vacate a core that holds a team, and
one that is ignored for each reason; an access before READY, and streams of a partition that is READY. -/
theorem witness_RegistersOfThePart :
    (let s := areaS id
     let q := s.part 0
     let p := 0
     p < s.parts.length ∧ (let n := 2 ^ (q.sch.odr.log2 - 5)
       (5 < n ∧ (5 + n - q.sch.odrHead) % n ≤ (q.sch.odrTail + n - q.sch.odrHead) % n) ∧ ¬(6 < n ∧ (6 + n - q.sch.odrHead) % n ≤ (q.sch.odrTail + n - q.sch.odrHead) % n)) ∧
       (∃ r ∈ q.setup.ranges, 0 < r.2 ∧ r.1 ≤ 0x100000 ∧ 0x100000 + 2 ^ 16 ≤ r.1 + r.2) ∧ spanInRegion s.links 0x100000 (2 ^ 12) = true ∧
       spanInRegion s.links (2 ^ 50 - 4096) (2 ^ 24) = false ∧ ¬(∀ t ∈ s.teams, t.part = 0 → t.state = .pending) ∧
       (∀ t ∈ State.reset.teams, t.part = 0 → t.state = .pending) ∧ 3 < s.pf.ivmap.length) ∧
    (let s := areaS id
     let q := s.part 0
     q.sch.peState = 0 ∧ q.sch.ctx.log2 ≠ 0 ∧ 1 ≤ ((List.range 144).filter fun i => ownsCore q.setup i).length ∧
       ((List.range 144).filter fun i => ownsCore q.setup i).length < 5 ∧ ∃ t ∈ s.teams, t.part = 0 ∧ t.state ≠ .pending ∧ t.core / 144 = 0) ∧
    ((areaS fun q => { q with sch := { q.sch with peState := 1 } }).part 0).sch.peState ≠ 0 ∧
    (State.reset.caddy.ready = false) ∧
    (let s := { areaS (fun q => { q with streams := [{ Stream.reset 0 with en := true }] }) with caddy := { base.caddy with ready := true } }
     s.caddy.ready = true ∧ ∃ x, s.stream? 0 0 = some x ∧ x.en = true) := by
  refine ⟨by decide +kernel, by decide +kernel, by decide +kernel, by decide +kernel, by decide +kernel⟩

/-! ## Witnesses: streams -/

/-- Stream 0 of partition 0, its ring of 16 slots at 0x100000, and fields of memory. -/
def streamS (x : Stream) (mem : List (Nat × Nat × Nat)) : State :=
  let s := base.updPart 0 fun q => { q with streams := [x], setup := { q.setup with qmask0 := 1, cpymask := 1, colmask := 1 } }
  { s with mem := mem.foldl (fun m y => m.writeN y.1 y.2.1 y.2.2) s.mem }
/-- An enabled stream in a state. -/
def stm (st : FeState) (head seen : Nat) : Stream :=
  { Stream.reset 0 with qbase := 0x100000, tailaddr := 0x200000, en := true, state := st, head := head, tail := seen, seen := seen }

/-- `FrontEnds`: streams in each state that the doorbell, the tail word, EN, HALTED and a header meet: headers that are not yet written, that the
tail does not cover, that are ill-formed, and that are good. -/
theorem witness_FrontEnds :
    (∀ x ∈ [stm .idle 0 0, stm .waiting 3 4, { stm .waiting 3 4 with mtail := true }, { stm .disabled 0 0 with en := false },
        { stm .halted 2 2 with haltSlots := 1 }, { stm .halted 2 3 with haltSlots := 1 }, stm .reading 15 16],
      (streamS x []).stream? 0 0 = some x) ∧
    2 ^ (stm .idle 0 0).qlog2 < (17 % 2 ^ 32 + 2 ^ 32 - 0) % 2 ^ 32 ∧
    (let s := streamS { stm .waiting 3 4 with mtail := true } [(0x200000, 8, 9)]
     ∃ s₁, feAcquire s 0 0 (tailScope s 0 0x200000) 0x200000 8 = (s₁, .data (bytesOfNum 8 9))) ∧
    (∀ h ∈ [0, 1, 0x104, 11], let x := stm .reading 15 16
      let s := streamS x [(0x1003C0, 4, h)]
      hostGone s 0 (x.slotAddr x.head) = false ∧ ∃ s₁, feRead (s.updStream 0 0 fun y => { y with state := .reading }) 0 0 (x.slotAddr x.head) 64 =
        (s₁, .data (bytesOfNum 64 h))) ∧
    byteAt (bytesOfNum 64 0) 0 = 0 ∧
    (let b := bytesOfNum 64 0x104
     (16 + 2 ^ 32 - 15) % 2 ^ 32 < byteAt b 1 % 4 + 1 ∧ byteAt b 0 ≠ 0) ∧
    (let b := bytesOfNum 64 11
     ¬(byteAt b 0 = 0 ∨ (16 + 2 ^ 32 - 15) % 2 ^ 32 < byteAt b 1 % 4 + 1) ∧ headerBad (stm .reading 15 16) b = some (2, 0)) ∧
    (let b := bytesOfNum 64 1
     ¬(byteAt b 0 = 0 ∨ (16 + 2 ^ 32 - 15) % 2 ^ 32 < byteAt b 1 % 4 + 1) ∧ headerBad (stm .reading 15 16) b = none ∧ byteAt b 1 % 4 + 1 = 1) := by
  refine ⟨by decide +kernel, by decide +kernel, fe_data (by decide +kernel), fun h hh => ?_, by decide +kernel, by decide +kernel, by decide +kernel,
    by decide +kernel⟩
  simp at hh
  rcases hh with rfl | rfl | rfl | rfl <;> exact ⟨by decide +kernel, fe_data (by decide +kernel)⟩

/-- The stream at its last packet, whose bytes are given, with earlier work. -/
def packetX (st : FeState) (n : Nat) (b : List Byte) (work : List Work) : Stream :=
  { stm st 3 (3 + n) with packet := some ⟨0x1000C0, n, b⟩, work := work }
/-- Work that runs, and work that has failed. -/
def running : Work := ⟨.command 7, false, false⟩
def failedWork : Work := ⟨.command 7, false, true⟩

/-- `Packets`: the premises that every clause has, for a packet of each type. -/
theorem witness_Packets_at : ∀ st ∈ [FeState.reading, .waiting], ∀ n ∈ [1, 2], ∀ work ∈ [[], [running], [failedWork]],
    let x := packetX st n (blockOf (64 * n) [(0, 1, 1)]) work
    let s := streamS x []
    s.stream? 0 0 = some x ∧ x.en = true ∧ x.jump = none ∧ x.seen = (x.head + n) % 2 ^ 32 ∧ (s.part 0).rf.area.log2 = 0 ∧
      (s.group? 0 noSlot).isNone = true ∧ (work = [failedWork] ↔ (∀ w ∈ x.work, w.failed = true) ∧ x.work ≠ []) := by decide +kernel

/-- `Packets`: an ill-formed body of each type, and good bodies of waits and signals, whose conditions hold and do not hold. -/
theorem witness_Packets_bodies :
    launchBody (blockOf 64 [(8, 8, 1)]) = some (3, 8) ∧ graphBody (blockOf 64 [(8, 8, 1)]) = some (3, 8) ∧
    (copyChecks (blockOf 128 [])).isSome = true ∧ (collChecks (blockOf 128 [])).isSome = true ∧ semwaitBody (blockOf 64 []) = some (4, 8) ∧
    (semsigBody (blockOf 64 [(8, 8, 1)])).isSome = true ∧ (timewaitBody (blockOf 64 [(63, 1, 1)])).isSome = true ∧
    (fenceBody (blockOf 64 [])).isSome = true ∧ (jumpBody (blockOf 64 [])).isSome = true ∧
    timewaitBody (blockOf 64 [(0, 1, 8), (8, 8, 1)]) = none ∧ fenceBody (blockOf 64 [(0, 1, 9), (8, 1, 6)]) = none ∧
    semsigBody (blockOf 64 [(0, 1, 7), (8, 8, 0x20000), (16, 8, 3), (24, 1, 6)]) = none ∧
    semwaitBody (blockOf 64 [(0, 1, 6), (8, 8, 0x20000), (16, 8, 2 ^ 64 - 1), (24, 1, 6)]) = none ∧
    (let s := streamS (packetX .reading 1 [] []) [(0x20000, 8, 5)]
     (∃ s₁, translate s (whoFe 0) .atomic 0x20000 = (s₁, .ok (.phys 0x20000))) ∧ (readPlace s (.phys 0x20000) 8).2 = false ∧
       (∀ j, j < 8 → regionOf s.links (0x20000 + j) ≠ .outside ∧ regionOf s.links (0x20000 + j) ≠ .host ∧ ∀ d, regionOf s.links (0x20000 + j) ≠ .chip d) ∧
       homeDie 0x20000 = 0 ∧ outsideWrites s 0 = false ∧ ∃ s₁, feAcquire s 0 0 6 0x20000 8 = (s₁, .data (bytesOfNum 8 5))) ∧
    ¬(BitVec.ofNat 64 (numOfBytes (bytesOfNum 8 5))).toInt ≤ (BitVec.ofNat 64 (2 ^ 64 - 1)).toInt ∧
    (BitVec.ofNat 64 (numOfBytes (bytesOfNum 8 5))).toInt ≤ (BitVec.ofNat 64 5).toInt := by
  refine ⟨by decide +kernel, by decide +kernel, by decide +kernel, by decide +kernel, by decide +kernel, by decide +kernel, by decide +kernel,
    by decide +kernel, by decide +kernel, by decide +kernel, by decide +kernel, by decide +kernel, by decide +kernel,
    ⟨place_of (by decide +kernel), by decide +kernel, dram_of (by decide +kernel), by decide +kernel, by decide +kernel,
      fe_data (by decide +kernel)⟩, by decide +kernel, by decide +kernel⟩

/-- A launch record: one team of one group of one step. -/
def recFields : List (Nat × Nat × Nat) := [(8, 4, 1), (12, 4, 1), (16, 4, 1), (20, 1, 1), (21, 1, 1), (22, 1, 1), (27, 1, 1), (29, 1, 6)]

/-- `Packets`: a launch whose record is read and passes its checks, one whose record does not, and one whose parent is not live; copies and
collectives with and without an engine; a `GRAPH` whose nodes have room; and a `JUMP` to a good packet. -/
theorem witness_Packets_work :
    launchBody (blockOf 64 [(0, 1, 2), (8, 8, 0x300000)]) = none ∧
    (let s := streamS (packetX .reading 1 [] []) (recFields.map fun x => (0x300000 + x.1, x.2.1, x.2.2))
     (∃ s₁, feRead s 0 0 0x300000 256 = (s₁, .data (blockOf 256 recFields))) ∧ recordBad (s.part 0) (blockOf 256 recFields) = none ∧
       recordBad (s.part 0) (blockOf 256 []) = some (4, 8) ∧ errorOf (parentOf s 0 0x55) = some 9 ∧ freeGridSlot s 0 = some 1 ∧
       ∀ die ∈ [0, 1], poolFree s die ≠ 0) ∧
    (let s := { streamS (packetX .reading 1 [] []) [] with grids := (List.range 4096).map fun k => { (default : Grid) with slot := k } }
     parentOf s 0 0 = .ok none ∧ freeGridSlot s 0 = none) ∧
    (let s := streamS (packetX .reading 2 [] []) []
     copyChecks (blockOf 128 ((0, 1, 4) :: copyFields)) = none ∧
       copySpanBad s (.packet 0 0 []) 0 (copyJobOf (blockOf 128 ((0, 1, 4) :: copyFields))) = none ∧ anyEngine s 0 .copy = some 0 ∧
       collChecks (blockOf 128 ((0, 1, 5) :: collFields)) = none ∧
       collSpanBad s (.packet 0 0 []) 0 (collJobOf (blockOf 128 ((0, 1, 5) :: collFields))) = none ∧ anyEngine s 0 .collective = some 0) ∧
    (∀ e, ownsEngine (base.part 0).setup .copy e = false ∧ ownsEngine (base.part 0).setup .collective e = false) ∧
    (let g : Graph := { (default : Graph) with id := 2, nodes := [default] }
     let s := { streamS (packetX .reading 1 [] []) [] with graphs := [g] }
     graphBody (blockOf 64 [(0, 1, 3), (32, 1, 6)]) = none ∧ s.graphs.find? (fun g => g.part == 0 && g.stream == 0 && !g.pool) = some g ∧
       (s.graphs.map Graph.id).Nodup ∧ ∀ d, d < 2 → (g.nodes.filter fun n => n.die == d).length ≤ poolFree s d) ∧
    (let b := blockOf 64 [(0, 1, 10), (8, 8, 0x400000), (16, 4, 1)]
     let x := packetX .reading 1 b []
     let s := streamS x [(0x400000, 1, 1)]
     let into (z : Stream) : Stream := { z with packet := none, jump := some ⟨0x400000, 1, 0, false⟩, state := .reading }
     jumpBody b = none ∧ fieldAt b 16 4 = 1 ∧ hostGone s 0 0x400000 = false ∧ (∃ s₁, feRead (s.updStream 0 0 into) 0 0 0x400000 64 = (s₁, .data (bytesOfNum 64 1))) ∧
       headerBad (into x) (bytesOfNum 64 1) = none ∧ packetSlots (bytesOfNum 64 1) = 1) := by
  refine ⟨by decide +kernel, ⟨fe_data (by decide +kernel), by decide +kernel, by decide +kernel, by decide +kernel, by decide +kernel,
    by decide +kernel⟩, ⟨by rfl, by simp [freeGridSlot]; exact fun _ h => ⟨h, rfl⟩⟩, by decide +kernel, fun e => ?_, by decide +kernel,
    ⟨by decide +kernel, by decide +kernel, by decide +kernel, fe_data (by decide +kernel),
    by decide +kernel, by decide +kernel⟩⟩
  constructor
  · show (0 : Nat).testBit e = false
    simp
  · show (0 : Nat).testBit e = false
    simp

/-- The nodes that the reading of a graph answers. -/
def graphNodes (r : GraphRead) : Option (List GNode) :=
  match r with
  | .nodes ns => some ns
  | _ => none

/-- A reading of a graph that answers nodes. -/
theorem nodes_of {r : State × GraphRead} {ns : List GNode} (h : graphNodes r.2 = some ns) : ∃ u, r = (u, .nodes ns) := by
  obtain ⟨u, e⟩ := r
  cases e with
  | nodes x => exact ⟨u, by simp [graphNodes] at h; rw [h]⟩
  | _ => simp [graphNodes] at h

/-- A graph at 0x600000 of one copy node and no successors. -/
def graphMem : List (Nat × Nat × Nat) :=
  [(0x600000, 4, 1), (0x600008, 8, 0x600100), (0x600100, 1, 1), (0x600108, 8, 0x500000)]
/-- Its node. -/
def graphNode : GNode := { (default : GNode) with kind := .copy, payload := 0x500000 }

/-- `Packets`: the clauses of completion, whatever the tail covers after the packet: each type of body, a graph that is read whole, and a wait whose
condition is met. -/
theorem witness_Packets_complete :
    (∀ seen ∈ [4, 9], ∀ st ∈ [FeState.reading, .waiting], ∀ k ∈ [blockOf 64 [(0, 1, 1)], blockOf 64 [(0, 1, 2), (8, 8, 0x300000)],
        blockOf 64 [(0, 1, 3), (8, 8, 0x600000), (32, 1, 6)], blockOf 64 [(0, 1, 6), (8, 8, 0x20000), (16, 8, 9), (24, 1, 6)],
        blockOf 64 [(0, 1, 7), (8, 8, 0x20000), (24, 1, 6)], blockOf 64 [(0, 1, 8)], blockOf 64 [(0, 1, 9), (8, 1, 6)],
        blockOf 64 [(0, 1, 10), (8, 8, 0x400000), (16, 4, 1)]],
      let x := { packetX st 1 k [] with seen := seen }
      let s := streamS x []
      s.stream? 0 0 = some x ∧ x.packet = some ⟨0x1000C0, 1, k⟩ ∧ x.en = true ∧ x.jump = none ∧ x.work = [] ∧ (s.graphs = []) ∧
        ∀ check ∈ ([(2, launchBody k), (3, graphBody k), (6, semwaitBody k), (7, semsigBody k), (8, timewaitBody k), (9, fenceBody k),
          (10, jumpBody k)] : List (Nat × BlockCheck)), byteAt k 0 = check.1 → check.2 = none) ∧
    (let s := streamS (packetX .reading 1 [] []) graphMem
     (∀ g ∈ s.graphs, g.id < s.fresh) ∧ ∃ s₁, readGraph s 0 0 0x600000 = (s₁, .nodes [graphNode]) ∧
       ∀ d, d < 2 → ([graphNode].filter fun n => n.die == d).length ≤ poolFree s₁ d) := by
  have h : ∀ d, d < 2 → ([graphNode].filter fun n => n.die == d).length ≤
      poolFree (readGraph (streamS (packetX .reading 1 [] []) graphMem) 0 0 0x600000).1 d := by decide +kernel
  refine ⟨by decide +kernel, by decide +kernel, ?_⟩
  obtain ⟨u, e⟩ := nodes_of (r := readGraph (streamS (packetX .reading 1 [] []) graphMem) 0 0 0x600000) (ns := [graphNode]) (by decide +kernel)
  exact ⟨u, e, by simpa [e] using h⟩

/-! ## Witnesses: grids and graphs -/

/-- A grid that has still to place its team, on core 0, with a tumbler. -/
def youngGrid (f : Grid → Grid) : Grid := f { oneGrid with rcd := { oneRecord with gpt := 3, regsz := 1 }, nextTeam := 0 }
/-- Partition 0 with that grid and no team, a stream, and the quad of core 0. -/
def gridS (f : Grid → Grid) : State :=
  let s := streamS (stm .idle 0 0) [(0x20000, 8, 5)]
  { s with grids := [youngGrid f], teams := [], groups := [] }

/-- `GridsAndNodes`: a team that is placed, and grids that end with and without a tumbler and with a failed child, and that do not end. -/
theorem witness_Grids :
    (let gr := youngGrid id
     let s := gridS id
     s.grids.find? (fun g => g.part == 0 && g.slot == 0) = some gr ∧ placeTurn s gr = true ∧ gr.rcd.clw = 1 ∧ gr.rcd.clh = 1 ∧
       gr.nextTeam < gr.rcd.teams ∧ savedTeams s gr = [] ∧ (s.part 0).setup.shadow = false ∧ rollbackOn s 0 = false ∧
       bestRect s gr [.start gr.nextTeam] = some [0] ∧ pickSlots false (usedSlots s 0) (List.range gr.rcd.gpt) = some [(0, none), (1, none), (2, none)] ∧
       scratchRun s 0 gr.rcd.spfoot = some 0 ∧ (s.grids.map Grid.id).Nodup) ∧
    (let s := { gridS id with therm := { base.therm with trip := true } }
     placeTurn s (youngGrid id) = false) ∧
    (∀ f ∈ [fun g : Grid => { g with nextTeam := 1 }, fun g => { g with nextTeam := 1, childFailed := true },
        fun g => { g with nextTeam := 1, childFailed := true, node := some (2, 0) },
        fun g => { g with nextTeam := 1, rcd := { g.rcd with tumb := 0x20000, amount := 2 } }], let gr := youngGrid f
      let s := gridS f
      s.grids.find? (fun g => g.part == 0 && g.slot == 0) = some gr ∧ gr.children = 0 ∧ gr.rcd.teams ≤ gr.nextTeam ∧
        (∀ t ∈ s.teams, t.grid ≠ gr.id) ∧ (readPlace s (.phys 0x20000) 8).2 = false ∧ (s.part 0).rf.area.log2 = 0 ∧
        homeDie 0x20000 = gr.die ∧ (∀ x ∈ s.ms.arrived, x.owner ≠ gr.id) ∧ (∀ f ∈ s.ms.flights, f.engine ≠ some gr.id) ∧
        outsideWrites s 0 = false ∧ 0 < s.parts.length) ∧
    (∃ s₁, translate (gridS id) (youngGrid id).who .atomic 0x20000 = (s₁, .ok (.phys 0x20000))) ∧
    (∀ j, j < 8 → regionOf (gridS id).links (0x20000 + j) ≠ .outside ∧ regionOf (gridS id).links (0x20000 + j) ≠ .host ∧
      ∀ d, regionOf (gridS id).links (0x20000 + j) ≠ .chip d) ∧
    (youngGrid fun g => { g with children := 1 }).children ≠ 0 := by
  refine ⟨by decide +kernel, by decide +kernel, by decide +kernel, place_of (by decide +kernel), dram_of (by decide +kernel), by decide +kernel⟩

/-- A graph of a copy node, a Strainer node after it and a node of another kind. -/
def graphOf (a b : NodeState) (tumb : Nat) : Graph :=
  { (default : Graph) with
    id := 2, tumb := tumb, pool := true
    nodes := [{ (default : GNode) with kind := .copy, payload := 0x500000, succs := [1], state := a },
      { (default : GNode) with kind := .strainer, payload := 0x500080, preds := 1, state := b }] }
/-- A state with that graph. -/
def graphS (a b : NodeState) : State := { streamS (stm .idle 0 0) [] with graphs := [graphOf a b 0], grids := [], teams := [], groups := [] }

/-- `GridsAndNodes`: a node that is dispatched, one that completes before another, the last one, and nodes that have to wait. -/
theorem witness_GraphNodes :
    (let s := graphS .ready .reserved
     let g := graphOf .ready .reserved 0
     let x := g.nodes.getD 0 default
     s.graph? 2 = some g ∧ 0 < g.nodes.length ∧ (s.graphs.map Graph.id).Nodup ∧ x.state = .ready ∧ g.pool = true ∧ nodeHeldBack g 0 = false ∧
       x.kind ≠ .grid ∧ x.kind ≠ .matrix ∧ meterHeld s g.part (engClass x.kind.engine) = false ∧ nodeEngine s g (nodeNow s g 0) = some 0 ∧
       nodeWaits s (nodeNow s g 0) = false ∧ (∀ c ∈ s.eng.chains, c.node ≠ some (2, 0)) ∧
       (g.nodes.getD 1 default).state ≠ .ready ∧ x.state ≠ .dispatched) ∧
    (let s := graphS .dispatched .reserved
     let g := graphOf .dispatched .reserved 0
     let x := g.nodes.getD 0 default
     s.graph? 2 = some g ∧ x.state = .dispatched ∧ nodeFinished s g 0 x = true ∧ ∃ y, 1 ≠ 0 ∧ g.nodes[1]? = some y ∧ y.state ≠ .complete) ∧
    (let s := graphS .complete .dispatched
     let g := graphOf .complete .dispatched 0
     let x := g.nodes.getD 1 default
     s.graph? 2 = some g ∧ x.state = .dispatched ∧ nodeFinished s g 1 x = true ∧ (∀ i, i ≠ 1 → ∀ y, g.nodes[i]? = some y → y.state = .complete) ∧
       g.tumb = 0 ∧ s.stream? g.part g.stream = some (stm .idle 0 0)) := by
  refine ⟨by decide +kernel, ⟨by decide +kernel, by decide +kernel, by decide +kernel, _, by decide, rfl, by decide⟩,
    by decide +kernel, by decide +kernel, by decide +kernel, ?_, by decide +kernel, by decide +kernel⟩
  intro i hi y hy
  match i, hi, hy with
  | 0, _, hy => simp [graphOf] at hy; rw [← hy]
  | i + 2, _, hy => simp [graphOf] at hy

/-! ## Witnesses: engines at work -/

/-- A packet's command. -/
def cmdOf (k : EngKind) (b : EngBody) (started : Bool) : EngCmd :=
  { (default : EngCmd) with id := 7, kind := k, issuer := .packet 0 0x100000 [], body := b, started := started }
/-- A state with a command and some memory. -/
def cmdS (c : EngCmd) (mem : List (Nat × Nat × Nat)) : State :=
  { streamS { stm .idle 0 0 with work := [running] } mem with eng := { base.eng with cmds := [c] } }
/-- A copy of two rows of 96 bytes between 0x20000 and 0x40000; a halo copy is one of G-buffer rows. -/
def job (op : Nat) : CopyJob := ⟨op, 96, 2, 0x20000, 0x40000, 128, 128, if op = 2 then 2 ^ 52 else 0, 1, 64, false⟩
/-- An all-reduce of two members, of four FP32 elements. -/
def coll (op : Nat) : CollJob :=
  { (default : CollJob) with op := op, fmt := 0, nmem := 2, memtab := 0x30000, src := 0x30100, dst := 0x40000, count := 4, attempt := 3 }

/-- `CommandsRun`: copies of each operation that start, and that write a chunk which ends a row. -/
theorem witness_CommandsRun_copy :
    (∀ op ∈ [0, 1, 2], let c := cmdOf .copy (.copy (job op)) false
      let s := cmdS c []
      s.cmd? 7 = some c ∧ c.started = false ∧ c.stopped s = false ∧ earlierWaits s c = false ∧ copySpanBad s c.issuer c.part (job op) = none ∧
        haloBad s c (job op) = none ∧ (job op).recorded = false ∧ entriesFit s (copyEntries s c (job op)) = true) ∧
    (let j : CopyJob := { job 1 with dst := 2 ^ 63 + 3 * 2 ^ 60 }
     let c := cmdOf .copy (.copy j) false
     let s := (cmdS c []).updPart 0 fun q => { q with setup := { q.setup with chsp0 := 1 }, chip0 := [0] }
     let u := { s with ms := { s.ms with ranges := (List.range 64).map fun k => ⟨k + 100, none, 0, 0, 127⟩ } }
     copySpanBad u c.issuer c.part j = none ∧ haloBad u c j = none ∧ entriesFit s (copyEntries s c j) = true ∧ entriesFit u (copyEntries u c j) = false) ∧
    (let j : CopyJob := { job 2 with htag := 0 }
     let c := cmdOf .copy (.copy j) false
     copySpanBad (cmdS c []) c.issuer c.part j = none ∧ (haloBad (cmdS c []) c j).isSome = true) ∧
    (let j : CopyJob := { job 0 with src := 2 ^ 63 + 2 ^ 60 }
     let c := cmdOf .copy (.copy j) false
     (copySpanBad (cmdS c []) c.issuer c.part j).isSome = true) ∧
    (∀ op ∈ [0, 1, 2], let c := cmdOf .copy (.copy (job op)) true
      let s := cmdS c [(0x200C0, 8, 5)]
      c.started = true ∧ c.stopped s = false ∧ unitBusy s 7 = false ∧ failedWrite s 7 = none ∧ meterHeld s c.part 2 = false ∧
        detmWriter s (cmdGroup c).1 (cmdGroup c).2 = none ∧ s.links.reach c.who.die (.phys 0x400C0) = .here ∧ isHost s (.phys 0x400C0) = false ∧
        meterHeld s c.part 4 = false ∧ hingeUp s.links = true ∧ (job op).row < (job op).rows ∧ min 4096 ((job op).rowBytes - (job op).off) = 32 ∧
        (∃ s₁, engRead s c 0x200C0 32 = (s₁, .data (bytesOfNum 32 5)) ∧ ∃ s₂, engPlaces s₁ c .write 0x400C0 32 = (s₂, .ok [(.phys 0x400C0, 32)]) ∧
          engTrafficHeld s₂ c [(.phys 0x400C0, 32)] = false) ∧
        ∃ s₂, engPlaces s c .write 0x400C0 32 = (s₂, .ok [(.phys 0x400C0, 32)]) ∧ engTrafficHeld s₂ c [(.phys 0x400C0, 32)] = false) ∧
    (let c := cmdOf .copy (.copy (job 0)) true
     let x : Arrived := ⟨7, 0x40080, 64, 0, 3, true⟩
     let s := { cmdS c [] with ms := { base.ms with arrived := [x] } }
     failedWrite s 7 = some x ∧ unitBusy s 7 = false ∧ (haltCode (setCopy (dropArrived s 7) 7 (job 0).back) c.part c.who.die x.cause x.addr).isNone = true) ∧
    (∀ k, k < 32 → regionOf base.links (0x400C0 + k) ≠ .outside ∧ regionOf base.links (0x400C0 + k) ≠ .host ∧
      ∀ d, regionOf base.links (0x400C0 + k) ≠ .chip d) := by
  refine ⟨by decide +kernel, by decide +kernel, by decide +kernel, by decide +kernel, fun op h => ?_, by decide +kernel, dram_of (by decide +kernel)⟩
  simp at h
  rcases h with rfl | rfl | rfl <;> exact ⟨by decide +kernel, by decide +kernel, by decide +kernel, by decide +kernel, by decide +kernel,
    by decide +kernel, by decide +kernel, by decide +kernel, by decide +kernel, by decide +kernel, by decide +kernel, by decide +kernel,
    ⟨_, by rfl, _, by rfl, by decide +kernel⟩, _, by rfl, by decide +kernel⟩

/-- `CommandsRun`: collectives that start as member 0 of this module, that send to another member, to themselves and to none, that await a message
or none, and whose attempt runs out; and commands that are done for each issuer, one of a chain whose release waits. -/
theorem witness_CommandsRun_coll :
    (∀ op ∈ [0, 1, 2, 3], let c := cmdOf .collective (.coll (coll op)) false
      let s := cmdS c [(0x30000, 8, 0), (0x30008, 8, 1)]
      c.engine ≠ noEngine ∧ s.cmd? 7 = some c ∧ meterHeld s c.part 5 = false ∧ collSpanBad s c.issuer c.part (coll op) = none ∧
        ∃ s₁, engRead s c 0x30000 16 = (s₁, .data (bytesOfNum 16 (2 ^ 64))) ∧
          (∃ s₂ bs, engRead s₁ c 0x30100 (elemBytes 0 (coll op).srcCount) = (s₂, .data bs)) ∧
          (∀ m, m < 2 → fieldAt (bytesOfNum 16 (2 ^ 64)) (8 * m) 8 < 2048) ∧
          (List.range 2).find? (fun m => memberOf (bytesOfNum 16 (2 ^ 64)) m == (s.links.modid, engDie .collective c.engine)) = some 0 ∧
          peersReachable s c.who.die (bytesOfNum 16 (2 ^ 64)) 2 = true) ∧
    (∀ next ∈ [0, 1, 2], let j := { coll 0 with next := next, mods := [0, 1] }
      let c := cmdOf .collective (.coll j) true
      let s := cmdS c []
      j.sent = false ∧ c.started = true ∧ c.stopped s = false ∧ unitBusy s 7 = false ∧ failedWrite s 7 = none ∧
        meterHeld s c.part 2 = false ∧ (next = 2 ↔ j.nmem ≤ j.next) ∧ (next = 0 ↔ j.next = j.self) ∧ meterHeld s c.part 4 = false ∧ meterHeld s c.part 5 = false) ∧
    (let s := base.updPart 0 fun q => { q with sch := { q.sch with meters := List.replicate 6 ⟨0, true⟩ } }
     ∀ cls ∈ [2, 4, 5], meterHeld s 0 cls = true) ∧
    ((coll 0).awaits = [1] ∧ ({ coll 0 with got := [⟨3, 1, []⟩] } : CollJob).awaits = []) ∧
    (let j : CollJob := { coll 2 with got := [⟨3, 1, [1, 2, 3, 4]⟩], src0 := [5, 6, 7, 8], sent := true }
     let c := cmdOf .collective (.coll j) true
     let s := cmdS c []
     j.awaits = [] ∧ j.written < elemBytes j.fmt j.dstCount ∧
       ∃ s₁, engPlaces s c .write j.dst (((elemsBytes j.fmt j.result).drop j.written).take 4096).length =
         (s₁, .ok [(.phys 0x40000, (((elemsBytes j.fmt j.result).drop j.written).take 4096).length)])) ∧
    (let c := cmdOf .collective (.coll (coll 0)) true
     let s := { cmdS c [] with time := { base.time with now := 1000000 } }
     c.started = true ∧ (coll 0).awaits ≠ [] ∧ (coll 0).lastMsg + 1000000 ≤ s.time.now) ∧
    (∀ iss ∈ [Issuer.packet 0 0x100000 [], .chain 3, .group 0 0 [1, 2]], let c := { cmdOf .copy (.copy { job 0 with row := 2, off := 0 }) true with issuer := iss }
      let s := { cmdS c [] with eng := { base.eng with chains := [{ (default : Chain) with id := 3, running := some 7 }], cmds := [c] } }
      c.bodyDone s = true ∧ c.paused = none ∧ seqWaits s c = false ∧ unitBusy s 7 = false ∧ c.tdec = false ∧ (s.stream? 0 0).isSome = true ∧ (s.chain? 3).isSome = true ∧
        (s.group? 0 0).isSome = true) ∧
    (let c := { cmdOf .copy (.copy { job 0 with row := 2, off := 0 }) true with issuer := .chain 3 }
     let ch : Chain := { (default : Chain) with id := 3, running := some 7, scope := 8 }
     let s := { cmdS c [] with
       eng := { base.eng with chains := [ch], cmds := [c] }, ms := { base.ms with flights := [{ (default : Flight) with kind := .write, stage := .outside }] } }
     c.bodyDone s = true ∧ c.paused = none ∧ seqWaits s c = true ∧ s.chain? 3 = some ch ∧ ch.halted = false) := by
  refine ⟨fun op h => ?_, by decide +kernel, by decide +kernel, by decide +kernel, ⟨by decide +kernel, by decide +kernel, _, by rfl⟩,
    by decide +kernel, by decide +kernel, by decide +kernel⟩
  simp at h
  rcases h with rfl | rfl | rfl | rfl <;> exact ⟨by decide +kernel, by decide +kernel, by decide +kernel, by decide +kernel, _, by rfl, ⟨_, _, by rfl⟩,
    by decide +kernel, by decide +kernel, by decide +kernel⟩

/-- A copy chain with its descriptor at 0x600000. -/
def chainOf (f : Chain → Chain) : Chain :=
  f { (default : Chain) with id := 3, desc := 0x600000, head := 0x20000, tail := 0, loaded := true, attached := true, scope := 6 }
/-- A state with that chain, TAIL in its descriptor and a block at 0x20000. -/
def chainS (f : Chain → Chain) (tail status : Nat) (b : List (Nat × Nat × Nat)) : State :=
  { streamS (stm .idle 0 0) ([(0x600000, 8, 0x20000), (0x600008, 8, tail), (0x600021, 1, 6), (0x600022, 1, status)] ++ b.map fun x => (0x20000 + x.1, x.2.1, x.2.2)) with
    eng := { base.eng with chains := [chainOf f] } }

/-- A reading of a chain's descriptor or block that answers these bytes. -/
def chainReads (s : State) (a : Nat) (bs : List Byte) : Prop := ∃ s₁, readSpan s 3 (whoEngine .copy 0 0) a bs.length = (s₁, .data bs)

/-- `ChainsRun`: chains that wait and are attached, that have no new block, that take NEXT, that read a good block and an ill-formed one, whose
address is misaligned, and that are halted with HALTED cleared and not. -/
theorem witness_ChainsRun :
    (∀ f ∈ [id, fun c : Chain => { c with attached := false }, fun c => { c with halted := true }, fun c => { c with needNext := true }], let c := chainOf f
      let s := chainS f 1 0 copyFields
      s.chain? 3 = some c ∧ c.loaded = true ∧ c.isPrivate = false ∧ c.owed = [] ∧ failedWrite s 3 = none ∧ c.engine ≠ noEngine ∧
        chainsAt s c.kind c.engine < 16 ∧ c.part < s.parts.length ∧ c.paused = none ∧ c.running = none) ∧
    (let s := { base with eng := { base.eng with chains := List.replicate 16 (chainOf id) } }
     16 ≤ chainsAt s .copy 0) ∧
    (let c := chainOf id
     c.head ≠ 0 ∧ c.head % 64 = 0 ∧ c.needNext = false ∧ c.seq < 1 ∧ (chainOf fun c => { c with head := 0x20020 }).head % 64 ≠ 0) ∧
    (∀ tail ∈ [0, 1], ∃ s₁, unitAcquire (chainS id tail 0 []) 3 (whoEngine .copy 0 0) 6 0x600008 8 = (s₁, .data (bytesOfNum 8 tail))) ∧
    (∀ next ∈ [0, 0x30020, 0x30000],
      let s := chainS (fun c => { c with needNext := true }) 1 0 [(0, 8, next)]
      ∃ s₁, unitAcquire s 3 (whoEngine .copy 0 0) 6 0x600008 8 = (s₁, .data (bytesOfNum 8 1)) ∧
        chainReads (s₁.updChain 3 fun _ => { chainOf (fun c => { c with needNext := true }) with tail := 1 }) 0x20000 (bytesOfNum 32 next)) ∧
    (∀ b ∈ [copyFields, (12, 1, 1) :: copyFields], ∃ s₁, unitAcquire (chainS id 1 0 b) 3 (whoEngine .copy 0 0) 6 0x600008 8 = (s₁, .data (bytesOfNum 8 1)) ∧
      ∃ s₂, readSpan (s₁.updChain 3 fun _ => { chainOf id with tail := 1 }) 3 (whoEngine .copy 0 0) 0x20000 64 = (s₂, .data ((blockOf 128 b).take 64)) ∧
        (∃ s₃, readSpan s₂ 3 (whoEngine .copy 0 0) 0x20000 128 = (s₃, .data (blockOf 128 b))) ∧ byteAt ((blockOf 128 b).take 64) 9 = 2) ∧
    kindChecks .copy (blockOf 128 copyFields) = none ∧ kindChecks .copy (blockOf 128 ((12, 1, 1) :: copyFields)) = some (1, 12) ∧
    byteAt (blockOf 64 []) 9 = 0 ∧ (kindChecks .copy (blockOf 64 [])).isSome = true ∧
    (∀ st ∈ [0, 1], ∃ s₁ b, unitAcquire (chainS (fun c => { c with halted := true }) 1 st []) 3 (whoEngine .copy 0 0) 6 0x600000 64 = (s₁, .data b) ∧
      byteAt b 34 % 2 = st ∧ descChecks b (need (byteAt b 32 = EngKind.copy.code) errKind 32) (fun st => decide (st < 8)) = none) := by
  refine ⟨by decide +kernel, by decide +kernel, by decide +kernel, fun t h => ?_, fun n h => ?_, fun b h => ?_, by decide +kernel, by decide +kernel,
    by decide +kernel, by decide +kernel, fun st h => ?_⟩
  · simp at h
    rcases h with rfl | rfl <;> exact unit_data (by decide +kernel)
  · simp only [List.mem_cons, List.not_mem_nil, or_false] at h
    rcases h with rfl | rfl | rfl <;> exact ⟨_, by rfl, unit_data (by decide +kernel)⟩
  · simp only [List.mem_cons, List.not_mem_nil, or_false] at h
    rcases h with rfl | rfl <;> exact ⟨_, by rfl, _, by rfl, unit_data (by decide +kernel), by decide +kernel⟩
  · simp at h
    rcases h with rfl | rfl <;> exact ⟨_, _, by rfl, by decide +kernel, by decide +kernel⟩

/-! ## Witnesses: matrix jobs and the Blend unit -/

/-- An answer that is no error. -/
theorem ok_ex {α β ε : Type} {r : α × Except ε β} (h : r.2.isOk = true) : ∃ u v, r = (u, .ok v) := by
  obtain ⟨u, e⟩ := r
  cases e with
  | ok v => exact ⟨u, v, rfl⟩
  | error _ => simp [Except.isOk, Except.toBool] at h

/-- A card of one E2M1 tile and one K-step at 0x40000, to a register (`dst` 0x40) or to memory (0x60). -/
def cardFields (dst : Nat) : List (Nat × Nat × Nat) :=
  [(0, 8, 0x40000), (8, 8, 0x40000), (53, 1, dst), (54, 1, 1), (55, 1, 1), (62, 2, if dst = 0x60 then 8 else 0), (64, 2, 1), (124, 2, 5), (126, 2, 5)]
/-- A job of keyring 0 of the one team, or of a command. -/
def jobOf (cmd : Option Nat) (card : Option (List Byte)) (step : Nat) : MatrixJob :=
  { (default : MatrixJob) with
    id := 5, cmd := cmd, cardAddr := 0x20000, card := card, decl := 1, step := step, regs := [⟨0, 2048 - 1024, []⟩]
    accs := if card = none then [] else [List.replicate 1024 0] }
/-- A state with that job and a card at 0x20000. -/
def jobS (j : MatrixJob) (card : List (Nat × Nat × Nat)) : State :=
  { streamS (stm .idle 0 0) (card.map fun x => (0x20000 + x.1, x.2.1, x.2.2)) with render := { Render.reset with jobs := [j] }, fresh := 9 }

/-- `MatrixAndBlendRun`: a block that starts, cards that are read, good and ill-formed, a K-step, and jobs of a keyring and of a block whose steps
are done. -/
theorem witness_MatrixRun :
    (let c := cmdOf .matrix (.matrix [1]) false
     let s := cmdS c []
     s.cmd? 7 = some c ∧ c.started = false ∧ c.paused = none) ∧
    (∀ dst ∈ [0x60, 0x80], let j := jobOf none none 0
      let s := jobS j (cardFields dst)
      s.job? 5 = some j ∧ jobMayRun s j = true ∧ j.card = none ∧
        ∃ s₁, unitRead s 5 ⟨0, some 0, 0, 2, false⟩ .read 0x20000 128 = (s₁, .data (blockOf 128 (cardFields dst)))) ∧
    (let b := blockOf 128 (cardFields 0x60)
     let fs := (jobRecord (jobS (jobOf none none 0) []) (jobOf none none 0)).fs
     cardChecks b fs false = none ∧ (cardOf b fs).acc = false ∧ (cardOf b fs).mem = true) ∧
    (let b := blockOf 128 (cardFields 0x80)
     let fs := (jobRecord (jobS (jobOf none none 0) []) (jobOf none none 0)).fs
     (cardChecks b fs false).isSome = true ∧ (b.getD 53 0).getLsbD 5 = false) ∧
    (let b := blockOf 128 (cardFields 0x40)
     let j := jobOf none (some b) 0
     let s := jobS j []
     let c := cardOf b (jobRecord s j).fs
     jobMayRun s j = true ∧ j.accs ≠ [] ∧ j.step < c.total ∧ j.ranks = 1 ∧ c.nt = 1 ∧ c.mem = false ∧
       ∃ s₁ d, unitReads s 5 ⟨0, some 0, 0, 2, false⟩ .read (spansA c 0 0 ++ spansB c 0 0) = (s₁, .ok d)) ∧
    (let b := blockOf 128 (cardFields 0x40)
     let j := jobOf none (some b) 1
     let s := jobS j []
     let c := cardOf b (jobRecord s j).fs
     j.step = c.total ∧ unitBusy s 5 = false ∧ failedWrite s 5 = none ∧ s.groupAt j.team 0 = some (grp s) ∧ (∀ h ∈ s.groups, ∀ x ∈ h.lanes, x.home = none) ∧
       (grp s).lanes.length = 32 ∧ 1024 + 128 * c.dst + 128 ≤ (grp s).rsize) ∧
    (let b := blockOf 128 (cardFields 0x60)
     let j := jobOf (some 7) (some b) 2
     let s := jobS j []
     jobMayRun s j = true ∧ j.accs ≠ [] ∧ (cardOf b []).total < j.step ∧ j.cmd ≠ none ∧ unitBusy s 5 = false ∧ failedWrite s 5 = none) ∧
    (let j := jobOf none none 0
     jobMayRun { jobS j [] with therm := { base.therm with trip := true } } j = false) := by
  refine ⟨by decide +kernel, fun dst h => ?_, by decide +kernel, by decide +kernel, ⟨by decide +kernel, by decide +kernel, by decide +kernel,
    by decide +kernel, by decide +kernel, by decide +kernel, ok_ex (by decide +kernel)⟩, by decide +kernel, by decide +kernel, by decide +kernel⟩
  simp at h
  rcases h with rfl | rfl <;> exact ⟨by decide +kernel, by decide +kernel, by decide +kernel, unit_data (by decide +kernel)⟩

/-- A network of one layer of one unit, with its weights at 0x40000. -/
def netFields : List (Nat × Nat × Nat) := [(0, 1, 1), (2, 1, 1), (8, 8, 0x40000), (32, 1, 1)]
/-- A tile of one row of lane 4. -/
def tileOf (inputs : Option (List Nat)) (desc : Option (List Byte)) : BlendTile :=
  { (default : BlendTile) with
    id := 5, handle := 0x20000, win := 8, maxg := 8, rows := [{ (default : BlendRow) with id := 6, lane := 4, dst := 1024, inputs := inputs }], desc := desc, ran := true }
/-- A state with that tile at a cycle. -/
def tileS (x : BlendTile) (cycle : Nat) : State :=
  { streamS (stm .idle 0 0) (netFields.map fun y => (0x20000 + y.1, y.2.1, y.2.2)) with
    render := { Render.reset with tiles := [x] }, time := { base.time with cycle := cycle } }

/-- `MatrixAndBlendRun`: a tile that closes at the end of its window and not before, a row that is written back, and one whose descriptor and
inputs are taken again. -/
theorem witness_BlendRun :
    (let x := tileOf none none
     let s := tileS x 8
     s.tile? 5 = some x ∧ x.desc = none ∧ x.opened + max 1 x.win ≤ s.time.cycle ∧ ¬(32 ≤ x.rows.length ∨ x.opened + max 1 x.win ≤ 7) ∧
       (x.rows.map fun r => (r.core, r.slot, r.lane)).Nodup ∧ (∀ r ∈ x.rows, ∀ g, s.group? r.core r.slot = some g → r.lane < g.lanes.length) ∧
       netBad (blockOf 256 netFields) (gridSlots s x.grid) = false ∧ (∀ r ∈ x.rows, rowPast s (netOf (blockOf 256 netFields) (gridSlots s x.grid)) r = false) ∧
       ∃ s₁, unitRead s 5 ⟨0, some 0, 0, 3, false⟩ .read 0x20000 256 = (s₁, .data (blockOf 256 netFields)) ∧
         ∃ s₂, checkSpans (dropArrived s₁ 5) ⟨0, some 0, 0, 3, false⟩ (netOf (blockOf 256 netFields) (gridSlots s x.grid)).spans.flatten = (s₂, none)) ∧
    (let x := tileOf (some [0x3F800000]) (some (blockOf 256 netFields))
     let s := tileS x 8
     let r := x.rows.getD 0 default
     s.render.tiles.find? (fun x => x.rows.any fun r => r.id == 6) = some x ∧ x.rows.find? (fun r => r.id == 6) = some r ∧ x.ran = true ∧
       s.group? r.core r.slot = some (grp s) ∧ r.lane < (grp s).lanes.length ∧ rowRuns s r = true ∧ (s.render.tiles.map BlendTile.id).Nodup ∧
       rowRuns { s with therm := { base.therm with trip := true } } r = false ∧
       ∃ s₁ d, unitReads s 5 x.who .read (netOf (blockOf 256 netFields) (gridSlots s x.grid)).spans.flatten = (s₁, .ok d)) ∧
    (let x := tileOf none (some (blockOf 256 netFields))
     let s := tileS x 8
     let r := x.rows.getD 0 default
     s.render.tiles.find? (fun x => x.rows.any fun r => r.id == 6) = some x ∧ x.rows.find? (fun r => r.id == 6) = some r ∧ x.ran = true ∧
       rowRuns s r = true ∧ r.inputs = none ∧ (s.render.tiles.map BlendTile.id).Nodup ∧ netBad (blockOf 256 netFields) (gridSlots s x.grid) = false ∧
       rowPast s (netOf (blockOf 256 netFields) (gridSlots s x.grid)) r = false ∧
       ∃ s₁, unitRead s 6 x.who .read x.handle 256 = (s₁, .data (blockOf 256 netFields))) := by
  refine ⟨⟨by decide +kernel, by decide +kernel, by decide +kernel, by decide +kernel, by decide +kernel, ?_, by decide +kernel, by decide +kernel, ?_⟩,
    ⟨by decide +kernel, by decide +kernel, by decide +kernel, by decide +kernel,
      by decide +kernel, by decide +kernel, by decide +kernel, by decide +kernel, ok_ex (by decide +kernel)⟩,
    by decide +kernel, by decide +kernel, by decide +kernel, by decide +kernel, by decide +kernel, by decide +kernel,
    by decide +kernel, by decide +kernel, unit_data (by decide +kernel)⟩
  · intro r hr g hg
    simp [tileOf] at hr
    subst hr
    have e : (tileS (tileOf none none) 8).group? 0 0 = some (grp base) := by decide +kernel
    have := e.symm.trans hg
    cases this
    decide +kernel
  · obtain ⟨s₁, h⟩ := unit_data (r := unitRead (tileS (tileOf none none) 8) 5 ⟨0, some 0, 0, 3, false⟩ .read 0x20000 256)
      (bs := blockOf 256 netFields) (by decide +kernel)
    have k : (checkSpans (dropArrived (unitRead (tileS (tileOf none none) 8) 5 ⟨0, some 0, 0, 3, false⟩ .read 0x20000 256).1 5) ⟨0, some 0, 0, 3, false⟩
      (netOf (blockOf 256 netFields) (gridSlots (tileS (tileOf none none) 8) 0)).spans.flatten).2 = none := by decide +kernel
    rw [h] at k
    exact ⟨s₁, h, _, Prod.ext rfl k⟩

/-! ## Witnesses: the Strainer -/

/-- A pass over one tile, its callable at 0x800000, or an advance of the frame to 9. -/
def passFields (mode : Nat) : List (Nat × Nat × Nat) :=
  if mode = 1 then [(8, 1, 1), (32, 4, 9), (36, 1, 3)] else [(36, 2, 1), (38, 2, 1), (41, 1, 1), (44, 2, 20), (56, 8, 0x800000)]
/-- A job whose pass has latched a screen of one tile. -/
def pass (mode : Nat) (pixels : List Nat) (work : Option PixelWork) (results : List (Nat × Reservoir)) : StrainJob :=
  { strainerJobOf (blockOf 192 (passFields mode)) with tcols := 1, trows := 1, bandw := 4, halod := 1, pixels := pixels, work := work, results := results }
/-- A state with that job, a screen in force of one tile and a backing of die 0. -/
def passS (j : StrainJob) (started : Bool) (rays : List RaySlot) : State :=
  let s := cmdS (cmdOf .strainer (.strainer j) started) [(0x800000, 4, 1), (0x800004, 4, 0x06FE79E1)]
  { s.updPart 0 (fun q => { q with res := { q.res with back0 := 0x700000, geom := ⟨0x10001, 0x10001, 0x10001⟩ } }) with
    render := { Render.reset with rays := rays } }
/-- A pixel under work with one candidate. -/
def workOf (pos : Nat) (testing : Option (Nat × Nat)) : PixelWork := ⟨0, default, [(default, 3)], pos, testing⟩
/-- A visibility ray. -/
def visRay (st : RayState) : RaySlot := { (default : RaySlot) with id := 8, owner := .strainer 7, state := st }

/-- `StrainerRuns`: a pass that starts, one past its screen; a pixel that is opened, merges an invalid candidate and is closed; a visibility ray
that is done and one that is not; results that are written, a pass that completes, and an advance. -/
theorem witness_StrainerRuns :
    (let j := strainerJobOf (blockOf 192 (passFields 0))
     let s := passS j false []
     s.cmd? 7 = some (cmdOf .strainer (.strainer j) false) ∧ (cmdOf .strainer (.strainer j) false).stopped s = false ∧ byteAt j.bytes 8 ≠ 1 ∧ j.tx0 + j.ntx ≤ (screenOn (s.part 0) 0).tcols ∧
       j.ty0 + j.nty ≤ (screenOn (s.part 0) 0).trows ∧ (s.part 0).res.back 0 ≠ 0 ∧
       ((readCallable s (cmdOf .strainer (.strainer j) false) j.call).2.isOk = true) ∧
       (∃ s₁ r, readCallable s (cmdOf .strainer (.strainer j) false) j.call = (s₁, .ok r) ∧ r.toOption = some [0x06FE79E1]) ∧
       (screenOn (Partition.reset 0) 0).tcols < j.tx0 + j.ntx) ∧
    (let j := pass 0 [0, 1] none []
     let c := cmdOf .strainer (.strainer j) true
     let s := passS j true []
     s.cmd? 7 = some c ∧ c.stopped s = false ∧ meterHeld s 0 3 = false ∧ (Partition.reset 0).res.back j.die = 0 ∧
       ∃ s₁ w, openPixel s c j 0 = (s₁, .ok w)) ∧
    (∀ pos ∈ [0, 1], let j := pass 0 [0] (some (workOf pos none)) []
      (passS j true []).cmd? 7 = some (cmdOf .strainer (.strainer j) true) ∧ (workOf pos none).testing = none ∧
        (pos = 0 → (workOf pos none).cands[pos]? = some (default, 3) ∧ (default : Reservoir).valid = false) ∧
        (pos = 1 → (workOf pos none).cands.length ≤ pos)) ∧
    (∀ st ∈ [RayState.done, .walk], let j := pass 0 [0] (some (workOf 0 (some (5, 8)))) []
      let s := passS j true [visRay st]
      s.cmd? 7 = some (cmdOf .strainer (.strainer j) true) ∧ s.ray? 8 = some (visRay st) ∧ (workOf 0 (some (5, 8))).cands[0]? = some (default, 3)) ∧
    (let j := pass 0 [] none [(0, default)]
     let c := cmdOf .strainer (.strainer j) true
     let s := passS j true []
     recordAddr ((s.part 0).res.back 0) j.screen (physPlane 0 j.frame) 0 0 0 = 0x700000 ∧
       (∃ s₁, engPlaces s c .write 0x700000 32 = (s₁, .ok [(.phys 0x700000, 32)]) ∧ engTrafficHeld s₁ c [(.phys 0x700000, 32)] = false ∧
         s₁.links.reach c.who.die (.phys 0x700000) = .here) ∧ j.sent = false ∧ unitBusy s 7 = false ∧ failedWrite s 7 = none ∧ (s.part 0).res.back j.die ≠ 0 ∧
       detmWriter s (cmdGroup c).1 (cmdGroup c).2 = none) ∧
    (∀ k, k < 32 → regionOf base.links (0x700000 + k) ≠ .outside ∧ regionOf base.links (0x700000 + k) ≠ .host ∧
      ∀ d, regionOf base.links (0x700000 + k) ≠ .chip d) ∧
    (let s := passS (pass 0 [] none []) true []
     s.cmd? 7 = some (cmdOf .strainer (.strainer (pass 0 [] none [])) true) ∧ unitBusy s 7 = false ∧ failedWrite s 7 = none ∧
       seqWaits s (cmdOf .strainer (.strainer (pass 0 [] none [])) true) = false) ∧
    (let j := strainerJobOf (blockOf 64 (passFields 1))
     let s := passS j false []
     s.cmd? 7 = some (cmdOf .strainer (.strainer j) false) ∧ byteAt j.bytes 8 = 1 ∧ 0 < s.parts.length ∧
       (cmdOf .strainer (.strainer j) false).stopped s = false ∧ (cmdOf .strainer (.strainer j) false).stopped { s with therm := { s.therm with trip := true } } = true) := by
  refine ⟨⟨by decide +kernel, by decide +kernel, by decide +kernel, by decide +kernel, by decide +kernel, by decide +kernel, by decide +kernel, ⟨_, _, by rfl, by decide +kernel⟩,
    by decide +kernel⟩, ⟨by decide +kernel, by decide +kernel, by decide +kernel, by decide +kernel, ok_ex (by decide +kernel)⟩, by decide +kernel, by decide +kernel,
    ⟨by decide +kernel, ⟨_, by rfl, by decide +kernel, by decide +kernel⟩, by decide +kernel⟩, dram_of (by decide +kernel), by decide +kernel, by decide +kernel⟩

/-! ## Witnesses: scene units -/

/-- A ray of lane 3 that reads a record at 0x20000. -/
def rayAt (isRef : Bool) (st : RayState) (a : Nat) : RaySlot :=
  { calledRay3 false with state := st, cand := none, stack := [(a, isRef)], dest := some (64, 64) }
/-- A march of lane 3 through the grid at 0x20000. -/
def marchAt (st : MarchState) (grid : Nat) : MarchSlot :=
  { (default : MarchSlot) with id := 9, lane := 3, dest := 64, geom := ⟨0xBF800000, 0x3F000000, 0x3F000000, 0x3F800000, 0, 0, 0, 0x7F800000⟩, grid := grid, state := st }
/-- A light walk of lane 3. -/
def walkAt (depth : Nat) : LightWalk := { (default : LightWalk) with id := 10, lane := 3, dest := some 64, base := 0x20000, depth := depth, pdf := 0x3F800000 }
/-- A state with units at work and a record at 0x20000. -/
def unitS (r : Render) (mem : List (Nat × Nat × Nat)) : State :=
  { streamS (stm .idle 0 0) (mem.map fun x => (0x20000 + x.1, x.2.1, x.2.2)) with render := r }
/-- A cluster reference to the page at 0x30000, with a box; a grid of one cell; and a light node with one child. -/
def refFields (bad : Nat) : List (Nat × Nat × Nat) := [(12, 4, 0x3F800000), (16, 4, 0x3F800000), (20, 4, 0x3F800000), (24, 8, 0x30000), (41, 1, bad)]
def gridFields : List (Nat × Nat × Nat) := [(12, 4, 0x3F800000), (16, 2, 1), (18, 2, 1), (20, 2, 1), (56, 4, 0x3F800000)]
def lightFields (ref : Nat) : List (Nat × Nat × Nat) := [(12, 4, 0x3F800000), (36, 4, ref), (100, 4, 0xFFFFFFFF)]

/-- `SceneUnitsRun`: rays that read a box node and cluster references, good and malformed, that meet a page that is not mapped, and whose result is
written. -/
theorem witness_RaysRun :
    (∀ steps ∈ [0, 4095], ∀ isRef ∈ [false, true], ∀ bad ∈ [0, 1], let r := { rayAt isRef .walk 0x20000 with steps := steps }
      let s := unitS { Render.reset with rays := [r] } (refFields bad)
      s.ray? 4 = some r ∧ rayRuns s r = true ∧ r.page = none ∧ r.stack = (0x20000, isRef) :: [] ∧
        ∃ s₁, unitRead s 4 ⟨dieOfCore r.core, some r.core, r.part, 5, false⟩ .read 0x20000 64 = (s₁, .data (blockOf 64 (refFields bad)))) ∧
    (refBad (blockOf 64 (refFields 0)) = false ∧ refProc (blockOf 64 (refFields 0)) = false ∧ refBad (blockOf 64 (refFields 1)) = true) ∧
    (let r := rayAt false .walk 0x80000000
     let s := unitS { Render.reset with rays := [r] } []
     ∃ s₁ lv, unitRead s 4 ⟨dieOfCore r.core, some r.core, r.part, 5, false⟩ .read 0x80000000 64 = (s₁, .fault 1 lv 0x80000000)) ∧
    (let r := rayAt false .done 0x20000
     let s := unitS { Render.reset with rays := [r] } []
     s.ray? 4 = some r ∧ r.owner = .lane 0 0 3 ∧ s.group? 0 0 = some (grp s) ∧ 3 < (grp s).lanes.length ∧ rayRuns s r = true) ∧
    (let r := { rayAt false .done 0x20000 with calling := true }
     let s := withLanes fun x => { x with home := some 1 }
     let h := other 1 8 .none true
     let s := { s with groups := s.groups ++ [{ h with lanes := h.lanes.map fun x => { x with home := some 0 } }], render := { Render.reset with rays := [r] } }
     ((grp s).lane 3).home = some 1 ∧ ((grp base).lane 3).home = none ∧ (s.render.rays = [r]) ∧ rayRuns s r = true ∧
       ∃ k, (swapBack s 0 0 3).group? 0 1 = some k ∧ 3 < k.lanes.length) := by
  refine ⟨fun steps h isRef _ bad h' => ?_, by decide +kernel, ⟨_, _, by rfl⟩, by decide +kernel, by decide +kernel, by decide +kernel, by decide +kernel,
    by decide +kernel, _, by rfl, by decide +kernel⟩
  simp at h h'
  rcases h with rfl | rfl <;> cases isRef <;> rcases h' with rfl | rfl <;>
    exact ⟨by decide +kernel, by decide +kernel, by decide +kernel, by decide +kernel, unit_data (by decide +kernel)⟩

/-- `SceneUnitsRun`: marches that end at once, that read a grid they enter, and one they miss; and light walks at every kind of child. -/
theorem witness_MarchesRun :
    (∀ st ∈ [MarchState.run, .landed], ∀ grid ∈ [0x20000, 0x20004], let m := marchAt st grid
      let s := unitS { Render.reset with marches := [m] } gridFields
      s.march? 9 = some m ∧ s.group? m.core m.slot = some (grp s) ∧ m.lane < (grp s).lanes.length ∧ laneUnitRuns s 0 0 = true ∧ m.geom.bad = false ∧
        m.cell = none) ∧
    (∃ s₁, unitRead (unitS { Render.reset with marches := [marchAt .run 0x20000] } gridFields) 9 ⟨0, some 0, 0, 5, false⟩ .read 0x20000 64 =
      (s₁, .data (blockOf 64 gridFields))) ∧
    gridBad (blockOf 64 gridFields) = false ∧ gridBad (blockOf 64 []) = true ∧
    (gridOfBytes (blockOf 64 gridFields)).firstCell (marchAt .run 0).line = some (0, 0, 0) ∧
    (gridOfBytes (blockOf 64 gridFields)).firstCell ({ marchAt .run 0 with geom := ⟨0xBF800000, 0x40400000, 0, 0x3F800000, 0, 0, 0, 0x7F800000⟩ } : MarchSlot).line = none ∧
    (∀ depth ∈ [0, 62, 63], let w := walkAt depth
      let s := unitS { Render.reset with walks := [w] } (lightFields 1)
      s.walk? 10 = some w ∧ s.group? w.core w.slot = some (grp s) ∧ w.lane < (grp s).lanes.length ∧ laneUnitRuns s 0 0 = true) ∧
    (∃ s₁, unitRead (unitS { Render.reset with walks := [walkAt 0] } (lightFields 1)) 10 ⟨0, some 0, 0, 3, false⟩ .read ((0x20000 + 128 * 0) % 2 ^ 64) 128 =
      (s₁, .data (blockOf 128 (lightFields 1)))) ∧
    (∀ ref ∈ [1, 0x80000005], lightBad (blockOf 128 (lightFields ref)) = false ∧ fieldAt (blockOf 128 (lightFields ref)) 36 4 = ref ∧
      fieldAt (blockOf 128 (lightFields ref)) 100 4 = 0xFFFFFFFF) ∧
    lightBad (blockOf 128 [(36, 4, 0xFFFFFFFF), (100, 4, 0xFFFFFFFF)]) = true := by
  refine ⟨by decide +kernel, unit_data (by decide +kernel), by decide +kernel, by decide +kernel, by decide +kernel, by decide +kernel, by decide +kernel,
    unit_data (by decide +kernel), by decide +kernel, by decide +kernel⟩

/-! ## Witnesses: the Deadbolt and the scheduler -/

/-- The one team changed, in a partition with or without a context area and rollback. -/
def teamS (f : Team → Team) (ctx roll : Bool) : State :=
  let s := base.updPart 0 fun q => { q with
    sch := { q.sch with ctx := if ctx then ⟨24, 0x1000000⟩ else .none }, setup := { q.setup with rollback := roll, qmask0 := 1 } }
  { s with teams := s.teams.map f }
/-- The one team. -/
def team0 (f : Team → Team) : Team := f (Team.start 0 0 0 0 0 [0] 0 65536)
/-- The team in a state of its Deadbolt. -/
def dbS (d : DbState) (k : DbKind) (x : Team) : Team := { x with db := d, dbKind := k }
/-- A state whose lanes have their mask set. -/
def masked (s : State) : State := s.updGroup 0 0 fun g => { g with lanes := g.lanes.map fun x => { x with tmsk := true } }

/-- `Deadbolts`: requests that are taken, latched and ignored; a latched request whose mask clears or whose deadline passes; and each state, with
and without room, accesses in flight and a checkpoint. -/
theorem witness_Deadbolts :
    (∀ ctx ∈ [false, true], ∀ roll ∈ [false, true], ∀ dest ∈ [none, some 1], let tm := team0 fun x => { x with dest := dest }
      let s := teamS (fun x => { x with dest := dest }) ctx roll
      s.team? 0 = some tm ∧ tm.db = .idle ∧ tm.state = .placed ∧ tm.latched = none ∧ latchOpen s tm = true ∧ latchOpen (masked s) tm = false ∧
        (masked s).team? 0 = some tm ∧ (ctx = true ↔ (s.part 0).sch.ctx.log2 ≠ 0) ∧ (s.part 0).setup.rollback = roll ∧
        tm.repeatable = true ∧ tm.rollbacks < 2 ∧ (s.grid? tm.grid).isSome = true ∧ (team0 fun x => { x with repeatable := false }).repeatable = false) ∧
    (let s := teamS (dbS .drainShd .cut) true false
     shadowsDrained s 0 = true ∧ shadowsDrained { s with shadows := [⟨0, grp base, [.issue default]⟩] } 0 = false) ∧
    (let tm := team0 (dbS .scan .cut)
     let s := { teamS (dbS .scan .cut) true true with sramPoison := [.sp 0 8] }
     imagePoison s tm 0 ≠ [] ∧ rollbackOn s 0 = true ∧ tm.repeatable = true ∧ tm.rollbacks < 2 ∧ copyRecorded s tm = false ∧
       imagePoison (teamS (dbS .scan .cut) true true) tm 0 = []) ∧
    (∀ d ∈ [0, 1], let tm := team0 fun x => { x with latched := some (.cut, d) }
      let s := masked (teamS (fun x => { x with latched := some (.cut, d) }) true false)
      s.team? 0 = some tm ∧ (d = 0 → d ≤ s.time.now) ∧ (d = 1 → s.time.now < d) ∧ teamDetm s tm = false) ∧
    (∀ d ∈ [DbState.drainShd, .freeze, .scan, .complete], ∀ k ∈ [DbKind.cut, .checkpoint, .migrate, .rollback],
      let tm := team0 (dbS d k)
      let s := teamS (dbS d k) true true
      s.team? 0 = some tm ∧ tm.db = d ∧ tm.dbKind = k ∧ copyRecorded s tm = false ∧ teamBusy s 0 = false ∧
        (∀ g ∈ s.groupsOf 0, ∀ l, l < 32 → (s.lane g.core g.slot l).home = none) ∧ (s.checkpoint? 0).isNone = true ∧ (s.grid? tm.grid).isSome = true ∧
        ∀ g ∈ s.groupsOf 0, ∀ h ∈ s.groupsOf 0, h.slot = g.slot → h = g) ∧
    (let s := teamS (dbS .scan .cut) true true
     areaPlace s 0 0 false (sectionsOf s (team0 (dbS .scan .cut))).len = some 0x1000000) ∧
    (let s := (teamS (dbS .scan .cut) true true).updPart 0 fun q => { q with sch := { q.sch with ctx := ⟨16, 0x1000000⟩, vacating := [0] } }
     areaPlace s 0 0 false (sectionsOf s (team0 (dbS .scan .cut))).len = none ∧ (s.part 0).sch.vacating ≠ [] ∧ 0 < s.parts.length) ∧
    (let s := { teamS (dbS .scan .cut) true true with ms := { base.ms with ranges := [⟨7, some 0, 0, 0, 127⟩] } }
     copyRecorded s (team0 (dbS .scan .cut)) = true) ∧
    (let s := { teamS (dbS .complete .cut) true true with ms := { base.ms with flights := [fl .write .request [part4] []] } }
     teamBusy s 0 = true) ∧
    (let tm := team0 (dbS .complete .rollback)
     let i : Image := { (default : Image) with checkpoint := true, groups := [grp base], record := tm }
     let s := { teamS (dbS .complete .rollback) true true with images := [i] }
     (s.checkpoint? 0).isSome = true ∧ i.written = false ∧ checkpointSlots s tm i = some [(0, none)] ∧ checkpointFits s tm i = true ∧
       (∀ g ∈ i.groups, g.team = 0) ∧ (i.groups.map Group.slot).Nodup) := by
  refine ⟨by decide +kernel, by decide +kernel, by decide +kernel, by decide +kernel, by decide +kernel, by decide +kernel, by decide +kernel,
    by decide +kernel, by decide +kernel, by decide +kernel⟩

/-- Two teams on core 0, the second pending in its quarter since the start, at a time when a migration may begin. -/
def twoS (f : Team → Team) : State :=
  let s := teamS f true false
  { s with
    time := { s.time with now := 1000000000 }
    teams := s.teams ++ [f { (Team.start 1 0 0 1 0 [1] 65536 65536) with id := 1 }]
    groups := s.groups ++ [{ other 1 4 .none false with team := 1, index := 0 }] }

/-- `Migrations`: a team that may migrate, latched and not, one that may not; a copy that is done; entries that expire and that do not; and
messages that meet an entry and that meet none. -/
theorem witness_Migrations :
    (let s := twoS id
     ∃ tm, s.team? 1 = some tm ∧ mayMigrate s tm 1 = true ∧ (∀ u ∈ s.teams, u.core = tm.core → mayMigrate s u 1 = true → u.linear ≤ tm.linear) ∧
       latchOpen s tm = true) ∧
    (let s := (twoS id).updGroup 0 1 fun g => { g with lanes := g.lanes.map fun x => { x with tmsk := true } }
     ∃ tm, s.team? 1 = some tm ∧ mayMigrate s tm 1 = true ∧ latchOpen s tm = false) ∧
    (∃ tm, base.team? 0 = some tm ∧ ownsCore (base.part tm.part).setup 1 = false) ∧
    (let f := fun x : Team => { x with db := .close, dbKind := .migrate, state := .migrating, dest := some 1 }
     let s := teamS f true false
     let tm := team0 f
     s.team? 0 = some tm ∧ tm.latched = none ∧ copyRecorded s tm = false ∧
       pickSlots (s.part 0).setup.shadow (usedSlots s 1) ((s.groupsOf 0).map Group.index) = some [(0, none)] ∧ scratchRun s 1 tm.spfoot = some 0 ∧
       ((s.groupsOf 0).map Group.slot).Nodup ∧ s.scratch.wf = true) ∧
    (let e : FwdEntry := ⟨2, [0], 0, 64000, 0, 65536⟩
     let f := fl .write .request [⟨.sp 2 256, 4, none, false⟩] [1, 2, 3, 4]
     ∀ now ∈ [63999, 64000], let s := { flying f with fwd := [e], time := { base.time with now := now } }
       (s.fwd.filter fun f => f.core == 2)[0]? = some e ∧ (s.fwd.filter fun f => f.core == 2)[1]? = none ∧ s.flight? 5 = some f ∧
         f.stage ≠ .performed ∧ f.engine = none ∧ (s.group? 2 0).isNone = true ∧
         s.fwd.find? (fun e => e.core == 2 && e.slots.contains 0 && decide (s.time.now < e.until_)) = if now = 63999 then some e else none) ∧
    (∀ c ∈ [0, 2], let f := fl .write .request [⟨.sp c 256, 4, none, false⟩] [1, 2, 3, 4]
      let s := flying f
      s.flight? 5 = some f ∧ f.stale s = decide (c = 2) ∧ f.engine = none ∧ f.stage ≠ .performed ∧ s.fwd = []) := by
  refine ⟨⟨_, by rfl, by decide +kernel⟩, ⟨_, by rfl, by decide +kernel⟩, ⟨_, by rfl, by decide +kernel⟩, by decide +kernel, by decide +kernel, by decide +kernel⟩

/-- Two grids of classes 1 and 0 that take all of a core's scratchpad, the first on core 0, the only core that is not disabled. -/
def classS : State :=
  let big := fun (r : LaunchRec) (c : Nat) => { r with bclass := c, spfoot := 393216, regsz := 1 }
  let s := teamS (fun x => { x with spfoot := 393216 }) true false
  { s.updPart 0 (fun q => { q with sch := { q.sch with preen := true } }) with
    grids := [{ oneGrid with rcd := big oneRecord 1 }, { oneGrid with id := 1, slot := 1, nextTeam := 0, order := 1, rcd := big oneRecord 0 }]
    disabledCores := [1, 2, 3] }

/-- `PeriodsAndPreemption`: a boundary that has come and one that has not; cores withheld; a class that pre-empts and one that may not; and a
mismatch of a store with and without rollback. -/
theorem witness_PeriodsAndPreemption :
    (∀ n ∈ [0, 1], let s := base.updPart 0 fun q => { q with
        sch := { q.sch with periodNext := n, meters := q.sch.meters.set 0 ⟨9, true⟩, withheld := [3], withheldUntil := n, peState := 2 }
        setup := { q.setup with budget := [4, 0, 0, 0, 0, 0] } }
      0 < s.parts.length ∧ (s.part 0).state = .active ∧ (n = 0 → (s.part 0).sch.periodNext ≤ s.time.now) ∧ (n = 1 → s.time.now < (s.part 0).sch.periodNext) ∧
        (s.part 0).sch.withheld ≠ [] ∧ (s.part 0).sch.meters[0]? = some ⟨9, true⟩) ∧
    (let s := classS
     ∃ gr, (waitingGrids s 0).find? (fun g => g.slot == 1 && classTriggers s g) = some gr ∧
       pickVacated s 0 gr.die (gr.rcd.bclass + 1) gr.rcd.cluster 288 [] = [0] ∧ (s.teams.map Team.id).Nodup ∧
       ∀ tm ∈ s.teams, tm.part = 0 ∧ tm.state = .placed ∧ tm.db = .idle ∧ latchOpen s tm = true ∧ tm.core = 0) ∧
    (base.part 0).sch.preen = false ∧
    (base.part 0).sch.periodNext = 0 ∧ ∀ g ∈ waitingGrids base 0, classTriggers base g = false := by
  refine ⟨by decide +kernel, ⟨_, by rfl, by decide +kernel⟩, by decide +kernel, by decide +kernel, by decide +kernel⟩

/-- The group with a shadow in slot 1, whose queue is given, where a `gst` of G4 to 0x20000 is about to issue, with no image in flash, whose
opaque fields nothing evaluates. -/
def shadowS (q : List ShadowEntry) (roll : Bool) (f : Group → Group) : State :=
  let s := State.reset.withFetchWord 32 0x8DC40001
  let s := s.updGroup 0 0 fun g => { g with shadow := some 1, g := g.g.set 0 0x20000 }
  let g := grp s
  let s := s.updPart 0 fun q => { q with setup := { q.setup with rollback := roll, shadow := true }, sch := { q.sch with ctx := ⟨24, 0x1000000⟩ } }
  { s with
    caddy := { s.caddy with cfgA := none, fwA := none }
    agenda := [], issue := ⟨0, 0, List.range 32, 0x10000, 0x8DC40001, 0⟩, shadows := [⟨0, f { g with slot := 1, shadow := none }, q⟩] }
/-- Its shadow. -/
def shadow0 (s : State) : Shadow := (shadowOf s (grp s)).getD default
/-- Whether an access that a compare releases is fetched. -/
def fetchesCompared (s : State) : Bool :=
  match fetchCohort s 0 0 0 with
  | .words t w1 w2 => (match decodeWords w1 w2 with
    | .ok i => (comparedVal t (grp s) (t.issue.lanes.headD 0) i).isSome
    | .error _ => false)
  | .nothing _ => false
/-- Whether the group and its shadow make the same access. -/
def shadowAgrees (s : State) : Option Bool :=
  match exec (.gst 7 4 0 0) s, exec (.gst 7 4 0 0) (withShadow s (grp s) (shadow0 s)) with
  | .next t, .next u => some (agrees (grp s) t u)
  | _, _ => none

/-- `PeriodsAndPreemption`: a group with a shadow, whose queue is empty, holds entries or is full; shadows that make the same access, another one,
and that stand elsewhere; a mismatch with and without rollback; and a shadow that has its turn. -/
theorem witness_ShadowGroups :
    (shadowOf base (grp base) = none ∧ base.group? 0 0 = some (grp base)) ∧
    (∀ roll ∈ [false, true], let s := shadowS [] roll id
      s.group? 0 0 = some (grp s) ∧ shadowOf s (grp s) = some (shadow0 s) ∧ (shadow0 s).queue = [] ∧ fetchesCompared s = true ∧
        s.issuing? = some (grp s) ∧ rollbackOn s (s.partOf (grp s)) = roll ∧
        (∃ tm, s.team? (grp s).team = some tm ∧ tm.part = s.partOf (grp s) ∧ tm.repeatable = true ∧ tm.rollbacks < 2 ∧ tm.db = .idle ∧ tm.state = .placed) ∧
        ∀ l, l < 32 → ((runIssue s id).lane 0 0 l).live = true ∧ ((runIssue s id).lane 0 0 l).pend.getD 3 none = none) ∧
    (let s := shadowS [] false fun g => { g with lanes := g.lanes.map fun x => { x with exited := true } }
     s.issuing? = some (grp s)) ∧
    (∀ n ∈ [0, 1, 255, 256], let s := shadowS (List.replicate n (.issue default)) false id
      (shadow0 s).queue.length = n ∧ s.issuing? = some (grp s) ∧ shadowOf s (grp s) = some (shadow0 s)) ∧
    (let s := shadowS [] false id
     (comparedVal s (grp s) 0 (.gst 7 4 0 0) = some 0x20000) ∧ comparedVal s (grp s) 0 (.exit 7) = none ∧
       (∀ l ∈ s.issue.lanes, ((shadow0 s).group.lane l).pc = s.issue.pc) ∧ shadowAgrees s = some true) ∧
    shadowAgrees (shadowS [] false fun g => { g with g := g.g.set 4 9 }) = some false ∧
    (let s := shadowS [] false fun g => { g with lanes := g.lanes.map fun x => { x with pc := 0x10004 } }
     ∃ l ∈ s.issue.lanes, ((shadow0 s).group.lane l).pc ≠ s.issue.pc) ∧
    (let s := shadowS [.issue default] false id
     shadowIn { s with agenda := [] } 0 1 = some (shadow0 s) ∧ shadow0 s ∈ s.shadows ∧ (shadow0 s).queue = [.issue default] ∧
       (shadow0 s).leader s = some (grp s)) := by
  refine ⟨by decide +kernel, fun roll h => ?_, by decide +kernel, by decide +kernel, by decide +kernel, by decide +kernel, by decide +kernel,
    by decide +kernel⟩
  simp only [List.mem_cons, List.not_mem_nil, or_false] at h
  rcases h with rfl | rfl <;> exact ⟨by decide +kernel, by decide +kernel, by decide +kernel, by decide +kernel, by decide +kernel, by decide +kernel,
    ⟨_, by rfl, by decide +kernel⟩, by decide +kernel⟩

/-! ## Witnesses: the module -/

/-- Caddy changed. -/
def caddyS (f : Caddy → Caddy) : State := { State.reset with caddy := f State.reset.caddy }
/-- A record of the event log. -/
def logRec (n : Nat) : LogRec := ⟨5, n, 1, 2, 3, 4, 5, 6, true⟩

/-- `TimePowerAndLinks`: before and after bring-up step 6, with Caddy running and stopped, hot sensors, a clock whose step is due and not, and links of
each kind. -/
theorem witness_TimePowerAndLinks :
    State.reset.caddy.bootStep < 7 ∧
    (let s := caddyS fun c => { c with bootStep := 7 }
     7 ≤ s.caddy.bootStep ∧ -2147484 ≤ s.time.adj ∧ s.time.adj ≤ 2147484) ∧
    (caddyS fun c => { c with running := false }).caddy.running = false ∧ State.reset.caddy.running = true ∧
    (∀ v ∈ ([759, 760, 799, 800, 879, 880] : List Int), hottest [⟨3, v.toNat, 1, true⟩] = some (3, v)) ∧
    State.reset.therm.trip = false ∧ State.reset.time.now < State.reset.therm.lastStep + 1000000 ∧
    (let s := { State.reset with time := { State.reset.time with now := 1000000 } }
     s.caddy.running = true ∧ s.therm.lastStep + 1000000 ≤ s.time.now) ∧
    (∀ n ∈ [0, 39], State.reset.links.hinge[n]? = some ⟨0, 0, 0⟩) ∧ State.reset.links.ports[15]? = some 8 ∧ State.reset.links.width = 0 ∧
    ({ State.reset.links with width := 16 } : Links).width ≠ 0 := by
  refine ⟨by decide +kernel, by decide +kernel, by decide +kernel, by decide +kernel, by decide +kernel, by decide +kernel, by decide +kernel,
    by decide +kernel, by decide +kernel, by decide +kernel, by decide +kernel, by decide⟩

/-- `CaddyServes`: a buffer with room, records in flash, attestation requests with room and without, and an update session. -/
theorem witness_CaddyServes :
    State.reset.caddy.logBuf.length < 256 ∧
    (let c := (caddyS fun c => { c with logBuf := [logRec 64], flash := [logRec 65] }).caddy
     c.running = true ∧ (∃ r, c.logBuf = [r] ∧ r.seqNo % 64 = 0) ∧ c.flash.find? (fun r => r.seqNo == 65 && r.crcOk) = some (logRec 65) ∧
       ∀ r ∈ c.flash, r.seqNo ≠ 66 ∨ r.crcOk = false) ∧
    (let c := (caddyS fun c => { c with logBuf := [logRec 65] }).caddy
     (∀ r ∈ c.logBuf, r.seqNo % 64 ≠ 0 ∧ ∀ x ∈ c.flash, x.seqNo % 65536 ≠ r.seqNo % 65536) ∧ (c.logBuf.map fun r => r.seqNo % 65536).Nodup ∧
       c.logBuf = logRec 65 :: [] ∧ c.running = true) ∧
    (caddyS fun c => { c with attest := [1, 2, 3] }).caddy.attest.length < 4 ∧ 4 ≤ (caddyS fun c => { c with attest := [1, 2, 3, 4] }).caddy.attest.length ∧
    (∀ b ∈ [false, true], let c := (caddyS fun c => { c with attest := [7], mayReport := b }).caddy
      c.attest = 7 :: [] ∧ c.running = true ∧ c.mayReport = b) ∧
    State.reset.caddy.session = none ∧
    (let c := (caddyS fun c => { c with session := some 3 }).caddy
     c.running = true ∧ c.session = some 3 ∧ c.nextFw < 2 ∧ c.nextCfg < 2) ∧ State.reset.parts.length = 16 := by
  refine ⟨by decide +kernel, ⟨by decide +kernel, ⟨_, rfl, by decide⟩, by decide +kernel, by decide +kernel⟩, by decide +kernel, by decide +kernel,
    by decide +kernel, by decide +kernel, by decide +kernel, by decide +kernel, by decide +kernel⟩

/-- `ResetAndRetirement`: each step of bring-up with images that are good and that are not; a scrub with failures; cores with and without teams and
spares; and both ends of a die's slices. -/
theorem witness_ResetAndRetirement :
    (∀ n ∈ [1, 2, 3, 4, 5, 6, 7], let c := (caddyS fun c => { c with bootStep := n }).caddy
      c.stopped = false ∧ c.ready = false ∧ c.bootStep = n) ∧
    (let c := State.reset.caddy
     (∃ x, c.fw c.nextFw = some x ∧ x.signed = true ∧ c.minSvn ≤ x.svn) ∧ c.fw (1 - c.nextFw) = none ∧
       (∃ x, c.cfg c.nextCfg = some x ∧ x.signed = true ∧ x.spare = 0 ∧ x.bodyZero = true ∧ c.minSvn ≤ x.svn ∧
         ∀ k, k < 144 → x.coremap0.count k = 1 ∧ x.coremap1.count k = 1) ∧ c.cfg (1 - c.nextCfg) = none ∧ c.lastScrub.length = 2 ∧
       c.running = true ∧ c.logBuf.length < 256 ∧ c.pendFw = false) ∧
    (let c := (caddyS fun c => { c with nextFw := 1, nextCfg := 1, pendFw := true }).caddy
     c.fw c.nextFw = none ∧ (c.fw (1 - c.nextFw)).isSome = true ∧ c.cfg c.nextCfg = none ∧ (c.cfg (1 - c.nextCfg)).isSome = true ∧ c.pendFw = true) ∧
    (let c := (caddyS fun c => { c with fwA := none, cfgA := none }).caddy
     c.fw 0 = none ∧ c.fw 1 = none ∧ c.cfg 0 = none ∧ c.cfg 1 = none) ∧
    (let s := teamS id true false
     0 < 288 ∧ 0 ∉ s.disabledCores ∧ (∃ x ∈ s.teams, x.core = 0) ∧ (s.teams.map Team.id).Nodup ∧
       ∀ tm ∈ s.teams, tm.part < 16 ∧ (s.part tm.part).sch.ctx.log2 ≠ 0 ∧ tm.state = .placed ∧ tm.db = .idle ∧ latchOpen s tm = true) ∧
    287 ∉ base.disabledCores ∧ (∀ x ∈ base.teams, x.core ≠ 287) ∧ base.caddy.spares (dieOfCore 287) = 0 ∧
    0 < (caddyS fun c => { c with spares1 := 1 }).caddy.spares (dieOfCore 287) ∧ base.parts[15]? = some (Partition.reset 15) ∧
    (let s := { State.reset with powered := false }
     s.powered = false ∧ s.mem.wf = true) ∧
    (let body (n : Nat) : ConfigBody := { (default : ConfigBody) with scrubPeriod := 100, threshold := n }
     ∀ now ∈ [99, 100], ∀ n ∈ [1, 2], let s := { (caddyS fun c => { c with cfgA := c.cfgA.map fun x => { x with body := body n } }) with
        time := { State.reset.time with now := now } }
      (now = 99 ↔ s.time.now < s.caddy.lastScrub.getD 1 0 + s.config.body.scrubPeriod) ∧
        (n = 1 ↔ ¬countOf s.caddy.regionErrs 1 5 + 1 < max 1 s.config.body.threshold)) ∧
    (regionOf State.reset.links (64 * 2048) = .gddr 0) ∧ State.reset.links.hinge[39]? = some ⟨0, 0, 0⟩ ∧ State.reset.links.ports[15]? = some 8 := by
  refine ⟨by decide +kernel, ⟨⟨_, rfl, by decide +kernel⟩, by decide +kernel, ⟨_, rfl, by decide +kernel⟩, by decide +kernel, by decide +kernel,
    by decide +kernel⟩, by decide +kernel, by decide +kernel, by decide +kernel, by decide +kernel, by decide +kernel, by decide +kernel,
    by decide +kernel, by decide +kernel, by decide +kernel, by decide +kernel, by decide +kernel, by decide +kernel, by decide +kernel⟩

/-- `RegistersOfThePart`: reads before and after READY, of a stream, and of a Strainer that is idle and one that runs a pass. -/
theorem witness_RegisterReads :
    State.reset.caddy.ready = false ∧ State.reset.links.width ≤ 16 ∧ State.reset.links.rate ≤ 7 ∧ State.reset.caddy.bootStep < 16 ∧
    State.reset.caddy.slotFw < 2 ∧ State.reset.caddy.slotCfg < 2 ∧ State.reset.caddy.spares0 < 16 ∧ State.reset.caddy.spares1 < 16 ∧
    nextOf (exec (.registerWrite .pf 8 64 none) State.reset) = some (State.reset.send (.regData .pf 8 64 0)) ∧
    (let s := { streamS (stm .idle 3 4) [] with caddy := { State.reset.caddy with ready := true } }
     s.caddy.ready = true ∧ (s.part 0).err < 16 ∧ (s.part 0).fbTail < 2 ^ 64 ∧ s.stream? 0 0 = some (stm .idle 3 4)) ∧
    (let c := cmdOf .strainer (.strainer (strainerJobOf (blockOf 192 []))) true
     let s := cmdS c []
     (s.eng.cmds.filter fun c => c.kind == .strainer && c.engine == 0) = [c] ∧
       (s.eng.cmds.filter fun c => c.kind == .strainer && c.engine == 71) = [] ∧ strainFaulted s 71 = false ∧ s.eng.chains = [] ∧ c.part < 16 ∧
       (strainerJobOf (blockOf 192 [])).pixels.length < 8192) := by
  refine ⟨by decide +kernel, by decide +kernel, by decide +kernel, by decide +kernel, by decide +kernel, by decide +kernel, by decide +kernel,
    by decide +kernel, ?_, by decide +kernel, by decide +kernel⟩
  rfl

/-! ## Worked examples of the spec -/

/-- R257's example: lane 5 of group 2 of team 7 with GPT 4 has global lane 965, and its counter words are 3, 0x3_C501, 0 and 9. -/
theorem test_draw_counter : drawAt 7 0x100000003 9 965 = steep 3 0x3C501 0 9 7 0 := by decide

/-- Chapter 16's block of 16: 100, -3 and 0.01 in `e4m3` have codes 0x7C, 0xD4 and 0x12 with scale byte 0x7D. -/
theorem test_quantise_block :
    let q := quantBlock (slotOf 0x33) (([0x42C80000, 0xC0400000, 0x3C23D70A] ++ List.replicate 13 0).map (decodeVal fmtFP32)) []
    q.codes.take 4 = [0x7C, 0xD4, 0x12, 0] ∧ q.scale = 0x7D := by decide

/-- Chapter 16's tree and chain of 2^24, 1, 1 and 1: the tree gives 2^24 + 2 and the chain 2^24. -/
theorem test_tree_and_chain :
    code32 ((tree32 (([0x4B800000, 0x3F800000, 0x3F800000, 0x3F800000].map fun c => some (decodeVal fmtFP32 c)) ++
      List.replicate 28 none)).1.getD (.fin false 0 0)) = 0x4B800001 ∧
    code32 (chainSum [0x4B800000, 0x3F800000, 0x3F800000, 0x3F800000]).1 = 0x4B800000 := by decide

/-- Chapter 11's four columns: `diff`, `ratio` and `gate` of each. -/
theorem test_drain_columns :
    ([(0x06828000, 0x05827000), (0x04820000, 0x03800000), (0x017F0000, 0x017E0000), (0x00000000, 0x02810000)].map fun x =>
      let e := splitOf x.1 x.2
      ((drainElem .diff 0 0x0CCD 3 e).1, (drainElem .ratio 0 0x0CCD 3 e).1, (drainElem .gate 0 0x0CCD 3 e).1)) =
    [([0x3F000000], [0x3F755555], [0]), ([0x40C00000], [0x3E800000], [0x40C00000]), ([0x3F000000], [0x3F000000], [0]),
      ([0xC0800000], [0x7F7FFFFF], [0])] := by decide

/-- Chapter 13's normalise: WSUM 4.5, M 3 and PHAT 2 give W 0.75. -/
theorem test_normalise :
    (resNorm { handle := 2, phat := 0x40000000, wsum := 0x40900000, w := 0, m := 3, flags := 1, rctr := 3, ftag := 5 }).w = 0x3F400000 := by
  decide

/-- Chapter 13's light walk divides 3 by 5: 0.6 rounded is 0x3F19_999A. -/
theorem test_divx : (xReproducible 3 0x40400000 0x40A00000).code = 0x3F19999A := by decide

/-- Chapter 16's compress of four segments: GB0 reads 0x0000_1803. -/
theorem test_compress_counts :
    (nextOf (exec (.compress ⟨false, 7⟩ 2 3 1) (withG fun g =>
      { g with
        wlog := 3
        segen := 0xF
        lanes := g.lanes.mapIdx fun i x =>
          { x with preds := if [1, 4, 5, 16, 17, 18, 19, 20, 21, 22, 23, 31].contains i then 2 else 0 } }))).map (fun t => (grp t).gb0) =
      some 0x00001803 := by decide

end Sys2Proof.Tests
end

/-!
Registers of partitions, and the windows through which software writes and reads them (R41, R53 to R79, R84, R90, R96 to R98, R144 to R149,
R199, R301, R322).
-/
namespace Sys2Proof.Machine

/-! ## Updates of a partition under a guard -/

/-- Two updates that agree on the partition as it stands leave the same state. -/
theorem State.updPart_congr {s : State} {p : Nat} {f g : Partition → Partition} (h : f (s.part p) = g (s.part p)) :
    s.updPart p f = s.updPart p g := by
  unfold State.updPart
  congr 1
  apply List.ext_getElem?
  intro i
  simp only [List.getElem?_modify]
  by_cases hi : p = i
  · subst hi
    cases hq : s.parts[p]? with
    | none => rfl
    | some q =>
      have hp : s.part p = q := by simp [State.part, hq]
      rw [hp] at h
      simp [h]
  · simp [hi]

theorem State.updPart_id (s : State) (p : Nat) : s.updPart p (fun q => q) = s := by
  unfold State.updPart
  congr 1
  exact List.modify_id ..

/-- A guard that is asked of the partition decides between the update and none. -/
theorem State.updPart_ite (s : State) (p : Nat) (c : Partition → Prop) [DecidablePred c] (f : Partition → Partition) :
    (s.updPart p fun q => if c q then f q else q) = if c (s.part p) then s.updPart p f else s := by
  split
  next h => exact State.updPart_congr (by simp [h])
  next h => exact (State.updPart_congr (by simp [h])).trans (s.updPart_id p)

theorem State.part_updPart_same (s : State) {p : Nat} (h : p < s.parts.length) (f : Partition → Partition) :
    (s.updPart p f).part p = f (s.part p) := by
  rw [part_updPart, if_pos ⟨rfl, h⟩]

/-- A result that a guard decides is one state where the guard holds and the other where it does not. -/
theorem next_of_guard {c ok : Prop} [Decidable c] (h : c ↔ ok) {r : Result} {a b : State} (hr : r = .next (if c then a else b)) :
    (ok → r = .next a) ∧ (¬ok → r = .next b) :=
  ⟨fun k => by rw [hr, if_pos (h.2 k)], fun k => by rw [hr, if_neg fun j => k (h.1 j)]⟩

/-! ## Heads and areas -/

theorem ringHeadOk_iff (head tail n h : Nat) :
    ringHeadOk head tail n h = true ↔ h < n ∧ (h + n - head) % n ≤ (tail + n - head) % n := by
  simp only [ringHeadOk, Bool.and_eq_true, decide_eq_true_eq]
  refine and_congr_right fun hn => ?_
  rw [ringCount, if_neg (Nat.ne_zero_of_lt hn)]

theorem areaLog2Ok_iff (a : AreaReg) (lo hi : Nat) : areaLog2Ok a lo hi = true ↔ a.log2 = 0 ∨ lo ≤ a.log2 ∧ a.log2 ≤ hi := by
  simp [areaLog2Ok]

theorem areaInRange_iff (u : Setup) (a : AreaReg) :
    areaInRange u a = true ↔ a.log2 = 0 ∨ ∃ r ∈ u.ranges, 0 < r.2 ∧ r.1 ≤ a.base ∧ a.base + 2 ^ a.log2 ≤ r.1 + r.2 := by
  simp only [areaInRange, inRanges, Bool.or_eq_true, decide_eq_true_eq, List.any_eq_true, Bool.and_eq_true, and_assoc]

theorem noTeamPlaced_iff (s : State) (p : Nat) :
    (!s.teams.any fun t => t.part == p && t.state != .pending) = true ↔ ∀ t ∈ s.teams, t.part = p → t.state = .pending := by
  simp

/-- A write of an area register takes the area where its guard holds (R149). -/
theorem writeArea_ctx (s : State) (p v : Nat) : writeArea s p 0 v =
    if areaLog2Ok (areaOf v) 16 40 = true ∧ areaInRange (s.part p).setup (areaOf v) = true then
      s.updPart p fun q => { q with sch := { q.sch with ctx := areaOf v } }
    else s := by
  simp only [writeArea]
  cases areaInRange (s.part p).setup (areaOf v) <;> simp

theorem writeArea_odr (s : State) (p v : Nat) : writeArea s p 1 v =
    if areaLog2Ok (areaOf v) 12 24 = true ∧ areaInRange (s.part p).setup (areaOf v) = true then
      s.updPart p fun q => { q with sch := { q.sch with odr := areaOf v } }
    else s := by
  simp only [writeArea]
  cases areaInRange (s.part p).setup (areaOf v) <;> simp

theorem writeArea_ls (s : State) (p v : Nat) : writeArea s p 2 v =
    if areaLog2Ok (areaOf v) 16 40 = true ∧ areaInRange (s.part p).setup (areaOf v) = true ∧
        (!s.teams.any fun t => t.part == p && t.state != .pending) = true then
      s.updPart p fun q => { q with sch := { q.sch with ls := areaOf v } }
    else s := by
  simp only [writeArea]
  cases areaInRange (s.part p).setup (areaOf v) <;> simp

/-! ## Vacating cores -/

/-- The second state differs from the first in its teams alone. -/
def TeamsOnly (s t : State) : Prop := { t with teams := s.teams } = s

theorem TeamsOnly.refl (s : State) : TeamsOnly s s := rfl

theorem TeamsOnly.trans {a b c : State} (h : TeamsOnly a b) (k : TeamsOnly b c) : TeamsOnly a c := by
  unfold TeamsOnly at *
  rw [← k] at h
  exact h

/-- What does not look at the teams is as it was. -/
theorem TeamsOnly.field {s t : State} (h : TeamsOnly s t) {α : Type} (f : State → α) (hf : f { t with teams := s.teams } = f t) : f t = f s :=
  hf.symm.trans (congrArg f h)

theorem TeamsOnly.updTeam (s : State) (id : Nat) (f : Team → Team) : TeamsOnly s (s.updTeam id f) := rfl

theorem TeamsOnly.foldl {α : Type} {f : State → α → State} (h : ∀ s x, TeamsOnly s (f s x)) (xs : List α) (s : State) :
    TeamsOnly s (xs.foldl f s) := by
  induction xs generalizing s with
  | nil => exact .refl s
  | cons x xs ih => exact (h s x).trans (ih _)

theorem TeamsOnly.cutOrLatch (s : State) (t : Team) : TeamsOnly s (cutOrLatch s t .cut) := by
  unfold Machine.cutOrLatch
  rw [if_pos rfl]
  simp only
  split
  · exact (updTeam s t.id _).trans (updTeam _ t.id _)
  · exact (updTeam s t.id _).trans (updTeam _ t.id _)

theorem TeamsOnly.requestCut (s : State) (id : Nat) : TeamsOnly s (requestDeadbolt s id .cut) := by
  unfold requestDeadbolt
  split
  · exact .refl s
  · simp only
    split
    · exact .cutOrLatch s _
    · exact .refl s

/-- Asking for cuts changes teams alone (R144). -/
theorem TeamsOnly.requestCuts (s : State) (p : Nat) : TeamsOnly s (requestCuts s p) := by
  unfold Machine.requestCuts
  refine TeamsOnly.foldl (fun s t => ?_) _ s
  split
  · split
    · exact .requestCut s _
    · exact .refl s
  · exact .refl s

/-- A fold that keeps its choice or takes the next element chooses an element of the list. -/
theorem foldl_choice_mem {α : Type} {f : Option α → α → Option α} (hf : ∀ b x, f (some b) x = some b ∨ f (some b) x = some x) (xs : List α)
    (b : α) : ∃ t ∈ b :: xs, xs.foldl f (some b) = some t := by
  induction xs generalizing b with
  | nil => exact ⟨b, .head _, rfl⟩
  | cons x xs ih =>
    rw [List.foldl_cons]
    rcases hf b x with h | h
    · obtain ⟨t, ht, e⟩ := ih b
      exact ⟨t, by simp only [List.mem_cons] at ht ⊢; tauto, by rw [h, e]⟩
    · obtain ⟨t, ht, e⟩ := ih x
      exact ⟨t, .tail _ ht, by rw [h, e]⟩

/-- Where some team may be vacated, one of them is chosen (R144). -/
theorem nextVacated_mem (s : State) {ts : List Team} (h : ts ≠ []) : ∃ t ∈ ts, nextVacated s ts = some t := by
  obtain ⟨t, ts, rfl⟩ := List.exists_cons_of_ne_nil h
  unfold nextVacated
  rw [List.foldl_cons]
  refine foldl_choice_mem (fun b x => ?_) ts t
  simp only
  split
  · exact .inr rfl
  · exact .inl rfl

theorem mem_clusterTeams {s : State} {t : Team} (h : t ∈ s.teams) : t ∈ s.clusterTeams t := by
  unfold State.clusterTeams
  split
  · simp [h]
  · simp

/-- A placed team's core is among those on which its cluster stands. -/
theorem core_mem_clusterOn {s : State} {t : Team} (h : t ∈ s.teams) (hc : t.core < savedBase) : t.core ∈ clusterOn s t := by
  unfold clusterOn
  simp only [List.mem_filter, List.mem_map, decide_eq_true_eq]
  exact ⟨⟨t, mem_clusterTeams h, rfl⟩, hc⟩

theorem pickVacated_keeps (s : State) (p die above n fuel : Nat) {cs : List Nat} {c : Nat} (h : c ∈ cs) :
    c ∈ pickVacated s p die above n fuel cs := by
  induction fuel generalizing cs with
  | zero => exact h
  | succ fuel ih =>
    unfold pickVacated
    split
    · exact h
    · split
      · exact h
      · exact ih (by simp [h])

/-- Cores are picked where at least one is asked for and a team holds one (R144). -/
theorem pickVacated_ne_nil {s : State} {p die above n fuel : Nat} (hn : 0 < n) (hd : die < 2) (h : vacatable s p die above [] ≠ []) :
    pickVacated s p die above n (fuel + 1) [] ≠ [] := by
  obtain ⟨t, ht, hv⟩ := nextVacated_mem s h
  unfold pickVacated
  rw [if_neg (by simp; omega), hv]
  simp only
  obtain ⟨hs, hc⟩ : t ∈ s.teams ∧ t.core < savedBase := by
    simp only [vacatable, List.mem_filter, Bool.and_eq_true, beq_iff_eq, dieOfCore] at ht
    obtain ⟨hs, ⟨⟨-, hd'⟩, -⟩, -⟩ := ht
    exact ⟨hs, by unfold savedBase; omega⟩
  exact List.ne_nil_of_mem (pickVacated_keeps s p die above n fuel (c := t.core) (by simp [core_mem_clusterOn hs hc]))

/-- A partition that is asked to leave some cores (R144, R146). -/
def Partition.leaving (q : Partition) (cs : List Nat) (cls : Nat) (keep : Bool) : Partition :=
  { q with sch := { q.sch with peState := 1, vacated := 0, keep := keep, withheld := [], withheldClass := cls, vacating := cs } }

theorem vacate_eq {s : State} {p die n above cls : Nat} {keep : Bool} (hc : pickVacated s p die above n 288 [] ≠ []) :
    vacate s p die n above cls keep =
      requestCuts (s.updPart p fun q => q.leaving (pickVacated s p die above n 288 []) cls keep) p := by
  simp only [vacate, List.isEmpty_iff, if_neg hc]
  rfl

/-- A request that is taken names the cores to vacate, and changes no bytes and no groups (R144). -/
theorem vacate_taken {s : State} {p die n above cls : Nat} {keep : Bool} (hp : p < s.parts.length)
    (hc : pickVacated s p die above n 288 [] ≠ []) :
    let t := vacate s p die n above cls keep
    t.mem = s.mem ∧ t.groups = s.groups ∧ t.part p = (s.part p).leaving (pickVacated s p die above n 288 []) cls keep := by
  simp only [vacate_eq hc]
  have only := TeamsOnly.requestCuts (s.updPart p fun q => q.leaving (pickVacated s p die above n 288 []) cls keep) p
  exact ⟨only.field State.mem rfl, only.field State.groups rfl, (only.field (State.part · p) rfl).trans (s.part_updPart_same hp _)⟩

/-! ## Registers of a partition -/

theorem execPkgScreenWrite_taken (s : State) (p v : Nat) :
    exec (.pkgScreenWrite p v) s = .next (s.updPart p fun q => { q with
      screenBandw := { q.screenBandw with written := if v % 8 ∈ [1, 2, 3, 4] then v % 8 else (s.part p).screenBandw.written }
      screenHalod := { q.screenHalod with written := if v / 16 % 4 < 3 then v / 16 % 4 else (s.part p).screenHalod.written } }) := by
  refine congrArg _ (State.updPart_congr ?_)
  simp only [Partition.putScreen]
  have hb : (1 ≤ v % 8 && v % 8 ≤ 4) = decide (v % 8 ∈ [1, 2, 3, 4]) := by
    rw [Bool.eq_iff_iff]; simp; omega
  rw [hb]
  congr 1
  · by_cases h : v % 8 ∈ [1, 2, 3, 4] <;> simp only [h, if_true, if_false, decide_true, decide_false, Bool.false_eq_true]
  · split <;> rfl

theorem pfivEntry_eq (old v : Nat) : pfivEntry old v = (if v % 32 < 16 then v % 32 else old % 32) + v / 128 % 2 * 128 := by
  unfold pfivEntry
  split <;> split <;> omega

theorem execPfivmapWrite_set (s : State) {n : Nat} (h : n < s.pf.ivmap.length) (v : Nat) :
    let e := (if v % 32 < 16 then v % 32 else s.pf.ivmap.getD n 0 % 32) + v / 128 % 2 * 128
    exec (.pfivmapWrite n v) s = .next { s with pf := { s.pf with ivmap := s.pf.ivmap.set n e } } := by
  intro e
  have hm : (s.pf.ivmap.modify n fun old => pfivEntry old v) = s.pf.ivmap.set n e := by
    rw [List.modify_eq_set_get _ h, List.get_eq_getElem, pfivEntry_eq, ← List.getD_eq_getElem s.pf.ivmap 0 h]
  show Host.Outcome.next (writePfivmap s n v) = _
  rw [writePfivmap, hm]

/-- A HEAD inside the occupied span is taken, and any other ignored (R148, R149). -/
theorem writeOdrHead_eq (s : State) (p v : Nat) : writeOdrHead s p v =
    if ringHeadOk (s.part p).sch.odrHead (s.part p).sch.odrTail (s.part p).sch.odr.records (v % 2 ^ 19) then
      s.updPart p fun q => { q with sch := { q.sch with odrHead := v % 2 ^ 19 } } else s := by
  rw [← s.updPart_ite p fun q => ringHeadOk q.sch.odrHead q.sch.odrTail q.sch.odr.records (v % 2 ^ 19) = true]
  rfl

theorem writeRfHead_eq (s : State) (p v : Nat) : writeRfHead s p v =
    if ringHeadOk (s.part p).rf.head (s.part p).rf.tail (s.part p).rf.area.records (v % 2 ^ 19) then
      s.updPart p fun q => { q with rf := { q.rf with head := v % 2 ^ 19 } } else s := by
  rw [← s.updPart_ite p fun q => ringHeadOk q.rf.head q.rf.tail q.rf.area.records (v % 2 ^ 19) = true]
  rfl

/-- A request to vacate cores is ignored while another runs, without a context area, for no cores, and for more than are owned (R144). -/
theorem writePreempt_ignored {s : State} {p v : Nat} (h : (s.part p).sch.peState ≠ 0 ∨ (s.part p).sch.ctx.log2 = 0 ∨ v / 256 % 256 = 0 ∨
    ownedOn (s.part p).setup (v % 2) < v / 256 % 256) : writePreempt s p v = s := by
  simp only [writePreempt]
  rw [if_pos (by simpa [or_assoc] using h)]

theorem writePreempt_taken {s : State} {p v : Nat} (hs : (s.part p).sch.peState = 0) (hc : (s.part p).sch.ctx.log2 ≠ 0)
    (hn : 0 < v / 256 % 256) (ho : v / 256 % 256 ≤ ownedOn (s.part p).setup (v % 2)) :
    writePreempt s p v = vacate s p (v % 2) (v / 256 % 256) 0 (v / 65536 % 4) true := by
  simp only [writePreempt]
  rw [if_neg (by simp only [hs, hc, Nat.ne_of_gt hn, Nat.not_lt.2 ho]; decide)]

theorem vacatable_ne_nil {s : State} {p die : Nat} (h : ∃ t ∈ s.teams, t.part = p ∧ t.state ≠ .pending ∧ t.core / 144 = die) :
    vacatable s p die 0 [] ≠ [] := by
  obtain ⟨t, ht, hp, hs, hd⟩ := h
  exact List.ne_nil_of_mem (a := t) (by simp [vacatable, ht, hp, hs, hd, dieOfCore])

/-- The registers of a partition (R41, R79, R144, R148, R149, R199, R301): each is taken where its guard holds, and ignored elsewhere. -/
theorem partitionRegisters : Rule.PartitionRegisters := by
  intro s p v hp q put span area here a ring bandw halod
  have log2Ok (lo hi : Nat) : areaLog2Ok a lo hi = true ↔ area lo hi := areaLog2Ok_iff a lo hi
  have inRange : areaInRange q.setup a = true ↔ here := areaInRange_iff q.setup a
  refine ⟨?screen, ?geom, ?ivmap, ?odrHead, ?rfHead, ?ctx, ?odr, ?ls, ?rf, ?ignored, ?taken⟩
  case screen => exact ⟨fun _ => execPkgScreenWrite_taken s p v, fun h => absurd trivial h⟩
  case geom => exact ⟨fun _ => rfl, fun h => absurd trivial h⟩
  case ivmap => exact fun n hn => execPfivmapWrite_set s hn v
  case odrHead => exact next_of_guard (ringHeadOk_iff ..) (congrArg _ (writeOdrHead_eq s p v))
  case rfHead => exact next_of_guard (ringHeadOk_iff ..) (congrArg _ (writeRfHead_eq s p v))
  case ctx => exact next_of_guard (and_congr (log2Ok 16 40) inRange) (congrArg _ (writeArea_ctx s p v))
  case odr => exact next_of_guard (and_congr (log2Ok 12 24) inRange) (congrArg _ (writeArea_odr s p v))
  case ls => exact next_of_guard (and_congr (log2Ok 16 40) (and_congr inRange (noTeamPlaced_iff s p))) (congrArg _ (writeArea_ls s p v))
  case rf => exact next_of_guard (by simp only [Bool.and_eq_true, Bool.or_eq_true, decide_eq_true_eq]; exact and_congr (log2Ok 12 24) .rfl) rfl
  case ignored => exact fun h => congrArg _ (writePreempt_ignored h)
  case taken =>
    intro hs hc hn ho ht
    have picked : pickVacated s p (v % 2) 0 (v / 256 % 256) 288 [] ≠ [] := pickVacated_ne_nil hn (Nat.mod_lt _ (by decide)) (vacatable_ne_nil ht)
    obtain ⟨hm, hg, hq⟩ := vacate_taken (cls := v / 65536 % 4) (keep := true) hp picked
    exact ⟨_, congrArg Host.Outcome.next (writePreempt_taken hs hc hn ho), hm, hg, picked, hq⟩

/-! ## One write -/

/-- The write of an aligned 64-bit access at `off` (R77). -/
def RegWrite.word (off v : Nat) : RegWrite := ⟨off, 2 ^ 64 - 1, v % 2 ^ 64, true⟩

theorem regWrite_word {off : Nat} (h : off % 8 = 0) (v : Nat) : regWrite off 64 v = some (.word off v) := by
  simp [regWrite, RegWrite.word, h]

theorem regWrite_ignored {off w : Nat} (h : ¬(w = 64 ∧ off % 8 = 0 ∨ w = 32 ∧ off % 4 = 0)) (v : Nat) : regWrite off w v = none := by
  unfold regWrite
  rw [if_neg (by simp; tauto), if_neg (by simp; tauto)]

@[simp] theorem RegWrite.word_place (off v : Nat) : (word off v).place = off := rfl
@[simp] theorem RegWrite.word_val (off v : Nat) : (word off v).val = v % 2 ^ 64 := rfl
@[simp] theorem RegWrite.word_whole (off v : Nat) : (word off v).whole = true := rfl
@[simp] theorem RegWrite.word_low (off v : Nat) : (word off v).low = true := decide_eq_true (by norm_num [word])
@[simp] theorem RegWrite.word_at (off v o : Nat) : { word off v with place := o } = word o v := rfl
@[simp] theorem RegWrite.word_ones (off v : Nat) : (word off v).ones = v % 2 ^ 64 := by
  simp only [ones, word, Nat.and_two_pow_sub_one_eq_mod, Nat.mod_mod]

theorem RegWrite.word_ones_testBit (off v : Nat) {i : Nat} (h : i < 64) : (word off v).ones.testBit i = v.testBit i := by
  rw [word_ones, Nat.testBit_mod_two_pow, decide_eq_true h, Bool.true_and]

/-- What a whole write leaves in the bits of a register that it may write (R77). -/
theorem RegWrite.word_merge_and (off v old : Nat) {m : Nat} (h : m < 2 ^ 64) : (word off v).merge old m &&& m = v &&& m := by
  apply Nat.eq_of_testBit_eq
  intro i
  by_cases hi : i < 64
  · simp only [merge, word, andNot, Nat.testBit_and, Nat.testBit_or, Nat.testBit_xor, Nat.testBit_two_pow_sub_one, Nat.testBit_mod_two_pow, hi]
    cases m.testBit i <;> cases old.testBit i <;> simp
  · have hm : m.testBit i = false := Nat.testBit_lt_two_pow (lt_of_lt_of_le h (Nat.pow_le_pow_right (by decide) (by omega)))
    simp [hm]

theorem RegWrite.word_merge_mod (off v old : Nat) {n : Nat} (h : n ≤ 64) : (word off v).merge old (2 ^ n - 1) % 2 ^ n = v % 2 ^ n := by
  have hn : 2 ^ n - 1 < 2 ^ 64 := lt_of_lt_of_le (Nat.sub_lt (Nat.two_pow_pos n) (by decide)) (Nat.pow_le_pow_right (by decide) h)
  rw [← Nat.and_two_pow_sub_one_eq_mod, word_merge_and off v old hn, Nat.and_two_pow_sub_one_eq_mod]

/-! ## Accesses -/

theorem exec_write_pf (s : State) {off : Nat} (h : off % 8 = 0) (v : Nat) :
    exec (.registerWrite .pf off 64 (some v)) s = .next (writePfWindow s (.word off v)) := by
  show Host.Outcome.next (writeRegister s .pf off 64 v) = _
  rw [writeRegister, regWrite_word h]

theorem retryOf_ready {s : State} (h : s.caddy.ready = true) (fn : RegFn) : retryOf s fn = none := by
  cases fn <;> simp [retryOf, h]

theorem exec_write_ready {s : State} (hr : s.caddy.ready = true) (fn : RegFn) (off w v : Nat) :
    exec (.registerWrite fn off w (some v)) s = .next (writeRegister s fn off w v) := by
  show Host.Outcome.next _ = _
  rw [retryOf_ready hr]

theorem exec_write_part {s : State} (hr : s.caddy.ready = true) (p : Nat) {off : Nat} (h : off % 8 = 0) (v : Nat) :
    exec (.registerWrite (.part p) off 64 (some v)) s = .next (writePartWindow s p (.word off v)) := by
  rw [exec_write_ready hr, writeRegister, regWrite_word h]

theorem exec_write_ignored {s : State} {fn : RegFn} {off w : Nat} (hr : retryOf s fn = none)
    (h : ¬(w = 64 ∧ off % 8 = 0 ∨ w = 32 ∧ off % 4 = 0)) (v : Nat) : exec (.registerWrite fn off w (some v)) s = .next s := by
  show Host.Outcome.next _ = _
  rw [hr]
  simp only [writeRegister, regWrite_ignored h]

theorem exec_not_ready {s : State} (h : s.caddy.ready = false) (p off w : Nat) (x : Option Nat) :
    exec (.registerWrite (.part p) off w x) s = .next (s.send (.configRetry p)) := by
  show Host.Outcome.next _ = _
  simp [retryOf, h]

/-! ## Windows -/

/-- A page of a partition in a block of the physical function's window, whose place lies `o` into it (R149). -/
theorem partPage_at {p o : Nat} (hp : p < 16) (ho : o < 0x100) : partPage (0x1000 + 0x100 * p + o) = some (p, o) := by
  unfold partPage
  rw [if_pos (by simp; omega)]
  simp only [Option.some.injEq, Prod.mk.injEq]
  omega

/-- An access of the physical function to a partition's control page reaches it as the partition's own access does (R73). -/
theorem regWrite_control (p off w v : Nat) : regWrite (0x100000 + 0x10000 * p + off) w v =
    (regWrite off w v).map fun x => { x with place := 0x100000 + 0x10000 * p + x.place } := by
  unfold regWrite
  have h8 : (0x100000 + 0x10000 * p + off) % 8 = off % 8 := by omega
  have h4 : (0x100000 + 0x10000 * p + off) % 4 = off % 4 := by omega
  have hd : (0x100000 + 0x10000 * p + off) / 8 * 8 = 0x100000 + 0x10000 * p + off / 8 * 8 := by omega
  rw [h8, h4, hd]
  split
  · rfl
  · split <;> rfl

theorem regWrite_place {off w v : Nat} {x : RegWrite} (h : regWrite off w v = some x) : x.place ≤ off := by
  unfold regWrite at h
  split at h
  · cases h; exact le_rfl
  · split at h
    · cases h; exact Nat.div_mul_le_self off 8
    · cases h

theorem writePfWindow_control (s : State) {p : Nat} (hp : p < 16) (w : RegWrite) (h : w.place < 0x10000) :
    writePfWindow s { w with place := 0x100000 + 0x10000 * p + w.place } = writePartWindow s p w := by
  have hk : (0x100000 + 0x10000 * p + w.place) / 0x100000 = 1 := by omega
  have ho : (0x100000 + 0x10000 * p + w.place) % 0x100000 / 0x10000 = p := by omega
  have hq : (0x100000 + 0x10000 * p + w.place) % 0x100000 % 0x10000 = w.place := by omega
  simp only [writePfWindow, writePartWindow, hk, ho, hq, h, if_true]

theorem writeRegister_control (s : State) {p off : Nat} (hp : p < 16) (ho : off < 0x10000) (w v : Nat) :
    writeRegister s .pf (0x100000 + 0x10000 * p + off) w v = writeRegister s (.part p) off w v := by
  simp only [writeRegister, regWrite_control]
  cases hx : regWrite off w v with
  | none => rfl
  | some x => exact writePfWindow_control s hp x (lt_of_le_of_lt (regWrite_place hx) ho)

/-! ## What the windows reach -/

section windows
variable (s : State) (v : Nat)

theorem writePfWindow_hif {o : Nat} (h : o < 0x100000) : writePfWindow s (.word o v) = writeHif s (.word o v) := by
  simp only [writePfWindow, RegWrite.word_place, Nat.div_eq_of_lt h]

theorem writePfWindow_pkg {o : Nat} (h : o < 0x100000) : writePfWindow s (.word (0x200000 + o) v) = writePkg s (.word o v) := by
  have hk : (0x200000 + o) / 0x100000 = 2 := by omega
  have ho : (0x200000 + o) % 0x100000 = o := by omega
  simp only [writePfWindow, RegWrite.word_place, hk, ho, RegWrite.word_at]

theorem writePfWindow_hng {n : Nat} (h : n < 40) (hv : v.testBit 31 = true) :
    writePfWindow s (.word (0x400000 + 8 * n) v) = clearCrc s n := by
  have hk : (0x400000 + 8 * n) / 0x100000 = 4 := by omega
  have ho : (0x400000 + 8 * n) % 0x100000 = 8 * n := by omega
  have hd : 8 * n / 8 = n := by omega
  simp only [writePfWindow, RegWrite.word_place, hk, ho, hd, RegWrite.word_ones_testBit _ v (show 31 < 64 by decide), hv]
  rw [if_pos (by simp; omega)]

/-- A place `o` of a partition's page in a block whose window starts at `0x100000 * k` (R149). -/
theorem place_in_page {k p o : Nat} (hp : p < 16) (ho : o < 0x100) :
    (0x100000 * k + (0x1000 + 0x100 * p + o)) / 0x100000 = k ∧
      partPage ((0x100000 * k + (0x1000 + 0x100 * p + o)) % 0x100000) = some (p, o) := by
  refine ⟨by omega, ?_⟩
  rw [Nat.mul_add_mod, Nat.mod_eq_of_lt (by omega), partPage_at hp ho]

theorem writePfWindow_mem {p o : Nat} (hp : p < 16) (ho : o < 0x100) (w : RegWrite) (h : w.place = 0x100000 * 5 + (0x1000 + 0x100 * p + o)) :
    writePfWindow s w = writeMem s p o w := by
  obtain ⟨hk, hq⟩ := place_in_page (k := 5) hp ho
  simp only [writePfWindow, h, hk, hq]

theorem writePfWindow_sch {p o : Nat} (hp : p < 16) (ho : o < 0x100) (w : RegWrite) (h : w.place = 0x100000 * 6 + (0x1000 + 0x100 * p + o)) :
    writePfWindow s w = writeSch s p o w := by
  obtain ⟨hk, hq⟩ := place_in_page (k := 6) hp ho
  simp only [writePfWindow, h, hk, hq]

theorem writePfWindow_l2 {p o : Nat} (hp : p < 16) (ho : o < 0x100) (w : RegWrite) (h : w.place = 0x100000 * 7 + (0x1000 + 0x100 * p + o)) :
    writePfWindow s w = writeL2 s p o w := by
  obtain ⟨hk, hq⟩ := place_in_page (k := 7) hp ho
  simp only [writePfWindow, h, hk, hq]

theorem writePartWindow_control (p : Nat) {o : Nat} (h : o < 0x10000) : writePartWindow s p (.word o v) = writeControl s p (.word o v) := by
  simp only [writePartWindow, RegWrite.word_place, h, if_true]

theorem writePartWindow_stream (p : Nat) {st o : Nat} (hs : st < 256) (ho : o < 0x1000) (w : RegWrite)
    (h : w.place = 0x100000 + 0x1000 * st + o) : writePartWindow s p w = writeStream s p st o w := by
  have hst : (0x100000 + 0x1000 * st + o - 0x100000) / 0x1000 = st := by omega
  have hoff : (0x100000 + 0x1000 * st + o) % 0x1000 = o := by omega
  simp only [writePartWindow, h, hst, hoff]
  rw [if_neg (by omega), if_neg (by omega), if_pos (by simp; omega)]

end windows

/-! ## What a whole write does -/

section effects
variable (s : State) (p v : Nat)

theorem writeAdj_mod : writeAdj s (v % 2 ^ 64) = writeAdj s v := by
  have h : v % 2 ^ 64 % 4294967296 = v % 4294967296 := Nat.mod_mod_of_dvd v (by decide)
  have hz : ((v % 2 ^ 64 : Nat) : Int) % 4294967296 = (v : Int) % 4294967296 := by exact_mod_cast h
  simp only [writeAdj, clampAdj, signed32, h, hz]

theorem writeStep_mod : writeStep s (v % 2 ^ 64) = writeStep s v := by
  simp only [writeStep, Nat.add_mod_mod]

theorem writePwrcap_mod : writePwrcap s (v % 2 ^ 64) = writePwrcap s v := by
  rw [writePwrcap, Nat.mod_mod_of_dvd v (by decide : 4096 ∣ 2 ^ 64), writePwrcap]

theorem writePreempt_mod : writePreempt s p (v % 2 ^ 64) = writePreempt s p v := by
  have hd : v % 2 ^ 64 % 2 = v % 2 := by omega
  have hn : v % 2 ^ 64 / 256 % 256 = v / 256 % 256 := by omega
  have hc : v % 2 ^ 64 / 65536 % 4 = v / 65536 % 4 := by omega
  simp only [writePreempt, hd, hn, hc]

theorem putScreen_mod (q : Partition) : q.putScreen (v % 2 ^ 64) = q.putScreen v := by
  have hb : v % 2 ^ 64 % 8 = v % 8 := by omega
  have hh : v % 2 ^ 64 / 16 % 4 = v / 16 % 4 := by omega
  simp only [Partition.putScreen, hb, hh]

theorem writeTail_mod (st : Nat) : writeTail s p st (v % 2 ^ 64 % 2 ^ 32) = writeTail s p st v := by
  have h : v % 2 ^ 64 % 2 ^ 32 % 4294967296 = v % 4294967296 := by omega
  simp only [writeTail, seeTail, h]

/-- An event takes of the merged value the bits that a whole write may change, and those are the written ones (R77). -/
theorem writeFbHead_merge (off old : Nat) : writeFbHead s p ((RegWrite.word off v).merge old (2 ^ 18 - 1)) = writeFbHead s p v := by
  have h : (RegWrite.word off v).merge old (2 ^ 18 - 1) % 262144 = v % 262144 := RegWrite.word_merge_mod off v old (by decide : 18 ≤ 64)
  simp only [writeFbHead, h]

theorem writeOdrHead_merge (off old : Nat) : writeOdrHead s p ((RegWrite.word off v).merge old (2 ^ 19 - 1)) = writeOdrHead s p v := by
  have h : (RegWrite.word off v).merge old (2 ^ 19 - 1) % 524288 = v % 524288 := RegWrite.word_merge_mod off v old (by decide : 19 ≤ 64)
  simp only [writeOdrHead, h]

theorem writeRfHead_merge (off old : Nat) : writeRfHead s p ((RegWrite.word off v).merge old (2 ^ 19 - 1)) = writeRfHead s p v := by
  have h : (RegWrite.word off v).merge old (2 ^ 19 - 1) % 524288 = v % 524288 := RegWrite.word_merge_mod off v old (by decide : 19 ≤ 64)
  simp only [writeRfHead, h]

theorem putGeom_merge (q : Partition) (off old : Nat) : q.putGeom ((RegWrite.word off v).merge old geomBits) = q.putGeom v := by
  unfold Partition.putGeom
  rw [RegWrite.word_merge_and off v old (by norm_num [geomBits])]

end effects

/-! ## Writes that act as events -/

theorem acts_pf {s t : State} {off v : Nat} {i : Instr} (h : off % 8 = 0) (hw : writePfWindow s (.word off v) = t) (hi : exec i s = .next t) :
    exec (.registerWrite .pf off 64 (some v)) s = exec i s ∧ ∃ t, exec i s = .next t :=
  ⟨by rw [exec_write_pf s h, hw, hi], t, hi⟩

theorem acts_part {s t : State} (hr : s.caddy.ready = true) {p off v : Nat} {i : Instr} (h : off % 8 = 0)
    (hw : writePartWindow s p (.word off v) = t) (hi : exec i s = .next t) :
    exec (.registerWrite (.part p) off 64 (some v)) s = exec i s ∧ ∃ t, exec i s = .next t :=
  ⟨by rw [exec_write_part hr p h, hw, hi], t, hi⟩

/-- The instruction as which a partition command acts (R84). -/
theorem exec_pcmd (s : State) {v p op : Nat} {b : Bool} (ho : op < 8) (hp : v % 16 = p) (hop : v / 16 % 8 = op) (hb : v.testBit 7 = b) :
    exec (if op = 1 then .partitionCreate p else if op = 2 then .partitionResize p else if op = 3 then .partitionReset p b
      else if op = 4 then .partitionDestroy p b else .partitionCmdBadOp p) s = .next (writePcmd s v) := by
  subst hp hb
  simp only [writePcmd, hop]
  clear hop
  interval_cases op <;> rfl

/-- The fields of a written `HIF_PCMD` (R84). -/
theorem pcmd_fields {p op : Nat} (b : Bool) (hp : p < 16) (ho : op < 8) :
    let v := p + 16 * op + (if b then 128 else 0)
    v % 16 = p ∧ v / 16 % 8 = op ∧ v.testBit 7 = b ∧ v % 2 ^ 64 = v := by
  intro v
  have hv : v = p + 16 * op + 128 * b.toNat := by cases b <;> rfl
  have hb : b.toNat < 2 := b.toNat_lt
  refine ⟨by omega, by omega, ?_, by omega⟩
  rw [Nat.testBit_eq_decide_div_mod_eq, show v / 2 ^ 7 % 2 = b.toNat by omega]
  cases b <;> rfl

section pf
variable (s : State) (v : Nat)

theorem writePfWindow_pcmd : writePfWindow s (.word 8 v) = writePcmd s (v % 2 ^ 64) := by
  rw [writePfWindow_hif s v (by decide)]
  simp [writeHif]

theorem writePfWindow_istat : writePfWindow s (.word 0x300 v) =
    { s with pf := { s.pf with istat := s.pf.istat ^^^ (s.pf.istat &&& (v % 2 ^ 64)) } } := by
  rw [writePfWindow_hif s v (by decide)]
  simp only [writeHif, RegWrite.word_place, RegWrite.clear, andNot, RegWrite.word_ones]
  rfl

theorem writePfWindow_pwrcap : writePfWindow s (.word 0x200010 v) = writePwrcap s v := by
  rw [writePfWindow_pkg s v (o := 0x10) (by decide), ← writePwrcap_mod]
  simp only [writePkg, RegWrite.word_place, RegWrite.word_low, RegWrite.word_val, if_true]

theorem writePfWindow_adj : writePfWindow s (.word 0x200108 v) = writeAdj s v := by
  rw [writePfWindow_pkg s v (o := 0x108) (by decide), ← writeAdj_mod]
  simp only [writePkg, RegWrite.word_place, RegWrite.word_low, RegWrite.word_val, if_true]

theorem writePfWindow_step : writePfWindow s (.word 0x200110 v) = writeStep s v := by
  rw [writePfWindow_pkg s v (o := 0x110) (by decide), ← writeStep_mod]
  simp only [writePkg, RegWrite.word_place, RegWrite.word_whole, RegWrite.word_val, if_true]

theorem exec_step_half : exec (.registerWrite .pf 0x200110 32 (some v)) s = .next s := by
  show Host.Outcome.next (writeRegister s .pf 0x200110 32 v) = _
  simp [writeRegister, regWrite, writePfWindow, writePkg]

variable {p : Nat} (hp : p < 16)
include hp

theorem writePfWindow_rfHead : writePfWindow s (.word (0x501008 + 0x100 * p) v) = writeRfHead s p v := by
  rw [writePfWindow_mem s hp (o := 0x08) (by decide) _ (by simp only [RegWrite.word_place]; omega)]
  exact writeRfHead_merge s p v _ _

theorem writePfWindow_odrHead : writePfWindow s (.word (0x601018 + 0x100 * p) v) = writeOdrHead s p v := by
  rw [writePfWindow_sch s hp (o := 0x18) (by decide) _ (by simp only [RegWrite.word_place]; omega)]
  exact writeOdrHead_merge s p v _ _

theorem writePfWindow_preempt : writePfWindow s (.word (0x601028 + 0x100 * p) v) = writePreempt s p v := by
  rw [writePfWindow_sch s hp (o := 0x28) (by decide) _ (by simp only [RegWrite.word_place]; omega), ← writePreempt_mod]
  simp only [writeSch, RegWrite.word_low, RegWrite.word_val, if_true]

theorem writePfWindow_geom : writePfWindow s (.word (0x701050 + 0x100 * p) v) = s.updPart p fun q => q.putGeom v := by
  rw [writePfWindow_l2 s hp (o := 0x50) (by decide) _ (by simp only [RegWrite.word_place]; omega)]
  simp only [writeL2, putGeom_merge]

end pf

section part
variable (s : State) (p v : Nat)

theorem writePartWindow_fbHead : writePartWindow s p (.word 0x08 v) = writeFbHead s p v := by
  rw [writePartWindow_control s v p (by decide)]
  exact writeFbHead_merge s p v _ _

theorem writePartWindow_screen : writePartWindow s p (.word 0x38 v) = s.updPart p fun q => q.putScreen v := by
  rw [writePartWindow_control s v p (by decide)]
  simp only [writeControl, RegWrite.word_place, RegWrite.word_low, RegWrite.word_val, putScreen_mod, Nat.reduceEqDiff, if_true, if_false]

theorem writePartWindow_replay (h : v < 2 ^ 64) : writePartWindow s p (.word 0x20 v) = writeReplay s p v := by
  rw [writePartWindow_control s v p (by decide)]
  simp only [writeControl, RegWrite.word_place, RegWrite.word_whole, RegWrite.word_val, Nat.mod_eq_of_lt h, Nat.reduceEqDiff, if_true, if_false]

theorem writePartWindow_tlbInv (h : v < 2 ^ 64) : writePartWindow s p (.word 0x28 v) = writeTlbInv s p v := by
  rw [writePartWindow_control s v p (by decide)]
  simp only [writeControl, RegWrite.word_place, RegWrite.word_whole, RegWrite.word_val, Nat.mod_eq_of_lt h, Nat.reduceEqDiff, if_true, if_false]

variable {st : Nat} {x : Stream} (hst : st < 256) (hx : s.stream? p st = some x)
include hst hx

theorem writePartWindow_tail : writePartWindow s p (.word (0x100018 + 0x1000 * st) v) = writeTail s p st v := by
  rw [writePartWindow_stream s p hst (o := 0x18) (by decide) _ (by simp only [RegWrite.word_place]; omega), ← writeTail_mod]
  simp only [writeStream, hx, RegWrite.word_low, RegWrite.word_val, if_true]

theorem writePartWindow_disable (he : x.en = true) (hv : v.testBit 4 = false) :
    writePartWindow s p (.word (0x100008 + 0x1000 * st) v) = disableStream s p st := by
  rw [writePartWindow_stream s p hst (o := 0x08) (by decide) _ (by simp only [RegWrite.word_place]; omega)]
  simp only [writeStream, hx, writeQctl, he, RegWrite.word_low, RegWrite.word_ones_testBit _ v (show 4 < 64 by decide), hv]
  rfl

theorem writePartWindow_stat : writePartWindow s p (.word (0x100030 + 0x1000 * st) v) =
    if v.testBit 3 then skipPacket s p st else if v.testBit 2 then resumeStream s p st else s := by
  rw [writePartWindow_stream s p hst (o := 0x30) (by decide) _ (by simp only [RegWrite.word_place]; omega)]
  simp only [writeStream, hx, writeStat, RegWrite.word_ones_testBit _ v (show 3 < 64 by decide),
    RegWrite.word_ones_testBit _ v (show 2 < 64 by decide)]

end part

/-- The register windows (R65, R73 to R79, R84, R96 to R98): an access that a function does not take is ignored or answered, and every other
write acts as the event of its register. -/
theorem registerWindows : Rule.RegisterWindows := by
  intro s v same
  refine ⟨?ignored, ?retry, ?control, ?pcmd, ?pwrcap, ?adj, ?step, ?stepHalf, ?crc, ?istat, ?pages, ?part⟩
  case ignored => exact fun off w h => ⟨exec_write_ignored rfl h v, fun hr p => exec_write_ignored (retryOf_ready hr _) h v⟩
  case retry => exact exec_not_ready
  case control =>
    intro hr p off w hp ho
    rw [exec_write_ready hr, exec_write_ready hr, writeRegister_control s hp ho]
  case pcmd =>
    rintro p op b hp ho rfl
    obtain ⟨hpart, hop, hb, hv⟩ := pcmd_fields b hp ho
    exact acts_pf rfl (writePfWindow_pcmd s _) (by rw [hv]; exact exec_pcmd s ho hpart hop hb)
  case pwrcap => exact acts_pf rfl (writePfWindow_pwrcap s v) rfl
  case adj => exact acts_pf rfl (writePfWindow_adj s v) rfl
  case step => exact acts_pf rfl (writePfWindow_step s v) rfl
  case stepHalf => exact exec_step_half s v
  case crc => exact fun n hn hv => acts_pf (by omega) (writePfWindow_hng s v hn hv) rfl
  case istat => exact (exec_write_pf s rfl v).trans (congrArg _ (writePfWindow_istat s v))
  case pages =>
    intro p hp
    exact ⟨acts_pf (by omega) (writePfWindow_rfHead s v hp) rfl, acts_pf (by omega) (writePfWindow_odrHead s v hp) rfl,
      acts_pf (by omega) (writePfWindow_preempt s v hp) rfl, acts_pf (by omega) (writePfWindow_geom s v hp) rfl⟩
  case part =>
    intro hr p
    refine ⟨acts_part hr rfl (writePartWindow_fbHead s p v) rfl, acts_part hr rfl (writePartWindow_screen s p v) rfl, fun hv => ?modes,
      fun st x hst hx => ?stream⟩
    case modes =>
      have replay {i : Instr} (hi : exec i s = .next (writeReplay s p v)) := acts_part hr rfl (writePartWindow_replay s p v hv) hi
      have inv {i : Instr} (hi : exec i s = .next (writeTlbInv s p v)) := acts_part hr rfl (writePartWindow_tlbInv s p v hv) hi
      refine ⟨fun h => ⟨replay ?_, inv ?_⟩, fun h => ⟨replay ?_, inv ?_⟩, fun h => replay ?_⟩
      all_goals
        simp only [writeReplay, writeTlbInv, h]
        rfl
    case stream =>
      have stat {i : Instr} (hi : exec i s = .next _) :=
        acts_part (off := 0x100030 + 0x1000 * st) hr (by omega) (writePartWindow_stat s p v hst hx) hi
      refine ⟨acts_part hr (by omega) (writePartWindow_tail s p v hst hx) rfl,
        fun he hv => acts_part hr (by omega) (writePartWindow_disable s p v hst hx he hv) rfl, fun h => stat ?_, fun h3 h2 => stat ?_⟩
      · rw [h]; rfl
      · rw [h3, h2]; rfl

/-! ## Reads -/

/-- What a function holds at a place (R73, R75). -/
def readWindow (s : State) : RegFn → Nat → Nat
  | .pf => readPfWindow s
  | .part p => readPartWindow s p

theorem readRegister_word (s : State) (fn : RegFn) {off : Nat} (h : off % 8 = 0) : readRegister s fn off 64 = readWindow s fn off % 2 ^ 64 := by
  have ho : off / 8 * 8 = off := by omega
  cases fn <;> simp [readRegister, readWindow, h, ho]

theorem readRegister_low (s : State) (fn : RegFn) {off : Nat} (h : off % 8 = 0) : readRegister s fn off 32 = readWindow s fn off % 2 ^ 32 := by
  have ho : off / 8 * 8 = off := by omega
  have h4 : off % 4 = 0 := by omega
  cases fn <;> simp [readRegister, readWindow, bitsAt, h, ho, h4]

theorem readRegister_high (s : State) (fn : RegFn) {off : Nat} (h : off % 8 = 0) :
    readRegister s fn (off + 4) 32 = readWindow s fn off / 2 ^ 32 % 2 ^ 32 := by
  have ho : (off + 4) / 8 * 8 = off := by omega
  have h4 : (off + 4) % 4 = 0 := by omega
  have h8 : (off + 4) % 8 = 4 := by omega
  cases fn <;> simp [readRegister, readWindow, bitsAt, ho, h4, h8]

theorem readRegister_ignored (s : State) (fn : RegFn) {off w : Nat} (h : ¬(w = 64 ∧ off % 8 = 0 ∨ w = 32 ∧ off % 4 = 0)) :
    readRegister s fn off w = 0 := by
  simp only [readRegister]
  rw [if_neg (by simp; tauto), if_neg (by simp; tauto)]

/-- A read is answered with what `readRegister` gives, and with nothing else (R77). -/
theorem exec_read_iff {s : State} {fn : RegFn} (hr : retryOf s fn = none) (off w x : Nat) :
    exec (.registerWrite fn off w none) s = .next (s.send (.regData fn off w x)) ↔ readRegister s fn off w = x := by
  have he : exec (.registerWrite fn off w none) s = .next (s.send (.regData fn off w (readRegister s fn off w))) := by
    show Host.Outcome.next _ = _
    rw [hr]
  rw [he]
  constructor
  · intro h
    have hout := congrArg State.out (Host.Outcome.next.inj h)
    simpa using hout
  · rintro rfl
    rfl

theorem exec_read_word {s : State} {fn : RegFn} (hr : retryOf s fn = none) {off x : Nat} (h : off % 8 = 0)
    (hx : readWindow s fn off % 2 ^ 64 = x) : exec (.registerWrite fn off 64 none) s = .next (s.send (.regData fn off 64 x)) := by
  rw [exec_read_iff hr, readRegister_word s fn h, hx]

theorem exec_read_small {s : State} {fn : RegFn} (hr : retryOf s fn = none) {off x : Nat} (h : off % 8 = 0) (hx : readWindow s fn off = x)
    (hb : x < 2 ^ 64) : exec (.registerWrite fn off 64 none) s = .next (s.send (.regData fn off 64 x)) :=
  exec_read_word hr h (by rw [hx, Nat.mod_eq_of_lt hb])

/-- The physical function reads a partition's control page as the partition does (R73). -/
theorem readRegister_control (s : State) {p off : Nat} (hp : p < 16) (ho : off < 0x10000) (w : Nat) :
    readRegister s .pf (0x100000 + 0x10000 * p + off) w = readRegister s (.part p) off w := by
  have h8 : (0x100000 + 0x10000 * p + off) % 8 = off % 8 := by omega
  have h4 : (0x100000 + 0x10000 * p + off) % 4 = off % 4 := by omega
  have hk : (0x100000 + 0x10000 * p + off) / 8 * 8 / 0x100000 = 1 := by omega
  have hq : (0x100000 + 0x10000 * p + off) / 8 * 8 % 0x100000 / 0x10000 = p := by omega
  have hz : (0x100000 + 0x10000 * p + off) / 8 * 8 % 0x100000 % 0x10000 = off / 8 * 8 := by omega
  have hl : off / 8 * 8 < 0x10000 := by omega
  simp only [readRegister, readPfWindow, readPartWindow, h8, h4, hk, hq, hz, hl, if_true]

section places
variable (s : State)

theorem readPfWindow_hif {o : Nat} (h : o < 0x100000) : readPfWindow s o = readHif s o := by
  simp only [readPfWindow, Nat.div_eq_of_lt h, Nat.mod_eq_of_lt h]

theorem readPfWindow_pstat {p : Nat} (hp : p < 16) : readPfWindow s (0x100 + 8 * p) = (s.part p).pstat := by
  have hd : (0x100 + 8 * p - 0x100) / 8 = p := by omega
  rw [readPfWindow_hif s (by omega), readHif, if_neg (by omega), if_neg (by omega), if_pos (by simp; omega), hd]

theorem readPfWindow_stn {n : Nat} (hn : n < 72) : readPfWindow s (0x800000 + 8 * n) = stnStat s n := by
  have hk : (0x800000 + 8 * n) / 0x100000 = 8 := by omega
  have ho : (0x800000 + 8 * n) % 0x100000 = 8 * n := by omega
  have hd : 8 * n / 8 = n := by omega
  simp only [readPfWindow, hk, ho, hd]
  rw [if_pos (by omega)]

theorem readPfWindow_beyond {o : Nat} (h : 0xA00000 ≤ o) : readPfWindow s o = 0 := by
  have hk : 10 ≤ o / 0x100000 := by omega
  obtain ⟨k, hk⟩ := Nat.exists_eq_add_of_le' hk
  simp only [readPfWindow, hk]

theorem readPartWindow_stream {p st : Nat} {x : Stream} (hs : st < 256) (hx : s.stream? p st = some x) {o : Nat} (ho : o < 0x1000) :
    readPartWindow s p (0x100000 + 0x1000 * st + o) = readStream x o := by
  have hst : (0x100000 + 0x1000 * st + o - 0x100000) / 0x1000 = st := by omega
  have hoff : (0x100000 + 0x1000 * st + o) % 0x1000 = o := by omega
  simp only [readPartWindow, hst, hoff, hx]
  rw [if_neg (by omega), if_neg (by omega), if_neg (by omega), if_pos (by simp; omega)]

end places

/-! ## Fields -/

theorem pstat_eq (q : Partition) (h : q.err < 16) : q.pstat = (match q.state with
    | .free => 0 | .busy => 1 | .active => 2 | .resetting => 3) + (if q.done then 4 else 0) + 16 * q.err + if q.flrpend then 256 else 0 := by
  simp only [Partition.pstat, flagAt, Nat.mod_eq_of_lt h, Nat.mul_comm q.err 16]
  cases q.state <;> rfl

theorem pstat_lt (q : Partition) : q.pstat < 2 ^ 64 := by
  have hs : q.state.code < 4 := by cases q.state <;> decide
  have hd : flagAt q.done 2 ≤ 4 := by cases q.done <;> decide
  have hf : flagAt q.flrpend 8 ≤ 256 := by cases q.flrpend <;> decide
  unfold Partition.pstat
  omega

theorem linkStat_eq {k : Links} (hw : k.width ≤ 16) (hr : k.rate ≤ 7) :
    k.stat = k.width + 32 * k.rate + if k.downev then 256 else 0 := by
  simp only [Links.stat, flagAt, Nat.mod_eq_of_lt (Nat.lt_of_le_of_lt hw (by decide : 16 < 32)),
    Nat.mod_eq_of_lt (Nat.lt_of_le_of_lt hr (by decide : 7 < 8)), Nat.mul_comm k.rate 32]
  rfl

theorem bootStat_eq {c : Caddy} (hb : c.bootStep < 16) (hf : c.slotFw < 2) (hc : c.slotCfg < 2) (h0 : c.spares0 < 16) (h1 : c.spares1 < 16) :
    c.bootstat = c.bootStep + (if c.ready then 16 else 0) + (if c.stopped then 32 else 0) + 64 * c.slotFw + 128 * c.slotCfg +
      65536 * c.spares0 + 1048576 * c.spares1 := by
  simp only [Caddy.bootstat, flagAt, Nat.mod_eq_of_lt hb, Nat.mod_eq_of_lt hf, Nat.mod_eq_of_lt hc, Nat.mod_eq_of_lt h0, Nat.mod_eq_of_lt h1,
    Nat.reducePow]
  omega

theorem strainCmds_nil {s : State} {n : Nat} (h : (s.eng.cmds.filter fun c => c.kind == .strainer && c.engine == n) = []) :
    strainCmds s n = [] := by
  simp only [strainCmds, h, List.filter_nil, List.append_nil]

theorem strainCmds_one {s : State} {n : Nat} {c : EngCmd} (h : (s.eng.cmds.filter fun c => c.kind == .strainer && c.engine == n) = [c]) :
    strainCmds s n = [c] := by
  simp only [strainCmds, h]
  cases hc : c.started <;> simp [hc]

/-- `STN_STAT` of a Strainer to which chains alone are attached (R322). -/
theorem stnStat_idle {s : State} {n : Nat} (h : (s.eng.cmds.filter fun c => c.kind == .strainer && c.engine == n) = [])
    (hl : (s.eng.chains.filter fun c => c.kind == .strainer && c.engine == n && c.attached).length < 32) (hf : strainFaulted s n = false) :
    stnStat s n = (s.eng.chains.filter fun c => c.kind == .strainer && c.engine == n && c.attached).length := by
  simp only [stnStat, strainCmds_nil h, hf, Nat.mod_eq_of_lt hl]
  rfl

/-- `STN_STAT` of a Strainer that has taken one block (R322). -/
theorem stnStat_running {s : State} {n : Nat} {c : EngCmd} {j : StrainJob}
    (h : (s.eng.cmds.filter fun c => c.kind == .strainer && c.engine == n) = [c]) (hj : c.body = .strainer j)
    (hl : (s.eng.chains.filter fun c => c.kind == .strainer && c.engine == n && c.attached).length < 32) (hp : c.part < 16)
    (hx : j.pixels.length < 8192) :
    stnStat s n = (s.eng.chains.filter fun c => c.kind == .strainer && c.engine == n && c.attached).length + 32 +
      (if strainFaulted s n || meterHeld s c.part 3 then 64 else 0) + 256 * c.part + 65536 * j.pixels.length := by
  have left : c.left = j.pixels.length := by simp only [EngCmd.left, hj]
  simp only [stnStat, strainCmds_one h, List.head?_cons, Option.map_some, Option.getD_some, Option.any_some, Option.isSome_some, left,
    Nat.mod_eq_of_lt hl, Nat.mod_eq_of_lt hp, Nat.mod_eq_of_lt hx, flagAt, if_true, Nat.reducePow]
  omega

/-- Reads of registers (R5, R53 to R77, R85, R98, R149, R322). -/
theorem registerReads : Rule.RegisterReads := by
  intro s reads
  have word {off x : Nat} (h : off % 8 = 0) (hx : readPfWindow s off % 2 ^ 64 = x) : reads .pf off 64 x := exec_read_word rfl h hx
  have small {off x : Nat} (h : off % 8 = 0) (hx : readPfWindow s off = x) (hb : x < 2 ^ 64) : reads .pf off 64 x := exec_read_small rfl h hx hb
  refine ⟨?ignored, ?halves, ?pcmd, ?step, ?beyond, ?now, ?istat, ?link, ?boot, ?parts, ?strainers⟩
  case ignored => exact fun off w h => (exec_read_iff rfl ..).2 (readRegister_ignored s .pf h)
  case halves =>
    intro off x h hx
    have hv : readWindow s .pf off % 2 ^ 64 = x := (readRegister_word s .pf h).symm.trans ((exec_read_iff rfl ..).1 hx)
    constructor
    · refine (exec_read_iff rfl ..).2 ((readRegister_low s .pf h).trans ?_)
      omega
    · refine (exec_read_iff rfl ..).2 ((readRegister_high s .pf h).trans ?_)
      omega
  case pcmd => exact small rfl rfl (by decide)
  case step => exact small rfl rfl (by decide)
  case beyond => exact fun off h h10 => small h (readPfWindow_beyond s h10) (by decide)
  case now => exact word rfl rfl
  case istat => exact word rfl rfl
  case link =>
    intro hw hr
    refine small rfl (linkStat_eq hw hr) ?_
    split <;> omega
  case boot =>
    intro hb hf hc h0 h1
    refine small rfl (bootStat_eq hb hf hc h0 h1) ?_
    split <;> split <;> omega
  case parts =>
    intro p hp q
    refine ⟨fun he => ?stat, fun hr off w x ho hx => ?control, fun hr => ⟨?pend, fun ht => ?tail, fun st x hst hx hh => ?head⟩⟩
    case stat => exact small (by omega) ((readPfWindow_pstat s hp).trans (pstat_eq q he)) (pstat_eq q he ▸ pstat_lt q)
    case control =>
      have hv := (exec_read_iff rfl ..).1 hx
      exact (exec_read_iff (retryOf_ready hr _) ..).2 ((readRegister_control s hp ho w).symm.trans hv)
    case pend =>
      refine exec_read_small (retryOf_ready hr _) rfl (x := if q.tlbPend = [] then 0 else 1) ?_ (by split <;> decide)
      show flagAt (!q.tlbPend.isEmpty) 0 = _
      cases q.tlbPend <;> rfl
    case tail => exact exec_read_small (retryOf_ready hr _) rfl rfl ht
    case head =>
      rw [show 0x100010 + 0x1000 * st = 0x100000 + 0x1000 * st + 0x10 by omega]
      exact exec_read_small (retryOf_ready hr _) (by omega) (readPartWindow_stream s hst hx (by decide)) hh
  case strainers =>
    intro n hn chains cmds
    constructor
    · exact fun hl hc hf => small (by omega) ((readPfWindow_stn s hn).trans (stnStat_idle hc hl hf)) (by omega)
    · intro c j hl hc hj hp hx
      refine small (by omega) ((readPfWindow_stn s hn).trans (stnStat_running hc hj hl hp hx)) ?_
      split <;> omega

/-- Settles O46: the registers of a partition, their windows, and their reads, each by its rule. -/
theorem registersOfThePart : Obligations.RegistersOfThePart := ⟨partitionRegisters, registerWindows, registerReads⟩

end Sys2Proof.Machine

/-!
What reset leaves (R35, R46, R48, R54, R65, R66, R68, R87), and that every move of the module goes on (R58).
-/
namespace Sys2Proof.Machine

/-! ## Reset -/

/-- Settles O7: the reset state, field by field. -/
theorem resetValues : Obligations.ResetValues := by
  refine ⟨rfl, ?parts, rfl, rfl, rfl, rfl, rfl, rfl, rfl, rfl, rfl, rfl, rfl, rfl, ?hinge, rfl, rfl, rfl, rfl, rfl, rfl⟩
  case parts =>
    intro q hq
    obtain ⟨p, -, rfl⟩ := List.mem_map.1 hq
    exact ⟨rfl, rfl, rfl, rfl, rfl⟩
  case hinge =>
    intro m hm
    rw [List.eq_of_mem_replicate hm]
    exact ⟨rfl, rfl⟩

/-! ## Every move answers -/

/-- Whether a result goes on: asked in this form, a meaning that is `.next` of a state need not name that state. -/
def goesOn (r : Result) : Bool :=
  match r with
  | .next _ => true
  | _ => false

theorem goesOn_iff (r : Result) : goesOn r = true ↔ ∃ t, r = .next t := by
  cases r <;> simp [goesOn]

/-- An event that goes on in every state. -/
def Goes (m : Happening) : Prop := ∀ s, goesOn (m s) = true

/-- Events of a list all go on. -/
def AllGo (l : List Happening) : Prop := ∀ m ∈ l, Goes m

theorem goesOn_onNext (f : State → State) (r : Result) : goesOn (onNext f r) = goesOn r := by cases r <;> rfl

/-- Every instruction goes on: each meaning is `.next` of a state, but for the long loads and stores, which first choose between two such
meanings by their class of access. -/
theorem exec_goes (i : Instr) (s : State) : goesOn (exec i s) = true := by
  cases i
  case ldLx gd f d a b m =>
    show goesOn (execLdLx gd f d a b m s) = true
    unfold execLdLx
    split <;> rfl
  case stLx gd f d a b m =>
    show goesOn (execStLx gd f d a b m s) = true
    unfold execStLx
    split <;> rfl
  all_goals rfl

theorem allGo_nil : AllGo [] := fun _ hm => nomatch hm

theorem allGo_cons {m : Happening} {l : List Happening} : AllGo (m :: l) ↔ Goes m ∧ AllGo l := List.forall_mem_cons

theorem allGo_single {m : Happening} (h : Goes m) : AllGo [m] := allGo_cons.2 ⟨h, allGo_nil⟩

theorem AllGo.append {l k : List Happening} (hl : AllGo l) (hk : AllGo k) : AllGo (l ++ k) := List.forall_mem_append.2 ⟨hl, hk⟩

theorem allGo_flatMap {α : Type} {l : List α} {f : α → List Happening} (h : ∀ x, AllGo (f x)) : AllGo (l.flatMap f) := by
  intro m hm
  obtain ⟨x, -, hx⟩ := List.mem_flatMap.1 hm
  exact h x m hx

theorem allGo_map {α : Type} {l : List α} {f : α → Happening} (h : ∀ x, Goes (f x)) : AllGo (l.map f) := List.forall_mem_map.2 fun x _ => h x

theorem allGo_onlyIf {c : Bool} {m : Happening} (h : Goes m) : AllGo (onlyIf c m) := by
  cases c
  · exact allGo_nil
  · exact allGo_single h

/-- An event under a condition, after others. -/
theorem AllGo.onlyIf {l : List Happening} {c : Bool} {m : Happening} (hl : AllGo l) (h : Goes m) : AllGo (l ++ onlyIf c m) :=
  hl.append (allGo_onlyIf h)

theorem flightEvents_go (s : State) (f : Flight) : AllGo (flightEvents s f) := by
  unfold flightEvents
  split
  · exact allGo_nil
  · exact allGo_nil
  · exact allGo_single fun _ => rfl
  · split <;> exact allGo_single fun _ => rfl
  · split <;> exact allGo_single fun _ => rfl
  · exact allGo_single fun _ => rfl
  all_goals
    split
    · refine allGo_flatMap fun r => ?_
      split
      · exact allGo_single fun _ => rfl
      · exact allGo_nil
    · refine allGo_onlyIf ?_
      split <;> exact fun _ => rfl

theorem memEvents_go (s : State) : AllGo (memEvents s) := by
  refine .append (.append (.append (allGo_flatMap (flightEvents_go s)) (allGo_map fun _ _ => rfl)) (allGo_map fun _ _ => rfl))
    (allGo_map fun p => ?_)
  split <;> exact fun _ => rfl

theorem laneEvents_go (s : State) (g : Group) (l : Nat) : AllGo (laneEvents s g l) := by
  refine .append (.append (allGo_onlyIf fun _ => rfl) ?wait) ?home
  case wait =>
    split
    · exact allGo_onlyIf fun _ => rfl
    · exact allGo_single fun _ => rfl
    · exact allGo_nil
  case home =>
    split
    · exact allGo_onlyIf fun _ => rfl
    · split
      · exact allGo_map fun _ _ => rfl
      · exact allGo_nil

theorem groupEvents_go (s : State) (g : Group) : AllGo (groupEvents s g) := by
  unfold groupEvents
  split
  · exact allGo_nil
  · have always : AllGo [execLoopEndStep g.core g.slot, execGrowGrant g.core g.slot] := allGo_cons.2 ⟨fun _ => rfl, allGo_single fun _ => rfl⟩
    exact ((((((always.onlyIf fun _ => rfl).onlyIf fun _ => rfl).onlyIf fun _ => rfl).onlyIf fun _ => rfl).onlyIf fun _ => rfl).onlyIf fun _ => rfl).append
      (allGo_flatMap (laneEvents_go s g))

theorem packetEvent_go (typ p st : Nat) : AllGo (packetEvent typ p st) := by
  unfold packetEvent
  split
  case h_11 => exact allGo_nil
  all_goals exact allGo_single fun _ => rfl

theorem streamEvents_go (p : Nat) (x : Stream) : AllGo (streamEvents p x) := by
  unfold streamEvents
  split
  · exact allGo_nil
  · refine .append (allGo_onlyIf fun _ => rfl) ?_
    split
    · exact allGo_single fun _ => rfl
    · exact packetEvent_go _ _ _
    · exact allGo_single fun _ => rfl
    · exact allGo_nil

theorem partEvents_go (s : State) (q : Partition) : AllGo (partEvents s q) :=
  have triggers : AllGo ((readyGrids s q.num).flatMap fun g => onlyIf (classTriggers s g) (execPreemptClassTrigger q.num g.slot)) :=
    allGo_flatMap fun _ => allGo_onlyIf fun _ => rfl
  (((((triggers.onlyIf fun _ => rfl).onlyIf fun _ => rfl).onlyIf fun _ => rfl).onlyIf fun _ => rfl).onlyIf fun _ => rfl).append
    (allGo_flatMap (streamEvents_go q.num))

theorem gridEvents_go (s : State) (g : Grid) : AllGo (gridEvents s g) :=
  have always : AllGo [execTeamPlace g.part g.slot, execGridComplete g.part g.slot] := allGo_cons.2 ⟨fun _ => rfl, allGo_single fun _ => rfl⟩
  always.onlyIf fun _ => rfl

theorem graphEvents_go (g : Graph) : AllGo (graphEvents g) := by
  refine allGo_flatMap fun n => ?_
  split
  · exact allGo_single fun _ => rfl
  · exact allGo_single fun _ => rfl
  · exact allGo_nil

theorem teamEvents_go (s : State) (t : Team) : AllGo (teamEvents s t) := by
  unfold teamEvents
  split
  · refine .append (.append (allGo_onlyIf fun _ => rfl) ?_) (allGo_map fun _ _ => rfl)
    split
    · exact (allGo_onlyIf fun _ => rfl).onlyIf fun _ => rfl
    · exact allGo_onlyIf fun _ => rfl
  all_goals exact allGo_single fun _ => rfl

theorem cmdEvents_go (c : EngCmd) : AllGo (cmdEvents c) := by
  unfold cmdEvents
  split
  · split
    · exact allGo_cons.2 ⟨fun _ => rfl, allGo_single fun _ => rfl⟩
    · split <;> exact allGo_single fun _ => rfl
  · split
    · exact allGo_cons.2 ⟨fun _ => rfl, allGo_cons.2 ⟨fun _ => rfl, allGo_single fun _ => rfl⟩⟩
    · split <;> exact allGo_single fun _ => rfl
  · refine allGo_cons.2 ⟨fun _ => rfl, allGo_cons.2 ⟨fun _ => rfl, ?_⟩⟩
    exact allGo_cons.2 ⟨fun _ => rfl, allGo_cons.2 ⟨fun _ => rfl, allGo_single fun _ => rfl⟩⟩
  · exact allGo_cons.2 ⟨fun _ => rfl, allGo_single fun _ => rfl⟩

theorem rayEvents_go (r : RaySlot) : AllGo (rayEvents r) := by
  unfold rayEvents
  split
  case h_4 => exact allGo_nil
  all_goals exact allGo_single fun _ => rfl

theorem unitEvents_go (s : State) : AllGo (unitEvents s) := by
  have chains : AllGo (s.eng.chains.map fun c => if c.halted then execChainResume c.id else execChainTailSeen c.id) :=
    allGo_map fun c => by split <;> exact fun _ => rfl
  exact ((((((chains.append (allGo_flatMap cmdEvents_go)).append (allGo_flatMap rayEvents_go)).append (allGo_map fun _ _ => rfl)).append
    (allGo_map fun _ _ => rfl)).append (allGo_flatMap fun _ => allGo_cons.2 ⟨fun _ => rfl, allGo_single fun _ => rfl⟩)).append
    (allGo_flatMap fun _ => allGo_cons.2 ⟨fun _ => rfl, allGo_map fun _ _ => rfl⟩))

theorem expiredEntries_go (s : State) : AllGo (expiredEntries s) := by
  refine allGo_flatMap fun c m hm => ?_
  obtain ⟨l, hl, hm⟩ := List.mem_flatten.1 hm
  obtain ⟨i, _, rfl⟩ := List.mem_mapIdx.1 hl
  exact allGo_onlyIf (fun _ => rfl) m hm

theorem caddyEvents_go (s : State) : AllGo (caddyEvents s) := by
  unfold caddyEvents
  split
  · exact allGo_nil
  · exact (((allGo_onlyIf fun _ => rfl).onlyIf fun _ => rfl).onlyIf fun _ => rfl).append (allGo_map fun _ _ => rfl)

theorem enabled_go (s : State) : AllGo (enabled s) :=
  ((((((((memEvents_go s).append (allGo_flatMap (groupEvents_go s))).append (unitEvents_go s)).append (allGo_flatMap (partEvents_go s))).append
    (allGo_flatMap graphEvents_go)).append (allGo_flatMap (gridEvents_go s))).append (allGo_flatMap (teamEvents_go s))).append
    (expiredEntries_go s)).append (caddyEvents_go s)

/-- A choice of an event, if any, that goes on. -/
def MayGo (a : Option Happening) : Prop := ∀ m, a = some m → Goes m

theorem mayGo_pickFrom {l : List Happening} (h : AllGo l) (n : Nat) : MayGo (pickFrom l n) := fun m hm => h m (List.mem_of_getElem? hm)

theorem MayGo.or {a b : Option Happening} (ha : MayGo a) (hb : MayGo b) : MayGo (a.or b) := by
  intro m hm
  rcases Option.or_eq_some_iff.1 hm with e | ⟨-, e⟩
  · exact ha m e
  · exact hb m e

theorem MayGo.getD {a : Option Happening} (ha : MayGo a) {m : Happening} (h : Goes m) : Goes (a.getD m) := by
  cases a with
  | none => exact h
  | some m' => exact ha m' rfl

/-- The default move goes on where the issue of a cohort does: its choice is an issue, an enabled event, or a tick. -/
theorem defaultMove_goes {issue : Nat → Nat → Nat → Happening} (h : ∀ core slot lane, Goes (issue core slot lane)) (s : State) :
    Goes (defaultMove issue s) := by
  have lanes (l : List (Nat × Nat × Nat)) : MayGo (pickFrom (l.map fun x => issue x.1 x.2.1 x.2.2) (s.turn / 4)) :=
    mayGo_pickFrom (allGo_map fun x : Nat × Nat × Nat => h x.1 x.2.1 x.2.2) _
  have work : MayGo (pickFrom (enabled s) (s.turn / 4)) := mayGo_pickFrom (enabled_go s) _
  refine MayGo.getD ?first fun _ => rfl
  split
  · exact ((lanes _).or work).or (lanes _)
  · exact (work.or (lanes _)).or (lanes _)
  · exact ((lanes _).or work).or (lanes _)
  · exact fun _ hm => nomatch hm

/-- A shadowed issue goes on where the instruction does. -/
theorem issueShadowed_goes {ex : Instr → State → Result} (h : ∀ i s, goesOn (ex i s) = true) (i : Instr) (s : State) :
    goesOn (issueShadowed ex i s) = true := by
  unfold issueShadowed
  split
  · exact h i s
  next g _ =>
    split
    · exact h i s
    next hd _ =>
      split
      · rfl
      · split
        next v _ =>
          split
          · unfold compareIssue
            split
            · rfl
            · obtain ⟨t, ht⟩ := (goesOn_iff _).1 (h i s)
              obtain ⟨u, hu⟩ := (goesOn_iff _).1 (h i (withShadow s g hd))
              rw [ht, hu]
              simp only
              split <;> rfl
          · rfl
        · rw [goesOn_onNext]
          exact h i s

theorem stepIssue_goes (s : State) (core slot lane : Nat) : goesOn (stepIssue s core slot lane) = true := by
  unfold stepIssue
  split
  · rfl
  · split
    · rfl
    · split
      · exact issueShadowed_goes exec_goes _ _
      · rfl

theorem stepAct_goes (s : State) (a : Act) : goesOn (stepAct s a) = true := by
  cases a with
  | issue core slot lane => exact stepIssue_goes s core slot lane
  | event i =>
    unfold stepAct
    simp only
    split
    · exact exec_goes i s
    · rfl

/-- A step goes on, but where the power is gone and the agenda empty (R58). -/
theorem step_goes_or_off (s : State) : (∃ t, step s = .next t) ∨ (s.agenda = [] ∧ s.powered = false ∧ step s = .fault .powerOff) := by
  rw [← goesOn_iff]
  unfold step
  split
  · exact .inl ((goesOn_onNext ..).trans (stepAct_goes _ _))
  next ha =>
    split
    next hp => exact .inr ⟨ha, by simpa using hp, rfl⟩
    · exact .inl ((goesOn_onNext ..).trans (defaultMove_goes (fun core slot lane t => stepIssue_goes t core slot lane) s _))

theorem neverRefused_all (k : Nat) (s : State) : neverRefused k s := by
  induction k generalizing s with
  | zero => trivial
  | succ k ih =>
    unfold neverRefused
    rcases step_goes_or_off s with ⟨t, ht⟩ | ⟨-, -, hf⟩
    · rw [ht]
      exact ih t
    · rw [hf]
      trivial

/-- Settles O6: no arm of `exec` and no move of the default rule refuses or faults, so that `step` faults only by its own test of the power. -/
theorem stepsAnswer : Obligations.StepsAnswer := ⟨fun i s => (goesOn_iff _).1 (exec_goes i s), step_goes_or_off, neverRefused_all⟩

end Sys2Proof.Machine

/-!
Device time, sensors and the clock (R48 to R54, R56), and the links (R31, R34, R35, R46, R60, R67 to R70).
-/
namespace Sys2Proof.Machine

/-! ## What is reported -/

/-- The second state differs from the first in what the module has reported alone: messages, interrupts of the physical function, and Caddy's log. -/
structure Reported (s t : State) : Prop where
  state : { t with out := s.out, pf := s.pf, caddy := s.caddy } = s
  caddy : { t.caddy with logBuf := s.caddy.logBuf, nextSeq := s.caddy.nextSeq, logDrop := s.caddy.logDrop } = s.caddy
  istat : ∀ n, s.pf.istat.testBit n = true → t.pf.istat.testBit n = true

theorem Reported.refl (s : State) : Reported s s := ⟨rfl, rfl, fun _ h => h⟩

theorem Reported.trans {a b c : State} (h : Reported a b) (k : Reported b c) : Reported a c := by
  refine ⟨?_, ?_, fun n hn => k.istat n (h.istat n hn)⟩
  · rw [← h.state, ← k.state]
  · rw [← h.caddy, ← k.caddy]

/-- What does not look at reports is as it was. -/
theorem Reported.field {s t : State} (h : Reported s t) {α : Type} (f : State → α)
    (hf : f { t with out := s.out, pf := s.pf, caddy := s.caddy } = f t := by rfl) : f t = f s :=
  hf.symm.trans (congrArg f h.state)

/-- What of Caddy does not look at the log is as it was. -/
theorem Reported.ofCaddy {s t : State} (h : Reported s t) {α : Type} (f : Caddy → α)
    (hf : f { t.caddy with logBuf := s.caddy.logBuf, nextSeq := s.caddy.nextSeq, logDrop := s.caddy.logDrop } = f t.caddy := by rfl) :
    f t.caddy = f s.caddy :=
  hf.symm.trans (congrArg f h.caddy)

theorem raiseSource_istat (istat pend : Nat) (ivmap : List Nat) (msix : List MsixEntry) (n : Nat) :
    (raiseSource istat pend ivmap msix n).1 = istat ||| 2 ^ n := by
  unfold raiseSource
  simp only
  split
  · rfl
  · split <;> rfl

theorem raisePf_istat (s : State) (n : Nat) : (raisePf s n).pf.istat = s.pf.istat ||| 2 ^ n := by
  rw [← raiseSource_istat s.pf.istat s.pf.msixPend s.pf.ivmap s.pf.msix n]
  unfold raisePf
  simp only
  split <;> rfl

theorem raisePf_raises (s : State) (n : Nat) : (raisePf s n).pf.istat.testBit n = true := by
  rw [raisePf_istat, Nat.testBit_or, Nat.testBit_two_pow_self, Bool.or_true]

theorem raisePf_caddy (s : State) (n : Nat) : (raisePf s n).caddy = s.caddy := by
  unfold raisePf
  simp only
  split <;> rfl

theorem Reported.raisePf (s : State) (n : Nat) : Reported s (raisePf s n) := by
  refine ⟨?_, by rw [raisePf_caddy], fun k hk => by rw [raisePf_istat, Nat.testBit_or, hk, Bool.true_or]⟩
  unfold Machine.raisePf
  simp only
  split <;> rfl

theorem Reported.logEvent (s : State) (e : LogEvent) (cls source part x y : Nat) : Reported s (logEvent s e cls source part x y) := by
  unfold Machine.logEvent
  split
  · exact .refl s
  · simp only
    split
    · split
      · refine .trans ?_ (.raisePf _ 32)
        exact ⟨rfl, rfl, fun _ h => h⟩
      · exact ⟨rfl, rfl, fun _ h => h⟩
    · exact ⟨rfl, rfl, fun _ h => h⟩

/-- What an event adds to the log while Caddy runs and its buffer has room (R57). -/
theorem logEvent_logBuf {s : State} (hr : s.caddy.running = true) (hb : s.caddy.logBuf.length < 256) (e : LogEvent) (cls source part x y : Nat) :
    (logEvent s e cls source part x y).caddy.logBuf =
      s.caddy.logBuf ++ [⟨s.time.now, s.caddy.nextSeq, e.num, cls, source, part, x, y, true⟩] := by
  simp only [logEvent, hr, hb, Bool.not_true, Bool.false_eq_true, if_false, if_true]
  split
  · rw [raisePf_caddy]
  · rfl

/-! ## Time and power -/

/-- The second state differs from the first in its partitions alone. -/
def PartsOnly (s t : State) : Prop := { t with parts := s.parts } = s

theorem PartsOnly.trans {a b c : State} (h : PartsOnly a b) (k : PartsOnly b c) : PartsOnly a c := by
  unfold PartsOnly at *
  rw [← k] at h
  exact h

/-- What does not look at the partitions is as it was. -/
theorem PartsOnly.field {s t : State} (h : PartsOnly s t) {α : Type} (f : State → α) (hf : f { t with parts := s.parts } = f t := by rfl) : f t = f s :=
  hf.symm.trans (congrArg f h)

theorem PartsOnly.charge (s : State) (p cls n : Nat) : PartsOnly s (charge s p cls n) := by
  unfold Machine.charge
  simp only
  split <;> rfl

theorem PartsOnly.chargeCycle (s : State) : PartsOnly s (chargeCycle s) := by
  unfold Machine.chargeCycle
  induction List.range 16 generalizing s with
  | nil => rfl
  | cons p ps ih => exact (PartsOnly.charge s p 0 _).trans (ih _)

/-- The recursion of `chargeCycles`, by its definition: unfolding `chargeCycle` too would run the sixteen partitions of a symbolic state. -/
theorem chargeCycles_succ (s : State) (n : Nat) : chargeCycles s (n + 1) = chargeCycles (chargeCycle s) n := by
  delta chargeCycles
  with_reducible rfl

/-- Cycles charge meters of partitions, and change nothing else (R140). -/
theorem PartsOnly.chargeCycles (s : State) (n : Nat) : PartsOnly s (chargeCycles s n) := by
  induction n generalizing s with
  | zero => exact (rfl : PartsOnly s s)
  | succ n ih =>
    rw [chargeCycles_succ]
    exact (PartsOnly.chargeCycle s).trans (ih _)

theorem chargeCycles_time (s : State) (n : Nat) : (chargeCycles s n).time = s.time := (PartsOnly.chargeCycles s n).field State.time

theorem execDeviceTimeTick_stopped {s : State} (h : s.caddy.bootStep < 7) : exec .deviceTimeTick s = .next s := by
  show Host.Outcome.next _ = _
  rw [if_neg (by simpa [timeRuns] using h)]

/-- The tick's sum within ±500 ppm (R48). -/
theorem tickSum_cast {t : TimeBase} (h : -2147484 ≤ t.adj) : (tickSum t : Int) = (t.frac : Int) + 4294967296 + t.adj := by
  unfold tickSum
  omega

theorem execDeviceTimeTick_runs {s : State} (h : 7 ≤ s.caddy.bootStep) : exec .deviceTimeTick s =
    .next (chargeCycles { s with time := s.time.tick s.therm.clock } ((s.time.cycFrac + s.therm.clock) / 100)) := by
  show Host.Outcome.next _ = _
  rw [if_pos (by simpa [timeRuns] using h)]

theorem execPtpMessage_stopped {s : State} (h : s.caddy.running = false) (k n r : Nat) : exec (.ptpMessage k n r) s = .next s := by
  show Host.Outcome.next _ = _
  rw [if_neg (by simp [h])]

/-- A PTP message is stamped in device time (R51). -/
theorem execPtpMessage_runs {s : State} (h : s.caddy.running = true) (k n r : Nat) : exec (.ptpMessage k n r) s =
    .next ({ s with time := { s.time with ptp := some (k, n, r, s.time.now) } }.send (.ptp k n s.time.now)) := by
  show Host.Outcome.next _ = _
  rw [if_pos h]

/-- The low 32 bits of a number as a signed word. -/
theorem signed32_eq (v : Nat) : signed32 v = (BitVec.ofNat 32 v).toInt := by
  simp only [signed32, BitVec.toInt_eq_toNat_cond, BitVec.toNat_ofNat]
  omega

/-- A thermal state that stands, or that a trip holds, is not entered again (R53). -/
theorem enterThermal_stays {s : State} {v : Nat} (h : v = s.therm.state ∨ s.therm.trip = true) : enterThermal s v = s := by
  simp only [enterThermal]
  rw [if_pos (by simpa using h)]

/-- Entering another state notes it, trips at 3, and raises source 33 (R52, R53). -/
theorem enterThermal_enters {s : State} {v : Nat} (hv : v ≠ s.therm.state) (ht : s.therm.trip = false) :
    Reported (raisePf { s with therm := { s.therm with state := v, trip := decide (v = 3) } } 33) (enterThermal s v) := by
  simp only [enterThermal]
  rw [if_neg (by simp [hv, ht])]
  split
  · exact .logEvent ..
  · split
    · exact .logEvent ..
    · exact .refl _

theorem enterThermal_field (s : State) (v : Nat) {α : Type} (f : State → α)
    (hf : ∀ t : State, f { t with therm := s.therm, out := s.out, pf := s.pf, caddy := s.caddy } = f t) : f (enterThermal s v) = f s := by
  by_cases h : v = s.therm.state ∨ s.therm.trip = true
  · rw [enterThermal_stays h]
  · rw [not_or, Bool.not_eq_true] at h
    have k := (Reported.raisePf { s with therm := { s.therm with state := v, trip := decide (v = 3) } } 33).trans (enterThermal_enters h.1 h.2)
    rw [← hf (enterThermal s v), ← hf s]
    exact congrArg (fun t : State => f { t with therm := s.therm }) k.state

/-- The module trips at 110 °C (R53). -/
theorem thermState_trips (v : Int) : thermState v = 3 ↔ 8 * 110 ≤ v := by
  unfold thermState
  split
  · omega
  · split
    · omega
    · split <;> omega

theorem refreshed_sensors (t : Thermal) (l : List SensorSample) : (t.refreshed l).sensors = l.foldl putSample t.sensors := by
  unfold Thermal.refreshed
  simp only
  split <;> rfl

theorem refreshed_state (t : Thermal) (l : List SensorSample) : (t.refreshed l).state = t.state ∧ (t.refreshed l).trip = t.trip := by
  unfold Thermal.refreshed
  simp only
  split <;> exact ⟨rfl, rfl⟩

theorem refreshed_hottest {t : Thermal} {l : List SensorSample} {n : Nat} {v : Int} (h : hottest (l.foldl putSample t.sensors) = some (n, v)) :
    (t.refreshed l).sensor = n ∧ (t.refreshed l).temp = (v / 8).toNat % 256 := by
  unfold Thermal.refreshed
  simp only [h, and_self]

/-- What a reading leaves in the thermal registers (R52, R53). -/
theorem enterThermal_therm (s : State) (v : Int) :
    let t := enterThermal s (thermState v)
    t.therm.sensor = s.therm.sensor ∧ t.therm.temp = s.therm.temp ∧ t.therm.sensors = s.therm.sensors ∧
      (s.therm.trip = true → t.therm.trip = true ∧ t.therm.state = s.therm.state) ∧
      (s.therm.trip = false → t.therm.state = thermState v ∧ (s.therm.state ≠ 3 → t.therm.trip = decide (8 * 110 ≤ v)) ∧
        (t.therm.state ≠ s.therm.state → t.pf.istat.testBit 33 = true)) := by
  intro t
  by_cases h : thermState v = s.therm.state ∨ s.therm.trip = true
  · have ht : t = s := enterThermal_stays h
    rw [ht]
    refine ⟨rfl, rfl, rfl, fun k => ⟨k, rfl⟩, fun k => ?_⟩
    have hs : thermState v = s.therm.state := h.resolve_right (by simp [k])
    refine ⟨hs.symm, fun h3 => ?_, fun hn => absurd rfl hn⟩
    rw [k, eq_comm, decide_eq_false_iff_not, ← thermState_trips, hs]
    exact h3
  · rw [not_or, Bool.not_eq_true] at h
    have k := enterThermal_enters h.1 h.2
    have r := Reported.raisePf { s with therm := { s.therm with state := thermState v, trip := decide (thermState v = 3) } } 33
    have hth : t.therm = { s.therm with state := thermState v, trip := decide (thermState v = 3) } := (k.field State.therm).trans (r.field State.therm)
    simp only [hth, h.2]
    refine ⟨trivial, trivial, trivial, nofun, fun _ => ⟨trivial, fun _ => decide_eq_decide.2 (thermState_trips v), fun _ => ?_⟩⟩
    exact k.istat 33 (raisePf_raises _ 33)

theorem execSensorRefresh_stopped {s : State} (h : s.caddy.running = false) (l : List SensorSample) : exec (.sensorRefresh l) s = .next s := by
  show Host.Outcome.next _ = _
  rw [if_pos (by simp [h])]

theorem execSensorRefresh_none {s : State} {l : List SensorSample} (h : s.caddy.running = true)
    (hh : hottest (l.foldl putSample s.therm.sensors) = none) : exec (.sensorRefresh l) s = .next { s with therm := s.therm.refreshed l } := by
  show Host.Outcome.next _ = _
  rw [if_neg (by simp [h])]
  simp only [refreshed_sensors, hh]

theorem execSensorRefresh_some {s : State} {l : List SensorSample} {n : Nat} {v : Int} (h : s.caddy.running = true)
    (hh : hottest (l.foldl putSample s.therm.sensors) = some (n, v)) :
    exec (.sensorRefresh l) s = .next (enterThermal { s with therm := s.therm.refreshed l } (thermState v)) := by
  show Host.Outcome.next _ = _
  rw [if_neg (by simp [h])]
  simp only [refreshed_sensors, hh]

theorem execClockStep_waits {s : State} (h : s.caddy.running = false ∨ s.time.now < s.therm.lastStep + 1000000) : exec .clockStep s = .next s := by
  show Host.Outcome.next _ = _
  rw [if_pos (by simpa using h)]

theorem execClockStep_due {s : State} (hr : s.caddy.running = true) (hd : s.therm.lastStep + 1000000 ≤ s.time.now) : exec .clockStep s =
    .next { s with therm := { s.therm with
      heatClock := stepClock s.therm.heatClock (decide (2 ≤ s.therm.state))
      capClock := stepClock s.therm.capClock (decide (s.therm.cap < s.therm.meas)), lastStep := s.time.now } } := by
  show Host.Outcome.next _ = _
  rw [if_neg (by simp [hr]; omega)]

/-- Device time, the sensors and the clock (R48 to R54, R56): each event by what it leaves. -/
theorem timeAndPower : Rule.TimeAndPower := by
  intro s timed
  refine ⟨execDeviceTimeTick_stopped, ?tick, ?adj, fun v => ⟨_, rfl, rfl⟩, ⟨_, rfl, rfl⟩, ?ptp, ?sensors, execClockStep_waits, ?clock,
    fun v => ⟨_, rfl, rfl, rfl⟩⟩
  case tick =>
    intro hb lo hi
    refine ⟨_, execDeviceTimeTick_runs hb, ?_⟩
    have cast := tickSum_cast lo
    simp only [chargeCycles_time, TimeBase.tick, ← cast]
    refine ⟨by push_cast; rfl, by push_cast; rfl, trivial, trivial, by omega, Nat.mod_lt _ (by decide), ?_⟩
    exact congrArg (fun t : State => { t with time := s.time })
      (PartsOnly.chargeCycles { s with time := s.time.tick s.therm.clock } ((s.time.cycFrac + s.therm.clock) / 100))
  case adj =>
    intro v
    refine ⟨_, rfl, ?_⟩
    rw [← signed32_eq]
    rfl
  case ptp =>
    intro k n r
    exact ⟨fun h => execPtpMessage_stopped h k n r, fun h => ⟨_, execPtpMessage_runs h k n r, rfl, rfl⟩⟩
  case sensors =>
    intro l
    refine ⟨fun h => execSensorRefresh_stopped h l, fun h => ?_⟩
    cases hh : hottest (l.foldl putSample s.therm.sensors) with
    | none =>
      refine ⟨_, execSensorRefresh_none h hh, rfl, rfl, refreshed_sensors .., fun n v hv => ?_⟩
      simp [refreshed_sensors, hh] at hv
    | some x =>
      obtain ⟨n, v⟩ := x
      obtain ⟨hst, htr⟩ := refreshed_state s.therm l
      obtain ⟨hsn, htp⟩ := refreshed_hottest hh
      obtain ⟨esn, etp, esens, etrip, eon⟩ := enterThermal_therm { s with therm := s.therm.refreshed l } v
      simp only [hst, htr] at etrip eon
      have sens := esens.trans (refreshed_sensors s.therm l)
      refine ⟨_, execSensorRefresh_some h hh, enterThermal_field _ _ State.groups fun _ => rfl, enterThermal_field _ _ State.mem fun _ => rfl, sens,
        fun m w hw => ?_⟩
      rw [sens, hh] at hw
      cases hw
      exact ⟨esn.trans hsn, etp.trans htp, etrip, eon⟩
  case clock =>
    intro hr hd
    refine ⟨_, execClockStep_due hr hd, rfl, ?_, ?_, rfl, rfl, rfl⟩
    · simp only [stepClock, decide_eq_true_eq]
    · simp only [stepClock, decide_eq_true_eq]

/-! ## Links -/

theorem updHinge_eq {s : State} {n : Nat} {m : HingeMod} (h : s.links.hinge[n]? = some m) (f : HingeMod → HingeMod) :
    updHinge s n f = { s with links := { s.links with hinge := s.links.hinge.set n (f m) } } := by
  obtain ⟨hn, rfl⟩ := List.getElem?_eq_some_iff.1 h
  rw [updHinge, List.modify_eq_set_get f hn]
  rfl

theorem Caddy.cfg_setCfg_same (c : Caddy) (slot : Nat) (i : ConfigImage) : (c.setCfg slot i).cfg slot = some i := by
  unfold Caddy.setCfg Caddy.cfg
  split <;> rfl

/-- The image that Caddy writes next is signed, pending, and stands in the inactive slot (R60). -/
theorem writeConfig_writes {s : State} {g : ConfigImage}
    (h : s.caddy.cfg (if s.caddy.pendCfg then 1 - s.caddy.nextCfg else s.caddy.nextCfg) = some g) (f : ConfigImage → ConfigImage) :
    writeConfig s f = s.updCaddy fun c => { c.setCfg (1 - c.nextCfg) (signHere (f g)) with pendCfg := true } := by
  simp only [writeConfig, State.updCaddy, h]

/-- Lost lanes of a Hinge module change the module, and are noted in the next image (R34, R60). -/
theorem recordHinge_notes {s : State} {n : Nat} {m : HingeMod} (h : s.links.hinge[n]? = some m) (f : HingeMod → HingeMod) (k : Nat) :
    let t := recordHinge (updHinge s n f) n k
    { t with links := s.links, caddy := s.caddy } = s ∧ t.links = { s.links with hinge := s.links.hinge.set n (f m) } ∧
      ∀ g, s.caddy.cfg (if s.caddy.pendCfg then 1 - s.caddy.nextCfg else s.caddy.nextCfg) = some g → t.caddy.pendCfg = true ∧
        ∃ h, t.caddy.cfg (1 - s.caddy.nextCfg) = some h ∧ h.signed = true ∧
          h.body = { g.body with hingeRepairs := g.body.hingeRepairs.modify n (· + k) } := by
  rw [updHinge_eq h]
  refine ⟨rfl, rfl, fun g hg => ?_⟩
  simp only [recordHinge]
  rw [writeConfig_writes (by exact hg)]
  exact ⟨rfl, _, Caddy.cfg_setCfg_same .., rfl, rfl⟩

theorem HingeMod.repair_eq (m : HingeMod) {k : Nat} (h : k ≠ 0) : m.repair k = if m.state = 3 then m else
    if 4 < m.repaired + k then { m with state := 3 } else { m with state := if m.state = 2 then 2 else 1, repaired := m.repaired + k } := by
  simp only [HingeMod.repair, h, decide_false, Bool.or_false, decide_eq_true_eq]
  rfl

theorem execHingeLaneRepair_lost (s : State) (n : Nat) {k : Nat} (h : k ≠ 0) :
    exec (.hingeLaneRepair n k) s = .next (recordHinge (updHinge s n fun m => m.repair k) n k) := by
  show Host.Outcome.next _ = _
  rw [if_neg h]

theorem hostTrains_iff (w r : Nat) : hostTrains w r = true ↔ (w = 4 ∨ w = 8 ∨ w = 16) ∧ 1 ≤ r ∧ r ≤ 3 := by
  simp [hostTrains, or_assoc, and_assoc]

theorem execHostLinkTrained_eq (s : State) (w r : Nat) : exec (.hostLinkTrained w r) s =
    .next (if (w = 4 ∨ w = 8 ∨ w = 16) ∧ 1 ≤ r ∧ r ≤ 3 then { s with links := { s.links with width := w, rate := r } } else s) := by
  show Host.Outcome.next _ = _
  simp only [hostTrains_iff]

/-- A link that goes down is noted, raises source 34, and is logged (R68, R69). -/
theorem execHostLinkDown_up {s : State} (h : s.links.width ≠ 0) : exec .hostLinkDown s =
    .next (logEvent (raisePf { s with links := { s.links with width := 0, rate := 0, downev := true } } 34) .hostLinkDown 1 (logSource 0 8) 255 0 0) := by
  show Host.Outcome.next _ = _
  rw [if_neg h]

/-- The links (R31, R34, R35, R46, R60, R67 to R70): each event by what it leaves. -/
theorem linkEvents : Rule.LinkEvents := by
  intro s links
  refine ⟨?hinge, ?ports, fun _ _ => ⟨rfl, rfl⟩, ?trained, ?refused, ?isDown, ?goesDown⟩
  case hinge =>
    intro n m hm c hinge noted
    have changed (f : HingeMod → HingeMod) : Host.Outcome.next (updHinge s n f) =
        (.next { s with links := { s.links with hinge := s.links.hinge.set n (f m) } } : Result) := by rw [updHinge_eq hm]
    refine ⟨rfl, fun k hk => ?_, ⟨_, rfl, recordHinge_notes hm HingeMod.retire 5⟩, changed HingeMod.retrained, changed HingeMod.crcRetry,
      changed fun m => { m with crcerr := 0 }⟩
    rw [← HingeMod.repair_eq m hk]
    exact ⟨_, execHingeLaneRepair_lost s n hk, recordHinge_notes hm (fun m => m.repair k) k⟩
  case ports =>
    intro n w hw
    obtain ⟨hn, rfl⟩ := List.getElem?_eq_some_iff.1 hw
    refine ⟨?_, rfl⟩
    show Host.Outcome.next _ = _
    rw [List.modify_eq_set_get _ hn]
    rfl
  case trained =>
    intro w r hw h1 h3
    show exec _ s = _
    rw [execHostLinkTrained_eq, if_pos ⟨hw, h1, h3⟩]
  case refused =>
    intro w r h
    show exec _ s = _
    rw [execHostLinkTrained_eq, if_neg (by omega)]
  case isDown =>
    intro h
    show Host.Outcome.next _ = _
    rw [if_pos h]
  case goesDown =>
    intro h
    have raised := Reported.raisePf { s with links := { s.links with width := 0, rate := 0, downev := true } } 34
    have logged := Reported.logEvent (raisePf { s with links := { s.links with width := 0, rate := 0, downev := true } } 34) .hostLinkDown 1
      (logSource 0 8) 255 0 0
    have all := raised.trans logged
    exact ⟨_, execHostLinkDown_up h, all.field State.links, logged.istat 34 (raisePf_raises _ 34),
      congrArg (fun t : State => { t with links := s.links }) all.state⟩

/-- Settles O58: time, power and the links, each by its rule. -/
theorem timePowerAndLinks : Obligations.TimePowerAndLinks := ⟨timeAndPower, linkEvents⟩

end Sys2Proof.Machine

/-!
Three statements that fail where memory is not in canonical form (`MemOk`), since they give the bytes after a write for every state: Hinge
messages, completions, and the Strainer.
-/
namespace Sys2Proof.Machine

/-! ## Memory out of order -/

/-- The reset state with a memory that is not in canonical form: the cell of byte 3 stands behind that of byte 64, where a read does not find it
until a write of 0 takes the cell of byte 64 away. -/
def disordered : State := { State.reset with mem := [(64, 1), (3, 2)] }

/-- The byte at a place after a result that goes on. -/
def byteAfter (r : Result) (p : Place) : Option Byte :=
  match r with
  | .next t => some (readByte t p)
  | _ => none

/-- What shows at byte 3 cannot also be unchanged. -/
theorem byteAfter_ne {r : Result} {t : State} {p : Place} (ht : r = .next t) (kept : readByte t p = 0) : byteAfter r p ≠ some 2 := by
  rw [ht, byteAfter, kept]
  decide

theorem eq_mk_of_snd {α β : Type} {x : α × β} {b : β} (h : x.2 = b) : x = (x.1, b) := h ▸ rfl

/-- A span below the scratchpads' addresses that is translated gives an engine its places (R182). -/
theorem engPlaces_of_spanPlaces {s t : State} {c : EngCmd} {acc : Acc} {va n : Nat} {ps : List (Place × Nat)} (hva : va < 2 ^ 63)
    (h : spanPlaces s c.who acc va n = (t, .ok ps)) : engPlaces s c acc va n = (t, .ok ps) := by
  rw [engPlaces, if_neg (Nat.not_le.2 hva), h]

theorem disordered_dram (s : State) {n : Nat} (hn : n ≤ 32) :
    ∀ k, k < n → regionOf s.links (64 + k) = .gddr 0 := by
  intro k hk
  rw [regionOf, if_pos (by unfold gddrSize; omega)]

/-! ## A message -/

/-- A write of 0 to byte 64, from die 1, at its home. -/
def zeroMessage : Flight :=
  { (default : Flight) with id := 5, kind := .write, stage := .request, die := 1, reads := [⟨.phys 64, 1, none, false⟩], data := [0] }

def withZeroMessage : State := { disordered with ms := { disordered.ms with flights := [zeroMessage] } }

/-- Refutes O40: the write of 0 to byte 64 is performed and byte 3, at which it is not aimed, shows 2. The state's memory is not in canonical
form, which the statement does not ask for. -/
theorem not_hingeMessages : ¬ Obligations.HingeMessages := by
  intro h
  obtain ⟨-, -, -, -, written, -⟩ := (h withZeroMessage 5 zeroMessage rfl).1 (by decide +kernel) (by decide +kernel) (by decide +kernel)
  obtain ⟨t, q, ht, -, -, -, -, -, bytes⟩ := written (.phys 64) 1 rfl rfl rfl rfl
    ⟨by decide, .inl ⟨64, rfl, fun k hk => by simp [isHost, Place.plus, disordered_dram _ (by decide) k hk]⟩⟩ rfl
  exact byteAfter_ne ht ((bytes (.phys 3) nofun).trans (by decide +kernel)) (by decide +kernel)

/-! ## A store buffer -/

/-- A store of 0 to byte 64 that waits in the buffer of core 0. -/
def zeroEntry : BufEntry := { (default : BufEntry) with id := 3, place := .phys 64, data := [0] }

/-- Core 0 with that entry, and a group of one lane with an access in flight. -/
def withZeroEntry : State :=
  { disordered with
    groups := [{ (default : Group) with lanes := [default] }]
    ms := { disordered.ms with sb := [zeroEntry], flights := [{ (default : Flight) with lanes := [0] }] } }

/-- Refutes O41: the entry that drains writes 0 to byte 64, and byte 3, at which it is not aimed, shows 2. The state's memory is not in canonical
form, which the statement does not ask for. -/
theorem not_completions : ¬ Obligations.Completions := by
  intro h
  obtain ⟨-, -, -, -, drained⟩ := h withZeroEntry 0 { (default : Flight) with lanes := [0] } { (default : Group) with lanes := [default] } 0
    rfl rfl rfl Nat.one_pos
  obtain ⟨t, ht, -, bytes⟩ := drained zeroEntry 64 rfl rfl rfl (fun k hk => by simp [disordered_dram _ (by decide) k hk]) nofun Nat.one_pos rfl
  exact byteAfter_ne ht ((bytes (.phys 3) nofun).trans (by decide +kernel)) (by decide +kernel)

/-! ## The Strainer's results -/

/-- A pass of the Strainer of die 0 whose one result, a record of 32 bytes 0, is to be written. -/
def zeroPass : StrainJob := { (default : StrainJob) with results := [(0, default)] }

def zeroPassCmd : EngCmd := { (default : EngCmd) with id := 7, kind := .strainer, issuer := .packet 0 0 [], body := .strainer zeroPass, started := true }

/-- That command at work; the reservoirs of partition 0 lie at byte 64, named by its address in the physical address space. -/
def withZeroPass : State :=
  { disordered.updPart 0 fun q => { q with setup := { q.setup with ranges := [(0, 4096)] }, res := { q.res with back0 := 2 ^ 62 + 64 } } with
    eng := { disordered.eng with cmds := [zeroPassCmd] } }

/-- Refutes O53: the record that the pass writes, 32 bytes 0 from byte 64 on, brings a 2 to light at byte 3. The state's memory is not in
canonical form, which the statement does not ask for. -/
theorem not_strainerRuns : ¬ Obligations.StrainerRuns := by
  intro h
  obtain ⟨-, -, -, running, -⟩ := h withZeroPass 7 zeroPassCmd zeroPass rfl rfl
  obtain ⟨-, -, -, -, written, -⟩ := running rfl rfl
  obtain ⟨t, ht, -, bytes⟩ := written _ 0 default 64 rfl rfl rfl rfl rfl rfl (by decide +kernel)
    (engPlaces_of_spanPlaces (by decide +kernel) (eq_mk_of_snd (by decide +kernel))) (by decide +kernel) (by decide +kernel)
    (fun k hk => by simp [disordered_dram _ le_rfl k hk]) (by decide +kernel)
  exact byteAfter_ne ht ((bytes (.phys 3) nofun).trans (by decide +kernel)) (by decide +kernel)

end Sys2Proof.Machine

/-!
Module reset and bring-up (R34, R45, R57, R60, R64 to R66, R87).
-/
namespace Sys2Proof.Machine

/-! ## What an image's writing leaves -/

/-- Writing an image changes Caddy's configuration slots alone. -/
theorem writeConfig_ofCaddy (s : State) (f : ConfigImage → ConfigImage) {α : Type} (g : Caddy → α)
    (hg : ∀ (c : Caddy) a b p, g { c with cfgA := a, cfgB := b, pendCfg := p } = g c := by intros; rfl) : g (writeConfig s f).caddy = g s.caddy := by
  have h : { (writeConfig s f).caddy with cfgA := s.caddy.cfgA, cfgB := s.caddy.cfgB, pendCfg := s.caddy.pendCfg } = s.caddy := by
    simp only [writeConfig, State.updCaddy]
    split
    · rw [Caddy.setCfg]
      split <;> rfl
    · rfl
  exact (hg ..).symm.trans (congrArg g h)

/-! ## Module reset -/

/-- A module after a reset, before the log takes note of a firmware slot that was given up (R64, R65). -/
def State.rebooted (s : State) : State :=
  { State.reset with
    agenda := s.agenda, turn := s.turn, fresh := s.fresh, out := s.out, mem := s.keptMem
    poison := if s.powered then s.poison else s.poison.filter fun b => decide (cxlBase ≤ 64 * b)
    caddy := s.caddy.restarted.1, links := { Links.reset with modid := s.links.modid } }

theorem resetModule_reported (s : State) : Reported s.rebooted (resetModule s) := by
  show Reported s.rebooted (if s.caddy.restarted.2 = true then logEvent s.rebooted .bootFallback 4 (logSource 0 0) 255 0 0 else s.rebooted)
  split
  · exact .logEvent ..
  · exact .refl _

theorem restarted_nextFw {c : Caddy} (h : c.pendFw = true) : c.restarted.1.nextFw = 1 - c.nextFw := by
  simp [Caddy.restarted, h]

/-- Without power, memory keeps what lies outside the module's own devices (R65). -/
theorem keptMem_off {s : State} (hp : s.powered = false) (hw : s.mem.wf = true) (a : Nat) :
    s.keptMem.read a = if cxlBase ≤ a then s.mem.read a else 0 := by
  simp only [State.keptMem, hp, Bool.false_eq_true, if_false]
  rw [Mem.read_filter hw fun a => decide (cxlBase ≤ a)]
  simp only [decide_eq_true_eq]
  rfl

/-- A module reset leaves no work and no partition (R65, R87). -/
theorem moduleReset_leaves (s : State) :
    ∃ t, exec .moduleReset s = .next t ∧ t.powered = true ∧ t.groups = [] ∧ t.teams = [] ∧ t.grids = [] ∧ t.graphs = [] ∧
      t.eng = Engines.reset ∧ t.parts = State.reset.parts ∧ t.links = { Links.reset with modid := s.links.modid } ∧
      t.caddy.flash = s.caddy.flash ∧ t.caddy.bootStep = 1 ∧ t.caddy.ready = false ∧ t.caddy.stopped = false ∧ t.caddy.minSvn = s.caddy.minSvn ∧
      t.caddy.slotFw = 0 ∧ t.caddy.slotCfg = 0 ∧
      (s.caddy.pendFw = true → t.caddy.nextFw = 1 - s.caddy.nextFw) ∧
      t.caddy.nextCfg = (if s.caddy.pendCfg then 1 - s.caddy.nextCfg else s.caddy.nextCfg) ∧
      (s.powered = true → t.mem = s.mem) ∧
      (s.powered = false → s.mem.wf = true → ∀ a, t.mem.read a = if cxlBase ≤ a then s.mem.read a else 0) := by
  have r := resetModule_reported s
  have mem : (resetModule s).mem = s.keptMem := r.field State.mem
  refine ⟨resetModule s, rfl, r.field State.powered, r.field State.groups, r.field State.teams, r.field State.grids, r.field State.graphs,
    r.field State.eng, r.field State.parts, r.field State.links, r.ofCaddy Caddy.flash, r.ofCaddy Caddy.bootStep, r.ofCaddy Caddy.ready,
    r.ofCaddy Caddy.stopped, r.ofCaddy Caddy.minSvn, r.ofCaddy Caddy.slotFw, r.ofCaddy Caddy.slotCfg,
    fun h => (r.ofCaddy Caddy.nextFw).trans (restarted_nextFw h), r.ofCaddy Caddy.nextCfg, fun h => ?_, fun h hw a => ?_⟩
  · rw [mem, State.keptMem, if_pos h]
  · rw [mem, keptMem_off h hw]

/-! ## Bring-up -/

/-- Bring-up is at a step. -/
def BootAt (s : State) (n : Nat) : Prop := s.caddy.stopped = false ∧ s.caddy.ready = false ∧ s.caddy.bootStep = n

theorem bringup_ended {s : State} (h : s.caddy.stopped = true ∨ s.caddy.ready = true) (r : BringupResult) :
    exec (.bringupStepComplete r) s = .next s := by
  show Host.Outcome.next _ = _
  rw [if_pos (by simpa using h)]

/-- What the end of each step does (R65). -/
theorem bringup_steps (s : State) (r : BringupResult) :
    let ends (t : State) : Prop := exec (.bringupStepComplete r) s = .next t
    (BootAt s 1 → ends (if r.ok then bootTo s 2 else s)) ∧ (BootAt s 2 → ends (if r.ok then bootFirmware s else bootStop s)) ∧
      (BootAt s 3 → ends (if r.ok then bootConfig s r.keyMatches else bootStop s)) ∧ (BootAt s 4 → ends (bootMemory s r.failedChannels)) ∧
      (BootAt s 5 → ends (bootLinks s r)) ∧ (BootAt s 6 → ends (if r.ok then bootMap s else bootStop s)) ∧ (BootAt s 7 → ends (bootReady s)) := by
  intro ends
  refine ⟨?_, ?_, ?_, ?_, ?_, ?_, ?_⟩
  all_goals
    intro h
    obtain ⟨hs, hr, hn⟩ := h
    show Host.Outcome.next _ = _
    rw [if_neg (by simp [hs, hr])]
    simp only [hn]

/-- Where the self-test of a step fails, bring-up stops there (R66). -/
theorem bringup_stops {s : State} {r : BringupResult} (hr : r.ok = false) (h : BootAt s 2 ∨ BootAt s 3 ∨ BootAt s 6) :
    exec (.bringupStepComplete r) s = .next { s with caddy := { s.caddy with stopped := true } } := by
  obtain ⟨-, s2, s3, -, -, s6, -⟩ := bringup_steps s r
  rw [hr] at s2 s3 s6
  exact h.elim s2 (Or.rec s3 s6)

/-! ### Firmware -/

theorem takesFw_iff (c : Caddy) (i : Option FirmwareImage) :
    c.takesFw i = true ↔ ∃ x, i = some x ∧ x.signed = true ∧ c.minSvn ≤ x.svn := by
  cases i <;> simp [Caddy.takesFw]

/-- Step 2: the firmware of the slot in turn runs, else that of the other, else bring-up stops (R65, R66). -/
theorem bootFirmware_eq (s : State) : let c := s.caddy
    (c.takesFw (c.fw c.nextFw) = true → bootFirmware s = { s with caddy := { c with slotFw := c.nextFw, bootStep := 3 } }) ∧
      (c.takesFw (c.fw c.nextFw) = false → c.takesFw (c.fw (1 - c.nextFw)) = true →
        bootFirmware s = { s with caddy := { c with slotFw := 1 - c.nextFw, nextFw := 1 - c.nextFw, bootStep := 3 } }) ∧
      (c.takesFw (c.fw c.nextFw) = false → c.takesFw (c.fw (1 - c.nextFw)) = false →
        bootFirmware s = { s with caddy := { c with stopped := true } }) := by
  refine ⟨fun h => ?_, fun h k => ?_, fun h k => ?_⟩
  · rw [bootFirmware, if_pos h]
    rfl
  · rw [bootFirmware, if_neg (by simp [h]), if_pos k]
    rfl
  · rw [bootFirmware, if_neg (by simp [h]), if_neg (by simp [k])]
    rfl

/-! ### Configuration -/

theorem coremapOk_iff (m : List Nat) : coremapOk m = true ↔ ∀ k, k < 144 → m.count k = 1 := by
  simp [coremapOk]

theorem takesCfg_iff (c : Caddy) (i : Option ConfigImage) :
    c.takesCfg i = true ↔ ∃ x, i = some x ∧ x.signed = true ∧ x.spare = 0 ∧ x.bodyZero = true ∧ c.minSvn ≤ x.svn ∧
      ∀ k, k < 144 → x.coremap0.count k = 1 ∧ x.coremap1.count k = 1 := by
  cases i with
  | none => simp [Caddy.takesCfg]
  | some x =>
    simp only [Caddy.takesCfg, Bool.and_eq_true, decide_eq_true_eq, coremapOk_iff, and_assoc, Option.some.injEq, exists_eq_left', ← forall_and]

/-- The identity key is derived, and the configuration of a slot is in force (R62). -/
def State.keyed (s : State) (slot : Nat) (keyMatches : Bool) : State :=
  s.updCaddy fun c => { c with mayReport := keyMatches, slotCfg := slot, nextCfg := slot }

/-- The end of step 3 with the configuration of a slot. -/
def State.keyDone (s : State) (slot : Nat) (keyMatches : Bool) : State :=
  bootTo (if keyMatches then s.keyed slot keyMatches else logEvent (s.keyed slot keyMatches) .keyMismatch 4 (logSource 0 0) 255 0 0) 4

theorem keyDone_caddy (s : State) (slot : Nat) (k : Bool) : (s.keyDone slot k).caddy.bootStep = 4 ∧
    (s.keyDone slot k).caddy.slotCfg = slot ∧ (s.keyDone slot k).caddy.mayReport = k := by
  have r : Reported (s.keyed slot k) (if k then s.keyed slot k else logEvent (s.keyed slot k) .keyMismatch 4 (logSource 0 0) 255 0 0) := by
    split
    · exact .refl _
    · exact .logEvent ..
  exact ⟨rfl, r.ofCaddy Caddy.slotCfg, r.ofCaddy Caddy.mayReport⟩

/-- Step 3: the configuration of the slot in turn is in force, else that of the other, else bring-up stops (R60, R65, R66). -/
theorem bootConfig_eq (s : State) (k : Bool) : let c := s.caddy
    (c.takesCfg (c.cfg c.nextCfg) = true → bootConfig s k = s.keyDone c.nextCfg k) ∧
      (c.takesCfg (c.cfg c.nextCfg) = false → c.takesCfg (c.cfg (1 - c.nextCfg)) = true →
        bootConfig s k = (logRejected s).keyDone (1 - c.nextCfg) k) ∧
      (c.takesCfg (c.cfg c.nextCfg) = false → c.takesCfg (c.cfg (1 - c.nextCfg)) = false →
        ∃ u, Reported s u ∧ bootConfig s k = bootStop u) := by
  refine ⟨fun h => ?_, fun h h' => ?_, fun h h' => ?_⟩
  · simp only [bootConfig, h, if_true]
    rfl
  · simp only [bootConfig, h, h', if_true, Bool.false_eq_true, if_false]
    rfl
  · simp only [bootConfig, h, h', Bool.false_eq_true, if_false]
    refine ⟨_, ?_, rfl⟩
    split
    · exact (Reported.logEvent ..).trans (.logEvent ..)
    · exact .logEvent ..

/-! ### Links -/

theorem recordHinges_state (lost : Nat → Nat) (ns : List Nat) (s : State) :
    { ns.foldl (fun s n => recordHinge s n (lost n)) s with caddy := s.caddy } = s := by
  induction ns generalizing s with
  | nil => rfl
  | cons n ns ih => exact congrArg (fun t : State => { t with caddy := s.caddy }) (ih (recordHinge s n (lost n)))

theorem cxlTrains_links (ps : List (Nat × Nat)) (k : Links) :
    { ps.foldl (fun k p => k.cxlTrain p.1 p.2) k with cxlUp := k.cxlUp, cxlCap := k.cxlCap } = k := by
  induction ps generalizing k with
  | nil => rfl
  | cons p ps ih => exact congrArg (fun l : Links => { l with cxlUp := k.cxlUp, cxlCap := k.cxlCap }) (ih (k.cxlTrain p.1 p.2))

theorem lanesLost_none {r : BringupResult} (h : r.retiredModules = []) (h' : r.repairedModules = []) (n : Nat) : lanesLost r n = 0 := by
  simp [lanesLost, h, h']

/-- How a Hinge module stands that trains with some lanes to repair (R34). -/
theorem repair_trained (m : HingeMod) (k : Nat) :
    let x := ({ m with state := 0, repaired := 0 } : HingeMod).repair k
    x.crcerr = m.crcerr ∧ (4 < k → x.state = 3) ∧ (k ≤ 4 → x.repaired = k ∧ x.state = if k = 0 then 0 else 1) := by
  intro x
  by_cases hk : k = 0
  · subst hk
    exact ⟨rfl, nofun, fun _ => ⟨rfl, rfl⟩⟩
  · have e : x = if 4 < 0 + k then ({ m with state := 3, repaired := 0 } : HingeMod) else { m with state := 1, repaired := 0 + k } :=
      HingeMod.repair_eq _ hk
    rw [e, Nat.zero_add, if_neg hk]
    split
    · exact ⟨rfl, fun _ => rfl, fun _ => by omega⟩
    · exact ⟨rfl, fun _ => by omega, fun _ => ⟨rfl, rfl⟩⟩

/-- The links as step 5 leaves them, but for the CXL ports (R34, R46, R65). -/
def State.trained (s : State) (r : BringupResult) : Links :=
  { s.links with
    hinge := s.links.hinge.mapIdx fun n m =>
      ({ m with state := 0, repaired := 0 } : HingeMod).repair (s.caddy.image.body.hingeRepairs.getD n 0 + lanesLost r n)
    ports := s.links.ports.mapIdx fun n l => if r.portsDown.contains n then 0 else l, modid := r.modid % 1024 }

theorem bootLinks_links (s : State) (r : BringupResult) :
    { (bootLinks s r).links with cxlUp := s.links.cxlUp, cxlCap := s.links.cxlCap } = s.trained r :=
  cxlTrains_links r.cxlPorts (s.trained r)

theorem bootLinks_state (s : State) (r : BringupResult) : { bootLinks s r with caddy := s.caddy, links := s.links } = s :=
  congrArg (fun t : State => { t with links := s.links })
    (recordHinges_state (lanesLost r) ((List.range 40).filter fun n => decide (lanesLost r n ≠ 0)) s)

theorem bootLinks_caddy {s : State} {r : BringupResult} (h : r.retiredModules = []) (h' : r.repairedModules = []) :
    (bootLinks s r).caddy = { s.caddy with bootStep := 6 } := by
  have none : (List.range 40).filter (fun n => decide (lanesLost r n ≠ 0)) = [] := by simp [lanesLost_none h h']
  simp only [bootLinks, none]
  rfl

/-- A trained module by the repairs of the image and the lanes found lost (R34, R59). -/
theorem bootLinks_hinge (s : State) (r : BringupResult) {n : Nat} {m : HingeMod} (h : s.links.hinge[n]? = some m) :
    ∃ x, (bootLinks s r).links.hinge[n]? = some x ∧ x.crcerr = m.crcerr ∧
      let lanes := s.caddy.image.body.hingeRepairs.getD n 0 + r.repairedModules.count n
      (n ∈ r.retiredModules ∨ 4 < lanes → x.state = 3) ∧
      (n ∉ r.retiredModules → lanes ≤ 4 → x.repaired = lanes ∧ x.state = if lanes = 0 then 0 else 1) := by
  have e := congrArg Links.hinge (bootLinks_links s r)
  change (bootLinks s r).links.hinge = _ at e
  obtain ⟨crc, retires, repairs⟩ := repair_trained m (s.caddy.image.body.hingeRepairs.getD n 0 + lanesLost r n)
  refine ⟨_, by rw [e, State.trained, List.getElem?_mapIdx, h, Option.map_some], crc, ?_⟩
  by_cases hn : n ∈ r.retiredModules
  · have five : lanesLost r n = 5 := by simp [lanesLost, hn]
    exact ⟨fun _ => retires (by omega), fun k => absurd hn k⟩
  · have found : lanesLost r n = r.repairedModules.count n := by simp [lanesLost, hn]
    rw [found] at retires repairs ⊢
    exact ⟨fun k => retires (k.resolve_left hn), fun _ => repairs⟩

theorem bootLinks_ports (s : State) (r : BringupResult) {n l : Nat} (h : s.links.ports[n]? = some l) :
    (bootLinks s r).links.ports[n]? = some (if n ∈ r.portsDown then 0 else l) := by
  have e := congrArg Links.ports (bootLinks_links s r)
  change (bootLinks s r).links.ports = _ at e
  rw [e, State.trained, List.getElem?_mapIdx, h]
  simp

/-! ### The steps -/

theorem bringup_selfTest {s : State} (h : BootAt s 1) (r : BringupResult) :
    (r.ok = true → exec (.bringupStepComplete r) s = .next { s with caddy := { s.caddy with bootStep := 2 } }) ∧
      (r.ok = false → exec (.bringupStepComplete r) s = .next s) := by
  obtain ⟨e, -⟩ := bringup_steps s r
  replace e := e h
  refine ⟨fun ok => ?_, fun ok => ?_⟩
  · rwa [if_pos ok] at e
  · rwa [if_neg (by simp [ok])] at e

/-- The firmware step by the images that Caddy accepts (R60, R65). -/
theorem bringup_firmware {s : State} (h : BootAt s 2) {r : BringupResult} (ok : r.ok = true) :
    let c := s.caddy
    let good (i : Option FirmwareImage) : Prop := ∃ x, i = some x ∧ x.signed = true ∧ c.minSvn ≤ x.svn
    let ends (d : Caddy) : Prop := exec (.bringupStepComplete r) s = .next { s with caddy := d }
    (good (c.fw c.nextFw) → ends { c with slotFw := c.nextFw, bootStep := 3 }) ∧
      (¬good (c.fw c.nextFw) → good (c.fw (1 - c.nextFw)) → ends { c with slotFw := 1 - c.nextFw, nextFw := 1 - c.nextFw, bootStep := 3 }) ∧
      (¬good (c.fw c.nextFw) → ¬good (c.fw (1 - c.nextFw)) → ends { c with stopped := true }) := by
  simp only [← takesFw_iff, Bool.not_eq_true]
  obtain ⟨-, e, -⟩ := bringup_steps s r
  replace e := e h
  rw [if_pos ok] at e
  obtain ⟨first, second, neither⟩ := bootFirmware_eq s
  exact ⟨fun g => first g ▸ e, fun g g' => second g g' ▸ e, fun g g' => neither g g' ▸ e⟩

/-- The configuration step by the images that Caddy accepts (R60, R65). -/
theorem bringup_config {s : State} (h : BootAt s 3) {r : BringupResult} (ok : r.ok = true) :
    let c := s.caddy
    let good (i : Option ConfigImage) : Prop := ∃ x, i = some x ∧ x.signed = true ∧ x.spare = 0 ∧ x.bodyZero = true ∧ c.minSvn ≤ x.svn ∧
      ∀ k, k < 144 → x.coremap0.count k = 1 ∧ x.coremap1.count k = 1
    let runs (slot : Nat) : Prop := ∃ t, exec (.bringupStepComplete r) s = .next t ∧ t.caddy.bootStep = 4 ∧ t.caddy.slotCfg = slot ∧
      t.caddy.mayReport = r.keyMatches
    (good (c.cfg c.nextCfg) → runs c.nextCfg) ∧ (¬good (c.cfg c.nextCfg) → good (c.cfg (1 - c.nextCfg)) → runs (1 - c.nextCfg)) ∧
      (¬good (c.cfg c.nextCfg) → ¬good (c.cfg (1 - c.nextCfg)) →
        ∃ t, exec (.bringupStepComplete r) s = .next t ∧ t.caddy.stopped = true ∧ t.caddy.bootStep = 3) := by
  simp only [← takesCfg_iff, Bool.not_eq_true]
  obtain ⟨-, -, e, -⟩ := bringup_steps s r
  have at3 := h.2.2
  replace e := e h
  rw [if_pos ok] at e
  obtain ⟨first, second, neither⟩ := bootConfig_eq s r.keyMatches
  refine ⟨fun g => ⟨_, first g ▸ e, keyDone_caddy ..⟩, fun g g' => ⟨_, second g g' ▸ e, keyDone_caddy ..⟩, fun g g' => ?_⟩
  obtain ⟨u, hu, eu⟩ := neither g g'
  rw [eu] at e
  exact ⟨_, e, rfl, (hu.ofCaddy Caddy.bootStep).trans at3⟩

theorem bringup_map {s : State} (h : BootAt s 6) {r : BringupResult} (ok : r.ok = true) : exec (.bringupStepComplete r) s = .next (bootMap s) := by
  obtain ⟨-, -, -, -, -, e, -⟩ := bringup_steps s r
  replace e := e h
  rwa [if_pos ok] at e

end Sys2Proof.Machine

/-!
Errors that a scrub reports (R28, R29, R188, R346), and the retirement of cores and slices (R345, R346).
-/
namespace Sys2Proof.Machine

/-! ## Errors of memory -/

theorem countOf_addCount (l : List (Nat × Nat × Nat)) (d k n : Nat) : countOf (addCount l d k n) d k = countOf l d k + n := by
  simp [countOf, addCount]

theorem Reported.config {s t : State} (h : Reported s t) : t.config = s.config :=
  h.ofCaddy fun c => (if c.slotCfg = 0 then c.cfgA else c.cfgB).getD defaultImage

theorem scrub_far {d : Nat} (h : 2 ≤ d) (s : State) (r : ErrorReport) : exec (.scrubPeriod d r) s = .next s := by
  show Host.Outcome.next _ = _
  rw [if_pos h]

theorem scrub_near {d : Nat} (h : d < 2) (s : State) (r : ErrorReport) : exec (.scrubPeriod d r) s =
    .next (r.words.foldl (fun s w => noteWord s w.1 w.2) (r.corrected.foldl noteSoft
      (r.blocks.foldl (fun s b => noteBlock s d b) (scrubRegions s d r.regions)))) := by
  show Host.Outcome.next _ = _
  rw [if_neg (Nat.not_le.2 h)]

theorem scrubRegions_nil (s : State) (d : Nat) :
    ∃ l, scrubRegions s d [] = { s with caddy := { s.caddy with lastScrub := l } } := by
  unfold scrubRegions
  split
  · exact ⟨_, rfl⟩
  · exact ⟨_, rfl⟩

/-- Errors of a symbol region are counted, and at the threshold the region is marked failed (R29). -/
theorem noteRegion_leaves (s : State) (d k n : Nat) :
    let t := noteRegion s d k n
    let total := countOf s.caddy.regionErrs d k + n
    t.mem = s.mem ∧ t.caddy.lastScrub = s.caddy.lastScrub ∧ countOf t.caddy.regionErrs d k = total ∧
      t.caddy.failedRegions = if (d, k) ∈ s.caddy.failedRegions ∨ total < max 1 s.config.body.threshold then s.caddy.failedRegions
        else s.caddy.failedRegions ++ [(d, k)] := by
  intro t total
  have count := countOf_addCount s.caddy.regionErrs d k n
  have limit : (s.caddy.failedRegions.contains (d, k) || !reachesLimit s (countOf (addCount s.caddy.regionErrs d k n) d k)) = true ↔
      (d, k) ∈ s.caddy.failedRegions ∨ total < max 1 s.config.body.threshold := by
    simp only [count, reachesLimit, Bool.or_eq_true, List.contains_iff_mem, Bool.not_eq_true', decide_eq_false_iff_not, Nat.not_le]
    rfl
  by_cases h : (d, k) ∈ s.caddy.failedRegions ∨ total < max 1 s.config.body.threshold
  · have e : t = s.updCaddy fun c => { c with regionErrs := addCount c.regionErrs d k n } := if_pos (limit.2 h)
    rw [e, if_pos h]
    exact ⟨rfl, rfl, count, rfl⟩
  · let u := s.updCaddy fun c =>
      { c with regionErrs := addCount c.regionErrs d k n, failedRegions := c.failedRegions ++ [(d, k)] }
    have e : t = writeConfig (logEvent u .symbolRegion 2 (logSource d 3) 255 d k) fun i => updBody i fun b =>
        { b with failedRegions := b.failedRegions ++ [(d, k)] } := if_neg (fun c => h (limit.1 c))
    have r := Reported.logEvent u .symbolRegion 2 (logSource d 3) 255 d k
    rw [e, if_neg h]
    exact ⟨r.field State.mem, (writeConfig_ofCaddy _ _ Caddy.lastScrub).trans (r.ofCaddy Caddy.lastScrub),
      (congrArg (countOf · d k) ((writeConfig_ofCaddy _ _ Caddy.regionErrs).trans (r.ofCaddy Caddy.regionErrs))).trans count,
      (writeConfig_ofCaddy _ _ Caddy.failedRegions).trans (r.ofCaddy Caddy.failedRegions)⟩

/-- A report of one symbol region (R29). -/
theorem scrub_region {d : Nat} (hd : d < 2) (s : State) (k n : Nat) (hl : s.caddy.lastScrub.length = 2) :
    let c := s.caddy
    let report : ErrorReport := { regions := [(k, n)], blocks := [], corrected := [], words := [] }
    let total := countOf c.regionErrs d k + n
    (s.time.now < c.lastScrub.getD d 0 + s.config.body.scrubPeriod → exec (.scrubPeriod d report) s = .next s) ∧
      (c.lastScrub.getD d 0 + s.config.body.scrubPeriod ≤ s.time.now → ∃ t, exec (.scrubPeriod d report) s = .next t ∧ t.mem = s.mem ∧
        t.caddy.lastScrub.getD d 0 = s.time.now ∧ countOf t.caddy.regionErrs d k = total ∧
        t.caddy.failedRegions = (if (d, k) ∈ c.failedRegions ∨ total < max 1 s.config.body.threshold then c.failedRegions
          else c.failedRegions ++ [(d, k)])) := by
  intro c report total
  have e : exec (.scrubPeriod d report) s = .next (scrubRegions s d [(k, n)]) := scrub_near hd s report
  refine ⟨fun h => ?_, fun h => ⟨_, e, ?_⟩⟩
  · rw [e, scrubRegions, if_neg (by simpa [scrubDue] using h)]
  · let u := s.updCaddy fun c => { c with lastScrub := c.lastScrub.set d s.time.now }
    have due : scrubRegions s d [(k, n)] = noteRegion u d k n := if_pos (decide_eq_true h)
    obtain ⟨mem, last, count, failed⟩ := noteRegion_leaves u d k n
    rw [due]
    refine ⟨mem, ?_, count, failed⟩
    rw [last]
    show (s.caddy.lastScrub.set d s.time.now).getD d 0 = _
    rw [List.getD_eq_getElem?_getD, List.getElem?_set_self (by omega), Option.getD_some]

/-- A block beyond correction is poisoned and logged (R28). -/
theorem noteBlock_leaves {s : State} {b u : Nat} (h : (regionOf s.links (64 * b)).unit = some u) (d : Nat) :
    ∃ l, b ∈ l ∧ noteBlock s d b = logEvent { s with poison := l } .poison 3 (logSource d u) 255 d (64 * b) := by
  simp only [noteBlock, h]
  split
  next hb => exact ⟨s.poison, by simpa using hb, rfl⟩
  · exact ⟨s.poison ++ [b], by simp, rfl⟩

theorem scrub_block {d : Nat} (hd : d < 2) {s : State} {b : Nat}
    (h : ∃ n, regionOf s.links (64 * b) = .gddr n ∨ regionOf s.links (64 * b) = .lpddr n ∨ regionOf s.links (64 * b) = .cxl n) :
    ∃ t, exec (.scrubPeriod d { regions := [], blocks := [b], corrected := [], words := [] }) s = .next t ∧ t.mem = s.mem ∧ b ∈ t.poison ∧
      (s.caddy.running = true → s.caddy.logBuf.length < 256 → ∃ x, t.caddy.logBuf = s.caddy.logBuf ++ [x] ∧ x.cls = 3) := by
  obtain ⟨l, hl⟩ := scrubRegions_nil s d
  have isDram : ∃ u, (regionOf s.links (64 * b)).unit = some u := by
    obtain ⟨n, h | h | h⟩ := h
    · exact ⟨3, by rw [h]; rfl⟩
    · exact ⟨4, by rw [h]; rfl⟩
    · exact ⟨5, by rw [h]; rfl⟩
  obtain ⟨u, hu⟩ := isDram
  obtain ⟨ps, hb, hn⟩ := noteBlock_leaves (s := { s with caddy := { s.caddy with lastScrub := l } }) hu d
  have r := Reported.logEvent { s with poison := ps, caddy := { s.caddy with lastScrub := l } } .poison 3 (logSource d u) 255 d (64 * b)
  refine ⟨_, scrub_near hd s _, ?_⟩
  simp only [List.foldl_cons, List.foldl_nil, hl, hn]
  refine ⟨r.field State.mem, (r.field State.poison).symm ▸ hb, fun running room => ?_⟩
  exact ⟨_, logEvent_logBuf (s := { s with poison := ps, caddy := { s.caddy with lastScrub := l } }) running room .., rfl⟩

/-! ## Errors of SRAM -/

/-- A core that is asked to retire is retiring, unless it is disabled (R345). -/
theorem askRetire_retiring (s : State) (core : Nat) : core ∈ (askRetire s core).retiring ∨ core ∈ s.disabledCores := by
  unfold askRetire
  split
  next h => simpa using h
  · exact .inl (by simp)

theorem askRetire_keeps (s : State) (core : Nat) : (askRetire s core).mem = s.mem ∧ (askRetire s core).sramPoison = s.sramPoison := by
  unfold askRetire
  split <;> exact ⟨rfl, rfl⟩

theorem TeamsOnly.kept {s t : State} (h : TeamsOnly s t) : t.mem = s.mem ∧ t.sramPoison = s.sramPoison ∧ t.retiring = s.retiring ∧
    t.groups = s.groups ∧ t.disabledCores = s.disabledCores :=
  ⟨h.field State.mem rfl, h.field State.sramPoison rfl, h.field State.retiring rfl, h.field State.groups rfl, h.field State.disabledCores rfl⟩

/-- A scratchpad word beyond correction is poisoned and logged, and its core is asked to retire (R188, R345). -/
theorem noteWord_asks (s : State) (core o : Nat) : ∃ l, Place.sp core (o / 8 * 8) ∈ l ∧ TeamsOnly
    (askRetire (logEvent { s with sramPoison := l } .poison 3 (logSource (dieOfCore core) 1) 255 0 o) core) (noteWord s (.scratchpad core) o) := by
  simp only [noteWord, sramCore, sramPlace, Place.word, sramSource]
  by_cases h : Place.sp core (o / 8 * 8) ∈ s.sramPoison
  · simp only [List.contains_eq_mem, h, decide_true, if_true]
    exact ⟨s.sramPoison, h, TeamsOnly.foldl TeamsOnly.requestCuts _ _⟩
  · simp only [List.contains_eq_mem, h, decide_false, Bool.false_eq_true, if_false]
    exact ⟨_, List.mem_append_right _ (.head _), TeamsOnly.foldl TeamsOnly.requestCuts _ _⟩

theorem noteWord_leaves (s : State) (core o : Nat) :
    let t := noteWord s (.scratchpad core) o
    t.mem = s.mem ∧ Place.sp core (o / 8 * 8) ∈ t.sramPoison ∧ (core ∈ t.retiring ∨ core ∈ s.disabledCores) := by
  obtain ⟨l, hl, cuts⟩ := noteWord_asks s core o
  obtain ⟨mem, sram, retiring, -, -⟩ := cuts.kept
  have r := Reported.logEvent { s with sramPoison := l } .poison 3 (logSource (dieOfCore core) 1) 255 0 o
  generalize logEvent { s with sramPoison := l } .poison 3 (logSource (dieOfCore core) 1) 255 0 o = u at *
  have disabled : u.disabledCores = s.disabledCores := r.field State.disabledCores
  obtain ⟨askMem, askSram⟩ := askRetire_keeps u core
  simp only [mem, sram, retiring, askMem, askSram, ← disabled]
  exact ⟨r.field State.mem, (r.field State.sramPoison).symm ▸ hl, askRetire_retiring u core⟩

/-- A retired slice's bit stands in L2RET of its die (R346). -/
theorem retireSlice_bit (s : State) {d : Nat} (hd : d < 2) (n : Nat) :
    (if d = 0 then (retireSlice s d n).l2ret0 else (retireSlice s d n).l2ret1).testBit n = true := by
  obtain rfl | rfl : d = 0 ∨ d = 1 := by omega
  · show (s.l2ret0 ||| 2 ^ n).testBit n = true
    simp [Nat.testBit_or, Nat.testBit_two_pow_self]
  · show (s.l2ret1 ||| 2 ^ n).testBit n = true
    simp [Nat.testBit_or, Nat.testBit_two_pow_self]

theorem retireSlice_ofCaddy (s : State) (d n : Nat) {α : Type} (g : Caddy → α)
    (hg : ∀ (c : Caddy) a b p, g { c with cfgA := a, cfgB := b, pendCfg := p } = g c := by intros; rfl) :
    g (retireSlice s d n).caddy = g s.caddy := by
  unfold retireSlice
  exact writeConfig_ofCaddy _ _ g hg

/-- A corrected error of an L2 slice is counted, and at the threshold the slice has retired (R188, R346). -/
theorem noteSoft_leaves (s : State) {d n : Nat} (hd : d < 2) (hn : n < 64) :
    let t := noteSoft s (.l2 d n)
    t.mem = s.mem ∧ t.caddy.softErrs = s.caddy.softErrs + 1 ∧ countOf t.caddy.sliceErrs d n = countOf s.caddy.sliceErrs d n + 1 ∧
      (max 1 s.config.body.threshold ≤ countOf s.caddy.sliceErrs d n + 1 → (if d = 0 then t.l2ret0 else t.l2ret1).testBit n = true) := by
  intro t
  let v := s.updCaddy fun c => { c with softErrs := c.softErrs + 1 }
  let u := logEvent v .softError 2 (logSource d 2) 255 0 0
  let w := u.updCaddy fun c => { c with sliceErrs := addCount c.sliceErrs d n 1 }
  have r := Reported.logEvent v .softError 2 (logSource d 2) 255 0 0
  have mem : w.mem = s.mem := r.field State.mem
  have soft : w.caddy.softErrs = s.caddy.softErrs + 1 := r.ofCaddy Caddy.softErrs
  have count : countOf w.caddy.sliceErrs d n = countOf s.caddy.sliceErrs d n + 1 :=
    (countOf_addCount ..).trans (congrArg (countOf · d n + 1) (r.ofCaddy Caddy.sliceErrs))
  have config : w.config = s.config := r.config
  have branches : t = if 2 ≤ d ∨ 64 ≤ n ∨ sliceRetired w d n = true ∨ reachesLimit w (countOf w.caddy.sliceErrs d n) = false then w
      else retireSlice w d n := by
    show (if _ then _ else _) = _
    simp only [Bool.or_eq_true, decide_eq_true_eq, Bool.not_eq_true', or_assoc]
    rfl
  by_cases h : sliceRetired w d n = true ∨ reachesLimit w (countOf w.caddy.sliceErrs d n) = false
  · rw [branches, if_pos (.inr (.inr h))]
    refine ⟨mem, soft, count, fun k => h.elim id fun low => ?_⟩
    simp only [reachesLimit, count, config, decide_eq_false_iff_not] at low
    exact absurd k low
  · rw [branches, if_neg (by rintro (k | k | k); exacts [by omega, by omega, h k])]
    exact ⟨mem, (retireSlice_ofCaddy w d n Caddy.softErrs).trans soft,
      (congrArg (countOf · d n) (retireSlice_ofCaddy w d n Caddy.sliceErrs)).trans count, fun _ => retireSlice_bit w hd n⟩

/-! ## A team on a core that retires -/

/-- A team with a change of what a request to the Deadbolt changes. -/
def Asks (f : Team → Team) : Prop := ∀ t, (f t).id = t.id ∧ (f t).keyrings = t.keyrings

theorem updTeam_find (s : State) {f : Team → Team} (hf : Asks f) (id n : Nat) :
    (s.updTeam id f).team? n = (s.team? n).map fun t => if t.id == id then f t else t := by
  have same : ((fun t : Team => t.id == n) ∘ fun t => if t.id == id then f t else t) = fun t => t.id == n := by
    funext t
    simp only [Function.comp]
    split
    · rw [(hf t).1]
    · rfl
  simp only [State.team?, State.updTeam, List.find?_map, same]

/-- Teams of the same names hold the same keyrings in both states, which differ in teams alone. -/
structure Kept (s t : State) : Prop where
  teams : TeamsOnly s t
  keys : ∀ n, (t.team? n).map Team.keyrings = (s.team? n).map Team.keyrings

theorem Kept.refl (s : State) : Kept s s := ⟨.refl s, fun _ => rfl⟩

theorem Kept.trans {a b c : State} (h : Kept a b) (k : Kept b c) : Kept a c := ⟨h.teams.trans k.teams, fun n => (k.keys n).trans (h.keys n)⟩

theorem Kept.updTeam (s : State) (id : Nat) {f : Team → Team} (hf : Asks f) : Kept s (s.updTeam id f) := by
  refine ⟨.updTeam s id f, fun n => ?_⟩
  rw [updTeam_find s hf, Option.map_map]
  congr 1
  funext t
  simp only [Function.comp]
  split
  · exact (hf t).2
  · rfl

/-- Whether a request may be taken looks at no more of the teams than their keyrings (R337). -/
theorem Kept.latchOpen {s t : State} (h : Kept s t) (tm : Team) : latchOpen t tm = latchOpen s tm := by
  have groups : t.groups = s.groups := h.teams.field State.groups rfl
  have grids : t.grids = s.grids := h.teams.field State.grids rfl
  have render : t.render = s.render := h.teams.field State.render rfl
  have safe (g : Group) : atSafePoint t g = atSafePoint s g := by
    have keys := h.keys g.team
    unfold atSafePoint
    rw [render]
    cases ht : t.team? g.team with
    | none =>
      cases hs : s.team? g.team with
      | none => rfl
      | some y => simp [ht, hs] at keys
    | some x =>
      cases hs : s.team? g.team with
      | none => simp [ht, hs] at keys
      | some y =>
        have rings : x.keyrings = y.keyrings := by simpa [ht, hs] using keys
        simp only [rings]
  unfold Machine.latchOpen teamDetm teamMasked State.groupsOf State.grid?
  simp only [groups, grids, funext safe]

/-! ### A request for a cut -/

theorem asks_dest : Asks fun t => { t with dest := none } := fun _ => ⟨rfl, rfl⟩
theorem asks_latched (l : Option (DbKind × Nat)) : Asks fun t => { t with latched := l } := fun _ => ⟨rfl, rfl⟩

/-- A team whose cut begins (R338). -/
def Team.cutting (t : Team) : Team :=
  { t with db := .drainShd, dbKind := .cut, latched := none, due := t.due && decide (DbKind.cut ≠ .checkpoint), state := .stopping }

theorem asks_cutting : Asks Team.cutting := fun _ => ⟨rfl, rfl⟩

theorem beginDeadbolt_cut (s : State) (id : Nat) : beginDeadbolt s id .cut = s.updTeam id Team.cutting := rfl

theorem cutOrLatch_kept (s : State) (t : Team) : Kept s (cutOrLatch s t .cut) := by
  unfold cutOrLatch
  rw [if_pos rfl]
  simp only
  split
  · exact (Kept.updTeam s t.id asks_dest).trans (.updTeam _ t.id asks_cutting)
  · exact (Kept.updTeam s t.id asks_dest).trans (.updTeam _ t.id (asks_latched _))

theorem requestCut_kept (s : State) (id : Nat) : Kept s (requestDeadbolt s id .cut) := by
  unfold requestDeadbolt
  split
  · exact .refl s
  · simp only
    split
    · exact cutOrLatch_kept s _
    · exact .refl s

/-- What `requestCuts` does for one team: a cut, where the team must be saved (R144). -/
def askCut (s : State) (t : Team) : State :=
  match s.team? t.id with
  | some t => if mustSave s t then requestDeadbolt s t.id .cut else s
  | none => s

theorem requestCuts_eq (s : State) (p : Nat) : requestCuts s p = (s.teams.filter fun t => t.part == p).foldl askCut s := rfl

theorem askCut_kept (s : State) (t : Team) : Kept s (askCut s t) := by
  unfold askCut
  split
  · split
    · exact requestCut_kept s _
    · exact .refl s
  · exact .refl s

theorem team?_id {s : State} {n : Nat} {t : Team} (h : s.team? n = some t) : t.id = n := by simpa using List.find?_some h

theorem updTeam_other (s : State) {f : Team → Team} (hf : Asks f) {id n : Nat} (h : n ≠ id) : (s.updTeam id f).team? n = s.team? n := by
  rw [updTeam_find s hf]
  cases hn : s.team? n with
  | none => rfl
  | some u => simp [team?_id hn, h]

theorem cutOrLatch_other (s : State) {t : Team} {n : Nat} (h : n ≠ t.id) : (cutOrLatch s t .cut).team? n = s.team? n := by
  unfold cutOrLatch
  rw [if_pos rfl]
  simp only
  split
  · exact (updTeam_other _ asks_cutting h).trans (updTeam_other s asks_dest h)
  · exact (updTeam_other _ (asks_latched _) h).trans (updTeam_other s asks_dest h)

theorem requestCut_idle {s : State} {t : Team} (h : s.team? t.id = some t) (hd : t.db = .idle) (hp : t.state = .placed) :
    requestDeadbolt s t.id .cut = cutOrLatch s t .cut := by
  simp only [requestDeadbolt, h, hd, hp, decide_true, Bool.and_self, if_true]

/-- Asking one team leaves another. -/
theorem askCut_other (s : State) {t : Team} {n : Nat} (h : n ≠ t.id) : (askCut s t).team? n = s.team? n := by
  unfold askCut
  split
  next u hu =>
    split
    · unfold requestDeadbolt
      split
      · rfl
      next v hv =>
        simp only
        split
        · exact cutOrLatch_other s (by rwa [team?_id hv, team?_id hu])
        · rfl
    · rfl
  · rfl

/-- A team that stands on a retiring core as it did when the core was asked to retire, and may be cut. -/
structure Due (tm : Team) (s : State) : Prop where
  team : s.team? tm.id = some tm
  retiring : tm.core ∈ s.retiring
  area : (s.part tm.part).sch.ctx.log2 ≠ 0
  opened : latchOpen s tm = true

/-- A team whose cut has begun. -/
def CutBegun (tm : Team) (s : State) : Prop := ∃ u, s.team? tm.id = some u ∧ u.state = .stopping ∧ u.db = .drainShd ∧ u.dbKind = .cut

theorem Due.kept {tm : Team} {s t : State} (h : Due tm s) (k : Kept s t) (ht : t.team? tm.id = some tm) : Due tm t := by
  have retiring : t.retiring = s.retiring := k.teams.field State.retiring rfl
  have parts : t.part tm.part = s.part tm.part := k.teams.field (fun u => u.part tm.part) rfl
  exact ⟨ht, retiring ▸ h.retiring, parts ▸ h.area, (k.latchOpen tm).trans h.opened⟩

/-- A team that is due must be saved (R144, R345). -/
theorem Due.mustSave {tm : Team} {s : State} (h : Due tm s) (hc : tm.core < savedBase) (hp : tm.state = .placed) : mustSave s tm = true := by
  have leaves : mustLeave s tm.part tm.core = true := by
    unfold mustLeave
    rw [show s.retiring.contains tm.core = true by simpa using h.retiring, Bool.or_true, Bool.true_or]
  have here : tm.core ∈ clusterOn s tm := core_mem_clusterOn (List.mem_of_find?_eq_some h.team) hc
  have any : (clusterOn s tm).any (mustLeave s tm.part) = true := List.any_eq_true.2 ⟨_, here, leaves⟩
  simp [Machine.mustSave, h.area, hp, any]

theorem CutBegun.askCut {tm : Team} {s : State} (h : CutBegun tm s) (t : Team) : CutBegun tm (askCut s t) := by
  obtain ⟨u, hu, hs, hd, hk⟩ := h
  by_cases ht : tm.id = t.id
  · have kept : Machine.askCut s t = s := by
      have saved : Machine.mustSave s u = false := by simp [Machine.mustSave, hs]
      simp only [Machine.askCut, ← ht, hu, saved, Bool.false_eq_true, if_false]
    rw [kept]
    exact ⟨u, hu, hs, hd, hk⟩
  · exact ⟨u, (askCut_other s ht).trans hu, hs, hd, hk⟩

/-- Asking a team that is due begins its cut. -/
theorem Due.cut {tm : Team} {s : State} (h : Due tm s) (hc : tm.core < savedBase) (hp : tm.state = .placed) (hd : tm.db = .idle) {t : Team}
    (ht : t.id = tm.id) : CutBegun tm (askCut s t) := by
  have opened := ((Kept.updTeam s tm.id asks_dest).latchOpen tm).trans h.opened
  have e : Machine.askCut s t = beginDeadbolt (s.updTeam tm.id fun t => { t with dest := none }) tm.id .cut := by
    simp only [askCut, ht, h.team, h.mustSave hc hp, if_true, requestCut_idle h.team hd hp]
    rw [cutOrLatch, if_pos rfl]
    simp only [opened, if_true]
  unfold CutBegun
  rw [e, beginDeadbolt_cut, updTeam_find _ asks_cutting, updTeam_find s asks_dest, h.team]
  simp [Team.cutting]

/-- A fold whose steps keep `D` or reach `C`, which is then kept, and reach it at a certain element. -/
theorem foldl_reaches {σ α : Type} {f : σ → α → σ} {D C : σ → Prop} {hit : α → Prop} (keeps : ∀ s x, D s → D (f s x) ∨ C (f s x))
    (reaches : ∀ s x, hit x → D s → C (f s x)) (stays : ∀ s x, C s → C (f s x)) (l : List α) (s : σ) :
    (C s → C (l.foldl f s)) ∧ (D s → D (l.foldl f s) ∨ C (l.foldl f s)) ∧ (D s → (∃ x ∈ l, hit x) → C (l.foldl f s)) := by
  induction l generalizing s with
  | nil => exact ⟨id, .inl, fun _ ⟨x, hx, _⟩ => nomatch hx⟩
  | cons x l ih =>
    obtain ⟨stay, keep, reach⟩ := ih (f s x)
    refine ⟨fun h => stay (stays s x h), fun h => (keeps s x h).elim keep fun k => .inr (stay k), fun h ⟨y, hy, hit⟩ => ?_⟩
    rcases List.mem_cons.1 hy with rfl | hy
    · exact stay (reaches s _ hit h)
    · exact (keeps s x h).elim (fun k => reach k ⟨y, hy, hit⟩) stay

/-- Asking the partitions' teams for cuts begins the cut of one that is due (R144, R345). -/
theorem Due.requestCuts {tm : Team} {s : State} (h : Due tm s) (hc : tm.core < savedBase) (hp : tm.state = .placed) (hd : tm.db = .idle)
    {n : Nat} (hn : tm.part < n) : CutBegun tm ((List.range n).foldl requestCuts s) := by
  have team (s : State) (t : Team) (h : Due tm s) : Due tm (askCut s t) ∨ CutBegun tm (askCut s t) := by
    by_cases ht : t.id = tm.id
    · exact .inr (h.cut hc hp hd ht)
    · exact .inl (h.kept (askCut_kept s t) ((askCut_other s (Ne.symm ht)).trans h.team))
  have part (p : Nat) (s : State) : (CutBegun tm s → CutBegun tm (Machine.requestCuts s p)) ∧
      (Due tm s → Due tm (Machine.requestCuts s p) ∨ CutBegun tm (Machine.requestCuts s p)) ∧
      (Due tm s → p = tm.part → CutBegun tm (Machine.requestCuts s p)) := by
    rw [requestCuts_eq]
    obtain ⟨stay, keep, reach⟩ := foldl_reaches team (fun s t (ht : t.id = tm.id) h => h.cut hc hp hd ht) (fun s t h => h.askCut t)
      (s.teams.filter fun t => t.part == p) s
    exact ⟨stay, keep, fun h hp => reach h ⟨tm, by simp [List.mem_of_find?_eq_some h.team, hp], rfl⟩⟩
  obtain ⟨-, -, reach⟩ := foldl_reaches (hit := (· = tm.part)) (fun s p => (part p s).2.1) (fun s p hp h => (part p s).2.2 h hp)
    (fun s p => (part p s).1) (List.range n) s
  exact reach h ⟨tm.part, List.mem_range.2 hn, rfl⟩

/-! ## Retirement of a core -/

theorem coreRetire_ignored {s : State} {core : Nat} (h : 288 ≤ core ∨ core ∈ s.disabledCores) : exec (.coreRetire core) s = .next s := by
  show Host.Outcome.next _ = _
  rw [if_pos (by simpa using h)]

theorem askRetire_fields (s : State) (core : Nat) : (askRetire s core).teams = s.teams ∧ (askRetire s core).caddy = s.caddy ∧
    (askRetire s core).groups = s.groups ∧ (askRetire s core).disabledCores = s.disabledCores ∧ (askRetire s core).parts = s.parts := by
  unfold askRetire
  split <;> exact ⟨rfl, rfl, rfl, rfl, rfl⟩

theorem coreHeld_iff (s : State) (core : Nat) : coreHeld s core = true ↔ ∃ x ∈ s.teams, x.core = core := by
  simp [coreHeld]

/-- A core retires at once, or its teams are asked to leave (R345). -/
theorem coreRetire_eq {s : State} {core : Nat} (hc : core < 288) (hd : core ∉ s.disabledCores) : exec (.coreRetire core) s =
    .next (if ∃ x ∈ s.teams, x.core = core then (List.range 16).foldl requestCuts (askRetire s core) else retireCore (askRetire s core) core) := by
  show Host.Outcome.next _ = _
  have held : coreHeld (askRetire s core) core = true ↔ ∃ x ∈ s.teams, x.core = core := by
    rw [coreHeld_iff, (askRetire_fields s core).1]
  rw [if_neg (by simp [hd]; omega)]
  simp only [held]

/-- A team is found by its name where names differ. -/
theorem team?_of_mem {s : State} {tm : Team} (h : tm ∈ s.teams) (hn : (s.teams.map Team.id).Nodup) : s.team? tm.id = some tm := by
  unfold State.team?
  have found : (s.teams.find? fun t => t.id == tm.id).isSome := List.find?_isSome.2 ⟨tm, h, beq_self_eq_true tm.id⟩
  obtain ⟨u, hu⟩ := Option.isSome_iff_exists.1 found
  have same : u.id = tm.id := by simpa using List.find?_some hu
  rw [hu, List.inj_on_of_nodup_map hn (List.mem_of_find?_eq_some hu) h same]

/-- A core that holds teams is to retire, and those that may be saved are cut (R345). -/
theorem coreRetire_held {s : State} {core : Nat} (hc : core < 288) (hd : core ∉ s.disabledCores) (h : ∃ x ∈ s.teams, x.core = core) :
    ∃ t, exec (.coreRetire core) s = .next t ∧ core ∈ t.retiring ∧ t.groups = s.groups ∧ t.disabledCores = s.disabledCores ∧
      ∀ tm ∈ s.teams, (s.teams.map Team.id).Nodup → tm.core = core → tm.part < 16 → (s.part tm.part).sch.ctx.log2 ≠ 0 → tm.state = .placed →
        tm.db = .idle → latchOpen s tm = true → ∃ u, t.team? tm.id = some u ∧ u.state = .stopping ∧ u.db = .drainShd ∧ u.dbKind = .cut := by
  have e := coreRetire_eq hc hd
  rw [if_pos h] at e
  have asked := (askRetire_retiring s core).resolve_right hd
  obtain ⟨teams, -, groups, disabled, parts⟩ := askRetire_fields s core
  obtain ⟨-, -, keepRetiring, keepGroups, keepDisabled⟩ := (TeamsOnly.foldl TeamsOnly.requestCuts (List.range 16) (askRetire s core)).kept
  have cuts : ∀ tm ∈ s.teams, (s.teams.map Team.id).Nodup → tm.core = core → tm.part < 16 → (s.part tm.part).sch.ctx.log2 ≠ 0 →
      tm.state = .placed → tm.db = .idle → latchOpen s tm = true →
      CutBegun tm ((List.range 16).foldl requestCuts (askRetire s core)) := by
    intro tm hm names at_ part area placed idle opened
    have due : Due tm (askRetire s core) := by
      refine ⟨?_, at_ ▸ asked, ?_, ?_⟩
      · have found := team?_of_mem hm names
        rwa [State.team?, ← teams] at found
      · rwa [State.part, parts]
      · rw [← opened]
        unfold askRetire
        split <;> rfl
    exact due.requestCuts (by rw [at_, savedBase]; omega) placed idle part
  generalize (List.range 16).foldl requestCuts (askRetire s core) = t at e keepRetiring keepGroups keepDisabled cuts
  exact ⟨t, e, keepRetiring ▸ asked, keepGroups.trans groups, keepDisabled.trans disabled, cuts⟩

/-- What is logged of a core that retires: a spare has taken its place, or it is disabled (R345). -/
theorem retireCore_logs (s : State) {core : Nat} (hd : core ∉ s.disabledCores) :
    let n := s.caddy.spares (dieOfCore core)
    ∃ u f, retireCore s core = logEvent (writeConfig u f) .coreRetire 2 (logSource (dieOfCore core) 1) 255 core 0 ∧
      u.retiring = s.retiring.filter (· != core) ∧ u.disabledCores = (if 0 < n then s.disabledCores else s.disabledCores ++ [core]) ∧
      u.caddy.spares (dieOfCore core) = n - 1 := by
  intro n
  simp only [retireCore]
  by_cases h : 0 < n
  · rw [if_pos h, if_pos h]
    refine ⟨_, _, rfl, rfl, rfl, ?_⟩
    simp only [n, State.updCaddy, clearCores, Caddy.spares]
    split <;> rfl
  · have new : s.disabledCores.contains core = false := by simpa using hd
    have none : n = 0 := Nat.eq_zero_of_not_pos h
    rw [if_neg h, if_neg h]
    refine ⟨_, _, rfl, rfl, ?_, ?_⟩
    · simp only [new, Bool.false_eq_true, if_false]
    · rw [none]
      exact none

theorem retireCore_leaves (s : State) {core : Nat} (hd : core ∉ s.disabledCores) :
    let t := retireCore s core
    let n := s.caddy.spares (dieOfCore core)
    core ∉ t.retiring ∧ (0 < n → t.disabledCores = s.disabledCores ∧ t.caddy.spares (dieOfCore core) = n - 1) ∧
      (n = 0 → t.disabledCores = s.disabledCores ++ [core] ∧ t.caddy.spares (dieOfCore core) = n) := by
  intro t n
  obtain ⟨u, f, e, retiring, disabled, spares⟩ := retireCore_logs s hd
  have r : Reported (writeConfig u f) (retireCore s core) := by
    rw [e]
    exact .logEvent ..
  have gone : t.retiring = s.retiring.filter (· != core) := (r.field State.retiring).trans retiring
  have off : t.disabledCores = _ := (r.field State.disabledCores).trans disabled
  have left : t.caddy.spares (dieOfCore core) = n - 1 := (r.ofCaddy fun c => c.spares (dieOfCore core)).trans
    ((writeConfig_ofCaddy u f fun c => c.spares (dieOfCore core)).trans spares)
  refine ⟨by simp [gone], fun h => ⟨by rw [off, if_pos h], left⟩, fun h => ⟨by rw [off, if_neg (by omega)], by omega⟩⟩

theorem coreRetire_free {s : State} {core : Nat} (hc : core < 288) (hd : core ∉ s.disabledCores) (h : ∀ x ∈ s.teams, x.core ≠ core) :
    let n := s.caddy.spares (dieOfCore core)
    ∃ t, exec (.coreRetire core) s = .next t ∧ core ∉ t.retiring ∧
      (0 < n → t.disabledCores = s.disabledCores ∧ t.caddy.spares (dieOfCore core) = n - 1) ∧
      (n = 0 → t.disabledCores = s.disabledCores ++ [core] ∧ t.caddy.spares (dieOfCore core) = n) := by
  have e := coreRetire_eq hc hd
  rw [if_neg (by simpa using h)] at e
  obtain ⟨-, caddy, -, disabled, -⟩ := askRetire_fields s core
  have leaves := retireCore_leaves (askRetire s core) (core := core) (by rwa [disabled])
  simp only [caddy, disabled] at leaves
  exact ⟨_, e, leaves⟩

/-! ## Retirement of a slice -/

/-- Taking away the bits that two numbers share clears those bits. -/
theorem testBit_sub_and (m r k : Nat) : (m - (m &&& r)).testBit k = (m.testBit k && !r.testBit k) := by
  have le (m r : Nat) : m &&& r ≤ m := Nat.and_le_left
  have low (m r : Nat) : (m &&& r) % 2 = 1 ↔ m % 2 = 1 ∧ r % 2 = 1 := by
    simp
  induction k generalizing m r with
  | zero =>
    have leq := le m r
    have bit := low m r
    rw [Bool.eq_iff_iff]
    simp only [Nat.testBit_zero, Bool.and_eq_true, Bool.not_eq_true', decide_eq_true_eq, decide_eq_false_iff_not]
    omega
  | succ k ih =>
    have half : (m - (m &&& r)) / 2 = m / 2 - (m / 2 &&& r / 2) := by
      rw [← Nat.and_div_two]
      have leq := le m r
      have bit := low m r
      omega
    rw [Nat.testBit_succ, half, ih, Nat.testBit_succ, Nat.testBit_succ]

theorem sliceRetire_ignored {d n : Nat} (h : 2 ≤ d ∨ 64 ≤ n) (s : State) : exec (.l2SliceRetire d n) s = .next s := by
  show Host.Outcome.next _ = _
  rw [if_pos (by simpa using h)]

theorem sliceRetire_eq {d n : Nat} (hd : d < 2) (hn : n < 64) (s : State) : exec (.l2SliceRetire d n) s = .next (retireSlice s d n) := by
  show Host.Outcome.next _ = _
  rw [if_neg (by simp; omega)]

/-- A retired slice leaves the set of each partition (R346). -/
theorem retireSlice_part {d n p : Nat} (hd : d < 2) {s : State} {q : Partition} (h : s.parts[p]? = some q) :
    ∃ r, (retireSlice s d n).parts[p]? = some r ∧
      ∀ k, r.setup.l2mask0.testBit k = (q.setup.l2mask0.testBit k && !(d == 0 && k == n)) ∧
        r.setup.l2mask1.testBit k = (q.setup.l2mask1.testBit k && !(d == 1 && k == n)) := by
  have parts (r0 r1 : Nat) (f : ConfigImage → ConfigImage) (t : State) (ht : retireSlice s d n = writeConfig t f)
      (hp : t.parts = s.parts.map fun q => { q with setup := q.setup.without r0 r1, next := q.next.map fun u => u.without r0 r1 }) :
      (retireSlice s d n).parts[p]? = some { q with setup := q.setup.without r0 r1, next := q.next.map fun u => u.without r0 r1 } := by
    rw [ht]
    show t.parts[p]? = _
    rw [hp, List.getElem?_map, h]
    rfl
  have only (k : Nat) : (2 ^ n).testBit k = (k == n) := by
    rw [Nat.testBit_two_pow]
    exact decide_eq_decide.2 eq_comm
  obtain rfl | rfl : d = 0 ∨ d = 1 := by omega
  · refine ⟨_, parts (2 ^ n) 0 _ _ rfl rfl, fun k => ?_⟩
    simp only [Setup.without, testBit_sub_and, only]
    simp
  · refine ⟨_, parts 0 (2 ^ n) _ _ rfl rfl, fun k => ?_⟩
    simp only [Setup.without, testBit_sub_and, only]
    simp

/-- Settles O60: reset, bring-up, the errors that a scrub reports, and retirement, each event by what it leaves. -/
theorem resetAndRetirement : Obligations.ResetAndRetirement := by
  intro s c image step caddy goodFw goodCfg
  refine ⟨moduleReset_leaves s, fun r => ?bringup, fun d r h => scrub_far h s r, fun d k n hd hl => scrub_region hd s k n hl,
    fun d b hd h => scrub_block hd h, fun d core o hd _ => ?word, fun d n hd hn => ?soft, fun core h => coreRetire_ignored h,
    fun core hc hd => ⟨coreRetire_held hc hd, coreRetire_free hc hd⟩, fun d n h => sliceRetire_ignored h s, fun d n p q hd hn hq => ?slice⟩
  case bringup =>
    obtain ⟨-, -, -, atMemory, atLinks, -, atReady⟩ := bringup_steps s r
    exact ⟨fun h => bringup_ended h r, fun h => bringup_selfTest h r, bringup_stops, fun ok h => bringup_firmware h ok,
      fun ok h => bringup_config h ok, atMemory,
      fun h => ⟨_, atLinks h, rfl, bootLinks_state s r, congrArg Links.modid (bootLinks_links s r), bootLinks_caddy,
        fun n m => bootLinks_hinge s r, fun n l => bootLinks_ports s r⟩,
      fun ok h => ⟨_, bringup_map h ok, rfl, rfl, rfl, rfl, rfl, rfl, rfl, rfl, rfl, rfl⟩, fun h => ⟨_, atReady h, rfl, rfl, rfl⟩⟩
  case word =>
    obtain ⟨l, hl⟩ := scrubRegions_nil s d
    refine ⟨_, scrub_near hd s _, ?_⟩
    simp only [List.foldl_cons, List.foldl_nil, hl]
    exact noteWord_leaves { s with caddy := { s.caddy with lastScrub := l } } core o
  case soft =>
    obtain ⟨l, hl⟩ := scrubRegions_nil s d
    refine ⟨_, scrub_near hd s _, ?_⟩
    simp only [List.foldl_cons, List.foldl_nil, hl]
    exact noteSoft_leaves { s with caddy := { s.caddy with lastScrub := l } } hd hn
  case slice =>
    obtain ⟨r, hr, bits⟩ := retireSlice_part (n := n) hd hq
    exact ⟨_, r, sliceRetire_eq hd hn s, hr, retireSlice_bit s hd n, bits⟩

end Sys2Proof.Machine

/-!
Partitions: their commands, function-level resets, and how a command ends (R65, R84 to R89, R141).
-/
namespace Sys2Proof.Machine

/-! ## What writes of engines leave -/

/-- The record and ERR of each partition. -/
def State.records (s : State) : List (Setup × Nat) := s.parts.map fun q => (q.setup, q.err)

/-- What a write of an engine, with its translation, its messages and its fault record, leaves as it is: teams, grids, graphs, and of each
partition the record and ERR. -/
def State.jobs (s : State) : List Team × List Grid × List Graph × List (Setup × Nat) := (s.teams, s.grids, s.graphs, s.records)

theorem records_length {s t : State} (h : t.records = s.records) : t.parts.length = s.parts.length := by
  simpa [State.records] using congrArg List.length h

theorem records_part {s t : State} (h : t.records = s.records) (p : Nat) : (t.part p).setup = (s.part p).setup ∧ (t.part p).err = (s.part p).err := by
  have held (s : State) : s.records.getD p (Setup.none, 0) = ((s.part p).setup, (s.part p).err) := by
    simp only [State.records, State.part, List.getD_eq_getElem?_getD, List.getElem?_map]
    cases s.parts[p]? <;> rfl
  exact Prod.mk.inj ((held t).symm.trans ((congrArg (·.getD p (Setup.none, 0)) h).trans (held s)))

/-- A change of a partition that keeps its record and ERR. -/
theorem records_updPart (s : State) (p : Nat) {f : Partition → Partition} (hf : ∀ q, (f q).setup = q.setup ∧ (f q).err = q.err) :
    (s.updPart p f).records = s.records := by
  apply List.ext_getElem?
  intro k
  simp only [State.records, State.updPart, List.getElem?_map, List.getElem?_modify]
  cases s.parts[k]? with
  | none => rfl
  | some q =>
    simp only [Option.map_some]
    split
    · exact congrArg some (Prod.ext (hf q).1 (hf q).2)
    · rfl

theorem jobs_updPart {s t : State} (h : t.jobs = s.jobs) (p : Nat) {f : Partition → Partition}
    (hf : ∀ q, (f q).setup = q.setup ∧ (f q).err = q.err) : (t.updPart p f).jobs = s.jobs := by
  rw [← h]
  simp only [State.jobs, records_updPart t p hf, State.updPart_teams, State.updPart_grids, State.updPart_graphs]

theorem jobs_foldl {α : Type} {f : State → α → State} (h : ∀ s x, (f s x).jobs = s.jobs) (xs : List α) (s : State) :
    (xs.foldl f s).jobs = s.jobs := by
  induction xs generalizing s with
  | nil => rfl
  | cons x xs ih => exact (ih _).trans (h s x)

/-! ### Bytes and reports -/

theorem jobs_raisePf (s : State) (n : Nat) : (raisePf s n).jobs = s.jobs := (Reported.raisePf s n).field State.jobs

theorem jobs_send (s : State) (m : OutMsg) : (s.send m).jobs = s.jobs := rfl

theorem jobs_raisePart (s : State) (p n : Nat) : (raisePart s p n).jobs = s.jobs := by
  unfold raisePart
  simp only
  split
  · exact (jobs_send ..).trans (jobs_updPart rfl p fun _ => ⟨rfl, rfl⟩)
  · exact jobs_updPart rfl p fun _ => ⟨rfl, rfl⟩

theorem jobs_writeByte (s : State) (p : Place) (b : Byte) : (writeByte s p b).jobs = s.jobs := by
  cases p with
  | phys a =>
    simp only [writeByte]
    split <;> rfl
  | _ => rfl

theorem jobs_writeFrom (s : State) (p : Place) (bs : List Byte) : (writeFrom s p bs).jobs = s.jobs := by
  induction bs generalizing s p with
  | nil => rfl
  | cons b bs ih => exact (ih _ _).trans (jobs_writeByte s p b)

theorem jobs_performWrite (s : State) (p : Place) (bs : List Byte) : (performWrite s p bs).jobs = s.jobs := jobs_writeFrom s p bs

theorem jobs_writePhys (s : State) (a : Nat) (bs : List Byte) : (writePhys s a bs).jobs = s.jobs := by
  unfold writePhys
  simp only
  split <;> exact jobs_performWrite s _ bs

theorem jobs_putReport (s : State) (p : Nat) (bs : List Byte) : (putReport s p bs).jobs = s.jobs := by
  unfold putReport
  simp only
  split
  · rfl
  · split
    · exact jobs_updPart rfl p fun _ => ⟨rfl, rfl⟩
    · exact jobs_updPart (jobs_writePhys s _ bs) p fun _ => ⟨rfl, rfl⟩

theorem jobs_noteLine (s : State) (gr : Grid) (team line : Nat) : (noteLine s gr team line).jobs = s.jobs := by
  unfold noteLine
  split
  · rfl
  · split
    · rfl
    · simp only
      split
      · exact jobs_putReport ..
      · rfl

theorem jobs_noteWrite (s : State) (core slot : Nat) (p : Place) (n : Nat) : (noteWrite s core slot p n).jobs = s.jobs := by
  unfold noteWrite
  split
  · exact jobs_foldl (fun s k => jobs_noteLine s _ _ _) _ s
  · rfl

theorem jobs_performFor (s : State) (core slot : Nat) (p : Place) (bs : List Byte) : (performFor s core slot p bs).jobs = s.jobs :=
  (jobs_noteWrite ..).trans (jobs_performWrite s p bs)

/-! ### Messages -/

theorem jobs_charge (s : State) (p cls n : Nat) : (charge s p cls n).jobs = s.jobs := by
  unfold charge
  simp only
  split
  · rfl
  · exact jobs_updPart rfl p fun _ => ⟨rfl, rfl⟩

theorem jobs_sendHinge (s : State) (f : Flight) (d : Nat) (b : Bool) (n : Nat) : (sendHinge s f d b n).1.jobs = s.jobs := jobs_charge ..

theorem jobs_sendHinge_ite (s : State) (f : Flight) (d : Nat) (b : Bool) (n : Nat) (c : Prop) [Decidable c] :
    (if c then sendHinge s f d b n else (s, f)).1.jobs = s.jobs := by
  split
  · exact jobs_sendHinge ..
  · rfl

theorem jobs_sendOutside (s : State) (f : Flight) (k : DomainKind) (a n d : Nat) : (sendOutside s f k a n d).jobs = s.jobs := jobs_charge ..

theorem jobs_performPart (s : State) (f : Flight) (p : Place) (bs : List Byte) : (performPart s f p bs).jobs = s.jobs := by
  unfold performPart
  simp only
  split
  · split <;> exact jobs_performFor ..
  · exact jobs_performFor ..

theorem jobs_performParts (s : State) (f : Flight) (sel : Place → Bool) : (performParts s f sel).1.jobs = s.jobs := by
  refine jobs_foldl (fun s x => ?_) (splitData f.reads f.data) s
  split
  · exact jobs_performPart ..
  · rfl

theorem jobs_sendWrites (s : State) (f : Flight) : (sendWrites s f).jobs = s.jobs := by
  refine jobs_foldl (fun s x => ?_) _ s
  split
  · exact jobs_sendOutside ..
  · rfl

theorem jobs_sendWrite (s : State) (f : Flight) (stamped : Bool) : (sendWrite s f stamped).jobs = s.jobs := by
  unfold sendWrite
  simp only
  generalize hd : performParts s _ _ = done
  generalize hm : @ite (State × Flight) (_ = Stage.request) _ _ _ = sent
  have performed : done.1.jobs = s.jobs := hd ▸ jobs_performParts ..
  have sends : sent.1.jobs = s.jobs := hm ▸ (jobs_sendHinge_ite ..).trans performed
  split
  · exact sends
  · exact (jobs_sendWrites ..).trans sends

theorem jobs_writeAway (f : Flight) (n : Nat) (s : State) (a : Nat) (p : Place) (bs : List Byte) : (writeAway s f n a p bs).jobs = s.jobs := by
  induction n generalizing s a p bs with
  | zero => rfl
  | succ n ih =>
    unfold writeAway
    simp only
    split
    · exact jobs_sendWrite ..
    · exact (ih ..).trans (jobs_sendWrite ..)

theorem jobs_unitWrite (s : State) (k : UnitWrite) (a : Nat) (p : Place) (bs : List Byte) : (unitWrite s k a p bs).jobs = s.jobs := by
  unfold unitWrite
  split
  · exact jobs_performFor ..
  · exact jobs_writeAway ..

theorem jobs_writeSpan (k : UnitWrite) (ps : List (Place × Nat)) (s : State) (a : Nat) (bs : List Byte) : (writeSpan s k a ps bs).jobs = s.jobs := by
  induction ps generalizing s a bs with
  | nil => rfl
  | cons p ps ih => exact (ih ..).trans (jobs_unitWrite ..)

/-! ### Translation -/

theorem jobs_putResidency (s : State) (p : Nat) (bs : List Byte) : (putResidency s p bs).jobs = s.jobs := by
  unfold putResidency
  simp only
  split
  · rfl
  · split
    · exact jobs_updPart rfl p fun _ => ⟨rfl, rfl⟩
    · have written : ((writePhys s ((s.part p).rf.area.base + 32 * (s.part p).rf.tail) bs).updPart p fun q =>
          { q with rf := { q.rf with tail := ((s.part p).rf.tail + 1) % (s.part p).rf.area.records } }).jobs = s.jobs :=
        jobs_updPart (jobs_writePhys s _ bs) p fun _ => ⟨rfl, rfl⟩
      split
      · exact (jobs_raisePf ..).trans written
      · exact written

theorem jobs_noteResidency (s : State) (p die va kind acc lv core e : Nat) : (noteResidency s p die va kind acc lv core e).jobs = s.jobs := by
  unfold noteResidency
  split
  · rfl
  · split
    · rfl
    · exact jobs_putResidency ..

theorem jobs_addTlb (s : State) (t : TlbEntry) : (addTlb s t).jobs = s.jobs := rfl

theorem jobs_ite {c : Prop} [Decidable c] {s t : State} (h : t.jobs = s.jobs) : (if c then t else s).jobs = s.jobs := by
  split
  · exact h
  · rfl

theorem jobs_translateVa (s : State) (w : Who) (acc : Acc) (va : Nat) : (translateVa s w acc va).1.jobs = s.jobs := by
  unfold translateVa
  simp only
  split
  · rfl
  · split
    · exact jobs_ite (jobs_addTlb ..)
    · split
      · exact jobs_ite (jobs_noteResidency ..)
      · exact (jobs_ite (jobs_addTlb ..)).trans ((jobs_addTlb ..).trans (jobs_ite (jobs_noteResidency ..)))

theorem jobs_translate (s : State) (w : Who) (acc : Acc) (a : Nat) : (translate s w acc a).1.jobs = s.jobs := by
  unfold translate
  split
  · rfl
  · split
    · simp only
      split <;> rfl
    · split
      · rfl
      · exact jobs_translateVa ..

theorem jobs_unitPlaces (w : Who) (acc : Acc) (n : Nat) (s : State) (a len : Nat) : (unitPlaces n s w acc a len).1.jobs = s.jobs := by
  induction n generalizing s a len with
  | zero => rfl
  | succ n ih =>
    unfold unitPlaces
    split
    · rfl
    · simp only
      have here := jobs_translate s w acc a
      split
      next h => rwa [h] at here
      next s₁ p h =>
        rw [h] at here
        have rest := (ih s₁ (a + min len (65536 - a % 65536)) (len - min len (65536 - a % 65536))).trans here
        split
        next h₂ => rwa [h₂] at rest
        next => exact rest

theorem jobs_spanPlaces (s : State) (w : Who) (acc : Acc) (a n : Nat) : (spanPlaces s w acc a n).1.jobs = s.jobs := jobs_unitPlaces ..

/-! ### Faults -/

theorem jobs_newToken (s : State) (p : Nat) : (newToken s p).2.jobs = s.jobs := by
  unfold newToken
  simp only
  split
  · rfl
  · exact jobs_updPart rfl p fun _ => ⟨rfl, rfl⟩

theorem jobs_putFault (s : State) (p : Nat) (r : FaultRec) : (putFault s p r).jobs = s.jobs := by
  unfold putFault
  simp only
  split
  · exact (jobs_raisePart ..).trans (jobs_updPart rfl p fun _ => ⟨rfl, rfl⟩)
  · have written (a t : Nat) : ((writePhys s a (r.bytes s.time.now)).updPart p fun q => { q with fbTail := t }).jobs = s.jobs :=
      jobs_updPart (jobs_writePhys ..) p fun _ => ⟨rfl, rfl⟩
    split
    · exact (jobs_raisePart ..).trans (written _ _)
    · exact written _ _

theorem jobs_pauseUnit (s : State) (p : Nat) (r : FaultRec) : (pauseUnit s p r).1.jobs = s.jobs := (jobs_putFault ..).trans (jobs_newToken s p)

theorem jobs_updChain (s : State) (id : Nat) (f : Chain → Chain) : (s.updChain id f).jobs = s.jobs := rfl

theorem jobs_pauseChain (s : State) (ch : Chain) (cause lv a acc : Nat) : (pauseChain s ch cause lv a acc).jobs = s.jobs := jobs_pauseUnit ..

/-- A write of a descriptor, or its fault, leaves the jobs (R117, R119). -/
theorem jobs_writeDesc (s : State) (ch : Chain) (off : Nat) (bs : List Byte) : (writeDesc s ch off bs).jobs = s.jobs := by
  unfold writeDesc
  simp only
  split
  · rfl
  · split
    · rfl
    · have places := jobs_spanPlaces s ch.who .write (ch.desc + off) bs.length
      split
      next h => rw [h] at places; exact (jobs_writeSpan ..).trans places
      next h => rw [h] at places; exact (jobs_pauseChain ..).trans places

/-! ## Discarding the work of a partition -/

/-- The teams of a partition, by their names. -/
def partTeams (s : State) (p : Nat) : List Nat := (s.teams.filter fun t => t.part == p).map Team.id

/-- The jobs of the other partitions, and every partition's record and ERR. -/
def State.jobsWithout (s : State) (p : Nat) : List Team × List Grid × List Graph × List (Setup × Nat) :=
  (s.teams.filter fun t => !(partTeams s p).contains t.id, s.grids.filter fun g => g.part != p, s.graphs.filter fun g => g.part != p, s.records)

theorem settled_record (held : Nat → Bool) (now : Nat) (q : Partition) :
    (q.settled held now).setup = q.setup ∧ (q.settled held now).err = q.err := by
  unfold Partition.settled
  split <;> exact ⟨rfl, rfl⟩

theorem records_settleVacated (s : State) : (settleVacated s).records = s.records := by
  simp only [State.records, settleVacated, List.map_map]
  exact List.map_congr_left fun q _ => Prod.ext (settled_record ..).1 (settled_record ..).2

theorem jobs_noteVacant (s : State) (core : Nat) : (noteVacant s core).jobs = s.jobs := rfl

/-- Teams are discarded, and other jobs and the partitions' records stay (R336). -/
theorem jobs_discardTeams (s : State) (ids : List Nat) :
    (discardTeams s ids).jobs = (s.teams.filter fun t => !ids.contains t.id, s.grids, s.graphs, s.records) := by
  have vacant : ((s.groups.filter fun g => ids.contains g.team).map Group.core |>.foldl noteVacant
      (orphanAccesses s (s.groups.filter fun g => ids.contains g.team))).jobs = s.jobs := jobs_foldl jobs_noteVacant _ _
  simp only [State.jobs, Prod.mk.injEq] at vacant
  obtain ⟨teams, grids, graphs, records⟩ := vacant
  unfold discardTeams State.jobs
  rw [records_settleVacated]
  exact Prod.ext (congrArg (List.filter _) teams) (Prod.ext grids (Prod.ext graphs records))

/-- A state without a partition's teams, grids and graphs (R89). -/
def withoutJobs (s : State) (p : Nat) : State :=
  let t := discardTeams s (partTeams s p)
  { t with
    lines := t.lines.filter fun l => !(t.grids.any fun (g : Grid) => g.part == p && g.id == l.grid)
    grids := t.grids.filter fun g => g.part != p
    graphs := t.graphs.filter fun g => g.part != p }

/-- A state without a partition's engine commands (R89). -/
def withoutCmds (s : State) (p : Nat) : State := ((s.eng.cmds.filter fun c => c.part == p).map EngCmd.id).foldl dropCmd s

/-- A state without a partition's units' work, accesses and TLB entries (R89). -/
def withoutAccesses (s : State) (p : Nat) : State := dropTlb (dropAccesses (dropPartUnits s p) p) p

/-- A state whose stores that a partition owns are cleared (R89). -/
def withoutStores (s : State) (p : Nat) : State :=
  clearUnits (clearUnits (clearCores s (ownsCore (s.part p).setup)) 0 (s.part p).chip0) 1 (s.part p).chip1

/-- A state without a partition's work, its stores not yet cleared (R89). -/
def withoutWork (s : State) (p : Nat) : State := withoutAccesses (withoutCmds (haltChains (withoutJobs s p) p) p) p

/-- The actions of R89, one after the other. -/
theorem purge_eq (s : State) (p : Nat) : purge s p = (withoutStores (withoutWork s p) p).updPart p Partition.emptied := rfl

theorem jobs_withoutJobs (s : State) (p : Nat) : (withoutJobs s p).jobs = s.jobsWithout p := by
  have discarded := jobs_discardTeams s (partTeams s p)
  simp only [State.jobs, Prod.mk.injEq] at discarded
  obtain ⟨teams, grids, graphs, records⟩ := discarded
  exact Prod.ext teams (Prod.ext (congrArg (List.filter _) grids) (Prod.ext (congrArg (List.filter _) graphs) records))

theorem jobs_haltChains (s : State) (p : Nat) : (haltChains s p).jobs = s.jobs := by
  refine jobs_foldl (fun s c => ?_) (s.eng.chains.filter fun c => c.part == p) s
  split
  · exact jobs_writeDesc ..
  · rfl

theorem jobs_dropCmd (s : State) (id : Nat) : (dropCmd s id).jobs = s.jobs := rfl

theorem jobs_withoutCmds (s : State) (p : Nat) : (withoutCmds s p).jobs = s.jobs := jobs_foldl jobs_dropCmd _ s

theorem jobs_withoutAccesses (s : State) (p : Nat) : (withoutAccesses s p).jobs = s.jobs := rfl

/-- Of the jobs those of other partitions stay, and every partition keeps its record and ERR (R89). -/
theorem jobs_withoutWork (s : State) (p : Nat) : (withoutWork s p).jobs = s.jobsWithout p := by
  rw [withoutWork, jobs_withoutAccesses, jobs_withoutCmds, jobs_haltChains, jobs_withoutJobs]

theorem withoutStores_parts (s : State) (p : Nat) : (withoutStores s p).parts = s.parts := rfl

theorem jobs_withoutStores (s : State) (p : Nat) : (withoutStores s p).jobs = s.jobs := rfl

theorem jobs_purge (s : State) (p : Nat) : (purge s p).jobs = (withoutWork s p).jobs :=
  jobs_updPart (jobs_withoutStores ..) p fun _ => ⟨rfl, rfl⟩

theorem records_withoutWork (s : State) (p : Nat) : (withoutWork s p).records = s.records := congrArg (fun j => j.2.2.2) (jobs_withoutWork s p)

theorem records_purge (s : State) (p : Nat) : (purge s p).records = s.records :=
  (congrArg (fun j => j.2.2.2) (jobs_purge s p)).trans (records_withoutWork s p)

theorem mem_teams_purge {s : State} {p : Nat} {x : Team} (h : x ∈ (purge s p).teams) : x ∈ s.teams ∧ x.part ≠ p := by
  have teams : (purge s p).teams = s.teams.filter fun t => !(partTeams s p).contains t.id :=
    congrArg Prod.fst ((jobs_purge s p).trans (jobs_withoutWork s p))
  rw [teams, List.mem_filter] at h
  obtain ⟨hx, kept⟩ := h
  refine ⟨hx, fun hp => ?_⟩
  simp only [partTeams, Bool.not_eq_true', List.contains_eq_mem, decide_eq_false_iff_not] at kept
  exact kept (List.mem_map_of_mem (List.mem_filter.2 ⟨hx, by simpa using hp⟩))

theorem foldl_dropCmd_eng (ids : List Nat) (s : State) : (ids.foldl dropCmd s).eng =
    { s.eng with cmds := s.eng.cmds.filter fun c => !ids.contains c.id } := by
  induction ids generalizing s with
  | nil => simp
  | cons id ids ih =>
    rw [List.foldl_cons, ih]
    simp only [dropCmd, List.filter_filter]
    congr 2
    funext c
    rw [List.contains_cons, Bool.not_or, Bool.and_comm]
    rfl

theorem withoutCmds_chains (s : State) (p : Nat) : (withoutCmds s p).eng.chains = s.eng.chains := by
  unfold withoutCmds
  rw [foldl_dropCmd_eng]

theorem withoutCmds_cmds {s : State} {p : Nat} {c : EngCmd} (h : c ∈ (withoutCmds s p).eng.cmds) : c.part ≠ p := by
  unfold withoutCmds at h
  rw [foldl_dropCmd_eng] at h
  obtain ⟨hc, kept⟩ := List.mem_filter.1 h
  simp only [Bool.not_eq_true', List.contains_eq_mem, decide_eq_false_iff_not] at kept
  exact fun hp => kept (List.mem_map_of_mem (List.mem_filter.2 ⟨hc, by simpa using hp⟩))

/-- No work of a partition is left, its stores are clear and its streams disabled (R89). -/
structure WorkGone (t : State) (p : Nat) (u : Setup) : Prop where
  teams : ∀ x ∈ t.teams, x.part ≠ p
  grids : ∀ x ∈ t.grids, x.part ≠ p
  graphs : ∀ x ∈ t.graphs, x.part ≠ p
  chains : ∀ x ∈ t.eng.chains, x.part ≠ p
  cmds : ∀ x ∈ t.eng.cmds, x.part ≠ p
  flights : ∀ x ∈ t.ms.flights, x.part ≠ p
  sb : ∀ x ∈ t.ms.sb, x.part ≠ p
  tlb : ∀ x ∈ t.ms.tlb, x.part ≠ p
  streams : ∀ x ∈ (t.part p).streams, x.en = false ∧ x.state = .disabled
  stores : ∀ c o, ownsCore u c = true → o < 1048576 → readByte t (.sp c o) = 0

theorem part_ne_of_filter {α : Type} {part : α → Nat} {p : Nat} {l : List α} :
    ∀ x ∈ l.filter fun x => part x != p, part x ≠ p := fun x h => by
  simpa using (List.mem_filter.1 h).2

/-- A byte of which nothing is listed reads as such. -/
theorem Mem.read_unlisted {m : Mem} {a : Nat} (h : ∀ c ∈ m, c.1 ≠ a) : m.read a = unlistedByte := by
  induction m with
  | nil => rfl
  | cons c m ih =>
    obtain ⟨b, v⟩ := c
    simp only [Mem.read]
    split
    · rfl
    · rw [if_neg fun e => h _ (.head _) e.symm, ih fun c hc => h c (.tail _ hc)]

/-- The scratchpad of a core that is cleared reads as 0. -/
theorem readByte_clearCores (s : State) {own : Nat → Bool} {c o : Nat} (hc : own c = true) (ho : o < 1048576) :
    readByte (clearCores s own) (.sp c o) = 0 := by
  refine Mem.read_unlisted fun x hx e => ?_
  have at_ : x.1 / 1048576 = c := by
    rw [e, scratchAt]
    omega
  simpa [at_, hc] using (List.mem_filter.1 hx).2

/-- The scratchpads of a partition's cores are clear (R89). -/
theorem readByte_withoutStores (s : State) {p c o : Nat} (hc : ownsCore (s.part p).setup c = true) (ho : o < 1048576) :
    readByte ((withoutStores s p).updPart p Partition.emptied) (.sp c o) = 0 := readByte_clearCores s hc ho

theorem withoutStores_eng (s : State) (p : Nat) : (withoutStores s p).eng = s.eng := rfl
theorem withoutStores_ms (s : State) (p : Nat) : (withoutStores s p).ms = s.ms := rfl
theorem withoutAccesses_chains (s : State) (p : Nat) : (withoutAccesses s p).eng.chains = s.eng.chains := rfl
theorem withoutAccesses_cmds (s : State) (p : Nat) : (withoutAccesses s p).eng.cmds = s.eng.cmds := rfl

theorem withoutAccesses_flights (s : State) (p : Nat) : (withoutAccesses s p).ms.flights = s.ms.flights.filter fun f => f.part != p := rfl
theorem withoutAccesses_sb (s : State) (p : Nat) : (withoutAccesses s p).ms.sb = s.ms.sb.filter fun e => e.part != p := rfl
theorem withoutAccesses_tlb (s : State) (p : Nat) : (withoutAccesses s p).ms.tlb = s.ms.tlb.filter fun t => t.part != p := rfl

theorem haltChains_chains (s : State) (p : Nat) : ∃ l : List Chain, (haltChains s p).eng.chains = l.filter fun c => c.part != p := ⟨_, rfl⟩

theorem purge_eng (s : State) (p : Nat) : (purge s p).eng = (withoutWork s p).eng := by rw [purge_eq, State.updPart_eng, withoutStores_eng]
theorem purge_ms (s : State) (p : Nat) : (purge s p).ms = (withoutWork s p).ms := by rw [purge_eq, State.updPart_ms, withoutStores_ms]

/-- A partition after its work is discarded (R89). -/
theorem part_purge {s : State} {p : Nat} (hp : p < s.parts.length) : (purge s p).part p = ((withoutWork s p).part p).emptied := by
  have kept : (withoutStores (withoutWork s p) p).parts.length = s.parts.length := by
    rw [withoutStores_parts, records_length (records_withoutWork s p)]
  rw [purge_eq, State.part_updPart_same _ (kept ▸ hp), State.part, withoutStores_parts, State.part]

theorem workGone_purge {s : State} {p : Nat} (hp : p < s.parts.length) : WorkGone (purge s p) p (s.part p).setup where
  teams _ h := (mem_teams_purge h).2
  grids := by
    rw [show (purge s p).grids = _ from congrArg (fun j => j.2.1) ((jobs_purge s p).trans (jobs_withoutWork s p))]
    exact part_ne_of_filter
  graphs := by
    rw [show (purge s p).graphs = _ from congrArg (fun j => j.2.2.1) ((jobs_purge s p).trans (jobs_withoutWork s p))]
    exact part_ne_of_filter
  chains := by
    obtain ⟨l, halted⟩ := haltChains_chains (withoutJobs s p) p
    rw [purge_eng, withoutWork, withoutAccesses_chains, withoutCmds_chains, halted]
    exact part_ne_of_filter
  cmds := by
    rw [purge_eng, withoutWork, withoutAccesses_cmds]
    exact fun _ => withoutCmds_cmds
  flights := by
    rw [purge_ms, withoutWork, withoutAccesses_flights]
    exact part_ne_of_filter
  sb := by
    rw [purge_ms, withoutWork, withoutAccesses_sb]
    exact part_ne_of_filter
  tlb := by
    rw [purge_ms, withoutWork, withoutAccesses_tlb]
    exact part_ne_of_filter
  streams := by
    rw [part_purge hp]
    exact List.forall_mem_map.2 fun _ _ => ⟨rfl, rfl⟩
  stores c o hc ho := by
    rw [← (records_part (records_withoutWork s p) p).1] at hc
    rw [purge_eq]
    exact readByte_withoutStores (withoutWork s p) hc ho

/-! ## Commands -/

theorem command_waits {s : State} (h : s.caddy.ready = false) (f : State → State) : command s f = s := by
  rw [command, if_neg (by simp [h])]

theorem command_ready {s : State} (h : s.caddy.ready = true) (f : State → State) : command s f = f s := by
  rw [command, if_pos h]

section by_state
variable {s : State} {p : Nat}

theorem createPartition_taken (h : (s.part p).state = .active) : createPartition p s = setErr s p 2 := by
  simp only [createPartition, h, pErrState]

theorem createPartition_refused {e : Nat} (h : (s.part p).state = .free) (he : checkSetup s p false = .error e) :
    createPartition p s = setErr s p e := by
  simp only [createPartition, h, he]

theorem createPartition_claims {u : Setup} (h : (s.part p).state = .free) (hu : checkSetup s p false = .ok u) :
    createPartition p s = claim s p u := by
  simp only [createPartition, h, hu]

theorem resizePartition_free (h : (s.part p).state = .free) : resizePartition p s = setErr s p 2 := by
  simp only [resizePartition, h, pErrState]

theorem resizePartition_refused {e : Nat} (h : (s.part p).state = .active) (he : checkSetup s p true = .error e) :
    resizePartition p s = setErr s p e := by
  simp only [resizePartition, h, he]

theorem resizePartition_begins {u : Setup} (h : (s.part p).state = .active) (hu : checkSetup s p true = .ok u) :
    resizePartition p s = requestCuts (s.updPart p fun q => { q with state := .busy, err := 0, next := some u }) p := by
  simp only [resizePartition, h, hu]

theorem resetPartition_free (b : Bool) (h : (s.part p).state = .free) : resetPartition p b s = setErr s p 2 := by
  simp only [resetPartition, h, pErrState]

theorem resetPartition_active (b : Bool) (h : (s.part p).state = .active) : resetPartition p b s = beginReset (setErr s p 0) p false b := by
  simp only [resetPartition, h]

theorem destroyPartition_active (b : Bool) (h : (s.part p).state = .active) : destroyPartition p b s = beginReset (setErr s p 0) p true b := by
  simp only [destroyPartition, h]

theorem badCommand_refused (h : (s.part p).state = .free ∨ (s.part p).state = .active) : badCommand p s = setErr s p 3 := by
  rcases h with h | h <;> simp only [badCommand, h, pErrFormat]

/-- DESTROY of a FREE partition sets DONE (R87). -/
theorem destroyPartition_free (b : Bool) (h : (s.part p).state = .free) :
    destroyPartition p b s = s.updPart p fun q => { q with err := 0, done := true } := by
  simp only [destroyPartition, h, setErr, State.updPart, List.modify_modify_eq]
  rfl

/-- A partition that is BUSY or RESETTING turns a command away (R87). -/
theorem commands_busy {i : Instr} {b : Bool}
    (hi : i ∈ [Instr.partitionCreate p, .partitionResize p, .partitionReset p b, .partitionDestroy p b, .partitionCmdBadOp p]) :
    ∃ f : State → State, (∀ s, exec i s = .next (command s f)) ∧
      ∀ s : State, ((s.part p).state = .busy ∨ (s.part p).state = .resetting) → f s = setErr s p 1 := by
  simp only [List.mem_cons, List.not_mem_nil, or_false] at hi
  obtain rfl | rfl | rfl | rfl | rfl := hi
  · exact ⟨createPartition p, fun _ => rfl, fun s h => by rcases h with h | h <;> simp only [createPartition, h, pErrBusy]⟩
  · exact ⟨resizePartition p, fun _ => rfl, fun s h => by rcases h with h | h <;> simp only [resizePartition, h, pErrBusy]⟩
  · exact ⟨resetPartition p b, fun _ => rfl, fun s h => by rcases h with h | h <;> simp only [resetPartition, h, pErrBusy]⟩
  · exact ⟨destroyPartition p b, fun _ => rfl, fun s h => by rcases h with h | h <;> simp only [destroyPartition, h, pErrBusy]⟩
  · exact ⟨badCommand p, fun _ => rfl, fun s h => by rcases h with h | h <;> simp only [badCommand, h, pErrBusy]⟩

end by_state

/-! ### The checks of a record -/

/-- A record that cannot be read fails first (R86). -/
theorem checkSetup_unread {s : State} (h : readSetup s = none) (p : Nat) (r : Bool) : checkSetup s p r = .error 9 := by
  unfold checkSetup
  simp only [h]
  rfl

/-- An ill-formed record fails next (R86). -/
theorem checkSetup_illFormed {s : State} {b : List Byte} (h : readSetup s = some b) {p : Nat} (hf : setupFormat p b = false) (r : Bool) :
    checkSetup s p r = .error 3 := by
  unfold checkSetup
  simp only [h, hf]
  rfl

/-! ### Claiming -/

/-- CREATE claims for its partition alone (R87). -/
theorem claim_part (s : State) (p : Nat) (u : Setup) (k : Nat) : (claim s p u).part k =
    (s.updPart p fun q => q.claimed u (unitsFor s p 0 u.chsp0 []) (unitsFor s p 1 u.chsp1 []) s.time.now).part k := rfl

/-- What CREATE leaves (R87): a BUSY partition under its record, its streams disabled, and its scratchpads clear. -/
theorem claim_leaves {s : State} {p : Nat} (hp : p < s.parts.length) (u : Setup) : let t := claim s p u
    (∀ k, k ≠ p → t.part k = s.part k) ∧ t.mem = s.mem ∧ (t.part p).state = .busy ∧ (t.part p).setup = u ∧ (t.part p).err = 0 ∧
      (t.part p).next = none ∧ (t.part p).streams.length = u.nstream ∧
      (∀ x ∈ (t.part p).streams, x.en = false ∧ x.state = .disabled ∧ x.head = 0 ∧ x.tail = 0) ∧ (∀ x ∈ t.ms.tlb, x.part ≠ p) ∧
      ∀ c o, ownsCore u c = true → o < 1048576 → readByte t (.sp c o) = 0 := by
  intro t
  have mine : t.part p = (s.part p).claimed u (unitsFor s p 0 u.chsp0 []) (unitsFor s p 1 u.chsp1 []) s.time.now :=
    (claim_part s p u p).trans (State.part_updPart_same s hp _)
  rw [mine]
  refine ⟨fun k hk => ?_, rfl, rfl, rfl, rfl, rfl, ?_, List.forall_mem_map.2 fun _ _ => ⟨rfl, rfl, rfl, rfl⟩, part_ne_of_filter,
    fun c o hc ho => readByte_clearCores s hc ho⟩
  · rw [claim_part, part_updPart, if_neg fun h => hk h.1.symm]
  · simp [Partition.claimed]

/-! ### Resets -/

/-- A change of a partition that keeps its streams brings no work back. -/
theorem WorkGone.updPart {t : State} {p : Nat} {u : Setup} (h : WorkGone t p u) {f : Partition → Partition}
    (hf : ∀ q, (f q).streams = q.streams) : WorkGone (t.updPart p f) p u where
  teams := h.teams
  grids := h.grids
  graphs := h.graphs
  chains := h.chains
  cmds := h.cmds
  flights := h.flights
  sb := h.sb
  tlb := h.tlb
  streams := by
    rw [part_updPart]
    split
    · rw [hf]
      exact h.streams
    · exact h.streams
  stores := h.stores

/-- A reset that begins discards the partition's work, and keeps its record and ERR (R87, R89). -/
theorem beginReset_leaves {s : State} {p : Nat} (hp : p < s.parts.length) (d b : Bool) : let t := beginReset s p d b
    WorkGone t p (s.part p).setup ∧ (t.part p).state = .resetting ∧ (t.part p).destroying = d ∧ (t.part p).scrub = b ∧
      (t.part p).setup = (s.part p).setup ∧ (t.part p).err = (s.part p).err := by
  intro t
  have records := records_purge s p
  obtain ⟨setup, err⟩ := records_part records p
  have mine : t.part p = { (purge s p).part p with state := .resetting, destroying := d, scrub := b } :=
    State.part_updPart_same _ ((records_length records).symm ▸ hp) _
  rw [mine]
  exact ⟨(workGone_purge hp).updPart fun _ => rfl, rfl, rfl, rfl, setup, err⟩

/-- A function-level reset of the physical function leaves no team of a partition (R87). -/
theorem mem_teams_purges {ps : List Nat} {s : State} {x : Team} (h : x ∈ (ps.foldl purge s).teams) : x ∈ s.teams ∧ x.part ∉ ps := by
  induction ps generalizing s with
  | nil => exact ⟨h, nofun⟩
  | cons p ps ih =>
    obtain ⟨hx, others⟩ := ih h
    obtain ⟨hs, hp⟩ := mem_teams_purge hx
    exact ⟨hs, by simp [hp, others]⟩

theorem execPartitionFlr_busy {s : State} {p : Nat} (h : (s.part p).state = .busy) :
    exec (.partitionFlr p) s = .next (s.updPart p fun q => { q with flrpend := true }) := by
  show Host.Outcome.next _ = _
  simp only [h]

theorem execPartitionFlr_active {s : State} {p : Nat} (h : (s.part p).state = .active) :
    exec (.partitionFlr p) s = .next (beginReset s p false false) := by
  show Host.Outcome.next _ = _
  simp only [h]

/-- `PF_FLR` frees every partition, and no team of one is left (R87). -/
theorem execPfFlr_frees (s : State) : ∃ t, exec .pfFlr s = .next t ∧ (∀ x ∈ t.parts, x.state = .free ∧ x.setup = .none ∧ x.streams = []) ∧
    ∀ x ∈ t.teams, x.part ∉ List.range 16 := by
  show ∃ t, execPfFlr s = .next t ∧ _
  rw [execPfFlr]
  have left : ∀ x ∈ ((List.range 16).foldl purge s).teams, x.part ∉ List.range 16 := fun x hx => (mem_teams_purges hx).2
  generalize (List.range 16).foldl purge s = t at left
  exact ⟨_, rfl, List.forall_mem_map.2 fun _ _ => ⟨rfl, rfl, rfl⟩, left⟩

/-- The commands of partitions by their checks (R65, R84 to R89). -/
theorem partitionCommandChecks : Rule.PartitionCommandChecks := by
  intro s p hp q errs others commands
  have refused {i : Instr} {f : State → State} (hr : s.caddy.ready = true) (hi : exec i s = .next (command s f)) {e : Nat}
      (h : f s = setErr s p e) : errs i e := by
    rw [command_ready hr, h] at hi
    exact hi
  have taken {i : Instr} {f : State → State} (hr : s.caddy.ready = true) (hi : exec i s = .next (command s f)) {t : State} (h : f s = t) :
      exec i s = .next t := by rw [hi, command_ready hr, h]
  refine ⟨?waits, fun hr => ⟨?busy, ?active, ?free, ?createErr, ?resizeErr, fun r h => checkSetup_unread h p r,
    fun r b h hf => checkSetup_illFormed h hf r, ?create, ?resize, ?reset⟩, execPartitionFlr_busy, ?flr, ?pfFlr⟩
  case waits =>
    intro hr b i hi
    obtain ⟨f, e, -⟩ := commands_busy hi
    rw [e, command_waits hr]
  case busy =>
    intro h b i hi
    obtain ⟨f, e, busy⟩ := commands_busy hi
    exact refused hr (e s) (busy s h)
  case active => exact fun h => ⟨refused hr rfl (createPartition_taken h), refused hr rfl (badCommand_refused (.inr h))⟩
  case free =>
    exact fun h => ⟨refused hr rfl (resizePartition_free h), fun b => refused hr rfl (resetPartition_free b h),
      refused hr rfl (badCommand_refused (.inl h)), fun b => taken hr rfl (destroyPartition_free b h)⟩
  case createErr => exact fun e he h => refused hr rfl (createPartition_refused h he)
  case resizeErr => exact fun e he h => refused hr rfl (resizePartition_refused h he)
  case create =>
    intro u hu h
    exact ⟨_, taken hr rfl (createPartition_claims h hu), claim_leaves hp u⟩
  case resize =>
    intro u hu h
    have only := TeamsOnly.requestCuts (s.updPart p fun q => { q with state := .busy, err := 0, next := some u }) p
    refine ⟨_, taken hr rfl (resizePartition_begins h hu), fun k hk => ?_, only.field State.mem rfl,
      (only.field (State.part · p) rfl).trans (s.part_updPart_same hp _)⟩
    exact (only.field (State.part · k) rfl).trans (by rw [part_updPart, if_neg fun h => hk h.1.symm])
  case reset =>
    intro b d i hi h
    have begins : exec i s = .next (beginReset (setErr s p 0) p d b) := by
      simp only [List.mem_cons, List.not_mem_nil, or_false, Prod.mk.injEq] at hi
      obtain ⟨rfl, rfl⟩ | ⟨rfl, rfl⟩ := hi
      · exact taken hr rfl (resetPartition_active b h)
      · exact taken hr rfl (destroyPartition_active b h)
    have cleared : (setErr s p 0).part p = { s.part p with err := 0 } := s.part_updPart_same hp _
    have length : p < (setErr s p 0).parts.length := by simpa [setErr, State.updPart] using hp
    obtain ⟨gone, resetting, destroying, scrub, setup, err⟩ := beginReset_leaves length d b
    rw [cleared] at gone setup err
    exact ⟨_, begins, resetting, destroying, scrub, err, setup, gone.teams, gone.grids, gone.graphs, gone.chains, gone.cmds, gone.flights, gone.sb,
      gone.tlb, gone.streams, gone.stores⟩
  case flr =>
    intro h
    obtain ⟨gone, resetting, -, scrub, -⟩ := beginReset_leaves hp false false
    exact ⟨_, execPartitionFlr_active h, resetting, scrub, gone.teams, gone.flights⟩
  case pfFlr =>
    obtain ⟨t, ht, freed, left⟩ := execPfFlr_frees s
    exact ⟨t, ht, freed, fun x hx => by simpa using left x hx⟩

/-! ## How a command ends -/

theorem raisePart_part {s : State} {p : Nat} (hp : p < s.parts.length) (n : Nat) :
    ∃ i m, (raisePart s p n).part p = { s.part p with istat := i, msixPend := m } := by
  unfold raisePart
  simp only
  split <;> exact ⟨_, _, s.part_updPart_same hp _⟩

/-- The second state differs from the first in its partitions, interrupts and messages alone. -/
def PartsTold (s t : State) : Prop := { t with parts := s.parts, out := s.out, pf := s.pf } = s

/-- What does not look at partitions, interrupts and messages is as it was. -/
theorem PartsTold.field {s t : State} (h : PartsTold s t) {α : Type} (f : State → α)
    (hf : f { t with parts := s.parts, out := s.out, pf := s.pf } = f t := by rfl) : f t = f s :=
  hf.symm.trans (congrArg f h)

theorem PartsTold.trans {a b c : State} (h : PartsTold a b) (k : PartsTold b c) : PartsTold a c := by
  unfold PartsTold at *
  rw [← k] at h
  exact h

theorem PartsTold.updPart (s : State) (p : Nat) (f : Partition → Partition) : PartsTold s (s.updPart p f) := rfl

theorem PartsTold.raisePart (s : State) (p n : Nat) : PartsTold s (raisePart s p n) := by
  unfold Machine.raisePart
  simp only
  split <;> rfl

theorem PartsTold.raisePf (s : State) (n : Nat) : PartsTold s (raisePf s n) := by
  unfold Machine.raisePf
  simp only
  split <;> rfl

/-- The end of a command is told, and changes nothing else (R78, R79, R87). -/
theorem PartsTold.commandDone (s : State) (p : Nat) (own : Bool) : PartsTold s (commandDone s p own) := by
  have done := PartsTold.updPart s p fun q => { q with done := true }
  cases own with
  | true => exact (done.trans (.raisePart _ p 260)).trans (.raisePf _ p)
  | false => exact done.trans (.raisePf _ p)

/-- A partition whose command is done (R87). -/
theorem commandDone_part {s : State} {p : Nat} (hp : p < s.parts.length) (own : Bool) :
    ∃ i m, (commandDone s p own).part p = { s.part p with done := true, istat := i, msixPend := m } := by
  have told (t : State) : (raisePf t p).part p = t.part p := (Reported.raisePf t p).field (State.part · p)
  have done : (s.updPart p fun q => { q with done := true }).part p = { s.part p with done := true } := s.part_updPart_same hp _
  cases own with
  | true =>
    obtain ⟨i, m, raised⟩ := raisePart_part (s := s.updPart p fun q => { q with done := true }) (by simpa [State.updPart] using hp) 260
    exact ⟨i, m, (told _).trans (raised.trans (by rw [done]))⟩
  | false => exact ⟨_, _, (told _).trans done⟩

/-! ### The end of an application -/

/-- An application without a reset that waits ends in an ACTIVE partition, DONE set (R87). -/
theorem applied_active {s : State} {p : Nat} (hp : p < s.parts.length) (h : (s.part p).flrpend = false) : let t := applied s p
    PartsTold s t ∧ ∃ i m, t.part p = { s.part p with state := .active, done := true, istat := i, msixPend := m } := by
  have active : (s.updPart p fun q => { q with state := .active }).part p = { s.part p with state := .active } := s.part_updPart_same hp _
  obtain ⟨i, m, done⟩ := commandDone_part (s := s.updPart p fun q => { q with state := .active }) (by simpa [State.updPart] using hp) true
  rw [active] at done
  have ends : applied s p = commandDone (s.updPart p fun q => { q with state := .active }) p true := by rw [applied, if_neg (by simp [h])]
  simp only [ends]
  exact ⟨(PartsTold.updPart ..).trans (.commandDone ..), i, m, done⟩

theorem applied_reset {s : State} {p : Nat} (h : (s.part p).flrpend = true) : applied s p = beginReset s p false false := by
  rw [applied, if_pos h]

theorem applyResize_part {s : State} {p : Nat} (hp : p < s.parts.length) (u : Setup) :
    (applyResize s p u).part p = (s.part p).resized u (unitsFor s p 0 u.chsp0 (s.part p).chip0) (unitsFor s p 1 u.chsp1 (s.part p).chip1) := by
  unfold applyResize
  simp only
  split <;> exact s.part_updPart_same hp _

theorem applyResize_length (s : State) (p : Nat) (u : Setup) : (applyResize s p u).parts.length = s.parts.length := by
  unfold applyResize
  simp only
  split <;> exact List.length_modify ..

/-- A new record in force moves no work and writes no memory (R88). -/
theorem applyResize_keeps (s : State) (p : Nat) (u : Setup) :
    (applyResize s p u).mem = s.mem ∧ (applyResize s p u).groups = s.groups ∧ (applyResize s p u).teams = s.teams := by
  unfold applyResize
  refine ⟨?_, ?_, ?_⟩
  all_goals
    simp only
    split <;> rfl

/-- The scratchpads of added cores are clear (R88). -/
theorem readByte_applyResize (s : State) {p : Nat} {u : Setup} {c o : Nat} (hc : ownsCore u c = true) (hn : ownsCore (s.part p).setup c = false)
    (ho : o < 1048576) : readByte (applyResize s p u) (.sp c o) = 0 := by
  have added : (ownsCore u c && !ownsCore (s.part p).setup c) = true := by rw [hc, hn]; rfl
  unfold applyResize
  simp only
  split <;> exact readByte_clearCores (own := fun c => ownsCore u c && !ownsCore (s.part p).setup c) s added ho

theorem execPartitionApplyComplete_other {s : State} {p : Nat} (h : (s.part p).state ≠ .busy) : exec (.partitionApplyComplete p) s = .next s := by
  show Host.Outcome.next _ = _
  simp only [h, ne_eq, not_false_eq_true, if_true]

theorem execPartitionApplyComplete_created {s : State} {p : Nat} (h : (s.part p).state = .busy) (hn : (s.part p).next = none) :
    exec (.partitionApplyComplete p) s = .next (applied s p) := by
  show Host.Outcome.next _ = _
  simp only [h, hn, ne_eq, not_true_eq_false, if_false]

theorem execPartitionApplyComplete_resized {s : State} {p : Nat} {u : Setup} (h : (s.part p).state = .busy) (hn : (s.part p).next = some u) :
    exec (.partitionApplyComplete p) s = .next (if stillUses s p u then s else applied (applyResize s p u) p) := by
  show Host.Outcome.next _ = _
  simp only [h, hn, ne_eq, not_true_eq_false, if_false]

/-! ### The end of a reset -/

theorem foldl_scrubRange_mem (rs : List (Nat × Nat)) (s : State) : (rs.foldl scrubRange s).mem = rs.foldl (fun m r => m.clear r.1 r.2) s.mem := by
  induction rs generalizing s with
  | nil => rfl
  | cons r rs ih => exact ih _

theorem foldl_scrubRange_parts (rs : List (Nat × Nat)) (s : State) : (rs.foldl scrubRange s).parts = s.parts := by
  induction rs generalizing s with
  | nil => rfl
  | cons r rs ih => exact ih _

theorem mem_foldl_clear {rs : List (Nat × Nat)} {m : Mem} {c : Host.Cell} (h : c ∈ rs.foldl (fun m r => m.clear r.1 r.2) m) :
    c ∈ m ∧ ∀ r ∈ rs, c.1 < r.1 ∨ r.1 + r.2 ≤ c.1 := by
  induction rs generalizing m with
  | nil => exact ⟨h, nofun⟩
  | cons r rs ih =>
    obtain ⟨hc, rest⟩ := ih h
    obtain ⟨hm, out⟩ := List.mem_filter.1 hc
    exact ⟨hm, List.forall_mem_cons.2 ⟨by simpa using out, rest⟩⟩

/-- A byte of a cleared span reads as 0, whatever the form of the memory. -/
theorem read_foldl_clear_inside {rs : List (Nat × Nat)} (m : Mem) {r : Nat × Nat} {k : Nat} (hr : r ∈ rs) (hk : k < r.2) :
    (rs.foldl (fun m r => m.clear r.1 r.2) m).read (r.1 + k) = 0 := by
  refine Mem.read_unlisted fun c hc e => ?_
  have := (mem_foldl_clear hc).2 r hr
  omega

theorem read_foldl_clear_outside {rs : List (Nat × Nat)} {m : Mem} (hm : m.wf = true) {a : Nat} (h : ∀ r ∈ rs, a < r.1 ∨ r.1 + r.2 ≤ a) :
    (rs.foldl (fun m r => m.clear r.1 r.2) m).read a = m.read a := by
  induction rs generalizing m with
  | nil => rfl
  | cons r rs ih =>
    obtain ⟨out, rest⟩ := List.forall_mem_cons.1 h
    rw [List.foldl_cons, ih (Mem.wf_clear hm r.1 r.2) rest, Mem.read_clear hm, if_neg (by omega)]

/-- A state whose ranges of a partition are scrubbed, where that was asked for (R84, R89). -/
def scrubbed (s : State) (p : Nat) : State := if (s.part p).scrub then (s.part p).setup.used.foldl scrubRange s else s

theorem scrubbed_parts (s : State) (p : Nat) : (scrubbed s p).parts = s.parts := by
  unfold scrubbed
  split
  · exact foldl_scrubRange_parts _ s
  · rfl

/-- Scrubbing zeroes the ranges of the partition, and no other byte (R84, R89). -/
theorem scrubbed_mem (s : State) (p : Nat) : let q := s.part p
    (q.scrub = false → (scrubbed s p).mem = s.mem) ∧
    (q.scrub = true → ∀ r ∈ q.setup.ranges, ∀ k, k < r.2 → (scrubbed s p).mem.read (r.1 + k) = 0) ∧
    ∀ a, (∀ r ∈ q.setup.ranges, a < r.1 ∨ r.1 + r.2 ≤ a) → s.mem.wf = true → (scrubbed s p).mem.read a = s.mem.read a := by
  intro q
  refine ⟨fun h => ?_, fun h r hr k hk => ?_, fun a out hm => ?_⟩
  · rw [scrubbed, if_neg (by simp [q, ← h])]
  · have used : r ∈ q.setup.used := List.mem_filter.2 ⟨hr, by simpa using Nat.ne_zero_of_lt hk⟩
    rw [scrubbed, if_pos h, foldl_scrubRange_mem]
    exact read_foldl_clear_inside s.mem used hk
  · unfold scrubbed
    split
    · rw [foldl_scrubRange_mem]
      exact read_foldl_clear_outside hm fun r hr => out r (List.mem_filter.1 hr).1
    · rfl

/-- A partition that goes on after a reset (R87). -/
def Partition.restored (q : Partition) : Partition := { q with state := .active, destroying := false, scrub := false, flrpend := false }

theorem execPartitionResetComplete_other {s : State} {p : Nat} (h : (s.part p).state ≠ .resetting) :
    exec (.partitionResetComplete p) s = .next s := by
  show Host.Outcome.next _ = _
  simp only [h, ne_eq, not_false_eq_true, if_true]

/-- A reset ends in a partition that is FREE or goes on (R87). -/
theorem execPartitionResetComplete_ends {s : State} {p : Nat} (h : (s.part p).state = .resetting) : exec (.partitionResetComplete p) s =
    .next (commandDone ((scrubbed s p).updPart p (if (s.part p).destroying then Partition.freed else Partition.restored)) p
      (!(s.part p).destroying)) := by
  show Host.Outcome.next _ = _
  simp only [h, ne_eq, not_true_eq_false, if_false]
  cases (s.part p).destroying <;> rfl

/-- How the commands of partitions end (R87 to R89, R141). -/
theorem partitionCommandsEnd : Rule.PartitionCommandsEnd := by
  intro s p hp q
  refine ⟨?created, ?resized, ?uses, ?resets, ?ends, execPartitionResetComplete_other, execPartitionApplyComplete_other⟩
  case created =>
    intro h hf hn
    obtain ⟨told, i, m, mine⟩ := applied_active hp hf
    exact ⟨_, execPartitionApplyComplete_created h hn, by rw [mine], by rw [mine], by rw [mine], told.field State.mem, told.field State.groups⟩
  case resized =>
    intro u h hf hn free
    have length := applyResize_length s p u
    have record := applyResize_part hp u
    obtain ⟨mem, groups, teams⟩ := applyResize_keeps s p u
    obtain ⟨told, i, m, mine⟩ := applied_active (s := applyResize s p u) (length ▸ hp) (by rw [record]; exact hf)
    rw [record] at mine
    refine ⟨_, (execPartitionApplyComplete_resized h hn).trans (by rw [free]; rfl), by rw [mine], by rw [mine], by rw [mine]; rfl,
      by rw [mine]; rfl, by rw [mine]; rfl, (told.field State.mem).trans mem, (told.field State.groups).trans groups, (told.field State.teams).trans teams,
      fun c o hc hk ho => ?_⟩
    exact (told.field (readByte · (.sp c o))).trans (readByte_applyResize s hc hk ho)
  case uses =>
    intro u h hn held
    rw [execPartitionApplyComplete_resized h hn, if_pos held]
  case resets =>
    intro h hf hn
    obtain ⟨gone, resetting, -, scrub, -⟩ := beginReset_leaves hp false false
    exact ⟨_, (execPartitionApplyComplete_created h hn).trans (by rw [applied_reset hf]), resetting, scrub, gone.teams⟩
  case ends =>
    intro h
    have hs : p < (scrubbed s p).parts.length := by rwa [scrubbed_parts]
    have part : (scrubbed s p).part p = q := by simp only [State.part, scrubbed_parts, q]
    obtain ⟨i, m, mine⟩ := commandDone_part
      (s := (scrubbed s p).updPart p (if q.destroying then Partition.freed else Partition.restored)) (by simpa [State.updPart] using hs) (!q.destroying)
    rw [State.part_updPart_same _ hs, part] at mine
    have told := PartsTold.commandDone ((scrubbed s p).updPart p (if q.destroying then Partition.freed else Partition.restored)) p (!q.destroying)
    refine ⟨_, execPartitionResetComplete_ends h, ?_⟩
    rw [mine, show (commandDone _ p _).mem = (scrubbed s p).mem from told.field State.mem]
    obtain ⟨kept, zero, others⟩ := scrubbed_mem s p
    cases hd : q.destroying with
    | true => exact ⟨rfl, rfl, rfl, fun _ => ⟨rfl, rfl⟩, nofun, kept, zero, others⟩
    | false => exact ⟨rfl, rfl, rfl, nofun, fun _ => ⟨rfl, rfl⟩, kept, zero, others⟩

/-- Settles O44: the commands of partitions by their checks, and how each ends. -/
theorem partitionCommands : Obligations.PartitionCommands := ⟨partitionCommandChecks, partitionCommandsEnd⟩

end Sys2Proof.Machine

/-!
A restart of Caddy whose event finds the log full (R55, R57): the statement on Caddy fails there.
-/
namespace Sys2Proof.Machine

/-- An event that finds the buffer full is counted, and raises no source (R57). -/
theorem logEvent_full {s : State} (hr : s.caddy.running = true) (hb : 256 ≤ s.caddy.logBuf.length) (e : LogEvent) (cls source part x y : Nat) :
    logEvent s e cls source part x y = { s with caddy := { s.caddy with logDrop := min 4294967295 (s.caddy.logDrop + 1) } } := by
  simp only [logEvent, hr, Nat.not_lt.2 hb, Bool.not_true, Bool.false_eq_true, if_false]

theorem execCaddyRestartComplete_restarts {s : State} (h : s.caddy.running = false) : exec .caddyRestartComplete s =
    .next (logEvent { s with caddy := { s.caddy with running := true, mismatch := false } } .lockstep 5 (logSource 0 0) 255 0 0) := by
  show Host.Outcome.next _ = _
  rw [if_neg (by simp [h])]
  rfl

/-- Caddy restarts after a mismatch, with 256 records in its buffer and no source of the physical function pending. -/
def fullLog : State := { State.reset with caddy := { Caddy.reset with running := false, logBuf := List.replicate 256 default } }

/-- Refutes O59: where the buffer holds 256 records when Caddy's restart is complete, the event of class 5 is dropped and source 32 is not
raised. The statement asks for a buffer with room where it speaks of the record, but not where it speaks of the source. -/
theorem not_caddyServes : ¬ Obligations.CaddyServes := by
  intro h
  obtain ⟨-, -, restarts, -⟩ := h fullLog
  obtain ⟨t, ht, -, -, -, raised, -⟩ := restarts rfl
  rw [execCaddyRestartComplete_restarts rfl, logEvent_full rfl List.length_replicate.ge] at ht
  obtain rfl := Host.Outcome.next.inj ht
  exact absurd raised (by decide)

end Sys2Proof.Machine

/-!
The state of a front end (R95 to R99, R104, R105).
-/
namespace Sys2Proof.Machine

/-! ## What leaves the streams alone -/

/-- Every partition has the same streams in the second state as in the first. -/
structure SameStreams (s t : State) : Prop where
  part : ∀ p, (t.part p).streams = (s.part p).streams

theorem SameStreams.of_parts {s t : State} (h : t.parts = s.parts) : SameStreams s t := ⟨fun p => by simp only [State.part, h]⟩

theorem SameStreams.refl (s : State) : SameStreams s s := ⟨fun _ => rfl⟩

theorem SameStreams.trans {a b c : State} (h : SameStreams a b) (k : SameStreams b c) : SameStreams a c :=
  ⟨fun p => (k.part p).trans (h.part p)⟩

/-- The streams are the same as in a state with the same partitions. -/
theorem SameStreams.since {s u t : State} (h : SameStreams u t) (hp : u.parts = s.parts) : SameStreams s t := (of_parts hp).trans h

theorem SameStreams.guarded {c : Prop} [Decidable c] {s t : State} (h : SameStreams s t) : SameStreams s (if c then t else s) := by
  split
  · exact h
  · exact .refl s

theorem SameStreams.foldl {α : Type} {f : State → α → State} (h : ∀ s x, SameStreams s (f s x)) (xs : List α) (s : State) :
    SameStreams s (xs.foldl f s) := by
  induction xs generalizing s with
  | nil => exact .refl s
  | cons x xs ih => exact (h s x).trans (ih _)

theorem SameStreams.updPart (s : State) (p : Nat) {f : Partition → Partition} (hf : ∀ q, (f q).streams = q.streams) :
    SameStreams s (s.updPart p f) := by
  constructor
  intro k
  rw [part_updPart]
  split
  · exact hf _
  · rfl

theorem SameStreams.of_sent {s t : State} (h : Sent s t) : SameStreams s t := by
  constructor
  intro p
  rw [← h.part p]

theorem SameStreams.of_reported {s t : State} (h : Reported s t) : SameStreams s t := .of_parts (h.field State.parts)

theorem SameStreams.send {s t : State} (h : SameStreams s t) (m : OutMsg) : SameStreams s (t.send m) := h.trans (.of_parts rfl)

/-- A stream is found as before. -/
theorem SameStreams.stream? {s t : State} (h : SameStreams s t) (p st : Nat) : t.stream? p st = s.stream? p st := by
  unfold State.stream?
  rw [h.part p]

/-! ### Bytes and reports -/

theorem writeByte_parts (s : State) (p : Place) (b : Byte) : (writeByte s p b).parts = s.parts := by
  cases p with
  | phys a =>
    simp only [writeByte]
    split <;> rfl
  | _ => rfl

theorem writeFrom_parts (s : State) (p : Place) (bs : List Byte) : (writeFrom s p bs).parts = s.parts := by
  induction bs generalizing s p with
  | nil => rfl
  | cons b bs ih => exact (ih _ _).trans (writeByte_parts s p b)

theorem SameStreams.performWrite (s : State) (p : Place) (bs : List Byte) : SameStreams s (performWrite s p bs) :=
  .of_parts (writeFrom_parts s p bs)

theorem SameStreams.writePhys (s : State) (a : Nat) (bs : List Byte) : SameStreams s (writePhys s a bs) := by
  unfold Machine.writePhys
  simp only
  have written := SameStreams.performWrite s (.phys a) bs
  split
  · exact written.send _
  · exact written

theorem SameStreams.putReport (s : State) (p : Nat) (bs : List Byte) : SameStreams s (putReport s p bs) := by
  unfold Machine.putReport
  simp only
  split
  · exact .refl s
  · split
    · exact .updPart s p fun _ => rfl
    · exact (SameStreams.writePhys s _ bs).trans (.updPart _ p fun _ => rfl)

theorem SameStreams.noteLine (s : State) (gr : Grid) (team line : Nat) : SameStreams s (noteLine s gr team line) := by
  unfold Machine.noteLine
  split
  · exact .of_parts rfl
  · split
    · exact .refl s
    · simp only
      split
      · exact (SameStreams.putReport ..).since rfl
      · exact .of_parts rfl

theorem SameStreams.noteWrite (s : State) (core slot : Nat) (p : Place) (n : Nat) : SameStreams s (noteWrite s core slot p n) := by
  unfold Machine.noteWrite
  split
  · exact .foldl (fun s k => .noteLine s _ _ _) _ s
  · exact .refl s

theorem SameStreams.performFor (s : State) (core slot : Nat) (p : Place) (bs : List Byte) : SameStreams s (performFor s core slot p bs) :=
  (SameStreams.performWrite s p bs).trans (.noteWrite ..)

/-! ### Writes of units -/

theorem SameStreams.performPart (s : State) (f : Flight) (p : Place) (bs : List Byte) : SameStreams s (performPart s f p bs) := by
  unfold Machine.performPart
  simp only
  split
  · split
    · exact (SameStreams.performFor ..).send _
    · exact .performFor ..
  · exact .performFor ..

theorem SameStreams.performParts (s : State) (f : Flight) (sel : Place → Bool) : SameStreams s (performParts s f sel).1 := by
  refine SameStreams.foldl (fun s x => ?_) (splitData f.reads f.data) s
  exact .guarded (.performPart ..)

theorem Sent.sendWrites (s : State) (f : Flight) : Sent s (sendWrites s f) := by
  refine Sent.foldl _ (fun s x => ?_) s _
  split
  · exact Sent.sendOutside ..
  · exact .refl s

theorem Sent.sendHinge_ite (s : State) (f : Flight) (d : Nat) (b : Bool) (n : Nat) (c : Prop) [Decidable c] :
    Sent s (if c then Machine.sendHinge s f d b n else (s, f)).1 := by
  split
  · exact Sent.sendHinge ..
  · exact .refl s

theorem SameStreams.sendWrite (s : State) (f : Flight) (stamped : Bool) : SameStreams s (sendWrite s f stamped) := by
  unfold Machine.sendWrite
  simp only
  generalize hd : Machine.performParts s _ _ = done
  generalize hm : @ite (State × Flight) (_ = Stage.request) _ _ _ = sent
  have performed : SameStreams s done.1 := hd ▸ SameStreams.performParts ..
  have sends : Sent done.1 sent.1 := hm ▸ Sent.sendHinge_ite ..
  have added : Sent done.1 (addFlight sent.1 sent.2) := sends.trans (.addFlight ..)
  split
  · exact performed.trans (.of_sent added)
  · exact performed.trans (.of_sent (added.trans (.sendWrites ..)))

theorem SameStreams.writeAway (f : Flight) (n : Nat) (s : State) (a : Nat) (p : Place) (bs : List Byte) :
    SameStreams s (writeAway s f n a p bs) := by
  induction n generalizing s a p bs with
  | zero => exact .refl s
  | succ n ih =>
    unfold Machine.writeAway
    have one (f : Flight) (b : Bool) : SameStreams s (startWrite s f b) := (SameStreams.sendWrite ..).since rfl
    simp only
    split
    · exact one ..
    · exact (one ..).trans (ih ..)

theorem SameStreams.unitWrite (s : State) (k : UnitWrite) (a : Nat) (p : Place) (bs : List Byte) : SameStreams s (unitWrite s k a p bs) := by
  unfold Machine.unitWrite
  split
  · exact .performFor ..
  · exact .writeAway ..

theorem SameStreams.writeSpan (k : UnitWrite) (ps : List (Place × Nat)) (s : State) (a : Nat) (bs : List Byte) :
    SameStreams s (writeSpan s k a ps bs) := by
  induction ps generalizing s a bs with
  | nil => exact .refl s
  | cons p ps ih => exact (SameStreams.unitWrite ..).trans (ih ..)

/-! ### Translation -/

theorem SameStreams.putResidency (s : State) (p : Nat) (bs : List Byte) : SameStreams s (putResidency s p bs) := by
  unfold Machine.putResidency
  simp only
  split
  · exact .refl s
  · split
    · exact .updPart s p fun _ => rfl
    · have written (a t : Nat) : SameStreams s ((Machine.writePhys s a bs).updPart p fun q => { q with rf := { q.rf with tail := t } }) :=
        (SameStreams.writePhys s a bs).trans (.updPart _ p fun _ => rfl)
      split
      · exact (written ..).trans (.of_reported (.raisePf ..))
      · exact written ..

theorem SameStreams.noteResidency (s : State) (p die va kind acc lv core e : Nat) :
    SameStreams s (noteResidency s p die va kind acc lv core e) := by
  unfold Machine.noteResidency
  split
  · exact .refl s
  · split
    · exact .refl s
    · exact (SameStreams.putResidency ..).since rfl

theorem SameStreams.addTlb (s : State) (t : TlbEntry) : SameStreams s (addTlb s t) := .of_parts rfl

theorem SameStreams.translateVa (s : State) (w : Who) (acc : Acc) (va : Nat) : SameStreams s (translateVa s w acc va).1 := by
  unfold Machine.translateVa
  simp only
  split
  · exact .refl s
  · split
    · exact .guarded (.addTlb ..)
    · split
      · exact .guarded (.noteResidency ..)
      · exact (SameStreams.guarded (.noteResidency ..)).trans ((SameStreams.addTlb ..).trans (.guarded (.addTlb ..)))

theorem SameStreams.translate (s : State) (w : Who) (acc : Acc) (a : Nat) : SameStreams s (translate s w acc a).1 := by
  unfold Machine.translate
  split
  · exact .refl s
  · split
    · simp only
      split <;> exact .refl s
    · split
      · exact .refl s
      · exact .translateVa ..

theorem SameStreams.unitPlaces (w : Who) (acc : Acc) (n : Nat) (s : State) (a len : Nat) : SameStreams s (unitPlaces n s w acc a len).1 := by
  induction n generalizing s a len with
  | zero => exact .refl s
  | succ n ih =>
    unfold Machine.unitPlaces
    split
    · exact .refl s
    · simp only
      have here := SameStreams.translate s w acc a
      split
      next h => rwa [h] at here
      next s₁ p h =>
        rw [h] at here
        have rest := here.trans (ih s₁ (a + min len (65536 - a % 65536)) (len - min len (65536 - a % 65536)))
        split
        next h₂ => rwa [h₂] at rest
        next => exact rest

theorem SameStreams.spanPlaces (s : State) (w : Who) (acc : Acc) (a n : Nat) : SameStreams s (spanPlaces s w acc a n).1 := .unitPlaces ..

/-! ### Reads of units -/

theorem Sent.askAway (s : State) (owner : Nat) (w : Who) (acq : Option Nat) (p : Place) (n : Nat) : Sent s (askAway s owner w acq p n) := by
  unfold Machine.askAway
  split
  · exact .refl s
  · exact .startRead ..

theorem Sent.awayPart (s : State) (owner : Nat) (w : Who) (acq : Option Nat) (p : Place) (a n : Nat) :
    Sent s (awayPart s owner w acq p a n).1 := by
  unfold Machine.awayPart
  split
  · exact .refl s
  · exact .askAway ..

theorem Sent.readAway (owner : Nat) (w : Who) (acq : Option Nat) (k : Nat) (s : State) (a : Nat) (p : Place) (n : Nat) :
    Sent s (readAway s owner w acq a k p n).1 := by
  induction k generalizing s a p n with
  | zero => exact .refl s
  | succ k ih =>
    unfold Machine.readAway
    have one := Sent.awayPart s owner w acq p a (min n messageBytes)
    split
    next s₁ b h =>
      rw [h] at one
      split
      · exact one
      · have rest := one.trans (ih s₁ (a + messageBytes) (p.plus messageBytes) (n - messageBytes))
        split
        next h₂ => rwa [h₂] at rest
        next => exact rest
    next => exact one

/-- A read at a checked place sends at most messages. -/
theorem Sent.readAt (s : State) (owner : Nat) (w : Who) (acq : Option Nat) (p : Place) (a n : Nat) : Sent s (readAt s owner w acq p a n).1 := by
  unfold Machine.readAt
  split
  · exact .refl s
  · exact .readAway ..

theorem SameStreams.unitReadPage (s : State) (owner : Nat) (w : Who) (acq : Option Nat) (acc : Acc) (a n : Nat) :
    SameStreams s (unitReadPage s owner w acq acc a n).1 := by
  unfold Machine.unitReadPage
  have here := SameStreams.translate s w acc a
  split
  next h => rwa [h] at here
  next h =>
    rw [h] at here
    exact here.trans (.of_sent (.readAt ..))

theorem SameStreams.unitReadAs (s : State) (owner : Nat) (w : Who) (acq : Option Nat) (acc : Acc) (a n : Nat) :
    SameStreams s (unitReadAs s owner w acq acc a n).1 := by
  unfold Machine.unitReadAs
  simp only
  split
  · exact .unitReadPage ..
  · have first := SameStreams.unitReadPage s owner w acq acc a (65536 - a % 65536)
    split
    next s₁ b h =>
      rw [h] at first
      have second := first.trans (.unitReadPage s₁ owner w acq acc (a + (65536 - a % 65536)) (n - (65536 - a % 65536)))
      split
      next h₂ => rwa [h₂] at second
      next => exact second
    next => exact first

theorem SameStreams.unitSpan (owner : Nat) (w : Who) (acc : Acc) (k : Nat) (s : State) (a n : Nat) :
    SameStreams s (unitSpan k s owner w acc a n).1 := by
  induction k generalizing s a n with
  | zero => exact .refl s
  | succ k ih =>
    unfold Machine.unitSpan
    split
    · exact .refl s
    · simp only
      have page := SameStreams.unitReadPage s owner w none acc a (min n (65536 - a % 65536))
      split
      next s₁ b h =>
        rw [h] at page
        have rest := page.trans (ih s₁ (a + min n (65536 - a % 65536)) (n - min n (65536 - a % 65536)))
        split
        next h₂ => rwa [h₂] at rest
        next => exact rest
      next => exact page

/-- A front end's read leaves the streams as they were (R104, R105). -/
theorem SameStreams.feRead (s : State) (p st a n : Nat) : SameStreams s (feRead s p st a n).1 :=
  SameStreams.unitSpan (feOwner p st) (whoFe p) .read (n / 65536 + 2) s a n

theorem SameStreams.feAcquire (s : State) (p st scope a n : Nat) : SameStreams s (feAcquire s p st scope a n).1 :=
  .unitReadAs ..

/-- So does an error record, whether it is written or logged (R122). -/
theorem SameStreams.putError (s : State) (w : Who) (erraddr : Nat) (r : ErrRec) : SameStreams s (putError s w erraddr r) := by
  unfold Machine.putError
  split
  · exact .refl s
  · have places := SameStreams.spanPlaces s { w with quiet := true } .write erraddr 64
    split
    next h =>
      rw [h] at places
      split
      · exact places.trans (.of_reported (.logEvent ..))
      · exact places.trans (.writeSpan ..)
    next h =>
      rw [h] at places
      exact places.trans (.of_reported (.logEvent ..))

theorem SameStreams.dropArrived (s : State) (owner : Nat) : SameStreams s (dropArrived s owner) := .of_parts rfl

/-! ## A stream and its changes -/

/-- A partition that has a stream is one of the module's. -/
theorem part_lt_of_stream {s : State} {p st : Nat} {x : Stream} (hx : s.stream? p st = some x) : p < s.parts.length := by
  by_contra hp
  have none_there : s.part p = Partition.reset p := by simp [State.part, List.getElem?_eq_none (Nat.not_lt.1 hp)]
  rw [State.stream?, none_there] at hx
  cases hx

/-- A changed stream is found where it stood. -/
theorem State.stream?_updStream {s : State} {p st : Nat} {x : Stream} (hx : s.stream? p st = some x) {f : Stream → Stream}
    (hf : ∀ y, (f y).num = y.num := by exact fun _ => rfl) : (s.updStream p st f).stream? p st = some (f x) := by
  have same : ((fun y : Stream => y.num == st) ∘ fun y => if y.num == st then f y else y) = fun y => y.num == st := by
    funext y
    by_cases hy : y.num = st <;> simp [hy, hf]
  have hn : x.num = st := by simpa using List.find?_some hx
  unfold State.stream? at hx ⊢
  rw [State.updStream, State.part_updPart_same s (part_lt_of_stream hx), List.find?_map, same, hx]
  simp [hn]

theorem State.stream?_lift {s t : State} {p st : Nat} {x : Stream} (h : SameStreams s t) (hx : s.stream? p st = some x) :
    t.stream? p st = some x := (h.stream? p st).trans hx

/-- A second change of the same stream follows the first. -/
theorem State.updStream_updStream (s : State) (p st : Nat) {f g : Stream → Stream} (hf : ∀ y, (f y).num = y.num) :
    (s.updStream p st f).updStream p st g = s.updStream p st fun y => g (f y) := by
  unfold State.updStream State.updPart
  simp only [List.modify_modify_eq]
  congr 2
  funext q
  simp only [Function.comp_apply, List.map_map]
  congr 1
  refine List.map_congr_left fun y _ => ?_
  by_cases hy : y.num = st <;> simp [hy, hf]

/-! ### Halts -/

theorem SameStreams.raisePart (s : State) (p n : Nat) : SameStreams s (raisePart s p n) := by
  have raised (i m : Nat) : SameStreams s (s.updPart p fun q => { q with istat := i, msixPend := m }) := .updPart s p fun _ => rfl
  unfold Machine.raisePart
  simp only
  split
  · exact (raised ..).send _
  · exact raised ..

/-- A raised source is pending (R78). -/
theorem raisePart_raises {s : State} {p : Nat} (hp : p < s.parts.length) (n : Nat) : ((raisePart s p n).part p).istat.testBit n = true := by
  unfold raisePart
  simp only
  have bit : ((s.updPart p fun q => { q with
      istat := (raiseSource (s.part p).istat (s.part p).msixPend (s.part p).ivmap (s.part p).msix n).1
      msixPend := (raiseSource (s.part p).istat (s.part p).msixPend (s.part p).ivmap (s.part p).msix n).2.1 }).part p).istat.testBit n = true := by
    rw [State.part_updPart_same s hp, raiseSource_istat]
    simp
  split <;> exact bit

/-- A stream that halts keeps its HEAD, drops its packet, and raises its source (R105, R122). -/
theorem haltStream_halts {s : State} {p st : Nat} {x : Stream} (hx : s.stream? p st = some x) (code addr off : Nat) (b : List Byte) (n : Nat) :
    ∃ y, (haltStream s p st code addr off b n).stream? p st = some y ∧ y.state = .halted ∧ y.ecode = code ∧ y.head = x.head ∧
      y.packet = none ∧ y.haltSlots = n ∧ ((haltStream s p st code addr off b n).part p).istat.testBit st = true := by
  unfold haltStream
  rw [hx]
  simp only
  have told := State.stream?_updStream
    (State.stream?_lift ((SameStreams.dropArrived s (feOwner p st)).trans
      (.putError _ (whoFe p) x.erraddr ⟨addr, x.head, code, 0, 0, p, off, st, b, st⟩)) hx)
    (f := fun x => { x with state := .halted, ecode := code, haltSlots := n, packet := none })
  exact ⟨_, State.stream?_lift (.raisePart ..) told, rfl, rfl, rfl, rfl, rfl, raisePart_raises (part_lt_of_stream told) st⟩

/-! ### The tail -/

theorem Stream.unread_zero {x : Stream} (h : x.seen = x.head) : x.unread = 0 := by
  rw [unread, h, Nat.add_sub_cancel_left]

/-- A tail that stands further on than the ring is long is out of range (R105). -/
theorem idleSees_beyond {s : State} {p st : Nat} {x : Stream} (hx : s.stream? p st = some x) (h : 2 ^ x.qlog2 < x.unread) :
    idleSees s p st = haltStream s p st errRange (x.slotAddr x.head) 0 [] 1 := by
  unfold idleSees
  simp only [hx]
  rw [if_neg (Nat.ne_zero_of_lt h), if_pos h]

theorem idleSees_none {s : State} {p st : Nat} {x : Stream} (hx : s.stream? p st = some x) (h : x.unread = 0) : idleSees s p st = s := by
  unfold idleSees
  simp only [hx, h, if_true]

section tail
variable {s : State} {p st : Nat} {x : Stream} (hx : s.stream? p st = some x) (v : Nat)
include hx

theorem stream?_seen : (s.updStream p st fun x => { x with seen := v % 4294967296 }).stream? p st = some { x with seen := v % 4294967296 } :=
  State.stream?_updStream hx

theorem stream?_tailed : (s.updStream p st fun x => { x with tail := v % 4294967296 }).stream? p st = some { x with tail := v % 4294967296 } :=
  State.stream?_updStream hx

theorem seeTail_idle (he : x.en = true) (hs : x.state = .idle) :
    seeTail s p st v = idleSees (s.updStream p st fun x => { x with seen := v % 4294967296 }) p st := by
  simp only [seeTail, stream?_seen hx, he, hs, Bool.not_true, Bool.false_eq_true, if_false]

/-- A front end that is disabled, or whose packet waits, notes the tail and does no more (R105). -/
theorem seeTail_notes (h : x.en = false ∨ x.state = .waiting) :
    seeTail s p st v = s.updStream p st fun x => { x with seen := v % 4294967296 } := by
  simp only [seeTail, stream?_seen hx]
  rcases h with he | hs
  · simp only [he, Bool.not_false, if_true]
  · simp only [hs, ite_self]

/-- With MTAIL 1 a write of the tail tells the front end nothing (R104). -/
theorem writeTail_mtail (hm : x.mtail = true) : writeTail s p st v = s.updStream p st fun x => { x with tail := v % 4294967296 } := by
  simp only [writeTail, stream?_tailed hx, hm, if_true]

theorem writeTail_seen (hm : x.mtail = false) :
    writeTail s p st v = seeTail (s.updStream p st fun x => { x with tail := v % 4294967296 }) p st v := by
  simp only [writeTail, stream?_tailed hx, hm, Bool.false_eq_true, if_false]

end tail

theorem numOfBytes_lt (bs : List Byte) : numOfBytes bs < 256 ^ bs.length := by
  induction bs with
  | nil => exact Nat.one_pos
  | cons b bs ih =>
    have hb : b.toNat < 256 := b.isLt
    rw [numOfBytes, List.length_cons, Nat.pow_succ]
    omega

theorem fieldAt_lt (b : List Byte) (i n : Nat) : fieldAt b i n < 256 ^ n := by
  simpa [fieldAt] using numOfBytes_lt ((List.range n).map fun k => b.getD (i + k) 0)

section words
variable {s s₁ : State} {p st : Nat} {x : Stream} {b : List Byte} (hx : s.stream? p st = some x)
include hx

theorem watchTail_ignores (h : x.en = false ∨ x.mtail = false) : watchTail s p st = s := by
  have ignored : (!x.en || !x.mtail || decide (x.state = .halted) || decide (x.state = .disabled)) = true := by
    rcases h with h | h <;> simp [h]
  simp only [watchTail, hx, ignored, if_true]

/-- A front end whose packet waits notes the tail word that it reads (R104). -/
theorem watchTail_notes (he : x.en = true) (hm : x.mtail = true) (hs : x.state = .waiting)
    (hr : feAcquire s p st (tailScope s p x.tailaddr) x.tailaddr 8 = (s₁, .data b)) :
    (watchTail s p st).stream? p st = some { x with seen := fieldAt b 0 4 } := by
  have read := SameStreams.feAcquire s p st (tailScope s p x.tailaddr) x.tailaddr 8
  rw [hr] at read
  have hy : (dropArrived s₁ (feOwner p st)).stream? p st = some x := State.stream?_lift (read.trans (.dropArrived ..)) hx
  have small : fieldAt b 0 4 % 4294967296 = fieldAt b 0 4 := Nat.mod_eq_of_lt (fieldAt_lt b 0 4)
  have goes : (!x.en || !x.mtail || decide (x.state = .halted) || decide (x.state = .disabled)) = false := by simp [he, hm, hs]
  simp only [watchTail, hx, goes, Bool.false_eq_true, if_false, hr]
  split
  next same => rw [hy, same]
  next => rw [seeTail_notes hy _ (.inr hs), stream?_seen hy, small]

/-! ### Enabling, and what stops or goes on -/

theorem enableStream_enabled (he : x.en = true) : enableStream s p st = s := by
  simp only [enableStream, hx, he, if_true]

/-- A front end that is enabled with an empty ring is IDLE (R105). -/
theorem enableStream_idle (he : x.en = false) (hm : x.mtail = false) (ht : x.tail = x.head) : enableStream s p st =
    s.updStream p st fun y => { y with en := true, state := .idle, seen := if y.mtail then y.head else y.tail } := by
  have hy := State.stream?_updStream hx (f := fun y => { y with en := true, state := .idle, seen := if y.mtail then y.head else y.tail })
  simp only [enableStream, hx, he, hm, Bool.false_eq_true, if_false]
  exact idleSees_none hy (Stream.unread_zero (by simp only [hm, ht]; rfl))

/-- A front end that finds its ring empty is IDLE (R105). -/
theorem goOn_idle (hj : x.jump = none) (hu : x.unread = 0) : goOn s p st = s.updStream p st fun x => { x with state := .idle } := by
  simp only [goOn, hx, hj, hu, Option.isNone_none, decide_true, Bool.and_true, if_true]

theorem resumeStream_running (hs : x.state ≠ .halted) : resumeStream s p st = s := by
  simp only [resumeStream, hx, hs, if_false]

theorem skipPacket_running (hs : x.state ≠ .halted) : skipPacket s p st = s := by
  simp only [skipPacket, hx, if_pos hs]

/-- RESUME of a halted front end whose ring is empty (R98). -/
theorem resumeStream_idle (hs : x.state = .halted) (hj : x.jump = none) (hu : x.seen = x.head) :
    resumeStream s p st = s.updStream p st fun x => { x with ecode := 0, state := .idle } := by
  have hy := State.stream?_updStream hx (f := fun x => { x with ecode := 0, state := .reading })
  simp only [resumeStream, hx, hs, if_true]
  rw [goOn_idle hy hj (Stream.unread_zero hu), State.updStream_updStream]
  exact fun _ => rfl

/-- SKIP of the last packet in the ring (R98). -/
theorem skipPacket_idle (hs : x.state = .halted) (hj : x.jump = none) (hu : x.seen = (x.head + x.haltSlots) % 4294967296) :
    skipPacket s p st = s.updStream p st fun x => { x with ecode := 0, state := .idle, head := (x.head + x.haltSlots) % 4294967296 } := by
  have hy := State.stream?_updStream hx
    (f := fun x => { x with ecode := 0, state := .reading, head := (x.head + x.haltSlots) % 4294967296 })
  simp only [skipPacket, hx, hs, hj, ne_eq, not_true_eq_false, if_false]
  rw [State.updStream_updStream, goOn_idle hy hj (Stream.unread_zero hu), State.updStream_updStream]
  all_goals exact fun _ => rfl

end words

/-! ### Headers -/

/-- A walk does not look at streams (R192). -/
theorem walkFrom_updStream (s : State) (p st : Nat) (f : Stream → Stream) (u : Setup) (die va n table : Nat) :
    walkFrom (s.updStream p st f) u die va n table = walkFrom s u die va n table := by
  induction n generalizing table with
  | zero => rfl
  | succ n ih =>
    simp only [walkFrom, ih]
    rfl

theorem setup_updStream (s : State) (p st q : Nat) (f : Stream → Stream) : ((s.updStream p st f).part q).setup = (s.part q).setup := by
  rw [State.updStream, part_updPart]
  split <;> rfl

theorem walk_updStream (s : State) (p st q die va : Nat) (f : Stream → Stream) : walk (s.updStream p st f) q die va = walk s q die va := by
  simp only [walk, setup_updStream, walkFrom_updStream]
  rfl

theorem hostGone_updStream (s : State) (p st q va : Nat) (f : Stream → Stream) : hostGone (s.updStream p st f) q va = hostGone s q va := by
  simp only [hostGone, neededAt, physOf, walk_updStream]
  rfl

theorem stream?_reading {s : State} {p st : Nat} {x : Stream} (hx : s.stream? p st = some x) (hs : x.state = .reading) :
    (s.updStream p st fun y => { y with state := .reading }).stream? p st = some x :=
  (State.stream?_updStream hx (f := fun y => { y with state := .reading })).trans (by rw [← hs])

section headers
variable {s s₁ : State} {p st : Nat} {x : Stream} {b : List Byte} (hx : s.stream? p st = some x) (hs : x.state = .reading)
  (hj : x.jump = none) (hg : hostGone s p (x.slotAddr x.head) = false)
  (hr : feRead (s.updStream p st fun y => { y with state := .reading }) p st (x.slotAddr x.head) 64 = (s₁, .data b))
include hx hs hr

/-- The read of a header leaves the stream as it was. -/
theorem stream?_headerRead : s₁.stream? p st = some x := by
  have read := SameStreams.feRead (s.updStream p st fun y => { y with state := .reading }) p st (x.slotAddr x.head) 64
  rw [hr] at read
  exact State.stream?_lift read (stream?_reading hx hs)

/-! What a front end does with the header that it has read (R99, R105). -/

include hj hg

/-- Nothing, while its TYPE is 0 or the tail does not cover the packet. -/
theorem lookPacket_waits (h : packetType b = 0 ∨ x.unread < packetSlots b) : lookPacket s p st = dropArrived s₁ (feOwner p st) := by
  simp only [lookPacket, stream?_reading hx hs, Stream.here, hj, packetRead, hostGone_updStream, hg, hr, Option.isNone_none, Bool.true_and,
    Bool.or_eq_true, decide_eq_true_eq, Bool.false_eq_true, if_false, if_pos h]

/-- A halt, where it is ill-formed. -/
theorem lookPacket_halts (h : ¬(packetType b = 0 ∨ x.unread < packetSlots b)) {code off : Nat} (hb : headerBad x b = some (code, off)) :
    lookPacket s p st = haltStream s₁ p st code (x.slotAddr x.head) off (b.take 32) (packetSlots b) := by
  simp only [lookPacket, stream?_reading hx hs, Stream.here, hj, packetRead, hostGone_updStream, hg, hr, Option.isNone_none, Bool.true_and,
    Bool.or_eq_true, decide_eq_true_eq, Bool.false_eq_true, if_false, if_neg h, hb]

/-- The packet, where it is one slot. -/
theorem lookPacket_keeps (h : ¬(packetType b = 0 ∨ x.unread < packetSlots b)) (hb : headerBad x b = none) (hn : packetSlots b = 1) :
    lookPacket s p st = keepPacket s₁ p st (x.slotAddr x.head) 1 b := by
  rw [hn] at h
  simp only [lookPacket, stream?_reading hx hs, Stream.here, hj, packetRead, hostGone_updStream, hg, hr, Option.isNone_none, Bool.true_and,
    Bool.or_eq_true, decide_eq_true_eq, Bool.false_eq_true, if_false, hn, if_neg h, hb, readRest, if_true]

end headers

theorem execHeaderReread_looks {s : State} {p st : Nat} {x : Stream} (hx : s.stream? p st = some x) (he : x.en = true) (hs : x.state = .reading)
    (hp : x.packet = none) : exec (.headerReread p st) s = .next (lookPacket s p st) := by
  show Host.Outcome.next _ = _
  simp only [hx, he, hs, hp, Option.isNone_none, decide_true, Bool.and_true, if_true]

theorem execHeaderReread_ignored {s : State} {p st : Nat} {x : Stream} (hx : s.stream? p st = some x) (h : x.en = false ∨ x.packet ≠ none) :
    exec (.headerReread p st) s = .next s := by
  have ignored : (x.en && decide (x.state = .reading) && x.packet.isNone) = false := by
    rcases h with h | h
    · simp [h]
    · simp [Option.isNone_eq_false_iff.2 (Option.ne_none_iff_isSome.1 h)]
  show Host.Outcome.next _ = _
  simp only [hx, ignored, Bool.false_eq_true, if_false]

/-- Settles O47: each event of a front end by what it does to its stream; what it reads, and the record of a halt, leave the streams alone. -/
theorem frontEnds : Obligations.FrontEnds := by
  intro s p st x hx is only halted
  have next {a b : State} (h : a = b) : (.next a : Result) = .next b := congrArg _ h
  refine ⟨fun v => ?doorbell, ?tailWord, ?enabled, ?enable, ?disable, ?zero, ?running, ?goesOn, ?header, ?ignored⟩
  case doorbell =>
    have tailed := stream?_tailed hx v
    have seen := stream?_seen tailed v
    refine ⟨fun hm => ?mtail, fun hm he => ?off, fun hm he hs => ?waiting, fun hm he hs hh hd => ?beyond⟩
    case mtail => exact ⟨_, next (writeTail_mtail hx v hm), rfl, tailed⟩
    case off => exact ⟨_, next ((writeTail_seen hx v hm).trans (seeTail_notes tailed v (.inl he))), rfl, seen⟩
    case waiting => exact ⟨_, next ((writeTail_seen hx v hm).trans (seeTail_notes tailed v (.inr hs))), rfl, seen⟩
    case beyond =>
      exact ⟨_, next ((writeTail_seen hx v hm).trans ((seeTail_idle tailed v he hs).trans (idleSees_beyond seen hd))), haltStream_halts seen ..⟩
  case tailWord =>
    exact ⟨fun h => next (watchTail_ignores hx h), fun s₁ b he hm hs hr => ⟨_, rfl, watchTail_notes hx he hm hs hr⟩⟩
  case enabled => exact fun he => next (enableStream_enabled hx he)
  case enable =>
    intro he hm ht hh
    exact ⟨_, next (enableStream_idle hx he hm ht), rfl, (State.stream?_updStream hx).trans (by rw [hm]; rfl)⟩
  case disable =>
    exact ⟨_, rfl, rfl, rfl, rfl, State.stream?_updStream (s := dropArrived { s with graphs := _ } (feOwner p st)) hx⟩
  case zero => exact ⟨_, rfl, rfl, State.stream?_updStream hx fun y => by split <;> rfl⟩
  case running => exact fun hs => ⟨next (resumeStream_running hx hs), next (skipPacket_running hx hs)⟩
  case goesOn =>
    exact fun hs hj hh => ⟨fun hu => ⟨_, next (resumeStream_idle hx hs hj hu), rfl, State.stream?_updStream hx⟩,
      fun hu => ⟨_, next (skipPacket_idle hx hs hj hu), rfl, State.stream?_updStream hx⟩⟩
  case header =>
    intro s₁ b he hs hp hj hg hr n short
    have hy := stream?_headerRead hx hs hr
    have looks := execHeaderReread_looks hx he hs hp
    refine ⟨fun h => ?again, fun code off h hb => ?halts, fun h hb hn => ?kept⟩
    case again => exact ⟨_, looks.trans (next (lookPacket_waits hx hs hj hg hr h)), hy, rfl⟩
    case halts => exact ⟨_, looks.trans (next (lookPacket_halts hx hs hj hg hr h hb)), haltStream_halts hy ..⟩
    case kept =>
      exact ⟨_, looks.trans (next (lookPacket_keeps hx hs hj hg hr h hb hn)),
        State.stream?_updStream (s := dropArrived s₁ (feOwner p st)) hy, rfl⟩
  case ignored => exact execHeaderReread_ignored hx

end Sys2Proof.Machine

/-!
Two statements that fail in states that they do not rule out: accesses to a memory that is not in canonical form, and a replay of a group of more
than 32 lanes.
-/
namespace Sys2Proof.Machine

/-- Refutes O42: the host writes 0 to byte 64, and byte 3, at which the write is not aimed, shows 2. The state's memory is not in canonical form
(`MemOk`), which the statement does not ask for. -/
theorem not_memoryEvents : ¬ Obligations.MemoryEvents := by
  intro h
  obtain ⟨-, -, -, host, -⟩ := h disordered
  obtain ⟨-, t, ht, bytes⟩ := host 64 1 0 (by decide)
  exact byteAfter_ne ht ((bytes (.phys 3) nofun).trans (by decide +kernel)) (by decide +kernel)

/-- What parks a lane that waits for its page, under token 6. -/
def parkedOnPage : Park := ⟨1, 6, [], 0x20000, 0, false, .none, none⟩

/-- A group with one lane more than a group of the machine has, that lane parked. -/
def crowdedGroup : Group :=
  { (default : Group) with lanes := List.replicate 32 default ++ [{ (default : Lane) with parked := some parkedOnPage }] }

def crowded : State := { State.reset with groups := [crowdedGroup] }

/-- A replay goes over lanes 0 to 31 of a group, and lane 32 stays parked. -/
theorem crowded_replayed : ((replay crowded 0 none).lane 0 0 32).parked = some parkedOnPage := by decide +kernel

/-- Refutes O45: a replay leaves lane 32 of a group of 33 lanes parked. The clause on a replay speaks of every lane in the group's list, and does
not ask, as the clause on the unrecoverable mode does, that there be 32. -/
theorem not_replayAndInvalidation : ¬ Obligations.ReplayAndInvalidation := by
  intro h
  obtain ⟨-, replays, -⟩ := h crowded 0 (by decide)
  obtain ⟨t, ht, -, -, lanes⟩ := replays 0 (.fltreplayAll 0) (by simp) (by decide)
  obtain ⟨g, hg, released⟩ := lanes crowdedGroup (.head _) rfl ⟨by decide, fun g hg _ _ => List.mem_singleton.1 hg⟩
  obtain ⟨free, -⟩ := released 32 parkedOnPage (by decide) rfl
  obtain rfl : replay crowded 0 none = t := Host.Outcome.next.inj ht
  have stays := crowded_replayed
  rw [State.lane, show (replay crowded 0 none).group? 0 0 = some g from hg] at stays
  simp only at stays
  rw [free (.inl rfl)] at stays
  exact absurd stays nofun

end Sys2Proof.Machine

/-!
Two-operand integer words on V and on W registers (R367 to R370, R372).
-/
namespace Sys2Proof.Machine

/-! ## The values -/

theorem add_eq_ofInt {n : Nat} (x y : BitVec n) : x + y = BitVec.ofInt n (x.toInt + y.toInt) := by
  rw [BitVec.ofInt_add, BitVec.ofInt_toInt, BitVec.ofInt_toInt]

theorem sub_eq_ofInt {n : Nat} (x y : BitVec n) : x - y = BitVec.ofInt n (x.toInt - y.toInt) := by
  apply BitVec.eq_of_toInt_eq
  rw [BitVec.toInt_sub, BitVec.toInt_ofInt]

theorem mul_eq_ofInt {n : Nat} (x y : BitVec n) : x * y = BitVec.ofInt n (x.toInt * y.toInt) := by
  rw [BitVec.ofInt_mul, BitVec.ofInt_toInt, BitVec.ofInt_toInt]

theorem minS_eq {n : Nat} (x y : BitVec n) : minS n x y = BitVec.ofInt n (min x.toInt y.toInt) := by
  rw [minS, BitVec.slt_eq_decide]
  by_cases h : x.toInt < y.toInt
  · simp [h, Int.min_eq_left h.le]
  · simp [h, Int.min_eq_right (Int.not_lt.1 h)]

theorem maxS_eq {n : Nat} (x y : BitVec n) : maxS n x y = BitVec.ofInt n (max x.toInt y.toInt) := by
  rw [maxS, BitVec.slt_eq_decide]
  by_cases h : x.toInt < y.toInt
  · simp [h, Int.max_eq_right h.le]
  · simp [h, Int.max_eq_left (Int.not_lt.1 h)]

theorem minN_eq {n : Nat} (x y : BitVec n) : minN n x y = BitVec.ofNat n (min x.toNat y.toNat) := by
  by_cases h : x.toNat < y.toNat
  · simp [minN, BitVec.lt_def, h, Nat.min_eq_left h.le]
  · simp [minN, BitVec.lt_def, h, Nat.min_eq_right (Nat.not_lt.1 h)]

theorem maxN_eq {n : Nat} (x y : BitVec n) : maxN n x y = BitVec.ofNat n (max x.toNat y.toNat) := by
  by_cases h : x.toNat < y.toNat
  · simp [maxN, BitVec.lt_def, h, Nat.max_eq_right h.le]
  · simp [maxN, BitVec.lt_def, h, Nat.max_eq_left (Nat.not_lt.1 h)]

/-- A count from the width on shifts every bit out. -/
theorem shlN_eq {n : Nat} (x : BitVec n) (c : Nat) : shlN n x c = BitVec.ofNat n (x.toNat * 2 ^ c) := by
  apply BitVec.eq_of_toNat_eq
  rw [shlN]
  split
  next => simp [Nat.shiftLeft_eq]
  next h =>
    have : 2 ^ n ∣ x.toNat * 2 ^ c := (Nat.pow_dvd_pow 2 (Nat.not_lt.1 h)).mul_left _
    simp [Nat.mod_eq_zero_of_dvd this]

theorem shrN_eq {n : Nat} (x : BitVec n) (c : Nat) : shrN n x c = BitVec.ofNat n (x.toNat / 2 ^ c) := by
  apply BitVec.eq_of_toNat_eq
  have small : x.toNat / 2 ^ c < 2 ^ n := (Nat.div_le_self _ _).trans_lt x.isLt
  rw [shrN, BitVec.toNat_ofNat, Nat.mod_eq_of_lt small]
  split
  next => rw [BitVec.toNat_ushiftRight, Nat.shiftRight_eq_div_pow]
  next h =>
    rw [Nat.div_eq_of_lt (x.isLt.trans_le (Nat.pow_le_pow_right Nat.two_pos (Nat.not_lt.1 h)))]
    rfl

/-- From the width on every bit is the sign: a number of `n` bits divided by `2 ^ n` or more rounds down to 0 or -1. -/
theorem sraN_eq {n : Nat} (x : BitVec n) (c : Nat) : sraN n x c = BitVec.ofInt n (x.toInt / 2 ^ c) := by
  have lo := BitVec.le_toInt x
  have hi := BitVec.toInt_lt (x := x)
  have shift : x.toInt / 2 ^ min c (n - 1) = x.toInt / 2 ^ c := by
    rcases Nat.le_total c (n - 1) with h | h
    · rw [Nat.min_eq_left h]
    · rw [Nat.min_eq_right h]
      have grows : (2 : Int) ^ (n - 1) ≤ 2 ^ c := by exact_mod_cast Nat.pow_le_pow_right Nat.two_pos h
      rcases Int.lt_or_le x.toInt 0 with neg | pos
      · rw [Int.ediv_eq_neg_one_of_neg_of_le neg (by omega), Int.ediv_eq_neg_one_of_neg_of_le neg (by omega)]
      · rw [Int.ediv_eq_zero_of_lt pos (by omega), Int.ediv_eq_zero_of_lt pos (by omega)]
  apply BitVec.eq_of_toInt_eq
  rw [sraN, BitVec.sshiftRight, BitVec.toInt_ofInt, BitVec.toInt_ofInt, Int.shiftRight_eq_div_pow]
  norm_cast at shift ⊢
  rw [shift]

/-- The bits that a rotation shifts out at the top come back at the bottom, where the shift has left zeros. -/
theorem rotN_eq {n : Nat} (hn : 0 < n) (x : BitVec n) (c : Nat) :
    rotN n x c = BitVec.ofNat n (x.toNat * 2 ^ (c % n) + x.toNat / 2 ^ (n - c % n)) := by
  apply BitVec.eq_of_toNat_eq
  rw [rotN, BitVec.toNat_rotateLeft, BitVec.toNat_ofNat, Nat.mod_mod, Nat.shiftLeft_eq, Nat.shiftRight_eq_div_pow]
  have hc := (Nat.mod_lt c hn).le
  generalize c % n = r at hc ⊢
  have whole : 2 ^ n = 2 ^ r * 2 ^ (n - r) := by rw [← pow_add, Nat.add_sub_cancel' hc]
  have low : x.toNat / 2 ^ (n - r) < 2 ^ r := Nat.div_lt_of_lt_mul (by rw [mul_comm, ← whole]; exact x.isLt)
  have high : x.toNat * 2 ^ r % 2 ^ n = 2 ^ r * (x.toNat % 2 ^ (n - r)) := by rw [whole, mul_comm, Nat.mul_mod_mul_left]
  have fits : 2 ^ r * (x.toNat % 2 ^ (n - r)) + x.toNat / 2 ^ (n - r) < 2 ^ n :=
    calc _ < 2 ^ r * (x.toNat % 2 ^ (n - r)) + 2 ^ r := Nat.add_lt_add_left low _
      _ = 2 ^ r * (x.toNat % 2 ^ (n - r) + 1) := by ring
      _ ≤ 2 ^ n := whole ▸ Nat.mul_le_mul_left _ (Nat.mod_lt _ (Nat.two_pow_pos _))
  rw [← Nat.mod_add_mod, high, Nat.mod_eq_of_lt fits, Nat.two_pow_add_eq_or_of_lt low]

/-- The low `k` bits read as a signed number. -/
theorem signedOf_eq_bmod {k : Nat} (hk : 0 < k) (x : Nat) : signedOf k x = Int.bmod x (2 ^ k) := by
  obtain ⟨m, rfl⟩ := Nat.exists_eq_add_one_of_ne_zero hk.ne'
  have half : ((2 ^ (m + 1) : Nat) + 1 : Int) / 2 = (2 ^ m : Nat) := by rw [pow_succ]; omega
  rw [signedOf, Int.bmod_def, half]
  norm_cast

theorem bfe32_unsigned_eq (x p : Word32) : bfe32 false x p = BitVec.ofNat 32
    (x.toNat / 2 ^ (p.toNat % 32) % 2 ^ min (min (p.toNat / 256 % 64) 32) (32 - p.toNat % 32)) := by
  rw [bfe32, fieldSpec, min_comm 32]
  dsimp only
  split
  next h => simp [h, Nat.mod_one]
  next => rfl

theorem bfe32_signed_eq (x p : Word32) : bfe32 true x p = BitVec.ofInt 32 (Int.bmod (x.toNat / 2 ^ (p.toNat % 32) : Nat)
    (2 ^ min (min (p.toNat / 256 % 64) 32) (32 - p.toNat % 32))) := by
  rw [bfe32, fieldSpec, min_comm 32]
  dsimp only
  split
  next h => simp [h]
  next h =>
    rw [if_pos rfl, signedOf_eq_bmod (Nat.pos_of_ne_zero h)]
    exact congrArg _ (by exact_mod_cast Int.emod_bmod (x.toNat / 2 ^ (p.toNat % 32) : Nat) _)

/-- `lea` adds the scaled signed index (R367). -/
theorem lea64_eq (f : Nat) (x : Word64) (y : Word32) : lea64 f x y = BitVec.ofInt 64 (x.toInt + y.toInt * 2 ^ f) := by
  rw [lea64, BitVec.ofInt_add, BitVec.ofInt_toInt]

/-! ## The words -/

section shapes
variable {s : State} {g : Group} {gd : Guard} {d a b : Nat} {i : Instr}

/-- A word of shape V, V, V that computes `op` has the value of any function that agrees with `op`. -/
theorem laneVVV_word (fits : LaneFits s g ⟨[.v a, .v b], [.v d], true⟩) {op f f' : Word32 → Word32 → Word32}
    (runs : exec i s = laneCompute s gd (formV d [a, b]) (laneVVV op d a b)) (hf : f = f') (value : ∀ x y, op x y = f' x y) :
    ∃ t, exec i s = .next t ∧ LaneWord s t g g gd ⟨[.v a, .v b], [.v d], true⟩ (fun _ => noFlags)
      fun l x => dstV g x d (f (srcV g l (g.lane l) a) (srcV g l (g.lane l) b)) := by
  obtain ⟨t, ht, word⟩ := laneCompute_word (gd := gd) fits (laneVVV op d a b) fun l x => by simp [laneVVV]
  exact ⟨t, runs.trans ht, word.congr rfl fun l => by simp [laneVVV, hf, value]⟩

/-- A word of shape W, W, W, likewise. -/
theorem laneWWW_word (fits : LaneFits s g ⟨[.w a, .w b], [.w d], true⟩) {op f f' : Word64 → Word64 → Word64}
    (runs : exec i s = laneCompute s gd (formW d [a, b]) (laneWWW op d a b)) (hf : f = f') (value : ∀ x y, op x y = f' x y) :
    ∃ t, exec i s = .next t ∧ LaneWord s t g g gd ⟨[.w a, .w b], [.w d], true⟩ (fun _ => noFlags)
      fun l x => dstW g x d (f (srcW g (g.lane l) a) (srcW g (g.lane l) b)) := by
  obtain ⟨t, ht, word⟩ := laneCompute_word (gd := gd) fits (laneWWW op d a b) fun l x => by simp [laneWWW]
  exact ⟨t, runs.trans ht, word.congr rfl fun l => by simp [laneWWW, hf, value]⟩

/-- A word of shape W, W, V, likewise. -/
theorem laneWWV_word (fits : LaneFits s g ⟨[.w a, .v b], [.w d], true⟩) {op f f' : Word64 → Word32 → Word64}
    (runs : exec i s = laneCompute s gd ⟨[.w a, .v b], [.w d], true⟩
      fun g l x => (dstW g x d (op (srcW g x a) (srcV g l x b)), noFlags)) (hf : f = f') (value : ∀ x y, op x y = f' x y) :
    ∃ t, exec i s = .next t ∧ LaneWord s t g g gd ⟨[.w a, .v b], [.w d], true⟩ (fun _ => noFlags)
      fun l x => dstW g x d (f (srcW g (g.lane l) a) (srcV g l (g.lane l) b)) := by
  obtain ⟨t, ht, word⟩ := laneCompute_word (gd := gd) fits (fun g l x => (dstW g x d (op (srcW g x a) (srcV g l x b)), noFlags))
    fun l x => by simp
  exact ⟨t, runs.trans ht, word.congr rfl fun l => by simp [hf, value]⟩

end shapes

theorem integerTwoOperand32 : Rule.IntegerTwoOperand32 := by
  intro s g gd d a b i f h fits
  simp only [List.mem_cons, List.not_mem_nil, or_false, Prod.mk.injEq] at h
  rcases h with ⟨rfl, hf⟩ | ⟨rfl, hf⟩ | ⟨rfl, hf⟩ | ⟨rfl, hf⟩ | ⟨rfl, hf⟩ | ⟨rfl, hf⟩ | ⟨rfl, hf⟩ | ⟨rfl, hf⟩ | ⟨rfl, hf⟩ |
    ⟨rfl, hf⟩ | ⟨rfl, hf⟩ | ⟨rfl, hf⟩ | ⟨rfl, hf⟩ | ⟨rfl, hf⟩ | ⟨rfl, hf⟩ | ⟨rfl, hf⟩ | ⟨rfl, hf⟩ | ⟨rfl, hf⟩
  · exact laneVVV_word fits rfl hf add_eq_ofInt
  · exact laneVVV_word fits rfl hf sub_eq_ofInt
  · exact laneVVV_word fits rfl hf mul_eq_ofInt
  · exact laneVVV_word fits rfl hf fun _ _ => rfl
  · exact laneVVV_word fits rfl hf fun _ _ => rfl
  · exact laneVVV_word fits rfl hf minS_eq
  · exact laneVVV_word fits rfl hf maxS_eq
  · exact laneVVV_word fits rfl hf minN_eq
  · exact laneVVV_word fits rfl hf maxN_eq
  · exact laneVVV_word fits rfl hf fun _ _ => rfl
  · exact laneVVV_word fits rfl hf fun _ _ => rfl
  · exact laneVVV_word fits rfl hf fun _ _ => rfl
  · exact laneVVV_word (op := fun x y => shlN 32 x y.toNat) fits rfl hf fun x y => shlN_eq x y.toNat
  · exact laneVVV_word (op := fun x y => shrN 32 x y.toNat) fits rfl hf fun x y => shrN_eq x y.toNat
  · exact laneVVV_word (op := fun x y => sraN 32 x y.toNat) fits rfl hf fun x y => sraN_eq x y.toNat
  · exact laneVVV_word (op := fun x y => rotN 32 x y.toNat) fits rfl hf fun x y => rotN_eq (by decide) x y.toNat
  · exact laneVVV_word fits rfl hf bfe32_unsigned_eq
  · exact laneVVV_word fits rfl hf bfe32_signed_eq

theorem integerTwoOperand64 : Rule.IntegerTwoOperand64 := by
  refine ⟨fun s g gd d a b i f h fits => ?_, fun s g gd d a b i f h fits => ?_⟩
  · simp only [List.mem_cons, List.not_mem_nil, or_false, Prod.mk.injEq] at h
    rcases h with ⟨rfl, hf⟩ | ⟨rfl, hf⟩ | ⟨rfl, hf⟩ | ⟨rfl, hf⟩ | ⟨rfl, hf⟩ | ⟨rfl, hf⟩ | ⟨rfl, hf⟩ | ⟨rfl, hf⟩ | ⟨rfl, hf⟩
    · exact laneWWW_word fits rfl hf add_eq_ofInt
    · exact laneWWW_word fits rfl hf sub_eq_ofInt
    · exact laneWWW_word fits rfl hf mul_eq_ofInt
    · exact laneWWW_word fits rfl hf fun _ _ => rfl
    · exact laneWWW_word fits rfl hf fun _ _ => rfl
    · exact laneWWW_word fits rfl hf minS_eq
    · exact laneWWW_word fits rfl hf maxS_eq
    · exact laneWWW_word fits rfl hf minN_eq
    · exact laneWWW_word fits rfl hf maxN_eq
  · simp only [List.mem_cons, List.not_mem_nil, or_false, Prod.mk.injEq] at h
    rcases h with ⟨rfl, hf⟩ | ⟨rfl, hf⟩ | ⟨rfl, hf⟩ | ⟨rfl, hf⟩ | ⟨rfl, hf⟩ | ⟨rfl, hf⟩ | ⟨rfl, hf⟩ | ⟨rfl, hf⟩ | ⟨rfl, hf⟩
    · exact laneWWV_word (op := fun x y => shlN 64 x y.toNat) fits rfl hf fun x y => shlN_eq x y.toNat
    · exact laneWWV_word (op := fun x y => shrN 64 x y.toNat) fits rfl hf fun x y => shrN_eq x y.toNat
    · exact laneWWV_word (op := fun x y => sraN 64 x y.toNat) fits rfl hf fun x y => sraN_eq x y.toNat
    · exact laneWWV_word (op := fun x y => rotN 64 x y.toNat) fits rfl hf fun x y => rotN_eq (by decide) x y.toNat
    · exact laneWWV_word (op := lea64 0) fits rfl hf fun x y => by rw [lea64_eq, pow_zero, mul_one]
    · exact laneWWV_word (op := lea64 1) fits rfl hf (lea64_eq 1)
    · exact laneWWV_word (op := lea64 2) fits rfl hf (lea64_eq 2)
    · exact laneWWV_word (op := lea64 3) fits rfl hf (lea64_eq 3)
    · exact laneWWV_word (op := lea64 4) fits rfl hf (lea64_eq 4)

/-- Settles O8: each word is a lane computation whose value is that of exact arithmetic. -/
theorem integerTwoOperand : Obligations.IntegerTwoOperand := ⟨integerTwoOperand32, integerTwoOperand64⟩

end Sys2Proof.Machine

/-!
Conversions (R384 to R386).
-/
namespace Sys2Proof.Machine

/-! ## Draws -/

/-- `n` draws move a lane's generator `n` positions on and leave the rest of the lane. -/
theorem laneDraws_lane (x : Lane) (gl n : Nat) : (laneDraws x gl n).2 = { x with rngPos := x.rngPos + BitVec.ofNat 64 n } := by
  induction n generalizing x with
  | zero => simp [laneDraws]
  | succ n ih =>
    show (laneDraws (laneDraw x gl).2 gl n).2 = _
    have moved : x.rngPos + 1 + BitVec.ofNat 64 n = x.rngPos + BitVec.ofNat 64 (n + 1) := by
      rw [Nat.add_comm n 1, BitVec.ofNat_add, ← BitVec.add_assoc]
      rfl
    rw [ih, ← moved]
    rfl

/-- What is drawn depends on the lane's generator alone. -/
theorem laneDraws_drawn {x y : Lane} (key : x.rngKey = y.rngKey) (pos : x.rngPos = y.rngPos) (str : x.rngStr = y.rngStr) (gl n : Nat) :
    (laneDraws x gl n).1 = (laneDraws y gl n).1 := by
  induction n generalizing x y with
  | zero => rfl
  | succ n ih =>
    have rest := ih (x := (laneDraw x gl).2) (y := (laneDraw y gl).2) key (congrArg (· + 1) pos) str
    simp only [laneDraws, laneDraw] at rest ⊢
    rw [rest, key, pos, str]

theorem laneDraws_passed (s : State) (g : Group) (l gl n : Nat) : (laneDraws (passed? s g l) gl n).1 = (laneDraws (g.lane l) gl n).1 :=
  laneDraws_drawn (by simp) (by simp) (by simp) gl n

/-! ## The words -/

section words
variable {s : State} {g : Group} {gd : Guard} {d a c n : Nat}

theorem cvt_word {st dt r : Nat} (fits : LaneFits s g ⟨[cvtNamed st a], [cvtNamed dt d], true⟩) :
    let src (l : Nat) : Nat := if codeBits st = 64 then (srcW g (g.lane l) a).toNat else (srcV g l (g.lane l) a).toNat
    let draws := if convertDraws st dt (modeOf r) then 1 else 0
    let q (l : Nat) : Rounded := convert st dt (modeOf r) ((laneDraws (g.lane l) (g.lane l).glob draws).1.getD 0 0) (src l)
    ∃ t, exec (.cvt gd d a st dt r) s = .next t ∧
      LaneWord s t g g gd ⟨[cvtNamed st a], [cvtNamed dt d], true⟩ (fun l => (q l).flags) fun l x =>
        let x := { x with rngPos := x.rngPos + BitVec.ofNat 64 draws }
        if codeBits dt = 64 then dstW g x d (BitVec.ofNat 64 (q l).code) else dstV g x d (BitVec.ofNat 32 (q l).code) := by
  intro src draws q
  obtain ⟨t, ht, word⟩ := laneCompute_word (gd := gd) fits (effCvt d a st dt r) fun l x => by
    simp only [effCvt]
    split <;> simp
  have source (l : Nat) : cvtSource st a g l (passed? s g l) = src l := by simp [cvtSource, src]
  refine ⟨t, ht, word.congr rfl fun l => ?_⟩
  simp only [effCvt, laneDraws_lane, laneDraws_passed, passed?_glob, source]
  rfl

theorem cvtq_word (fits : LaneFits s g ⟨[.a a], [.t d, .v c], true⟩) :
    let sl := slotOf (formatOf s g n)
    let row (l : Nat) : List Nat := if (homeOf s g l).isInvalid a then List.replicate 32 0x7FC0DEAD
      else (List.range 32).map (wordAt (readA g (g.lane l) a))
    let q (l : Nat) := quantRow sl (row l) (laneDraws (g.lane l) (g.lane l).glob (quantDraws sl (row l))).1
    ∃ t, exec (.cvtq gd d a c n) s = .next t ∧
      LaneWord s t g g gd ⟨[.a a], [.t d, .v c], true⟩ (fun l => (q l).2.2) fun l x =>
        let x := { x with rngPos := x.rngPos + BitVec.ofNat 64 (quantDraws sl (row l)) }
        dstV g (writeT g x d (fill64 (q l).1)) c (BitVec.ofNat 32 (q l).2.1) := by
  intro sl row q
  obtain ⟨t, ht, word⟩ := laneCompute_word (gd := gd) fits (homed s (effCvtq (formatOf s g n) d a c)) fun l x => by simp [homed, effCvtq]
  have rowOf (l : Nat) : rowOfA (asHome s g l) (passed? s g l) a = row l := by
    simp only [rowOfA, readA_passed?]
    rfl
  refine ⟨t, (laneComputeWith_eq fits.1 gd _ _).trans ht, word.congr rfl fun l => ?_⟩
  simp only [homed, effCvtq, laneDraws_lane, laneDraws_passed, passed?_glob, rowOf]
  rfl

/-- Clearing the mark of A(d) where all 32 lanes have executed the word. -/
def Group.clearedBy (g : Group) (act : List Nat) (d : Nat) (h : Group) : Group := if coversGroup g act then h.clearInvalid d else h

theorem clearedBy_covers {g : Group} {act : List Nat} (h : coversGroup g act = true) (d : Nat) :
    g.clearedBy act d = fun x => x.clearInvalid d := by
  funext x
  exact if_pos h

theorem clearedBy_partial {g : Group} {act : List Nat} (h : ¬coversGroup g act = true) (d : Nat) : g.clearedBy act d = fun x => x := by
  funext x
  exact if_neg h

theorem groupOwn_clearedBy (g : Group) (act : List Nat) (d : Nat) : GroupOwn (g.clearedBy act d) where
  core h := by unfold Group.clearedBy; split <;> rfl
  slot h := by unfold Group.clearedBy; split <;> rfl
  lanes h := by unfold Group.clearedBy; split <;> rfl
  loops h := by unfold Group.clearedBy; split <;> rfl
  ldep h := by unfold Group.clearedBy; split <;> rfl
  withFlow h ls vs n := by unfold Group.clearedBy; split <;> rfl
  raised h g act f := by
    unfold Group.clearedBy Group.raised
    split
    · unfold Group.clearInvalid; split <;> rfl
    · rfl

/-- `dqv` computes in its lanes and then clears the mark of its destination. -/
theorem execDqv_eq (hg : s.issuing? = some g) : exec (.dqv gd d a c n) s =
    laneThen s gd (dqvForm s d a c n) (effDqv (formatOf s g n) d a c) (g.clearedBy (activeLanes g gd s) d) := by
  have id_ (t : State) : t.updGroup s.issue.core s.issue.slot (fun h => h) = t := by simp [State.updGroup]
  show Host.Outcome.next _ = Host.Outcome.next _
  unfold laneIssue
  simp only [hg]
  by_cases covers : coversGroup g (activeLanes g gd s) = true
  · simp only [clearedBy_covers covers, covers, if_true]
  · simp only [clearedBy_partial covers, covers, Bool.false_eq_true, if_false, id_]

theorem dqv_word (fits : LaneFits s g (dqvForm s d a c n)) :
    let r (l : Nat) := dequantRow (slotOf (formatOf s g n)) ((readT g (g.lane l) a).map BitVec.toNat) (srcV g l (g.lane l) c).toNat
    ∃ t, exec (.dqv gd d a c n) s = .next t ∧
      LaneWord s t g (if coversGroup g (activeLanes g gd s) then { g with invalidA := g.invalidA &&& ~~~(1#8 <<< d) } else g) gd
        (dqvForm s d a c n) (fun l => (r l).2) fun l x => writeA g x d (bytesOfWords (r l).1) := by
  intro r
  rw [execDqv_eq fits.1]
  obtain ⟨t, ht, word⟩ := laneThen_word (gd := gd) fits (effDqv (formatOf s g n) d a c) (groupOwn_clearedBy g (activeLanes g gd s) d)
    fun l x => by simp [effDqv]
  exact ⟨t, ht, word.congr rfl fun l => by simp only [effDqv, readT_passed?, srcV_passed?, r]⟩

end words

/-- Settles O15: each conversion is a lane computation; what it draws and reads is the lane's as it stood at issue. -/
theorem conversions : Obligations.Conversions :=
  fun _ _ _ _ _ _ _ => ⟨fun _ _ _ fits => cvt_word fits, fun fits => cvtq_word fits, fun fits => dqv_word fits⟩

end Sys2Proof.Machine

/-!
Statements on launches, packets, grids and commands that fail where memory is not in canonical form (`MemOk`), since they give the bytes after a write for
every state.
-/
namespace Sys2Proof.Machine

/-- The disordered state whose partition 0 has the first 4 KiB of memory, named by their addresses in the physical address space. -/
def disorderedPart : State := disordered.updPart 0 fun q => { q with setup := { q.setup with ranges := [(0, 4096)] } }

/-- The address of byte 64 in the physical address space. -/
def physical64 : Nat := 2 ^ 62 + 64

/-! ## A copy engine -/

/-- A fill of one byte with 0. -/
def zeroFill : CopyJob := ⟨1, 1, 1, 0, physical64, 0, 0, 0, 0, 0, true⟩

def zeroFillCmd : EngCmd := { (default : EngCmd) with id := 7, kind := .copy, issuer := .packet 0 0 [], body := .copy zeroFill, started := true }

/-- That command at work. -/
def withZeroFill : State := { disorderedPart with eng := { disorderedPart.eng with cmds := [zeroFillCmd] } }

/-- Refutes O50: the fill writes 0 to byte 64, and byte 3, at which it is not aimed, shows 2. The state's memory is not in canonical form, which
the statement does not ask for. -/
theorem not_commandsRun : ¬ Obligations.CommandsRun := by
  intro h
  obtain ⟨-, running, -⟩ := h withZeroFill 7 zeroFillCmd rfl
  obtain ⟨chunks, -⟩ := running rfl rfl rfl rfl (by decide +kernel)
  obtain ⟨filled, -⟩ := chunks zeroFill rfl (by decide) withZeroFill _ (.phys 64)
    (engPlaces_of_spanPlaces (by decide +kernel) (eq_mk_of_snd (by decide +kernel))) (by decide +kernel)
  have dram (u : State) (k : Nat) (hk : k < 1) : ((Place.phys 64).plus k).own u ∧ ∀ x, (Place.phys 64).plus k = .phys x → regionOf u.links x ≠ .outside := by
    have far := disordered_dram u (n := 1) (by decide) k hk
    refine ⟨fun d => by simp [far], fun x hx => ?_⟩
    obtain rfl : 64 + k = x := Place.phys.inj hx
    simp [far]
  obtain ⟨t, ht, -, bytes⟩ := filled rfl rfl ⟨by decide +kernel, by decide +kernel, by decide +kernel, dram _⟩
  exact byteAfter_ne ht ((bytes (.phys 3) nofun).trans (by decide +kernel)) (by decide +kernel)

/-! ## The end of a grid -/

/-- A grid without teams or children, whose tumbler at byte 64 it lowers by 1. -/
def lastGrid : Grid := { (default : Grid) with id := 9, rcd := { (default : LaunchRec) with tumb := physical64, amount := 1 } }

def withLastGrid : State := { disorderedPart with grids := [lastGrid] }

/-- Refutes O49: the tumbler goes from 1 to 0, and byte 3, at which the decrement is not aimed, shows 2. The state's memory is not in canonical
form, which the statement does not ask for. -/
theorem not_gridsAndNodes : ¬ Obligations.GridsAndNodes := by
  rintro ⟨grids, -⟩
  obtain ⟨-, -, -, ends⟩ := grids withLastGrid 0 0 lastGrid rfl
  obtain ⟨-, -, lowered⟩ := ends rfl (by decide) (List.forall_mem_nil _)
  obtain ⟨t, ht, -, bytes⟩ := lowered _ 64 rfl (by decide) (eq_mk_of_snd (by decide +kernel)) (by decide +kernel) (by decide +kernel)
    (by decide +kernel) (List.forall_mem_nil _) (List.forall_mem_nil _) (by decide +kernel)
    (fun k hk => by simp [disordered_dram withLastGrid (n := 8) (by decide) k hk])
  exact byteAfter_ne ht ((bytes (.phys 3) nofun).trans (by decide +kernel)) (by decide +kernel)

/-! ## A packet -/

/-- A `NOP` packet in the slot at byte 64. -/
def nopAt64 : Packet := ⟨physical64, 1, [1]⟩

/-- A stream whose ring is that slot, and which has read the packet. -/
def nopStream : Stream :=
  { (default : Stream) with qbase := physical64, en := true, seen := 1, state := .reading, packet := some nopAt64 }

def withNopStream : State := disorderedPart.updPart 0 fun q => { q with streams := [nopStream] }

/-- Refutes O48: the slot of a `NOP` is zeroed, and byte 3, which the slot does not hold, shows 2. The state's memory is not in canonical form,
which the statement does not ask for. -/
theorem not_packets : ¬ Obligations.Packets := by
  rintro ⟨effects, -⟩
  obtain ⟨reading, -⟩ := effects withNopStream 0 0 nopStream nopAt64 rfl rfl rfl rfl (by decide) rfl rfl
  obtain ⟨nop, -⟩ := reading rfl
  obtain ⟨t, ht, ⟨-, -, -, -, bytes, -⟩, -⟩ := nop rfl
  have kept : readByte t (.phys 3) = 0 := (bytes (.phys 3) nofun).elim (fun h => h.trans (by decide +kernel)) id
  exact byteAfter_ne ht kept (by decide +kernel)

/-! ## A launch -/

section launch
open Sys2Proof.Tests

/-- A group of the one-team machine that launches into the queue of `queueFields` and has reserved its first slot, at 0x30000. Byte 3 of the slot
stands behind byte 9 in memory. -/
def withReservedSlot : State :=
  let s := (blockS queueFields).updGroup 0 0 fun g => { g with lanes := g.lanes.map fun x => { x with reserved := some 0 } }
  { s with mem := s.mem ++ [(0x30009, 1), (0x30003, 2)] }

/-- An answer with a state and a value is the pair of the two. -/
theorem eq_some_of_snd {α β : Type} {o : Option (α × β)} {b : β} (h : o.map Prod.snd = some b) (a : α) :
    o = some ((o.map Prod.fst).getD a, b) := by
  cases o with
  | none => cases h
  | some x => simp at h; simp [← h]

/-- The state after the queue's descriptor has been read. -/
def descriptorRead : State :=
  ((blockRead (advance withReservedSlot) (grp withReservedSlot) 0x20000 32).map Prod.fst).getD withReservedSlot

/-- Refutes O39: bytes 3 and 9 of the packet are 0; the write of byte 9 takes away the cell that hides byte 3, which then shows 2. The state's
memory is not in canonical form, which the statement does not ask for. -/
theorem not_engineCommandsAndLaunches : ¬ Obligations.EngineCommandsAndLaunches := by
  rintro ⟨-, launches⟩
  have sent := (launches withReservedSlot descriptorRead (grp withReservedSlot) oneGrid 7 9 8 0 0 (Tests.blockOf 32 queueFields)
    (by unfold GroupFits; decide +kernel) (by decide +kernel) (by decide +kernel) (by decide +kernel) (by decide +kernel) (by decide +kernel)
    (eq_some_of_snd (by decide +kernel) _) (by decide +kernel) (by decide +kernel)).1 0 (by decide +kernel)
  obtain ⟨t, h, ht, -, -, f, -, -, -, -, -, -, -, written⟩ := sent _ (.phys 0x30000) (eq_mk_of_snd (by decide +kernel))
  have dram (w : State) (k : Nat) (hk : k < 64) :
      regionOf w.links (0x30000 + k) ≠ .outside ∧ ∀ d, regionOf w.links (0x30000 + k) ≠ .chip d := by
    have inGddr : regionOf w.links (0x30000 + k) = .gddr 0 := by rw [regionOf, if_pos (by unfold gddrSize; omega)]
    exact ⟨by simp [inGddr], fun d => by simp [inGddr]⟩
  have zero : readByte t (.phys 0x30003) = 0 :=
    (written (by decide +kernel) (by decide +kernel) ⟨_, rfl, dram _⟩ 3 (by decide)).trans (by decide +kernel)
  exact byteAfter_ne ht zero (by decide +kernel)

end launch

end Sys2Proof.Machine


/-!
What the accesses of units leave alone: their translations, reads, writes, reports and messages touch memory, the partitions' rings and counters,
and what is under way, and nothing of what runs.
-/
namespace Sys2Proof.Machine

/-- `t` differs from `s` in what accesses of units change: memory and its marks, what is under way, the partitions (their number apart), the
module's reports, and identifiers, which only grow. -/
structure Accessed (s t : State) : Prop where
  state : { t with
    mem := s.mem, scratch := s.scratch, chip := s.chip, poison := s.poison, sramPoison := s.sramPoison, ms := s.ms, parts := s.parts,
    lines := s.lines, out := s.out, pf := s.pf, caddy := s.caddy, fresh := s.fresh } = s
  length : t.parts.length = s.parts.length
  fresh : s.fresh ≤ t.fresh

theorem Accessed.refl (s : State) : Accessed s s := ⟨rfl, rfl, le_rfl⟩

theorem Accessed.trans {a b c : State} (h : Accessed a b) (k : Accessed b c) : Accessed a c := by
  refine ⟨?_, k.length.trans h.length, h.fresh.trans k.fresh⟩
  rw [← h.state, ← k.state]

/-- What does not look at what accesses change is as it was. -/
theorem Accessed.field {s t : State} (h : Accessed s t) {α : Type} (f : State → α)
    (hf : f { t with
      mem := s.mem, scratch := s.scratch, chip := s.chip, poison := s.poison, sramPoison := s.sramPoison, ms := s.ms, parts := s.parts,
      lines := s.lines, out := s.out, pf := s.pf, caddy := s.caddy, fresh := s.fresh } = f t := by rfl) : f t = f s :=
  hf.symm.trans (congrArg f h.state)

theorem Accessed.guarded {c : Prop} [Decidable c] {s t : State} (h : Accessed s t) : Accessed s (if c then t else s) := by
  split
  · exact h
  · exact .refl s

theorem Accessed.foldl {α : Type} {f : State → α → State} (h : ∀ s x, Accessed s (f s x)) (xs : List α) (s : State) :
    Accessed s (xs.foldl f s) := by
  induction xs generalizing s with
  | nil => exact .refl s
  | cons x xs ih => exact (h s x).trans (ih _)

theorem Accessed.updPart (s : State) (p : Nat) (f : Partition → Partition) : Accessed s (s.updPart p f) :=
  ⟨rfl, List.length_modify .., le_rfl⟩

theorem Accessed.of_reported {s t : State} (h : Reported s t) : Accessed s t := by
  have same := h.state
  refine ⟨?_, by rw [h.field State.parts], (h.field State.fresh).ge⟩
  rw [← same]

theorem Accessed.send (s : State) (m : OutMsg) : Accessed s (s.send m) := ⟨rfl, rfl, le_rfl⟩

theorem Accessed.dropArrived (s : State) (owner : Nat) : Accessed s (dropArrived s owner) := ⟨rfl, rfl, le_rfl⟩

theorem Accessed.raisePart (s : State) (p n : Nat) : Accessed s (raisePart s p n) := by
  unfold Machine.raisePart
  simp only
  split
  · exact (Accessed.updPart ..).trans (.send ..)
  · exact .updPart ..

/-! ### Bytes and reports -/

theorem Accessed.writeByte_phys (s : State) (a : Nat) (b : Byte) : Accessed s (writeByte s (.phys a) b) := by
  simp only [writeByte]
  split <;> exact ⟨rfl, rfl, le_rfl⟩

theorem Accessed.writeFrom_phys (s : State) (a : Nat) (bs : List Byte) : Accessed s (writeFrom s (.phys a) bs) := by
  induction bs generalizing s a with
  | nil => exact .refl s
  | cons b bs ih => exact (Accessed.writeByte_phys s a b).trans (ih ..)

theorem Accessed.clearPoison (s : State) (p : Place) (n : Nat) : Accessed s (clearPoison s p n) := ⟨rfl, rfl, le_rfl⟩

theorem Accessed.writePhys (s : State) (a : Nat) (bs : List Byte) : Accessed s (writePhys s a bs) := by
  unfold Machine.writePhys
  simp only
  have written : Accessed s (performWrite s (.phys a) bs) := (Accessed.writeFrom_phys s a bs).trans (.clearPoison ..)
  split
  · exact written.trans (.send ..)
  · exact written

theorem Accessed.putReport (s : State) (p : Nat) (bs : List Byte) : Accessed s (putReport s p bs) := by
  unfold Machine.putReport
  simp only
  split
  · exact .refl s
  · split
    · exact .updPart ..
    · exact (Accessed.writePhys ..).trans (.updPart ..)

theorem Accessed.setLines (s : State) (l : List LineRec) : Accessed s { s with lines := l } := ⟨rfl, rfl, le_rfl⟩

theorem Accessed.noteLine (s : State) (gr : Grid) (team line : Nat) : Accessed s (noteLine s gr team line) := by
  unfold Machine.noteLine
  split
  · exact .setLines ..
  · split
    · exact .refl s
    · simp only
      split
      · exact (Accessed.setLines ..).trans (.putReport ..)
      · exact .setLines ..

theorem Accessed.noteWrite (s : State) (core slot : Nat) (p : Place) (n : Nat) : Accessed s (noteWrite s core slot p n) := by
  unfold Machine.noteWrite
  split
  · exact .foldl (fun s k => .noteLine s _ _ _) _ _
  · exact .refl _

/-! ### Messages and flights -/

theorem Accessed.charge (s : State) (p c n : Nat) : Accessed s (charge s p c n) := by
  unfold Machine.charge
  simp only
  split
  · exact .refl s
  · exact .updPart ..

theorem Accessed.setMs (s : State) (m : MemSys) : Accessed s { s with ms := m } := ⟨rfl, rfl, le_rfl⟩

theorem Accessed.sendHinge (s : State) (f : Flight) (d : Nat) (b : Bool) (n : Nat) : Accessed s (sendHinge s f d b n).1 := by
  unfold Machine.sendHinge
  simp only
  exact (Accessed.setMs s _).trans (.charge ..)

theorem Accessed.sendHinge_ite (s : State) (f : Flight) (d : Nat) (b : Bool) (n : Nat) (c : Prop) [Decidable c] :
    Accessed s (if c then Machine.sendHinge s f d b n else (s, f)).1 := by
  split
  · exact .sendHinge ..
  · exact .refl s

theorem Accessed.sendOutside (s : State) (f : Flight) (k : DomainKind) (a n d : Nat) : Accessed s (sendOutside s f k a n d) := by
  unfold Machine.sendOutside
  exact (Accessed.send ..).trans (.charge ..)

/-- A flight takes an identifier. -/
theorem Accessed.launch (s : State) (f : Flight) : Accessed s { addFlight s f with fresh := s.fresh + 1 } :=
  ⟨rfl, rfl, Nat.le_succ _⟩

theorem Accessed.sendReads (s : State) (f : Flight) : Accessed s (sendReads s f) := by
  refine Accessed.foldl (fun s x => ?_) _ _
  split
  · exact .guarded (.sendOutside ..)
  · exact .refl s

theorem Accessed.sendWrites (s : State) (f : Flight) : Accessed s (sendWrites s f) := by
  refine Accessed.foldl (fun s x => ?_) _ _
  split
  · exact .sendOutside ..
  · exact .refl s

theorem Accessed.startRead (s : State) (f : Flight) (d : Dest) (ps : List ReadPart) : Accessed s (startRead s f d ps) := by
  unfold Machine.startRead
  simp only
  generalize hr : @ite (State × Flight) (_ = Stage.request) _ _ _ = r
  have sent : Accessed s r.1 := hr ▸ .sendHinge_ite ..
  refine (sent.trans (.launch r.1 r.2)).trans ?_
  split
  · exact .refl _
  · exact .sendReads ..

/-! ### Translation -/

theorem Accessed.putResidency (s : State) (p : Nat) (bs : List Byte) : Accessed s (putResidency s p bs) := by
  unfold Machine.putResidency
  simp only
  split
  · exact .refl s
  · split
    · exact .updPart ..
    · split
      · exact ((Accessed.writePhys ..).trans (.updPart ..)).trans (.of_reported (.raisePf ..))
      · exact (Accessed.writePhys ..).trans (.updPart ..)

theorem Accessed.noteResidency (s : State) (p die va kind acc lv core e : Nat) : Accessed s (noteResidency s p die va kind acc lv core e) := by
  unfold Machine.noteResidency
  split
  · exact .refl s
  · split
    · exact .refl s
    · exact (Accessed.setMs s _).trans (.putResidency ..)

theorem Accessed.translateVa (s : State) (w : Who) (acc : Acc) (va : Nat) : Accessed s (translateVa s w acc va).1 := by
  unfold Machine.translateVa
  simp only
  have added (s : State) (t : TlbEntry) : Accessed s (addTlb s t) := .setMs s _
  split
  · exact .refl s
  · split
    · exact .guarded (added ..)
    · split
      · exact .guarded (.noteResidency ..)
      · exact (Accessed.guarded (.noteResidency ..)).trans ((added ..).trans (.guarded (added ..)))

theorem Accessed.translate (s : State) (w : Who) (acc : Acc) (a : Nat) : Accessed s (translate s w acc a).1 := by
  unfold Machine.translate
  split
  · exact .refl s
  · split
    · simp only
      split <;> exact .refl s
    · split
      · exact .refl s
      · exact .translateVa ..

theorem Accessed.unitPlaces (w : Who) (acc : Acc) (n : Nat) (s : State) (a len : Nat) : Accessed s (unitPlaces n s w acc a len).1 := by
  induction n generalizing s a len with
  | zero => exact .refl s
  | succ n ih =>
    unfold Machine.unitPlaces
    split
    · exact .refl s
    · simp only
      have here := Accessed.translate s w acc a
      split
      next h => rwa [h] at here
      next s₁ p h =>
        rw [h] at here
        have rest := here.trans (ih s₁ (a + min len (65536 - a % 65536)) (len - min len (65536 - a % 65536)))
        split
        next h₂ => rwa [h₂] at rest
        next => exact rest

theorem Accessed.spanPlaces (s : State) (w : Who) (acc : Acc) (a n : Nat) : Accessed s (spanPlaces s w acc a n).1 := .unitPlaces ..

/-! ### Reads of units -/

theorem Accessed.awayPart (s : State) (owner : Nat) (w : Who) (acq : Option Nat) (p : Place) (a n : Nat) :
    Accessed s (awayPart s owner w acq p a n).1 := by
  unfold Machine.awayPart
  split
  · exact .refl s
  · unfold Machine.askAway
    split
    · exact .refl s
    · exact .startRead ..

theorem Accessed.readAway (owner : Nat) (w : Who) (acq : Option Nat) (k : Nat) (s : State) (a : Nat) (p : Place) (n : Nat) :
    Accessed s (readAway s owner w acq a k p n).1 := by
  induction k generalizing s a p n with
  | zero => exact .refl s
  | succ k ih =>
    unfold Machine.readAway
    have one := Accessed.awayPart s owner w acq p a (min n messageBytes)
    split
    next s₁ b h =>
      rw [h] at one
      split
      · exact one
      · have rest := one.trans (ih s₁ (a + messageBytes) (p.plus messageBytes) (n - messageBytes))
        split
        next h₂ => rwa [h₂] at rest
        next => exact rest
    next => exact one

theorem Accessed.readAt (s : State) (owner : Nat) (w : Who) (acq : Option Nat) (p : Place) (a n : Nat) :
    Accessed s (readAt s owner w acq p a n).1 := by
  unfold Machine.readAt
  split
  · exact .refl s
  · exact .readAway ..

theorem Accessed.unitReadPage (s : State) (owner : Nat) (w : Who) (acq : Option Nat) (acc : Acc) (a n : Nat) :
    Accessed s (unitReadPage s owner w acq acc a n).1 := by
  unfold Machine.unitReadPage
  have here := Accessed.translate s w acc a
  split
  next h => rwa [h] at here
  next h =>
    rw [h] at here
    exact here.trans (.readAt ..)

theorem Accessed.unitReadAs (s : State) (owner : Nat) (w : Who) (acq : Option Nat) (acc : Acc) (a n : Nat) :
    Accessed s (unitReadAs s owner w acq acc a n).1 := by
  unfold Machine.unitReadAs
  simp only
  split
  · exact .unitReadPage ..
  · have first := Accessed.unitReadPage s owner w acq acc a (65536 - a % 65536)
    split
    next s₁ b h =>
      rw [h] at first
      have second := first.trans (.unitReadPage s₁ owner w acq acc (a + (65536 - a % 65536)) (n - (65536 - a % 65536)))
      split
      next h₂ => rwa [h₂] at second
      next => exact second
    next => exact first

theorem Accessed.unitReads (owner : Nat) (w : Who) (acc : Acc) (xs : List (Nat × Nat)) (s : State) :
    Accessed s (unitReads s owner w acc xs).1 := by
  induction xs generalizing s with
  | nil => exact .refl s
  | cons x xs ih =>
    obtain ⟨a, n⟩ := x
    unfold Machine.unitReads
    have first : Accessed s (unitRead s owner w acc a n).1 := .unitReadAs ..
    split
    next s₁ b h =>
      rw [h] at first
      have rest := first.trans (ih s₁)
      split
      next h₂ => rwa [h₂] at rest
      next => exact rest
    next h => rwa [h] at first

theorem Accessed.unitSpan (owner : Nat) (w : Who) (acc : Acc) (k : Nat) (s : State) (a n : Nat) :
    Accessed s (unitSpan k s owner w acc a n).1 := by
  induction k generalizing s a n with
  | zero => exact .refl s
  | succ k ih =>
    unfold Machine.unitSpan
    split
    · exact .refl s
    · simp only
      have page := Accessed.unitReadPage s owner w none acc a (min n (65536 - a % 65536))
      split
      next s₁ b h =>
        rw [h] at page
        have rest := page.trans (ih s₁ (a + min n (65536 - a % 65536)) (n - min n (65536 - a % 65536)))
        split
        next h₂ => rwa [h₂] at rest
        next => exact rest
      next => exact page

/-! A read that has come to an end leaves what accesses leave. -/

theorem Accessed.of_unitAcquire {s t : State} {owner scope a n : Nat} {w : Who} {d : UnitData}
    (h : unitAcquire s owner w scope a n = (t, d)) : Accessed s t := by
  have read : Accessed s (unitAcquire s owner w scope a n).1 := .unitReadAs ..
  rwa [h] at read

theorem Accessed.of_unitRead {s t : State} {owner a n : Nat} {w : Who} {acc : Acc} {d : UnitData}
    (h : unitRead s owner w acc a n = (t, d)) : Accessed s t := by
  have read : Accessed s (unitRead s owner w acc a n).1 := .unitReadAs ..
  rwa [h] at read

theorem Accessed.of_unitReads {s t : State} {owner : Nat} {w : Who} {acc : Acc} {xs : List (Nat × Nat)} {d : Except UnitData (List (List Byte))}
    (h : Machine.unitReads s owner w acc xs = (t, d)) : Accessed s t := by
  have read := Accessed.unitReads owner w acc xs s
  rwa [h] at read

theorem Accessed.of_readSpan {s t : State} {owner a n : Nat} {w : Who} {d : UnitData} (h : readSpan s owner w a n = (t, d)) : Accessed s t := by
  have read : Accessed s (readSpan s owner w a n).1 := .unitSpan ..
  rwa [h] at read

theorem Accessed.of_spanPlaces {s t : State} {w : Who} {acc : Acc} {a n : Nat} {r : Except (Nat × Nat × Nat) (List (Place × Nat))}
    (h : Machine.spanPlaces s w acc a n = (t, r)) : Accessed s t := by
  have placed := Accessed.spanPlaces s w acc a n
  rwa [h] at placed

/-! ### Pauses -/

theorem Accessed.putFault (s : State) (p : Nat) (r : FaultRec) : Accessed s (putFault s p r) := by
  unfold Machine.putFault
  simp only
  split
  · exact (Accessed.updPart ..).trans (.raisePart ..)
  · split
    · exact ((Accessed.writePhys ..).trans (.updPart ..)).trans (.raisePart ..)
    · exact (Accessed.writePhys ..).trans (.updPart ..)

theorem Accessed.pauseUnit (s : State) (p : Nat) (r : FaultRec) : Accessed s (pauseUnit s p r).1 := by
  refine Accessed.trans ?_ (.putFault (newToken s p).2 p _)
  unfold newToken
  simp only
  split
  · exact .refl s
  · exact .updPart ..

end Sys2Proof.Machine


/-!
Chains at work (R104, R115 to R119, R122, R123, R125, R432).
-/
namespace Sys2Proof.Machine

/-! ## What writes of units leave alone -/

/-- The engines, and the number of partitions, are the same in the second state as in the first. -/
structure SameEngines (s t : State) : Prop where
  eng : t.eng = s.eng
  length : t.parts.length = s.parts.length

theorem SameEngines.refl (s : State) : SameEngines s s := ⟨rfl, rfl⟩

theorem SameEngines.trans {a b c : State} (h : SameEngines a b) (k : SameEngines b c) : SameEngines a c :=
  ⟨k.eng.trans h.eng, k.length.trans h.length⟩

theorem SameEngines.of_accessed {s t : State} (h : Accessed s t) : SameEngines s t := ⟨h.field State.eng, h.length⟩

theorem SameEngines.guarded {c : Prop} [Decidable c] {s t : State} (h : SameEngines s t) : SameEngines s (if c then t else s) := by
  split
  · exact h
  · exact .refl s

theorem SameEngines.foldl {α : Type} {f : State → α → State} (h : ∀ s x, SameEngines s (f s x)) (xs : List α) (s : State) :
    SameEngines s (xs.foldl f s) := by
  induction xs generalizing s with
  | nil => exact .refl s
  | cons x xs ih => exact (h s x).trans (ih _)

theorem SameEngines.writeFrom (s : State) (p : Place) (bs : List Byte) : SameEngines s (writeFrom s p bs) := by
  induction bs generalizing s p with
  | nil => exact .refl s
  | cons b bs ih =>
    refine SameEngines.trans ?_ (ih (writeByte s p b) (p.plus 1))
    cases p with
    | phys a => exact .of_accessed (.writeByte_phys ..)
    | _ => exact ⟨rfl, rfl⟩

theorem SameEngines.performFor (s : State) (core slot : Nat) (p : Place) (bs : List Byte) : SameEngines s (performFor s core slot p bs) :=
  (SameEngines.writeFrom s p bs).trans (.of_accessed ((Accessed.clearPoison ..).trans (.noteWrite ..)))

theorem SameEngines.performPart (s : State) (f : Flight) (p : Place) (bs : List Byte) : SameEngines s (performPart s f p bs) := by
  unfold Machine.performPart
  simp only
  have performed := SameEngines.performFor s f.core f.slot p bs
  split
  · split
    · exact performed.trans (.of_accessed (.send ..))
    · exact performed
  · exact performed

theorem SameEngines.sendWrite (s : State) (f : Flight) (stamped : Bool) : SameEngines s (sendWrite s f stamped) := by
  unfold Machine.sendWrite
  simp only
  generalize hd : performParts s _ _ = done
  generalize hm : @ite (State × Flight) (_ = Stage.request) _ _ _ = sent
  have performed : SameEngines s done.1 := hd ▸ SameEngines.foldl (fun s x => .guarded (.performPart ..)) _ s
  have sends : Accessed done.1 sent.1 := hm ▸ Accessed.sendHinge_ite ..
  have added : Accessed done.1 (addFlight sent.1 sent.2) := sends.trans (.setMs ..)
  split
  · exact performed.trans (.of_accessed added)
  · exact performed.trans (.of_accessed (added.trans (.sendWrites ..)))

theorem SameEngines.startWrite (s : State) (f : Flight) (stamped : Bool) : SameEngines s (startWrite s f stamped) := by
  have sent := SameEngines.sendWrite { s with fresh := s.fresh + 1 } { f with id := s.fresh } stamped
  exact ⟨sent.eng, sent.length⟩

theorem SameEngines.writeAway (f : Flight) (n : Nat) (s : State) (a : Nat) (p : Place) (bs : List Byte) :
    SameEngines s (writeAway s f n a p bs) := by
  induction n generalizing s a p bs with
  | zero => exact .refl s
  | succ n ih =>
    unfold Machine.writeAway
    simp only
    split
    · exact .startWrite ..
    · exact (SameEngines.startWrite ..).trans (ih ..)

theorem SameEngines.writeSpan (k : UnitWrite) (ps : List (Place × Nat)) (s : State) (a : Nat) (bs : List Byte) :
    SameEngines s (writeSpan s k a ps bs) := by
  induction ps generalizing s a bs with
  | nil => exact .refl s
  | cons p ps ih =>
    refine SameEngines.trans ?_ (ih ..)
    unfold unitWrite
    split
    · exact .performFor ..
    · exact .writeAway ..

theorem SameEngines.putError (s : State) (w : Who) (erraddr : Nat) (r : ErrRec) : SameEngines s (putError s w erraddr r) := by
  unfold Machine.putError
  split
  · exact .refl s
  · split
    next h =>
      have placed := SameEngines.of_accessed (Accessed.of_spanPlaces h)
      split
      · exact placed.trans (.of_accessed (.of_reported (.logEvent ..)))
      · exact placed.trans (.writeSpan ..)
    next h => exact .of_accessed ((Accessed.of_spanPlaces h).trans (.of_reported (.logEvent ..)))

/-! The destinations of a block whose chain halts are lanes' registers, or rows in memory (R124). -/

theorem SameEngines.updGroup (s : State) (core slot : Nat) (f : Group → Group) : SameEngines s (s.updGroup core slot f) := ⟨rfl, rfl⟩

theorem SameEngines.writeTile (s : State) (team : Nat) (c : Card) (r : RankSnap) (t : Nat) (tile : List Nat) (mark : Bool) :
    SameEngines s (writeTile s team c r t tile mark) := by
  unfold Machine.writeTile
  split
  · exact .refl s
  · simp only
    split
    · exact .refl s
    · exact (SameEngines.foldl (fun s i => .updGroup s _ _ _) _ s).trans (.updGroup ..)

theorem SameEngines.invalidRows (s : State) (j : MatrixJob) (c : Card) : SameEngines s (invalidRows s j c) := by
  refine SameEngines.foldl (fun s r => ?_) _ s
  split
  next h => exact (SameEngines.of_accessed (.of_spanPlaces h)).trans (.writeSpan ..)
  next h => exact .of_accessed (.of_spanPlaces h)

theorem SameEngines.invalidBlock (s : State) (c : EngCmd) : SameEngines s (invalidBlock s c) := by
  unfold Machine.invalidBlock
  split
  · unfold Machine.invalidate
    split
    · exact .refl s
    · simp only
      split
      · exact .invalidRows ..
      · exact .foldl (fun s r => .foldl (fun s t => .guarded (.writeTile ..)) _ s) _ s
  · exact .refl s

/-! ## A chain and its changes -/

theorem State.chain?_updChain {s : State} {id : Nat} {c : Chain} (hc : s.chain? id = some c) {f : Chain → Chain}
    (hf : ∀ y, y.id = id → (f y).id = id) : (s.updChain id f).chain? id = some (f c) := by
  have same : ((fun y : Chain => y.id == id) ∘ fun y => if y.id == id then f y else y) = fun y => y.id == id := by
    funext y
    by_cases hy : y.id = id <;> simp [hy, hf]
  have hn : c.id = id := by simpa using List.find?_some hc
  unfold State.chain? at hc ⊢
  rw [State.updChain, List.find?_map, same, hc]
  simp [hn]

theorem State.chain?_id {s : State} {id : Nat} {c : Chain} (hc : s.chain? id = some c) : c.id = id := by simpa using List.find?_some hc

theorem SameEngines.chain? {s t : State} (h : SameEngines s t) (id : Nat) : t.chain? id = s.chain? id := by
  unfold State.chain?
  rw [h.eng]

/-- What writing to its descriptor leaves of a chain: all but its pause and what it owes. -/
def Chain.steady (c : Chain) : Chain := { c with paused := none, owed := [] }
/-- What halting, and running a block, leave of a chain. -/
def Chain.plan (c : Chain) : Chain := { c.steady with halted := false, running := none }
/-- What seeing TAIL and taking NEXT leave of a chain. -/
def Chain.stance (c : Chain) : Chain := { c.plan with head := 0, tail := 0, needNext := false }

/-- Chains with the same view agree in what the view keeps. -/
theorem Chain.field_of_view {view : Chain → Chain} {c d : Chain} (h : view d = view c) {α : Type} (f : Chain → α)
    (hd : f (view d) = f d := by rfl) (hc : f (view c) = f c := by rfl) : f d = f c :=
  hd.symm.trans ((congrArg f h).trans hc)

/-- A chain of a program stays one, with the same view of it, and no partition is lost. -/
structure Follows (view : Chain → Chain) (id : Nat) (s t : State) : Prop where
  chain : ∀ c, s.chain? id = some c → c.isPrivate = false →
    t.parts.length = s.parts.length ∧ ∃ d, t.chain? id = some d ∧ d.isPrivate = false ∧ view d = view c

section follows
variable {view : Chain → Chain} {id : Nat}

theorem Follows.of_same {s t : State} (h : SameEngines s t) : Follows view id s t :=
  ⟨fun c hc hp => ⟨h.length, c, (h.chain? id).trans hc, hp, rfl⟩⟩

theorem Follows.of_accessed {s t : State} (h : Accessed s t) : Follows view id s t := .of_same (.of_accessed h)

theorem Follows.refl (s : State) : Follows view id s s := .of_same (.refl s)

theorem Follows.trans {a b c : State} (h : Follows view id a b) (k : Follows view id b c) : Follows view id a c := by
  refine ⟨fun x hx hp => ?_⟩
  obtain ⟨hl, y, hy, hq, hv⟩ := h.chain x hx hp
  obtain ⟨hm, z, hz, hr, hw⟩ := k.chain y hy hq
  exact ⟨hm.trans hl, z, hz, hr, hw.trans hv⟩

theorem Follows.updChain (s : State) {f : Chain → Chain} (hid : ∀ y, (f y).id = y.id := by exact fun _ => rfl)
    (hp : ∀ y, (f y).isPrivate = y.isPrivate := by exact fun _ => rfl) (hv : ∀ y, view (f y) = view y := by exact fun _ => rfl) :
    Follows view id s (s.updChain id f) :=
  ⟨fun c hc h => ⟨rfl, f c, State.chain?_updChain hc fun y hy => (hid y).trans hy, (hp c).trans h, hv c⟩⟩

/-- A chain is replaced by one with the same view. -/
theorem Follows.replace {s : State} {c d : Chain} (hc : s.chain? id = some c) (hid : d.id = c.id := by rfl)
    (hp : d.isPrivate = c.isPrivate := by rfl) (hv : view d = view c := by rfl) : Follows view id s (s.updChain id fun _ => d) := by
  refine ⟨fun x hx h => ?_⟩
  obtain rfl := Option.some.inj (hc.symm.trans hx)
  exact ⟨rfl, d, State.chain?_updChain hc fun _ _ => hid.trans (State.chain?_id hc), hp.trans h, hv⟩

end follows

theorem Follows.plan {id : Nat} {s t : State} (h : Follows Chain.steady id s t) : Follows Chain.plan id s t := by
  refine ⟨fun c hc hp => ?_⟩
  obtain ⟨hl, d, hd, hq, hv⟩ := h.chain c hc hp
  exact ⟨hl, d, hd, hq, congrArg (fun c : Chain => { c with halted := false, running := none }) hv⟩

theorem Follows.stance {id : Nat} {s t : State} (h : Follows Chain.plan id s t) : Follows Chain.stance id s t := by
  refine ⟨fun c hc hp => ?_⟩
  obtain ⟨hl, d, hd, hq, hv⟩ := h.chain c hc hp
  exact ⟨hl, d, hd, hq, congrArg (fun c : Chain => { c with head := 0, tail := 0, needNext := false }) hv⟩

/-! ### Writes to the descriptor, pauses and halts -/

theorem Follows.pauseChain (s : State) (ch : Chain) (cause level addr acc : Nat) :
    Follows Chain.steady ch.id s (pauseChain s ch cause level addr acc) :=
  (Follows.of_accessed (.pauseUnit ..)).trans (.updChain _)

theorem Follows.writeDesc (s : State) (ch : Chain) (off : Nat) (bs : List Byte) : Follows Chain.steady ch.id s (writeDesc s ch off bs) := by
  unfold Machine.writeDesc
  simp only
  split
  · exact .refl s
  · split
    · exact .updChain s
    · split
      next h => exact .of_same ((SameEngines.of_accessed (.of_spanPlaces h)).trans (.writeSpan ..))
      next h => exact (Follows.of_accessed (.of_spanPlaces h)).trans ((Follows.updChain _).trans (.pauseChain ..))

theorem Follows.dropCmd {view : Chain → Chain} {id : Nat} (s : State) (n : Nat) : Follows view id s (dropCmd s n) :=
  ⟨fun c hc hp => ⟨rfl, c, hc, hp, rfl⟩⟩

/-- A chain that has halted: HALTED, nothing runs, and source 258 (R122). -/
structure Halted (c : Chain) (s t : State) : Prop where
  chain : ∃ d, t.chain? c.id = some d ∧ d.isPrivate = false ∧ d.halted = true ∧ d.running = none ∧ d.plan = c.plan
  length : t.parts.length = s.parts.length
  raised : c.part < s.parts.length → (t.part c.part).istat.testBit 258 = true

/-- The end of a halt, once its record is written and its block's command is gone. -/
theorem Halted.of_raised {s v : State} {c : Chain} (dropped : Follows Chain.steady c.id s v) (hc : s.chain? c.id = some c)
    (hp : c.isPrivate = false) {d : Chain} (hd : d = { c with halted := true, running := none, paused := none }) (bs : List Byte) :
    Halted c s (raisePart (writeDesc (v.updChain c.id fun _ => d) d 34 bs) d.part 258) := by
  obtain ⟨hl, x, hx, -, -⟩ := dropped.chain c hc hp
  have put : (v.updChain c.id fun _ => d).chain? c.id = some d := State.chain?_updChain hx fun _ _ => by rw [hd]
  have written : Follows Chain.steady c.id (v.updChain c.id fun _ => d) (writeDesc (v.updChain c.id fun _ => d) d 34 bs) := by
    have w := Follows.writeDesc (v.updChain c.id fun _ => d) d 34 bs
    rwa [show d.id = c.id by rw [hd]] at w
  obtain ⟨hm, e, he, hq, hs⟩ := written.chain d put (by rw [hd]; exact hp)
  have lengths := hm.trans hl
  have part : d.part = c.part := by rw [hd]
  rw [part]
  refine ⟨⟨e, ((SameEngines.of_accessed (.raisePart ..)).chain? _).trans he, hq, ?_, ?_, ?_⟩, (Accessed.raisePart ..).length.trans lengths,
    fun part => raisePart_raises (part.trans_eq lengths.symm) 258⟩
  · exact (congrArg Chain.halted hs).trans (by rw [hd]; rfl)
  · exact (congrArg Chain.running hs).trans (by rw [hd]; rfl)
  · exact (congrArg (fun c : Chain => { c with halted := false, running := none }) hs).trans (by rw [hd])

/-- A chain of a program halts (R122). -/
theorem haltChain_halts {s : State} {c : Chain} (hc : s.chain? c.id = some c) (hp : c.isPrivate = false) (code off addr : Nat) (h : List Byte) :
    Halted c s (haltChain s c.id code off addr h) := by
  have written (e : Nat) (r : ErrRec) : Follows Chain.steady c.id s (putError s c.who e r) := .of_same (.putError ..)
  unfold haltChain
  cases hr : c.running with
  | none =>
    simp only [hc, hp, hr]
    exact .of_raised (written ..) hc hp rfl _
  | some n =>
    simp only [hc, hp, hr]
    exact .of_raised ((written ..).trans (.dropCmd ..)) hc hp rfl _

theorem Follows.haltChain (s : State) (id code off addr : Nat) (h : List Byte) : Follows Chain.plan id s (haltChain s id code off addr h) := by
  refine ⟨fun c hc hp => ?_⟩
  obtain rfl := State.chain?_id hc
  obtain ⟨⟨d, hd, hq, -, -, plan⟩, length, -⟩ := haltChain_halts hc hp code off addr h
  exact ⟨length, d, hd, hq, plan⟩

/-! ### Reads of the engine -/

theorem Follows.chainFault (s : State) (ch : Chain) (cause level addr blockAddr : Nat) :
    Follows Chain.plan ch.id s (chainFault s ch cause level addr blockAddr) := by
  unfold Machine.chainFault
  simp only
  split
  · exact (Follows.of_accessed (.dropArrived ..)).trans (.haltChain ..)
  · exact (Follows.of_accessed (.dropArrived ..)).trans (Follows.pauseChain ..).plan

theorem Follows.takeBlock (s : State) {ch : Chain} (hp : ch.isPrivate = false) (b : List Byte) :
    Follows Chain.plan ch.id s (takeBlock s ch b) := by
  unfold Machine.takeBlock
  split
  · unfold badBlock
    split
    · exact (Follows.of_same (.invalidBlock ..)).trans (.haltChain ..)
    · exact .haltChain ..
  · simp only [hp]
    exact Follows.trans (b := addCmd s (chainCmd s ch b)) ⟨fun c hc hp => ⟨rfl, c, hc, hp, rfl⟩⟩ (.updChain _)

/-- A read of the engine: its fault halts or pauses the chain, and what is done with its bytes does the rest. -/
theorem Follows.chainRead (s : State) (ch : Chain) (a n blockAddr : Nat) {k : State → List Byte → State}
    (hk : ∀ t b, Follows Chain.plan ch.id t (k t b)) : Follows Chain.plan ch.id s (chainRead s ch a n blockAddr k) := by
  unfold Machine.chainRead
  split
  next h => exact .of_accessed (.of_readSpan h)
  next h => exact (Follows.of_accessed (.of_readSpan h)).trans (.chainFault ..)
  next h => exact (Follows.of_accessed (.of_readSpan h)).trans (hk ..)

theorem Follows.headBlock (s : State) {ch : Chain} (hp : ch.isPrivate = false) : Follows Chain.plan ch.id s (headBlock s ch) := by
  have taken (t : State) (b : List Byte) : Follows Chain.plan ch.id t (Machine.takeBlock (Machine.dropArrived t ch.id) ch b) :=
    (Follows.of_accessed (.dropArrived ..)).trans (.takeBlock _ hp b)
  unfold Machine.headBlock
  split
  · exact .refl s
  · split
    · exact .haltChain ..
    · refine .chainRead s ch _ _ _ fun t b => ?_
      simp only
      split
      · exact taken t b
      · exact .chainRead t ch _ _ _ taken

/-! ### The next block -/

section moves
variable {s t : State} {c : Chain}

theorem chainRead_data {a n blockAddr : Nat} {b : List Byte} {k : State → List Byte → State} (h : readSpan s c.id c.who a n = (t, .data b)) :
    chainRead s c a n blockAddr k = k t b := by
  unfold chainRead
  rw [h]

theorem watchDesc_data {off n : Nat} {b : List Byte} {k : State → List Byte → State}
    (h : unitAcquire s c.id c.who 6 (c.desc + off) n = (t, .data b)) : watchDesc s c off n k = k t b := by
  unfold watchDesc
  rw [h]

theorem blockAddrOk_iff {a : Nat} : blockAddrOk a = true ↔ a ≠ 0 ∧ a % 64 = 0 := by simp [blockAddrOk]

theorem chainCmd_issuer (s : State) (hp : c.isPrivate = false) (b : List Byte) : (chainCmd s c b).issuer = .chain c.id := by
  simp only [chainCmd, blockCmd, hp]

theorem takeBlock_good (hp : c.isPrivate = false) {b : List Byte} (hb : kindChecks c.kind b = none) :
    takeBlock s c b = (addCmd s (chainCmd s c b)).updChain c.id fun x => { x with running := some s.fresh } := by
  simp only [takeBlock, hb, hp, Bool.false_eq_true, if_false]
  rfl

/-- What halts in a state with the same engines halts in this one. -/
theorem Halted.since {u : State} (h : Halted c u t) (same : SameEngines s u) : Halted c s t :=
  ⟨h.chain, h.length.trans same.length, fun part => h.raised (part.trans_eq same.length.symm)⟩

/-- An ill-formed block halts its chain (R122). -/
theorem takeBlock_bad (hc : s.chain? c.id = some c) (hp : c.isPrivate = false) {b : List Byte} {code off : Nat}
    (hb : kindChecks c.kind b = some (code, off)) : Halted c s (takeBlock s c b) := by
  have marked := (SameEngines.invalidBlock s (chainCmd s c b)).guarded (c := 192 ≤ b.length)
  simp only [takeBlock, hb, badBlock]
  exact (haltChain_halts ((marked.chain? _).trans hc) hp ..).since marked

/-- HEAD and STATUS are written to the descriptor, then the block at HEAD is read (R117). -/
theorem Follows.headWritten (x : Chain) (hp : x.isPrivate = false) (s : State) (head status : List Byte) :
    Follows Chain.plan x.id s (Machine.headBlock (Machine.writeDesc (Machine.writeDesc s x 0 head) x 34 status) x) :=
  ((Follows.writeDesc s x 0 head).trans (.writeDesc _ x 34 status)).plan.trans (.headBlock _ hp)

theorem Follows.readNext (hc : s.chain? c.id = some c) (hp : c.isPrivate = false) : Follows Chain.stance c.id s (readNext s c Machine.headBlock) := by
  unfold Machine.readNext Machine.chainRead
  split
  next h => exact .of_accessed (.of_readSpan h)
  next h => exact (Follows.of_accessed (.of_readSpan h)).trans (Follows.chainFault ..).stance
  next u b h =>
    have read := (Accessed.of_readSpan h).trans (.dropArrived u c.id)
    refine (Follows.of_accessed read).trans ?_
    simp only
    generalize fieldAt b 0 8 = next
    split
    · exact (Follows.haltChain ..).stance
    · have found := ((SameEngines.of_accessed read).chain? _).trans hc
      exact (Follows.replace (d := { c with head := next, needNext := false }) found).trans
        (Follows.headWritten { c with head := next, needNext := false } hp ..).stance

theorem Follows.seeChainTail (hc : s.chain? c.id = some c) (hp : c.isPrivate = false) : Follows Chain.stance c.id s (seeChainTail s c) := by
  unfold Machine.seeChainTail Machine.watchDesc
  split
  next h => exact .of_accessed (.of_unitAcquire h)
  next h => exact (Follows.of_accessed (.of_unitAcquire h)).trans (Follows.chainFault ..).stance
  next u b h =>
    have read := Accessed.of_unitAcquire h
    have found := ((SameEngines.of_accessed read).chain? _).trans hc
    refine (Follows.of_accessed read).trans ((Follows.replace (d := { c with tail := numOfBytes b }) found).trans ?_)
    have seen := State.chain?_updChain found (f := fun _ => { c with tail := numOfBytes b }) fun _ _ => rfl
    simp only
    split
    · unfold Machine.nextBlock
      split
      · exact .readNext (c := { c with tail := numOfBytes b }) seen hp
      · exact (Follows.headBlock _ (ch := { c with tail := numOfBytes b }) hp).stance
    · exact .of_accessed (.dropArrived ..)

/-! ### The chain's move -/

theorem settleDesc_settled (howed : c.owed = []) (hw : failedWrite s c.id = none) : settleDesc s c = s := by
  simp [settleDesc, hw, howed]

/-- What a loaded chain of a program does that owes nothing: it is attached, or sees TAIL. -/
theorem chainMove_loaded (hc : s.chain? c.id = some c) (hl : c.loaded = true) (hp : c.isPrivate = false) (howed : c.owed = [])
    (hw : failedWrite s c.id = none) {u : State} {d : Chain} (hu : u = if c.halted then s else attachChain s c)
    (hd : u.chain? c.id = some d) (hq : d.isPrivate = false) : chainMove s c.id =
      if !d.attached || d.halted || d.paused.isSome || d.running.isSome || !d.owed.isEmpty then u else seeChainTail u d := by
  have attach : (if c.loaded && !c.isPrivate && !c.halted then attachChain s c else s) = u := by
    rw [hu]
    cases c.halted <;> simp [hl, hp]
  simp only [chainMove, hc, settleDesc_settled howed hw, hl, Bool.not_true, Bool.and_false, Bool.false_and, Bool.false_eq_true, if_false]
  simp only [hl] at attach
  rw [attach]
  simp only [hd, hq, Bool.false_eq_true, if_false]

theorem attachChain_full (h : c.attached = true ∨ c.engine ≠ noEngine ∧ 16 ≤ chainsAt s c.kind c.engine) : attachChain s c = s := by
  unfold attachChain
  simp only
  rcases h with h | ⟨he, h⟩
  · rw [if_pos (by simp [h])]
  · rw [if_pos (by simp [he, h])]

/-- A chain that waits is attached (R432). -/
theorem attachChain_attaches (hc : s.chain? c.id = some c) (hp : c.isPrivate = false) (ha : c.attached = false) (he : c.engine ≠ noEngine)
    (hn : chainsAt s c.kind c.engine < 16) : ∃ d, (attachChain s c).chain? c.id = some d ∧ d.isPrivate = false ∧
      d.steady = Chain.steady { c with attached := true, waiting := none } := by
  have put := State.chain?_updChain hc (f := fun _ => { c with attached := true, waiting := none }) fun _ _ => rfl
  obtain ⟨-, d, hd, hq, hs⟩ := (Follows.writeDesc (s.updChain c.id fun _ => { c with attached := true, waiting := none })
    { c with attached := true, waiting := none } 34 (bytesOfNum 1 (Chain.status { c with attached := true, waiting := none }))).chain _ put hp
  refine ⟨d, ?_, hq, hs⟩
  unfold attachChain
  simp only [he, if_false]
  rw [if_neg (by simp [ha]; omega)]
  split
  · exact hd
  · exact hd

/-! ### What the next block comes to -/

/-- A chain whose NEXT is no block's address halts (R117, R118). -/
theorem nextBlock_badNext (hc : s.chain? c.id = some c) (hp : c.isPrivate = false) (hn : c.needNext = true) {b : List Byte}
    (hr : readSpan s c.id c.who c.head 32 = (t, .data b)) (hb : fieldAt b 0 8 = 0 ∨ fieldAt b 0 8 % 64 ≠ 0) : Halted c s (nextBlock s c) := by
  have read := (SameEngines.of_accessed ((Accessed.of_readSpan hr).trans (.dropArrived t c.id)))
  have bad : blockAddrOk (fieldAt b 0 8) = false := by
    rw [← Bool.not_eq_true, blockAddrOk_iff]
    exact fun ⟨h0, h64⟩ => hb.elim h0 fun h => h h64
  simp only [nextBlock, hn, if_true, readNext, chainRead_data hr, bad, Bool.not_false]
  exact (haltChain_halts ((read.chain? _).trans hc) hp ..).since read

/-- A chain takes NEXT into HEAD (R117). -/
theorem nextBlock_next (hc : s.chain? c.id = some c) (hp : c.isPrivate = false) (hn : c.needNext = true) {b : List Byte}
    (hr : readSpan s c.id c.who c.head 32 = (t, .data b)) (h0 : fieldAt b 0 8 ≠ 0) (h64 : fieldAt b 0 8 % 64 = 0) :
    ∃ d, (nextBlock s c).chain? c.id = some d ∧ d.head = fieldAt b 0 8 ∧ d.needNext = false ∧ d.seq = c.seq := by
  have read := (SameEngines.of_accessed ((Accessed.of_readSpan hr).trans (.dropArrived t c.id)))
  have good : blockAddrOk (fieldAt b 0 8) = true := blockAddrOk_iff.2 ⟨h0, h64⟩
  simp only [nextBlock, hn, if_true, readNext, chainRead_data hr, good, Bool.not_true, Bool.false_eq_true, if_false]
  generalize fieldAt b 0 8 = next
  have put := State.chain?_updChain ((read.chain? _).trans hc) (f := fun _ => { c with head := next, needNext := false }) fun _ _ => rfl
  obtain ⟨-, d, hd, -, plan⟩ := (Follows.headWritten { c with head := next, needNext := false } hp _ (bytesOfNum 8 next)
    (bytesOfNum 1 (Chain.status { c with head := next, needNext := false }))).chain _ put hp
  exact ⟨d, hd, Chain.field_of_view plan Chain.head, Chain.field_of_view plan Chain.needNext, Chain.field_of_view plan Chain.seq⟩

/-- The block at HEAD is the next one, where its address can be a block's. -/
theorem nextBlock_head (hc : s.chain? c.id = some c) (hn : c.needNext = false) (hpause : c.paused = none) :
    nextBlock s c = if c.head % 64 ≠ 0 then haltChain s c.id errAlign 0 c.head [] else readBlock s c := by
  simp [nextBlock, hn, headBlock, hc, hpause]

theorem readBlock_header {b : List Byte} (hr : readSpan s c.id c.who c.head 64 = (t, .data b)) (hb : byteAt b 9 = 0 ∨ 4 < byteAt b 9) :
    readBlock s c = takeBlock (dropArrived t c.id) c b := by
  unfold readBlock
  rw [chainRead_data hr]
  simp only
  rw [if_pos (by simpa using hb)]

theorem readBlock_whole {b : List Byte} (hr : readSpan s c.id c.who c.head 64 = (t, .data b)) (h0 : 0 < byteAt b 9) (h4 : byteAt b 9 ≤ 4)
    {u : State} {d : List Byte} (hw : readSpan t c.id c.who c.head (64 * byteAt b 9) = (u, .data d)) :
    readBlock s c = takeBlock (dropArrived u c.id) c d := by
  unfold readBlock
  rw [chainRead_data hr]
  simp only
  rw [if_neg (by simp; omega), chainRead_data hw]

/-- A chain sees a new TAIL. -/
theorem seeChainTail_data {b : List Byte} (h : unitAcquire s c.id c.who 6 (c.desc + 8) 8 = (t, .data b)) {x : Chain}
    (hx : x = { c with tail := numOfBytes b }) : seeChainTail s c =
      if x.seq < x.tail then nextBlock (t.updChain c.id fun _ => x) x else dropArrived (t.updChain c.id fun _ => x) c.id := by
  subst hx
  unfold seeChainTail
  rw [watchDesc_data h]

/-! ### Resumption -/

theorem Chain.isPrivate_eq {d : Chain} (hn : d.node = c.node) (hk : d.kind = c.kind) : d.isPrivate = c.isPrivate := by
  unfold Chain.isPrivate
  rw [hn, hk]

theorem execChainResume_stays (hc : s.chain? c.id = some c) (howed : c.owed = []) (hw : failedWrite s c.id = none)
    (h : c.halted = false ∨ c.paused ≠ none) : exec (.chainResume c.id) s = .next s := by
  show Host.Outcome.next _ = _
  simp only [hc, settleDesc_settled howed hw]
  rw [if_pos (by rcases h with h | h <;> simp [h, Option.isSome_iff_ne_none])]

/-- A halted chain goes on from its descriptor once HALTED is cleared there, unless that is ill-formed (R115, R125). -/
theorem execChainResume_data (hc : s.chain? c.id = some c) (hl : c.loaded = true) (howed : c.owed = []) (hw : failedWrite s c.id = none)
    (hh : c.halted = true) (hpause : c.paused = none) {b : List Byte} (h : unitAcquire s c.id c.who 6 c.desc 64 = (t, .data b)) {x : Chain}
    (hx : x = resumeFrom c b) : exec (.chainResume c.id) s = .next (if byteAt b 34 % 2 = 1 then dropArrived t c.id
      else match descChecks b (ownKind x b) fun st => decide (st < 8) with
        | some (code, off) => haltChain ((dropArrived t c.id).updChain c.id fun _ => x) c.id code off x.desc (b.take 32)
        | none => writeDesc ((dropArrived t c.id).updChain c.id fun _ => x) x 34 (bytesOfNum 1 x.status)) := by
  subst hx
  show Host.Outcome.next _ = _
  simp only [hc, settleDesc_settled howed hw]
  rw [if_neg (by simp [hh, hl, hpause, howed]), watchDesc_data (by exact h)] <;> rfl

/-- The chain that goes on is the one of its descriptor, but for its pause and what it owes; it is halted where the descriptor is ill-formed. -/
theorem execChainResume_goesOn (hc : s.chain? c.id = some c) (hl : c.loaded = true) (hp : c.isPrivate = false) (howed : c.owed = [])
    (hw : failedWrite s c.id = none) (hh : c.halted = true) (hpause : c.paused = none) {b : List Byte}
    (h : unitAcquire s c.id c.who 6 c.desc 64 = (t, .data b)) (bit : byteAt b 34 % 2 = 0) :
    ∃ u d, exec (.chainResume c.id) s = .next u ∧ u.chain? c.id = some d ∧ d.plan = (resumeFrom c b).plan ∧
      d.halted = decide (descChecks b (need (byteAt b 32 = c.kind.code) errKind 32) (fun st => decide (st < 8)) ≠ none) := by
  have read := SameEngines.of_accessed ((Accessed.of_unitAcquire h).trans (.dropArrived t c.id))
  obtain ⟨x, hx⟩ : ∃ x, x = resumeFrom c b := ⟨_, rfl⟩
  have run := execChainResume_data hc hl howed hw hh hpause h hx
  have xid : x.id = c.id := by simp only [hx, resumeFrom]
  have xkind : x.kind = c.kind := by simp only [hx, resumeFrom]
  have xp : x.isPrivate = false := (Chain.isPrivate_eq (by simp only [hx, resumeFrom]) xkind).trans hp
  have put : ((dropArrived t c.id).updChain c.id fun _ => x).chain? x.id = some x := by
    rw [xid]
    exact State.chain?_updChain ((read.chain? _).trans hc) fun _ _ => xid
  rw [if_neg (by omega), show ownKind x b = need (byteAt b 32 = c.kind.code) errKind 32 by rw [ownKind, xkind]] at run
  rw [← hx]
  cases hk : descChecks b (need (byteAt b 32 = c.kind.code) errKind 32) fun st => decide (st < 8) with
  | none =>
    rw [hk] at run
    have written := Follows.writeDesc ((dropArrived t c.id).updChain c.id fun _ => x) x 34 (bytesOfNum 1 x.status)
    obtain ⟨-, d, hd, -, steady⟩ := written.chain x put xp
    rw [xid] at hd
    refine ⟨_, d, run, hd, congrArg (fun c : Chain => { c with halted := false, running := none }) steady, ?_⟩
    exact (Chain.field_of_view steady Chain.halted).trans (by simp [hx, resumeFrom])
  | some bad =>
    rw [hk] at run
    obtain ⟨⟨d, hd, -, halted, -, plan⟩, -⟩ := haltChain_halts put xp bad.1 bad.2 x.desc (b.take 32)
    rw [xid] at hd
    exact ⟨_, d, run, hd, plan, by simp [halted]⟩

end moves

/-! ## The statement -/

/-- What the statement says of a chain that halts. -/
theorem Halted.of_exec {s u t : State} {i : Instr} {x : Chain} (h : Halted x u t) (ht : exec i s = .next t)
    (length : u.parts.length = s.parts.length) : ∃ t d, exec i s = .next t ∧ t.chain? x.id = some d ∧ d.halted = true ∧ d.running = none ∧
      d.seq = x.seq ∧ (x.part < s.parts.length → (t.part x.part).istat.testBit 258 = true) := by
  obtain ⟨⟨d, hd, -, halted, running, plan⟩, -, raised⟩ := h
  exact ⟨t, d, ht, hd, halted, running, Chain.field_of_view plan Chain.seq, fun part => raised (part.trans_eq length.symm)⟩

/-- Settles O51: a chain's move, case by case; what happens after HEAD has moved, or after the chain is attached, keeps the chain's plan. -/
theorem chainsRun : Obligations.ChainsRun := by
  intro s id c hc hl hp howed hw w halted
  obtain rfl := State.chain?_id hc
  have moves {u : State} {d : Chain} (hu : u = if c.halted then s else attachChain s c) (hd : u.chain? c.id = some d) (hq : d.isPrivate = false) :
      exec (.chainTailSeen c.id) s = .next (if !d.attached || d.halted || d.paused.isSome || d.running.isSome || !d.owed.isEmpty then u
        else seeChainTail u d) := congrArg Host.Outcome.next (chainMove_loaded hc hl hp howed hw hu hd hq)
  have stays (h : s = if c.halted then s else attachChain s c) := moves h hc hp
  refine ⟨?still, ?full, ?attaches, ?sees, execChainResume_stays hc howed hw, ?resumes⟩
  case still =>
    intro h ha
    rw [stays (by rw [attachChain_full (.inl ha), ite_self]), if_pos]
    rcases h with h | h | h <;> simp [h, Option.isSome_iff_ne_none]
  case full =>
    intro ha hh he hn
    rw [stays (by rw [attachChain_full (.inr ⟨he, hn⟩), ite_self]), if_pos (by simp [ha])]
  case attaches =>
    intro ha hh he hn
    obtain ⟨d, hd, hq, hs⟩ := attachChain_attaches hc hp ha he hn
    have run := moves (u := attachChain s c) (by simp [hh]) hd hq
    have did : d.id = c.id := Chain.field_of_view hs Chain.id
    have follows : Follows Chain.stance c.id (attachChain s c) (if !d.attached || d.halted || d.paused.isSome || d.running.isSome || !d.owed.isEmpty
        then attachChain s c else seeChainTail (attachChain s c) d) := by
      split
      · exact .refl _
      · exact did ▸ Follows.seeChainTail (did.symm ▸ hd) hq
    obtain ⟨-, e, he, -, stance⟩ := follows.chain d hd hq
    exact ⟨_, e, run, he, (Chain.field_of_view stance Chain.attached).trans (Chain.field_of_view hs Chain.attached),
      (Chain.field_of_view stance Chain.waiting).trans (Chain.field_of_view hs Chain.waiting),
      (Chain.field_of_view stance Chain.engine).trans (Chain.field_of_view hs Chain.engine),
      (Chain.field_of_view stance Chain.seq).trans (Chain.field_of_view hs Chain.seq)⟩
  case sees =>
    intro s₁ tb ha hh hpause hrun acquired
    generalize hn : numOfBytes tb = n
    intro tail seen
    have read := SameEngines.of_accessed (Accessed.of_unitAcquire acquired)
    have run : exec (.chainTailSeen c.id) s = .next (if c.seq < n then nextBlock seen { c with tail := n } else dropArrived seen c.id) := by
      rw [stays (by rw [attachChain_full (.inl ha), ite_self]), if_neg (by simp [ha, hh, hpause, hrun, howed]),
        seeChainTail_data acquired (x := { c with tail := n }) (by rw [hn])]
    have found : seen.chain? c.id = some { c with tail := n } :=
      State.chain?_updChain ((read.chain? _).trans hc) (f := fun _ => { c with tail := n }) fun _ _ => rfl
    have goes (h : c.seq < tail) : exec (.chainTailSeen c.id) s = .next (nextBlock seen { c with tail := n }) := by rw [run, if_pos h]
    have halts {u t : State} (h : Halted { c with tail := n } u t) (ht : exec (.chainTailSeen c.id) s = .next t) (same : SameEngines seen u) :
        halted (.chainTailSeen c.id) := h.of_exec ht (same.length.trans read.length)
    refine ⟨fun h => ?_, fun h hnext s₂ b readh => ?_, fun h hnext => ?_⟩
    · rw [run, if_neg (Nat.not_lt.2 h)]
      exact ⟨_, rfl, found, rfl, rfl⟩
    · refine ⟨fun bad => ?_, fun h0 h64 => ?_⟩
      · exact halts (nextBlock_badNext (c := { c with tail := n }) found hp hnext readh bad) (goes h) (.refl _)
      · obtain ⟨d, hd, head, need, seq⟩ := nextBlock_next (c := { c with tail := n }) found hp hnext readh h0 h64
        exact ⟨_, d, goes h, hd, head, need, seq⟩
    · have head := (goes h).trans (congrArg Host.Outcome.next (nextBlock_head (c := { c with tail := n }) found hnext hpause))
      refine ⟨fun h64 => ?_, fun s₂ b₀ h64 readh => ?_⟩
      · exact halts (haltChain_halts (c := { c with tail := n }) found hp errAlign 0 c.head []) (head.trans (by rw [if_pos h64])) (.refl _)
      · have block := head.trans (congrArg Host.Outcome.next (if_neg (not_not.2 h64)))
        have read₂ := (SameEngines.of_accessed ((Accessed.of_readSpan readh).trans (.dropArrived s₂ c.id)))
        refine ⟨fun code off hb bad => ?_, fun s₃ b h0 h4 readb => ⟨fun code off bad => ?_, fun good => ?_⟩⟩
        · rw [readBlock_header (c := { c with tail := n }) readh hb] at block
          exact halts (takeBlock_bad (c := { c with tail := n }) ((read₂.chain? _).trans found) hp bad) block read₂
        all_goals
          rw [readBlock_whole (c := { c with tail := n }) readh h0 h4 readb] at block
          have read₃ := SameEngines.of_accessed (((Accessed.of_readSpan readh).trans (.of_readSpan readb)).trans (.dropArrived s₃ c.id))
        · exact halts (takeBlock_bad (c := { c with tail := n }) ((read₃.chain? _).trans found) hp bad) block read₃
        · rw [takeBlock_good (c := { c with tail := n }) hp good] at block
          exact ⟨_, _, block, rfl, chainCmd_issuer (c := { c with tail := n }) _ hp b, rfl, rfl, rfl, rfl, rfl, rfl,
            State.chain?_updChain ((read₃.chain? _).trans found) fun _ h => h, rfl⟩
  case resumes =>
    intro s₁ b hh hpause acquired
    refine ⟨fun bit => ?_, fun bit => ?_⟩
    · rw [execChainResume_data hc hl howed hw hh hpause acquired rfl, if_pos bit]
      exact ⟨_, rfl, rfl, rfl⟩
    · intro took checks
      obtain ⟨t, d, run, hd, plan, hh⟩ := execChainResume_goesOn hc hl hp howed hw hh hpause acquired bit
      refine ⟨t, d, run, hd, ⟨?_, ?_, ?_, ?_, ?_, ?_⟩, hh⟩
      · exact Chain.field_of_view plan Chain.head
      · exact Chain.field_of_view plan Chain.tail
      · exact Chain.field_of_view plan Chain.seq
      · exact Chain.field_of_view plan Chain.errAddr
      · exact Chain.field_of_view plan Chain.scope
      · exact Chain.field_of_view plan Chain.needNext

end Sys2Proof.Machine


/-!
Matrix jobs and the Blend unit at work (R116, R339, R437 to R441, R444, R449 to R452).
-/
namespace Sys2Proof.Machine

/-! ## Changes of groups -/

/-- The second state differs from the first in its groups alone. -/
structure GroupsOnly (s t : State) : Prop where
  state : { t with groups := s.groups } = s

theorem GroupsOnly.refl (s : State) : GroupsOnly s s := ⟨rfl⟩

theorem GroupsOnly.trans {a b c : State} (h : GroupsOnly a b) (k : GroupsOnly b c) : GroupsOnly a c :=
  ⟨by rw [← h.state, ← k.state]⟩

theorem GroupsOnly.field {s t : State} (h : GroupsOnly s t) {α : Type} (f : State → α) (hf : f { t with groups := s.groups } = f t := by rfl) :
    f t = f s := hf.symm.trans (congrArg f h.state)

theorem GroupsOnly.guarded {c : Prop} [Decidable c] {s t : State} (h : GroupsOnly s t) : GroupsOnly s (if c then t else s) := by
  split
  · exact h
  · exact .refl s

theorem GroupsOnly.foldl {α : Type} {f : State → α → State} (h : ∀ s x, GroupsOnly s (f s x)) (xs : List α) (s : State) :
    GroupsOnly s (xs.foldl f s) := by
  induction xs generalizing s with
  | nil => exact .refl s
  | cons x xs ih => exact (h s x).trans (ih _)

theorem GroupsOnly.updGroup (s : State) (core slot : Nat) (f : Group → Group) : GroupsOnly s (s.updGroup core slot f) := ⟨rfl⟩

theorem GroupsOnly.setGroups (s : State) (gs : List Group) : GroupsOnly s { s with groups := gs } := ⟨rfl⟩

theorem GroupsOnly.writeTile (s : State) (team : Nat) (c : Card) (r : RankSnap) (t : Nat) (tile : List Nat) (mark : Bool) :
    GroupsOnly s (writeTile s team c r t tile mark) := by
  unfold Machine.writeTile
  split
  · exact .refl s
  · simp only
    split
    · exact .refl s
    · exact (GroupsOnly.foldl (fun s _ => .updGroup s _ _ _) _ s).trans (.updGroup ..)

/-- The destinations of a job to registers are lanes' registers (R124, R445). -/
theorem GroupsOnly.invalidate (s : State) {j : MatrixJob} (h : ∀ b, j.card = some b → (jobCard s j b).mem = false) :
    GroupsOnly s (invalidate s j) := by
  unfold Machine.invalidate
  split
  · exact .refl s
  next b hb =>
    simp only
    rw [if_neg (by simp [h b hb])]
    exact .foldl (fun s _ => .foldl (fun _ _ => .guarded (.writeTile ..)) _ s) _ s

/-! ## What the rounds of keyrings leave -/

/-- Where a group stands, and the registers of its lanes. -/
def Group.held (g : Group) : Nat × Nat × List Mem := (g.core, g.slot, g.lanes.map Lane.regs)

theorem Group.held_place {g h : Group} (k : h.held = g.held) : h.core = g.core ∧ h.slot = g.slot :=
  ⟨congrArg Prod.fst k, congrArg (·.2.1) k⟩

theorem Group.held_regs {g h : Group} (k : h.held = g.held) (l : Nat) : (h.lane l).regs = (g.lane l).regs := by
  have regs (g : Group) : (g.lane l).regs = (g.held.2.2).getD l (default : Lane).regs := by
    simp only [Group.lane, Group.held, List.getD_eq_getElem?_getD, List.getElem?_map]
    cases g.lanes[l]? <;> rfl
  rw [regs, regs, k]

theorem Group.held_mapIdx (g : Group) (f : Nat → Lane → Lane) (hf : ∀ l x, (f l x).regs = x.regs) :
    ({ g with lanes := g.lanes.mapIdx f } : Group).held = g.held := by
  have same : (g.lanes.mapIdx f).map Lane.regs = g.lanes.map Lane.regs := by
    apply List.ext_getElem <;> simp [hf]
  simp only [Group.held, same]

theorem Group.held_updLane (g : Group) (l : Nat) (f : Lane → Lane) (hf : ∀ x, (f x).regs = x.regs) : (g.updLane l f).held = g.held := by
  have same : (g.lanes.modify l f).map Lane.regs = g.lanes.map Lane.regs := by
    apply List.ext_getElem
    · simp
    · intro i _ _
      simp only [List.getElem_map, List.getElem_modify]
      split
      · exact hf _
      · rfl
  simp only [Group.held, Group.updLane, same]

theorem Group.SameFlow.held {g h : Group} (k : g.SameFlow h) : h.held = g.held := by
  obtain ⟨hc, hs⟩ := k.place
  obtain ⟨-, length, lanes⟩ := k
  have same : h.lanes.map Lane.regs = g.lanes.map Lane.regs := by
    apply List.ext_getElem (by simpa using length)
    intro i hi hj
    simp only [List.length_map] at hi hj
    have lane := congrArg Lane.regs (lanes i hj)
    rw [Group.lane_of_lt hi, Group.lane_of_lt hj] at lane
    simpa using lane
  simp only [Group.held, hc, hs, same]

theorem Group.held_pass (g : Group) (ls : List Nat) (len : Nat) : (g.pass ls len).held = g.held := by
  have tails (h : Group) : (ls.foldl (fun h l => h.passTail [l] (g.lane l).pc) h).held = h.held := by
    induction ls generalizing h with
    | nil => rfl
    | cons l ls ih => exact (ih _).trans (Group.sameFlow_passTail ..).held
  have gone : ({ g with lanes := g.lanes.mapIdx fun l x => if ls.contains l then
      { x with pc := x.pc + BitVec.ofNat 64 len, wait := g.waitAt l x.shader (x.pc + BitVec.ofNat 64 len) } else x } : Group).held = g.held :=
    Group.held_mapIdx _ _ fun l x => by split <;> rfl
  unfold Group.pass
  simp only
  split
  · exact (tails _).trans gone
  · exact gone

/-- A group is found where it stood, with the registers that it had. -/
theorem group?_of_held {s t : State} (h : t.groups.map Group.held = s.groups.map Group.held) {core slot : Nat} {g : Group}
    (hg : s.group? core slot = some g) : ∃ k, t.group? core slot = some k ∧ k.held = g.held := by
  have found (s : State) : (s.group? core slot).map Group.held =
      (s.groups.map Group.held).find? fun x => decide (x.1 = core) && decide (x.2.1 = slot) := by
    rw [List.find?_map]
    rfl
  have same := (found t).trans ((congrArg _ h).trans (found s).symm)
  rw [hg, Option.map_some, Option.map_eq_some_iff] at same
  exact same

/-- What the rounds of keyrings leave: all but teams, the jobs that they add, and of groups all but where they stand and the registers of their
lanes. -/
structure Rounds (s t : State) : Prop where
  state : { t with groups := s.groups, teams := s.teams, render := s.render, fresh := s.fresh } = s
  held : t.groups.map Group.held = s.groups.map Group.held
  fresh : s.fresh ≤ t.fresh
  jobs : ∀ j ∈ t.render.jobs, j ∈ s.render.jobs ∨ s.fresh ≤ j.id

theorem Rounds.refl (s : State) : Rounds s s := ⟨rfl, rfl, le_rfl, fun _ h => .inl h⟩

theorem Rounds.trans {a b c : State} (h : Rounds a b) (k : Rounds b c) : Rounds a c := by
  refine ⟨by rw [← h.state, ← k.state], k.held.trans h.held, h.fresh.trans k.fresh, fun j hj => ?_⟩
  rcases k.jobs j hj with old | new
  · exact h.jobs j old
  · exact .inr (h.fresh.trans new)

theorem Rounds.field {s t : State} (h : Rounds s t) {α : Type} (f : State → α)
    (hf : f { t with groups := s.groups, teams := s.teams, render := s.render, fresh := s.fresh } = f t := by rfl) : f t = f s :=
  hf.symm.trans (congrArg f h.state)

theorem Rounds.foldl {α : Type} {f : State → α → State} (h : ∀ s x, Rounds s (f s x)) (xs : List α) (s : State) :
    Rounds s (xs.foldl f s) := by
  induction xs generalizing s with
  | nil => exact .refl s
  | cons x xs ih => exact (h s x).trans (ih _)

theorem Rounds.mapGroups (s : State) {f : Group → Group} (hf : ∀ g, (f g).held = g.held) : Rounds s { s with groups := s.groups.map f } := by
  refine ⟨rfl, ?_, le_rfl, fun _ h => .inl h⟩
  simp only [List.map_map]
  exact List.map_congr_left fun g _ => hf g

theorem Rounds.updGroup (s : State) (core slot : Nat) {f : Group → Group} (hf : ∀ g, (f g).held = g.held) :
    Rounds s (s.updGroup core slot f) :=
  .mapGroups s fun g => by
    split
    · exact hf g
    · rfl

theorem Rounds.setKeyring (s : State) (team n : Nat) (k : Keyring) : Rounds s (setKeyring s team n k) := ⟨rfl, rfl, le_rfl, fun _ h => .inl h⟩

theorem Rounds.passLanes (s : State) (core slot : Nat) (ls : List Nat) (len : Nat) : Rounds s (passLanes s core slot ls len) :=
  .updGroup s core slot fun g => g.held_pass ls len

theorem Lane.updCount_regs (x : Lane) (c : Counter) (f : Nat → Nat) : (x.updCount c f).regs = x.regs := by cases c <;> rfl

theorem Rounds.countDown (s : State) (core slot : Nat) (ls : List Nat) (c : Counter) : Rounds s (countDown s core slot ls c) :=
  .updGroup s core slot fun g => g.held_mapIdx _ fun l x => by
    split
    · exact x.updCount_regs c _
    · rfl

theorem Rounds.lowerSigned (s : State) (team : Nat) (signed : List (Nat × BitVec 32)) : Rounds s (lowerSigned s team signed) := by
  refine Rounds.foldl (fun s x => ?_) signed s
  split
  · exact .refl s
  · exact .foldl (fun s l => .countDown s _ _ _ _) _ s

theorem Rounds.recordSign (s : State) (team index n l : Nat) (card : Option Nat) : Rounds s (recordSign s team index n l card) := by
  unfold Machine.recordSign
  split
  · simp only
    exact Rounds.trans (.updGroup s _ _ fun _ => by rfl) (.setKeyring ..)
  · exact .refl s

theorem Rounds.signerGoes (s : State) (x : Signer) (n : Nat) (thenWait : Bool) : Rounds s (signerGoes s x n thenWait) := by
  unfold Machine.signerGoes
  split
  · exact .updGroup s _ _ fun g => g.held_updLane _ _ fun _ => rfl
  · exact .passLanes ..

/-- A job that a round gives to the engine has a fresh identifier. -/
theorem Rounds.addJob (s : State) {j : MatrixJob} (h : j.id = s.fresh) :
    Rounds s { s with render := { s.render with jobs := s.render.jobs ++ [j] }, fresh := s.fresh + 1 } := by
  refine ⟨rfl, rfl, Nat.le_succ _, fun k hk => ?_⟩
  rcases List.mem_append.1 hk with old | new
  · exact .inl old
  · exact .inr (List.mem_singleton.1 new ▸ h.ge)

theorem Rounds.endRound (s : State) (t : Team) (n : Nat) : Rounds s (endRound s t n) := by
  unfold Machine.endRound
  simp only
  refine Rounds.trans ?_ (.foldl (fun s x => .passLanes s _ _ _ _) _ _)
  generalize hu : Machine.setKeyring s t.id n _ = u
  have closed : Rounds s u := hu ▸ .setKeyring ..
  split
  · exact closed.trans (.lowerSigned ..)
  · exact closed.trans (.addJob u rfl)

theorem Rounds.declareRound (s : State) (t : Team) (n mask : Nat) : Rounds s (declareRound s t n mask) := by
  unfold Machine.declareRound
  split
  · exact .refl s
  · exact (Rounds.setKeyring s t.id n _).trans (.mapGroups _ fun g => by split <;> rfl)

theorem Rounds.keyMove {s t : State} {team n : Nat} (h : keyMove s team n = some t) : Rounds s t := by
  unfold Machine.keyMove at h
  split at h
  · cases h
  · simp only at h
    split at h
    · split at h
      · split at h
        · cases h
          exact (Rounds.recordSign ..).trans (.signerGoes ..)
        · cases h
      · split at h
        · cases h
          exact .endRound ..
        · cases h
    · split at h
      · cases h
      · split at h
        · cases h
          exact (Rounds.declareRound ..).trans (.passLanes ..)
        · cases h

theorem Rounds.keyMoves (fuel : Nat) (s : State) (team n : Nat) : Rounds s (keyMoves fuel s team n) := by
  induction fuel generalizing s with
  | zero => exact .refl s
  | succ fuel ih =>
    unfold Machine.keyMoves
    split
    next h => exact (Rounds.keyMove h).trans (ih _)
    · exact .refl s

theorem Rounds.testKeys (s : State) (team : Nat) : Rounds s (testKeys s team) :=
  .foldl (fun s n => .keyMoves keyFuel s team n) _ s

/-- A job of a keyring that leaves the engine lowers counts and lets rounds end (R439, R444). -/
theorem Rounds.leaveEngine (s : State) (j : MatrixJob) : Rounds (dropJob s j.id) (leaveEngine s j) :=
  (Rounds.lowerSigned ..).trans (.foldl (fun s t => .testKeys s t) _ _)

theorem Rounds.raiseAg (s : State) (j : MatrixJob) : Rounds s (raiseAg s j) := .mapGroups s fun g => by split <;> rfl

/-- A job that has left is none of the engine's: those that rounds add have fresh identifiers. -/
theorem job?_leaveEngine {s : State} {j : MatrixJob} (h : j.id < s.fresh) : (leaveEngine s j).job? j.id = none := by
  refine List.find?_eq_none.2 fun k hk => ?_
  rcases (Rounds.leaveEngine s j).jobs k hk with old | new
  · simpa using (List.mem_filter.1 old).2
  · have : s.fresh ≤ k.id := new
    simp
    omega

/-! ## Jobs -/

theorem State.job?_id {s : State} {id : Nat} {j : MatrixJob} (h : s.job? id = some j) : j.id = id := by simpa using List.find?_some h

theorem State.job?_updJob {s : State} {id : Nat} {j : MatrixJob} (hj : s.job? id = some j) {f : MatrixJob → MatrixJob}
    (hf : ∀ k, k.id = id → (f k).id = id) : (s.updJob id f).job? id = some (f j) := by
  have same : ((fun k : MatrixJob => k.id == id) ∘ fun k => if k.id == id then f k else k) = fun k => k.id == id := by
    funext k
    by_cases hk : k.id = id <;> simp [hk, hf]
  have hn := State.job?_id hj
  unfold State.job? at hj ⊢
  rw [State.updJob, List.find?_map, same, hj]
  simp [hn]

theorem job?_dropJob (s : State) (id : Nat) : (dropJob s id).job? id = none :=
  List.find?_eq_none.2 fun k hk => by simpa using (List.mem_filter.1 hk).2

theorem Accessed.jobRecord {s t : State} (h : Accessed s t) (j : MatrixJob) : jobRecord t j = jobRecord s j := h.field fun s => Machine.jobRecord s j

theorem Accessed.job? {s t : State} (h : Accessed s t) (id : Nat) : t.job? id = s.job? id := h.field fun s => State.job? s id

/-! ### The card -/

section card
variable {s t : State} {j : MatrixJob} {b : List Byte} {fs : List Nat} (hfs : fs = if j.cmd.isSome then [] else (jobRecord s j).fs)

theorem execMatrixKstep_opens (hj : s.job? j.id = some j) (hr : jobMayRun s j = true) (hc : j.card = none) :
    exec (.matrixKstep j.id) s = .next (openJob s j) := by
  show Host.Outcome.next _ = _
  simp only [hj, hr, hc, Bool.not_true, Bool.false_eq_true, if_false]

include hfs

/-- The slots that a job's card names are read as the grid has them. -/
theorem slots_read (h : Accessed s t) : (if j.cmd.isSome then [] else (jobRecord t { j with card := some b }).fs) = fs := by
  rw [hfs, h.jobRecord]
  rfl

/-- An ill-formed card ends its job (R438, R445). -/
theorem openJob_bad (hc : j.card = none) (hread : unitRead s j.id j.who .read j.cardAddr 128 = (t, .data b)) {code off : Nat}
    (bad : cardChecks b fs j.cmd.isSome = some (code, off)) : openJob s j = endJob t { j with card := some b } code (64 + off) := by
  unfold openJob
  simp only [hc, hread, slots_read hfs (.of_unitRead hread), bad]

/-- A card to memory that adds to nothing starts its accumulators at zero (R437, R441). -/
theorem openJob_zero (hc : j.card = none) (hread : unitRead s j.id j.who .read j.cardAddr 128 = (t, .data b))
    (good : cardChecks b fs j.cmd.isSome = none) (hacc : (cardOf b fs).acc = false) (hmem : (cardOf b fs).mem = true) :
    openJob s j = (dropArrived t j.id).updJob j.id fun _ =>
      { j with card := some b, accs := List.replicate (j.ranks * (cardOf b fs).nt) (List.replicate 1024 0) } := by
  have slots := slots_read (b := b) hfs (.of_unitRead hread)
  unfold openJob
  simp only [hc, hread, slots, good, jobCard, startAccs, hacc, hmem, Bool.false_and, Bool.false_eq_true, if_false, if_true]
  rfl

end card

/-- A job of a keyring with register destinations that ends leaves the engine, and source 258 is raised (R445). -/
theorem endJob_ends {s : State} {j : MatrixJob} {b : List Byte} (hc : j.card = some b) (hm : (jobCard s j b).mem = false) (hcmd : j.cmd = none)
    (hid : j.id < s.fresh) (code off : Nat) : (endJob s j code off).job? j.id = none ∧
      (j.part < s.parts.length → ((endJob s j code off).part j.part).istat.testBit 258 = true) := by
  have dropped : Accessed s (dropArrived s j.id) := .dropArrived ..
  have marked : GroupsOnly (dropArrived s j.id) (invalidate (dropArrived s j.id) j) :=
    .invalidate _ fun b' hb' => by
      obtain rfl := Option.some.inj (hc.symm.trans hb')
      exact hm
  generalize hu : invalidate (dropArrived s j.id) j = u at marked
  have ended : endJob s j code off = raisePart (leaveEngine u j) j.part 258 := by
    simp only [endJob, hcmd, hu]
  have left := Rounds.leaveEngine u j
  have lengths : (leaveEngine u j).parts.length = s.parts.length :=
    ((congrArg List.length (left.field State.parts)).trans (congrArg List.length (marked.field State.parts))).trans dropped.length
  rw [ended]
  refine ⟨((Accessed.raisePart ..).job? _).trans (job?_leaveEngine ?_), fun part => raisePart_raises (part.trans_eq lengths.symm) 258⟩
  rw [marked.field State.fresh]
  exact hid

/-! ### Steps -/

/-- A part of what was read is the data of its spans. -/
theorem splitParts_getD {α β : Type} (xs : List (List β)) (l : List α) (k : Nat) : (splitParts l (xs.map List.length)).getD k [] =
    (l.drop (xs.take k).flatten.length).take (xs.getD k []).length := by
  induction xs generalizing l k with
  | nil => simp [splitParts]
  | cons x xs ih =>
    cases k with
    | zero => simp [splitParts]
    | succ k =>
      simp only [List.map_cons, splitParts, List.getD_cons_succ, ih, List.take_succ_cons, List.flatten_cons, List.length_append, List.drop_drop]

theorem getD_map_range {α : Type} (f : Nat → α) (d : α) {n k : Nat} (h : k < n) : ((List.range n).map f).getD k d = f k := by
  simp [List.getD_eq_getElem?_getD, h]

theorem execMatrixKstep_steps {s : State} {j : MatrixJob} {b : List Byte} (hj : s.job? j.id = some j) (hr : jobMayRun s j = true)
    (hc : j.card = some b) (ha : j.accs ≠ []) (hs : j.step < (jobCard s j b).total) :
    exec (.matrixKstep j.id) s = .next (jobStep s j (jobCard s j b)) := by
  obtain ⟨a, as, has⟩ := List.exists_cons_of_ne_nil ha
  show Host.Outcome.next _ = _
  simp only [hj, hr, hc, has, hs, Bool.not_true, Bool.false_eq_true, if_false, if_true]

/-- The spans that a step reads: those of the A tiles, then those of the B tiles (R437). -/
def stepSpans (j : MatrixJob) (c : Card) : List (List (Nat × Nat)) :=
  ((List.range j.ranks).map fun r => spansA c j.step r) ++ (List.range c.nt).map fun t => spansB c j.step t

/-- A step adds one block product to each element (R437). -/
theorem jobStep_job {s t : State} {j : MatrixJob} {c : Card} {d : List (List Byte)} (hj : s.job? j.id = some j)
    (hread : unitReads s j.id j.who .read (stepSpans j c).flatten = (t, .ok d)) :
    ∃ k, (jobStep s j c).job? j.id = some k ∧ k.step = j.step + 1 ∧ k.card = j.card ∧ k.regs = j.regs ∧ k.accs.length = j.ranks * c.nt ∧
      ∀ n, n < j.ranks * c.nt → k.accs.getD n [] =
        (stepTile c.split (j.accs.getD n []) (tileA c.fmtA ((splitParts d ((stepSpans j c).map List.length)).getD (n / c.nt) []))
          (tileB c.fmtB ((splitParts d ((stepSpans j c).map List.length)).getD (j.ranks + n % c.nt) []))).1 := by
  have found : (dropArrived t j.id).job? j.id = some j := (((Accessed.of_unitReads hread).trans (.dropArrived ..)).job? _).trans hj
  unfold stepSpans at *
  unfold jobStep
  simp only [hread]
  refine ⟨_, ((Accessed.charge ..).job? _).trans (State.job?_updJob found fun _ h => h), rfl, rfl, rfl, by simp, fun n hn => ?_⟩
  have hr : n / c.nt < j.ranks := Nat.div_lt_of_lt_mul (by rwa [Nat.mul_comm] at hn)
  have ht : n % c.nt < c.nt := Nat.mod_lt _ (Nat.pos_of_mul_pos_left (Nat.zero_lt_of_lt hn))
  simp only [List.map_map, getD_map_range _ _ hn, Function.comp_apply, getD_map_range _ _ hr, getD_map_range _ _ ht]

/-! ### Results in registers -/

/-- No lane stands away from its home. -/
def AllHome (s : State) : Prop := ∀ h ∈ s.groups, ∀ x ∈ h.lanes, x.home = none

theorem Group.lane_updLane (g : Group) (i : Nat) (f : Lane → Lane) (l : Nat) :
    (g.updLane i f).lane l = if i = l ∧ l < g.lanes.length then f (g.lane l) else g.lane l := by
  by_cases hl : l < g.lanes.length
  · by_cases h : i = l <;> simp [Group.lane, Group.updLane, hl, h]
  · simp [Group.lane, Group.updLane, hl]

theorem Group.lanes_length_updLane (g : Group) (i : Nat) (f : Lane → Lane) : (g.updLane i f).lanes.length = g.lanes.length :=
  List.length_modify ..

/-- Lanes changed one after the other. -/
theorem Group.lane_foldl_updLane (g : Group) (f : Nat → Lane → Lane) (n l : Nat) :
    let h := (List.range n).foldl (fun g i => g.updLane i (f i)) g
    h.lanes.length = g.lanes.length ∧ h.lane l = if l < n ∧ l < g.lanes.length then f l (g.lane l) else g.lane l := by
  induction n with
  | zero => simp
  | succ n ih =>
    obtain ⟨length, lane⟩ := ih
    simp only [List.range_succ, List.foldl_append, List.foldl_cons, List.foldl_nil]
    refine ⟨(Group.lanes_length_updLane ..).trans length, ?_⟩
    rw [Group.lane_updLane, length, lane]
    by_cases h : n = l
    · subst h
      simp
    · have : l < n + 1 ↔ l < n := by omega
      simp [h, this]

theorem AllHome.whereIs {s : State} (h : AllHome s) (core slot l : Nat) : whereIs s core slot l = slot := by
  have nowhere : (s.groups.find? fun g => g.core == core && (g.lane l).home == some slot) = none := by
    refine List.find?_eq_none.2 fun g hg => ?_
    have home : (g.lane l).home = none := by
      by_cases hl : l < g.lanes.length
      · rw [Group.lane_of_lt hl]
        exact h g hg _ (List.getElem_mem hl)
      · simp only [Group.lane, List.getD_eq_getElem?_getD, List.getElem?_eq_none (Nat.not_lt.1 hl)]
        rfl
    simp [home]
  simp only [Machine.whereIs, nowhere]

theorem AllHome.updLane {s : State} (h : AllHome s) (core slot l : Nat) {f : Lane → Lane} (hf : ∀ x, (f x).home = x.home) :
    AllHome (s.updLane core slot l f) := by
  intro k hk x hx
  obtain ⟨g, hg, rfl⟩ := List.mem_map.1 hk
  split at hx
  · obtain ⟨i, hi, rfl⟩ := List.mem_iff_getElem.1 hx
    have old (hi : i < g.lanes.length) := h g hg _ (List.getElem_mem hi)
    simp only [Group.updLane, List.length_modify] at hi
    simp only [Group.updLane, List.getElem_modify]
    split
    · exact (hf _).trans (old hi)
    · exact old hi
  · exact h g hg x hx

/-- Where every lane is at home, each is changed in its group's slot. -/
theorem AllHome.foldl_updLane {f : Nat → Lane → Lane} (hf : ∀ i x, (f i x).home = x.home) (is : List Nat) {s : State} (h : AllHome s)
    (core slot : Nat) : is.foldl (fun s i => s.updLane core (Machine.whereIs s core slot i) i (f i)) s =
      s.updGroup core slot fun g => is.foldl (fun g i => g.updLane i (f i)) g := by
  induction is generalizing s with
  | nil => exact (State.updGroup_id s core slot).symm
  | cons i is ih =>
    simp only [List.foldl_cons]
    rw [h.whereIs, ih (h.updLane core slot i (hf i))]
    exact State.updGroup_updGroup _ core slot _ _ fun _ => rfl

theorem Group.foldl_updLane_place (f : Nat → Lane → Lane) (is : List Nat) (g : Group) :
    (is.foldl (fun g i => g.updLane i (f i)) g).core = g.core ∧ (is.foldl (fun g i => g.updLane i (f i)) g).slot = g.slot := by
  induction is generalizing g with
  | nil => exact ⟨rfl, rfl⟩
  | cons i is ih => exact ih (g.updLane i (f i))

/-- What a lane takes of a tile: its row, unless it has exited (R444). -/
def Lane.takeRow (c : Card) (o : Nat) (tile : List Nat) (i : Nat) (x : Lane) : Lane :=
  if x.exited then x else { x with regs := x.regs.writeBytes o (rowData c tile i) }

theorem Lane.takeRow_home (c : Card) (o : Nat) (tile : List Nat) (i : Nat) (x : Lane) : (x.takeRow c o tile i).home = x.home := by
  unfold Lane.takeRow
  split <;> rfl

theorem Lane.takeRow_regs (c : Card) (o : Nat) (tile : List Nat) (i : Nat) (x : Lane) :
    (x.takeRow c o tile i).regs = if x.exited then x.regs else x.regs.writeBytes o (rowData c tile i) := by
  unfold Lane.takeRow
  split <;> rfl

/-- A tile is written to its rank's group (R444). -/
theorem writeTile_group? {s : State} {team : Nat} {c : Card} {r : RankSnap} {g : Group} (t : Nat) (tile : List Nat) (mark : Bool)
    (hg : s.groupAt team r.group = some g) (hs : s.group? g.core g.slot = some g) (home : AllHome s)
    (fits : (dstSpan c r t).1 + (dstSpan c r t).2 ≤ g.rsize) : ∃ h, (writeTile s team c r t tile mark).group? g.core g.slot = some h ∧
      ∀ i, i < 32 → i < g.lanes.length → (h.lane i).regs =
        if (g.lane i).exited then (g.lane i).regs else (g.lane i).regs.writeBytes (dstSpan c r t).1 (rowData c tile i) := by
  have rows := AllHome.foldl_updLane (fun i x => x.takeRow_home c (dstSpan c r t).1 tile i) (List.range 32) home g.core g.slot
  have put := State.group?_updGroup (s := s) g.core g.slot g.core g.slot
    (fun g => (List.range 32).foldl (fun g i => g.updLane i (Lane.takeRow c (dstSpan c r t).1 tile i)) g)
    fun g => Group.foldl_updLane_place (Lane.takeRow c (dstSpan c r t).1 tile) (List.range 32) g
  rw [if_pos ⟨rfl, rfl⟩, hs, ← rows, Option.map_some] at put
  have lane (i : Nat) := (Group.lane_foldl_updLane g (Lane.takeRow c (dstSpan c r t).1 tile) 32 i).2
  generalize (List.range 32).foldl (fun g i => g.updLane i (Lane.takeRow c (dstSpan c r t).1 tile i)) g = k at put lane
  have marked (u : State) {f : Group → Group} (hf : ∀ g, (f g).core = g.core ∧ (f g).slot = g.slot)
      (hu : u.group? g.core g.slot = some k) : (u.updGroup g.core g.slot f).group? g.core g.slot = some (f k) := by
    rw [State.group?_updGroup _ _ _ _ _ _ hf, if_pos ⟨rfl, rfl⟩, hu, Option.map_some]
  unfold writeTile
  simp only [hg, if_neg (Nat.not_lt.2 fits)]
  refine ⟨_, marked _ (fun _ => ⟨rfl, rfl⟩) put, fun i hi hl => ?_⟩
  have row := lane i
  rw [if_pos ⟨hi, hl⟩] at row
  exact (congrArg Lane.regs row).trans (Lane.takeRow_regs ..)

/-! ### Completion -/

section complete
variable {s : State} {j : MatrixJob} {b : List Byte}

theorem execMatrixJobComplete_waits (hj : s.job? j.id = some j) (hc : j.card = some b)
    (h : jobMayRun s j = false ∨ j.step < (jobCard s j b).total) : exec (.matrixJobComplete j.id) s = .next s := by
  show Host.Outcome.next _ = _
  simp only [hj, hc]
  rw [if_pos (by rcases h with h | h <;> simp [h])]

theorem finishJob_settled (hb : unitBusy s j.id = false) (hw : failedWrite s j.id = none) : finishJob s j =
    if j.cmd.isSome then dropJob s j.id else leaveEngine (raiseAg s j) j := by
  simp only [finishJob, hb, hw, Bool.false_eq_true, if_false]
  cases j.cmd <;> rfl

/-- A job of a chain whose rows are written leaves (R444). -/
theorem execMatrixJobComplete_chain (hj : s.job? j.id = some j) (hr : jobMayRun s j = true) (hc : j.card = some b) (ha : j.accs ≠ [])
    (hs : (jobCard s j b).total < j.step) (hcmd : j.cmd ≠ none) (hb : unitBusy s j.id = false) (hw : failedWrite s j.id = none) :
    exec (.matrixJobComplete j.id) s = .next (dropJob s j.id) := by
  have finished := finishJob_settled hb hw
  rw [if_pos (by simpa [Option.isSome_iff_ne_none] using hcmd)] at finished
  show Host.Outcome.next _ = _
  simp only [hj, hc]
  rw [if_neg (by simp [hr, ha]; omega), if_neg (by omega)]
  simp only [hj, hs, if_true, finished]

/-- A job of a keyring with one tile for registers writes it, and leaves (R443, R444). -/
theorem execMatrixJobComplete_regs (hj : s.job? j.id = some j) (hr : jobMayRun s j = true) (hc : j.card = some b) (ha : j.accs ≠ [])
    (hs : j.step = (jobCard s j b).total) (hcmd : j.cmd = none) (hb : unitBusy s j.id = false) (hw : failedWrite s j.id = none)
    (hm : (jobCard s j b).mem = false) (h1 : j.ranks = 1) (ht : (jobCard s j b).nt = 1) : exec (.matrixJobComplete j.id) s = .next
      (leaveEngine (raiseAg ((writeTile s j.team (jobCard s j b) (j.regs.getD 0 default) 0 ((jobResults s j (jobCard s j b)).getD 0 [])
        false).updJob j.id fun k => { k with step := k.step + 1 }) { j with step := j.step + 1 }) { j with step := j.step + 1 }) := by
  generalize hu : writeTile s j.team (jobCard s j b) (j.regs.getD 0 default) 0 ((jobResults s j (jobCard s j b)).getD 0 []) false = u
  have written : GroupsOnly s u := hu ▸ .writeTile ..
  have results : writeResults s j (jobCard s j b) = u.updJob j.id fun k => { k with step := k.step + 1 } := by
    simp only [writeResults, hm, Bool.not_false, if_true, writeTiles, h1, ht]
    rw [← hu]
    rfl
  have found := State.job?_updJob ((written.field fun s => s.job? j.id).trans hj) (f := fun k => { k with step := k.step + 1 }) fun _ h => h
  have busy : unitBusy (u.updJob j.id fun k => { k with step := k.step + 1 }) j.id = false := (written.field fun s => unitBusy s j.id).trans hb
  have failed : failedWrite (u.updJob j.id fun k => { k with step := k.step + 1 }) j.id = none := (written.field fun s => failedWrite s j.id).trans hw
  have finished := finishJob_settled (j := { j with step := j.step + 1 }) busy failed
  rw [if_neg (by simp [hcmd])] at finished
  show Host.Outcome.next _ = _
  simp only [hj, hc]
  rw [if_neg (by simp [hr, ha]; omega), if_pos hs, results]
  simp only [found, finished]
  rw [if_pos (by omega), hc]

end complete

/-! ## Tiles of the Blend unit -/

theorem State.tile?_id {s : State} {id : Nat} {x : BlendTile} (h : s.tile? id = some x) : x.id = id := by simpa using List.find?_some h

theorem State.tile?_updTile {s : State} {id : Nat} {x : BlendTile} (hx : s.tile? id = some x) {f : BlendTile → BlendTile}
    (hf : ∀ y, y.id = id → (f y).id = id := by exact fun _ h => h) : (s.updTile id f).tile? id = some (f x) := by
  have same : ((fun y : BlendTile => y.id == id) ∘ fun y => if y.id == id then f y else y) = fun y => y.id == id := by
    funext y
    by_cases hy : y.id = id <;> simp [hy, hf]
  have hn := State.tile?_id hx
  unfold State.tile? at hx ⊢
  rw [State.updTile, List.find?_map, same, hx]
  simp [hn]

theorem Accessed.checkSpans (w : Who) (xs : List (Nat × Nat)) (s : State) : Accessed s (checkSpans s w xs).1 := by
  induction xs generalizing s with
  | nil => exact .refl s
  | cons x xs ih =>
    unfold Machine.checkSpans
    split
    next h => exact .of_spanPlaces h
    next h => exact (Accessed.of_spanPlaces h).trans (ih _)

theorem Accessed.of_checkSpans {s t : State} {w : Who} {xs : List (Nat × Nat)} {r : Option (Nat × Nat × Nat)}
    (h : Machine.checkSpans s w xs = (t, r)) : Accessed s t := by
  have checked := Accessed.checkSpans w xs s
  rwa [h] at checked

/-! ### Rows that are accepted -/

/-- Of a lane: its program counter, its `mx` entry and its registers. -/
def Lane.stand (x : Lane) : Word64 × Nat × Mem := (x.pc, x.mx, x.regs)

/-- A lane whose row is accepted goes on past its `neval`, with one more `mx` entry (R450). -/
def accepted (v : Word64 × Nat × Mem) : Word64 × Nat × Mem := (v.1 + 8, v.2.1 + 1, v.2.2)

/-- The lane of a row. -/
def BlendRow.key (r : BlendRow) : Nat × Nat × Nat := (r.core, r.slot, r.lane)

/-- One row is accepted. -/
def acceptRow (s : State) (r : BlendRow) : State := passLanes (countUp s r.core r.slot [r.lane] .mx) r.core r.slot [r.lane] 8

theorem GroupsOnly.acceptRow (s : State) (r : BlendRow) : GroupsOnly s (acceptRow s r) := (GroupsOnly.updGroup ..).trans (.updGroup ..)

theorem Group.SameFlow.stand {g h : Group} (k : g.SameFlow h) {l : Nat} (hl : l < g.lanes.length) : (h.lane l).stand = (g.lane l).stand := by
  rw [k.2.2 l hl]
  rfl

/-- Lanes that go on after a two-word form, and the others of their group. -/
theorem Group.stand_pass (g : Group) (ls : List Nat) : (g.pass ls 8).lanes.length = g.lanes.length ∧ ∀ l, l < g.lanes.length →
    ((g.pass ls 8).lane l).stand = if ls.contains l then ((g.lane l).pc + 8, (g.lane l).mx, (g.lane l).regs) else (g.lane l).stand := by
  obtain ⟨f, hf⟩ : ∃ f : Nat → Lane → Lane, f = fun l x => if ls.contains l then
    { x with pc := x.pc + BitVec.ofNat 64 8, wait := g.waitAt l x.shader (x.pc + BitVec.ofNat 64 8) } else x := ⟨_, rfl⟩
  have tails (ms : List Nat) (h : Group) : h.SameFlow (ms.foldl (fun h l => h.passTail [l] (g.lane l).pc) h) := by
    induction ms generalizing h with
    | nil => exact .refl h
    | cons l ms ih => exact (Group.sameFlow_passTail ..).trans (ih _)
  have passed : g.pass ls 8 = ls.foldl (fun h l => h.passTail [l] (g.lane l).pc) { g with lanes := g.lanes.mapIdx f } := by
    rw [hf]
    rfl
  have flow := tails ls { g with lanes := g.lanes.mapIdx f }
  rw [← passed] at flow
  have count : (g.lanes.mapIdx f).length = g.lanes.length := List.length_mapIdx
  refine ⟨flow.2.1.trans count, fun l hl => ?_⟩
  have same : ((g.pass ls 8).lane l).stand = (f l (g.lane l)).stand := by
    rw [← lane_mapIdx g f l hl]
    exact flow.stand (hl.trans_eq count.symm)
  rw [same, hf]
  simp only
  split <;> rfl

/-- A row that is accepted moves its own lane alone. -/
theorem acceptRow_group? {s : State} {core slot : Nat} {g : Group} (hg : s.group? core slot = some g) (r : BlendRow) :
    ∃ h, (acceptRow s r).group? core slot = some h ∧ h.lanes.length = g.lanes.length ∧ ∀ l, l < g.lanes.length →
      (h.lane l).stand = if r.key = (core, slot, l) then accepted (g.lane l).stand else (g.lane l).stand := by
  unfold acceptRow Machine.passLanes countUp State.updLanes
  rw [State.group?_updGroup _ _ _ _ _ _ fun g => Group.held_place (g.held_pass [r.lane] 8), State.group?_updGroup, hg]
  swap
  · exact fun _ => ⟨rfl, rfl⟩
  by_cases here : core = r.core ∧ slot = r.slot
  · obtain ⟨rfl, rfl⟩ := here
    simp only [and_self, if_true, Option.map_some, Option.some.injEq, exists_eq_left']
    obtain ⟨length, lanes⟩ := Group.stand_pass
      { g with lanes := g.lanes.mapIdx fun l x => if [r.lane].contains l then x.updCount .mx (· + 1) else x } [r.lane]
    simp only [List.length_mapIdx] at length lanes
    refine ⟨length, fun l hl => ?_⟩
    rw [lanes l hl, lane_mapIdx g _ l hl]
    by_cases own : l = r.lane
    · subst own
      simp [BlendRow.key, accepted, Lane.stand, Lane.updCount]
    · simp [BlendRow.key, own, Ne.symm own]
  · simp only [here, if_false]
    refine ⟨g, rfl, rfl, fun l _ => ?_⟩
    have : r.key ≠ (core, slot, l) := fun h => here (by simp only [BlendRow.key, Prod.mk.injEq] at h; omega)
    rw [if_neg this]

/-- Rows of different lanes are accepted, each once (R450). -/
theorem acceptRow_foldl {core slot : Nat} {rows : List BlendRow} (nodup : (rows.map BlendRow.key).Nodup) {s : State} {g : Group}
    (hg : s.group? core slot = some g) : ∃ h, (rows.foldl acceptRow s).group? core slot = some h ∧ ∀ l, l < g.lanes.length →
      (h.lane l).stand = if (core, slot, l) ∈ rows.map BlendRow.key then accepted (g.lane l).stand else (g.lane l).stand := by
  induction rows generalizing s g with
  | nil => exact ⟨g, hg, fun l _ => by simp⟩
  | cons r rows ih =>
    obtain ⟨h, hh, length, lanes⟩ := acceptRow_group? hg r
    obtain ⟨fresh, rest⟩ := List.nodup_cons.1 nodup
    obtain ⟨k, hk, after⟩ := ih rest hh
    refine ⟨k, hk, fun l hl => ?_⟩
    rw [after l (by omega), lanes l hl]
    simp only [List.map_cons, List.mem_cons]
    by_cases own : r.key = (core, slot, l)
    · rw [if_neg (own ▸ fresh), if_pos own, if_pos (.inl own.symm)]
    · simp only [own, Ne.symm own, if_false, false_or]

theorem GroupsOnly.rowAinv (n : Net) (s : State) (r : BlendRow) : GroupsOnly s (rowAinv n s r) := by
  unfold Machine.rowAinv
  split
  · exact .refl s
  · exact .guarded (.setGroups ..)

/-- A row that reads an invalid register raises a flag, and changes no lane (R124). -/
theorem rowAinv_group? (n : Net) (r : BlendRow) {s : State} {core slot : Nat} {g : Group} (hg : s.group? core slot = some g) :
    ∃ h, (rowAinv n s r).group? core slot = some h ∧ h.lanes = g.lanes := by
  unfold rowAinv
  split
  · exact ⟨g, hg, rfl⟩
  next k _ =>
    split
    · refine ⟨g.raised k [r.lane] fun _ => flagAINV, ?_, Group.raised_lanes ..⟩
      rw [raiseOf, State.group?_map s _ fun h => Group.raised_place .., hg, Option.map_some]
    · exact ⟨g, hg, rfl⟩

theorem rowAinv_foldl (n : Net) (rows : List BlendRow) {s : State} {core slot : Nat} {g : Group} (hg : s.group? core slot = some g) :
    ∃ h, (rows.foldl (rowAinv n) s).group? core slot = some h ∧ h.lanes = g.lanes := by
  induction rows generalizing s g with
  | nil => exact ⟨g, hg, rfl⟩
  | cons r rows ih =>
    obtain ⟨h, hh, first⟩ := rowAinv_group? n r hg
    obtain ⟨k, hk, rest⟩ := ih hh
    exact ⟨k, hk, rest.trans first⟩

theorem rowInputs_eq {s : State} {r : BlendRow} {g : Group} (hg : s.group? r.core r.slot = some g) (n : Net) :
    rowInputs s n r = (List.range n.iw).map fun j => (g.lane r.lane).regs.readN (r.src + 4 * j) 4 := by
  simp only [rowInputs, State.lane, hg]

theorem Accessed.rowPast {s t : State} (h : Accessed s t) (n : Net) (r : BlendRow) : rowPast t n r = rowPast s n r :=
  h.field fun s => Machine.rowPast s n r

theorem Accessed.gridSlots {s t : State} (h : Accessed s t) (grid : Nat) : gridSlots t grid = gridSlots s grid :=
  h.field fun s => Machine.gridSlots s grid

/-- A tile with its rows' inputs and its descriptor. -/
def BlendTile.closed (x : BlendTile) (s : State) (n : Net) (b : List Byte) : BlendTile :=
  { x with rows := x.rows.map fun r => { r with inputs := some (rowInputs s n r) }, desc := some b }

/-- Accepting the rows of a tile changes groups and the tile (R450). -/
theorem acceptRows_tile? {s : State} {x : BlendTile} (hx : s.tile? x.id = some x) (n : Net) (b : List Byte) :
    (acceptRows s x n b).tile? x.id = some (x.closed s n b) ∧ (acceptRows s x n b).mem = s.mem := by
  have put := State.tile?_updTile hx (f := fun t => { t with rows := (x.closed s n b).rows, desc := some b })
  have moved : GroupsOnly (s.updTile x.id fun t => { t with rows := (x.closed s n b).rows, desc := some b }) (acceptRows s x n b) :=
    (GroupsOnly.foldl (GroupsOnly.rowAinv n) x.rows _).trans (.foldl GroupsOnly.acceptRow x.rows _)
  exact ⟨(moved.field fun s => s.tile? x.id).trans put, moved.field State.mem⟩

/-- Each lane of a tile's rows goes on, with one more `mx` entry, and keeps its registers (R450). -/
theorem acceptRows_group? {s : State} {x : BlendTile} (nodup : (x.rows.map BlendRow.key).Nodup) {r : BlendRow} (hr : r ∈ x.rows) {g : Group}
    (hg : s.group? r.core r.slot = some g) (hl : r.lane < g.lanes.length) (n : Net) (b : List Byte) :
    ∃ h, (acceptRows s x n b).group? r.core r.slot = some h ∧ (h.lane r.lane).stand = accepted (g.lane r.lane).stand := by
  obtain ⟨h, hh, lanes⟩ := rowAinv_foldl n x.rows
    (s := s.updTile x.id fun t => { t with rows := (x.closed s n b).rows, desc := some b }) hg
  obtain ⟨k, hk, after⟩ := acceptRow_foldl nodup hh
  refine ⟨k, hk, ?_⟩
  have listed : (r.core, r.slot, r.lane) ∈ x.rows.map BlendRow.key := List.mem_map_of_mem hr
  rw [after r.lane (by rw [lanes]; exact hl), if_pos listed, Group.lane, lanes]
  rfl

theorem closes_iff (x : BlendTile) (cycle : Nat) :
    x.closes cycle = true ↔ x.desc = none ∧ (32 ≤ x.rows.length ∨ x.opened + max 1 x.win ≤ cycle) := by
  simp [BlendTile.closes]

section close
variable {s : State} {x : BlendTile}

theorem execBlendTileClose_waits (hx : s.tile? x.id = some x) (h : x.closes s.time.cycle = false) : exec (.blendTileClose x.id) s = .next s := by
  show Host.Outcome.next _ = _
  simp only [hx, h, Bool.not_false, if_true]

/-- A tile that is due, whose descriptor and spans are in order, accepts its rows (R450). -/
theorem execBlendTileClose_accepts (hx : s.tile? x.id = some x) (h : x.closes s.time.cycle = true) {s₁ s₂ : State} {b : List Byte}
    (hread : unitRead s x.id x.who .read x.handle 256 = (s₁, .data b)) (good : netBad b (gridSlots s x.grid) = false)
    (fits : ∀ r ∈ x.rows, rowPast s (netOf b (gridSlots s x.grid)) r = false)
    (hspans : checkSpans (dropArrived s₁ x.id) x.who (netOf b (gridSlots s x.grid)).spans.flatten = (s₂, none)) :
    exec (.blendTileClose x.id) s = .next (acceptRows s₂ x (netOf b (gridSlots s x.grid)) b) := by
  have read := (Accessed.of_unitRead hread).trans (.dropArrived s₁ x.id)
  have slots : gridSlots (dropArrived s₁ x.id) x.grid = gridSlots s x.grid := read.gridSlots x.grid
  have within : (x.rows.any (rowPast (dropArrived s₁ x.id) (netOf b (gridSlots s x.grid)))) = false := by
    refine List.any_eq_false.2 fun r hr => ?_
    rw [read.rowPast, fits r hr]
    exact Bool.false_ne_true
  show Host.Outcome.next _ = _
  simp only [hx, h, hread, slots, good, within, hspans, Bool.not_true, Bool.or_false, Bool.false_eq_true, if_false]

end close

/-! ### Rows that are written back -/

theorem countDown_group? {s : State} {core slot : Nat} {g : Group} (hg : s.group? core slot = some g) (ls : List Nat) (c : Counter) :
    (countDown s core slot ls c).group? core slot =
      some { g with lanes := g.lanes.mapIdx fun l x => if ls.contains l then x.updCount c (· - 1) else x } := by
  rw [countDown, State.updLanes, State.group?_updGroup, if_pos ⟨rfl, rfl⟩, hg, Option.map_some]
  exact fun _ => ⟨rfl, rfl⟩

/-- The result of a row lands in its lane, whose `mx` entry falls (R449). -/
theorem landRow_group? {s : State} {r : BlendRow} {g : Group} (hg : s.group? r.core r.slot = some g) (hl : r.lane < g.lanes.length) (x : BlendTile)
    (ys : List Nat) : ∃ h, (landRow s x r ys).group? r.core r.slot = some h ∧ (h.lane r.lane).mx = (g.lane r.lane).mx - 1 ∧
      (h.lane r.lane).pc = (g.lane r.lane).pc ∧ (h.lane r.lane).regs = if r.dst + 4 * ys.length ≤ g.rsize then
        (g.lane r.lane).regs.writeBytes r.dst (ys.flatMap (bytesOfNum 4)) else (g.lane r.lane).regs := by
  obtain ⟨f, hf⟩ : ∃ f : Group → Lane → Lane, f = fun g x =>
    if r.dst + 4 * ys.length ≤ g.rsize then { x with regs := x.regs.writeBytes r.dst (ys.flatMap (bytesOfNum 4)) } else x := ⟨_, rfl⟩
  have landed : (landRow s x r ys).group? r.core r.slot =
      (countDown (s.updGroup r.core r.slot fun g => g.updLane r.lane (f g)) r.core r.slot [r.lane] .mx).group? r.core r.slot := by
    unfold landRow
    rw [hf]
    simp only
    split <;> rfl
  have wrote : (s.updGroup r.core r.slot fun g => g.updLane r.lane (f g)).group? r.core r.slot = some (g.updLane r.lane (f g)) := by
    rw [State.group?_updGroup, if_pos ⟨rfl, rfl⟩, hg, Option.map_some]
    exact fun _ => ⟨rfl, rfl⟩
  have hl' : r.lane < (g.updLane r.lane (f g)).lanes.length := hl.trans_eq (Group.lanes_length_updLane ..).symm
  have counted := countDown_group? wrote [r.lane] .mx
  refine ⟨_, landed.trans counted, ?_⟩
  rw [lane_mapIdx _ _ _ hl', if_pos (by simp), Group.lane_updLane, if_pos ⟨rfl, hl⟩, hf]
  by_cases fits : r.dst + 4 * ys.length ≤ g.rsize <;> simp [Lane.updCount, fits]

/-- A row that has landed is gone from its tile. -/
theorem landRow_rows {s : State} {x : BlendTile} {r : BlendRow} {ys : List Nat} {y : BlendTile} (hy : y ∈ (landRow s x r ys).render.tiles)
    (hid : y.id = x.id) : ∀ v ∈ y.rows, v.id ≠ r.id := by
  unfold landRow at hy
  simp only at hy
  split at hy
  · exact absurd hid (by simpa using (List.mem_filter.1 hy).2)
  · obtain ⟨z, -, rfl⟩ := List.mem_map.1 hy
    intro v hv
    split at hv
    · simpa using (List.mem_filter.1 hv).2
    next other => 
      simp only [other] at hid
      exact absurd hid (by simpa using other)

section writeback
variable {s : State} {id : Nat} {x : BlendTile} {r : BlendRow} {b : List Byte}
  (hx : s.render.tiles.find? (fun x => x.rows.any fun r => r.id == id) = some x) (hr : x.rows.find? (fun r => r.id == id) = some r)
  (hb : x.desc = some b)
include hx hr hb

theorem execBlendRowWriteback_waits (h : rowRuns s r = false) : exec (.blendRowWriteback id) s = .next s := by
  show Host.Outcome.next _ = _
  simp only [hx, hr, hb, h, Bool.not_false, Bool.true_or, if_true]

/-- A row that has moved takes its descriptor and its inputs again (R339). -/
theorem execBlendRowWriteback_rereads (ran : x.ran = true) (h : rowRuns s r = true) (hi : r.inputs = none) {s₂ : State} {new : List Byte}
    (hread : unitRead s r.id x.who .read x.handle 256 = (s₂, .data new)) (good : netBad new (gridSlots s x.grid) = false)
    (fits : rowPast s (netOf new (gridSlots s x.grid)) r = false) : exec (.blendRowWriteback id) s =
      .next ((dropArrived s₂ r.id).updTile x.id fun t => { t with
        desc := some new, rows := t.rows.map fun v => if v.id == r.id then
          { v with inputs := some (rowInputs (dropArrived s₂ r.id) (netOf new (gridSlots s x.grid)) r) } else v }) := by
  have read := (Accessed.of_unitRead hread).trans (.dropArrived s₂ r.id)
  have slots : gridSlots (dropArrived s₂ r.id) x.grid = gridSlots s x.grid := read.gridSlots x.grid
  have within : rowPast (dropArrived s₂ r.id) (netOf new (gridSlots s x.grid)) r = false :=
    (read.rowPast ..).trans fits
  show Host.Outcome.next _ = _
  simp only [hx, hr, hb, ran, h, hi, rereadRow, hread, slots, good, within, Bool.not_true, Bool.false_and, Bool.or_false, Bool.false_eq_true,
    if_false, Option.isNone_none, if_true]

/-- A row whose weights can be read lands (R449). -/
theorem execBlendRowWriteback_lands (ran : x.ran = true) (h : rowRuns s r = true) (hi : r.inputs ≠ none) {s₁ : State} {d : List (List Byte)}
    (hread : unitReads s r.id x.who .read (netOf b (gridSlots s x.grid)).spans.flatten = (s₁, .ok d)) : exec (.blendRowWriteback id) s =
      .next (landRow (dropArrived s₁ r.id) x r (rowResults (netOf b (gridSlots s x.grid))
        (some (cutLike (netOf b (gridSlots s x.grid)).spans d)) (r.inputs.getD []))) := by
  have taken : r.inputs.isNone = false := by simpa [Option.isSome_iff_ne_none] using hi
  show Host.Outcome.next _ = _
  simp only [hx, hr, hb, ran, h, taken, hread, Bool.not_true, Bool.false_and, Bool.or_false, Bool.false_eq_true, if_false, if_true]

end writeback

/-! ## The statement -/

theorem State.cmd?_id {s : State} {id : Nat} {c : EngCmd} (h : s.cmd? id = some c) : c.id = id := by simpa using List.find?_some h

/-- A matrix block that has started, or waits for a replay, does nothing. -/
theorem execMatrixBlock_stays {s : State} {c : EngCmd} {card : List Byte} (hc : s.cmd? c.id = some c) (hb : c.body = .matrix card)
    (h : c.started = true ∨ c.paused ≠ none) : exec (.matrixBlock c.id) s = .next s := by
  show Host.Outcome.next _ = _
  simp only [hc, hb]
  rw [if_pos (by rcases h with h | h <;> simp [h, Option.isSome_iff_ne_none])]

/-- The card of a chain's block starts a job (R116, R439). -/
theorem execMatrixBlock_starts {s : State} {c : EngCmd} {card : List Byte} (hc : s.cmd? c.id = some c) (hb : c.body = .matrix card)
    (hs : c.started = false) (hp : c.paused = none) : exec (.matrixBlock c.id) s = .next { (s.updCmd c.id fun c => { c with started := true }) with
      render := { s.render with jobs := s.render.jobs ++ [chainJob s.fresh c card] }
      fresh := s.fresh + 1 } := by
  show Host.Outcome.next _ = _
  simp only [hc, hb, hs, hp, Option.isSome_none, Bool.or_self, Bool.false_eq_true, if_false]

/-- A command that is changed is found where it stood. -/
theorem cmd?_updCmd {s : State} {id : Nat} {c : EngCmd} (hc : s.cmd? id = some c) {f : EngCmd → EngCmd} (hf : ∀ d, d.id = id → (f d).id = id) :
    (s.updCmd id f).cmd? id = some (f c) := by
  have same : ((fun d : EngCmd => d.id == id) ∘ fun d => if d.id == id then f d else d) = fun d => d.id == id := by
    funext d
    by_cases hd : d.id = id <;> simp [hd, hf]
  have hn := State.cmd?_id hc
  unfold State.cmd? at hc ⊢
  rw [State.updCmd, List.find?_map, same, hc]
  simp [hn]

/-- Tiles with different identifiers are found by them. -/
theorem tile?_of_mem {s : State} (nodup : (s.render.tiles.map BlendTile.id).Nodup) {x : BlendTile} (hx : x ∈ s.render.tiles) :
    s.tile? x.id = some x := by
  cases h : s.tile? x.id with
  | none => exact absurd (List.find?_eq_none.1 h x hx) (by simp)
  | some y => exact congrArg some (List.inj_on_of_nodup_map nodup (List.mem_of_find?_eq_some h) hx (State.tile?_id h))

theorem dstBit_eq (b : List Byte) (k : Nat) : dstBit b k = (b.getD 53 0).getLsbD k := rfl

theorem dstSpan_zero (c : Card) (r : RankSnap) : dstSpan c r 0 = (r.base + 128 * c.dst, if c.split then 256 else 128) := by
  unfold dstSpan
  split <;> simp

/-- A job that has written its registers leaves: memory, and the registers of every lane, stay (R439, R444). -/
theorem leaveEngine_written {s u : State} {j : MatrixJob} (written : GroupsOnly s u) (hid : j.id < s.fresh) {f : MatrixJob → MatrixJob}
    {k : MatrixJob} (hk : k.id = j.id) {core slot : Nat} {g : Group} (hg : u.group? core slot = some g) :
    let t := leaveEngine (raiseAg (u.updJob j.id f) k) k
    t.job? j.id = none ∧ t.mem = s.mem ∧ ∃ h, t.group? core slot = some h ∧ h.held = g.held := by
  have raised := Rounds.raiseAg (u.updJob j.id f) k
  have left := Rounds.leaveEngine (raiseAg (u.updJob j.id f) k) k
  refine ⟨?_, ?_, group?_of_held (left.held.trans raised.held) hg⟩
  · rw [← hk]
    refine job?_leaveEngine ?_
    rw [hk]
    exact hid.trans_eq (written.field State.fresh).symm
  · exact (left.field State.mem).trans ((raised.field State.mem).trans (written.field State.mem))

/-- Settles O52, unit by unit: what a unit reads leaves the jobs, the tiles and the groups as they were, and the rounds of keyrings that a job
lets end leave the registers of every lane. -/
theorem matrixAndBlendRun : Obligations.MatrixAndBlendRun := by
  intro s id
  refine ⟨?block, ?job, ?tile, ?row⟩
  case block =>
    intro c card hc hb
    obtain rfl := State.cmd?_id hc
    refine ⟨execMatrixBlock_stays hc hb, fun hs hp => ?_⟩
    exact ⟨_, chainJob s.fresh c card, execMatrixBlock_starts hc hb hs hp, rfl, cmd?_updCmd hc fun _ h => h, rfl, rfl, rfl, rfl, rfl, rfl,
      rfl, rfl⟩
  case job =>
    intro j hj w fs
    obtain rfl := State.job?_id hj
    refine ⟨?held, ?opens, ?step, ?registers, ?chain⟩
    case held =>
      intro hr
      refine ⟨?_, fun hc => ?_⟩
      · show Host.Outcome.next _ = _
        simp only [hj, hr, Bool.not_false, if_true]
      · obtain ⟨b, hc⟩ := Option.ne_none_iff_exists'.1 hc
        exact execMatrixJobComplete_waits hj hc (.inl hr)
    case opens =>
      intro s₁ b hr hc hread
      have run := execMatrixKstep_opens hj hr hc
      refine ⟨fun code off hcmd hid bad mem => ?_, fun good acc mem => ?_⟩
      · rw [openJob_bad (fs := fs) rfl hc hread (by rw [hcmd]; exact bad)] at run
        have read := Accessed.of_unitRead hread
        have card : (jobCard s₁ { j with card := some b } b).mem = false := (dstBit_eq b 5).trans mem
        obtain ⟨gone, raised⟩ := endJob_ends (j := { j with card := some b }) rfl card hcmd (hid.trans_le read.fresh) code (64 + off)
        exact ⟨_, run, gone, fun part => raised (part.trans_eq read.length.symm)⟩
      · rw [openJob_zero (fs := fs) rfl hc hread good acc mem] at run
        have read := (Accessed.of_unitRead hread).trans (.dropArrived s₁ j.id)
        exact ⟨_, run, State.job?_updJob ((read.job? _).trans hj) fun _ _ => rfl⟩
    case step =>
      intro s₁ b d hr hc ha hs c as bs at_ hread
      have run := execMatrixKstep_steps hj hr hc ha hs
      obtain ⟨k, hk, step, card, regs, length, accs⟩ := jobStep_job (c := c) hj hread
      refine ⟨_, k, run, hk, step, card, regs, length, fun n hn => ?_⟩
      rw [accs n hn, splitParts_getD, splitParts_getD]
      rfl
    case registers =>
      intro b g hr hc ha hcmd hid c r o
      refine ⟨fun hs => execMatrixJobComplete_waits hj hc (.inr hs), fun hs hm h1 ht hb hw hat hg home hlanes fits => ?_⟩
      have run := execMatrixJobComplete_regs hj hr hc ha hs hcmd hb hw hm h1 ht
      have span : dstSpan c r 0 = (o, if c.split then 256 else 128) := dstSpan_zero ..
      obtain ⟨k, hk, regs⟩ := writeTile_group? 0 ((jobResults s j c).getD 0 []) false hat hg home (by rw [span]; exact fits)
      obtain ⟨gone, mem, h, hh, held⟩ := leaveEngine_written (k := { j with step := j.step + 1 }) (f := fun k => { k with step := k.step + 1 })
        (.writeTile ..) hid rfl hk
      refine ⟨_, h, run, gone, mem, hh, fun i hi => ?_⟩
      rw [Group.held_regs held, regs i hi (by omega), span]
    case chain =>
      intro b hr hc ha hs hcmd hb hw
      exact ⟨_, execMatrixJobComplete_chain hj hr hc ha hs hcmd hb hw, job?_dropJob ..⟩
  case tile =>
    intro x hx w due
    obtain rfl := State.tile?_id hx
    refine ⟨fun not_due => execBlendTileClose_waits hx ?_, ?accepts⟩
    · rw [← Bool.not_eq_true, closes_iff]
      exact not_due
    case accepts =>
      intro s₁ s₂ b hdue hread n good fits hspans nodup
      have read := ((Accessed.of_unitRead hread).trans (.dropArrived s₁ x.id)).trans (.of_checkSpans hspans)
      have run := execBlendTileClose_accepts hx ((closes_iff ..).2 hdue) hread good fits hspans
      obtain ⟨tile, mem⟩ := acceptRows_tile? ((read.field fun s => s.tile? x.id).trans hx) n b
      refine ⟨_, x.closed s₂ n b, run, tile, rfl, mem, ?_, fun r hr g hg hl => ?_⟩
      · simp [BlendTile.closed, Function.comp_def]
      · have here : s₂.group? r.core r.slot = some g := (read.field fun s => s.group? r.core r.slot).trans hg
        obtain ⟨h, hh, stand⟩ := acceptRows_group? nodup hr here hl n b
        refine ⟨List.mem_map.2 ⟨r, hr, by rw [rowInputs_eq here]⟩, h, hh, ?_⟩
        simp only [Lane.stand, accepted, Prod.mk.injEq] at stand
        exact stand
  case row =>
    intro x r b g s₁ d hx hr hb ran hg hl n ids
    have hid : r.id = id := by simpa using List.find?_some hr
    subst hid
    refine ⟨execBlendRowWriteback_waits hx hr hb, ?rereads, ?lands⟩
    case rereads =>
      intro s₂ new runs hi hids hread k good fits
      have run := execBlendRowWriteback_rereads hx hr hb ran runs hi hread good fits
      have read := (Accessed.of_unitRead hread).trans (.dropArrived s₂ r.id)
      have found := (read.field fun s => s.tile? x.id).trans (tile?_of_mem hids (List.mem_of_find?_eq_some hx))
      have here : (dropArrived s₂ r.id).group? r.core r.slot = some g := (read.field fun s => s.group? r.core r.slot).trans hg
      refine ⟨_, _, run, rfl, State.tile?_updTile found, rfl, List.mem_map.2 ⟨r, List.mem_of_find?_eq_some hr, ?_⟩⟩
      rw [if_pos (by simp), rowInputs_eq here]
    case lands =>
      intro runs hi hread
      have run := execBlendRowWriteback_lands hx hr hb ran runs hi hread
      have read := (Accessed.of_unitReads hread).trans (.dropArrived s₁ r.id)
      have here : (dropArrived s₁ r.id).group? r.core r.slot = some g := (read.field fun s => s.group? r.core r.slot).trans hg
      obtain ⟨h, hh, mx, pc, regs⟩ := landRow_group? here hl x (rowResults n (some (cutLike n.spans d)) (r.inputs.getD []))
      exact ⟨_, h, run, hh, mx, pc, regs, fun _ y hy hyx => landRow_rows hy hyx⟩

end Sys2Proof.Machine


/-!
One step: fetch, decode and dispatch (R152, R153, R347, R354).
-/
namespace Sys2Proof.Machine

/-! ## Fetch -/

/-- A number that fits in `n` bytes is what its bytes stand for. -/
theorem numOfBytes_bytesOfNum (n v : Nat) (h : v < 256 ^ n) : numOfBytes (bytesOfNum n v) = v := by
  induction n generalizing v with
  | zero => simp at h; simp [bytesOfNum, numOfBytes, h]
  | succ n ih =>
    rw [bytesOfNum, numOfBytes, ih _ (by rw [Nat.div_lt_iff_lt_mul (by decide), ← pow_succ]; exact h), BitVec.toNat_ofNat]
    omega

theorem readPlace_lt (s : State) (p : Place) (n : Nat) : (readPlace s p n).1 < 256 ^ n := by
  simpa [readPlace] using numOfBytes_lt ((List.range n).map fun k => readByte s (p.plus k))

/-- A word inside a page that stands on the fetching core's die, in bytes that are not poisoned, is read at once. -/
theorem fetchWord_here {s t : State} {g : Group} {l pc : Nat} {p : Place} (page : pc % 65536 + 4 ≤ 65536)
    (mapped : translate s (whoLane s g 0) .fetch pc = (t, .ok p)) (here : t.links.reach (dieOfCore g.core) p = .here)
    (good : (readPlace t p 4).2 = false) : fetchWord s g l pc = (t, .data (bytesOfNum 4 (readPlace t p 4).1)) := by
  have inPage : 4 ≤ 65536 - pc % 65536 := by omega
  simp only [fetchWord, unitRead, unitReadAs, unitReadPage, mapped, readAt]
  rw [if_pos inPage, show t.links.reach (whoLane s g 0).die p = .here from here]
  simp [good]

theorem fetchInstr_oneWord {s t : State} {g : Group} {l pc w : Nat} (first : fetchWord s g l pc = (t, .data (bytesOfNum 4 w)))
    (small : w < 256 ^ 4) (one : isTwoWord w = false) : fetchInstr s g l pc = (t, .words w 0) := by
  simp only [fetchInstr, first, numOfBytes_bytesOfNum 4 w small, one, Bool.false_eq_true, if_false]

theorem fetchInstr_twoWords {s t u : State} {g : Group} {l pc w v : Nat} (first : fetchWord s g l pc = (t, .data (bytesOfNum 4 w)))
    (small : w < 256 ^ 4) (two : isTwoWord w = true) (second : fetchWord t g l ((pc + 4) % 2 ^ 64) = (u, .data (bytesOfNum 4 v)))
    (small' : v < 256 ^ 4) : fetchInstr s g l pc = (u, .words w v) := by
  simp only [fetchInstr, first, numOfBytes_bytesOfNum 4 w small, two, if_true, second, numOfBytes_bytesOfNum 4 v small']

/-! ## An issue -/

section issue
variable {s : State} {core slot lane : Nat} {g : Group}

theorem fetchCohort_idle (h : ∀ g, s.group? core slot = some g → groupMayIssue s g = false ∨ cohortOf s g lane = []) :
    fetchCohort s core slot lane = .nothing s := by
  unfold fetchCohort
  split
  · rfl
  · rename_i g hg
    rcases h g hg with k | k <;> simp [k]

theorem fetchCohort_words {t : State} {w1 w2 : Nat} (hg : s.group? core slot = some g) (may : groupMayIssue s g = true)
    (lanes : cohortOf s g lane ≠ []) (fetched : fetchInstr s g lane (g.lane lane).pc.toNat = (t, .words w1 w2)) :
    fetchCohort s core slot lane = .words { takeQuarter (dropArrived t (fetchOwner g lane)) g with
      issue := ⟨core, slot, cohortOf s g lane, (g.lane lane).pc, w1, w2⟩ } w1 w2 := by
  simp [fetchCohort, hg, may, lanes, fetched]

theorem fetchCohort_fault {t : State} {c lv a : Nat} (hg : s.group? core slot = some g) (may : groupMayIssue s g = true)
    (lanes : cohortOf s g lane ≠ []) (faulted : fetchInstr s g lane (g.lane lane).pc.toNat = (t, .fault c lv a)) :
    fetchCohort s core slot lane = .nothing (parkLanes (dropArrived t (fetchOwner g lane)) core slot 3
      ((cohortOf s g lane).map fun l => ⟨l, c, lv, BitVec.ofNat 64 a⟩)) := by
  simp [fetchCohort, hg, may, lanes, faulted]

/-- A group without a shadow issues alone. -/
theorem issueShadowed_alone {ex : Instr → State → Result} {i : Instr} (h : ∀ g, s.issuing? = some g → shadowOf s g = none) :
    issueShadowed ex i s = ex i s := by
  unfold issueShadowed
  split
  · rfl
  · rw [h _ ‹_›]

/-- Whether a group has a shadow depends on its place alone. -/
theorem shadowOf_place {g h : Group} (core : h.core = g.core) (slot : h.slot = g.slot) : shadowOf s h = shadowOf s g := by
  simp only [shadowOf, Shadow.of, core, slot]

end issue

/-! ## One step -/

theorem step_act {s : State} {a : Act} {rest : List Act} (h : s.agenda = a :: rest) :
    step s = onNext (settleAfter s) (stepAct { s with agenda := rest } a) := by
  simp only [step, h]

theorem stepIssue_fetches {s : State} {core slot lane : Nat} (h : shadowIn s core slot = none) :
    stepIssue s core slot lane = match fetchCohort s core slot lane with
      | .nothing s' => .next s'
      | .words s' w1 w2 => match decodeWords w1 w2 with
        | .ok i => issueShadowed exec i s'
        | .error _ => .next (reservedWord s') := by
  simp only [stepIssue, h] <;> rfl

theorem Group.settled_cleared (g : Group) (now : Nat) :
    ({ g.settled now with current := false, readyAt := 0 } : Group) = { g with current := false, readyAt := 0 } := rfl

/-- Settles O1: a step is the move that stands first in the agenda, and an issue is a fetch, a decode and the meaning of the word. -/
theorem stepRunsDecoded : Obligations.StepRunsDecoded := by
  intro s rest u
  refine ⟨?words, ?fault, ?idle, ?event, ?oneWord, ?twoWords, ?settles⟩
  case words =>
    intro core slot lane g u' w1 w2 next unshadowed hg may lanes fetched v
    have run : step s = onNext (settleAfter s) (match decodeWords w1 w2 with
        | .ok i => issueShadowed exec i v
        | .error _ => .next (reservedWord v)) := by
      rw [step_act next, stepAct, stepIssue_fetches unshadowed, fetchCohort_words hg may lanes fetched]
    refine ⟨fun i good => ?_, fun e bad => by rw [run, bad]; rfl⟩
    rw [good] at run
    refine ⟨run, fun alone => ?_⟩
    rw [run]
    refine congrArg _ (issueShadowed_alone fun h hh => ?_)
    obtain ⟨hc, hs⟩ := isAt_of_issuing hh
    obtain ⟨gc, gs⟩ := isAt_of_group? hg
    rw [shadowOf_place (hc.trans gc.symm) (hs.trans gs.symm), alone]
  case fault =>
    intro core slot lane g u' c lv a next unshadowed hg may lanes faulted
    rw [step_act next, stepAct, stepIssue_fetches unshadowed, fetchCohort_fault hg may lanes faulted]
    rfl
  case idle =>
    intro core slot lane next unshadowed idle
    rw [step_act next, stepAct, stepIssue_fetches unshadowed, fetchCohort_idle idle]
    rfl
  case event =>
    intro i next
    rw [step_act next]
    cases he : encode i <;> simp [stepAct, Instr.isEvent, he, onNext, u]
  case oneWord =>
    intro g lane pc u' p page mapped here good one
    exact fetchInstr_oneWord (fetchWord_here page mapped here good) (readPlace_lt ..) one
  case twoWords =>
    intro g lane pc u₁ u₂ p₁ p₂ page page' mapped here good two mapped' here' good'
    exact fetchInstr_twoWords (fetchWord_here page mapped here good) (readPlace_lt ..) two (fetchWord_here page' mapped' here' good')
      (readPlace_lt ..)
  case settles =>
    intro t
    refine ⟨rfl, ?_⟩
    have groups : (settleAfter s t).groups = t.groups.map fun g => g.settled (t.fresh + 1) := rfl
    simp only [groups, List.map_map, Function.comp_def, Group.settled_cleared]

end Sys2Proof.Machine


/-!
Waits, fences, yields and waits on time: the words of the group set that pass, or hold their cohort at the instruction (R147, R156, R217, R220,
R428, R429).
-/
namespace Sys2Proof.Machine

/-! ## Words of the group set that wait -/

section waits
variable {s : State} {g : Group} {q : Nat} {form : GroupForm}

/-- A group-set word that fits runs its body on the cohort past the word. -/
theorem groupIssue_fits (fits : GroupFits s g q form) (body : Group → State → State) :
    groupIssue s q form body = runIssue s (body g) := by
  obtain ⟨hg, hq, hr⟩ := fits
  have allowed : (inShader s && form.refused q) = false := by
    cases h : inShader s
    · rfl
    · simp [hr h]
  simp only [groupIssue, hg, allowed, hq, Bool.false_eq_true, if_false, if_true]

/-- A word whose body changes its group's own registers alone leaves what `GroupWord` says. -/
theorem groupIssue_registers (fits : GroupFits s g q form) {body : Group → State → State} (f : Group → Group)
    (same : body g (advance s) = (advance s).updGroup g.core g.slot f) (hc : ∀ h, (f h).core = h.core) (hs : ∀ h, (f h).slot = h.slot)
    (hl : ∀ h : Group, ∀ ls, f { h with lanes := ls } = { f h with lanes := ls }) :
    ∃ t, Host.Outcome.next (groupIssue s q form body) = (.next t : Result) ∧ GroupWord s t (f g) := by
  obtain ⟨hgc, hgs⟩ := isAt_of_issuing fits.1
  obtain ⟨t, run, word⟩ := groupCompute_word fits f hc hs hl
  refine ⟨t, ?_, word⟩
  rw [← run, groupCompute, groupIssue_fits fits, groupIssue_fits fits]
  simp only [runIssue, same, hgc, hgs]

/-- A word whose body changes nothing more leaves its group past the word. -/
theorem groupIssue_passes (fits : GroupFits s g q form) {body : Group → State → State} (same : body g (advance s) = advance s) :
    ∃ t, Host.Outcome.next (groupIssue s q form body) = (.next t : Result) ∧ GroupWord s t g :=
  groupIssue_registers fits (fun h => h) (by rw [same, State.updGroup_id]) (fun _ => rfl) (fun _ => rfl) fun _ _ => rfl

end waits

/-! ### Lanes that wait at the instruction -/

/-- A wait that no loop's end changes: it is neither none nor that of a loop's end. -/
def LaneWait.steady (w : LaneWait) : Prop := w ≠ .none ∧ ∀ k, w ≠ .loopEnd k

theorem LaneWait.shifted_steady {w : LaneWait} (h : w.steady) (gone : Nat → Bool) : w.shifted gone = w := by
  cases w with
  | loopEnd k => exact absurd rfl (h.2 k)
  | _ => rfl

section steady
variable {w : LaneWait} (h : w.steady) {g : Group} {l : Nat} (hl : l < g.lanes.length) (hw : (g.lane l).wait = w)
include h hl hw

theorem Group.closeLevels_wait : (g.closeLevels.lane l).wait = w := by
  unfold Group.closeLevels
  simp only
  split
  · exact hw
  · simp only [Group.lane_of_lt hl] at hw
    simp [Group.lane, hl, hw, LaneWait.shifted_steady h]

theorem Group.leaveFrom_wait (k : Nat) (m : BitVec 32) : ((g.leaveFrom k m).lane l).wait = w :=
  Group.closeLevels_wait (g := { g with loops := _ }) h hl hw

theorem Group.leaveBy_wait (ls : List Nat) (a : Word64) (f : Nat → Word64) : ((g.leaveBy ls a f).lane l).wait = w := by
  induction ls generalizing g with
  | nil => exact hw
  | cons i ls ih =>
    rw [Group.leaveBy, List.foldl_cons, ← Group.leaveBy]
    split
    · next k _ => exact ih (by rw [(Group.sameFlow_leaveFrom g k _).2.1]; exact hl) (Group.leaveFrom_wait h hl hw k _)
    · exact ih hl hw

/-- Lanes that wait do not come to a loop's end. -/
theorem Group.atLoopEnd_wait (i : Issue) (ls : List Nat) : ((g.atLoopEnd i ls).lane l).wait = w := by
  have marked (b : Nat → Lane → Bool) (off : b l (g.lane l) = false) :
      (({ g with lanes := g.lanes.mapIdx fun l x => if b l x then { x with wait := g.waitAt l x.shader x.pc } else x } : Group).lane l).wait = w := by
    rw [lane_mapIdx g _ l hl, off]
    exact hw
  have off : (ls.contains l && decide ((g.lane l).pc = i.next) && (g.lane l).parked.isNone && (g.lane l).live &&
      decide ((g.lane l).wait = .none)) = false := by
    simp [hw, h.1]
  unfold Group.atLoopEnd
  simp only
  split
  · exact Group.leaveBy_wait h (by simpa using hl) (marked _ off) _ _ _
  · exact marked _ off

end steady

/-- A group in which some lanes wait at the instruction that they issue. -/
def Group.heldAt (g : Group) (i : Issue) (w : LaneWait) : Group :=
  { g with lanes := (g.lanes.mapIdx fun l x => if i.lanes.contains l then { x with pc := i.next, wait := .none } else x).mapIdx fun l x =>
      if i.lanes.contains l then { x with pc := i.pc, wait := w } else x }

theorem Group.lane_heldAt (g : Group) (i : Issue) (w : LaneWait) {l : Nat} (hl : l < g.lanes.length) (hm : l ∈ i.lanes) :
    (g.heldAt i w).lane l = { g.lane l with pc := i.pc, wait := w } := by
  simp [Group.heldAt, Group.lane, hl, hm]

/-- Lanes that a word holds at it, for something that no loop's end is, wait there when the word has run. -/
theorem runIssue_waitHere {s : State} {g : Group} (hg : s.issuing? = some g) {w : LaneWait} (h : w.steady) :
    { runIssue s (fun s' => waitHere s' s.issue.lanes w) with groups := s.groups } = s ∧
    ∀ l, l < g.lanes.length → l ∈ s.issue.lanes →
      ((runIssue s fun s' => waitHere s' s.issue.lanes w).lane s.issue.core s.issue.slot l).pc = s.issue.pc ∧
      ((runIssue s fun s' => waitHere s' s.issue.lanes w).lane s.issue.core s.issue.slot l).wait = w := by
  refine ⟨rfl, fun l hl hm => ?_⟩
  have found : (runIssue s fun s' => waitHere s' s.issue.lanes w).group? s.issue.core s.issue.slot =
      some ((g.heldAt s.issue w).atLoopEnd s.issue s.issue.lanes) := by
    have start : s.group? s.issue.core s.issue.slot = some g := hg
    rw [runIssue, markLoopEnd_eq, State.group?_updGroup _ _ _ _ _ _ fun x => (Group.sameFlow_atLoopEnd x _ _).place]
    simp only [waitHere, advance, State.updLanes, State.updGroup_issue, and_self, if_true]
    rw [State.group?_updGroup, State.group?_updGroup, start]
    · simp only [and_self, if_true, Option.map_some, Group.heldAt]
    all_goals exact fun _ => ⟨rfl, rfl⟩
  have len : l < (g.heldAt s.issue w).lanes.length := by simpa [Group.heldAt] using hl
  have lane := g.lane_heldAt s.issue w hl hm
  simp only [State.lane, found]
  refine ⟨?_, Group.atLoopEnd_wait h len (by rw [lane]) _ _⟩
  rw [(Group.sameFlow_atLoopEnd (g.heldAt s.issue w) s.issue s.issue.lanes).2.2 l len, lane]

/-! ### Waits, yields and waits on time -/

theorem waitOnCounters : Rule.WaitOnCounters := by
  intro s g all ld st cp mx fits most conds met
  have test : waitMet g s.issue.lanes all ld st cp mx = met := rfl
  refine ⟨fun holds => ?_, fun fails => ⟨_, rfl, ?_⟩⟩
  · exact groupIssue_registers fits (fun h => { h with stampRun := false }) (by simp only [test, holds, if_true, endStamps]) (fun _ => rfl)
      (fun _ => rfl) fun _ _ => rfl
  · rw [groupIssue_fits fits]
    simp only [test, fails, Bool.false_eq_true, if_false]
    exact runIssue_waitHere fits.1 ⟨nofun, nofun⟩

theorem waitOnTime : Rule.WaitOnTime := by
  intro s g q a fits
  refine ⟨fun past => groupIssue_passes fits (if_pos past), fun early => ⟨_, rfl, ?_⟩⟩
  rw [groupIssue_fits fits]
  simp only [if_neg (Nat.not_le.2 early)]
  exact runIssue_waitHere fits.1 ⟨nofun, nofun⟩

theorem yield : Rule.Yield := by
  intro s g q fits
  refine ⟨fun detm => ?_, fun free rival => ?_, fun free alone => ?_⟩
  · exact groupIssue_registers fits (fun h => { h with current := false }) (by simp only [detm, if_true, yieldQuarter]) (fun _ => rfl)
      (fun _ => rfl) fun _ _ => rfl
  · obtain ⟨t, run, rest, -, h, hh, same, -⟩ := groupIssue_registers fits (body := fun g s' =>
        if detmOf s g then yieldQuarter s' g.core g.slot else if rivalWaits s' g then leaveActive s' g.core g.slot else s')
      (fun h => { h with active := false, slowSince := s.time.now, readyAt := 0 })
      (by simp only [free, rival, Bool.false_eq_true, if_false, if_true]; rfl) (fun _ => rfl) (fun _ => rfl) fun _ _ => rfl
    have left : h.active = false := by simpa using congrArg Group.active same
    exact ⟨t, h, run, hh, left, by rw [← rest]⟩
  · exact groupIssue_passes fits (by simp only [free, alone, Bool.false_eq_true, if_false])

/-! ### Fences -/

theorem drainCores_empty {s : State} (h : s.ms.sb = []) (cores : List Nat) : drainCores s cores = s := by simp [drainCores, h]

/-- A group that may have begun a stamping run. -/
def Group.stamping (g : Group) (on : Bool) : Group := { g with stampRun := g.stampRun || on }

/-- What an `xfence` drains where the store buffers it looks at are empty: nothing; a release of `die` scope starts a stamping run. -/
theorem fenceDrain_empty {s : State} {g : Group} {p1 p2 sc : Nat} (h : 6 ≤ sc ∨ (p1 = 0 ∧ p2 ≠ 0) → s.ms.sb = []) :
    fenceDrain s g p1 p2 sc = s.updGroup g.core g.slot fun x => x.stamping (decide (6 ≤ sc)) := by
  unfold fenceDrain Group.stamping
  split
  · next wide => simp [releaseDrain, Nat.not_lt.2 wide, drainCores_empty (h (.inl wide)), wide]
  · next narrow =>
    simp only [narrow, decide_false, Bool.or_false, State.updGroup_id]
    split
    · next other => exact drainCores_empty (h (.inr (by simpa using other))) _
    · rfl

theorem pathBusy_updGroup {s : State} {c k : Nat} (f : Group → Group) (place : ∀ x, (f x).core = x.core ∧ (f x).slot = x.slot)
    (index : ∀ x, (f x).index = x.index) (g : Group) (ls : List Nat) (path : Nat) : pathBusy (s.updGroup c k f) g ls path = pathBusy s g ls path := by
  have home (l : Nat) : (homeOf (s.updGroup c k f) g l).index = (homeOf s g l).index := by
    unfold homeOf
    split
    · rfl
    · next t _ =>
      rw [State.group?_updGroup _ _ _ _ _ _ place]
      split
      · cases s.group? g.core t <;> simp [index]
      · rfl
  simp only [pathBusy, home, State.updGroup_ms, State.updGroup_render, State.updGroup_eng]

theorem crossFence : Rule.CrossFence := by
  intro s g q p1 p2 sc fits empty idle released
  refine groupIssue_registers fits (fun h => { h with stampRun := false }) ?_ (fun _ => rfl) (fun _ => rfl) fun _ _ => rfl
  have drained := fenceDrain_empty (s := advance s) (g := g) (p1 := p1) (p2 := p2) (sc := sc) empty
  let u := (advance s).updGroup g.core g.slot fun x => x.stamping (decide (6 ≤ sc))
  have still : pathBusy u g s.issue.lanes p1 = false := by
    rw [pathBusy_updGroup (fun x => x.stamping _) (fun _ => ⟨rfl, rfl⟩) fun _ => rfl, idle]
  have stored : (decide (p1 = 0) && decide (p2 ≠ 0) && storePending u g s.issue.lanes) = false := by
    by_cases other : p1 = 0 ∧ p2 ≠ 0
    · have : u.ms.sb = [] := empty (.inr other)
      simp [storePending, this]
    · simp only [Bool.and_eq_false_iff, decide_eq_false_iff_not]
      tauto
  have done : releaseWaits u g s.issue.lanes sc = false := released
  simp only [drained, still, stored, done, Bool.or_self, Bool.false_eq_true, if_false, endStamps, u]
  exact State.updGroup_updGroup (advance s) g.core g.slot (fun x => x.stamping _) _ fun _ => rfl

/-- Settles O23: each word passes where its condition holds, and holds its cohort where it does not. -/
theorem waitsAndFences : Obligations.WaitsAndFences := ⟨waitOnCounters, crossFence, yield, waitOnTime⟩

end Sys2Proof.Machine


/-!
Atomics at their places (R405).
-/
namespace Sys2Proof.Machine

section atomic
open Sys2Proof.Tests

/-- A group whose lane 5 has an address in W0. Byte 0x1FFF0 stands behind byte 0x20001 in memory. -/
def withAtomicPlace : State :=
  let s := only (withW 0 0x20000) [5]
  { s with mem := s.mem ++ [(0x20001, 1), (0x1FFF0, 2)] }

/-- An acquire-release exchange of one word at scope `die`. -/
def exchange : AtomX := ⟨4, 7, 3, 0, 0, 0⟩

/-- The state after the access of the exchange has been checked. -/
def atomicChecked : State :=
  let s := withAtomicPlace
  (checkAll (afterRelease s (grp s) (activeLanes (grp s) gd s) true 7) (grp s) exchange.space 4 .atomic 0 [(5, 0x20000)]).1

/-- Refutes O31: an exchange that writes 0 over byte 0x20001 takes away the cell that hides byte 0x1FFF0, which then shows 2. The state's memory is
not in canonical form, which the statement does not ask for. -/
theorem not_atomics : ¬ Obligations.Atomics := by
  intro h
  have access : AccessGoes withAtomicPlace _ atomicChecked (grp withAtomicPlace) (activeLanes (grp withAtomicPlace) gd withAtomicPlace) exchange.space 4
      .atomic .ld (fun l => addrLX (grp withAtomicPlace) l ((grp withAtomicPlace).lane l) 0 60 12 exchange.off exchange.swz false)
      [(5, .phys 0x20000, 0x20000)] := ⟨by decide +kernel, eq_mk_of_snd (by decide +kernel)⟩
  obtain ⟨t, ht, -, performed⟩ := h withAtomicPlace atomicChecked (grp withAtomicPlace) gd [(5, .phys 0x20000, 0x20000)] 3 0 60 exchange
    (.atomExch gd 3 0 60 exchange) (fun _ y _ => some y) (atomOperand 0 3) (atomForm 3 0 60 exchange)
    (List.mem_of_getElem? (i := 6) rfl) (fits_of (by decide +kernel)) (fun _ => by decide +kernel)
    (fun h => absurd h (by decide)) access (by decide +kernel)
  have inGddr (w : State) (a : Nat) (ha : a < gddrSize) : (Place.phys a).own w := fun d => by
    rw [regionOf, if_pos ha]; nofun
  have bytes := (performed 5 (.phys 0x20000) (by decide +kernel) (by decide +kernel) (by decide) (by decide +kernel)).2 (by decide +kernel)
    (by decide +kernel) (fun k (hk : k < 4) => inGddr _ _ (by unfold gddrSize; omega)) (.phys 0x1FFF0) (inGddr _ _ (by unfold gddrSize; omega))
  have kept : readByte t (.phys 0x1FFF0) = 0 := bytes.trans (by decide +kernel)
  exact byteAfter_ne ht kept (by decide +kernel)

end atomic
end Sys2Proof.Machine


/-!
Periods, class pre-emption, and withheld cores (R141, R143, R144, R146).
-/
namespace Sys2Proof.Machine

/-! ## Period boundaries -/

theorem periodTicks_pos (u : Setup) : 0 < periodTicks u := by
  unfold periodTicks
  split <;> omega

/-- The next boundary is the first multiple of the period past the one that has come (R141). -/
theorem nextBoundary (now : Nat) {n : Nat} (h : 0 < n) : now < (now / n + 1) * n ∧ (now / n + 1) * n ≤ now + n ∧ (now / n + 1) * n % n = 0 := by
  refine ⟨Nat.lt_mul_of_div_lt (Nat.lt_succ_self _) h, ?_, Nat.mul_mod_left ..⟩
  rw [Nat.succ_mul]
  exact Nat.add_le_add_right (Nat.div_mul_le_self now n) n

/-- The arbiters' reservations set OVERSUB alone (R142). -/
theorem noteOversub_part (s : State) (p : Nat) :
    ∃ o, (noteOversub s).part p = { s.part p with sch := { (s.part p).sch with oversub := o } } := by
  unfold noteOversub State.part
  simp only [List.getD_eq_getElem?_getD, List.getElem?_map]
  cases s.parts[p]? with
  | none => exact ⟨(Partition.reset p).sch.oversub, rfl⟩
  | some q =>
    simp only [Option.map_some, Option.getD_some]
    split
    · exact ⟨true, rfl⟩
    · exact ⟨q.sch.oversub, rfl⟩

theorem execPeriodBoundary_waits {s : State} {p : Nat} (h : (s.part p).state = .free ∨ s.time.now < (s.part p).sch.periodNext) :
    exec (.periodBoundary p) s = .next s := by
  refine congrArg Host.Outcome.next (if_neg ?_)
  simp only [Partition.exists_, Bool.and_eq_true, bne_iff_ne, decide_eq_true_eq, not_and, Nat.not_le]
  exact fun held => h.resolve_left held

theorem execPeriodBoundary_passes {s : State} {p : Nat} (held : (s.part p).state ≠ .free) (due : (s.part p).sch.periodNext ≤ s.time.now) :
    exec (.periodBoundary p) s = .next (noteOversub (s.updPart p Partition.boundary)) := by
  refine congrArg Host.Outcome.next (if_pos ?_)
  simp only [Partition.exists_, Bool.and_eq_true, bne_iff_ne, decide_eq_true_eq]
  exact ⟨held, due⟩

theorem boundary_meter (q : Partition) {i : Nat} {m : Meter} (h : q.sch.meters[i]? = some m) : q.boundary.sch.meters[i]? =
    some (m.boundary (q.setup.budget.getD i 0) ((q.pendBudget.getD (q.setup.period, q.setup.budget)).2.getD i 0)) := by
  simp [Partition.boundary, h]

/-! ## Withheld cores -/

theorem execWithholdExpire_waits {s : State} {p : Nat} (h : (s.part p).sch.withheld = [] ∨ s.time.now < (s.part p).sch.withheldUntil) :
    exec (.withholdExpire p) s = .next s :=
  congrArg Host.Outcome.next (if_pos (by simpa using h))

theorem execWithholdExpire_frees {s : State} {p : Nat} (held : (s.part p).sch.withheld ≠ []) (due : (s.part p).sch.withheldUntil ≤ s.time.now) :
    exec (.withholdExpire p) s =
      .next (s.updPart p fun q => { q with sch := { q.sch with withheld := [], peState := if q.sch.peState = 2 then 0 else q.sch.peState } }) :=
  congrArg Host.Outcome.next (if_neg (by simp [held, due]))

/-! ## Class pre-emption -/

theorem pickVacated_below (s : State) (p die above n fuel : Nat) {cs : List Nat} (h : ∀ c ∈ cs, c < savedBase) :
    ∀ c ∈ pickVacated s p die above n fuel cs, c < savedBase := by
  induction fuel generalizing cs with
  | zero => exact h
  | succ fuel ih =>
    unfold pickVacated
    split
    · exact h
    · split
      · exact h
      · refine ih fun c hc => ?_
        rcases List.mem_append.1 (List.mem_dedup.1 hc) with k | k
        · exact h c k
        · simpa using (List.mem_filter.1 k).2

/-- A grid that waits in a partition belongs to it. -/
theorem waitingGrids_part {s : State} {p : Nat} {gr : Grid} (h : gr ∈ waitingGrids s p) : gr.part = p := by
  rcases List.mem_append.1 h with k | k
  · simpa using (List.mem_filter.1 k).2
  · unfold readyGrids at k
    split at k
    · cases k
    · simp only [List.mem_flatMap, List.mem_filter, List.mem_filterMap] at k
      obtain ⟨g, ⟨-, here⟩, n, -, made⟩ := k
      split at made
      · obtain ⟨r, -, rfl⟩ := Option.map_eq_some_iff.1 made
        simp only [Bool.and_eq_true, beq_iff_eq] at here
        exact here.1
      · cases made

/-- A team that stands as it did when its partition was asked to leave its core, and may be cut. -/
structure MayLeave (tm : Team) (s : State) : Prop where
  team : s.team? tm.id = some tm
  leaves : mustLeave s tm.part tm.core = true
  area : (s.part tm.part).sch.ctx.log2 ≠ 0
  opened : latchOpen s tm = true

theorem MayLeave.kept {tm : Team} {s t : State} (h : MayLeave tm s) (k : Kept s t) (ht : t.team? tm.id = some tm) : MayLeave tm t := by
  have leaves : mustLeave t tm.part tm.core = mustLeave s tm.part tm.core := k.teams.field (fun u => mustLeave u tm.part tm.core) rfl
  have parts : t.part tm.part = s.part tm.part := k.teams.field (fun u => u.part tm.part) rfl
  exact ⟨ht, leaves.trans h.leaves, parts ▸ h.area, (k.latchOpen tm).trans h.opened⟩

theorem MayLeave.mustSave {tm : Team} {s : State} (h : MayLeave tm s) (hc : tm.core < savedBase) (hp : tm.state = .placed) :
    mustSave s tm = true := by
  have any : (clusterOn s tm).any (mustLeave s tm.part) = true :=
    List.any_eq_true.2 ⟨_, core_mem_clusterOn (List.mem_of_find?_eq_some h.team) hc, h.leaves⟩
  simp [Machine.mustSave, h.area, hp, any]

/-- Asking a team that may leave begins its cut. -/
theorem MayLeave.cut {tm : Team} {s : State} (h : MayLeave tm s) (hc : tm.core < savedBase) (hp : tm.state = .placed) (hd : tm.db = .idle)
    {t : Team} (ht : t.id = tm.id) : CutBegun tm (askCut s t) := by
  have opened := ((Kept.updTeam s tm.id asks_dest).latchOpen tm).trans h.opened
  have e : askCut s t = beginDeadbolt (s.updTeam tm.id fun t => { t with dest := none }) tm.id .cut := by
    simp only [askCut, ht, h.team, h.mustSave hc hp, if_true, requestCut_idle h.team hd hp]
    rw [cutOrLatch, if_pos rfl]
    simp only [opened, if_true]
  unfold CutBegun
  rw [e, beginDeadbolt_cut, updTeam_find _ asks_cutting, updTeam_find s asks_dest, h.team]
  simp [Team.cutting]

/-- Asking a partition's teams for cuts begins the cut of one that may leave (R144). -/
theorem MayLeave.requestCuts {tm : Team} {s : State} (h : MayLeave tm s) (hc : tm.core < savedBase) (hp : tm.state = .placed)
    (hd : tm.db = .idle) : CutBegun tm (requestCuts s tm.part) := by
  rw [requestCuts_eq]
  obtain ⟨-, -, reach⟩ := foldl_reaches (D := MayLeave tm) (fun s t h => by
    by_cases ht : t.id = tm.id
    · exact .inr (h.cut hc hp hd ht)
    · exact .inl (h.kept (askCut_kept s t) ((askCut_other s (Ne.symm ht)).trans h.team)))
    (fun s t (ht : t.id = tm.id) h => h.cut hc hp hd ht) (fun s t h => h.askCut t) (s.teams.filter fun t => t.part == tm.part) s
  exact reach h ⟨tm, by simp [List.mem_of_find?_eq_some h.team], rfl⟩

/-- A request that is taken begins the cut of a placed team on a core that it names. -/
theorem vacate_cuts {s : State} {p die n above cls : Nat} {keep : Bool} (hp : p < s.parts.length) (area : (s.part p).sch.ctx.log2 ≠ 0)
    {tm : Team} (hm : tm ∈ s.teams) (names : (s.teams.map Team.id).Nodup) (hpart : tm.part = p) (placed : tm.state = .placed)
    (idle : tm.db = .idle) (opened : latchOpen s tm = true) (hcore : tm.core ∈ pickVacated s p die above n 288 []) :
    CutBegun tm (vacate s p die n above cls keep) := by
  subst hpart
  rw [vacate_eq (List.ne_nil_of_mem hcore)]
  have asked := s.part_updPart_same hp fun q => q.leaving (pickVacated s tm.part die above n 288 []) cls keep
  refine MayLeave.requestCuts ⟨team?_of_mem hm names, ?_, ?_, opened⟩ (pickVacated_below s _ die above n 288 (by simp) _ hcore) placed idle
  · unfold mustLeave
    rw [asked]
    simp [Partition.leaving, hcore]
  · rw [asked]
    exact area

theorem classTriggers_needs {s : State} {gr : Grid} (h : classTriggers s gr = true) :
    (s.part gr.part).sch.preen = true ∧ (s.part gr.part).sch.peState = 0 ∧ (s.part gr.part).sch.ctx.log2 ≠ 0 := by
  simp only [classTriggers, Bool.and_eq_true, decide_eq_true_eq] at h
  obtain ⟨⟨⟨⟨⟨⟨preen, idle⟩, area⟩, -⟩, -⟩, -⟩, -⟩ := h
  exact ⟨preen, idle, area⟩

theorem execPreemptClassTrigger_none {s : State} {p gs : Nat}
    (h : (waitingGrids s p).find? (fun g => g.slot == gs && classTriggers s g) = none) : exec (.preemptClassTrigger p gs) s = .next s :=
  congrArg Host.Outcome.next (by rw [h])

theorem execPreemptClassTrigger_some {s : State} {p gs : Nat} {gr : Grid}
    (h : (waitingGrids s p).find? (fun g => g.slot == gs && classTriggers s g) = some gr) :
    exec (.preemptClassTrigger p gs) s = .next (vacate s p gr.die gr.rcd.cluster (gr.rcd.bclass + 1) gr.rcd.bclass false) :=
  congrArg Host.Outcome.next (by rw [h])

/-- Period boundaries, class pre-emption, and the end of withholding (R141, R143, R144, R146). -/
theorem periodsAndClasses : Rule.PeriodsAndClasses := by
  intro s p hp q
  refine ⟨execPeriodBoundary_waits, fun held due => ?boundary, execWithholdExpire_waits, execWithholdExpire_frees,
    fun gs none => ?untriggered, ?triggered⟩
  case boundary =>
    refine ⟨_, execPeriodBoundary_passes held due, rfl, ?_⟩
    intro period budget ticks
    obtain ⟨o, part⟩ := noteOversub_part (s.updPart p Partition.boundary) p
    rw [s.part_updPart_same hp] at part
    have next := nextBoundary q.sch.periodNext (periodTicks_pos { q.setup with period := period, budget := budget })
    rw [part]
    refine ⟨rfl, rfl, next.1, next.2.1, next.2.2, List.length_mapIdx, fun i m hm => boundary_meter q hm, fun k hk other => ?_⟩
    obtain ⟨o', part'⟩ := noteOversub_part (s.updPart p Partition.boundary) k
    rw [part', part_updPart, if_neg fun h => other h.1.symm]
  case untriggered =>
    refine execPreemptClassTrigger_none (List.find?_eq_none.2 fun gr hgr triggers => ?_)
    simp only [Bool.and_eq_true, beq_iff_eq] at triggers
    obtain ⟨preen, idle, area⟩ := classTriggers_needs triggers.2
    rw [waitingGrids_part hgr] at preen idle area
    rcases none with h | h | h | h
    · exact Bool.false_ne_true (h.symm.trans preen)
    · exact h idle
    · exact area h
    · exact Bool.false_ne_true ((h gr hgr triggers.1).symm.trans triggers.2)
  case triggered =>
    intro gs gr found cs picked
    have triggers : classTriggers s gr = true := by
      have chosen := List.find?_some found
      exact (Bool.and_eq_true_iff.1 chosen).2
    obtain ⟨-, -, area⟩ := classTriggers_needs triggers
    rw [waitingGrids_part (List.mem_of_find?_eq_some found)] at area
    refine ⟨_, execPreemptClassTrigger_some found, ?_, congrArg Partition.sch (vacate_taken hp picked).2.2,
      fun tm hm names hpart placed idle opened hcore => vacate_cuts hp area hm names hpart placed idle opened hcore⟩
    rw [vacate_eq picked]
    have only := TeamsOnly.requestCuts (s.updPart p fun q => q.leaving cs gr.rcd.bclass false) p
    exact only.field (fun t => { t with parts := s.parts, teams := s.teams }) rfl

end Sys2Proof.Machine


/-!
Teams that change, work that is aborted, and rollbacks that begin (R335, R336, R338).
-/
namespace Sys2Proof.Machine

/-! ## A team that changes -/

theorem team?_updTeam_map (s : State) {f : Team → Team} (hf : ∀ t, (f t).id = t.id) (id n : Nat) :
    (s.updTeam id f).team? n = (s.team? n).map fun t => if t.id == id then f t else t := by
  have same : ((fun t : Team => t.id == n) ∘ fun t => if t.id == id then f t else t) = fun t => t.id == n := by
    funext t
    simp only [Function.comp]
    split
    · rw [hf t]
    · rfl
  simp only [State.team?, State.updTeam, List.find?_map, same]

/-- The team that is changed is found as it was changed to. -/
theorem team?_updTeam {s : State} {n : Nat} {t : Team} {f : Team → Team} (ht : s.team? n = some t)
    (hf : ∀ t, (f t).id = t.id := by exact fun _ => rfl) : (s.updTeam n f).team? n = some (f t) := by
  rw [team?_updTeam_map s hf, ht]
  simp [team?_id ht]

theorem team?_updTeam_other (s : State) {n id : Nat} {f : Team → Team} (h : n ≠ id) (hf : ∀ t, (f t).id = t.id := by exact fun _ => rfl) :
    (s.updTeam id f).team? n = s.team? n := by
  rw [team?_updTeam_map s hf]
  cases hn : s.team? n with
  | none => rfl
  | some u => simp [team?_id hn, h]

/-- A team whose Deadbolt is IDLE again (R338). -/
def Team.released (t : Team) : Team :=
  { t with db := .idle, state := .placed, dest := match t.latched with
      | some (.migrate, _) => t.dest
      | _ => none }

theorem releaseTeam_eq (s : State) (n : Nat) : releaseTeam s n = s.updTeam n Team.released := rfl

theorem Team.released_free {t : Team} (h : t.latched = none) : t.released = { t with db := .idle, state := .placed, dest := none } := by
  simp only [released, h]

/-! ## Work that is aborted -/

/-- What every step of a fold leaves, the fold leaves. -/
theorem field_foldl {α β : Type} (f : State → β) {step : State → α → State} (h : ∀ s x, f (step s x) = f s) (xs : List α) (s : State) :
    f (xs.foldl step s) = f s := by
  induction xs generalizing s with
  | nil => rfl
  | cons x xs ih => exact (ih _).trans (h s x)

theorem raisePart_caddy (s : State) (p n : Nat) : (raisePart s p n).caddy = s.caddy := by
  unfold raisePart
  simp only
  split <;> rfl

theorem discardTeams_caddy (s : State) (ids : List Nat) : (discardTeams s ids).caddy = s.caddy := by
  unfold discardTeams
  simp only [settleVacated]
  rw [field_foldl State.caddy (step := noteVacant) fun _ _ => rfl]
  rfl

theorem dropNodes_caddy (s : State) (graphs : List Nat) : (dropNodes s graphs).caddy = s.caddy := by
  unfold dropNodes
  simp only
  rw [field_foldl State.caddy (step := dropCmd) fun _ _ => rfl]

theorem abortParts_caddy (s : State) (grids graphs : List Nat) : (abortParts s grids graphs).2.caddy = s.caddy := by
  unfold abortParts
  simp only [dropDeadGraphs, failWork, dropNodes_caddy, discardTeams_caddy, noteFailedChildren]

theorem abortGrid_caddy (s : State) (grid : Nat) : (abortGrid s grid).caddy = s.caddy := by
  unfold abortGrid abortWork
  simp only
  rw [field_foldl State.caddy fun s p => raisePart_caddy s p 259, abortParts_caddy]

/-! ## Rollbacks -/

/-- A team whose rollback begins (R335, R338). -/
def Team.rolling (t : Team) : Team := { t with db := .drainShd, dbKind := .rollback, rollbacks := t.rollbacks + 1 }

theorem TeamsOnly.requestRollback (s : State) (id : Nat) : TeamsOnly s (requestDeadbolt s id .rollback) := by
  unfold requestDeadbolt
  split
  · exact .refl s
  · simp only
    split
    · exact (TeamsOnly.updTeam s id _).trans (.updTeam _ id _)
    · exact .refl s

/-- A repeatable team that has rolled back less than twice in its interval is logged, counted and rolled back (R335). -/
theorem recoverTeam_rollsBack {s : State} {tm : Team} (ht : s.team? tm.id = some tm) (on : rollbackOn s tm.part = true) (rep : tm.repeatable = true)
    (few : tm.rollbacks < 2) (idle : tm.db = .idle) (placed : tm.state = .placed) :
    ∃ v, Reported s v ∧ TeamsOnly v (recoverTeam s tm.id) ∧ (recoverTeam s tm.id).team? tm.id = some tm.rolling := by
  have report := Reported.logEvent s .rollback 2 (logSource (dieOfCore tm.core) 1) tm.part tm.core tm.linear
  let v := logEvent s .rollback 2 (logSource (dieOfCore tm.core) 1) tm.part tm.core tm.linear
  have e : recoverTeam s tm.id = requestDeadbolt (v.updTeam tm.id fun t => { t with rollbacks := t.rollbacks + 1 }) tm.id .rollback := by
    simp only [recoverTeam, ht, on, rep, few, decide_true, Bool.and_self, if_true, v]
  have here : v.team? tm.id = some tm := (report.field (State.team? · tm.id)).trans ht
  have found : (v.updTeam tm.id fun t => { t with rollbacks := t.rollbacks + 1 }).team? tm.id = some { tm with rollbacks := tm.rollbacks + 1 } :=
    team?_updTeam here
  refine ⟨v, report, ?_, ?_⟩
  · rw [e]
    exact (TeamsOnly.updTeam v _ _).trans (.requestRollback _ _)
  · rw [e]
    simp only [requestDeadbolt, found, idle, placed, decide_true, Bool.and_self, Bool.true_or, if_true, beginDeadbolt]
    rw [team?_updTeam (team?_updTeam found)]
    simp [Team.rolling, idle, placed, dbMoves]

theorem recoverTeam_mismatches (s : State) (id : Nat) : (recoverTeam s id).caddy.mismatches = s.caddy.mismatches := by
  unfold recoverTeam
  split
  · rfl
  next tm _ =>
    split
    · have report := Reported.logEvent s .rollback 2 (logSource (dieOfCore tm.core) 1) tm.part tm.core tm.linear
      exact (((TeamsOnly.updTeam _ _ _).trans (.requestRollback _ _)).field (fun t => t.caddy.mismatches) rfl).trans
        (report.ofCaddy Caddy.mismatches)
    · rw [abortGrid_caddy]


end Sys2Proof.Machine


/-!
Shadow groups and their compares (R342, R343, R345).
-/
namespace Sys2Proof.Machine

/-! ## A compare that fails -/

/-- `t` differs from `s` in reports and in what Caddy counts and asks: cores that are to retire. -/
structure Counted (s t : State) : Prop where
  state : { t with out := s.out, pf := s.pf, caddy := s.caddy, retiring := s.retiring } = s

theorem Counted.field {s t : State} (h : Counted s t) {α : Type} (f : State → α)
    (hf : f { t with out := s.out, pf := s.pf, caddy := s.caddy, retiring := s.retiring } = f t := by rfl) : f t = f s :=
  hf.symm.trans (congrArg f h.state)

theorem Counted.countMismatch {s v : State} (h : Reported s v) (core : Nat) : Counted s (countMismatch v core) := by
  refine ⟨?_⟩
  rw [← h.state]
  unfold Machine.countMismatch
  simp only
  split
  · unfold askRetire
    split <;> rfl
  · rfl

theorem countMismatch_counts (s : State) (core : Nat) : (core, s.time.now) ∈ (countMismatch s core).caddy.mismatches := by
  unfold countMismatch
  simp only
  split
  · rw [(askRetire_fields _ _).2.1]
    simp [State.updCaddy]
  · simp [State.updCaddy]

/-- The state when Caddy has logged and counted a compare that failed, and its cohort has passed the access (R343, R345). -/
def mismatchNoted (s : State) (g : Group) (v : Word64) : State :=
  countMismatch (logEvent (runIssue s id) .shadowMismatch 3 (logSource (dieOfCore g.core) 1) (s.partOf g) g.core v.toNat) g.core

theorem mismatched_eq (s : State) (g : Group) (v : Word64) : mismatched s g v =
    if rollbackOn (mismatchNoted s g v) (s.partOf g) then recoverTeam (mismatchNoted s g v) g.team
    else (mismatchNoted s g v).updGroup g.core g.slot fun g => { g with lanes := g.lanes.map fun x => x.raises13 v } := rfl

theorem mismatchNoted_counted (s : State) (g : Group) (v : Word64) : Counted (runIssue s id) (mismatchNoted s g v) := .countMismatch (.logEvent ..) _

theorem rollbackOn_noted (s : State) (g : Group) (v : Word64) (p : Nat) : rollbackOn (mismatchNoted s g v) p = rollbackOn s p :=
  (mismatchNoted_counted s g v).field (rollbackOn · p)

theorem mismatchNoted_counts (s : State) (g : Group) (v : Word64) : (g.core, s.time.now) ∈ (mismatchNoted s g v).caddy.mismatches := by
  have now := (Reported.logEvent (runIssue s id) .shadowMismatch 3 (logSource (dieOfCore g.core) 1) (s.partOf g) g.core v.toNat).field
    fun s => s.time.now
  have counts := countMismatch_counts (logEvent (runIssue s id) .shadowMismatch 3 (logSource (dieOfCore g.core) 1) (s.partOf g) g.core v.toNat) g.core
  rwa [now] at counts

theorem mismatched_counts (s : State) (g : Group) (v : Word64) : (g.core, s.time.now) ∈ (mismatched s g v).caddy.mismatches := by
  rw [mismatched_eq]
  split
  · rw [recoverTeam_mismatches]
    exact mismatchNoted_counts s g v
  · exact mismatchNoted_counts s g v

theorem updLanes_group? {s : State} {core slot : Nat} {g : Group} (h : s.group? core slot = some g) (c k : Nat) (ls : List Nat) (f : Lane → Lane) :
    ∃ p, (s.updLanes c k ls f).group? core slot = some p ∧ p.lanes.length = g.lanes.length := by
  rw [State.updLanes, State.group?_updGroup, h]
  · split
    · exact ⟨_, rfl, List.length_mapIdx⟩
    · exact ⟨g, rfl, rfl⟩
  · exact fun _ => ⟨rfl, rfl⟩

/-- A group when the cohort that issues has passed its instruction has as many lanes as before. -/
theorem runIssue_group? {s : State} {core slot : Nat} {g : Group} (h : s.group? core slot = some g) :
    ∃ p, (runIssue s id).group? core slot = some p ∧ p.lanes.length = g.lanes.length := by
  obtain ⟨p, hp, len⟩ := updLanes_group? h s.issue.core s.issue.slot s.issue.lanes fun x => { x with pc := s.issue.next, wait := .none }
  rw [runIssue, markLoopEnd_eq, State.group?_updGroup _ _ _ _ _ _ fun x => (Group.sameFlow_atLoopEnd x _ _).place, id, advance, hp]
  split
  · exact ⟨_, rfl, (Group.sameFlow_atLoopEnd _ _ _).2.1.trans len⟩
  · exact ⟨p, rfl, len⟩

/-- Without rollback every live lane queues cause 13 (R343). -/
theorem mismatched_raises {s : State} {g : Group} (hg : s.group? g.core g.slot = some g) (off : rollbackOn s (s.partOf g) = false) (v : Word64) :
    (mismatched s g v).mem = s.mem ∧ (mismatched s g v).ms = s.ms ∧ ∃ k, (mismatched s g v).group? g.core g.slot = some k ∧
      ∀ l, l < g.lanes.length → k.lane l = ((runIssue s id).lane g.core g.slot l).raises13 v := by
  have noted := mismatchNoted_counted s g v
  rw [mismatched_eq, rollbackOn_noted, off, if_neg Bool.false_ne_true]
  refine ⟨noted.field State.mem, noted.field State.ms, ?_⟩
  obtain ⟨p, hp, len⟩ := runIssue_group? hg
  refine ⟨{ p with lanes := p.lanes.map fun x => x.raises13 v }, ?_, fun l hl => ?_⟩
  · rw [State.group?_updGroup, noted.field (State.group? · g.core g.slot), hp]
    · simp
    · exact fun _ => ⟨rfl, rfl⟩
  · simp only [State.lane, hp]
    simp [Group.lane, len, hl]

theorem Lane.raises13_dead {x : Lane} (h : x.live = false) (v : Word64) : x.raises13 v = x := by simp [Lane.raises13, h]

theorem Lane.raises13_live {x : Lane} (h : x.live = true) (free : x.pend.getD 3 none = none) (v : Word64) :
    x.raises13 v = { x with pend := x.pend.set 3 (some ⟨13, 2, 0, v, 0⟩) } := by
  simp only [Lane.raises13, h, free, Bool.not_true, Bool.false_eq_true, if_false]

/-- With rollback a repeatable team rolls back (R343, R335). -/
theorem mismatched_rollsBack {s : State} {g : Group} {tm : Team} (on : rollbackOn s (s.partOf g) = true) (ht : s.team? g.team = some tm)
    (part : tm.part = s.partOf g) (rep : tm.repeatable = true) (few : tm.rollbacks < 2) (idle : tm.db = .idle) (placed : tm.state = .placed)
    (v : Word64) : (mismatched s g v).mem = s.mem ∧ (mismatched s g v).ms = s.ms ∧ (mismatched s g v).team? g.team = some tm.rolling := by
  have noted := mismatchNoted_counted s g v
  have found : (mismatchNoted s g v).team? tm.id = some tm := by
    rw [noted.field (State.team? · tm.id), team?_id ht]
    exact ht
  obtain ⟨w, report, only, rolls⟩ := recoverTeam_rollsBack found (by rw [rollbackOn_noted, part, on]) rep few idle placed
  rw [mismatched_eq, rollbackOn_noted, on, if_pos rfl, ← team?_id ht]
  exact ⟨(only.field State.mem rfl).trans ((report.field State.mem).trans (noted.field State.mem)),
    (only.field State.ms rfl).trans ((report.field State.ms).trans (noted.field State.ms)), rolls⟩

/-! ## Compares -/

section compare
variable {s : State} {g : Group} {h : Shadow} {core slot lane : Nat}

theorem execShadowMismatch_stays (hg : s.group? core slot = some g) (stays : shadowOf s g = none ∨ ∃ h, shadowOf s g = some h ∧ h.queue ≠ []) :
    exec (.shadowMismatch core slot lane) s = .next s := by
  show execShadowMismatch core slot lane s = _
  rcases stays with alone | ⟨h, found, behind⟩
  · simp only [execShadowMismatch, hg, alone]
  · have waits : h.queue.isEmpty = false := by simpa using behind
    simp only [execShadowMismatch, hg, found, waits, Bool.not_false, if_true]

theorem execShadowMismatch_fails {t : State} {w1 w2 : Nat} {i : Instr} {v : Word64} (hg : s.group? core slot = some g)
    (found : shadowOf s g = some h) (come : h.queue = []) (fetched : fetchCohort s core slot lane = .words t w1 w2)
    (good : decodeWords w1 w2 = .ok i) (compared : comparedVal t g (t.issue.lanes.headD 0) i = some v) :
    exec (.shadowMismatch core slot lane) s = .next (mismatched t g v) := by
  show execShadowMismatch core slot lane s = _
  simp only [execShadowMismatch, hg, found, come, List.isEmpty_nil, Bool.not_true, Bool.false_eq_true, if_false, fetched, good, compared]

theorem takenFrom_queue (h : Shadow) (t : State) (core slot : Nat) :
    (h.takenFrom t core slot).queue = h.queue ∧ (h.takenFrom t core slot).lead = h.lead := by
  unfold Shadow.takenFrom
  split <;> exact ⟨rfl, rfl⟩

theorem shadowRuns_queue (ex : Instr → State → Result) (s : State) (g : Group) (h : Shadow) (i : Issue) :
    (shadowRuns ex s g h i).queue = h.queue ∧ (shadowRuns ex s g h i).lead = h.lead := by
  unfold shadowRuns
  simp only
  split
  · split
    · exact takenFrom_queue ..
    · exact ⟨rfl, rfl⟩
  · exact takenFrom_queue ..

/-- A shadow takes the next entry of its queue (R342). -/
theorem shadowStep_takes {e : ShadowEntry} {rest : List ShadowEntry} (ex : Instr → State → Result) (queue : h.queue = e :: rest)
    (lead : h.leader s = some g) : ∃ k, shadowStep ex s h = s.putShadow k ∧ k.queue = rest ∧ k.lead = h.lead := by
  cases e with
  | follow b a =>
    exact ⟨{ h with group := b.follow a h.group, queue := rest }, by simp only [shadowStep, queue, lead], rfl, rfl⟩
  | issue i =>
    exact ⟨shadowRuns ex s g { h with queue := rest } i, by simp only [shadowStep, queue, lead], shadowRuns_queue ..⟩

section issues
variable (hg : s.issuing? = some g) (found : shadowOf s g = some h) {i : Instr}
include hg found

theorem issueShadowed_full (ex : Instr → State → Result) (full : 256 ≤ h.queue.length) : issueShadowed ex i s = .next s := by
  simp only [issueShadowed, hg, found, queueSize, full, if_true]

theorem issueShadowed_uncompared (ex : Instr → State → Result) (room : h.queue.length < 256)
    (free : comparedVal s g (s.issue.lanes.headD 0) i = none) : issueShadowed ex i s = onNext (noteIssue s g h i) (ex i s) := by
  simp only [issueShadowed, hg, found, queueSize, Nat.not_le.2 room, if_false, free]

theorem issueShadowed_waits (ex : Instr → State → Result) {v : Word64} (compared : comparedVal s g (s.issue.lanes.headD 0) i = some v)
    (behind : h.queue ≠ []) : issueShadowed ex i s = .next s := by
  have waits : h.queue.isEmpty = false := by simpa using behind
  simp only [issueShadowed, hg, found, compared, waits, Bool.false_eq_true, if_false, ite_self]

theorem issueShadowed_compares (ex : Instr → State → Result) {v : Word64} (compared : comparedVal s g (s.issue.lanes.headD 0) i = some v)
    (come : h.queue = []) : issueShadowed ex i s = compareIssue ex i s g h v := by
  have room : ¬queueSize ≤ ([] : List ShadowEntry).length := by simp [queueSize]
  simp only [issueShadowed, hg, found, compared, come, room, if_false, List.isEmpty_nil, if_true]

end issues

theorem compareIssue_astray (ex : Instr → State → Result) {i : Instr} (v : Word64)
    (astray : ∃ l ∈ s.issue.lanes, (h.group.lane l).pc ≠ s.issue.pc) : compareIssue ex i s g h v = .next (mismatched s g v) :=
  if_pos (by simpa using astray)

theorem compareIssue_together {ex : Instr → State → Result} {i : Instr} {t u : State} (v : Word64)
    (together : ∀ l ∈ s.issue.lanes, (h.group.lane l).pc = s.issue.pc) (ht : ex i s = .next t) (hu : ex i (withShadow s g h) = .next u) :
    compareIssue ex i s g h v =
      if agrees g t u then .next (t.putShadow (h.takenFrom u g.core g.slot)) else .next (mismatched s g v) := by
  have all : (s.issue.lanes.all fun l => decide ((h.group.lane l).pc = s.issue.pc)) = true := by simpa using together
  simp only [compareIssue, all, Bool.not_true, Bool.false_eq_true, if_false, ht, hu]

end compare

/-- The rules of shadow groups (R342, R343, R345). -/
theorem shadowGroups : Rule.ShadowGroups := by
  intro s
  refine ⟨fun core slot lane g hg => execShadowMismatch_stays hg,
    fun core slot lane g h t w1 w2 i v hg found come fetched good => execShadowMismatch_fails hg found come fetched good,
    fun g v hg => ⟨mismatched_counts s g v, fun off => ?raises, fun tm on ht part rep few idle placed => ?rolls⟩,
    fun i g h hg found => ⟨issueShadowed_full hg found exec, fun room free => ?uncompared, fun v => issueShadowed_waits hg found exec,
      fun v compared come => ⟨fun astray => ?astray, fun t u together ht hu => ⟨fun same => ?same, fun differ => ?differ⟩⟩⟩,
    fun core slot lane rest h next here => ?step, fun h e rest g _ queue lead => shadowStep_takes exec queue lead⟩
  case raises =>
    obtain ⟨mem, ms, k, hk, lanes⟩ := mismatched_raises hg off v
    refine ⟨mem, ms, k, hk, fun l hl => ⟨fun dead => ?_, fun live free => ?_⟩⟩
    · rw [lanes l hl, Lane.raises13_dead dead]
    · rw [lanes l hl, Lane.raises13_live live free]
  case rolls =>
    obtain ⟨mem, ms, rolled⟩ := mismatched_rollsBack on ht part rep few idle placed v
    exact ⟨mem, ms, _, rolled, rfl, rfl, rfl⟩
  case uncompared =>
    obtain ⟨t, ht⟩ := (goesOn_iff _).1 (exec_goes i s)
    exact ⟨t, ht, by rw [issueShadowed_uncompared hg found exec room free, ht]; rfl⟩
  case astray => rw [issueShadowed_compares hg found exec compared come, compareIssue_astray exec v astray]
  case same =>
    rw [issueShadowed_compares hg found exec compared come, compareIssue_together v together ht hu, if_pos same]
    obtain ⟨queue, lead⟩ := takenFrom_queue h u g.core g.slot
    exact ⟨_, rfl, queue.trans come, lead⟩
  case differ =>
    rw [issueShadowed_compares hg found exec compared come, compareIssue_together v together ht hu, if_neg (Bool.eq_false_iff.1 differ)]
  case step =>
    rw [step, next]
    simp only [stepAct, stepIssue, here, onNext]

/-- Settles O57: periods, class pre-emption and the end of withholding, and shadow groups, rule by rule. -/
theorem periodsAndPreemption : Obligations.PeriodsAndPreemption := ⟨periodsAndClasses, shadowGroups⟩

end Sys2Proof.Machine


/-!
Migration of teams (R138, R139).
-/
namespace Sys2Proof.Machine

/-! ## A migration begins -/

section start
variable {s : State} {tm : Team} {team core : Nat}

/-- What a team needs to migrate to a core (R138), as far as the statement names it. -/
theorem mayMigrate_needs (h : mayMigrate s tm core = true) : (s.part tm.part).sch.migen = true ∧ tm.state = .placed ∧ tm.db = .idle ∧
    tm.latched = none ∧ dieOfCore tm.core = dieOfCore core ∧ s.therm.trip = false ∧ ownsCore (s.part tm.part).setup core = true ∧
    (¬∃ u ∈ s.teams, u.core = core) ∧ copyRecorded s tm = false ∧ ∀ gr, s.grid? tm.grid = some gr → gr.rcd.cluster = 1 := by
  unfold mayMigrate at h
  simp only at h
  split at h
  · cases h
  next gr hgr =>
    simp only [Bool.and_eq_true, decide_eq_true_eq, Bool.not_eq_true', Option.isNone_iff_eq_none, List.isEmpty_iff] at h
    obtain ⟨⟨⟨⟨⟨⟨⟨⟨⟨⟨⟨⟨⟨⟨⟨⟨⟨migen, placed⟩, idle⟩, free⟩, -⟩, cool⟩, -⟩, alone⟩, settled⟩, -⟩, die⟩, owned⟩, empty⟩, -⟩, -⟩, -⟩, -⟩,
      -⟩ := h
    refine ⟨migen, placed, idle, free, die, cool, owned, ?_, settled, fun g hg => ?_⟩
    · rintro ⟨u, hu, at_⟩
      have here : u ∈ coreTeams s core := by simp [coreTeams, hu, at_]
      rw [empty] at here
      cases here
    · obtain rfl := Option.some.inj (hg.symm.trans hgr)
      exact alone

theorem execMigrationStart_eq (ht : s.team? team = some tm) : exec (.migrationStart team core) s = .next (
    if mayMigrate s tm core = true ∧ ∀ u ∈ s.teams, u.core = tm.core → mayMigrate s u core = true → u.linear ≤ tm.linear then
      requestDeadbolt (s.updTeam team fun t => { t with dest := some core }) team .migrate
    else s) := by
  have rivals : (((coreTeams s tm.core).filter fun u => mayMigrate s u core).all fun u => decide (u.linear ≤ tm.linear)) = true ↔
      ∀ u ∈ s.teams, u.core = tm.core → mayMigrate s u core = true → u.linear ≤ tm.linear := by
    simp only [coreTeams, List.all_filter, List.all_eq_true, Bool.or_eq_true, Bool.not_eq_true', decide_eq_true_eq]
    exact forall₂_congr fun u _ => by cases mayMigrate s u core <;> simp; tauto
  show Host.Outcome.next _ = _
  simp only [ht, Bool.and_eq_true, rivals]

/-- A migration that is asked for is taken or latched (R337, R338). -/
theorem requestMigrate {s : State} (ht : s.team? tm.id = some tm) (placed : tm.state = .placed) (idle : tm.db = .idle) (free : tm.latched = none) :
    TeamsOnly s (requestDeadbolt s tm.id .migrate) ∧
    (latchOpen s tm = true → (requestDeadbolt s tm.id .migrate).team? tm.id =
      some { tm with db := .drainShd, dbKind := .migrate, state := .migrating, latched := none }) ∧
    (latchOpen s tm = false → (requestDeadbolt s tm.id .migrate).team? tm.id =
      some { tm with latched := some (.migrate, s.time.now + predlTicks s tm.part) }) ∧
    ∀ k, k ≠ tm.id → (requestDeadbolt s tm.id .migrate).team? k = s.team? k := by
  have e : requestDeadbolt s tm.id .migrate =
      if latchOpen s tm then beginDeadbolt s tm.id .migrate
      else s.updTeam tm.id fun t => { t with latched := some (.migrate, s.time.now + predlTicks s tm.part) } := by
    simp [requestDeadbolt, ht, placed, idle, free, cutOrLatch]
  rw [e]
  refine ⟨?_, fun opened => ?_, fun masked => ?_, fun k hk => ?_⟩
  · split <;> exact .updTeam ..
  · rw [if_pos opened, beginDeadbolt, team?_updTeam ht]
    simp [dbMoves]
  · rw [masked, if_neg Bool.false_ne_true, team?_updTeam ht]
  · split <;> exact team?_updTeam_other s hk

theorem execMigrationStart_stays (ht : s.team? team = some tm) (h : (s.part tm.part).sch.migen = false ∨ tm.state ≠ .placed ∨ tm.db ≠ .idle ∨
    tm.latched ≠ none ∨ dieOfCore tm.core ≠ dieOfCore core ∨ s.therm.trip = true ∨ ownsCore (s.part tm.part).setup core = false ∨
    (∃ u ∈ s.teams, u.core = core) ∨ copyRecorded s tm = true ∨ (∃ gr, s.grid? tm.grid = some gr ∧ gr.rcd.cluster ≠ 1) ∨
    (∃ u ∈ s.teams, u.core = tm.core ∧ mayMigrate s u core = true ∧ tm.linear < u.linear)) : exec (.migrationStart team core) s = .next s := by
  rw [execMigrationStart_eq ht, if_neg]
  rintro ⟨may, highest⟩
  obtain ⟨migen, placed, idle, free, die, cool, owned, empty, settled, alone⟩ := mayMigrate_needs may
  rcases h with h | h | h | h | h | h | h | h | h | ⟨gr, hgr, h⟩ | ⟨u, hu, at_, mayToo, above⟩
  · exact Bool.false_ne_true (h.symm.trans migen)
  · exact h placed
  · exact h idle
  · exact h free
  · exact h die
  · exact Bool.false_ne_true (cool.symm.trans h)
  · exact Bool.false_ne_true (h.symm.trans owned)
  · exact empty h
  · exact Bool.false_ne_true (settled.symm.trans h)
  · exact h (alone gr hgr)
  · exact absurd (highest u hu at_ mayToo) (Nat.not_le.2 above)

theorem execMigrationStart_begins (ht : s.team? team = some tm) (may : mayMigrate s tm core = true)
    (highest : ∀ u ∈ s.teams, u.core = tm.core → mayMigrate s u core = true → u.linear ≤ tm.linear) :
    ∃ t u, exec (.migrationStart team core) s = .next t ∧ { t with teams := s.teams } = s ∧ t.team? team = some u ∧
      (latchOpen s tm = true → u = { tm with dest := some core, db := .drainShd, dbKind := .migrate, state := .migrating, latched := none }) ∧
      (latchOpen s tm = false → u = { tm with dest := some core, latched := some (.migrate, s.time.now + predlTicks s tm.part) }) := by
  obtain rfl := team?_id ht
  obtain ⟨-, placed, idle, free, -⟩ := mayMigrate_needs may
  have run := execMigrationStart_eq (core := core) ht
  rw [if_pos ⟨may, highest⟩] at run
  have kept := Kept.updTeam s tm.id (f := fun t => { t with dest := some core }) fun _ => ⟨rfl, rfl⟩
  have found : (s.updTeam tm.id fun t => { t with dest := some core }).team? tm.id = some { tm with dest := some core } := team?_updTeam ht
  have opens : latchOpen (s.updTeam tm.id fun t => { t with dest := some core }) { tm with dest := some core } = latchOpen s tm :=
    kept.latchOpen { tm with dest := some core }
  obtain ⟨only, begun, latched, -⟩ := requestMigrate (tm := { tm with dest := some core }) found placed idle free
  cases o : latchOpen s tm with
  | true =>
    refine ⟨_, _, run, kept.teams.trans only, begun (opens.trans o), fun _ => rfl, fun masked => ?_⟩
    cases masked
  | false =>
    refine ⟨_, _, run, kept.teams.trans only, latched (opens.trans o), fun opened => ?_, fun _ => rfl⟩
    cases opened

end start

/-! ## A team that has moved -/

/-- In a list of pairs, the pair of an element whose key no other has is found by that key. -/
theorem find?_zip_key {α β : Type} (key : α → Nat) {as : List α} {bs : List β} (nodup : (as.map key).Nodup) {i : Nat} {a : α} {b : β}
    (ha : as[i]? = some a) (hb : bs[i]? = some b) : (as.zip bs).find? (fun x => key x.1 == key a) = some (a, b) := by
  induction as generalizing bs i with
  | nil => cases ha
  | cons x as ih =>
    cases bs with
    | nil => cases hb
    | cons y bs =>
      rw [List.map_cons, List.nodup_cons] at nodup
      cases i with
      | zero =>
        obtain rfl := Option.some.inj ha
        obtain rfl := Option.some.inj hb
        simp
      | succ i =>
        have other : key x ≠ key a := fun same => nodup.1 (same ▸ List.mem_map_of_mem (List.mem_of_getElem? ha))
        rw [List.zip_cons_cons, List.find?_cons_of_neg (by simpa using other)]
        exact ih nodup.2 ha hb

/-- Where the groups of a team stand after a move that pairs them with slots. -/
theorem Move.slot_of_zip {m : Move} {gs : List Group} {slots : List (Nat × Option Nat)} (nodup : (gs.map Group.slot).Nodup)
    (hm : m.slots = (gs.zip slots).map fun x => (x.1.slot, x.2.1, x.2.2)) {i : Nat} {g : Group} {sl : Nat × Option Nat}
    (hg : gs[i]? = some g) (hs : slots[i]? = some sl) : m.slotOf g.slot = sl.1 ∧ m.shadowOf g.slot = sl.2 := by
  have found : m.slots.find? (fun x => x.1 == g.slot) = some (g.slot, sl.1, sl.2) := by
    rw [hm, List.find?_map, Function.comp_def, find?_zip_key Group.slot nodup hg hs]
    rfl
  simp [Move.slotOf, Move.shadowOf, found]

/-- A group of the team that moves, after the move. -/
def Move.moved (m : Move) (s : State) (g : Group) : Group := m.group s.time.now { g with lanes := g.lanes.map (Lane.regather s.render.tiles) }

theorem Move.moved_eq (m : Move) (s : State) {g : Group} (h : g.team = m.team) : m.moved s g =
    { g with core := m.newCore, slot := m.slotOf g.slot, shadow := m.shadowOf g.slot, active := false, slowSince := s.time.now, current := false,
             inStore := false, lanes := g.lanes.map (Lane.regather s.render.tiles) } := if_pos h

theorem mem_relocate_groups {s : State} {m : Move} {g : Group} (h : g ∈ s.groupsOf m.team) : m.moved s g ∈ (relocate s m).groups := by
  obtain ⟨hg, team⟩ := List.mem_filter.1 h
  have team : g.team = m.team := by simpa using team
  refine List.mem_map.2 ⟨g, hg, ?_⟩
  rw [if_pos team]
  rfl

theorem relocate_team? {s : State} {m : Move} {tm : Team} (ht : s.team? m.team = some tm) : (relocate s m).team? m.team =
    some { tm with core := m.newCore, slots := tm.slots.map m.slotOf, spbase := m.spNew } := by
  have e := team?_updTeam (f := fun t => { t with core := m.newCore, slots := t.slots.map m.slotOf, spbase := m.spNew }) ht
  simpa [State.team?, State.updTeam, relocate] using e

/-- The team's scratchpad has moved with it (R138). -/
theorem relocate_scratch {s : State} {m : Move} (hs : s.scratch.wf = true) {k : Nat} (hk : k < m.spfoot) :
    readByte (relocate s m) (.sp m.newCore (m.spNew + k)) = readByte s (.sp m.core (m.spOld + k)) := by
  have inside : scratchAt m.newCore m.spNew ≤ scratchAt m.newCore (m.spNew + k) ∧
      scratchAt m.newCore (m.spNew + k) < scratchAt m.newCore m.spNew + (s.scratch.bytes (scratchAt m.core m.spOld) m.spfoot).length := by
    simp only [scratchAt, Mem.bytes, List.length_map, List.length_range]
    omega
  have offset : scratchAt m.newCore (m.spNew + k) - scratchAt m.newCore m.spNew = k := by
    unfold scratchAt
    omega
  simp only [readByte, relocate]
  rw [Mem.read_writeBytes (Mem.wf_clear hs _ _), if_pos inside, offset]
  simp [scratchAt, Mem.bytes, hk, Nat.add_assoc]

/-! ## The copy is done -/

section copy
variable {s : State} {tm : Team} {core base : Nat} {slots : List (Nat × Option Nat)}

/-- The move of a team that migrates (R138). -/
def migrationOf (s : State) (tm : Team) (core base : Nat) (slots : List (Nat × Option Nat)) : Move :=
  { team := tm.id, core := tm.core, newCore := core, spOld := tm.spbase, spNew := base, spfoot := tm.spfoot
    slots := ((s.groupsOf tm.id).zip slots).map fun x => (x.1.slot, x.2.1, x.2.2) }

/-- A team on its new core, with the entry that forwards from its old one. -/
def forwarding (s : State) (tm : Team) (core base : Nat) (slots : List (Nat × Option Nat)) : State :=
  let u := relocate s (migrationOf s tm core base slots)
  { u with fwd := u.fwd ++ [⟨tm.core, tm.slots, tm.id, s.time.now + 64000, tm.spbase, tm.spfoot⟩] }

/-- A team that goes on where it has migrated to, but for the requests to vacate that its going has met. -/
def migrated (s : State) (tm : Team) (core base : Nat) (slots : List (Nat × Option Nat)) : State :=
  releaseTeam ((forwarding s tm core base slots).updTeam tm.id fun t => { t with since := s.time.now }) tm.id

theorem execMigrationCopyDone_other {team : Nat} (ht : s.team? team = some tm) (h : tm.db ≠ .close) : exec (.migrationCopyDone team) s = .next s := by
  show Host.Outcome.next (inDb s team .close _) = _
  simp only [inDb, ht, if_neg h]

theorem execMigrationCopyDone_moves (ht : s.team? tm.id = some tm) (close : tm.db = .close) (dest : tm.dest = some core)
    (copied : copyRecorded s tm = false)
    (picked : pickSlots (s.part tm.part).setup.shadow (usedSlots s core) ((s.groupsOf tm.id).map Group.index) = some slots)
    (room : scratchRun s core tm.spfoot = some base) :
    exec (.migrationCopyDone tm.id) s = .next (settleVacated (migrated s tm core base slots)) := by
  show Host.Outcome.next (inDb s tm.id .close _) = _
  simp only [inDb, ht, if_pos close, dest, picked, room, copied, Bool.false_eq_true, if_false]
  rfl

theorem migrated_team? (ht : s.team? tm.id = some tm) (free : tm.latched = none) : (migrated s tm core base slots).team? tm.id =
    some { tm with core := core, slots := tm.slots.map (migrationOf s tm core base slots).slotOf, spbase := base, since := s.time.now, db := .idle,
                   state := .placed, dest := none } := by
  have moved : (forwarding s tm core base slots).team? tm.id = _ := relocate_team? (m := migrationOf s tm core base slots) ht
  rw [migrated, releaseTeam_eq, team?_updTeam (f := Team.released) (team?_updTeam moved), Team.released_free]
  · rfl
  · exact free

theorem migrated_group (nodup : ((s.groupsOf tm.id).map Group.slot).Nodup) {i : Nat} {g : Group} {sl : Nat × Option Nat}
    (hg : (s.groupsOf tm.id)[i]? = some g) (hs : slots[i]? = some sl) :
    { g with core := core, slot := sl.1, shadow := sl.2, active := false, slowSince := s.time.now, current := false, inStore := false,
             lanes := g.lanes.map (Lane.regather s.render.tiles) } ∈ (migrated s tm core base slots).groups := by
  have mem := List.mem_of_getElem? hg
  have team : g.team = tm.id := by simpa using (List.mem_filter.1 mem).2
  have here := mem_relocate_groups (m := migrationOf s tm core base slots) mem
  obtain ⟨slot, shadow⟩ := Move.slot_of_zip (m := migrationOf s tm core base slots) nodup rfl hg hs
  rw [Move.moved_eq _ _ team, slot, shadow] at here
  exact here

end copy

/-! ## Forwarding -/

section forward
variable {s : State} {id core slot : Nat} {f : Flight} {o len : Nat}

theorem execForwardedMessage_eq (hf : s.flight? id = some f) (live : f.stage ≠ .performed) (reads : f.reads = [⟨.sp core o, len, none, false⟩]) :
    exec (.forwardedMessage id core slot) s = .next (
      match s.fwd.find? fun e => e.core == core && e.slots.contains slot && decide (s.time.now < e.until_) with
      | some e => match s.team? e.team with
        | some t => setFlight s { f with reads := f.reads.map fun r => { r with place := e.place t r.place } }
        | none => dropStale s f
      | none => if f.stale s then dropStale s f else s) := by
  show Host.Outcome.next _ = _
  simp only [hf]
  refine congrArg _ (if_neg ?_)
  simp [reads, live]

theorem flight?_setFlight {f g : Flight} (hf : s.flight? id = some f) (hg : g.id = id) : (setFlight s g).flight? id = some g := by
  have hid : f.id = id := by simpa using List.find?_some hf
  have same : ((fun x : Flight => x.id == id) ∘ fun x => if x.id == g.id then g else x) = fun x => x.id == id := by
    funext x
    simp only [Function.comp]
    split
    next e => rw [beq_iff_eq.1 e]
    · rfl
  simp only [State.flight?, setFlight, List.find?_map, same]
  rw [show s.ms.flights.find? (fun x => x.id == id) = some f from hf]
  simp [hid, hg]

/-- A message that meets an entry goes on to the team (R139). -/
theorem execForwardedMessage_goes {tm : Team} {e : FwdEntry} (ht : s.team? e.team = some tm) (hf : s.flight? id = some f)
    (live : f.stage ≠ .performed) (reads : f.reads = [⟨.sp core o, len, none, false⟩])
    (entry : s.fwd.find? (fun e => e.core == core && e.slots.contains slot && decide (s.time.now < e.until_)) = some e) (low : e.spbase ≤ o)
    (high : o < e.spbase + e.spfoot) : ∃ t, exec (.forwardedMessage id core slot) s = .next t ∧ { t with ms := s.ms } = s ∧
      t.flight? id = some { f with reads := [⟨.sp tm.core (tm.spbase + o - e.spbase), len, none, false⟩] } := by
  have run := execForwardedMessage_eq (slot := slot) hf live reads
  have at_ : e.core = core := by
    have found := List.find?_some entry
    simp only [Bool.and_eq_true, beq_iff_eq] at found
    exact found.1.1
  have place : e.place tm (.sp core o) = .sp tm.core (tm.spbase + o - e.spbase) := if_pos (by simp [at_, low, high])
  simp only [entry, ht, reads, List.map_cons, List.map_nil, place] at run
  refine ⟨_, run, rfl, flight?_setFlight hf ?_⟩
  simpa using List.find?_some hf

theorem execForwardedMessage_stays (hf : s.flight? id = some f) (live : f.stage ≠ .performed) (reads : f.reads = [⟨.sp core o, len, none, false⟩])
    (entry : s.fwd.find? (fun e => e.core == core && e.slots.contains slot && decide (s.time.now < e.until_)) = none) (fresh : f.stale s = false) :
    exec (.forwardedMessage id core slot) s = .next s := by
  rw [execForwardedMessage_eq hf live reads]
  simp only [entry, fresh, Bool.false_eq_true, if_false]

theorem flight?_dropFlight (s : State) (id : Nat) : (dropFlight s id).flight? id = none := by
  simp [State.flight?, dropFlight]

/-! ### What reports and parks leave of what is under way -/

theorem raisePart_ms (s : State) (p n : Nat) : (raisePart s p n).ms = s.ms := by
  unfold raisePart
  simp only
  split <;> rfl

theorem writeFrom_ms (s : State) (p : Place) (bs : List Byte) : (writeFrom s p bs).ms = s.ms := by
  induction bs generalizing s p with
  | nil => rfl
  | cons b bs ih =>
    refine (ih _ _).trans ?_
    cases p with
    | phys a =>
      simp only [writeByte]
      split <;> rfl
    | _ => rfl

theorem writePhys_ms (s : State) (a : Nat) (bs : List Byte) : (writePhys s a bs).ms = s.ms := by
  unfold writePhys
  simp only
  split <;> exact writeFrom_ms s _ bs

theorem putFault_ms (s : State) (p : Nat) (r : FaultRec) : (putFault s p r).ms = s.ms := by
  unfold putFault
  simp only
  split
  · exact raisePart_ms ..
  · split
    · exact (raisePart_ms ..).trans (writePhys_ms ..)
    · exact writePhys_ms ..

theorem newToken_ms (s : State) (p : Nat) : (newToken s p).2.ms = s.ms := by
  unfold newToken
  simp only
  split <;> rfl

theorem parkLate_ms (s : State) (core slot l : Nat) : (parkLate s core slot l).ms = s.ms := by
  unfold parkLate
  split
  · rfl
  · simp only
    split
    · rfl
    · split
      · rfl
      · exact (putFault_ms ..).trans (newToken_ms ..)

theorem raiseLate_ms (s : State) (core slot : Nat) (ls : List Nat) (e : LateErr) : (raiseLate s core slot ls e).ms = s.ms := by
  unfold raiseLate
  refine (field_foldl State.ms (fun s l => ?_) _ _).trans rfl
  split
  · exact parkLate_ms ..
  · rfl

/-- An access that fails and that no unit waits for is under way no more (R37, R189). -/
theorem flight?_failFlight {f : Flight} (alone : f.engine = none) (s : State) (cause : Nat) (again : Bool) :
    (failFlight s f cause again).flight? f.id = none := by
  have dropped {t u : State} (h : t.ms = (dropFlight u f.id).ms) : t.flight? f.id = none := by
    rw [State.flight?, h]
    exact flight?_dropFlight u f.id
  unfold failFlight
  rw [alone]
  split
  · exact dropped (u := s) rfl
  · exact dropped (u := s) rfl
  · contradiction
  · contradiction
  · split
    · unfold decrementAnswered
      rw [alone]
      simp only
      split
      · exact dropped (u := s) rfl
      · exact dropped (u := s) ((field_foldl State.ms (fun s x => raisePart_ms ..) _ _).trans rfl)
    · exact dropped (u := s) (raiseLate_ms ..)
  · exact dropped (raiseLate_ms ..)

/-- A message that meets no entry is dropped (R139). -/
theorem execForwardedMessage_drops (hf : s.flight? id = some f) (live : f.stage ≠ .performed) (reads : f.reads = [⟨.sp core o, len, none, false⟩])
    (entry : s.fwd.find? (fun e => e.core == core && e.slots.contains slot && decide (s.time.now < e.until_)) = none) (stale : f.stale s = true)
    (alone : f.engine = none) : ∃ t, exec (.forwardedMessage id core slot) s = .next t ∧ t.flight? id = none := by
  have hid : f.id = id := by simpa using List.find?_some hf
  have run := execForwardedMessage_eq (slot := slot) hf live reads
  simp only [entry, stale, if_true, dropStale, alone] at run
  exact ⟨_, run, hid ▸ flight?_failFlight alone s 7 false⟩

end forward

/-- Settles O56: a migration begins, is copied, and forwards. -/
theorem migrations : Obligations.Migrations := by
  intro s team core tm ht due eligible
  obtain rfl := team?_id ht
  refine ⟨execMigrationStart_stays ht, fun ⟨may, highest⟩ => execMigrationStart_begins ht may highest, execMigrationCopyDone_other ht, ?copy,
    fun n none => ?unentered, fun n f some => ?entered, fun id slot f o len hf live reads => ⟨fun e entry team low high => ?goes,
      fun entry => ⟨execForwardedMessage_stays hf live reads entry, execForwardedMessage_drops hf live reads entry⟩⟩⟩
  case copy =>
    intro slots base close dest free copied picked room nodup wf
    refine ⟨_, _, execMigrationCopyDone_moves ht close dest copied picked room, migrated_team? ht free, rfl, rfl, rfl, rfl, rfl, rfl, rfl, rfl, rfl,
      fun k hk => relocate_scratch (m := migrationOf s tm core base slots) wf hk, fun i g sl hg hs => ?_⟩
    have team : g.team = tm.id := by simpa using (List.mem_filter.1 (List.mem_of_getElem? hg)).2
    exact ⟨_, migrated_group nodup hg hs, team, rfl, rfl, rfl, rfl, rfl, rfl, rfl, rfl, rfl⟩
  case unentered =>
    show Host.Outcome.next _ = _
    rw [none]
  case entered =>
    show Host.Outcome.next _ = _
    rw [some]
  case goes => exact execForwardedMessage_goes (team ▸ ht) hf live reads entry low high

end Sys2Proof.Machine


/-!
Requests to the Deadbolt (R333, R335, R337, R338), and grids that are aborted (R336).
-/
namespace Sys2Proof.Machine

/-! ## One team changes -/

/-- `t` differs from `s` in one team alone, which is now `u`. -/
def TeamNow (s : State) (n : Nat) (t : State) (u : Team) : Prop :=
  { t with teams := s.teams } = s ∧ t.team? n = some u ∧ ∀ k, k ≠ n → t.team? k = s.team? k

theorem TeamNow.updTeam {s : State} {n : Nat} {tm : Team} (ht : s.team? n = some tm) {f : Team → Team}
    (hf : ∀ t, (f t).id = t.id := by exact fun _ => rfl) : TeamNow s n (s.updTeam n f) (f tm) :=
  ⟨rfl, team?_updTeam ht hf, fun _ h => team?_updTeam_other s h hf⟩

theorem TeamNow.trans {a b c : State} {n : Nat} {u v : Team} (h : TeamNow a n b u) (k : TeamNow b n c v) : TeamNow a n c v :=
  ⟨TeamsOnly.trans h.1 k.1, k.2.1, fun i hi => (k.2.2 i hi).trans (h.2.2 i hi)⟩

/-! ## Requests -/

section request
variable {s : State} {tm : Team}

/-- A team whose Deadbolt begins (R338). -/
def Team.begun (t : Team) (k : DbKind) : Team :=
  { t with
    db := .drainShd, dbKind := k, latched := if dbMoves k then none else t.latched, due := t.due && decide (k ≠ .checkpoint),
    state := match k with
      | .cut => .stopping
      | .migrate => .migrating
      | _ => t.state }

theorem beginDeadbolt_begins (ht : s.team? tm.id = some tm) (k : DbKind) : TeamNow s tm.id (beginDeadbolt s tm.id k) (tm.begun k) := .updTeam ht

theorem execDeadboltRequest_asks (ht : s.team? tm.id = some tm) (free : tm.latched = none) (k : DbKind) :
    exec (.deadboltRequest tm.id k) s = .next (askDeadbolt s tm k) := by
  show Host.Outcome.next _ = _
  simp only [ht, free]

theorem execDeadboltRequest_takes (ht : s.team? tm.id = some tm) {k : DbKind} {d : Nat} (latched : tm.latched = some (k, d)) (idle : tm.db = .idle)
    (opened : latchOpen s tm = true) : exec (.deadboltRequest tm.id k) s = .next (beginDeadbolt s tm.id k) := by
  show Host.Outcome.next _ = _
  simp [ht, latched, opened, takeLatch, idle]

theorem askDeadbolt_unfit {k : DbKind} (h : requestFits s tm k = false) : askDeadbolt s tm k = s := by simp [askDeadbolt, h]

theorem askDeadbolt_fits {k : DbKind} (fits : requestFits s tm k = true) (h : k ≠ .rollback) : askDeadbolt s tm k = requestDeadbolt s tm.id k := by
  cases k with
  | rollback => exact absurd rfl h
  | _ => simp [askDeadbolt, fits]

theorem askDeadbolt_rollback (fits : rollbackOn s tm.part = true) (idle : tm.db = .idle) (placed : tm.state = .placed) :
    askDeadbolt s tm .rollback = recoverTeam s tm.id := by
  simp [askDeadbolt, requestFits, fits, idle, placed]

/-- A cut that is asked for begins, or is latched (R337). -/
theorem requestCut (ht : s.team? tm.id = some tm) (idle : tm.db = .idle) (placed : tm.state = .placed) (free : tm.latched = none) :
    (latchOpen s tm = true → TeamNow s tm.id (requestDeadbolt s tm.id .cut) { tm.begun .cut with dest := none }) ∧
    (latchOpen s tm = false → TeamNow s tm.id (requestDeadbolt s tm.id .cut)
      { tm with dest := none, latched := some (.cut, s.time.now + predlTicks s tm.part) }) := by
  have kept := Kept.updTeam s tm.id asks_dest
  have cleared : TeamNow s tm.id (s.updTeam tm.id fun t => { t with dest := none }) { tm with dest := none } := .updTeam ht
  have e : requestDeadbolt s tm.id .cut =
      if latchOpen s tm then beginDeadbolt (s.updTeam tm.id fun t => { t with dest := none }) tm.id .cut
      else (s.updTeam tm.id fun t => { t with dest := none }).updTeam tm.id
        fun t => { t with latched := some (.cut, s.time.now + predlTicks s tm.part) } := by
    rw [requestCut_idle ht idle placed, cutOrLatch, if_pos rfl]
    simp only [kept.latchOpen, free]
    rfl
  refine ⟨fun opened => ?_, fun masked => ?_⟩
  · rw [e, if_pos opened]
    exact cleared.trans (.updTeam cleared.2.1)
  · rw [e, masked, if_neg Bool.false_ne_true]
    exact cleared.trans (.updTeam cleared.2.1)

theorem requestCheckpoint (ht : s.team? tm.id = some tm) (idle : tm.db = .idle) (placed : tm.state = .placed) :
    TeamNow s tm.id (requestDeadbolt s tm.id .checkpoint) (tm.begun .checkpoint) := by
  have e : requestDeadbolt s tm.id .checkpoint = beginDeadbolt s tm.id .checkpoint := by simp [requestDeadbolt, ht, idle, placed]
  exact e ▸ beginDeadbolt_begins ht .checkpoint

/-- A deadline that has passed takes what is latched, outside deterministic mode (R337). -/
theorem execPreemptDeadlineExpire_eq (ht : s.team? tm.id = some tm) {k : DbKind} {d : Nat} (latched : tm.latched = some (k, d)) (idle : tm.db = .idle)
    (placed : tm.state = .placed) : exec (.preemptDeadlineExpire tm.id) s =
      .next (if d ≤ s.time.now ∧ teamDetm s tm = false then beginDeadbolt s tm.id k else s) := by
  show Host.Outcome.next _ = _
  simp [ht, latched, idle, placed]

theorem execPreemptDeadlineExpire_free (ht : s.team? tm.id = some tm) (free : tm.latched = none) :
    exec (.preemptDeadlineExpire tm.id) s = .next s := by
  show Host.Outcome.next _ = _
  simp only [ht, free]

end request

/-! ## Aborted grids -/

theorem mem_abortClosure {s : State} {grid : Nat} (hg : s.grid? grid ≠ none) (graphs : List Nat) (n : Nat) {set : List Nat} (h : grid ∈ set) :
    grid ∈ abortClosure s graphs n set := by
  obtain ⟨gr, found⟩ := Option.ne_none_iff_exists'.1 hg
  have hid : gr.id = grid := by simpa using List.find?_some found
  induction n generalizing set with
  | zero => exact h
  | succ n ih =>
    refine ih (List.mem_filterMap.2 ⟨gr, List.mem_of_find?_eq_some found, ?_⟩)
    rw [hid, if_pos]
    simp [h]

/-- Dropping the commands of nodes leaves teams and grids. -/
theorem dropNodes_jobs (s : State) (graphs : List Nat) : (dropNodes s graphs).teams = s.teams ∧ (dropNodes s graphs).grids = s.grids := by
  unfold dropNodes
  simp only
  rw [field_foldl State.teams (step := dropCmd) fun _ _ => rfl, field_foldl State.grids (step := dropCmd) fun _ _ => rfl]
  exact ⟨rfl, rfl⟩

theorem discardTeams_teams (s : State) (ids : List Nat) : (discardTeams s ids).teams = s.teams.filter fun t => !ids.contains t.id := by
  unfold discardTeams
  simp only [settleVacated]
  rw [field_foldl State.teams (step := noteVacant) (fun _ _ => rfl)]
  rfl

/-- A grid that is aborted is gone, and its teams with it (R336). -/
theorem abortGrid_removes {s : State} {grid : Nat} (hg : s.grid? grid ≠ none) :
    (∀ x ∈ (abortGrid s grid).teams, x.grid ≠ grid) ∧ ∀ x ∈ (abortGrid s grid).grids, x.id ≠ grid := by
  have inside := mem_abortClosure hg [] (s.grids.length + 1) (List.mem_singleton_self grid)
  have raised : (abortGrid s grid).teams = (abortParts s [grid] []).2.teams ∧ (abortGrid s grid).grids = (abortParts s [grid] []).2.grids := by
    unfold abortGrid abortWork
    simp only
    rw [field_foldl State.teams fun s p => congrArg Prod.fst (jobs_raisePart s p 259),
      field_foldl State.grids fun s p => congrArg (·.2.1) (jobs_raisePart s p 259)]
    exact ⟨rfl, rfl⟩
  rw [raised.1, raised.2]
  unfold abortParts
  generalize abortClosure s [] (s.grids.length + 1) [grid] = set at inside
  simp only [dropDeadGraphs, failWork, (dropNodes_jobs _ _).1, (dropNodes_jobs _ _).2]
  refine ⟨fun x hx at_ => ?_, fun x hx at_ => ?_⟩
  · rw [discardTeams_teams] at hx
    obtain ⟨here, stays⟩ := List.mem_filter.1 hx
    refine absurd stays ?_
    simp only [Bool.not_eq_true, Bool.not_eq_false', List.contains_iff_mem, List.mem_filterMap]
    exact ⟨x, here, by simp [at_, inside]⟩
  · have stays := (List.mem_filter.1 hx).2
    simp [at_, inside] at stays

theorem recoverTeam_aborts {s : State} {tm : Team} (ht : s.team? tm.id = some tm) (h : tm.repeatable = false ∨ 2 ≤ tm.rollbacks) :
    recoverTeam s tm.id = abortGrid s tm.grid := by
  simp only [recoverTeam, ht]
  refine if_neg ?_
  simp only [Bool.and_eq_true, decide_eq_true_eq]
  rintro ⟨⟨-, rep⟩, few⟩
  rcases h with h | h
  · exact Bool.false_ne_true (h.symm.trans rep)
  · omega

end Sys2Proof.Machine


/-!
The Deadbolt from the drain of the shadows to the scan, and the images that it writes (R146, R184, R338, R342, R345).
-/
namespace Sys2Proof.Machine

/-! ## Shadows drain, and the freeze -/

section states
variable {s : State} {tm : Team}

theorem inDb_other {d : DbState} (ht : s.team? tm.id = some tm) (h : tm.db ≠ d) (k : State → Team → State) : inDb s tm.id d k = s := by
  simp only [inDb, ht, if_neg h]

theorem inDb_here {d : DbState} (ht : s.team? tm.id = some tm) (h : tm.db = d) (k : State → Team → State) : inDb s tm.id d k = k s tm := by
  simp only [inDb, ht, if_pos h]

theorem setDb_now (ht : s.team? tm.id = some tm) (d : DbState) : TeamNow s tm.id (setDb s tm.id d) { tm with db := d } := .updTeam ht

theorem execShadowQueuesEmpty_eq (ht : s.team? tm.id = some tm) (h : tm.db = .drainShd) : exec (.shadowQueuesEmpty tm.id) s =
    .next (if shadowsDrained s tm.id then setDb s tm.id .freeze else s) :=
  congrArg Host.Outcome.next (inDb_here ht h _)

/-- What the freeze does to a team (R338). -/
def Team.frozenAs (t : Team) (now : Nat) : Team := { t with db := .scan, state := if t.dbKind = .cut then .saving else t.state, frozenAt := now }

theorem execDeadboltFreeze_eq (ht : s.team? tm.id = some tm) (h : tm.db = .freeze) : exec (.deadboltFreeze tm.id) s =
    .next ((freezeUnits s tm).updTeam tm.id fun t => t.frozenAs s.time.now) :=
  congrArg Host.Outcome.next (inDb_here ht h _)

theorem freezeUnits_keeps (h : tm.dbKind ≠ .rollback) : { (freezeUnits s tm).render with walks := s.render.walks } = s.render := by
  simp only [freezeUnits, if_neg h]

theorem RaySlot.goesWith_mono {r : RaySlot} {ms : List MarchSlot} {p q : Nat → Nat → Bool} (h : ∀ c k, p c k = true → q c k = true)
    (hr : r.goesWith ms p = true) : r.goesWith ms q = true := by
  unfold RaySlot.goesWith at *
  cases ho : r.owner with
  | lane c k l =>
    simp only [ho] at hr
    exact h c k hr
  | march id =>
    simp only [ho, List.any_eq_true, Bool.and_eq_true] at hr ⊢
    obtain ⟨m, hm, same, at_⟩ := hr
    exact ⟨m, hm, same, h _ _ at_⟩
  | strainer _ => simp [ho] at hr

/-- A rollback discards the rays of the team's groups, and no pixel access (R335). -/
theorem freezeUnits_drops (h : tm.dbKind = .rollback) : (freezeUnits s tm).render.pixels = s.render.pixels ∧
    ∀ g ∈ s.groupsOf tm.id, ∀ r ∈ (freezeUnits s tm).render.rays, r.goesWith s.render.marches (fun c k => g.isAt c k) = false := by
  rw [freezeUnits]
  simp only [if_pos h]
  refine ⟨trivial, fun g hg r hr => ?_⟩
  have stays := (List.mem_filter.1 hr).2
  rw [Bool.not_eq_true'] at stays
  exact Bool.eq_false_iff.2 fun goes => Bool.false_ne_true
    (stays.symm.trans (RaySlot.goesWith_mono (fun c k at_ => List.any_eq_true.2 ⟨g, hg, at_⟩) goes))

/-! ## Images -/

/-- A team's image stands in memory at an address, and its name in the list of images. -/
def ImageAt (s : State) (tm : Team) (t : State) (a : Nat) (checkpoint : Bool) (ps : List Piece) : Prop :=
  t.mem = writePieces (s.mem.clear a (sectionsOf s tm).len) a ps ∧
  ∃ x ∈ t.images, x.team = tm.id ∧ x.checkpoint = checkpoint ∧ x.addr = a ∧ x.len = (sectionsOf s tm).len ∧ x.written = true

/-- A state with a team's image written and named. -/
def imaged (s : State) (tm : Team) (a : Nat) (checkpoint header : Bool) : State :=
  let w := writeImage s tm a checkpoint header
  putImage w (imageOf w tm a checkpoint true)

/-- Writing an image changes memory and its marks, and the list of images. -/
theorem imaged_keeps (s : State) (tm : Team) (a : Nat) (checkpoint header : Bool) :
    { imaged s tm a checkpoint header with mem := s.mem, poison := s.poison, sramPoison := s.sramPoison, images := s.images } = s := by
  simp only [imaged, putImage, writeImage, clearPoison]

theorem imaged_field (s : State) (tm : Team) (a : Nat) (checkpoint header : Bool) {α : Type} (f : State → α)
    (hf : f { imaged s tm a checkpoint header with mem := s.mem, poison := s.poison, sramPoison := s.sramPoison, images := s.images } =
      f (imaged s tm a checkpoint header) := by rfl) : f (imaged s tm a checkpoint header) = f s :=
  hf.symm.trans (congrArg f (imaged_keeps ..))

theorem sectionsOf_writeImage (s : State) (tm : Team) (a : Nat) (checkpoint header : Bool) :
    sectionsOf (writeImage s tm a checkpoint header) tm = sectionsOf s tm := rfl

theorem imaged_image (s : State) (tm : Team) (a : Nat) (checkpoint header : Bool) : ImageAt s tm (imaged s tm a checkpoint header) a checkpoint
    (bodyPieces s tm ++ if header then headerPieces s tm checkpoint else []) := by
  refine ⟨?_, imageOf (writeImage s tm a checkpoint header) tm a checkpoint true, List.mem_append_right _ (List.mem_singleton_self _), rfl, rfl, rfl,
    congrArg Sections.len (sectionsOf_writeImage s tm a checkpoint header), rfl⟩
  simp only [imaged, putImage, writeImage, clearPoison]

/-! ## The scan -/

theorem scanTeam_waits (h : copyRecorded s tm = true) : scanTeam s tm = s := if_pos h

theorem scanTeam_skips (h : copyRecorded s tm = false) (k : tm.dbKind = .migrate ∨ tm.dbKind = .rollback) : scanTeam s tm = setDb s tm.id .complete := by
  have none : writesImage tm.dbKind = false := by rcases k with k | k <;> rw [k] <;> rfl
  simp [scanTeam, h, none]

theorem writesImage_of {k : DbKind} (h : k = .cut ∨ k = .checkpoint) : writesImage k = true := by
  rcases h with rfl | rfl <;> rfl

/-- A scan that meets poison retires the core and recovers the team (R345). -/
theorem scanTeam_poisoned (h : copyRecorded s tm = false) (k : tm.dbKind = .cut ∨ tm.dbKind = .checkpoint) (bad : imagePoison s tm 0 ≠ []) :
    scanTeam s tm = recoverTeam (askRetire (releaseTeam s tm.id) tm.core) tm.id := by
  have met : (imagePoison s tm 0).isEmpty = false := by simpa using bad
  simp [scanTeam, h, writesImage_of k, met]

theorem scanTeam_clean (h : copyRecorded s tm = false) (k : tm.dbKind = .cut ∨ tm.dbKind = .checkpoint) (clean : imagePoison s tm 0 = []) :
    scanTeam s tm = match areaPlace s tm.part tm.id (decide (tm.dbKind = .checkpoint)) (sectionsOf s tm).len with
      | none => setPe s tm.part 3
      | some a => setDb (imaged (setPe s tm.part 1) tm a (decide (tm.dbKind = .checkpoint)) false) tm.id .complete := by
  simp only [scanTeam, h, writesImage_of k, clean, List.isEmpty_nil, Bool.not_true, Bool.false_eq_true, if_false]
  rfl

theorem scanTeam_recovers (ht : s.team? tm.id = some tm) (h : copyRecorded s tm = false) (k : tm.dbKind = .cut ∨ tm.dbKind = .checkpoint)
    (bad : imagePoison s tm 0 ≠ []) (on : rollbackOn s tm.part = true) (rep : tm.repeatable = true) (few : tm.rollbacks < 2) :
    (scanTeam s tm).team? tm.id = some tm.released.rolling ∧ (tm.core ∈ (scanTeam s tm).retiring ∨ tm.core ∈ s.disabledCores) := by
  rw [scanTeam_poisoned h k bad]
  have asked := askRetire_retiring (releaseTeam s tm.id) tm.core
  obtain ⟨teams, -, -, -, parts⟩ := askRetire_fields (releaseTeam s tm.id) tm.core
  have found : (askRetire (releaseTeam s tm.id) tm.core).team? tm.id = some tm.released := by
    rw [State.team?, teams]
    exact team?_updTeam ht
  have stillOn : rollbackOn (askRetire (releaseTeam s tm.id) tm.core) tm.part = true := by
    rw [rollbackOn, State.part, parts]
    exact on
  obtain ⟨v, report, only, rolls⟩ := recoverTeam_rollsBack (tm := tm.released) found stillOn rep few rfl rfl
  refine ⟨rolls, asked.imp_left fun retires => ?_⟩
  have same : (recoverTeam (askRetire (releaseTeam s tm.id) tm.core) tm.id).retiring = (askRetire (releaseTeam s tm.id) tm.core).retiring :=
    (only.field State.retiring rfl).trans (report.field State.retiring)
  exact same ▸ retires

theorem setPe_part (hp : tm.part < s.parts.length) (hv : (s.part tm.part).sch.vacating ≠ []) (v : Nat) :
    ((setPe s tm.part v).part tm.part).sch.peState = v := by
  rw [setPe, s.part_updPart_same hp]
  simp [hv]

theorem jobSections_setPe (s : State) (p v off : Nat) (js : List MatrixJob) : jobSections (setPe s p v) off js = jobSections s off js := by
  induction js generalizing off with
  | nil => rfl
  | cons j js ih =>
    rw [jobSections, jobSections, ih]
    rfl

/-- STATE of `SCH_PESTAT` is in no image. -/
theorem bodyPieces_setPe (s : State) (tm : Team) (p v : Nat) : bodyPieces (setPe s p v) tm = bodyPieces s tm := by
  simp only [bodyPieces, jobSections_setPe]
  rfl

/-- A scan that has room writes the image's sections (R338). -/
theorem scanTeam_writes (ht : s.team? tm.id = some tm) (h : copyRecorded s tm = false) (k : tm.dbKind = .cut ∨ tm.dbKind = .checkpoint)
    (clean : imagePoison s tm 0 = []) {a : Nat}
    (room : areaPlace s tm.part tm.id (decide (tm.dbKind = .checkpoint)) (sectionsOf s tm).len = some a) :
    (scanTeam s tm).team? tm.id = some { tm with db := .complete } ∧ (scanTeam s tm).groups = s.groups ∧
      ImageAt s tm (scanTeam s tm) a (decide (tm.dbKind = .checkpoint)) (bodyPieces s tm) := by
  have e := scanTeam_clean h k clean
  simp only [room] at e
  rw [e]
  obtain ⟨mem, image⟩ := imaged_image (setPe s tm.part 1) tm a (decide (tm.dbKind = .checkpoint)) false
  rw [if_neg Bool.false_ne_true, List.append_nil, bodyPieces_setPe] at mem
  have found : (imaged (setPe s tm.part 1) tm a (decide (tm.dbKind = .checkpoint)) false).team? tm.id = some tm :=
    (imaged_field _ _ _ _ _ (State.team? · tm.id)).trans ht
  exact ⟨(setDb_now found .complete).2.1, (imaged_field (setPe s tm.part 1) tm a (decide (tm.dbKind = .checkpoint)) false State.groups), mem, image⟩

end states

end Sys2Proof.Machine


/-!
The Deadbolt's close: checkpoints, cuts and rollbacks (R145, R333, R335, R338).
-/
namespace Sys2Proof.Machine

/-! ## The close -/

section close
variable {s : State} {tm : Team}

theorem foldl_same {α : Type} {step : State → α → State} {s : State} {xs : List α} (h : ∀ x ∈ xs, step s x = s) : xs.foldl step s = s := by
  induction xs with
  | nil => rfl
  | cons x xs ih =>
    rw [List.foldl_cons, h x (List.mem_cons_self ..)]
    exact ih fun y hy => h y (List.mem_cons_of_mem _ hy)

/-- Lanes that are all at home stay where they are (R278). -/
theorem homeLanes_home (home : ∀ g ∈ s.groupsOf tm.id, ∀ l, l < 32 → (s.lane g.core g.slot l).home = none) : homeLanes s tm.id = s :=
  foldl_same fun g hg => foldl_same fun l hl => by rw [swapBack, home g hg l (List.mem_range.1 hl)]

theorem execDeadboltDrainDone_waits (ht : s.team? tm.id = some tm) (db : tm.db = .complete)
    (busy : teamBusy s tm.id = true ∨ copyRecorded s tm = true) : exec (.deadboltDrainDone tm.id) s = .next s := by
  refine congrArg Host.Outcome.next ((inDb_here ht db _).trans (if_pos ?_))
  simpa using busy

theorem execDeadboltDrainDone_closes (ht : s.team? tm.id = some tm) (db : tm.db = .complete) (still : teamBusy s tm.id = false)
    (copied : copyRecorded s tm = false) (home : ∀ g ∈ s.groupsOf tm.id, ∀ l, l < 32 → (s.lane g.core g.slot l).home = none) :
    exec (.deadboltDrainDone tm.id) s = .next (closeTeam s tm) := by
  refine congrArg Host.Outcome.next ((inDb_here ht db _).trans ?_)
  rw [drainDone, still, copied, if_neg (by decide)]
  simp only [homeLanes_home home, ht]

/-! ### Checkpoints and cuts -/

theorem closeTeam_checkpoint (k : tm.dbKind = .checkpoint) : closeTeam s tm = releaseTeam (imaged s tm (imageAddr s tm) true true) tm.id := by
  simp only [closeTeam, k, closeCheckpoint, imaged]

theorem closeTeam_cut (k : tm.dbKind = .cut) : closeTeam s tm = stowTeam (imaged s tm (imageAddr s tm) false true) tm := by
  simp only [closeTeam, k, closeCut, imaged]

/-- A checkpoint that closes leaves the team running and its image whole (R333, R338). -/
theorem closeCheckpoint_leaves (ht : s.team? tm.id = some tm) (k : tm.dbKind = .checkpoint) : (closeTeam s tm).groups = s.groups ∧
    (closeTeam s tm).team? tm.id = some tm.released ∧
    ImageAt s tm (closeTeam s tm) (imageAddr s tm) true (bodyPieces s tm ++ headerPieces s tm true) := by
  rw [closeTeam_checkpoint k]
  have found : (imaged s tm (imageAddr s tm) true true).team? tm.id = some tm := (imaged_field _ _ _ _ _ (State.team? · tm.id)).trans ht
  have image := imaged_image s tm (imageAddr s tm) true true
  rw [if_pos rfl] at image
  exact ⟨imaged_field s tm (imageAddr s tm) true true State.groups, team?_updTeam (f := Team.released) found, image⟩

/-- The move of a team that is taken off its core under its image (R145). -/
def stowing (s : State) (tm : Team) : Move :=
  { team := tm.id, core := tm.core, newCore := parkedCore tm.id, slots := (s.groupsOf tm.id).map fun g => (g.slot, g.index, none)
    spOld := 0, spNew := 0, spfoot := 0 }

theorem stowing_slot {g : Group} (hg : g ∈ s.groupsOf tm.id) (only : ∀ h ∈ s.groupsOf tm.id, h.slot = g.slot → h = g) :
    (stowing s tm).slotOf g.slot = g.index ∧ (stowing s tm).shadowOf g.slot = none := by
  have found : (s.groupsOf tm.id).find? (fun h => h.slot == g.slot) = some g := by
    have some : ((s.groupsOf tm.id).find? fun h => h.slot == g.slot).isSome := List.find?_isSome.2 ⟨g, hg, beq_self_eq_true g.slot⟩
    obtain ⟨h, hh⟩ := Option.isSome_iff_exists.1 some
    rw [hh, only h (List.mem_of_find?_eq_some hh) (by simpa using List.find?_some hh)]
  have slots : (stowing s tm).slots.find? (fun x => x.1 == g.slot) = some (g.slot, g.index, none) := by
    simp only [stowing, List.find?_map, Function.comp_def, found, Option.map_some]
  simp [Move.slotOf, Move.shadowOf, slots]

/-- A team that is saved is PENDING, and nothing forwards to it (R145). -/
theorem stowTeam_leaves (ht : s.team? tm.id = some tm) : (stowTeam s tm).mem = s.mem ∧ (stowTeam s tm).images = s.images ∧
    (∀ f ∈ (stowTeam s tm).fwd, f.team ≠ tm.id) ∧ (stowTeam s tm).team? tm.id = some { tm with
      core := parkedCore tm.id, slots := tm.slots.map (stowing s tm).slotOf, spbase := 0, state := .pending, db := .idle, latched := none,
      dest := none } := by
  have moved : (relocate s (stowing s tm)).team? tm.id = _ := relocate_team? (m := stowing s tm) ht
  refine ⟨rfl, rfl, fun f hf => ?_, team?_updTeam (f := fun t => { t with state := .pending, db := .idle, latched := none, dest := none }) moved⟩
  simpa using (List.mem_filter.1 hf).2

theorem stowTeam_group {g : Group} (hg : g ∈ s.groupsOf tm.id) (only : ∀ h ∈ s.groupsOf tm.id, h.slot = g.slot → h = g) :
    { g with core := parkedCore tm.id, slot := g.index, shadow := none, active := false, slowSince := s.time.now, current := false, inStore := false,
             lanes := g.lanes.map (Lane.regather s.render.tiles) } ∈ (stowTeam s tm).groups := by
  have team : g.team = tm.id := by simpa using (List.mem_filter.1 hg).2
  have here := mem_relocate_groups (m := stowing s tm) hg
  obtain ⟨slot, shadow⟩ := stowing_slot hg only
  rw [Move.moved_eq _ _ team, slot, shadow] at here
  exact here

/-! ### Rollbacks -/

theorem closeTeam_rollback (k : tm.dbKind = .rollback) : closeTeam s tm = closeRollback s tm := by simp only [closeTeam, k]

theorem closeRollback_none (none : s.checkpoint? tm.id = none) : closeRollback s tm = abortGrid s tm.grid := by
  simp only [closeRollback, none]

/-- A checkpoint of a placement, of which no copy was made, is loaded where its groups have slots and fit (R335). -/
theorem closeRollback_loads {i : Image} {slots : List (Nat × Option Nat)} (found : s.checkpoint? tm.id = some i) (unwritten : i.written = false)
    (picked : checkpointSlots s tm i = some slots) (fits : checkpointFits s tm i = true) : closeRollback s tm = loadCheckpoint s tm i slots := by
  simp only [closeRollback, found, unwritten, Bool.false_eq_true, if_false, picked, fits, if_true]

/-- The move that takes a checkpoint's groups to the slots of a rollback (R335). -/
def restoring (tm : Team) (i : Image) (slots : List (Nat × Option Nat)) : Move :=
  { team := tm.id, core := i.record.core, newCore := tm.core, spOld := 0, spNew := 0, spfoot := 0
    slots := (i.groups.zip slots).map fun x => (x.1.slot, x.2.1, x.2.2) }

/-- A group as a checkpoint has it, in its slot (R335). -/
def restored (s : State) (tm : Team) (i : Image) (slots : List (Nat × Option Nat)) (g : Group) : Group :=
  { (restoring tm i slots).group s.time.now g with readyAt := s.fresh }

section load
variable {i : Image} {slots : List (Nat × Option Nat)} (unwritten : i.written = false)
include unwritten

theorem loadCheckpoint_groups : (loadCheckpoint s tm i slots).groups =
    (s.groups.filter fun g => g.team != tm.id) ++ i.groups.map (restored s tm i slots) := by
  simp only [loadCheckpoint, loadCheckpointScratch, unwritten, Bool.false_eq_true, if_false]
  rfl

theorem loadCheckpoint_bytes : (loadCheckpoint s tm i slots).mem = s.mem ∧ (loadCheckpoint s tm i slots).scratch = s.scratch := by
  simp only [loadCheckpoint, loadCheckpointScratch, unwritten, Bool.false_eq_true, if_false]
  exact ⟨rfl, rfl⟩

theorem loadCheckpoint_team? (ht : s.team? tm.id = some tm) : (loadCheckpoint s tm i slots).team? tm.id =
    some { tm with slots := slots.map Prod.fst, repeatable := true, keyrings := i.record.keyrings }.released := by
  have here := team?_updTeam (f := fun t => { t with slots := slots.map Prod.fst, repeatable := true, keyrings := i.record.keyrings }) ht
  have released := team?_updTeam (f := Team.released) here
  simp only [loadCheckpoint, loadCheckpointScratch, unwritten, Bool.false_eq_true, if_false]
  exact released

end load

theorem restored_eq {i : Image} {slots : List (Nat × Option Nat)} (nodup : (i.groups.map Group.slot).Nodup) {k : Nat} {g : Group}
    {sl : Nat × Option Nat} (hg : i.groups[k]? = some g) (hs : slots[k]? = some sl) (team : g.team = tm.id) : restored s tm i slots g =
      { g with core := tm.core, slot := sl.1, shadow := sl.2, active := false, slowSince := s.time.now, current := false, inStore := false,
               readyAt := s.fresh } := by
  obtain ⟨slot, shadow⟩ := Move.slot_of_zip (m := restoring tm i slots) nodup rfl hg hs
  simp only [restored, Move.group, if_pos (show g.team = (restoring tm i slots).team from team), slot, shadow]
  rfl

theorem restored_index {i : Image} {slots : List (Nat × Option Nat)} (g : Group) : (restored s tm i slots g).index = g.index := by
  unfold restored Move.group
  split <;> rfl

end close

end Sys2Proof.Machine


/-!
The Deadbolt's events, as its statement names them.
-/
namespace Sys2Proof.Machine

/-! ## The statement, part by part -/

section parts
variable {s : State} {tm : Team} (ht : s.team? tm.id = some tm)
include ht

/-- A request reaches an idle team. -/
theorem execDeadboltRequest_reaches {k : DbKind} {u : Team} (free : tm.latched = none) (fits : requestFits s tm k = true) (h : k ≠ .rollback)
    (now : TeamNow s tm.id (requestDeadbolt s tm.id k) u) : ∃ t, exec (.deadboltRequest tm.id k) s = .next t ∧ TeamNow s tm.id t u :=
  ⟨_, (execDeadboltRequest_asks ht free k).trans (congrArg _ (askDeadbolt_fits fits h)), now⟩

theorem execDeadboltRequest_unfit {k : DbKind} (free : tm.latched = none) (h : requestFits s tm k = false) :
    exec (.deadboltRequest tm.id k) s = .next s :=
  (execDeadboltRequest_asks ht free k).trans (congrArg _ (askDeadbolt_unfit h))

theorem execDeadboltRequest_recovers (free : tm.latched = none) (on : rollbackOn s tm.part = true) (idle : tm.db = .idle)
    (placed : tm.state = .placed) : exec (.deadboltRequest tm.id .rollback) s = .next (recoverTeam s tm.id) :=
  (execDeadboltRequest_asks ht free .rollback).trans (congrArg _ (askDeadbolt_rollback on idle placed))

theorem execDeadboltRequest_rollsBack (free : tm.latched = none) (on : rollbackOn s tm.part = true) (idle : tm.db = .idle)
    (placed : tm.state = .placed) (rep : tm.repeatable = true) (few : tm.rollbacks < 2) :
    ∃ t, exec (.deadboltRequest tm.id .rollback) s = .next t ∧ t.team? tm.id = some tm.rolling ∧ t.groups = s.groups ∧ t.mem = s.mem := by
  obtain ⟨v, report, only, rolls⟩ := recoverTeam_rollsBack ht on rep few idle placed
  exact ⟨_, execDeadboltRequest_recovers ht free on idle placed, rolls, (only.field State.groups rfl).trans (report.field State.groups),
    (only.field State.mem rfl).trans (report.field State.mem)⟩

/-- A latched request begins: it is open, or its deadline has passed. -/
theorem begun_reaches {i : Instr} {k : DbKind} (run : exec i s = .next (beginDeadbolt s tm.id k)) :
    ∃ t, exec i s = .next t ∧ TeamNow s tm.id t (tm.begun k) := ⟨_, run, beginDeadbolt_begins ht k⟩

theorem execDeadboltScanDone_eq (db : tm.db = .scan) : exec (.deadboltScanDone tm.id) s = .next (scanTeam s tm) :=
  congrArg Host.Outcome.next (inDb_here ht db _)

theorem execSaveAreaAvailable_eq (db : tm.db = .scan) : exec (.saveAreaAvailable tm.id) s = .next (
    if (areaPlace s tm.part tm.id (decide (tm.dbKind = .checkpoint)) (sectionsOf s tm).len).isSome then scanTeam s tm else s) :=
  congrArg Host.Outcome.next (inDb_here ht db _)

end parts

/-- A cut or a migration that begins is latched no longer (R337). -/
theorem Team.begun_eq (t : Team) (k : DbKind) : t.begun k = { t with
    db := .drainShd, dbKind := k, latched := (match k with | .cut | .migrate => none | _ => t.latched), due := t.due && decide (k ≠ .checkpoint),
    state := (match k with | .cut => .stopping | .migrate => .migrating | _ => t.state) } := by
  cases k <;> rfl

/-- Settles O55: the Deadbolt's requests, states and closes, one by one. -/
theorem deadbolts : Obligations.Deadbolts := by
  intro s team tm ht only begun reaches due image
  obtain rfl := team?_id ht
  have begins (k : DbKind) : tm.begun k = begun k := tm.begun_eq k
  refine ⟨fun idle placed free => ⟨fun area k other => ?unsaved,
      fun area => ⟨?cut, ?latchedCut, fun roll => ⟨?checkpoint, ?rollback, ?third⟩, ?off⟩, ?unplaced, ?migrate, ?latchedMigrate⟩,
    fun k d latched idle placed => ⟨?taken, ?expired, ?early⟩, execPreemptDeadlineExpire_free ht, fun db => ⟨?drained, ?draining⟩, ?undrained,
    ?unfrozen, fun db => ?freeze, fun db => ?unscanned, ?scan, ?uncomplete, execDeadboltDrainDone_waits ht, ?closes⟩
  case unsaved =>
    refine execDeadboltRequest_unfit ht free ?_
    cases k with
    | migrate => exact absurd rfl other
    | _ => simp [requestFits, rollbackOn, area]
  case cut =>
    exact fun opened => execDeadboltRequest_reaches ht free (decide_eq_true area) nofun ((requestCut ht idle placed free).1 opened)
  case latchedCut =>
    exact fun masked => execDeadboltRequest_reaches ht free (decide_eq_true area) nofun ((requestCut ht idle placed free).2 masked)
  case checkpoint =>
    exact execDeadboltRequest_reaches ht free (by simp [requestFits, rollbackOn, area, roll]) nofun (requestCheckpoint ht idle placed)
  case rollback =>
    intro rep few
    obtain ⟨t, run, rolls, groups, mem⟩ := execDeadboltRequest_rollsBack ht free (by simp [rollbackOn, area, roll]) idle placed rep few
    refine ⟨t, run, rolls.trans ?_, groups, mem⟩
    simp [Team.rolling, begun]
  case third =>
    intro spent held
    refine ⟨_, execDeadboltRequest_recovers ht free (by simp [rollbackOn, area, roll]) idle placed, ?_⟩
    rw [recoverTeam_aborts ht spent]
    exact abortGrid_removes held
  case off =>
    intro roll
    exact ⟨execDeadboltRequest_unfit ht free (by simp [requestFits, rollbackOn, roll]),
      execDeadboltRequest_unfit ht free (by simp [requestFits, rollbackOn, roll])⟩
  case unplaced =>
    exact fun none => execDeadboltRequest_unfit ht free (by simp [requestFits, none])
  case migrate =>
    intro some opened
    obtain ⟨teams, begins, -, others⟩ := requestMigrate ht placed idle free
    refine execDeadboltRequest_reaches ht free (Option.isSome_iff_ne_none.2 some) nofun ⟨teams, (begins opened).trans ?_, others⟩
    simp [begun]
  case latchedMigrate =>
    intro some masked
    obtain ⟨teams, -, latches, others⟩ := requestMigrate ht placed idle free
    exact execDeadboltRequest_reaches ht free (Option.isSome_iff_ne_none.2 some) nofun ⟨teams, latches masked, others⟩
  case taken =>
    intro opened
    exact begins k ▸ begun_reaches ht (execDeadboltRequest_takes ht latched idle opened)
  case expired =>
    intro past free
    have run := execPreemptDeadlineExpire_eq ht latched idle placed
    rw [if_pos ⟨past, free⟩] at run
    exact begins k ▸ begun_reaches ht run
  case early =>
    intro h
    rw [execPreemptDeadlineExpire_eq ht latched idle placed, if_neg]
    rintro ⟨past, free⟩
    rcases h with h | h
    · omega
    · exact Bool.false_ne_true (free.symm.trans h)
  case drained =>
    intro all
    exact ⟨_, (execShadowQueuesEmpty_eq ht db).trans (congrArg _ (if_pos all)), setDb_now ht .freeze⟩
  case draining =>
    intro some
    rw [execShadowQueuesEmpty_eq ht db, some, if_neg Bool.false_ne_true]
  case undrained => exact fun db => congrArg Host.Outcome.next (inDb_other ht db _)
  case unfrozen => exact fun db => congrArg Host.Outcome.next (inDb_other ht db _)
  case freeze =>
    refine ⟨_, execDeadboltFreeze_eq ht db, rfl, ?_, freezeUnits_keeps, freezeUnits_drops⟩
    exact team?_updTeam (s := freezeUnits s tm) (f := fun t => t.frozenAs s.time.now) ht
  case unscanned => exact ⟨congrArg Host.Outcome.next (inDb_other ht db _), congrArg Host.Outcome.next (inDb_other ht db _)⟩
  case scan =>
    intro db cp room
    have scans := execDeadboltScanDone_eq ht db
    have saves := execSaveAreaAvailable_eq ht db
    refine ⟨fun copying => scans.trans (congrArg _ (scanTeam_waits copying)), fun copied kind => ?skips, fun copied kind bad on rep few => ?poisoned,
      fun copied kind clean => ⟨fun full => ⟨?unsaving, ?full⟩, fun a roomy => ?room⟩⟩
    case skips => exact ⟨_, scans.trans (congrArg _ (scanTeam_skips copied kind)), setDb_now ht .complete⟩
    case poisoned =>
      obtain ⟨rolls, retires⟩ := scanTeam_recovers ht copied kind bad on rep few
      exact ⟨_, _, scans, rolls, rfl, rfl, rfl, retires⟩
    case unsaving =>
      rw [saves, if_neg]
      simp [show areaPlace s tm.part tm.id (decide (tm.dbKind = .checkpoint)) (sectionsOf s tm).len = none from full]
    case full =>
      have clean := scanTeam_clean copied kind clean
      rw [show areaPlace s tm.part tm.id (decide (tm.dbKind = .checkpoint)) (sectionsOf s tm).len = none from full] at clean
      exact ⟨_, scans.trans (congrArg _ clean), rfl, fun hp hv => setPe_part hp hv 3⟩
    case room =>
      obtain ⟨team, groups, written⟩ := scanTeam_writes ht copied kind clean roomy
      refine ⟨_, scans, saves.trans (congrArg _ (if_pos ?_)), team, groups, written⟩
      exact Option.isSome_iff_exists.2 ⟨a, roomy⟩
  case uncomplete => exact fun db => congrArg Host.Outcome.next (inDb_other ht db _)
  case closes =>
    intro db still copied home
    have closes := execDeadboltDrainDone_closes ht db still copied home
    refine ⟨fun kind => ?migration, fun kind => ?checkpoint, fun kind => ?cut, fun kind none held => ?gone,
      fun i slots kind found unwritten picked fits own nodup => ?loads⟩
    case migration =>
      rw [closeTeam, kind] at closes
      exact ⟨_, closes, setDb_now ht .close⟩
    case checkpoint =>
      obtain ⟨groups, team, written⟩ := closeCheckpoint_leaves ht kind
      exact ⟨_, closes, groups, team, written⟩
    case cut =>
      rw [closeTeam_cut kind] at closes
      have there : (imaged s tm (imageAddr s tm) false true).team? tm.id = some tm := (imaged_field _ _ _ _ _ (State.team? · tm.id)).trans ht
      obtain ⟨mem, images, fwd, team⟩ := stowTeam_leaves there
      obtain ⟨written, named⟩ := imaged_image s tm (imageAddr s tm) false true
      have groups : (imaged s tm (imageAddr s tm) false true).groupsOf tm.id = s.groupsOf tm.id := imaged_field _ _ _ _ _ (State.groupsOf · tm.id)
      refine ⟨_, _, closes, team, rfl, rfl, rfl, rfl, rfl, rfl, rfl, rfl, fwd, ⟨mem.trans written, images ▸ named⟩, fun g hg alone => ?_⟩
      exact ⟨_, stowTeam_group (s := imaged s tm (imageAddr s tm) false true) (groups ▸ hg) (groups ▸ alone), rfl⟩
    case gone =>
      rw [closeTeam_rollback kind, closeRollback_none none] at closes
      exact ⟨_, closes, abortGrid_removes held⟩
    case loads =>
      rw [closeTeam_rollback kind, closeRollback_loads found unwritten picked fits] at closes
      obtain ⟨mem, scratch⟩ := loadCheckpoint_bytes (s := s) (tm := tm) (slots := slots) unwritten
      have groups := loadCheckpoint_groups (s := s) (tm := tm) (slots := slots) unwritten
      refine ⟨_, _, closes, loadCheckpoint_team? unwritten ht, rfl, rfl, rfl, rfl, rfl, mem, scratch, fun h hh team => ?_, fun k g sl hg hs => ?_⟩
      · rw [groups] at hh
        rcases List.mem_append.1 hh with other | back
        · exact absurd team (by simpa using (List.mem_filter.1 other).2)
        · obtain ⟨g, hg, rfl⟩ := List.mem_map.1 back
          exact ⟨g, hg, restored_index g⟩
      · have mem := List.mem_of_getElem? hg
        refine ⟨_, ?_, restored_eq nodup hg hs (own g mem)⟩
        rw [groups]
        exact List.mem_append_right _ (List.mem_map_of_mem mem)

end Sys2Proof.Machine

/-!
The canonical form of the memories is an invariant of every step (R176; log entry 8).

Few operations write a memory: a byte at a place, an image, a scratchpad that is loaded, moved or cleared, chip scratchpad units, scrubbed ranges,
a release noted in an image, and a module reset. Each keeps the canonical form by the laws of `Mem`. Every other operation leaves the three
memories as they are (its proof is then the hypothesis itself), or acts through operations already dealt with, which its proof cites. The lemmas
stand in the order of the model's files, one for each operation; the last section puts them together, instruction by instruction and move by move.
-/
namespace Sys2Proof.Machine

-- Hundreds of short proofs: elaborated one after another they need far less memory at a time.
set_option Elab.async false

/-- A meaning that goes on leaves the memories in canonical form. -/
def EndsOk : Result → Prop
  | .next t => MemOk t
  | _ => True

/-- The state that a decrement leaves. -/
def Decrement.state : Decrement → State
  | .done s | .pending s | .fault s _ _ => s

/-- The state that a fetch leaves. -/
def Fetched.state : Fetched → State
  | .words s _ _ | .nothing s => s

theorem MemOk.ite {c : Prop} [Decidable c] {a b : State} (ha : MemOk a) (hb : MemOk b) : MemOk (if c then a else b) := by
  split
  · exact ha
  · exact hb

theorem MemOk.ite_fst {α : Type} {c : Prop} [Decidable c] {a b : State × α} (ha : MemOk a.1) (hb : MemOk b.1) : MemOk (if c then a else b).1 := by
  split
  · exact ha
  · exact hb

theorem MemOk.foldl {α : Type} {f : State → α → State} (keeps : ∀ s x, MemOk s → MemOk (f s x)) {s : State} (h : MemOk s) (xs : List α) :
    MemOk (xs.foldl f s) := by
  induction xs generalizing s with
  | nil => exact h
  | cons x xs ih => exact ih (keeps s x h)

theorem MemOk.getD {s : State} {o : Option State} (h : MemOk s) (ho : ∀ t, o = some t → MemOk t) : MemOk (o.getD s) := by
  cases o with
  | none => exact h
  | some t => exact ho t rfl

theorem MemOk.left {α : Type} {r : State × α} {t : State} {x : α} (h : MemOk r.1) (e : r = (t, x)) : MemOk t := by
  rwa [e] at h

theorem MemOk.of_partsOnly {s t : State} (h : MemOk s) (k : PartsOnly s t) : MemOk t :=
  h.of_eq (k.field State.mem) (k.field State.scratch) (k.field State.chip)

theorem Mem.wf_foldl_write {at_ : Nat → Nat} {f : Mem → Nat → Byte} {m : Mem} (h : m.wf = true) (ls : List Nat) :
    Mem.wf (ls.foldl (fun m l => m.write (at_ l) (f m l)) m) = true := by
  induction ls generalizing m with
  | nil => exact h
  | cons l ls ih => exact ih (Mem.wf_write h ..)

section
variable {s : State} (h : MemOk s)
include h

/-! ### Changes of lanes and groups -/

theorem MemOk.updGroup (core slot f) : MemOk (s.updGroup core slot f) := h
theorem MemOk.updLane (core slot l f) : MemOk (s.updLane core slot l f) := h.updGroup ..
theorem MemOk.updLanes (core slot ls f) : MemOk (s.updLanes core slot ls f) := h.updGroup ..
theorem MemOk.updPart (p f) : MemOk (s.updPart p f) := h
theorem MemOk.updTeam (id f) : MemOk (s.updTeam id f) := h
theorem MemOk.updGrid (id f) : MemOk (s.updGrid id f) := h
theorem MemOk.send (m) : MemOk (s.send m) := h

/-! ### Bytes at places -/

theorem MemOk.writePhys (a bs) : MemOk (writePhys s a bs) := .ite ((h.performWrite ..).send ..) (h.performWrite ..)

/-! ### Interrupts, records and logs -/

theorem MemOk.raisePart (p n) : MemOk (raisePart s p n) := by
  unfold Machine.raisePart
  dsimp only
  split
  · exact (h.updPart ..).send ..
  · exact h.updPart ..

theorem MemOk.raisePf (n) : MemOk (raisePf s n) := by
  unfold Machine.raisePf
  split
  · dsimp only
    split
    · exact MemOk.send (by exact h) ..
    · exact h

theorem MemOk.logEvent (e cls source part x y) : MemOk (logEvent s e cls source part x y) :=
  .ite h (.ite (.ite (MemOk.raisePf (by exact h) ..) (by exact h)) (by exact h))

theorem MemOk.putFault (p r) : MemOk (putFault s p r) :=
  .ite ((h.updPart ..).raisePart ..) (.ite (((h.writePhys ..).updPart ..).raisePart ..) ((h.writePhys ..).updPart ..))

theorem MemOk.newToken (p) : MemOk (newToken s p).2 := by
  unfold Machine.newToken
  dsimp only
  split
  · exact h
  · exact h.updPart ..

theorem MemOk.putResidency (p bytes) : MemOk (putResidency s p bytes) :=
  .ite h (.ite (h.updPart ..) (.ite (((h.writePhys ..).updPart ..).raisePf ..) ((h.writePhys ..).updPart ..)))

theorem MemOk.putReport (p bytes) : MemOk (putReport s p bytes) := .ite h (.ite (h.updPart ..) ((h.writePhys ..).updPart ..))

/-! ### Translation -/

theorem MemOk.addTlb (t) : MemOk (addTlb s t) := h

theorem MemOk.noteResidency (p die va kind access level core entry) : MemOk (noteResidency s p die va kind access level core entry) :=
  .ite h (.ite h (MemOk.putResidency (by exact h) ..))

theorem MemOk.translateVa (w acc va) : MemOk (translateVa s w acc va).1 := by
  unfold Machine.translateVa
  dsimp only
  split
  · exact h
  · split
    · exact .ite (h.addTlb ..) h
    · split
      · exact .ite (h.noteResidency ..) h
      · exact .ite ((MemOk.addTlb (.ite (h.noteResidency ..) h) ..).addTlb ..) (MemOk.addTlb (.ite (h.noteResidency ..) h) ..)

theorem MemOk.translate (w acc a) : MemOk (translate s w acc a).1 := .ite_fst h (.ite_fst (.ite_fst h h) (.ite_fst h (h.translateVa ..)))

/-! ### Work that aborts -/

theorem MemOk.orphanAccesses (gs) : MemOk (orphanAccesses s gs) := h
theorem MemOk.noteVacant (core) : MemOk (noteVacant s core) := h
theorem MemOk.settleVacated : MemOk (settleVacated s) := h

theorem MemOk.discardTeams (ids) : MemOk (discardTeams s ids) :=
  MemOk.settleVacated (by exact (MemOk.foldl (fun _ _ hu => hu.noteVacant ..) (h.orphanAccesses ..) _).of_eq rfl rfl rfl)

theorem MemOk.dropCmd (id) : MemOk (dropCmd s id) := h
theorem MemOk.dropNodes (graphs) : MemOk (dropNodes s graphs) := (MemOk.foldl (fun _ _ hu => hu.dropCmd ..) h _).of_eq rfl rfl rfl
theorem MemOk.failWork (bad) : MemOk (failWork s bad) := h
theorem MemOk.noteFailedChildren (set) : MemOk (noteFailedChildren s set) := h
theorem MemOk.dropDeadGraphs : MemOk (dropDeadGraphs s) := h

theorem MemOk.abortParts (grids graphs) : MemOk (abortParts s grids graphs).2 :=
  ((MemOk.dropNodes (by exact ((h.noteFailedChildren ..).discardTeams ..).of_eq rfl rfl rfl) ..).failWork ..).dropDeadGraphs

theorem MemOk.abortWork (grids graphs) : MemOk (abortWork s grids graphs) :=
  .foldl (fun _ _ hu => hu.raisePart ..) (h.abortParts ..) _

theorem MemOk.abortGrid (grid) : MemOk (abortGrid s grid) := h.abortWork ..
theorem MemOk.failGrid (grid decrement) : MemOk (failGrid s grid decrement) := .ite (h.abortWork ..) (h.abortParts ..)
theorem MemOk.beginDeadbolt (team k) : MemOk (beginDeadbolt s team k) := h.updTeam ..

theorem MemOk.cutOrLatch (t k) : MemOk (cutOrLatch s t k) :=
  .ite (MemOk.beginDeadbolt (.ite (h.updTeam ..) h) ..) (MemOk.updTeam (.ite (h.updTeam ..) h) ..)

theorem MemOk.requestDeadbolt (team k) : MemOk (requestDeadbolt s team k) := by
  unfold Machine.requestDeadbolt
  split
  · exact h
  · split
    · exact .ite (h.cutOrLatch ..) h
    · exact .ite (h.cutOrLatch ..) h
    · exact .ite ((h.updTeam ..).beginDeadbolt ..) h
    · exact .ite (h.beginDeadbolt ..) (h.updTeam ..)

theorem MemOk.takeLatch (team) : MemOk (takeLatch s team) := by
  unfold Machine.takeLatch
  split
  · exact h
  · split
    · exact .ite (h.beginDeadbolt ..) h
    · exact h

theorem MemOk.recoverTeam (team) : MemOk (recoverTeam s team) := by
  unfold Machine.recoverTeam
  split
  · exact h
  · exact .ite (((h.logEvent ..).updTeam ..).requestDeadbolt ..) (h.abortGrid ..)

/-! ### Issue, traps and parking -/

theorem MemOk.sliceIn (core slot) : MemOk (sliceIn s core slot) := by
  unfold Machine.sliceIn
  dsimp only
  split
  · exact h
  · exact h

theorem MemOk.groupFatal (core slot ls cause pc vaddr) : MemOk (groupFatal s core slot ls cause pc vaddr) := by
  unfold Machine.groupFatal
  split
  · exact h
  · exact ((((h.updLanes ..).putFault ..).raisePart ..).logEvent ..).recoverTeam ..

theorem MemOk.trapEnter (core slot cause info es) : MemOk (trapEnter s core slot cause info es) := by
  unfold Machine.trapEnter
  split
  · exact h
  · dsimp only
    split
    · exact .foldl (fun _ _ hu => hu.updLane ..) (.ite h (h.sliceIn ..)) _
    · exact MemOk.groupFatal (.foldl (fun _ _ hu => hu.updLane ..) (.ite h (h.sliceIn ..)) _) ..

theorem MemOk.illop (ls) : MemOk (illop s ls) := h.trapEnter ..

theorem MemOk.trapReturn : MemOk (trapReturn s) := by
  unfold Machine.trapReturn
  split
  · exact h
  · exact MemOk.illop (.foldl (fun _ _ hu => hu.updLane ..) (.ite h (h.sliceIn ..)) _) ..

theorem MemOk.laneRecord (g ls cause access level addr pc) : MemOk (laneRecord s g ls cause access level addr pc).2 := (h.newToken ..).putFault ..

theorem MemOk.parkOne (core slot access fs) : MemOk (parkOne s core slot access fs) := by
  unfold Machine.parkOne
  split
  · exact .foldl (fun _ _ hu => hu.updLane ..) (h.laneRecord ..) _
  · exact h

theorem MemOk.parkLanes (core slot access fs) : MemOk (parkLanes s core slot access fs) := by
  unfold Machine.parkLanes
  split
  · exact h
  · exact MemOk.trapEnter (.foldl (fun _ _ hu => hu.parkOne ..) h _) ..

theorem MemOk.parkLate (core slot l) : MemOk (parkLate s core slot l) := by
  unfold Machine.parkLate
  split
  · exact h
  · dsimp only
    split
    · exact h
    · split
      · exact (h.updLane ..).updLane ..
      · exact ((h.updLane ..).laneRecord ..).updLane ..

theorem MemOk.raiseLate (core slot ls e) : MemOk (raiseLate s core slot ls e) :=
  .foldl (fun _ _ hu => .ite (hu.parkLate ..) hu) (h.updLanes ..) _

theorem MemOk.unrecoverable (core slot which) : MemOk (unrecoverable s core slot which) := by
  unfold Machine.unrecoverable
  split
  · exact h
  · exact .foldl (fun _ _ hu => hu.trapEnter ..) (h.updLanes ..) _

theorem MemOk.advance : MemOk (advance s) := h.updLanes ..
theorem MemOk.hold (ls) : MemOk (hold s ls) := h.updLanes ..
theorem MemOk.block (ls) : MemOk (block s ls) := h.updLanes ..
theorem MemOk.markLoopEnd (ls) : MemOk (markLoopEnd s ls) := h.updGroup ..

theorem MemOk.runIssue (body) (keeps : ∀ u, MemOk u → MemOk (body u)) : MemOk (runIssue s body) :=
  (keeps _ h.advance).markLoopEnd ..

theorem MemOk.runTransfer (body) (keeps : ∀ u, MemOk u → MemOk (body u).1) : MemOk (runTransfer s body) :=
  (keeps _ h.advance).markLoopEnd ..

theorem MemOk.raiseOf (g act f) : MemOk (raiseOf g act f s) := h

theorem MemOk.laneIssue (gd form body) (keeps : ∀ g y u, MemOk u → MemOk (body g y u)) : MemOk (laneIssue s gd form body) := by
  unfold Machine.laneIssue
  split
  · exact h
  · exact h.runIssue _ fun _ hu => .ite (hu.illop ..) ((keeps _ _ _ hu).raiseOf ..)

theorem MemOk.applyLanes (f g act) : MemOk (applyLanes f g act s) := (h.updGroup ..).raiseOf ..
theorem MemOk.laneCompute (gd form f) : EndsOk (laneCompute s gd form f) := h.laneIssue _ _ _ fun _ _ _ hu => hu.applyLanes ..

theorem MemOk.groupIssue (q form body) (keeps : ∀ g u, MemOk u → MemOk (body g u)) : MemOk (groupIssue s q form body) := by
  unfold Machine.groupIssue
  split
  · exact h
  · exact h.runIssue _ fun _ hu => .ite (hu.illop ..) (.ite (keeps _ _ hu) hu)

theorem MemOk.groupCompute (q form f) : EndsOk (groupCompute s q form f) := h.groupIssue _ _ _ fun _ _ hu => hu.updGroup ..
theorem MemOk.laneComputeWith (gd form f) : EndsOk (laneComputeWith s gd form f) := h.laneIssue _ _ _ fun _ _ _ hu => hu.applyLanes ..
theorem MemOk.countUp (core slot ls c) : MemOk (countUp s core slot ls c) := h.updLanes ..
theorem MemOk.countDown (core slot ls c) : MemOk (countDown s core slot ls c) := h.updLanes ..

theorem MemOk.onRunning (core slot k) (keeps : ∀ g, MemOk (k g)) : MemOk (onRunning s core slot k) := by
  unfold Machine.onRunning
  split
  · exact h
  · exact .ite (keeps ..) h

theorem MemOk.checkAddr (g l sp a n acc path) : MemOk (checkAddr s g l sp a n acc path).1 := by
  unfold Machine.checkAddr
  split
  · exact h
  · split
    · split
      next e => exact (h.translate ..).left e
      next e => exact (h.translate ..).left e
    · split
      · split
        · exact h
        · dsimp only
          split
          next e => exact (h.translate ..).left e
          next e => exact (h.translate ..).left e
      · split
        · exact h
        · exact h

/-! ### Accesses -/

theorem MemOk.charge (p cls n) : MemOk (charge s p cls n) := h.of_partsOnly (.charge ..)

theorem MemOk.noteLine (gr team line) : MemOk (noteLine s gr team line) := by
  unfold Machine.noteLine
  split
  · exact h
  · exact .ite h (.ite (MemOk.putReport (by exact h) ..) (by exact h))

theorem MemOk.noteWrite (core slot p n) : MemOk (noteWrite s core slot p n) := by
  unfold Machine.noteWrite
  split
  · exact .foldl (fun _ _ hu => hu.noteLine ..) h _
  · exact h

theorem MemOk.performFor (core slot p bs) : MemOk (performFor s core slot p bs) := (h.performWrite ..).noteWrite ..
theorem MemOk.setFlight (f) : MemOk (setFlight s f) := h
theorem MemOk.addFlight (f) : MemOk (addFlight s f) := h
theorem MemOk.dropFlight (id) : MemOk (dropFlight s id) := h
theorem MemOk.launchFlight (f) : MemOk (launchFlight s f) := h
theorem MemOk.sendHinge (f from_ stamped payload) : MemOk (sendHinge s f from_ stamped payload).1 := MemOk.charge (by exact h) ..
theorem MemOk.countApplied (part from_) : MemOk (countApplied s part from_) := h
theorem MemOk.sendOutside (f kind a len data) : MemOk (sendOutside s f kind a len data) := (h.send ..).charge ..

theorem MemOk.sendReads (f) : MemOk (sendReads s f) := by
  unfold Machine.sendReads
  refine .foldl (fun u x hu => ?_) h _
  split
  · exact .ite (hu.sendOutside ..) hu
  · exact hu

theorem MemOk.startRead (f dest ps) : MemOk (startRead s f dest ps) := by
  unfold Machine.startRead
  dsimp only
  exact .ite (by exact MemOk.ite_fst (h.sendHinge ..) h) (MemOk.sendReads (by exact MemOk.ite_fst (h.sendHinge ..) h) ..)

theorem MemOk.performPart (f p bs) : MemOk (performPart s f p bs) := by
  unfold Machine.performPart
  dsimp only
  split
  · exact .ite ((h.performFor ..).send ..) (h.performFor ..)
  · exact h.performFor ..

theorem MemOk.performParts (f sel) : MemOk (performParts s f sel).1 := by
  unfold Machine.performParts
  dsimp only
  exact .foldl (fun _ _ hu => .ite (hu.performPart ..) hu) h _

theorem MemOk.sendWrites (f) : MemOk (sendWrites s f) := by
  unfold Machine.sendWrites
  refine .foldl (fun u x hu => ?_) h _
  split
  · exact hu.sendOutside ..
  · exact hu

theorem MemOk.sendWrite (f stamped) : MemOk (sendWrite s f stamped) := by
  grind [Machine.sendWrite, MemOk.performParts, MemOk.sendHinge, MemOk.addFlight, MemOk.sendWrites]

theorem MemOk.startWrite (f stamped) : MemOk (startWrite s f stamped) := MemOk.sendWrite (by exact h) ..
theorem MemOk.drainEntry (e) : MemOk (drainEntry s e) := MemOk.sendWrite (by exact h) ..
theorem MemOk.drainCores (cores) : MemOk (drainCores s cores) := .foldl (fun _ _ hu => .ite hu (hu.drainEntry ..)) h _
theorem MemOk.drainOverlap (core p) : MemOk (drainOverlap s core p) := .foldl (fun _ _ hu => hu.drainEntry ..) h _
theorem MemOk.releaseDrain (g scope) : MemOk (releaseDrain s g scope) := .ite h ((h.drainCores ..).updGroup ..)
theorem MemOk.deliver (f d) : MemOk (deliver s f d) := ((h.updGroup ..).dropFlight ..).countDown ..

theorem MemOk.deliverPoison (f acc) : MemOk (deliverPoison s f acc) := by
  unfold Machine.deliverPoison
  dsimp only
  split
  · split
    · exact (h.countDown ..).dropFlight ..
    · exact .ite ((h.countDown ..).dropFlight ..) ((((h.countDown ..).dropFlight ..).laneRecord ..).raiseLate ..)
  · exact ((h.countDown ..).dropFlight ..).raiseLate ..

theorem MemOk.checkAll (g sp n acc path xs) : MemOk (checkAll s g sp n acc path xs).1 := by
  induction xs generalizing s with
  | nil => exact h
  | cons x xs ih => exact ih (h.checkAddr ..)

theorem MemOk.failLanes (access cs) : MemOk (failLanes s access cs) := by
  unfold Machine.failLanes
  dsimp only
  split
  · split
    · exact .foldl (fun _ _ hu => hu.raiseLate ..) ((h.hold ..).parkLanes ..) _
    · exact .foldl (fun _ _ hu => hu.raiseLate ..) (((h.hold ..).trapEnter ..).parkLanes ..) _
  · split
    · exact .foldl (fun _ _ hu => hu.raiseLate ..) (((h.hold ..).trapEnter ..).parkLanes ..) _
    · exact .foldl (fun _ _ hu => hu.raiseLate ..) ((((h.hold ..).trapEnter ..).trapEnter ..).parkLanes ..) _

/-! ### Memory words of lanes -/

theorem MemOk.markInterval (g) : MemOk (markInterval s g) := h.updTeam ..
theorem MemOk.loadOne (g path sc acq n dest x) : MemOk (loadOne g path sc acq n dest s x) := h.startRead ..

theorem MemOk.loadLanes (gd form sp n sc acq dest addr) : EndsOk (loadLanes s gd form sp n sc acq dest addr) := by
  unfold Machine.loadLanes
  refine h.laneIssue _ _ _ fun g y u hu => ?_
  dsimp only
  exact .ite (hu.block ..) (.ite ((hu.checkAll ..).block ..) (MemOk.failLanes (.foldl (fun _ _ hu => hu.loadOne ..) ((hu.checkAll ..).countUp ..) _)
    ..))

theorem MemOk.bufferStore (g ls p sc stamped addr bs) : MemOk (bufferStore s g ls p sc stamped addr bs) := h

theorem MemOk.storeOne (g sc rel data x) : MemOk (storeOne g sc rel data s x) := by
  unfold Machine.storeOne
  dsimp only
  split
  · exact MemOk.bufferStore (.ite (h.markInterval ..) h) ..
  · exact MemOk.bufferStore (.ite (h.markInterval ..) h) ..
  · exact MemOk.startWrite (.ite (h.markInterval ..) h) ..

theorem MemOk.storeLanes (gd form sp n sc rel data addr) : EndsOk (storeLanes s gd form sp n sc rel data addr) := by
  unfold Machine.storeLanes
  refine h.laneIssue _ _ _ fun g y u hu => ?_
  dsimp only
  exact .ite (hu.block ..) (.ite (MemOk.block (.ite (hu.releaseDrain ..) hu) ..)
    (.ite ((MemOk.checkAll (.ite (hu.releaseDrain ..) hu) ..).block ..) (MemOk.failLanes
    (.foldl (fun _ _ hu => hu.storeOne ..) ((MemOk.checkAll (.ite (hu.releaseDrain ..) hu) ..).countUp ..) _) ..)))

theorem MemOk.execLdLsB32 (gd d a swz off) : EndsOk (execLdLsB32 gd d a swz off s) := h.loadLanes ..
theorem MemOk.execLdLsB64 (gd d a swz off) : EndsOk (execLdLsB64 gd d a swz off s) := h.loadLanes ..
theorem MemOk.execLdSpB32 (gd d a swz off) : EndsOk (execLdSpB32 gd d a swz off s) := h.loadLanes ..
theorem MemOk.execLdSpB64 (gd d a swz off) : EndsOk (execLdSpB64 gd d a swz off s) := h.loadLanes ..
theorem MemOk.execLdGmB32 (gd d a swz off) : EndsOk (execLdGmB32 gd d a swz off s) := h.loadLanes ..
theorem MemOk.execLdGmB64 (gd d a swz off) : EndsOk (execLdGmB64 gd d a swz off s) := h.loadLanes ..
theorem MemOk.execStLsB32 (gd d a swz off) : EndsOk (execStLsB32 gd d a swz off s) := h.storeLanes ..
theorem MemOk.execStLsB64 (gd d a swz off) : EndsOk (execStLsB64 gd d a swz off s) := h.storeLanes ..
theorem MemOk.execStSpB32 (gd d a swz off) : EndsOk (execStSpB32 gd d a swz off s) := h.storeLanes ..
theorem MemOk.execStSpB64 (gd d a swz off) : EndsOk (execStSpB64 gd d a swz off s) := h.storeLanes ..
theorem MemOk.execStGmB32 (gd d a swz off) : EndsOk (execStGmB32 gd d a swz off s) := h.storeLanes ..
theorem MemOk.execStGmB64 (gd d a swz off) : EndsOk (execStGmB64 gd d a swz off s) := h.storeLanes ..
theorem MemOk.pixelError (p bit) : MemOk (pixelError s p bit) := h.updPart ..

theorem MemOk.orderWords (g n acc xs) : MemOk (orderWords s g n acc xs).1 := by
  induction xs generalizing s with
  | nil => exact h
  | cons x xs ih =>
    unfold Machine.orderWords
    split
    · exact ih h
    · dsimp only
      split
      · exact ih (h.checkAddr ..)
      · exact ih (h.checkAddr ..)

theorem MemOk.startPixel (f p stamped) : MemOk (startPixel s f p stamped) := by
  unfold Machine.startPixel
  split
  · dsimp only
    exact h.sendHinge ..
  · exact h

theorem MemOk.sendPixel (g l pixel word place a order strict write n sc data dest) : MemOk (sendPixel s g l pixel word place a order strict write n sc
    data dest) :=
  MemOk.startPixel (by exact h) ..

theorem MemOk.orderedLoads (gd form n sc b strict dest addr) : EndsOk (orderedLoads s gd form n sc b strict dest addr) := by
  unfold Machine.orderedLoads
  refine h.laneIssue _ _ _ fun g y u hu => ?_
  dsimp only
  refine .ite (hu.block ..) (.ite (((hu.checkAll ..).orderWords ..).block ..)
    (MemOk.failLanes (.foldl (fun u x hu => ?_) (((hu.checkAll ..).orderWords ..).countUp ..) _) ..))
  split
  · exact (hu.pixelError ..).loadOne ..
  · exact hu.sendPixel ..

theorem MemOk.orderedStores (gd form n sc b strict data addr) : EndsOk (orderedStores s gd form n sc b strict data addr) := by
  unfold Machine.orderedStores
  refine h.laneIssue _ _ _ fun g y u hu => ?_
  dsimp only
  refine .ite (hu.block ..) (.ite (MemOk.block (.ite hu (hu.releaseDrain ..)) ..)
    (.ite (((MemOk.checkAll (.ite hu (hu.releaseDrain ..)) ..).orderWords ..).block ..)
    (MemOk.failLanes (.foldl (fun u x hu => ?_) (((MemOk.checkAll (.ite hu (hu.releaseDrain ..)) ..).orderWords ..).countUp ..) _) ..)))
  split
  · exact (hu.pixelError ..).storeOne ..
  · exact (hu.markInterval ..).sendPixel ..

theorem MemOk.execLdLx (gd f d a b m) : EndsOk (execLdLx gd f d a b m s) := by
  unfold Machine.execLdLx
  dsimp only
  split
  · exact h.loadLanes ..
  · exact h.orderedLoads ..

theorem MemOk.execStLx (gd f d a b m) : EndsOk (execStLx gd f d a b m s) := by
  unfold Machine.execStLx
  dsimp only
  split
  · exact h.storeLanes ..
  · exact h.orderedStores ..

theorem MemOk.performAtomic (core slot p fn typ x y) : MemOk (performAtomic s core slot p fn typ x y).1 := by
  unfold Machine.performAtomic
  dsimp only
  split
  · exact h
  · split
    · exact h
    · split
      · split
        · split
          · exact (h.performFor ..).send ..
          · exact h.performFor ..
        · exact h.performFor ..
      · split
        · split
          · exact (h.performWrite ..).send ..
          · exact h.performWrite ..
        · exact h.performWrite ..

theorem MemOk.startAtomic (f fn typ x y dest p stamped) : MemOk (startAtomic s f fn typ x y dest p stamped) := by
  unfold Machine.startAtomic
  dsimp only
  split
  · exact (h.performAtomic ..).launchFlight ..
  · exact h.sendHinge ..
  · split
    · exact MemOk.sendOutside (by exact h) ..
    · exact h

theorem MemOk.atomOne (g sc ord fn typ dest opnd x) : MemOk (atomOne g sc ord fn typ dest opnd s x) := (h.drainOverlap ..).startAtomic ..

theorem MemOk.atomLanes (gd form fn m dest opnd addr) : EndsOk (atomLanes s gd form fn m dest opnd addr) := by
  unfold Machine.atomLanes
  refine h.laneIssue _ _ _ fun g y u hu => ?_
  dsimp only
  exact .ite (hu.block ..) (.ite (MemOk.block (.ite (hu.releaseDrain ..) hu) ..)
    (.ite ((MemOk.checkAll (.ite (hu.releaseDrain ..) hu) ..).block ..) (MemOk.failLanes
    (.foldl (fun _ _ hu => hu.atomOne ..) (.ite ((MemOk.checkAll (.ite (hu.releaseDrain ..) hu) ..).countUp ..)
    (((MemOk.checkAll (.ite (hu.releaseDrain ..) hu) ..).countUp ..).markInterval ..)) _) ..)))

theorem MemOk.checkElems (g l sp acc xs) : MemOk (checkElems s g l sp acc xs).1 := by
  induction xs generalizing s with
  | nil => exact h
  | cons x xs ih =>
    cases x with
    | none => exact ih h
    | some a => exact ih (h.checkAddr ..)

theorem MemOk.checkGather (g sp acc xs) : MemOk (checkGather s g sp acc xs).1 := by
  induction xs generalizing s with
  | nil => exact h
  | cons x xs ih => exact ih (h.checkElems ..)

theorem MemOk.gatherLanes (gd form d a b m acc c go) (kgo : ∀ g u l va ps, MemOk u → MemOk (go g u l va ps)) :
    EndsOk (gatherLanes s gd form d a b m acc c go) := by
  unfold Machine.gatherLanes
  refine h.laneIssue _ _ _ fun g y u hu => ?_
  dsimp only
  exact .ite (hu.block ..) (.ite ((hu.checkGather ..).block ..) (MemOk.failLanes
    (.foldl (fun _ _ hu => kgo _ _ _ _ _ hu) ((hu.checkGather ..).countUp ..) _) ..))

theorem MemOk.execLdg (gd d a b m) : EndsOk (execLdg gd d a b m s) := h.gatherLanes _ _ _ _ _ _ _ _ _ fun _ _ _ _ _ hu => hu.startRead ..

theorem MemOk.execStg (gd d a b m) : EndsOk (execStg gd d a b m s) := by
  unfold Machine.execStg
  refine h.gatherLanes _ _ _ _ _ _ _ _ _ fun g u l va ps hu => ?_
  split
  · exact MemOk.startWrite (.ite (hu.markInterval ..) hu) ..

theorem MemOk.prefetchOne (g sp a) : MemOk (prefetchOne s g sp a) := .ite h (.ite h (by exact h))

theorem MemOk.execPrefetch (gd a b sp imm) : EndsOk (execPrefetch gd a b sp imm s) :=
  h.laneIssue _ _ _ fun _ _ _ hu => .foldl (fun _ _ hu => hu.prefetchOne ..) hu _

/-! ### Events of the memory system -/

theorem MemOk.arriveFor (f owner data cause wr) : MemOk (arriveFor s f owner data cause wr) := h

theorem MemOk.decrementAnswered (f cause) : MemOk (decrementAnswered s f cause) := by
  unfold Machine.decrementAnswered
  split
  · exact h.arriveFor ..
  · exact .ite ((h.dropFlight ..).failWork ..) (.foldl (fun _ _ hu => hu.raisePart ..) (by exact h) _)

theorem MemOk.finishRead (f) : MemOk (finishRead s f) := by
  unfold Machine.finishRead
  split
  · exact (h.dropFlight ..).send ..
  · exact h.arriveFor ..
  · exact h.setFlight ..

theorem MemOk.finishWrite (f) : MemOk (finishWrite s f) := by
  unfold Machine.finishWrite
  dsimp only
  split
  · exact ((h.countDown ..).dropFlight ..).send ..
  · exact (h.countDown ..).dropFlight ..

theorem MemOk.failFlight (f cause again) : MemOk (failFlight s f cause again) := by
  unfold Machine.failFlight
  split
  · exact (h.dropFlight ..).send ..
  · exact h.dropFlight ..
  · exact h.decrementAnswered ..
  · exact h.arriveFor ..
  · exact .ite (h.decrementAnswered ..) ((h.dropFlight ..).raiseLate ..)
  · exact ((h.countDown ..).dropFlight ..).raiseLate ..

theorem MemOk.sendAnswer (f stamped payload) : MemOk (sendAnswer s f stamped payload) := (h.sendHinge ..).setFlight ..
theorem MemOk.answerHinge (f stamped payload) : MemOk (answerHinge s f stamped payload) := (h.countApplied ..).sendAnswer ..

theorem MemOk.applyReadRequest (f) : MemOk (applyReadRequest s f) :=
  .ite (((h.countApplied ..).setFlight ..).sendReads ..) (h.answerHinge ..)

theorem MemOk.applyWrite (f) : MemOk (applyWrite s f) := by
  unfold Machine.applyWrite
  dsimp only
  exact .ite (.ite ((((h.performParts ..).countApplied ..).setFlight ..).sendWrites ..) (((h.performParts ..).countApplied ..).setFlight ..))
    ((h.performParts ..).answerHinge ..)

theorem MemOk.decrement (p x) : MemOk (decrement s p x) := by
  unfold Machine.decrement
  split
  · exact .ite h (h.performWrite ..)

theorem MemOk.decrementAt (p amount) : MemOk (decrementAt s p amount) := by
  unfold Machine.decrementAt
  dsimp only
  split
  · exact .ite ((h.decrement ..).send ..) (h.decrement ..)
  · exact h.decrement ..

theorem MemOk.applyAtomic (f) : MemOk (applyAtomic s f) := by
  unfold Machine.applyAtomic
  split
  · split
    · exact ((h.countApplied ..).setFlight ..).sendOutside ..
    · split
      next e => exact ((h.performAtomic ..).left e).answerHinge ..
  · split
    · exact ((h.countApplied ..).setFlight ..).sendOutside ..
    · exact (h.decrementAt ..).answerHinge ..
  · exact h

theorem MemOk.applyReadData (f) : MemOk (applyReadData s f) := .ite ((h.countApplied ..).finishRead ..) ((h.countApplied ..).setFlight ..)

theorem MemOk.applyAck (f) : MemOk (applyAck s f) :=
  .ite ((h.countApplied ..).setFlight ..) (.ite ((h.countApplied ..).finishWrite ..) ((h.countApplied ..).setFlight ..))

theorem MemOk.applyAtomicResult (f) : MemOk (applyAtomicResult s f) := by
  unfold Machine.applyAtomicResult
  dsimp only
  split
  · exact (h.countApplied ..).finishRead ..
  · exact (h.countApplied ..).decrementAnswered ..

theorem MemOk.applyHalo (f tag) : MemOk (applyHalo s f tag) := by
  unfold Machine.applyHalo
  dsimp only
  exact MemOk.dropFlight (.ite ((h.countApplied ..).performParts ..) (by exact h)) ..

theorem MemOk.applyTime (f) : MemOk (applyTime s f) := (h.dropFlight ..).countApplied ..
theorem MemOk.applyPixel (f p) : MemOk (applyPixel s f p) := h

theorem MemOk.applyMessage (f) : MemOk (applyMessage s f) := by
  unfold Machine.applyMessage
  dsimp only
  split
  · exact h.applyReadRequest ..
  · exact h.applyWrite ..
  · exact h.applyAtomic ..
  · exact h.applyAtomic ..
  · exact h.applyHalo ..
  · exact h.applyTime ..
  · exact h.applyPixel ..
  · exact h.applyReadData ..
  · exact h.applyAck ..
  · exact h.applyAtomicResult ..
  · exact h.applyAtomicResult ..
  · exact h

theorem MemOk.discardMessage (f from_) : MemOk (discardMessage s f from_) := (MemOk.logEvent (by exact h) ..).setFlight ..

theorem MemOk.receive (f) : MemOk (receive s f) := by
  unfold Machine.receive
  split
  · exact h
  · exact .ite (h.applyMessage ..) (h.discardMessage ..)

theorem MemOk.hingeArrives (id kind) : MemOk (hingeArrives s id kind) := by
  unfold Machine.hingeArrives
  split
  · exact h
  · exact .ite (h.receive ..) h

theorem MemOk.execStampedMessageApply (id) : EndsOk (execStampedMessageApply id s) := by
  unfold Machine.execStampedMessageApply
  split
  · exact h
  · exact MemOk.ite (h.receive ..) h

theorem MemOk.execStoreBufferDrain (id) : EndsOk (execStoreBufferDrain id s) := by
  unfold Machine.execStoreBufferDrain
  split
  · exact h
  · exact MemOk.ite h (h.drainEntry ..)

theorem MemOk.execWritePerformed (id ok) : EndsOk (execWritePerformed id ok s) := by
  unfold Machine.execWritePerformed
  split
  · exact h
  · split
    · exact h.finishWrite ..
    · exact MemOk.ite (h.finishWrite ..) (h.failFlight ..)
    · exact MemOk.ite (h.sendAnswer ..) (h.failFlight ..)
    · exact MemOk.ite (h.decrementAnswered ..) (h.failFlight ..)
    · exact MemOk.ite (h.sendAnswer ..) (h.failFlight ..)
    · exact h

theorem MemOk.execHingeRequestTimeout (id) : EndsOk (execHingeRequestTimeout id s) := by
  unfold Machine.execHingeRequestTimeout
  split
  · exact h
  · exact MemOk.ite (h.failFlight ..) h

theorem MemOk.poisonArrives (f acc) : MemOk (poisonArrives s f acc) := by
  unfold Machine.poisonArrives
  dsimp only
  split
  · exact h.sendAnswer ..
  · exact h.arriveFor ..
  · exact h.deliverPoison ..

theorem MemOk.execPoisonReturn (id) : EndsOk (execPoisonReturn id s) := by
  unfold Machine.execPoisonReturn
  split
  · exact h
  · split
    · exact MemOk.ite (h.deliverPoison ..) h
    · exact MemOk.ite (h.deliverPoison ..) h
    · exact h.poisonArrives ..
    · exact h.poisonArrives ..
    · exact h.poisonArrives ..
    · exact h.poisonArrives ..
    · exact h

theorem MemOk.dropPixel (id) : MemOk (dropPixel s id) := h

theorem MemOk.pixelAnswer (p f payload) : MemOk (pixelAnswer s p f payload) := by
  unfold Machine.pixelAnswer
  split
  · split
    next e =>
      have hu := (h.sendHinge ..).left e
      exact hu
  · exact h.launchFlight ..

theorem MemOk.pixelLoad (p) : MemOk (pixelLoad s p) := (h.dropPixel ..).pixelAnswer ..
theorem MemOk.pixelStore (p) : MemOk (pixelStore s p) := ((h.dropPixel ..).performFor ..).pixelAnswer ..
theorem MemOk.setOrderWord (p w) : MemOk (setOrderWord s p w) := h.performWrite ..

theorem MemOk.pixelTry {p t} (e : pixelTry s p = some t) : MemOk t := by
  unfold Machine.pixelTry at e
  simp only at e
  split at e
  · split at e
    · obtain rfl := Option.some.inj e
      split
      · exact (h.pixelStore _).setOrderWord ..
      · exact h.pixelLoad _
    · split at e
      · cases e
      · obtain rfl := Option.some.inj e
        split
        · exact ((h.pixelError ..).dropPixel _).countDown ..
        · exact (h.pixelError ..).pixelLoad _
  · split at e
    · obtain rfl := Option.some.inj e
      refine MemOk.setOrderWord (MemOk.pixelStore ?_ _) ..
      split
      · exact h.pixelError ..
      · exact h
    · split at e
      · obtain rfl := Option.some.inj e
        exact (h.pixelLoad _).setOrderWord ..
      · cases e

theorem MemOk.updPixel (id f) : MemOk (updPixel s id f) := h

theorem MemOk.execOrderedAccessArrival (id) : EndsOk (execOrderedAccessArrival id s) := by
  unfold Machine.execOrderedAccessArrival
  split
  · exact h
  · split
    · exact h
    · split
      next e => exact h.pixelTry e
      · exact MemOk.ite (h.updPixel ..) (h.updPixel ..)

theorem MemOk.execOrderedAccessRelease (id) : EndsOk (execOrderedAccessRelease id s) := by
  have tried (p) : MemOk ((Machine.pixelTry s p).getD s) := h.getD fun _ => h.pixelTry
  unfold Machine.execOrderedAccessRelease
  split
  · exact h
  · exact MemOk.ite (.getD h fun _ => h.pixelTry) h

theorem MemOk.execPageWalkComplete (id) : EndsOk (execPageWalkComplete id s) := by
  unfold Machine.execPageWalkComplete
  split
  · exact h
  · exact MemOk.translateVa (by exact h) ..

theorem MemOk.execSliceMove (core slot) : EndsOk (execSliceMove core slot s) :=
  h.onRunning _ _ _ fun _ => .ite h (h.sliceIn ..)

theorem MemOk.execHostMemAccess (write addr len data) : EndsOk (execHostMemAccess write addr len data s) := by
  unfold Machine.execHostMemAccess
  split
  · split
    · exact h.performWrite ..
    · split
      · exact h.send ..
  · exact MemOk.ite h (h.send ..)

theorem MemOk.crossRequest (r) : MemOk (crossRequest s r) := by
  unfold Machine.crossRequest
  dsimp only
  exact h.sendHinge ..

theorem MemOk.execDomainRequestArrival (r) : EndsOk (execDomainRequestArrival r s) := by
  unfold Machine.execDomainRequestArrival
  dsimp only
  split
  · exact h.send ..
  · split
    · exact h.send ..
    · split
      · exact h.crossRequest ..
      · split
        · exact h.send ..
        · exact (h.performWrite ..).send ..
        · exact (h.performAtomic ..).send ..

theorem MemOk.startDecrement (f x p stamped) : MemOk (startDecrement s f x p stamped) := by
  unfold Machine.startDecrement
  dsimp only
  split
  · exact h.decrementAt ..
  · exact h.sendHinge ..
  · split
    · exact MemOk.sendOutside (by exact h) ..
    · exact h

theorem MemOk.restartFlight (f) : MemOk (restartFlight s f) := by
  unfold Machine.restartFlight
  dsimp only
  split
  · exact h.startRead ..
  · exact h.startWrite ..
  · exact h.startAtomic ..
  · exact h.startDecrement ..
  · exact h.startPixel ..
  · exact h

theorem MemOk.resendFlight (g l f) : MemOk (resendFlight s g l f) := by
  unfold Machine.resendFlight
  dsimp only
  split
  · split
    · split
      next e => exact (((h.translate ..).left e).countUp ..).restartFlight ..
      next e => exact ((h.translate ..).left e).raiseLate ..
    · split
      next e => exact (((h.translate ..).left e).countUp ..).restartFlight ..
      next e => exact ((h.translate ..).left e).raiseLate ..
    · exact (h.countUp ..).restartFlight ..
  · exact (h.countUp ..).restartFlight ..

theorem MemOk.replayLane (core slot l) : MemOk (replayLane s core slot l) := by
  unfold Machine.replayLane
  split
  · exact h
  · split
    · exact h
    · dsimp only
      split
      · exact (h.updLane ..).resendFlight ..
      · exact h.updLane ..

/-! ### Signs, barriers and keyrings -/

theorem MemOk.passLanes (core slot ls len) : MemOk (passLanes s core slot ls len) := h.updGroup ..
theorem MemOk.passTeam (team w) : MemOk (passTeam s team w) := h

theorem MemOk.newInterval (team) : MemOk (newInterval s team) := by
  unfold Machine.newInterval
  split
  · exact h
  · exact .ite ((h.updTeam ..).requestDeadbolt ..) (h.updTeam ..)

theorem MemOk.testTeamBar (team) : MemOk (testTeamBar s team) := .ite ((h.passTeam ..).newInterval ..) h
theorem MemOk.endLines (grid n c) : MemOk (endLines s grid n c) := h

theorem MemOk.testClusterBar (team) : MemOk (testClusterBar s team) := by
  unfold Machine.testClusterBar
  split
  · exact h
  · dsimp only
    split
    · split
      · exact MemOk.endLines (.foldl (fun _ _ hu => (hu.passTeam ..).newInterval ..) h _) ..
      · exact .foldl (fun _ _ hu => (hu.passTeam ..).newInterval ..) h _
    · exact h

theorem MemOk.setKeyring (team n k) : MemOk (setKeyring s team n k) := h.updTeam ..

theorem MemOk.recordSign (team index n l card) : MemOk (recordSign s team index n l card) := by
  unfold Machine.recordSign
  split
  · exact (h.updGroup ..).setKeyring ..
  · exact h

theorem MemOk.lowerSigned (team signed) : MemOk (lowerSigned s team signed) := by
  unfold Machine.lowerSigned
  refine .foldl (fun u x hu => ?_) h _
  split
  · exact hu
  · exact .foldl (fun _ _ hu => hu.countDown ..) hu _

theorem MemOk.endRound (t n) : MemOk (endRound s t n) :=
  .foldl (fun _ _ hu => hu.passLanes ..) (.ite ((h.setKeyring ..).lowerSigned ..) (by exact h)) _

theorem MemOk.declareRound (t n mask) : MemOk (declareRound s t n mask) := .ite h (by exact h)
theorem MemOk.signerGoes (x n thenWait) : MemOk (signerGoes s x n thenWait) := .ite (h.updLane ..) (h.passLanes ..)

theorem MemOk.keyMove {team n} {t} (e : keyMove s team n = some t) : MemOk t := by
  unfold Machine.keyMove at e
  grind [MemOk.signerGoes, MemOk.recordSign, MemOk.endRound, MemOk.passLanes, MemOk.declareRound]

theorem MemOk.keyMoves (fuel team n) : MemOk (keyMoves fuel s team n) := by
  induction fuel generalizing s with
  | zero => exact h
  | succ fuel ih =>
    unfold Machine.keyMoves
    split
    next e => exact ih (h.keyMove e)
    · exact h

theorem MemOk.testKey (team n) : MemOk (testKey s team n) := h.keyMoves ..
theorem MemOk.testKeys (team) : MemOk (testKeys s team) := .foldl (fun _ _ hu => hu.testKey ..) h _

theorem MemOk.exitLanes (core slot ls) : MemOk (exitLanes s core slot ls) := by
  unfold Machine.exitLanes
  split
  · exact h
  · exact (((h.updGroup ..).testTeamBar ..).testClusterBar ..).testKeys ..

theorem MemOk.yieldQuarter (core slot) : MemOk (yieldQuarter s core slot) := h.updGroup ..

theorem MemOk.testLatch (team) : MemOk (testLatch s team) := by
  unfold Machine.testLatch
  split
  · exact h
  · exact .ite h (h.takeLatch ..)

/-! ### Uniform words and control transfers -/

theorem MemOk.uniform2 (q d a b f) : EndsOk (uniform2 s q d a b f) := h.groupCompute ..
theorem MemOk.uniformImm (q d f) : EndsOk (uniformImm s q d f) := h.groupCompute ..
theorem MemOk.execGmovImm (q d imm) : EndsOk (execGmovImm q d imm s) := h.uniformImm ..
theorem MemOk.execGaddImm (q d imm) : EndsOk (execGaddImm q d imm s) := h.uniformImm ..
theorem MemOk.execGorImm (q d imm) : EndsOk (execGorImm q d imm s) := h.uniformImm ..
theorem MemOk.execGshlImm (q d imm) : EndsOk (execGshlImm q d imm s) := h.uniformImm ..
theorem MemOk.checkUniform (g acc a) : MemOk (checkUniform s g acc a).1 := h.checkAddr ..
theorem MemOk.failUniform (access a c) : MemOk (failUniform s access a c) := h.failLanes ..

theorem MemOk.execGld (q d a off) : EndsOk (execGld q d a off s) := by
  unfold Machine.execGld
  refine h.groupIssue _ _ _ fun g u hu => ?_
  dsimp only
  split
  · exact hu.block ..
  · split
    next e => exact .ite (((hu.checkUniform ..).left e).block ..) ((((hu.checkUniform ..).left e).countUp ..).startRead ..)
    next e => exact ((hu.checkUniform ..).left e).failUniform ..

theorem MemOk.execGst (q d a off) : EndsOk (execGst q d a off s) := by
  unfold Machine.execGst
  refine h.groupIssue _ _ _ fun g u hu => ?_
  dsimp only
  split
  · exact hu.block ..
  · split
    next e => exact (MemOk.countUp (.ite (((hu.checkUniform ..).left e).markInterval ..) ((hu.checkUniform ..).left e)) ..).bufferStore ..
    next e => exact ((hu.checkUniform ..).left e).failUniform ..

theorem MemOk.goTo (ls call target) : MemOk (goTo s ls call target) := h.updGroup ..

theorem MemOk.transferIssue (form named body) (keeps : ∀ g u, MemOk u → MemOk (body g u).1) : MemOk (transferIssue s form named body) := by
  unfold Machine.transferIssue
  split
  · exact h
  · exact h.runTransfer _ fun _ hu => .ite_fst (hu.illop ..) (keeps _ _ hu)

theorem MemOk.execBr (q cond off) : EndsOk (execBr q cond off s) := h.transferIssue _ _ _ fun _ _ hu => hu.goTo ..
theorem MemOk.execJmp (off) : EndsOk (execJmp off s) := h.transferIssue _ _ _ fun _ _ hu => hu.goTo ..

theorem MemOk.execCall (q cond off) : EndsOk (execCall q cond off s) :=
  h.transferIssue _ _ _ fun _ _ hu => .ite_fst (hu.illop ..) (.ite_fst hu (MemOk.goTo (.ite (hu.updLanes ..) (hu.updGroup ..)) ..))

theorem MemOk.trapTarget (ls target) : MemOk (trapTarget s ls target) := h.trapEnter ..

theorem MemOk.raiseTarget (u g ls) : MemOk (raiseTarget u g ls s) := by
  unfold Machine.raiseTarget
  exact .ite (h.raiseOf ..) h

theorem MemOk.execRet (q a) : EndsOk (execRet q a s) := by
  unfold Machine.execRet
  refine h.transferIssue _ _ _ fun g u hu => ?_
  exact .ite_fst (hu.illop ..) (.ite_fst hu (((hu.goTo ..).trapTarget ..).raiseTarget ..))

theorem MemOk.execLoop (q d len) : EndsOk (execLoop q d len s) :=
  h.groupIssue _ _ _ fun _ _ hu => .ite (hu.illop ..) (.ite (hu.updGroup ..) (hu.updGroup ..))

theorem MemOk.execEndloop (q) : EndsOk (execEndloop q s) := h.groupIssue _ _ _ fun _ _ hu => .ite (hu.illop ..) (hu.updGroup ..)
theorem MemOk.execSegw (q a) : EndsOk (execSegw q a s) := h.groupIssue _ _ _ fun _ _ hu => .ite (hu.updGroup ..) (hu.illop ..)
theorem MemOk.execView (q a) : EndsOk (execView q a s) := h.groupIssue _ _ _ fun _ _ hu => .ite (hu.updGroup ..) (hu.illop ..)

theorem MemOk.execGrow (q n) : EndsOk (execGrow q n s) :=
  h.groupIssue _ _ _ fun _ _ hu => .ite (hu.updGroup ..) (.ite (hu.updGroup ..) (by exact hu))

theorem MemOk.execShrink (q n) : EndsOk (execShrink q n s) := h.groupIssue _ _ _ fun _ _ hu => .ite (hu.illop ..) (hu.updGroup ..)

/-! ### Reads and writes of units -/

theorem MemOk.askAway (owner w acq p n) : MemOk (askAway s owner w acq p n) := .ite h (h.startRead ..)

theorem MemOk.awayPart (owner w acq p a n) : MemOk (awayPart s owner w acq p a n).1 := by
  unfold Machine.awayPart
  split
  · exact h
  · exact h.askAway ..

theorem MemOk.readAway (owner w acq a k p n) : MemOk (readAway s owner w acq a k p n).1 := by
  induction k generalizing s a p n with
  | zero => exact h
  | succ k ih =>
    unfold Machine.readAway
    split
    next e =>
      have hu := (h.awayPart ..).left e
      split
      · exact hu
      · split
        next e => exact (ih hu _ _ _).left e
        · exact ih hu _ _ _
    · exact h.awayPart ..

theorem MemOk.readAt (owner w acq p a n) : MemOk (readAt s owner w acq p a n).1 := by
  unfold Machine.readAt
  split
  · split
    · exact h
  · exact h.readAway ..

theorem MemOk.unitReadPage (owner w acq acc a n) : MemOk (unitReadPage s owner w acq acc a n).1 := by
  unfold Machine.unitReadPage
  split
  next e => exact (h.translate ..).left e
  next e => exact ((h.translate ..).left e).readAt ..

theorem MemOk.unitReadAs (owner w acq acc a n) : MemOk (unitReadAs s owner w acq acc a n).1 := by
  unfold Machine.unitReadAs
  dsimp only
  split
  · exact h.unitReadPage ..
  · split
    next e =>
      have hu := (h.unitReadPage ..).left e
      split
      next e => exact (hu.unitReadPage ..).left e
      · exact hu.unitReadPage ..
    · exact h.unitReadPage ..

theorem MemOk.unitRead (owner w acc a n) : MemOk (unitRead s owner w acc a n).1 := h.unitReadAs ..
theorem MemOk.unitAcquire (owner w scope a n) : MemOk (unitAcquire s owner w scope a n).1 := h.unitReadAs ..

theorem MemOk.unitReads (owner w acc xs) : MemOk (unitReads s owner w acc xs).1 := by
  induction xs generalizing s with
  | nil => exact h
  | cons x xs ih =>
    have one := h.unitRead owner w acc x.1 x.2
    unfold Machine.unitReads
    split
    next e =>
      rw [e] at one
      have rest := ih one
      split <;> simp_all
    next e => rwa [e] at one

theorem MemOk.dropArrived (owner) : MemOk (dropArrived s owner) := h

theorem MemOk.writeAway (f k a p bs) : MemOk (writeAway s f k a p bs) := by
  induction k generalizing s a p bs with
  | zero => exact h
  | succ k ih => exact .ite (h.startWrite ..) (ih (h.startWrite ..) _ _ _)

theorem MemOk.unitWrite (k a p bs) : MemOk (unitWrite s k a p bs) := .ite (h.performFor ..) (h.writeAway ..)
theorem MemOk.pauseUnit (p r) : MemOk (pauseUnit s p r).1 := (h.newToken ..).putFault ..

/-! ### Control registers, tumblers and handlers -/

theorem MemOk.leaveActive (core slot) : MemOk (leaveActive s core slot) := h.updGroup ..

theorem MemOk.execYield (q) : EndsOk (execYield q s) :=
  h.groupIssue _ _ _ fun _ _ hu => .ite (hu.yieldQuarter ..) (.ite (hu.leaveActive ..) hu)

theorem MemOk.execExit (q) : EndsOk (execExit q s) := h.groupIssue _ _ _ fun _ _ hu => (hu.exitLanes ..).testLatch ..
theorem MemOk.endStamps (g) : MemOk (endStamps s g) := h.updGroup ..
theorem MemOk.waitHere (ls w) : MemOk (waitHere s ls w) := h.updLanes ..

theorem MemOk.execWait (all ld st cp mx) : EndsOk (execWait all ld st cp mx s) :=
  h.groupIssue _ _ _ fun _ _ hu => .ite (hu.endStamps ..) (hu.waitHere ..)

theorem MemOk.fenceDrain (g p1 p2 sc) : MemOk (fenceDrain s g p1 p2 sc) := .ite (h.releaseDrain ..) (.ite (h.drainCores ..) h)

theorem MemOk.execXfence (q p1 p2 sc) : EndsOk (execXfence q p1 p2 sc s) :=
  h.groupIssue _ _ _ fun _ _ hu => .ite ((hu.fenceDrain ..).block ..) ((hu.fenceDrain ..).endStamps ..)

theorem MemOk.execBarTeam (q) : EndsOk (execBarTeam q s) :=
  h.groupIssue _ _ _ fun _ _ hu => .ite (hu.block ..) (((hu.waitHere ..).yieldQuarter ..).testTeamBar ..)

theorem MemOk.execBarCl (q) : EndsOk (execBarCl q s) :=
  h.groupIssue _ _ _ fun _ _ hu => .ite (hu.block ..) (((hu.waitHere ..).yieldQuarter ..).testClusterBar ..)

theorem MemOk.sendDecrement (g p a x scope) : MemOk (sendDecrement s g p a x scope) := (h.drainOverlap ..).startDecrement ..

theorem MemOk.execTdec (q sc a b) : EndsOk (execTdec q sc a b s) := by
  unfold Machine.execTdec
  refine h.groupIssue _ _ _ fun g u hu => ?_
  dsimp only
  split
  · exact hu.block ..
  · split
    · exact (hu.releaseDrain ..).block ..
    · split
      next e =>
        exact .ite ((((hu.releaseDrain ..).checkUniform ..).left e).block ..)
          (((((hu.releaseDrain ..).checkUniform ..).left e).markInterval ..).sendDecrement ..)
      next e => exact (((hu.releaseDrain ..).checkUniform ..).left e).failUniform ..

theorem MemOk.drainTumbler (g addr) : MemOk (drainTumbler s g addr) := by
  unfold Machine.drainTumbler
  split
  next e => exact .ite ((h.translate ..).left e) (((h.translate ..).left e).drainOverlap ..)
  next e => exact (h.translate ..).left e

theorem MemOk.pollTumbler (g ls id addr bound scope) : MemOk (pollTumbler s g ls id addr bound scope).1 := by
  unfold Machine.pollTumbler
  split
  next e =>
    exact .ite_fst ((((h.drainTumbler ..).unitAcquire ..).left e).dropArrived ..) ((((h.drainTumbler ..).unitAcquire ..).left e).dropArrived ..)
  next e => exact ((((h.drainTumbler ..).unitAcquire ..).left e).dropArrived ..).parkLanes ..
  next e => exact ((h.drainTumbler ..).unitAcquire ..).left e

theorem MemOk.execTwait (q sc a b) : EndsOk (execTwait q sc a b s) := by
  unfold Machine.execTwait
  refine h.groupIssue _ _ _ fun g u hu => ?_
  dsimp only
  split
  · exact hu.block ..
  · split
    · exact hu.failUniform ..
    · split
      next e => exact ((MemOk.pollTumbler (by exact hu) ..).left e).updLanes ..
      next e => exact (MemOk.pollTumbler (by exact hu) ..).left e

theorem MemOk.execTumblerPoll (core slot lane) : EndsOk (execTumblerPoll core slot lane s) := by
  unfold Machine.execTumblerPoll
  refine h.onRunning _ _ _ fun g => ?_
  dsimp only
  split
  · split
    · exact h
    · split
      next e => exact ((h.pollTumbler ..).left e).passLanes ..
      next e => exact (h.pollTumbler ..).left e
  · exact h

theorem MemOk.execWtime (q a) : EndsOk (execWtime q a s) := h.groupIssue _ _ _ fun _ _ hu => .ite hu (hu.waitHere ..)

theorem MemOk.execWtimeRelease (core slot lane) : EndsOk (execWtimeRelease core slot lane s) := by
  unfold Machine.execWtimeRelease
  refine h.onRunning _ _ _ fun g => ?_
  dsimp only
  split
  · exact .ite h (h.passLanes ..)
  · exact h

theorem MemOk.execCsrr (q r csr) : EndsOk (execCsrr q r csr s) :=
  h.groupIssue _ _ _ fun _ _ hu => .ite (.ite (hu.illop ..) (.foldl (fun _ _ hu => hu.updLane ..) hu _)) (hu.updGroup ..)

theorem MemOk.softTrap (cause) : MemOk (softTrap s cause) := h.trapEnter ..
theorem MemOk.execTrap (q code) : EndsOk (execTrap q code s) := h.transferIssue _ _ _ fun _ _ hu => .ite_fst (hu.softTrap ..) hu
theorem MemOk.execBrk (q) : EndsOk (execBrk q s) := h.transferIssue _ _ _ fun _ _ hu => .ite_fst (hu.softTrap ..) hu
theorem MemOk.execTret (q) : EndsOk (execTret q s) := h.transferIssue _ _ _ fun _ _ hu => .ite_fst (hu.trapReturn.testLatch ..) hu
theorem MemOk.execTmask (q) : EndsOk (execTmask q s) := h.groupIssue _ _ _ fun _ _ hu => hu.updLanes ..
theorem MemOk.execTunmask (q) : EndsOk (execTunmask q s) := h.groupIssue _ _ _ fun _ _ hu => (hu.updLanes ..).testLatch ..

theorem MemOk.signLanes (g act n card thenWait) : MemOk (signLanes s g act n card thenWait) :=
  MemOk.testKey (.foldl (fun _ _ hu => hu.updLane ..) h _) ..

theorem MemOk.execKsign (gd key) : EndsOk (execKsign gd key s) := h.laneIssue _ _ _ fun _ _ _ hu => .ite (hu.block ..) (hu.signLanes ..)

theorem MemOk.execKsignWait (gd key) : EndsOk (execKsignWait gd key s) :=
  h.laneIssue _ _ _ fun _ _ _ hu => .ite (hu.block ..) (hu.signLanes ..)

theorem MemOk.execKsignDecl (gd key a) : EndsOk (execKsignDecl gd key a s) := by
  unfold Machine.execKsignDecl
  refine h.laneIssue _ _ _ fun g y u hu => ?_
  split
  · exact hu
  · exact (hu.waitHere ..).testKey ..

/-! ### Events of groups -/

theorem MemOk.dataArrives (f dest data ok) : MemOk (dataArrives s f dest data ok) := by
  unfold Machine.dataArrives
  split
  · exact h.failFlight ..
  · dsimp only
    split
    · exact h.sendAnswer ..
    · exact h.arriveFor ..
    · exact .ite (h.setFlight ..) (h.deliver ..)

theorem MemOk.execLoadDataReturn (id data ok) : EndsOk (execLoadDataReturn id data ok s) := by
  unfold Machine.execLoadDataReturn
  split
  · exact h
  · split
    · exact MemOk.ite h (h.deliver ..)
    · exact MemOk.ite h (h.deliver ..)
    · exact h.dataArrives ..
    · exact h.dataArrives ..
    · exact h.dataArrives ..
    · exact h.dataArrives ..
    · exact h

theorem MemOk.execLoopEndStep (core slot) : EndsOk (execLoopEndStep core slot s) :=
  h.onRunning _ _ _ fun _ => h.updGroup ..

theorem MemOk.finishGrow (core r granted) : MemOk (finishGrow s core r granted) := by
  unfold Machine.finishGrow
  dsimp only
  split
  · exact (h.updGroup ..).passLanes ..
  · exact h.updGroup ..

theorem MemOk.grantOldest {core} {t} (e : grantOldest s core = some t) : MemOk t := by
  unfold Machine.grantOldest at e
  grind [MemOk.finishGrow]

theorem MemOk.execGrowGrant (core slot) : EndsOk (execGrowGrant core slot s) := by
  have granted : MemOk ((Machine.grantOldest s core).getD s) := h.getD fun _ => h.grantOldest
  unfold Machine.execGrowGrant
  refine h.onRunning _ _ _ fun g => ?_
  split
  · exact .ite granted h
  · exact h

theorem MemOk.failLowest (core waiting) : MemOk (failLowest s core waiting) := by
  unfold Machine.failLowest
  split
  · exact h
  · split
    · exact h.finishGrow ..
    · exact h

theorem MemOk.execAllocatorImpasse (core) : EndsOk (execAllocatorImpasse core s) := by
  have granted {u : State} (hu : MemOk u) (waiting) : MemOk ((Machine.grantOldest u core).getD (Machine.failLowest u core waiting)) :=
    (hu.failLowest core waiting).getD fun _ => hu.grantOldest
  unfold Machine.execAllocatorImpasse
  dsimp only
  split
  · exact h
  · split
    · exact MemOk.getD ((h.leaveActive ..).failLowest ..) fun _ => (h.leaveActive ..).grantOldest
    · exact MemOk.getD (h.failLowest ..) fun _ => h.grantOldest

theorem MemOk.enterActive (core slot) : MemOk (enterActive s core slot) := h.updGroup ..

theorem MemOk.execActiveSetRotate (core slot) : EndsOk (execActiveSetRotate core slot s) :=
  h.onRunning _ _ _ fun _ => .ite (h.leaveActive ..) h

theorem MemOk.execGroupEnterActive (core slot) : EndsOk (execGroupEnterActive core slot s) :=
  h.onRunning _ _ _ fun _ => .ite (h.enterActive ..) h

theorem MemOk.makeRoom (n g) : MemOk (makeRoom n s g) := by
  induction n generalizing s with
  | zero => exact h
  | succ n ih =>
    unfold Machine.makeRoom
    split
    · exact h
    · dsimp only
      split
      · exact h
      · exact ih (h.leaveActive ..)

theorem MemOk.execWtimePreentry (core slot) : EndsOk (execWtimePreentry core slot s) :=
  h.onRunning _ _ _ fun _ => .ite (.ite ((h.makeRoom ..).enterActive ..) (h.makeRoom ..)) h

theorem MemOk.endTeam (t) : MemOk (endTeam s t) := h.settleVacated ..

theorem MemOk.execGroupEnd (core slot) : EndsOk (execGroupEnd core slot s) := by
  unfold Machine.execGroupEnd
  split
  · exact h
  · split
    · exact h
    · exact MemOk.ite (.ite (((MemOk.noteVacant (by exact h) ..).updTeam ..).endTeam ..)
        (((MemOk.noteVacant (by exact h) ..).updTeam ..).testKeys ..)) h

theorem MemOk.execAsyncErrorDelivery (core slot lane) : EndsOk (execAsyncErrorDelivery core slot lane s) := by
  unfold Machine.execAsyncErrorDelivery
  refine h.onRunning _ _ _ fun g => ?_
  dsimp only
  split
  · exact h.parkLate ..
  · split
    · exact h
    · exact .ite ((h.updLane ..).trapEnter ..) h

theorem MemOk.swapLanes (core a b l) : MemOk (swapLanes s core a b l) := h

theorem MemOk.swapBack (core slot l) : MemOk (swapBack s core slot l) := by
  unfold Machine.swapBack
  split
  · exact h
  · exact h.swapLanes ..

theorem MemOk.execLaneSwap (core sa sb lane) : EndsOk (execLaneSwap core sa sb lane s) :=
  h.onRunning _ _ _ fun _ => h.onRunning _ _ _ fun _ => .ite (h.swapBack ..) (.ite (h.swapLanes ..) h)

/-! ### Engines, commands and chains -/

theorem MemOk.updCmd (id f) : MemOk (s.updCmd id f) := h
theorem MemOk.updChain (id f) : MemOk (s.updChain id f) := h
theorem MemOk.updStream (p st f) : MemOk (s.updStream p st f) := h.updPart ..
theorem MemOk.updGraph (id f) : MemOk (s.updGraph id f) := h

theorem MemOk.unitPlaces (fuel w acc a n) : MemOk (unitPlaces fuel s w acc a n).1 := by
  induction fuel generalizing s a n with
  | zero => exact h
  | succ fuel ih =>
    unfold Machine.unitPlaces
    split
    · exact h
    · dsimp only
      split
      next e => exact (h.translate ..).left e
      next e =>
        have hu := (h.translate ..).left e
        split
        next e => exact (ih hu _ _).left e
        · exact ih hu _ _

theorem MemOk.spanPlaces (w acc a n) : MemOk (spanPlaces s w acc a n).1 := h.unitPlaces ..

theorem MemOk.writeSpan (k a xs bs) : MemOk (writeSpan s k a xs bs) := by
  induction xs generalizing s a bs with
  | nil => exact h
  | cons x xs ih => exact ih (h.unitWrite ..) ..

theorem MemOk.unitSpan (fuel owner w acc a n) : MemOk (unitSpan fuel s owner w acc a n).1 := by
  induction fuel generalizing s a n with
  | zero => exact h
  | succ fuel ih =>
    unfold Machine.unitSpan
    split
    · exact h
    · dsimp only
      split
      next e =>
        have hu := (h.unitReadPage ..).left e
        split
        next e => exact (ih hu _ _).left e
        · exact ih hu _ _
      · exact h.unitReadPage ..

theorem MemOk.readSpan (owner w a n) : MemOk (readSpan s owner w a n).1 := h.unitSpan ..

theorem MemOk.putError (w erraddr r) : MemOk (putError s w erraddr r) := by
  unfold Machine.putError
  split
  · exact h
  · split
    next e => exact .ite (((h.spanPlaces ..).left e).logEvent ..) (((h.spanPlaces ..).left e).writeSpan ..)
    next e => exact ((h.spanPlaces ..).left e).logEvent ..

theorem MemOk.pauseChain (ch cause level addr acc) : MemOk (pauseChain s ch cause level addr acc) := (h.pauseUnit ..).updChain ..

theorem MemOk.writeDesc (ch off bs) : MemOk (writeDesc s ch off bs) := by
  unfold Machine.writeDesc
  dsimp only
  split
  · exact h
  · split
    · exact h.updChain ..
    · split
      next e => exact ((h.spanPlaces ..).left e).writeSpan ..
      next e => exact (((h.spanPlaces ..).left e).updChain ..).pauseChain ..

theorem MemOk.payDesc (ch) : MemOk (payDesc s ch) := .foldl (fun _ _ hu => hu.writeDesc ..) (h.updChain ..) _
theorem MemOk.failRef (r) : MemOk (failRef s r) := h.failWork ..
theorem MemOk.abortGraph (g) : MemOk (abortGraph s g) := h.abortParts ..

theorem MemOk.failRecord (c st addr code off head32) : MemOk (failRecord s c st addr code off head32) := by
  unfold Machine.failRecord
  split
  · exact h
  · exact h.putError ..

theorem MemOk.failPrivate (ch g code off addr head32) : MemOk (failPrivate s ch g code off addr head32) := by
  unfold Machine.failPrivate
  dsimp only
  split
  · exact (h.abortGraph ..).raisePart ..
  · exact ((h.putError ..).abortGraph ..).raisePart ..

theorem MemOk.haltChain (id code off addr head32) : MemOk (haltChain s id code off addr head32) := by
  unfold Machine.haltChain
  split
  · exact h
  · split
    · exact h.failPrivate ..
    · dsimp only
      split
      · exact ((((h.putError ..).dropCmd ..).updChain ..).writeDesc ..).raisePart ..
      · exact (((h.putError ..).updChain ..).writeDesc ..).raisePart ..

theorem MemOk.failCmd (c code off) : MemOk (failCmd s c code off) := by
  unfold Machine.failCmd
  split
  · exact (h.dropCmd ..).haltChain ..
  · exact (((h.dropCmd ..).failRecord ..).failRef ..).raisePart ..
  · exact (((h.dropCmd ..).failRecord ..).abortGraph ..).raisePart ..
  · exact ((h.dropCmd ..).countDown ..).raisePart ..

theorem MemOk.pauseCmd (c cause level addr acc) : MemOk (pauseCmd s c cause level addr acc) := (h.pauseUnit ..).updCmd ..

theorem MemOk.cmdFault (c cause level addr acc off) : MemOk (cmdFault s c cause level addr acc off) := by
  unfold Machine.cmdFault
  split
  · exact h.failCmd ..
  · exact h.pauseCmd ..

theorem MemOk.completionDecrement (owner w tumb amount scope) : MemOk (completionDecrement s owner w tumb amount scope).state := by
  unfold Machine.completionDecrement
  grind [Decrement.state, MemOk.translate, MemOk.dropArrived, MemOk.decrementAt, MemOk.startDecrement]

theorem MemOk.workDone (p st r) : MemOk (workDone s p st r) := by
  unfold Machine.workDone
  split
  · exact h
  · exact .ite ((h.updStream ..).raisePart ..) (h.updStream ..)

theorem MemOk.chainFault (ch cause level addr blockAddr) : MemOk (chainFault s ch cause level addr blockAddr) := by
  unfold Machine.chainFault
  dsimp only
  split
  · exact (h.dropArrived ..).haltChain ..
  · exact (h.dropArrived ..).pauseChain ..

theorem MemOk.chainRead (ch a n blockAddr k) (keeps : ∀ u x, MemOk u → MemOk (k u x)) : MemOk (chainRead s ch a n blockAddr k) := by
  unfold Machine.chainRead
  split
  next e => exact (h.readSpan ..).left e
  next e => exact ((h.readSpan ..).left e).chainFault ..
  next e => exact keeps _ _ ((h.readSpan ..).left e)

theorem MemOk.readNext (ch k) (keeps : ∀ u ch, MemOk u → MemOk (k u ch)) : MemOk (readNext s ch k) :=
  h.chainRead _ _ _ _ _ fun _ _ hu => .ite ((hu.dropArrived ..).haltChain ..)
    (keeps _ _ ((((hu.dropArrived ..).updChain ..).writeDesc ..).writeDesc ..))

theorem MemOk.advanceChain (id) : MemOk (advanceChain s id) := by
  unfold Machine.advanceChain
  split
  · exact h
  · dsimp only
    split
    · exact (h.updChain ..).writeDesc ..
    · exact .ite (((h.updChain ..).writeDesc ..).readNext _ _ fun _ _ hu => hu) (((h.updChain ..).writeDesc ..).writeDesc ..)

theorem MemOk.retireRanges (id) : MemOk (retireRanges s id) := h

theorem MemOk.completeCmd (c) : MemOk (completeCmd s c) := by
  have own := h.retireRanges c.id
  have dec := own.completionDecrement c.id c.who c.tumb c.amount c.tscope
  unfold Machine.completeCmd
  grind [Decrement.state, MemOk.cmdFault, MemOk.dropCmd, MemOk.advanceChain, MemOk.workDone, MemOk.countDown]

theorem MemOk.engPlaces (c acc va n) : MemOk (engPlaces s c acc va n).1 := by
  unfold Machine.engPlaces
  split
  · exact h
  · split
    next e => exact (h.spanPlaces ..).left e
    next e => exact (h.spanPlaces ..).left e

theorem MemOk.readPlaces (owner w a xs) : MemOk (readPlaces s owner w a xs).1 := by
  induction xs generalizing s a with
  | nil => exact h
  | cons x xs ih =>
    unfold Machine.readPlaces
    split
    next e =>
      have hu := (h.readAt ..).left e
      split
      next e => exact (ih hu _).left e
      · exact ih hu _
    · exact h.readAt ..

theorem MemOk.engRead (c va n) : MemOk (engRead s c va n).1 := by
  unfold Machine.engRead
  split
  · split
    · split
      next e => exact (h.readPlaces ..).left e
    · exact h
    · exact h
  · split
    next e => exact (h.readSpan ..).left e

theorem MemOk.engWrite (c a ps bs) : MemOk (engWrite s c a ps bs) := h.writeSpan ..

/-! ### Reservoir words -/

theorem MemOk.checkCoords (g acc cs) : MemOk (checkCoords s g acc cs).1 := h.checkAll ..

theorem MemOk.execResld (gd d a) : EndsOk (execResld gd d a s) := by
  unfold Machine.execResld
  refine h.laneIssue _ _ _ fun g y u hu => ?_
  split
  · exact hu.block ..
  · split
    next e =>
      exact .ite (((hu.checkCoords ..).left e).block ..) (MemOk.failLanes (.foldl (fun _ _ hu => hu.loadOne ..)
        (((hu.checkCoords ..).left e).countUp ..) _) ..)

theorem MemOk.execResst (gd d a) : EndsOk (execResst gd d a s) := by
  unfold Machine.execResst
  refine h.laneIssue _ _ _ fun g y u hu => ?_
  split
  · exact hu.block ..
  · split
    next e => exact MemOk.failLanes (.foldl (fun _ _ hu => hu.bufferStore ..) (((hu.checkCoords ..).left e).countUp ..) _) ..

/-! ### Copies and collectives -/

theorem MemOk.recordEntries (es) : MemOk (recordEntries s es) := h
theorem MemOk.setCopy (id j) : MemOk (setCopy s id j) := h.updCmd ..

theorem MemOk.startCopy (id op) : MemOk (startCopy s id op) := by
  unfold Machine.startCopy
  split
  · exact h
  · split
    · split
      · exact h
      · split
        · exact h.failCmd ..
        · exact .ite (h.updCmd ..) (.ite ((h.recordEntries ..).updCmd ..) h)
    · exact h

theorem MemOk.haloMessage (c tag p bs) : MemOk (haloMessage s c tag p bs) := by
  unfold Machine.haloMessage
  dsimp only
  exact h.sendHinge ..

theorem MemOk.sendHalo (c tag xs bs) : MemOk (sendHalo s c tag xs bs) := by
  induction xs generalizing s bs with
  | nil => exact h
  | cons x xs ih => exact ih (h.haloMessage ..) _

theorem MemOk.copyChunk (c j) : MemOk (copyChunk s c j) := by
  unfold Machine.copyChunk
  dsimp only
  split
  next e => exact (MemOk.ite_fst h (h.engRead ..)).left e
  next e => exact ((MemOk.ite_fst h (h.engRead ..)).left e).failCmd ..
  next e => exact (((MemOk.ite_fst h (h.engRead ..)).left e).dropArrived ..).cmdFault ..
  next e =>
    have hu := (MemOk.ite_fst h (h.engRead ..)).left e
    split
    next e => exact ((hu.engPlaces ..).left e).failCmd ..
    next e => exact ((hu.engPlaces ..).left e).cmdFault ..
    next e =>
      have hv := (hu.engPlaces ..).left e
      exact .ite hv (.ite ((hv.dropArrived ..).cmdFault ..)
        ((MemOk.setCopy (.ite ((hv.dropArrived ..).sendHalo ..) ((hv.dropArrived ..).engWrite ..)) ..).charge ..))

theorem MemOk.setColl (id j) : MemOk (setColl s id j) := h.updCmd ..
theorem MemOk.keepAttempt (c j) : MemOk (keepAttempt s c j) := h

theorem MemOk.abortAttempt (c j token) : MemOk (abortAttempt s c j token) :=
  (MemOk.failCmd (.ite (.foldl (fun _ _ hu => .ite hu (hu.send ..)) h _) h) ..).keepAttempt ..

theorem MemOk.collFault (c j cause level addr acc off) : MemOk (collFault s c j cause level addr acc off) :=
  .ite (h.abortAttempt ..) (h.cmdFault ..)

theorem MemOk.beginColl (c j) : MemOk (beginColl s c j) := MemOk.updCmd (by exact h) ..

theorem MemOk.startColl (id op) : MemOk (startColl s id op) := by
  unfold Machine.startColl
  split
  · exact h
  next c0 _ =>
    generalize giveEngine s c0 = c
    simp only
    split
    next j _ =>
      split
      · exact h
      split
      · exact h.failCmd ..
      have members := h.engRead c j.memtab (8 * j.nmem)
      split
      next e => exact members.left e
      next e => exact (members.left e).failCmd ..
      next e => exact ((members.left e).dropArrived _).collFault ..
      next e =>
        have members := members.left e
        split
        · exact members.failCmd ..
        split
        · exact members.failCmd ..
        split
        · exact members.abortAttempt ..
        split
        next e => exact (members.engRead ..).left e
        next e => exact ((members.engRead ..).left e).failCmd ..
        next e => exact (((members.engRead ..).left e).dropArrived _).collFault ..
        next e => exact (((members.engRead ..).left e).dropArrived _).beginColl ..
    · exact h

theorem MemOk.collSend (c j) : MemOk (collSend s c j) :=
  .ite (h.setColl ..) (.ite (h.setColl ..) (.ite h (((h.send ..).charge ..).setColl ..)))

theorem MemOk.dropLate (die p attempt member) : MemOk (dropLate s die p attempt member) := MemOk.logEvent (by exact h) ..
theorem MemOk.bufferMsg (b m) : MemOk (bufferMsg s b m) := .ite (h.dropLate ..) (by exact h)

theorem MemOk.execCollMessageIngress (id attempt member data) : EndsOk (execCollMessageIngress id attempt member data s) := by
  unfold Machine.execCollMessageIngress
  dsimp only
  split
  · split
    · exact h
    · exact h.bufferMsg ..
  · split
    · exact MemOk.ite (h.setColl ..) (.ite (h.dropLate ..) (h.setColl ..))
    · exact h

theorem MemOk.execCollAbortToken (id attempt) : EndsOk (execCollAbortToken id attempt s) := by
  unfold Machine.execCollAbortToken
  split
  · exact h
  · split
    · exact MemOk.ite (h.abortAttempt ..) h
    · exact h

theorem MemOk.execCollAttemptTimeout (id) : EndsOk (execCollAttemptTimeout id s) := by
  unfold Machine.execCollAttemptTimeout
  split
  · exact h
  · split
    · exact MemOk.ite (h.abortAttempt ..) h
    · exact h

theorem MemOk.collChunk (c j) : MemOk (collChunk s c j) := by
  unfold Machine.collChunk
  dsimp only
  split
  next e => exact ((h.engPlaces ..).left e).failCmd ..
  next e => exact ((h.engPlaces ..).left e).collFault ..
  next e => exact .ite ((h.engPlaces ..).left e) (((((h.engPlaces ..).left e).engWrite ..).setColl ..).charge ..)

theorem MemOk.collMove (c j) : MemOk (collMove s c j) := .ite (h.collSend ..) (.ite (h.collChunk ..) h)

theorem MemOk.chunkRefused (c x) : MemOk (chunkRefused s c x) := by
  unfold Machine.chunkRefused
  dsimp only
  split
  · exact ((h.dropArrived ..).setCopy ..).cmdFault ..
  · exact ((h.dropArrived ..).setColl ..).collFault ..
  · exact h.dropArrived ..

theorem MemOk.execCopyChunk (id) : EndsOk (execCopyChunk id s) := by
  unfold Machine.execCopyChunk
  split
  · exact h
  · split
    · exact h
    · split
      · exact h.chunkRefused ..
      · split
        · exact h
        · split
          · exact MemOk.ite (h.copyChunk ..) h
          · exact h.collMove ..
          · exact h

/-! ### Engine commands of groups -/

theorem MemOk.drainSpan (core ps) : MemOk (drainSpan s core ps) := .foldl (fun _ _ hu => hu.drainOverlap ..) h _
theorem MemOk.parkCohort (g access cause level addr) : MemOk (parkCohort s g access cause level addr) := (h.hold ..).parkLanes ..

theorem MemOk.withBlock (g a n k) (keeps : ∀ u x, MemOk u → MemOk (k u x)) : MemOk (withBlock s g a n k) := by
  unfold Machine.withBlock
  dsimp only
  split
  next e => exact ((h.spanPlaces ..).left e).parkCohort ..
  next e =>
    have hu := (h.spanPlaces ..).left e
    split
    · exact (hu.drainSpan ..).block ..
    · split
      next e => exact (((hu.drainSpan ..).readSpan ..).left e).block ..
      next e => exact ((((hu.drainSpan ..).readSpan ..).left e).dropArrived ..).parkCohort ..
      next e => exact keeps _ _ ((((hu.drainSpan ..).readSpan ..).left e).dropArrived ..)

theorem MemOk.engineCommand (q body) (keeps : ∀ g u, MemOk u → MemOk (body g u)) : EndsOk (engineCommand s q body) :=
  h.groupIssue _ _ _ fun _ _ hu => .ite (hu.block ..) (keeps _ _ hu)

theorem MemOk.addCmd (c) : MemOk (addCmd s c) := h
theorem MemOk.sendCmd (g c) : MemOk (sendCmd s g c) := ((h.addCmd ..).markInterval ..).countUp ..

theorem MemOk.sendCopy (g addr b j) : MemOk (sendCopy s g addr b j) := by
  unfold Machine.sendCopy
  dsimp only
  split
  · exact h.illop ..
  · exact .ite ((h.recordEntries ..).sendCmd ..) (h.block ..)

theorem MemOk.execCopyBlockCmd (q x) : EndsOk (execCopyBlockCmd q x s) :=
  h.engineCommand _ _ fun _ _ hu => .ite (hu.illop ..) (hu.withBlock _ _ _ _ fun _ _ hu => .ite (hu.illop ..) (hu.sendCopy ..))

theorem MemOk.execCopyDirect (q x y n) : EndsOk (execCopyDirect q x y n s) :=
  h.engineCommand _ _ fun _ _ hu => .ite (hu.illop ..) (hu.sendCopy ..)

theorem MemOk.execColl (q x) : EndsOk (execColl q x s) :=
  h.engineCommand _ _ fun _ _ hu => .ite (hu.illop ..) (hu.withBlock _ _ _ _ fun _ _ hu => .ite (hu.illop ..) (hu.sendCmd ..))

theorem MemOk.addChain (ch) : MemOk (addChain s ch) := h

theorem MemOk.attachChain (ch) : MemOk (attachChain s ch) := by
  unfold Machine.attachChain
  dsimp only
  split
  · split
    · exact h
    · split
      · exact ((h.updChain ..).writeDesc ..).countDown ..
      · exact (h.updChain ..).writeDesc ..
  · split
    · exact h
    · split
      · exact ((h.updChain ..).writeDesc ..).countDown ..
      · exact (h.updChain ..).writeDesc ..

theorem MemOk.execChain (q x) : EndsOk (execChain q x s) := by
  unfold Machine.execChain
  refine h.engineCommand _ _ fun _ _ hu => .ite (hu.illop ..) (hu.withBlock _ _ _ _ fun u x hu => ?_)
  split
  · exact MemOk.attachChain (by exact hu) ..
  · exact hu.illop ..

theorem MemOk.addTail (g a) : MemOk (addTail s g a).1 := by
  unfold Machine.addTail
  dsimp only
  split
  next e => exact (h.translate ..).left e
  next e =>
    have hu := (h.translate ..).left e
    split
    · exact hu.dropArrived ..
    · exact .ite_fst (hu.drainSpan ..) (.ite_fst ((hu.drainSpan ..).performAtomic ..) ((hu.drainSpan ..).startAtomic ..))

theorem MemOk.keepReserved (ls t) : MemOk (keepReserved s ls t) := h.updLanes ..

theorem MemOk.writePacket (g b t packet) : MemOk (writePacket s g b t packet) := by
  unfold Machine.writePacket
  dsimp only
  split
  next e => exact (((h.translate ..).left e).parkCohort ..).keepReserved ..
  next e => exact ((((h.translate ..).left e).updLanes ..).countUp ..).startWrite ..

theorem MemOk.takeSlot (g b k) (keeps : ∀ u x, MemOk u → MemOk (k u x)) : MemOk (takeSlot s g b k) := by
  unfold Machine.takeSlot
  dsimp only
  split
  · exact h
  · split
    · exact h.block ..
    · split
      next e => exact ((h.addTail ..).left e).block ..
      next e => exact ((h.addTail ..).left e).parkCohort ..
      next e => exact keeps _ _ ((((h.addTail ..).left e).updGrid ..).markInterval ..)

theorem MemOk.execLaunch (q x y irq tag) : EndsOk (execLaunch q x y irq tag s) := by
  unfold Machine.execLaunch
  refine h.engineCommand _ _ fun _ _ hu => .ite (hu.failUniform ..) (hu.withBlock _ _ _ _ fun u x hu => ?_)
  split
  · exact hu.illop ..
  · dsimp only
    split
    · exact (hu.releaseDrain ..).block ..
    · split
      · exact (hu.releaseDrain ..).writePacket ..
      · exact (hu.releaseDrain ..).takeSlot _ _ _ fun _ _ hu => hu.writePacket ..

/-! ### Conversions -/

theorem MemOk.execDqv (gd d a b n) : EndsOk (execDqv gd d a b n s) :=
  h.laneIssue _ _ _ fun _ _ _ hu => .ite ((hu.applyLanes ..).updGroup ..) (hu.applyLanes ..)

/-! ### Matrix jobs -/

theorem MemOk.updJob (id f) : MemOk (s.updJob id f) := h
theorem MemOk.dropJob (id) : MemOk (dropJob s id) := h

theorem MemOk.writeTile (team c r t tile mark) : MemOk (writeTile s team c r t tile mark) := by
  unfold Machine.writeTile
  split
  · exact h
  · split
    · exact .ite h (MemOk.updGroup (.foldl (fun _ _ hu => hu.updLane ..) h _) ..)

theorem MemOk.writeTiles (j c tiles mark) : MemOk (writeTiles s j c tiles mark) :=
  .foldl (fun _ _ hu => .foldl (fun _ _ hu => hu.writeTile ..) hu _) h _

theorem MemOk.rowPlaces (w xs) : MemOk (rowPlaces s w xs).1 := by
  induction xs generalizing s with
  | nil => exact h
  | cons x xs ih =>
    unfold Machine.rowPlaces
    split
    next e =>
      have hu := (h.spanPlaces ..).left e
      split
      next e => exact (ih hu).left e
      · exact ih hu
    next e => exact (h.spanPlaces ..).left e

theorem MemOk.writeRows (k at_ l rows) : MemOk (writeRows s k at_ l rows) := .foldl (fun _ _ hu => hu.writeSpan ..) h _
theorem MemOk.raiseAg (j) : MemOk (raiseAg s j) := h
theorem MemOk.retryKeys (core) : MemOk (retryKeys s core) := .foldl (fun _ _ hu => hu.testKeys ..) h _
theorem MemOk.leaveEngine (j) : MemOk (leaveEngine s j) := ((h.dropJob ..).lowerSigned ..).retryKeys ..

theorem MemOk.invalidRows (j c) : MemOk (invalidRows s j c) := by
  unfold Machine.invalidRows
  refine .foldl (fun u x hu => ?_) h _
  split
  next e => exact ((hu.spanPlaces ..).left e).writeSpan ..
  next e => exact (hu.spanPlaces ..).left e

theorem MemOk.invalidate (j) : MemOk (invalidate s j) := by
  unfold Machine.invalidate
  split
  · exact h
  · exact .ite (h.invalidRows ..) (.foldl (fun _ _ hu => .foldl (fun _ _ hu => .ite (hu.writeTile ..) hu) hu _) h _)

theorem MemOk.invalidBlock (c) : MemOk (invalidBlock s c) := by
  unfold Machine.invalidBlock
  split
  · exact h.invalidate ..
  · exact h

theorem MemOk.failBlock (c code off) : MemOk (failBlock s c code off) := (h.invalidBlock ..).failCmd ..

theorem MemOk.completeBlock (c) : MemOk (completeBlock s c) := by
  unfold Machine.completeBlock
  dsimp only
  split
  · exact .ite ((h.completeCmd ..).invalidBlock ..) (h.completeCmd ..)
  · exact h.completeCmd ..

theorem MemOk.execChainBlockComplete (id) : EndsOk (execChainBlockComplete id s) := by
  unfold Machine.execChainBlockComplete
  split
  · exact h
  · exact MemOk.ite (h.completeBlock ..) h

theorem MemOk.endJob (j code off) : MemOk (endJob s j code off) := by
  unfold Machine.endJob
  dsimp only
  split
  · split
    · exact (((h.dropArrived ..).invalidate ..).dropJob ..).failCmd ..
    · exact ((h.dropArrived ..).invalidate ..).dropJob ..
  · exact (((h.dropArrived ..).invalidate ..).leaveEngine ..).raisePart ..

theorem MemOk.jobFault (j cause level addr acc) : MemOk (jobFault s j cause level addr acc) := by
  unfold Machine.jobFault
  split
  · dsimp only
    exact (h.pauseUnit ..).updJob ..
  · exact h.endJob ..

theorem MemOk.startAccs (j c) : MemOk (startAccs s j c).1 := by
  unfold Machine.startAccs
  split
  · split
    next e => exact (h.unitReads ..).left e
    next e => exact (h.unitReads ..).left e
  · exact .ite_fst h h

theorem MemOk.openJob (j) : MemOk (openJob s j) := by
  grind [Machine.openJob, MemOk.unitRead, MemOk.jobFault, MemOk.dropArrived, MemOk.endJob, MemOk.startAccs, MemOk.updJob]

theorem MemOk.jobStep (j c) : MemOk (jobStep s j c) := by
  unfold Machine.jobStep
  dsimp only
  split
  next e => exact (((h.unitReads ..).left e).dropArrived ..).jobFault ..
  next e => exact (h.unitReads ..).left e
  next e => exact ((((h.unitReads ..).left e).dropArrived ..).updJob ..).charge ..

theorem MemOk.execMatrixBlock (id) : EndsOk (execMatrixBlock id s) := by
  unfold Machine.execMatrixBlock
  split
  · exact h
  · split
    · exact MemOk.ite h (by exact h)
    · exact h

theorem MemOk.execMatrixKstep (id) : EndsOk (execMatrixKstep id s) := by
  unfold Machine.execMatrixKstep
  split
  · exact h
  · split
    · exact h
    · split
      · exact MemOk.ite (h.jobStep ..) h
      · exact h.openJob ..

theorem MemOk.writeResults (j c) : MemOk (writeResults s j c) := by
  unfold Machine.writeResults
  dsimp only
  split
  · exact (h.writeTiles ..).updJob ..
  · split
    next e => exact ((h.rowPlaces ..).left e).jobFault ..
    next e => exact .ite ((h.rowPlaces ..).left e) ((((h.rowPlaces ..).left e).writeRows ..).updJob ..)

theorem MemOk.finishJob (j) : MemOk (finishJob s j) := by
  unfold Machine.finishJob
  split
  · exact h
  · split
    · exact ((h.dropArrived ..).updJob ..).jobFault ..
    · split
      · exact h.dropJob ..
      · exact (h.raiseAg ..).leaveEngine ..

theorem MemOk.execMatrixJobComplete (id) : EndsOk (execMatrixJobComplete id s) := by
  unfold Machine.execMatrixJobComplete
  split
  · exact h
  next j _ =>
    split
    · exact h
    next b _ =>
      have wrote := h.writeResults j (jobCard s j b)
      dsimp only
      split
      · exact h
      · split
        · exact MemOk.ite (MemOk.finishJob (.ite wrote h) ..) (.ite wrote h)
        · exact MemOk.ite wrote h

theorem MemOk.mxSign (gd key a thenWait) : EndsOk (mxSign s gd key a thenWait) :=
  h.laneIssue _ _ _ fun _ _ _ hu => .ite (hu.block ..) (((hu.countUp ..).signLanes ..).trapEnter ..)

theorem MemOk.raiseAg3 (g bits) : MemOk (raiseAg3 s g bits) := .foldl (fun _ _ hu => hu.updGroup ..) h _

theorem MemOk.execMxdrain (gd m d a b) : EndsOk (execMxdrain gd m d a b s) :=
  h.laneIssue _ _ _ fun _ _ _ hu => .ite (hu.block ..) ((MemOk.raiseAg3
    (.ite (MemOk.updGroup (.foldl (fun _ _ hu => hu.updLane ..) hu _) ..) (.foldl (fun _ _ hu => hu.updLane ..) hu _)) ..).illop ..)

/-! ### The Blend unit -/

theorem MemOk.updTile (id f) : MemOk (s.updTile id f) := h
theorem MemOk.dropTile (id) : MemOk (dropTile s id) := h

theorem MemOk.joinTile {core part grid handle r t} (e : joinTile s core part grid handle r = some t) : MemOk t := by
  unfold Machine.joinTile at e
  grind [MemOk, MemOk.updTile]

theorem MemOk.enterRow (g d a l handle) : MemOk (enterRow s g d a l handle).1 := by
  unfold Machine.enterRow
  split
  · exact h
  · simp only
    split
    next e => exact (MemOk.joinTile (by exact h) e).updLane ..
    next => exact h

theorem MemOk.enterRows (g d a xs) : MemOk (enterRows s g d a xs).1 := by
  induction xs generalizing s with
  | nil => exact h
  | cons x xs ih => exact ih (h.enterRow ..)

theorem MemOk.execNeval (gd d a b) : EndsOk (execNeval gd d a b s) := h.laneIssue _ _ _ fun _ _ _ hu => ((hu.enterRows ..).block ..).trapEnter ..
theorem MemOk.tileIllop (t) : MemOk (tileIllop s t) := .foldl (fun _ _ hu => hu.trapEnter ..) (h.dropTile ..) _

theorem MemOk.tileFault (t cause level addr) : MemOk (tileFault s t cause level addr) := by
  unfold Machine.tileFault
  dsimp only
  exact .ite (.foldl (fun _ _ hu => hu.trapEnter ..) (h.dropTile ..) _) (.foldl (fun _ _ hu => hu.updLane ..)
    (.foldl (fun _ _ hu => hu.putFault ..) ((h.dropTile ..).newToken ..) _) _)

theorem MemOk.rowAinv (n r) : MemOk (rowAinv n s r) := by
  unfold Machine.rowAinv
  split
  · exact h
  · exact .ite (h.raiseOf ..) h

theorem MemOk.acceptRows (t n b) : MemOk (acceptRows s t n b) :=
  .foldl (fun _ _ hu => (hu.countUp ..).passLanes ..) (.foldl (fun _ _ hu => hu.rowAinv ..) (h.updTile ..) _) _

theorem MemOk.checkSpans (w xs) : MemOk (checkSpans s w xs).1 := by
  induction xs generalizing s with
  | nil => exact h
  | cons x xs ih =>
    unfold Machine.checkSpans
    split
    next e => exact (h.spanPlaces ..).left e
    next e => exact ih ((h.spanPlaces ..).left e)

theorem MemOk.execBlendTileClose (id) : EndsOk (execBlendTileClose id s) := by
  unfold Machine.execBlendTileClose
  split
  · exact h
  · split
    · exact h
    · split
      next e => exact (h.unitRead ..).left e
      next e => exact (((h.unitRead ..).left e).dropArrived ..).tileFault ..
      next e =>
        have hu := (h.unitRead ..).left e
        dsimp only
        split
        · exact (hu.dropArrived ..).tileIllop ..
        · split
          next e => exact (((hu.dropArrived ..).checkSpans ..).left e).tileFault ..
          next e => exact (((hu.dropArrived ..).checkSpans ..).left e).acceptRows ..

theorem MemOk.landRow (t r ys) : MemOk (landRow s t r ys) :=
  .ite (((h.updGroup ..).countDown ..).dropTile ..) (((h.updGroup ..).countDown ..).updTile ..)

theorem MemOk.rereadRow (t r b) : MemOk (rereadRow s t r b) := by
  unfold Machine.rereadRow
  dsimp only
  split
  next e => exact (h.unitRead ..).left e
  next e => exact ((((h.unitRead ..).left e).dropArrived ..).logEvent ..).landRow ..
  next e => exact .ite ((((h.unitRead ..).left e).dropArrived ..).landRow ..) ((((h.unitRead ..).left e).dropArrived ..).updTile ..)

theorem MemOk.execBlendRowWriteback (id) : EndsOk (execBlendRowWriteback id s) := by
  unfold Machine.execBlendRowWriteback
  split
  · exact h
  · split
    · split
      · exact h
      · split
        · exact h.rereadRow ..
        · dsimp only
          split
          next e => exact (h.unitReads ..).left e
          next e =>
            have hu := (h.unitReads ..).left e
            split
            · exact MemOk.landRow (.ite (hu.dropArrived ..) (((hu.dropArrived ..).updTile ..).charge ..)) ..
            · exact (MemOk.logEvent (.ite (hu.dropArrived ..) (((hu.dropArrived ..).updTile ..).charge ..)) ..).landRow ..
            · exact MemOk.landRow (.ite (hu.dropArrived ..) (((hu.dropArrived ..).updTile ..).charge ..)) ..
    · exact h

/-! ### Device time, heat and power -/

theorem MemOk.chargeCycle : MemOk (chargeCycle s) := h.of_partsOnly (.chargeCycle s)

theorem MemOk.chargeCycles (n) : MemOk (chargeCycles s n) := h.of_partsOnly (.chargeCycles s n)

theorem MemOk.execDeviceTimeTick : EndsOk (execDeviceTimeTick s) := by
  unfold Machine.execDeviceTimeTick
  split
  · exact MemOk.chargeCycles (by exact h) _
  · exact h

theorem MemOk.writeAdj (v) : MemOk (writeAdj s v) := h
theorem MemOk.writeStep (v) : MemOk (writeStep s v) := h

theorem MemOk.execPtpMessage (kind seqNo remote) : EndsOk (execPtpMessage kind seqNo remote s) :=
  MemOk.ite (MemOk.send (by exact h) ..) h

theorem MemOk.enterThermal (v) : MemOk (enterThermal s v) :=
  .ite h (.ite ((MemOk.raisePf (by exact h) ..).logEvent ..) (.ite ((MemOk.raisePf (by exact h) ..).logEvent ..)
    (MemOk.raisePf (by exact h) ..)))

theorem MemOk.execSensorRefresh (samples) : EndsOk (execSensorRefresh samples s) := by
  unfold Machine.execSensorRefresh
  split
  · exact h
  · dsimp only
    split
    · exact MemOk.enterThermal (by exact h) ..
    · exact h

theorem MemOk.execClockStep : EndsOk (execClockStep s) := MemOk.ite h (by exact h)
theorem MemOk.writePwrcap (v) : MemOk (writePwrcap s v) := h

/-! ### Links -/

theorem MemOk.updHinge (n f) : MemOk (updHinge s n f) := h
theorem MemOk.clearCrc (n) : MemOk (clearCrc s n) := h.updHinge ..
theorem MemOk.execHostLinkTrained (width rate) : EndsOk (execHostLinkTrained width rate s) := MemOk.ite (by exact h) h
theorem MemOk.execHostLinkDown : EndsOk (execHostLinkDown s) := MemOk.ite h ((MemOk.raisePf (by exact h) ..).logEvent ..)

/-! ### The traversal unit -/

theorem MemOk.updRay (id f) : MemOk (s.updRay id f) := h
theorem MemOk.dropRay (id) : MemOk (dropRay s id) := h
theorem MemOk.addRay (r) : MemOk (addRay s r) := h
theorem MemOk.sendRay (g fl a b c dest l) : MemOk (sendRay g fl a b c dest s l) := .ite ((h.addRay ..).updLane ..) (h.addRay ..)

theorem MemOk.sendRays (gd form fl a b c dest) : EndsOk (sendRays s gd form fl a b c dest) :=
  h.laneIssue _ _ _ fun _ _ _ hu => .ite (hu.block ..) (.foldl (fun _ _ hu => hu.sendRay ..) ((hu.block ..).countUp ..) _)

theorem MemOk.rayFault (r cause level addr) : MemOk (rayFault s r cause level addr) := by
  unfold Machine.rayFault
  split
  · split
    next e => exact ((h.pauseUnit ..).left e).updRay ..
  · exact h.updRay ..

theorem MemOk.noteAbsentPage (r page) : MemOk (noteAbsentPage s r page) := by
  unfold Machine.noteAbsentPage
  split
  · exact h.noteResidency ..
  · exact h

theorem MemOk.absentPage (r w) : MemOk (absentPage s r w) := by
  unfold Machine.absentPage
  dsimp only
  split
  · exact (h.noteAbsentPage ..).updRay ..
  · split
    · exact (h.noteAbsentPage ..).updRay ..
    · exact (h.noteAbsentPage ..).updRay ..
    · exact (h.noteAbsentPage ..).updRay ..

theorem MemOk.pageFault (r w cause) : MemOk (pageFault s r w cause) := .ite (h.absentPage ..) (h.updRay ..)

theorem MemOk.openPage (r w) : MemOk (openPage s r w) := by
  unfold Machine.openPage
  dsimp only
  split
  next e => exact (h.unitRead ..).left e
  next e => exact (((h.unitRead ..).left e).dropArrived ..).pageFault ..
  next e =>
    have hu := (h.unitRead ..).left e
    split
    · exact (hu.dropArrived ..).updRay ..
    · split
      next e => exact (((hu.unitReads ..).left e).dropArrived ..).pageFault ..
      next e => exact (hu.unitReads ..).left e
      next e => exact (((hu.unitReads ..).left e).dropArrived ..).updRay ..

theorem MemOk.callShader (r hd entry) : MemOk (callShader s r hd entry) := by
  unfold Machine.callShader
  dsimp only
  split
  · exact (h.updRay ..).updLane ..
  · exact h.updRay ..

theorem MemOk.procStep (r w) : MemOk (procStep s r w) := by
  unfold Machine.procStep
  split
  next e => exact (h.unitRead ..).left e
  next e => exact (((h.unitRead ..).left e).dropArrived ..).rayFault ..
  next e =>
    have hu := (h.unitRead ..).left e
    dsimp only
    split
    · exact .ite ((hu.dropArrived ..).updRay ..) ((hu.dropArrived ..).callShader ..)
    · exact (hu.dropArrived ..).updRay ..

theorem MemOk.candidateStep (r w rest hd opaque_) : MemOk (candidateStep s r w rest hd opaque_) := by
  unfold Machine.candidateStep
  split
  · exact (h.dropArrived ..).updRay ..
  · dsimp only
    split
    · exact .ite ((h.dropArrived ..).updRay ..) ((h.dropArrived ..).callShader ..)
    · split
      next e => exact (h.unitRead ..).left e
      next e => exact (((h.unitRead ..).left e).dropArrived ..).rayFault ..
      next e =>
        have hu := (h.unitRead ..).left e
        split
        · exact .ite ((hu.dropArrived ..).updRay ..) ((hu.dropArrived ..).callShader ..)
        · exact (hu.dropArrived ..).updRay ..

theorem MemOk.triangleStep (r w i rest) : MemOk (triangleStep s r w i rest) := by
  unfold Machine.triangleStep
  split
  next e => exact (h.unitRead ..).left e
  next e => exact (((h.unitRead ..).left e).dropArrived ..).pageFault ..
  next e =>
    have hu := (h.unitRead ..).left e
    split
    · exact (hu.dropArrived ..).updRay ..
    · split
      · exact (hu.dropArrived ..).updRay ..
      · exact hu.candidateStep ..

theorem MemOk.pageStep (r w) : MemOk (pageStep s r w) := by
  unfold Machine.pageStep
  split
  · exact h.procStep ..
  · split
    · exact h.openPage ..
    · split
      · exact h.updRay ..
      · exact h.triangleStep ..

theorem MemOk.nodeStep (r a isRef rest) : MemOk (nodeStep s r a isRef rest) := by
  unfold Machine.nodeStep
  split
  next e => exact (h.unitRead ..).left e
  next e => exact (((h.unitRead ..).left e).dropArrived ..).rayFault ..
  next e => exact (((h.unitRead ..).left e).dropArrived ..).updRay ..

theorem MemOk.execRayNodeRead (id) : EndsOk (execRayNodeRead id s) := by
  unfold Machine.execRayNodeRead
  split
  · exact h
  · split
    · exact h
    · split
      · exact h.pageStep ..
      · exact h.nodeStep ..
      · exact h.updRay ..

theorem MemOk.writeDest (core slot l dest bs) : MemOk (writeDest s core slot l dest bs) := by
  unfold Machine.writeDest
  split
  · exact h
  · exact h.updGroup ..

theorem MemOk.giveResult (id r core slot l) : MemOk (giveResult s id r core slot l) :=
  .ite ((((h.writeDest ..).countDown ..).dropRay ..).passLanes ..) (((h.writeDest ..).countDown ..).dropRay ..)

theorem MemOk.execRayResultWrite (id) : EndsOk (execRayResultWrite id s) := by
  unfold Machine.execRayResultWrite
  split
  · exact h
  · split
    · split
      · exact h
      · split
        · exact (h.swapBack ..).giveResult ..
        · exact h.giveResult ..
    · exact h

/-! ### Callables -/

theorem MemOk.runLoad (owner w cx ld l x) : MemOk (runLoad s owner w cx ld l x).1 := by
  unfold Machine.runLoad
  dsimp only
  split
  · exact h
  · split
    next e => exact (h.unitRead ..).left e
    next e => exact (h.unitRead ..).left e
    next e => exact (h.unitRead ..).left e

theorem MemOk.runCallable (owner w cx l xs x) : MemOk (runCallable s owner w cx l xs x).1 := by
  induction xs generalizing s x with
  | nil => exact h
  | cons i xs ih =>
    unfold Machine.runCallable
    split
    · split
      · exact ih h _
      · split
        next e => exact ih ((h.runLoad ..).left e) _
        · exact h.runLoad ..
    · split
      · exact ih h _
      · exact h

/-! ### The Strainer -/

theorem MemOk.execStrn (q x) : EndsOk (execStrn q x s) :=
  h.engineCommand _ _ fun _ _ hu => .ite (hu.illop ..) (hu.withBlock _ _ _ _ fun _ _ hu => hu.withBlock _ _ _ _ fun _ _ hu => .ite
    (hu.illop ..) (hu.sendCmd ..))

theorem MemOk.setStrain (id j) : MemOk (setStrain s id j) := h.updCmd ..
theorem MemOk.strainRead (c a n) : MemOk (strainRead s c a n).1 := h.readSpan ..

theorem MemOk.readCallable (c a) : MemOk (readCallable s c a).1 := by
  unfold Machine.readCallable
  split
  next e =>
    have hu := (h.strainRead ..).left e
    dsimp only
    split
    · exact hu
    · split
      next e => exact (hu.strainRead ..).left e
      next e => exact (hu.strainRead ..).left e
  next e => exact (h.strainRead ..).left e

theorem MemOk.callableFault (c cause level addr) : MemOk (callableFault s c cause level addr) :=
  .ite ((h.dropArrived ..).pauseCmd ..) ((h.dropArrived ..).failCmd ..)

theorem MemOk.startPass (c j) : MemOk (startPass s c j) := by
  unfold Machine.startPass
  dsimp only
  split
  · exact h.failCmd ..
  · split
    · exact h.failCmd ..
    · split
      · exact h.failCmd ..
      · split
        next e => exact ((h.readCallable ..).left e).callableFault ..
        next e => exact (h.readCallable ..).left e
        next e => exact (((h.readCallable ..).left e).dropArrived ..).failCmd ..
        next e => exact (((h.readCallable ..).left e).dropArrived ..).updCmd ..

theorem MemOk.execStrainerPass (id) : EndsOk (execStrainerPass id s) := by
  unfold Machine.execStrainerPass
  split
  · exact h
  · split
    · exact MemOk.ite h (h.startPass ..)
    · exact h

theorem MemOk.pixelRecord (c j plane x y) : MemOk (pixelRecord s c j plane x y).1 := by
  unfold Machine.pixelRecord
  split
  · exact h
  · split
    next e => exact (h.strainRead ..).left e
    next e => exact (h.strainRead ..).left e

theorem MemOk.neighbour (c j x y) : MemOk (neighbour s c j x y).1 := by
  unfold Machine.neighbour
  dsimp only
  split
  · exact h
  · split
    · exact h
    · split
      next e => exact (h.pixelRecord ..).left e
      next e => exact (h.pixelRecord ..).left e

theorem MemOk.reproject (c j x y) : MemOk (reproject s c j x y).1 := by
  unfold Machine.reproject
  dsimp only
  split
  · exact h
  · split
    next e =>
      have hu := (h.strainRead ..).left e
      split
      · split
        · exact hu
        · split
          next e => exact (hu.pixelRecord ..).left e
          next e => exact (hu.pixelRecord ..).left e
      · exact hu
    next e => exact (h.strainRead ..).left e

theorem MemOk.spatials (c j x y n i r) : MemOk (spatials c j x y n i s r).1 := by
  induction n generalizing s i r with
  | zero => exact h
  | succ n ih =>
    unfold Machine.spatials
    obtain ⟨dx, dy, r⟩ := offsetOf j (x + 65536 * y) i r
    simp only
    split
    next e => exact (h.neighbour ..).left e
    next e =>
      split
      next e' => exact (ih ((h.neighbour ..).left e) ..).left e'
      next e' => exact (ih ((h.neighbour ..).left e) ..).left e'

theorem MemOk.temporal (c j x y) : MemOk (temporal s c j x y).1 := by
  unfold Machine.temporal
  split
  · exact h
  · split
    next e => exact (h.reproject ..).left e
    next e => exact (h.reproject ..).left e
    next e => exact (h.reproject ..).left e

theorem MemOk.openPixel (c j pix) : MemOk (openPixel s c j pix).1 := by
  unfold Machine.openPixel
  dsimp only
  split
  next e => exact (h.pixelRecord ..).left e
  next e =>
    have hu := (h.pixelRecord ..).left e
    split
    next e => exact (hu.temporal ..).left e
    next e =>
      have hv := (hu.temporal ..).left e
      split
      next e => exact (hv.spatials ..).left e
      next e => exact (hv.spatials ..).left e

theorem MemOk.strainFault (c r) : MemOk (strainFault s c r) := by
  unfold Machine.strainFault
  split
  · exact (h.dropArrived ..).failCmd ..
  · exact (h.dropArrived ..).cmdFault ..
  · exact h

theorem MemOk.setWork (c j w) : MemOk (setWork s c j w) := (h.setStrain ..).dropArrived ..
theorem MemOk.closePixel (c j w) : MemOk (closePixel s c j w) := ((h.setStrain ..).dropArrived ..).charge ..

theorem MemOk.sendVis (c j w pc g) : MemOk (sendVis s c j w pc g) := by
  unfold Machine.sendVis
  split
  · exact h.setWork ..
  · split
    · exact h
    · exact (h.addRay ..).setWork ..

theorem MemOk.candStep (c j w x) : MemOk (candStep s c j w x) := by
  unfold Machine.candStep
  split
  · exact h.setWork ..
  · split
    next e =>
      have hu := (h.strainRead ..).left e
      dsimp only
      split
      next e => exact (hu.runCallable ..).left e
      next e => exact (((hu.runCallable ..).left e).dropArrived ..).pauseCmd ..
      next e => exact ((hu.runCallable ..).left e).setWork ..
      next e =>
        have hv := (hu.runCallable ..).left e
        exact .ite (hv.sendVis ..) (hv.setWork ..)
    next e => exact ((h.strainRead ..).left e).strainFault ..

theorem MemOk.execStrainerPixel (id) : EndsOk (execStrainerPixel id s) := by
  unfold Machine.execStrainerPixel
  split
  · exact h
  next c _ =>
    split
    next j _ =>
      have opened := h.openPixel c j
      split
      · exact h
      · split
        · split
          · exact h
          · split
            · exact h.candStep ..
            · exact h.closePixel ..
        · split
          · exact h
          · split
            next e => exact ((h.openPixel ..).left e).setWork ..
            next e => exact ((h.openPixel ..).left e).strainFault ..
        · exact h
    · exact h

theorem MemOk.execStrainerVisRayResult (id) : EndsOk (execStrainerVisRayResult id s) := by
  have done (c j w) : MemOk (Machine.setWork (Machine.dropRay s id) c j w) := (h.dropRay id).setWork ..
  unfold Machine.execStrainerVisRayResult
  repeat' split
  all_goals exact h

theorem MemOk.writeRecords (c j xs) : MemOk (writeRecords c j s xs) := by
  induction xs generalizing s with
  | nil => exact h.setStrain ..
  | cons x xs ih =>
    unfold Machine.writeRecords
    dsimp only
    split
    · exact h.failCmd ..
    · split
      next e =>
        exact .ite (((h.engPlaces ..).left e).setStrain ..) (.ite ((((h.engPlaces ..).left e).engWrite ..).setStrain ..)
          (ih (((h.engPlaces ..).left e).engWrite ..)))
      next e => exact (((h.engPlaces ..).left e).setStrain ..).cmdFault ..
      next e => exact ((h.engPlaces ..).left e).failCmd ..

theorem MemOk.execStrainerPassComplete (id) : EndsOk (execStrainerPassComplete id s) := by
  unfold Machine.execStrainerPassComplete
  split
  · exact h
  · split
    · split
      · exact h
      · split
        · exact ((h.dropArrived ..).setStrain ..).cmdFault ..
        · exact MemOk.ite ((h.setStrain ..).completeCmd ..) (h.writeRecords ..)
    · exact h

theorem MemOk.execStrainerAdvance (id) : EndsOk (execStrainerAdvance id s) := by
  unfold Machine.execStrainerAdvance
  split
  · exact h
  · split
    · exact MemOk.ite h (((h.updPart ..).updCmd ..).completeCmd ..)
    · exact h

/-! ### Chains that run -/

theorem MemOk.badBlock (ch b code off) : MemOk (badBlock s ch b code off) := MemOk.haltChain (.ite (h.invalidBlock ..) h) ..

theorem MemOk.takeBlock (ch b) : MemOk (takeBlock s ch b) := by
  unfold Machine.takeBlock
  split
  · exact h.badBlock ..
  · exact .ite (by exact h) ((h.addCmd ..).updChain ..)

theorem MemOk.readBlock (ch) : MemOk (readBlock s ch) :=
  h.chainRead _ _ _ _ _ fun _ _ hu => .ite ((hu.dropArrived ..).takeBlock ..)
    (hu.chainRead _ _ _ _ _ fun _ _ hu => (hu.dropArrived ..).takeBlock ..)

theorem MemOk.headBlock (ch) : MemOk (headBlock s ch) := .ite h (.ite (h.haltChain ..) (h.readBlock ..))
theorem MemOk.nextBlock (ch) : MemOk (nextBlock s ch) := .ite (h.readNext _ _ fun _ _ hu => hu.headBlock ..) (h.headBlock ..)

theorem MemOk.loadChain (ch) : MemOk (loadChain s ch) := by
  unfold Machine.loadChain
  refine .ite (h.haltChain ..) (h.chainRead _ _ _ _ _ fun u x hu => ?_)
  dsimp only
  split
  · split
    · exact (((hu.dropArrived ..).updChain ..).updGraph ..).haltChain ..
    · exact ((hu.dropArrived ..).updChain ..).haltChain ..
  · split
    · exact ((hu.dropArrived ..).updChain ..).updGraph ..
    · exact (hu.dropArrived ..).updChain ..

theorem MemOk.watchDesc (ch off n k) (keeps : ∀ u x, MemOk u → MemOk (k u x)) : MemOk (watchDesc s ch off n k) := by
  unfold Machine.watchDesc
  split
  next e => exact (h.unitAcquire ..).left e
  next e => exact ((h.unitAcquire ..).left e).chainFault ..
  next e => exact keeps _ _ ((h.unitAcquire ..).left e)

theorem MemOk.descRefused (ch x) : MemOk (descRefused s ch x) := by
  unfold Machine.descRefused
  dsimp only
  split
  · exact .ite (h.dropArrived ..) ((h.dropArrived ..).haltChain ..)
  · exact ((h.dropArrived ..).updChain ..).pauseChain ..

theorem MemOk.settleDesc (ch) : MemOk (settleDesc s ch) := by
  unfold Machine.settleDesc
  split
  · exact h.descRefused ..
  · exact .ite (h.payDesc ..) h

theorem MemOk.readPrivate (ch) : MemOk (readPrivate s ch) := .ite h (h.headBlock ..)

theorem MemOk.seeChainTail (ch) : MemOk (seeChainTail s ch) :=
  h.watchDesc _ _ _ _ fun _ _ hu => .ite ((hu.updChain ..).nextBlock ..) ((hu.updChain ..).dropArrived ..)

theorem MemOk.chainMove (id) : MemOk (chainMove s id) := by
  unfold Machine.chainMove
  lift_lets
  intro on
  have keeps {u : State} (hu : MemOk u) {f : State → Chain → State} (hf : ∀ ch, MemOk (f u ch)) : MemOk (on u f) := by
    simp only [on]
    split
    · exact hf _
    · exact hu
  clear_value on
  intro settled loaded attached
  have hs : MemOk settled := keeps h h.settleDesc
  have hl : MemOk loaded := keeps hs fun ch => by exact .ite (hs.loadChain ..) hs
  have ha : MemOk attached := keeps hl fun ch => by exact .ite (hl.attachChain ..) hl
  exact keeps ha fun ch => by exact .ite (ha.readPrivate ..) (.ite ha (ha.seeChainTail ..))

theorem MemOk.execChainResume (id) : EndsOk (execChainResume id s) := by
  unfold Machine.execChainResume
  split
  · exact h
  · dsimp only
    split
    · exact h.settleDesc ..
    · refine MemOk.ite (h.settleDesc ..) ((h.settleDesc ..).watchDesc _ _ _ _ fun u x hu => ?_)
      split
      · exact hu.dropArrived ..
      · split
        · exact ((hu.dropArrived ..).updChain ..).haltChain ..
        · exact ((hu.dropArrived ..).updChain ..).writeDesc ..

/-! ### Room for engines -/

theorem MemOk.addGrid (g) : MemOk (addGrid s g) := h

/-! ### Front ends -/

theorem MemOk.feRead (p st a n) : MemOk (feRead s p st a n).1 := h.readSpan ..
theorem MemOk.feAcquire (p st scope a n) : MemOk (feAcquire s p st scope a n).1 := h.unitAcquire ..
theorem MemOk.packetRead (p st a n) : MemOk (packetRead s p st a n).1 := .ite_fst h (h.feRead ..)

theorem MemOk.haltStream (p st code addr off head32 slots) : MemOk (haltStream s p st code addr off head32 slots) := by
  unfold Machine.haltStream
  split
  · exact h
  · exact (((h.dropArrived ..).putError ..).updStream ..).raisePart ..

theorem MemOk.haltPacket (p st code off k) : MemOk (haltPacket s p st code off k) := h.haltStream ..
theorem MemOk.keepPacket (p st a n b) : MemOk (keepPacket s p st a n b) := (h.updStream ..).dropArrived ..

theorem MemOk.readRest (p st a n b) : MemOk (readRest s p st a n b) := by
  unfold Machine.readRest
  split
  · exact h.keepPacket ..
  · split
    next e => exact ((h.packetRead ..).left e).keepPacket ..
    next e => exact (h.packetRead ..).left e
    next e => exact ((h.packetRead ..).left e).haltStream ..

theorem MemOk.lookPacket (p st) : MemOk (lookPacket s p st) := by
  unfold Machine.lookPacket
  dsimp only
  split
  · exact h.updStream ..
  · split
    next e => exact ((h.updStream ..).packetRead ..).left e
    next e => exact (((h.updStream ..).packetRead ..).left e).haltStream ..
    next e =>
      have hu := ((h.updStream ..).packetRead ..).left e
      split
      · exact hu.dropArrived ..
      · split
        · exact hu.haltStream ..
        · exact hu.readRest ..

theorem MemOk.goOn (p st) : MemOk (goOn s p st) := by
  unfold Machine.goOn
  split
  · exact h
  · exact .ite (h.updStream ..) (h.lookPacket ..)

theorem MemOk.idleSees (p st) : MemOk (idleSees s p st) := by
  unfold Machine.idleSees
  split
  · exact h
  · split
    · exact h
    · split
      · exact h.haltStream ..
      · exact h.lookPacket ..

theorem MemOk.seeTail (p st v) : MemOk (seeTail s p st v) := by
  unfold Machine.seeTail
  dsimp only
  split
  · exact h.updStream ..
  · split
    · exact h.updStream ..
    · split
      · exact (h.updStream ..).idleSees ..
      · exact .ite ((h.updStream ..).lookPacket ..) (h.updStream ..)
      · exact h.updStream ..

theorem MemOk.watchTail (p st) : MemOk (watchTail s p st) := by
  unfold Machine.watchTail
  split
  · exact h
  · split
    · exact h
    · split
      next e => exact (h.feAcquire ..).left e
      next e => exact ((h.feAcquire ..).left e).haltStream ..
      next e => exact .ite (((h.feAcquire ..).left e).dropArrived ..) ((((h.feAcquire ..).left e).dropArrived ..).seeTail ..)

theorem MemOk.zeroSlots (p st x n) : MemOk (zeroSlots p st x n s) := by
  induction n generalizing s with
  | zero => exact h
  | succ n ih =>
    unfold Machine.zeroSlots
    dsimp only
    split
    next e => exact (((ih h).translate ..).left e).unitWrite ..
    next e => exact ((ih h).translate ..).left e

theorem MemOk.leaveSlots (p st n) : MemOk (leaveSlots s p st n) := by
  unfold Machine.leaveSlots
  split
  · exact h
  · exact (h.zeroSlots ..).updStream ..

theorem MemOk.leaveBuffer (p st n j) : MemOk (leaveBuffer s p st n j) :=
  .ite ((h.updStream ..).lookPacket ..) (MemOk.goOn (.ite (((h.updStream ..).leaveSlots ..).raisePart ..) ((h.updStream ..).leaveSlots ..)) ..)

theorem MemOk.dispatched (p st) : MemOk (dispatched s p st) := by
  unfold Machine.dispatched
  split
  · exact h
  · split
    · exact h
    · split
      · exact h.leaveBuffer ..
      · exact (h.leaveSlots ..).goOn ..

theorem MemOk.dispatchedComplete (p st k) : MemOk (dispatchedComplete s p st k) :=
  MemOk.dispatched (.ite (h.raisePart ..) h) ..

theorem MemOk.dispatchedWork (p st k r) : MemOk (dispatchedWork s p st k r) := (h.updStream ..).dispatched ..
theorem MemOk.waitPacket (p st) : MemOk (waitPacket s p st) := h.updStream ..

theorem MemOk.onPacket (p st typ again checks k) (keeps : ∀ u x, MemOk u → MemOk (k u x)) : MemOk (onPacket s p st typ again checks k) := by
  unfold Machine.onPacket
  split
  · exact h
  · split
    · exact h.haltPacket ..
    · exact keeps _ _ h

/-! ### Packets -/

theorem MemOk.enterPool (p st k r parent) : MemOk (enterPool s p st k r parent) := by
  unfold Machine.enterPool
  dsimp only
  split
  · exact h.waitPacket ..
  · split
    · exact .ite (h.waitPacket ..) ((MemOk.addGrid (.ite h (h.updGrid ..)) ..).dispatchedWork ..)
    · exact .ite (h.waitPacket ..) ((h.addGrid ..).dispatchedWork ..)

theorem MemOk.doLaunch (p st k) : MemOk (doLaunch s p st k) := by
  unfold Machine.doLaunch
  split
  next e => exact ((h.feRead ..).left e).waitPacket ..
  next e => exact ((h.feRead ..).left e).haltPacket ..
  next e =>
    have hu := (h.feRead ..).left e
    dsimp only
    split
    · exact (hu.dropArrived ..).haltPacket ..
    · split
      · exact (hu.dropArrived ..).haltPacket ..
      · exact (hu.dropArrived ..).enterPool ..

theorem MemOk.handOver (p st k kind) : MemOk (handOver s p st k kind) := by
  unfold Machine.handOver
  split
  · exact h.waitPacket ..
  · exact (h.addCmd ..).dispatchedWork ..

theorem MemOk.doCopy (p st k) : MemOk (doCopy s p st k) := by
  unfold Machine.doCopy
  split
  · exact h.haltPacket ..
  · exact h.handOver ..

theorem MemOk.doColl (p st k) : MemOk (doColl s p st k) := by
  unfold Machine.doColl
  split
  · exact h.haltPacket ..
  · exact h.handOver ..

theorem MemOk.afterEarlier (p st k go) (keeps : ∀ u, MemOk u → MemOk (go u)) : MemOk (afterEarlier s p st k go) := by
  unfold Machine.afterEarlier
  split
  · exact h
  · exact .ite (h.waitPacket ..) (.ite (keeps _ h) ((h.updStream ..).haltPacket ..))

theorem MemOk.signal (p st k) : MemOk (signal s p st k) := by
  unfold Machine.signal
  dsimp only
  split
  · exact h.dispatchedComplete ..
  · split
    next e => exact ((h.translate ..).left e).haltStream ..
    next e =>
      exact .ite (((h.translate ..).left e).waitPacket ..) (.ite (.ite (((h.translate ..).left e).haltStream ..)
        ((((h.translate ..).left e).decrementAt ..).dispatchedComplete ..)) ((((h.translate ..).left e).startDecrement ..).dispatchedWork ..))

theorem MemOk.doSemsig (p st k) : MemOk (doSemsig s p st k) := h.afterEarlier _ _ _ _ fun _ hu => hu.signal ..
theorem MemOk.doFence (p st k) : MemOk (doFence s p st k) := h.afterEarlier _ _ _ _ fun _ hu => hu.dispatchedComplete ..

theorem MemOk.doSemwait (p st k) : MemOk (doSemwait s p st k) := by
  unfold Machine.doSemwait
  split
  next e => exact ((h.feAcquire ..).left e).waitPacket ..
  next e => exact ((h.feAcquire ..).left e).haltStream ..
  next e => exact .ite ((((h.feAcquire ..).left e).dropArrived ..).dispatchedComplete ..) ((((h.feAcquire ..).left e).dropArrived ..).waitPacket ..)

theorem MemOk.doTimewait (p st k) : MemOk (doTimewait s p st k) := .ite (h.dispatchedComplete ..) (h.waitPacket ..)
theorem MemOk.doJump (p st k) : MemOk (doJump s p st k) := (h.updStream ..).lookPacket ..
theorem MemOk.execNopPacket (p st) : EndsOk (execNopPacket p st s) := h.onPacket _ _ _ _ _ _ fun _ _ hu => hu.dispatchedComplete ..
theorem MemOk.execLaunchPacket (p st) : EndsOk (execLaunchPacket p st s) := h.onPacket _ _ _ _ _ _ fun _ _ hu => hu.doLaunch ..
theorem MemOk.execCopyPacket (p st) : EndsOk (execCopyPacket p st s) := h.onPacket _ _ _ _ _ _ fun _ _ hu => hu.doCopy ..
theorem MemOk.execCollPacket (p st) : EndsOk (execCollPacket p st s) := h.onPacket _ _ _ _ _ _ fun _ _ hu => hu.doColl ..
theorem MemOk.execSemwaitPacket (p st) : EndsOk (execSemwaitPacket p st s) := h.onPacket _ _ _ _ _ _ fun _ _ hu => hu.doSemwait ..
theorem MemOk.execSemsigPacket (p st) : EndsOk (execSemsigPacket p st s) := h.onPacket _ _ _ _ _ _ fun _ _ hu => hu.doSemsig ..
theorem MemOk.execTimewaitPacket (p st) : EndsOk (execTimewaitPacket p st s) := h.onPacket _ _ _ _ _ _ fun _ _ hu => hu.doTimewait ..
theorem MemOk.execFencePacket (p st) : EndsOk (execFencePacket p st s) := h.onPacket _ _ _ _ _ _ fun _ _ hu => hu.doFence ..
theorem MemOk.execJumpPacket (p st) : EndsOk (execJumpPacket p st s) := h.onPacket _ _ _ _ _ _ fun _ _ hu => hu.doJump ..

theorem MemOk.writeTail (p st v) : MemOk (writeTail s p st v) := by
  unfold Machine.writeTail
  dsimp only
  split
  · exact h.updStream ..
  · exact .ite (h.updStream ..) ((h.updStream ..).seeTail ..)

theorem MemOk.enableStream (p st) : MemOk (enableStream s p st) := by
  unfold Machine.enableStream
  split
  · exact h
  · exact .ite h (.ite ((h.updStream ..).watchTail ..) ((h.updStream ..).idleSees ..))

theorem MemOk.disableStream (p st) : MemOk (disableStream s p st) := (MemOk.dropArrived (by exact h) ..).updStream ..
theorem MemOk.zeroStream (p st) : MemOk (zeroStream s p st) := h.updStream ..

theorem MemOk.resumeStream (p st) : MemOk (resumeStream s p st) := by
  unfold Machine.resumeStream
  split
  · exact h
  · exact .ite ((h.updStream ..).goOn ..) h

theorem MemOk.skipPacket (p st) : MemOk (skipPacket s p st) := by
  unfold Machine.skipPacket
  split
  · exact h
  · split
    · exact h
    · dsimp only
      split
      · exact (h.updStream ..).leaveBuffer ..
      · exact ((h.updStream ..).updStream ..).goOn ..

theorem MemOk.execHeaderReread (p st) : EndsOk (execHeaderReread p st s) := by
  unfold Machine.execHeaderReread
  split
  · exact h
  · exact MemOk.ite (h.lookPacket ..) h

/-! ### The light walker -/

theorem MemOk.updWalk (id f) : MemOk (s.updWalk id f) := h
theorem MemOk.dropWalk (id) : MemOk (dropWalk s id) := h
theorem MemOk.sendWalk (g d a b l) : MemOk (sendWalk g d a b s l) := h

theorem MemOk.execLwalk (gd d a b) : EndsOk (execLwalk gd d a b s) :=
  h.laneIssue _ _ _ fun _ _ _ hu => .ite (hu.block ..) ((MemOk.hold (.foldl (fun _ _ hu => hu.sendWalk ..) (hu.countUp ..) _) ..).trapEnter ..)

theorem MemOk.walkReturn (w emitter pdf) : MemOk (walkReturn s w emitter pdf) :=
  ((((h.updLane ..).writeDest ..).countDown ..).dropWalk ..).passLanes ..

theorem MemOk.walkLevel (w b) : MemOk (walkLevel s w b) := by
  unfold Machine.walkLevel
  split
  · exact h.walkReturn ..
  · dsimp only
    exact .ite (h.walkReturn ..) (.ite (h.walkReturn ..) (h.updWalk ..))

theorem MemOk.execLwalkNodeRead (id) : EndsOk (execLwalkNodeRead id s) := by
  unfold Machine.execLwalkNodeRead
  split
  · exact h
  · split
    · exact h
    · split
      next e => exact (h.unitRead ..).left e
      next e => exact ((((((h.unitRead ..).left e).dropArrived ..).dropWalk ..).countDown ..).updLane ..).parkLanes ..
      next e => exact (((h.unitRead ..).left e).dropArrived ..).walkLevel ..

/-! ### Marches -/

theorem MemOk.updMarch (id f) : MemOk (s.updMarch id f) := h
theorem MemOk.dropMarch (id) : MemOk (dropMarch s id) := h
theorem MemOk.startMarch (g d a b l) : MemOk (startMarch g d a b s l) := h

theorem MemOk.startMarches (g d a b xs) : MemOk (startMarches g d a b s xs).1 := by
  induction xs generalizing s with
  | nil => exact h
  | cons x xs ih =>
    unfold Machine.startMarches
    dsimp only
    split
    · exact .ite_fst (ih (h.dropMarch ..)) (ih (((h.dropMarch ..).startMarch ..).countUp ..))
    · exact .ite_fst (ih h) (ih ((h.startMarch ..).countUp ..))

theorem MemOk.execMarch (gd d a b) : EndsOk (execMarch gd d a b s) := by
  unfold Machine.execMarch
  refine h.laneIssue _ _ _ fun g y u hu => ?_
  split
  · exact hu.block ..
  · split
    next e => exact .ite ((hu.startMarches ..).left e) (((hu.startMarches ..).left e).block ..)

theorem MemOk.resumeMarch (g d l) : MemOk (resumeMarch g d s l) := by
  unfold Machine.resumeMarch
  split
  · exact (h.countUp ..).updMarch ..
  · exact h.writeDest ..

theorem MemOk.execMarchRes (gd d a b) : EndsOk (execMarchRes gd d a b s) :=
  h.laneIssue _ _ _ fun _ _ _ hu => .ite (hu.block ..) (.foldl (fun _ _ hu => hu.resumeMarch ..) hu _)

theorem MemOk.landEvent (m bytes frees) : MemOk (landEvent s m bytes frees) :=
  .ite ((((h.dropArrived ..).writeDest ..).countDown ..).dropMarch ..) ((((h.dropArrived ..).writeDest ..).countDown ..).updMarch ..)

theorem MemOk.endMarch (m status) : MemOk (endMarch s m status) := h.landEvent ..

theorem MemOk.marchFault (m path cause level addr) : MemOk (marchFault s m path cause level addr) := by
  unfold Machine.marchFault
  dsimp only
  exact .ite (((h.dropArrived ..).pauseUnit ..).updMarch ..) ((h.dropArrived ..).endMarch ..)

theorem MemOk.moveOn (m next) : MemOk (moveOn s m next) := by
  unfold Machine.moveOn
  split
  · exact h.endMarch ..
  · exact .ite (h.endMarch ..) ((h.dropArrived ..).updMarch ..)

theorem MemOk.skipCell (m v c malformed) : MemOk (skipCell s m v c malformed) := h.moveOn ..

theorem MemOk.surfaceCell (m v c) : MemOk (surfaceCell s m v c) := by
  unfold Machine.surfaceCell
  split
  next e => exact (h.unitRead ..).left e
  next e => exact ((h.unitRead ..).left e).marchFault ..
  next e =>
    exact .ite (((h.unitRead ..).left e).skipCell ..) (.ite ((h.unitRead ..).left e)
      (((((h.unitRead ..).left e).addRay ..).dropArrived ..).updMarch ..))

theorem MemOk.surfaceDone (m r v c) : MemOk (surfaceDone s m r v c) := by
  unfold Machine.surfaceDone
  split
  · exact (h.dropRay ..).landEvent ..
  · exact (h.dropRay ..).moveOn ..

theorem MemOk.fieldCell (m v c) : MemOk (fieldCell s m v c) := by
  unfold Machine.fieldCell
  split
  · exact h.skipCell ..
  · split
    next e => exact (h.unitRead ..).left e
    next e => exact ((h.unitRead ..).left e).marchFault ..
    next e =>
      have hu := (h.unitRead ..).left e
      split
      · exact hu.skipCell ..
      · split
        · exact hu.skipCell ..
        · dsimp only
          split
          next e => exact ((hu.unitReads ..).left e).marchFault ..
          next e => exact (hu.unitReads ..).left e
          next e => exact ((hu.unitReads ..).left e).landEvent ..

theorem MemOk.cellStep (m v c) : MemOk (cellStep s m v c) := by
  unfold Machine.cellStep
  split
  next e => exact (h.unitRead ..).left e
  next e => exact ((h.unitRead ..).left e).marchFault ..
  next e =>
    have hu := (h.unitRead ..).left e
    split
    · exact hu.skipCell ..
    · exact hu.surfaceCell ..
    · exact hu.fieldCell ..
    · exact hu.skipCell ..

theorem MemOk.execMarchEvent (id) : EndsOk (execMarchEvent id s) := by
  unfold Machine.execMarchEvent
  split
  · exact h
  next m _ =>
    have read := h.unitRead id (m.who 5) .read m.grid 64
    split
    · exact h
    · split
      · exact MemOk.ite (h.endMarch ..) h
      · split
        next e => exact (h.unitRead ..).left e
        next e =>
          have hu := (h.unitRead ..).left e
          exact MemOk.ite (hu.marchFault ..) hu
        next e =>
          have hu := (h.unitRead ..).left e
          dsimp only
          split
          · exact MemOk.ite (hu.endMarch ..) (hu.moveOn ..)
          · exact MemOk.ite (hu.endMarch ..) (hu.cellStep ..)
          · split
            · exact MemOk.ite (hu.surfaceDone ..) hu
            · exact hu
          · exact hu

/-! ### Moves of teams -/

theorem MemOk.putImage (i) : MemOk (putImage s i) := h
theorem MemOk.loadSlicePoison (i team off) : MemOk (loadSlicePoison s i team off) := h
theorem MemOk.stowTeam (t) : MemOk (stowTeam s t) := MemOk.settleVacated (by exact h.relocate ..)

theorem MemOk.resumeReleased (team) : MemOk (resumeReleased s team) :=
  .foldl (fun _ _ hu => hu.unrecoverable ..)
    (by exact (MemOk.foldl (fun _ _ hu => .foldl (fun _ _ hu => hu.replayLane ..) hu _) h _).of_eq rfl rfl rfl) _

theorem MemOk.loadUnits (addr t) : MemOk (loadUnits s addr t) := h

theorem MemOk.loadImage (i team) : MemOk (loadImage s i team) := by
  unfold Machine.loadImage
  dsimp only
  split
  · exact MemOk.updTeam (.foldl (fun _ _ hu => hu.updGroup ..) ((h.loadUnits ..).loadSlicePoison ..) _) ..
  · exact MemOk.updTeam (.foldl (fun _ _ hu => hu.updGroup ..) (h.loadSlicePoison ..) _) ..

theorem MemOk.restoreTeam (t core spbase slots) : MemOk (restoreTeam s t core spbase slots) := by
  unfold Machine.restoreTeam
  dsimp only
  split
  · exact MemOk.testClusterBar (by exact (((h.relocate ..).updTeam ..).resumeReleased ..).of_eq rfl rfl rfl) ..
  · exact MemOk.testClusterBar
      (by exact ((MemOk.updTeam (by exact (((h.relocate ..).loadImage ..).loadScratch ..).of_eq rfl rfl rfl) ..).resumeReleased ..).of_eq rfl rfl rfl) ..

/-! ### Placement -/

theorem MemOk.startTeam (gr linear core) : MemOk (startTeam s gr linear core) := by
  unfold Machine.startTeam
  dsimp only
  split
  · split
    · split
      · exact MemOk.putImage (by exact h) ..
      · exact h
    · exact h
  · exact h

theorem MemOk.resumeTeam (gr t core) : MemOk (resumeTeam s gr t core) := by
  unfold Machine.resumeTeam
  split
  · exact h.restoreTeam ..
  · exact h

theorem MemOk.fillRect (gr roles cores) : MemOk (fillRect s gr roles cores) := by
  unfold Machine.fillRect
  refine (MemOk.updGrid (.foldl (fun u x hu => ?_) h _) ..).updPart ..
  split
  · exact hu.startTeam ..
  · exact hu.resumeTeam ..
  · exact hu

theorem MemOk.placeNext {gr t} (e : placeNext s gr = some t) : MemOk t := by
  unfold Machine.placeNext at e
  grind [MemOk.abortGrid, MemOk.fillRect]

/-! ### The Deadbolt -/

theorem MemOk.homeLanes (team) : MemOk (homeLanes s team) := .foldl (fun _ _ hu => .foldl (fun _ _ hu => hu.swapBack ..) hu _) h _
theorem MemOk.freezeUnits (t) : MemOk (freezeUnits s t) := h
theorem MemOk.setDb (team d) : MemOk (setDb s team d) := h.updTeam ..
theorem MemOk.releaseTeam (team) : MemOk (releaseTeam s team) := h.updTeam ..
theorem MemOk.setPe (p v) : MemOk (setPe s p v) := h.updPart ..
theorem MemOk.askRetire (core) : MemOk (askRetire s core) := .ite h (by exact h)

theorem MemOk.scanTeam (t) : MemOk (scanTeam s t) := by
  unfold Machine.scanTeam
  split
  · exact h
  · split
    · exact h.setDb ..
    · split
      · exact ((h.releaseTeam ..).askRetire ..).recoverTeam ..
      · dsimp only
        split
        · exact h.setPe ..
        · exact (((h.setPe ..).writeImage ..).putImage ..).setDb ..

theorem MemOk.closeCut (t) : MemOk (closeCut s t) := ((h.writeImage ..).putImage ..).stowTeam ..
theorem MemOk.closeCheckpoint (t) : MemOk (closeCheckpoint s t) := ((h.writeImage ..).releaseTeam ..).putImage ..
theorem MemOk.loadCheckpointScratch (t i) : MemOk (loadCheckpointScratch s t i) := .ite (h.loadScratch ..) h

theorem MemOk.loadCheckpoint (t i slots) : MemOk (loadCheckpoint s t i slots) :=
  (MemOk.updTeam (.ite (MemOk.loadSlicePoison (by exact (MemOk.loadCheckpointScratch (by exact h) ..).of_eq rfl rfl rfl) ..)
    (by exact (MemOk.loadCheckpointScratch (by exact h) ..).of_eq rfl rfl rfl)) ..).releaseTeam ..

theorem MemOk.closeRollback (t) : MemOk (closeRollback s t) := by
  unfold Machine.closeRollback
  split
  · exact h.abortGrid ..
  · split
    · exact h.abortGrid ..
    · exact h
    · split
      · exact .ite (h.loadCheckpoint ..) h
      · exact h

theorem MemOk.inDb (team d k) (keeps : ∀ u x, MemOk u → MemOk (k u x)) : MemOk (inDb s team d k) := by
  unfold Machine.inDb
  split
  · exact h
  · exact .ite (keeps _ _ h) h

theorem MemOk.closeTeam (t) : MemOk (closeTeam s t) := by
  unfold Machine.closeTeam
  split
  · exact h.closeCut ..
  · exact h.closeCheckpoint ..
  · exact h.closeRollback ..
  · exact h.setDb ..

theorem MemOk.drainDone (t) : MemOk (drainDone s t) := by
  unfold Machine.drainDone
  split
  · exact h
  · dsimp only
    split
    · exact (h.homeLanes ..).closeTeam ..
    · exact h.homeLanes ..

theorem MemOk.askDeadbolt (t k) : MemOk (askDeadbolt s t k) := by
  unfold Machine.askDeadbolt
  split
  · exact h
  · split
    · exact .ite (h.recoverTeam ..) h
    · exact h.requestDeadbolt ..

theorem MemOk.execDeadboltRequest (team kind) : EndsOk (execDeadboltRequest team kind s) := by
  unfold Machine.execDeadboltRequest
  split
  · exact h
  · split
    · exact MemOk.ite (h.takeLatch ..) (h.askDeadbolt ..)
    · exact h.askDeadbolt ..

theorem MemOk.execShadowQueuesEmpty (team) : EndsOk (execShadowQueuesEmpty team s) :=
  h.inDb _ _ _ fun _ _ hu => .ite (hu.setDb ..) hu

theorem MemOk.execDeadboltFreeze (team) : EndsOk (execDeadboltFreeze team s) := h.inDb _ _ _ fun _ _ hu => (hu.updTeam ..).freezeUnits ..
theorem MemOk.execDeadboltScanDone (team) : EndsOk (execDeadboltScanDone team s) := h.inDb _ _ _ fun _ _ hu => hu.scanTeam ..

theorem MemOk.execSaveAreaAvailable (team) : EndsOk (execSaveAreaAvailable team s) :=
  h.inDb _ _ _ fun _ _ hu => .ite (hu.scanTeam ..) hu

theorem MemOk.execDeadboltDrainDone (team) : EndsOk (execDeadboltDrainDone team s) := h.inDb _ _ _ fun _ _ hu => hu.drainDone ..

theorem MemOk.execPreemptDeadlineExpire (team) : EndsOk (execPreemptDeadlineExpire team s) := by
  unfold Machine.execPreemptDeadlineExpire
  split
  · exact h
  · split
    · exact MemOk.ite (h.beginDeadbolt ..) h
    · exact h

theorem MemOk.execMigrationStart (team core) : EndsOk (execMigrationStart team core s) := by
  unfold Machine.execMigrationStart
  split
  · exact h
  · exact MemOk.ite ((h.updTeam ..).requestDeadbolt ..) h

theorem MemOk.execMigrationCopyDone (team) : EndsOk (execMigrationCopyDone team s) := by
  unfold Machine.execMigrationCopyDone
  refine h.inDb _ _ _ fun u x hu => ?_
  split
  · exact hu
  · split
    · exact .ite hu (((MemOk.updTeam (by exact (hu.relocate ..).of_eq rfl rfl rfl) ..).releaseTeam ..).settleVacated)
    · exact hu

theorem MemOk.execForwardEntryExpire (core entry) : EndsOk (execForwardEntryExpire core entry s) := by
  unfold Machine.execForwardEntryExpire
  split
  · exact h
  · exact MemOk.ite (by exact h) h

theorem MemOk.dropStale (f) : MemOk (dropStale s f) := by
  unfold Machine.dropStale
  split
  · split
    · exact (h.dropFlight ..).failCmd ..
    · exact h.dropFlight ..
  · exact h.failFlight ..

theorem MemOk.execForwardedMessage (id core slot) : EndsOk (execForwardedMessage id core slot s) := by
  unfold Machine.execForwardedMessage
  split
  · exact h
  · split
    · exact h
    · split
      · split
        · exact h.setFlight ..
        · exact h.dropStale ..
      · exact MemOk.ite (h.dropStale ..) h

/-! ### Graphs and grids -/

theorem MemOk.nodeRecord (p st a) : MemOk (nodeRecord s p st a).1 := by
  unfold Machine.nodeRecord
  split
  · exact h
  · split
    next e => exact (h.feRead ..).left e
    next e => exact (h.feRead ..).left e
    next e =>
      have hu := (h.feRead ..).left e
      split
      · exact hu
      · exact hu

theorem MemOk.nodeOf (p st nodetab succtab nnodes n b succ) : MemOk (nodeOf s p st nodetab succtab nnodes n b succ).1 := by
  unfold Machine.nodeOf
  simp only
  split
  · exact h
  · split
    · exact h
    · split
      · have record := h.nodeRecord p st (fieldAt b 8 8)
        split <;> simp_all
      · exact h

theorem MemOk.nodesFrom (p st nodetab succtab nnodes succ fuel n tab) : MemOk (nodesFrom p st nodetab succtab nnodes succ fuel n tab s).1 := by
  induction fuel generalizing s n tab with
  | zero => exact h
  | succ fuel ih =>
    unfold Machine.nodesFrom
    split
    next e => exact (h.nodeOf ..).left e
    next e =>
      have hu := (h.nodeOf ..).left e
      split
      next e => exact (ih hu _ _).left e
      · exact ih hu _ _

theorem MemOk.readGraph (p st a) : MemOk (readGraph s p st a).1 := by
  have header := h.feRead p st a 64
  unfold Machine.readGraph
  split
  next e => exact header.left e
  next e => exact header.left e
  next s₁ d e =>
    have header := header.left e
    split
    · exact header
    · dsimp only
      split
      next e => exact (header.feRead ..).left e
      next e => exact (header.feRead ..).left e
      next e =>
        have hu := (header.feRead ..).left e
        split
        next e => exact (hu.feRead ..).left e
        next e => exact (hu.feRead ..).left e
        next e =>
          have hv := (hu.feRead ..).left e
          split
          next e => exact (hv.nodesFrom ..).left e
          · exact hv.nodesFrom ..

theorem MemOk.reserveGraph (p st k g) : MemOk (reserveGraph s p st k g) :=
  .ite (h.waitPacket ..) (MemOk.dispatchedWork (by exact h) ..)

theorem MemOk.doGraph (p st k) : MemOk (doGraph s p st k) := by
  unfold Machine.doGraph
  split
  · exact h.reserveGraph ..
  · split
    next e => exact ((h.readGraph ..).left e).waitPacket ..
    next e => exact ((h.readGraph ..).left e).haltStream ..
    next e =>
      have hu := (h.readGraph ..).left e
      exact MemOk.reserveGraph (by exact hu) ..

theorem MemOk.execGraphPacket (p st) : EndsOk (execGraphPacket p st s) := h.onPacket _ _ _ _ _ _ fun _ _ hu => hu.doGraph ..

theorem MemOk.againPacket (p st k) : MemOk (againPacket s p st k) := by
  unfold Machine.againPacket
  split
  · exact h.doLaunch ..
  · exact h.doGraph ..
  · exact h.doCopy ..
  · exact h.doColl ..
  · exact h.doSemwait ..
  · exact h.doSemsig ..
  · exact h.doTimewait ..
  · exact h.doFence ..
  · exact h

theorem MemOk.execWaitConditionMet (p st) : EndsOk (execWaitConditionMet p st s) := by
  unfold Machine.execWaitConditionMet
  split
  · exact h
  · split
    · exact MemOk.ite (h.againPacket ..) h
    · exact h

theorem MemOk.startNode {g n x t} (e : startNode s g n x = some t) : MemOk t := by
  unfold Machine.startNode at e
  split at e
  · split at e
    · cases e
    · exact (h.addGrid _).placeNext e
  · cases e
  · obtain ⟨k, -, rfl⟩ := Option.map_eq_some_iff.1 e
    exact h.addChain (nodeChain s g n x k)

theorem MemOk.tryNode {g n t} (e : tryNode s g n = some t) : MemOk t := by
  unfold Machine.tryNode at e
  grind [MemOk.startNode]

theorem MemOk.readNodeTail (graph node) : MemOk (readNodeTail s graph node) := by
  unfold Machine.readNodeTail
  split
  · exact h.loadChain ..
  · exact h

theorem MemOk.execNodeDispatch (graph node) : EndsOk (execNodeDispatch graph node s) := by
  unfold Machine.execNodeDispatch
  split
  · exact h
  · split
    · exact h
    next e => exact MemOk.ite h (((h.tryNode e).updGraph ..).readNodeTail ..)

theorem MemOk.execTeamPlace (p gs) : EndsOk (execTeamPlace p gs s) := by
  have placed (gr) : MemOk ((Machine.placeNext s gr).getD s) := h.getD fun _ => h.placeNext
  unfold Machine.execTeamPlace
  split
  · exact h
  · exact MemOk.ite (.getD h fun _ => h.placeNext) h

theorem MemOk.failGraphSignal (g) : MemOk (failGraphSignal s g) :=
  MemOk.raisePart (by exact h.logEvent ..) ..

theorem MemOk.finishGraph (g) : MemOk (finishGraph s g) := by
  have dec := h.completionDecrement g.id (whoFe g.part) g.tumb g.amount g.scope
  unfold Machine.finishGraph
  grind [MemOk, Decrement.state, MemOk.failGraphSignal, MemOk.workDone]

theorem MemOk.releaseChain (g n) : MemOk (releaseChain s g n) := h

theorem MemOk.execNodeComplete (graph node) : EndsOk (execNodeComplete graph node s) := by
  unfold Machine.execNodeComplete
  split
  · exact h
  · exact MemOk.ite h (.ite ((h.releaseChain ..).finishGraph ..) (by exact h))

theorem MemOk.finishGrid (gr) : MemOk (finishGrid s gr) := by
  unfold Machine.finishGrid
  dsimp only
  split
  · exact MemOk.workDone (by exact h) ..
  · exact h

theorem MemOk.execGridComplete (p gs) : EndsOk (execGridComplete p gs s) := by
  unfold Machine.execGridComplete
  split
  · exact h
  next gr _ =>
    have dec := h.completionDecrement gr.id gr.who gr.rcd.tumb gr.rcd.amount gr.rcd.tscope
    grind [EndsOk, Decrement.state, MemOk.failGrid, MemOk.logEvent, MemOk.finishGrid]

/-! ### Periods and preemption -/

theorem MemOk.requestCuts (p) : MemOk (requestCuts s p) := by
  unfold Machine.requestCuts
  refine .foldl (fun u x hu => ?_) h _
  split
  · exact .ite (hu.requestDeadbolt ..) hu
  · exact hu

theorem MemOk.vacate (p die n above cls keep) : MemOk (vacate s p die n above cls keep) := .ite h ((h.updPart ..).requestCuts ..)
theorem MemOk.writePreempt (p v) : MemOk (writePreempt s p v) := .ite h (h.vacate ..)

theorem MemOk.execPreemptClassTrigger (p gs) : EndsOk (execPreemptClassTrigger p gs s) := by
  unfold Machine.execPreemptClassTrigger
  split
  · exact h
  · exact h.vacate ..

theorem MemOk.execWithholdExpire (p) : EndsOk (execWithholdExpire p s) := MemOk.ite h (h.updPart ..)
theorem MemOk.noteOversub : MemOk (noteOversub s) := h

theorem MemOk.execPeriodBoundary (p) : EndsOk (execPeriodBoundary p s) :=
  MemOk.ite ((h.updPart ..).noteOversub) h

theorem MemOk.writeFbHead (p v) : MemOk (writeFbHead s p v) := h.updPart ..
theorem MemOk.writeOdrHead (p v) : MemOk (writeOdrHead s p v) := h.updPart ..
theorem MemOk.writeRfHead (p v) : MemOk (writeRfHead s p v) := h.updPart ..

theorem MemOk.writeArea (p area v) : MemOk (writeArea s p area v) := by
  unfold Machine.writeArea
  dsimp only
  split
  · exact h
  · split
    · exact .ite (h.updPart ..) h
    · exact .ite (h.updPart ..) h
    · exact .ite (h.updPart ..) h
    · exact h

theorem MemOk.writeRfArea (p v) : MemOk (writeRfArea s p v) := .ite (h.updPart ..) h

/-! ### Partitions -/

theorem MemOk.clearUnits (die us) : MemOk (clearUnits s die us) := by
  obtain ⟨mem, scratch, chip⟩ := h
  refine ⟨mem, scratch, ?_⟩
  unfold Machine.clearUnits
  generalize s.chip = m at chip
  induction us generalizing m with
  | nil => exact chip
  | cons u us ih => exact ih _ (Mem.wf_clear chip ..)

theorem MemOk.clearCores (own) : MemOk (clearCores s own) := ⟨h.1, Mem.wf_filter h.2.1 _, h.2.2⟩

theorem MemOk.dropTlb (p) : MemOk (dropTlb s p) := h
theorem MemOk.claim (p u) : MemOk (claim s p u) := ((((h.clearCores ..).clearUnits ..).clearUnits ..).updPart ..).dropTlb ..
theorem MemOk.setErr (p e) : MemOk (setErr s p e) := h.updPart ..
theorem MemOk.commandDone (p own) : MemOk (commandDone s p own) := MemOk.raisePf (.ite ((h.updPart ..).raisePart ..) (h.updPart ..)) ..
theorem MemOk.command (f) (keeps : ∀ u, MemOk u → MemOk (f u)) : MemOk (command s f) := .ite (keeps _ h) h

theorem MemOk.createPartition (p) : MemOk (createPartition p s) := by
  unfold Machine.createPartition
  split
  · exact h.setErr ..
  · exact h.setErr ..
  · exact h.setErr ..
  · split
    · exact h.setErr ..
    · exact h.claim ..

theorem MemOk.execPartitionCreate (p) : EndsOk (execPartitionCreate p s) := h.command _ fun _ hu => hu.createPartition ..

theorem MemOk.resizePartition (p) : MemOk (resizePartition p s) := by
  unfold Machine.resizePartition
  split
  · exact h.setErr ..
  · exact h.setErr ..
  · exact h.setErr ..
  · split
    · exact h.setErr ..
    · exact (h.updPart ..).requestCuts ..

theorem MemOk.execPartitionResize (p) : EndsOk (execPartitionResize p s) := h.command _ fun _ hu => hu.resizePartition ..

theorem MemOk.badCommand (p) : MemOk (badCommand p s) := by
  unfold Machine.badCommand
  split
  · exact h.setErr ..
  · exact h.setErr ..
  · exact h.setErr ..
  · exact h.setErr ..

theorem MemOk.execPartitionCmdBadOp (p) : EndsOk (execPartitionCmdBadOp p s) := h.command _ fun _ hu => hu.badCommand ..
theorem MemOk.haltChains (p) : MemOk (haltChains s p) := (MemOk.foldl (fun _ _ hu => .ite (hu.writeDesc ..) hu) h _).of_eq rfl rfl rfl
theorem MemOk.dropAccesses (p) : MemOk (dropAccesses s p) := h
theorem MemOk.dropPartUnits (p) : MemOk (dropPartUnits s p) := h

theorem MemOk.purge (p) : MemOk (purge s p) :=
  ((((((MemOk.dropPartUnits (.foldl (fun _ _ hu => hu.dropCmd ..) (MemOk.haltChains (by exact (h.discardTeams ..).of_eq rfl rfl rfl) ..) _)
    ..).dropAccesses ..).dropTlb ..).clearCores ..).clearUnits ..).clearUnits ..).updPart ..

theorem MemOk.beginReset (p destroying scrub) : MemOk (beginReset s p destroying scrub) := (h.purge ..).updPart ..

theorem MemOk.resetPartition (p scrub) : MemOk (resetPartition p scrub s) := by
  unfold Machine.resetPartition
  split
  · exact h.setErr ..
  · exact h.setErr ..
  · exact h.setErr ..
  · exact (h.setErr ..).beginReset ..

theorem MemOk.execPartitionReset (p scrub) : EndsOk (execPartitionReset p scrub s) := h.command _ fun _ hu => hu.resetPartition ..

theorem MemOk.destroyPartition (p scrub) : MemOk (destroyPartition p scrub s) := by
  unfold Machine.destroyPartition
  split
  · exact h.setErr ..
  · exact h.setErr ..
  · exact (h.setErr ..).updPart ..
  · exact (h.setErr ..).beginReset ..

theorem MemOk.execPartitionDestroy (p scrub) : EndsOk (execPartitionDestroy p scrub s) := h.command _ fun _ hu => hu.destroyPartition ..

theorem MemOk.execPartitionFlr (p) : EndsOk (execPartitionFlr p s) := by
  unfold Machine.execPartitionFlr
  split
  · exact h.updPart ..
  · exact h.beginReset ..
  · exact h
  · exact h

theorem MemOk.scrubRange (r) : MemOk (scrubRange s r) := ⟨Mem.wf_clear h.1 .., h.2⟩

theorem MemOk.execPartitionResetComplete (p) : EndsOk (execPartitionResetComplete p s) :=
  MemOk.ite h (.ite ((MemOk.updPart (.ite (.foldl (fun _ _ hu => hu.scrubRange ..) h _) h) ..).commandDone ..)
    ((MemOk.updPart (.ite (.foldl (fun _ _ hu => hu.scrubRange ..) h _) h) ..).commandDone ..))

theorem MemOk.execPfFlr : EndsOk (execPfFlr s) := by grind [Machine.execPfFlr, MemOk, EndsOk, MemOk.foldl, MemOk.purge]
theorem MemOk.moveEngines (p) : MemOk (moveEngines s p) := h

theorem MemOk.applyResize (p u) : MemOk (applyResize s p u) :=
  .ite ((((((h.clearCores ..).clearUnits ..).clearUnits ..).updPart ..).moveEngines ..).dropTlb ..)
    (((((h.clearCores ..).clearUnits ..).clearUnits ..).updPart ..).moveEngines ..)

theorem MemOk.applied (p) : MemOk (applied s p) := .ite (h.beginReset ..) ((h.updPart ..).commandDone ..)

theorem MemOk.execPartitionApplyComplete (p) : EndsOk (execPartitionApplyComplete p s) := by
  unfold Machine.execPartitionApplyComplete
  dsimp only
  split
  · exact h
  · split
    · exact h.applied ..
    · exact MemOk.ite h ((h.applyResize ..).applied ..)

/-! ### Caddy and bring-up -/

theorem MemOk.updCaddy (f) : MemOk (s.updCaddy f) := h

theorem MemOk.execCaddyRestartComplete : EndsOk (execCaddyRestartComplete s) :=
  MemOk.ite h ((h.updCaddy ..).logEvent ..)

theorem MemOk.execLogFlush : EndsOk (execLogFlush s) := MemOk.ite (h.updCaddy ..) h

theorem MemOk.execLogRead (seqNo) : EndsOk (execLogRead seqNo s) := by
  unfold Machine.execLogRead
  split
  · exact h.send ..
  · exact h

theorem MemOk.execAttestRequest (nonce) : EndsOk (execAttestRequest nonce s) :=
  MemOk.ite (h.updCaddy ..) (h.send ..)

theorem MemOk.execAttestReport : EndsOk (execAttestReport s) := by
  unfold Machine.execAttestReport
  split
  · exact h
  · exact MemOk.ite h (.ite ((h.updCaddy ..).send ..) (h.updCaddy ..))

theorem MemOk.logRejected : MemOk (logRejected s) := h.logEvent ..

theorem MemOk.finishUpdate (u) : MemOk (finishUpdate s u) := by
  unfold Machine.finishUpdate
  dsimp only
  split
  · exact .ite (by exact h) (MemOk.logRejected (by exact h))
  · exact .ite (by exact h) (MemOk.logRejected (by exact h))

theorem MemOk.execFirmwareUpdate (u) : EndsOk (execFirmwareUpdate u s) := by
  unfold Machine.execFirmwareUpdate
  split
  · exact h
  · split
    · exact MemOk.ite (h.send ..) (h.updCaddy ..)
    · exact MemOk.ite (h.finishUpdate ..) (h.send ..)

theorem MemOk.writeConfig (f) : MemOk (writeConfig s f) := h.updCaddy ..
theorem MemOk.recordHinge (n lanes) : MemOk (recordHinge s n lanes) := h.writeConfig ..

theorem MemOk.execHingeLaneRepair (n lanes) : EndsOk (execHingeLaneRepair n lanes s) :=
  MemOk.ite h ((h.updHinge ..).recordHinge ..)

theorem MemOk.keptMem_wf : s.keptMem.wf = true := by
  unfold State.keptMem
  split
  · exact h.1
  · exact Mem.wf_filter h.1 _

theorem MemOk.resetModule : MemOk (resetModule s) := by
  unfold Machine.resetModule
  simp only
  split
  · exact MemOk.logEvent ⟨h.keptMem_wf, rfl, rfl⟩ ..
  · exact ⟨h.keptMem_wf, rfl, rfl⟩

theorem MemOk.bootTo (n) : MemOk (bootTo s n) := h.updCaddy ..
theorem MemOk.bootStop : MemOk (bootStop s) := h.updCaddy ..
theorem MemOk.runFirmware (slot) : MemOk (runFirmware s slot) := (h.updCaddy ..).bootTo ..
theorem MemOk.bootFirmware : MemOk (bootFirmware s) := .ite (h.runFirmware ..) (.ite (h.runFirmware ..) h.bootStop)

theorem MemOk.bootConfig (keyMatches) : MemOk (bootConfig s keyMatches) :=
  .ite (MemOk.bootTo (.ite (MemOk.updCaddy (.ite h h.logRejected) ..) ((MemOk.updCaddy (.ite h h.logRejected) ..).logEvent ..)) ..)
    (.ite (MemOk.bootTo (.ite (MemOk.updCaddy (.ite h h.logRejected) ..) ((MemOk.updCaddy (.ite h h.logRejected) ..).logEvent ..)) ..)
    (MemOk.bootStop (.ite (MemOk.logRejected (.ite h h.logRejected)) (.ite h h.logRejected))))

theorem MemOk.bootMemory (failed) : MemOk (bootMemory s failed) := (h.updCaddy ..).bootTo ..

theorem MemOk.bootLinks (r) : MemOk (bootLinks s r) :=
  MemOk.bootTo (by exact (MemOk.foldl (fun _ _ hu => hu.recordHinge ..) h _).of_eq rfl rfl rfl) ..

theorem MemOk.bootMap : MemOk (bootMap s) := ⟨h.1, rfl, rfl⟩

theorem MemOk.bootReady : MemOk (bootReady s) := h.updCaddy ..

theorem MemOk.execBringupStepComplete (r) : EndsOk (execBringupStepComplete r s) := by
  unfold Machine.execBringupStepComplete
  split
  · exact h
  · split
    · exact MemOk.ite (h.bootTo ..) h
    · exact MemOk.ite h.bootFirmware h.bootStop
    · exact MemOk.ite (h.bootConfig ..) h.bootStop
    · exact h.bootMemory ..
    · exact h.bootLinks ..
    · exact MemOk.ite h.bootMap h.bootStop
    · exact h.bootReady
    · exact h

theorem MemOk.noteRegion (die region n) : MemOk (noteRegion s die region n) :=
  .ite (h.updCaddy ..) ((((h.updCaddy ..).updCaddy ..).logEvent ..).writeConfig ..)

theorem MemOk.noteBlock (die b) : MemOk (noteBlock s die b) := by
  unfold Machine.noteBlock
  split
  · exact MemOk.logEvent (.ite h (by exact h)) ..
  · exact h

theorem MemOk.noteWord (u a) : MemOk (noteWord s u a) := by
  unfold Machine.noteWord
  dsimp only
  split
  · exact .foldl (fun _ _ hu => hu.requestCuts ..) ((MemOk.logEvent (.ite h (by exact h)) ..).askRetire ..) _
  · exact MemOk.logEvent (.ite h (by exact h)) ..

theorem MemOk.retireCore (core) : MemOk (retireCore s core) :=
  MemOk.logEvent (.ite (((MemOk.clearCores (by exact h) ..).updCaddy ..).writeConfig ..) (MemOk.writeConfig (by exact h) ..)) ..

theorem MemOk.execCoreRetire (core) : EndsOk (execCoreRetire core s) :=
  MemOk.ite h (.ite (.foldl (fun _ _ hu => hu.requestCuts ..) (h.askRetire ..) _) ((h.askRetire ..).retireCore ..))

theorem MemOk.retireSlice (die slice) : MemOk (retireSlice s die slice) := by
  unfold Machine.retireSlice
  dsimp only
  exact MemOk.writeConfig (by exact h) ..

theorem MemOk.execL2SliceRetire (die slice) : EndsOk (execL2SliceRetire die slice s) :=
  MemOk.ite h (h.retireSlice ..)

theorem MemOk.noteSoft (u) : MemOk (noteSoft s u) := by
  unfold Machine.noteSoft
  dsimp only
  split
  · exact .ite (((h.updCaddy ..).logEvent ..).updCaddy ..) ((((h.updCaddy ..).logEvent ..).updCaddy ..).retireSlice ..)
  · exact (h.updCaddy ..).logEvent ..

theorem MemOk.scrubRegions (die regions) : MemOk (scrubRegions s die regions) :=
  .ite (.foldl (fun _ _ hu => hu.noteRegion ..) (h.updCaddy ..) _) h

theorem MemOk.execScrubPeriod (die r) : EndsOk (execScrubPeriod die r s) :=
  MemOk.ite h (.foldl (fun _ _ hu => hu.noteWord ..) (.foldl (fun _ _ hu => hu.noteSoft ..)
    (.foldl (fun _ _ hu => hu.noteBlock ..) (h.scrubRegions ..) _) _) _)

/-! ### Words across lanes -/

theorem MemOk.crossCompute (gd srcs dsts f) : EndsOk (crossCompute s gd srcs dsts f) := h.laneIssue _ _ _ fun _ _ _ hu => hu.applyLanes ..
theorem MemOk.execCompress (gd d a b) : EndsOk (execCompress gd d a b s) := h.laneIssue _ _ _ fun _ _ _ hu => (hu.applyLanes ..).updGroup ..

/-! ### Replay and invalidation -/

theorem MemOk.noteRelease (g ls) : MemOk (noteRelease s g ls) := by
  unfold Machine.noteRelease
  split
  · exact h
  · simp only
    split
    · exact ⟨Mem.wf_foldl_write (f := fun m l => m.read _ ||| 4#8) (Mem.wf_writeBytes h.1 ..) ls, h.2⟩
    · exact h

theorem MemOk.releaseGroup (g n r) : MemOk (releaseGroup s g n r) := .ite ((h.updGroup ..).noteRelease ..) h
theorem MemOk.replayGroup (n g) : MemOk (replayGroup n s g) := .ite (h.releaseGroup ..) (.foldl (fun _ _ hu => hu.replayLane ..) h _)
theorem MemOk.endGroupWork (token g) : MemOk (endGroupWork token s g) := .ite (h.releaseGroup ..) (h.unrecoverable ..)
theorem MemOk.replayUnits (p n) : MemOk (replayUnits s p n) := h
theorem MemOk.replay (p n) : MemOk (replay s p n) := MemOk.replayUnits (.foldl (fun _ _ hu => hu.replayGroup ..) h _) ..
theorem MemOk.endChain (c) : MemOk (endChain s c) := (h.dropArrived ..).haltChain ..

theorem MemOk.endCmd (c) : MemOk (endCmd s c) := by
  unfold Machine.endCmd
  dsimp only
  split
  · exact ((h.dropArrived ..).updCmd ..).setWork ..
  · exact (h.dropArrived ..).failBlock ..

theorem MemOk.endRay (r cause) : MemOk (endRay s r cause) := (h.updRay ..).dropArrived ..
theorem MemOk.endMarchWork (m cause) : MemOk (endMarchWork s m cause) := (h.dropArrived ..).endMarch ..

theorem MemOk.eachLive {α : Type} (ids) (find : State → Nat → Option α) {act} (kact : ∀ u x, MemOk u → MemOk (act u x)) :
    MemOk (eachLive ids find act s) :=
  .foldl (fun u i hu => by
    split
    · exact kact _ _ hu
    · exact hu) h _

theorem MemOk.endUnits (p token) : MemOk (endUnits s p token) := by
  unfold Machine.endUnits
  refine .foldl (fun u m hu => by
    split
    · exact .ite (hu.endMarchWork ..) hu
    · exact hu) (.foldl (fun u r hu => by
      split
      · exact .ite (hu.endRay ..) hu
      · exact hu) ?_ _) _
  refine .eachLive (.eachLive (.eachLive h _ _ ?_) _ _ ?_) _ _ ?_
  · exact fun u j hu => hu.endJob ..
  · exact fun u c hu => hu.endCmd ..
  · exact fun u c hu => hu.endChain ..

theorem MemOk.endWork (p token) : MemOk (endWork s p token) := .ite h (MemOk.endUnits (.foldl (fun _ _ hu => hu.endGroupWork ..) h _) ..)

theorem MemOk.writeReplay (p v) : MemOk (writeReplay s p v) := by
  unfold Machine.writeReplay
  split
  · exact h.replay ..
  · exact h.replay ..
  · exact h.endWork ..
  · exact h

theorem MemOk.askInvalidate (p i) : MemOk (askInvalidate s p i) := h.updPart ..

theorem MemOk.writeTlbInv (p v) : MemOk (writeTlbInv s p v) := by
  unfold Machine.writeTlbInv
  split
  · exact h.askInvalidate ..
  · exact h.askInvalidate ..
  · exact h

theorem MemOk.dropEntries (p i) : MemOk (dropEntries s p i) := h

theorem MemOk.execTlbinvComplete (p) : EndsOk (execTlbinvComplete p s) := by
  unfold Machine.execTlbinvComplete
  split
  · exact h
  · exact MemOk.ite (h.dropEntries ..) ((h.dropEntries ..).updPart ..)

/-! ### Registers -/

theorem MemOk.writePfivmap (n v) : MemOk (writePfivmap s n v) := h
theorem MemOk.writeIvmap (p n v) : MemOk (writeIvmap s p n v) := h.updPart ..
theorem MemOk.writeMsix (p w n) : MemOk (writeMsix s p w n) := .ite (((h.updPart ..).updPart ..).send ..) (h.updPart ..)

theorem MemOk.writeControl (p w) : MemOk (writeControl s p w) :=
  .ite (h.writeFbHead ..) (.ite (h.updPart ..) (.ite (.ite (h.writeReplay ..) h)
    (.ite (.ite (h.writeTlbInv ..) h) (.ite (.ite (h.updPart ..) h) (.ite (h.updPart ..) (.ite (.foldl (fun _ _ hu => hu.writeIvmap ..) h _) h))))))

theorem MemOk.writeSch (p off w) : MemOk (writeSch s p off w) := by
  unfold Machine.writeSch
  dsimp only
  split
  · exact h.updPart ..
  · exact h.writeArea ..
  · exact h.writeArea ..
  · exact h.writeOdrHead ..
  · exact .ite (h.writePreempt ..) h
  · exact h.writeArea ..
  · exact h

theorem MemOk.writeMem (p off w) : MemOk (writeMem s p off w) := by
  unfold Machine.writeMem
  dsimp only
  split
  · exact h.writeRfArea ..
  · exact h.writeRfHead ..
  · exact h.updPart ..
  · exact h

theorem MemOk.writeL2 (p off w) : MemOk (writeL2 s p off w) := by
  unfold Machine.writeL2
  dsimp only
  split
  · exact h.updPart ..
  · exact h.updPart ..
  · exact h.updPart ..
  · exact h.updPart ..
  · exact h.updPart ..
  · exact h.updPart ..
  · exact h.updPart ..
  · exact h

theorem MemOk.writeQctl (p st x w) : MemOk (writeQctl s p st x w) :=
  .ite h (.ite (.ite h (h.disableStream ..)) (.ite (MemOk.enableStream (.ite ((h.updStream ..).zeroStream ..) (h.updStream ..)) ..)
    (.ite ((h.updStream ..).zeroStream ..) (h.updStream ..))))

theorem MemOk.writeStat (p st w) : MemOk (writeStat s p st w) := .ite (h.skipPacket ..) (.ite (h.resumeStream ..) h)

theorem MemOk.writeStream (p st off w) : MemOk (writeStream s p st off w) := by
  unfold Machine.writeStream
  split
  · exact h
  · dsimp only
    split
    · exact .ite h (h.updStream ..)
    · exact h.writeQctl ..
    · exact .ite (h.writeTail ..) h
    · exact .ite h (h.updStream ..)
    · exact h.updStream ..
    · exact h.writeStat ..
    · exact h

theorem MemOk.writePcmd (v) : MemOk (writePcmd s v) := by
  refine h.command _ fun u hu => ?_
  generalize v / 16 % 8 = op
  match op with
  | 1 => exact hu.createPartition _
  | 2 => exact hu.resizePartition _
  | 3 => exact hu.resetPartition ..
  | 4 => exact hu.destroyPartition ..
  | 0 | _ + 5 => exact hu.badCommand _

theorem MemOk.writeHif (w) : MemOk (writeHif s w) :=
  .ite (by exact h) (.ite (.ite (h.writePcmd ..) h) (.ite (by exact h)
    (.ite (h.updPart ..) (.ite (by exact h) (.ite (.foldl (fun _ _ hu => hu.writePfivmap ..) h _) h)))))

theorem MemOk.writePkg (w) : MemOk (writePkg s w) := by
  unfold Machine.writePkg
  split
  · exact .ite (h.writePwrcap ..) h
  · exact .ite (h.writeAdj ..) h
  · exact .ite (h.writeStep ..) h
  · exact h
  · exact h

theorem MemOk.writePfWindow (w) : MemOk (writePfWindow s w) := by
  unfold Machine.writePfWindow
  dsimp only
  split
  · exact h.writeHif ..
  · exact h.writeControl ..
  · exact h.writePkg ..
  · exact .ite (h.clearCrc ..) h
  · split
    · exact h.writeMem ..
    · exact h
  · split
    · exact h.writeSch ..
    · exact h
  · split
    · exact h.writeL2 ..
    · exact h
  · split
    · exact .ite (h.updPart ..) h
    · exact h
  · exact h

theorem MemOk.writePartWindow (p w) : MemOk (writePartWindow s p w) :=
  .ite (h.writeControl ..) (.ite (h.writeMsix ..) (.ite (h.writeStream ..) h))

theorem MemOk.writeRegister (fn off width v) : MemOk (writeRegister s fn off width v) := by
  unfold Machine.writeRegister
  split
  · exact h
  · split
    · exact h.writePfWindow ..
    · exact h.writePartWindow ..

theorem MemOk.execRegisterWrite (fn off width v) : EndsOk (execRegisterWrite fn off width v s) := by
  unfold Machine.execRegisterWrite
  split
  · exact h.send ..
  · split
    · exact h.writeRegister ..
    · exact h.send ..

/-! ### Shader control -/

theorem MemOk.shaderIssue (gd form body) (keeps : ∀ g y u, MemOk u → MemOk (body g y u)) : EndsOk (shaderIssue s gd form body) :=
  h.laneIssue _ _ _ fun _ _ _ hu => .ite (keeps _ _ _ hu) (hu.illop ..)

theorem MemOk.execHitattr (gd d n) : EndsOk (execHitattr gd d n s) := h.shaderIssue _ _ _ fun _ _ _ hu => hu.applyLanes ..

theorem MemOk.attrPage (g d b l) : MemOk (attrPage g d b s l) := by
  unfold Machine.attrPage
  dsimp only
  split
  · exact h.trapEnter ..
  · split
    · exact h.trapEnter ..
    · split
      next e => exact ((h.unitRead ..).left e).block ..
      next e => exact ((((h.unitRead ..).left e).dropArrived ..).hold ..).parkLanes ..
      next e => exact (((h.unitRead ..).left e).dropArrived ..).updGroup ..

theorem MemOk.execHitattrPg (gd d b) : EndsOk (execHitattrPg gd d b s) :=
  h.shaderIssue _ _ _ fun _ _ _ hu => .foldl (fun _ _ hu => hu.attrPage ..) hu _

theorem MemOk.leaveShader (core slot l id) : MemOk (leaveShader s core slot l id) := (h.updLane ..).swapBack ..

theorem MemOk.shaderReturn (gd form f ends) : EndsOk (shaderReturn s gd form f ends) := by
  unfold Machine.shaderReturn
  refine h.shaderIssue _ _ _ fun _ _ _ hu => MemOk.illop (.foldl (fun u x hu => ?_) hu _) ..
  split
  · exact hu
  · exact (hu.updRay ..).leaveShader ..

theorem MemOk.execIgnore (gd) : EndsOk (execIgnore gd s) := h.shaderReturn ..

/-! ### Fetches -/

theorem MemOk.takeQuarter (g) : MemOk (takeQuarter s g) := .ite (by exact h) h
theorem MemOk.fetchWord (g l pc) : MemOk (fetchWord s g l pc).1 := h.unitRead ..

theorem MemOk.fetchInstr (g l pc) : MemOk (fetchInstr s g l pc).1 := by
  unfold Machine.fetchInstr
  split
  next e => exact (h.fetchWord ..).left e
  next e => exact (h.fetchWord ..).left e
  next e =>
    have hu := (h.fetchWord ..).left e
    dsimp only
    split
    · split
      next e => exact (hu.fetchWord ..).left e
      next e => exact (hu.fetchWord ..).left e
      next e => exact (hu.fetchWord ..).left e
    · exact hu

theorem MemOk.fetchCohort (core slot lane) : MemOk (fetchCohort s core slot lane).state := by
  unfold Machine.fetchCohort
  grind [MemOk, Fetched.state, MemOk.fetchInstr, MemOk.parkLanes, MemOk.dropArrived, MemOk.takeQuarter]

theorem MemOk.reservedWord : MemOk (reservedWord s) := by
  unfold Machine.reservedWord
  split
  · exact h
  · exact h.runIssue _ fun _ hu => hu.illop ..

/-! ### Shadows -/

theorem MemOk.putShadow (hd) : MemOk (s.putShadow hd) := h

theorem MemOk.noteIssue (u b hd i) : MemOk (noteIssue u b hd i s) := by
  unfold Machine.noteIssue
  exact .ite (h.putShadow ..) h

theorem MemOk.withShadow (g hd) : MemOk (withShadow s g hd) := h.updGroup ..

theorem MemOk.shadowStep (ex hd) : MemOk (shadowStep ex s hd) := by
  unfold Machine.shadowStep
  split
  · exact h.putShadow ..
  · exact h

theorem MemOk.countMismatch (core) : MemOk (countMismatch s core) := .ite ((h.updCaddy ..).askRetire ..) (h.updCaddy ..)

theorem MemOk.mismatched (g v) : MemOk (mismatched s g v) :=
  .ite ((((h.runIssue _ fun _ hu => hu).logEvent ..).countMismatch ..).recoverTeam ..)
    ((((h.runIssue _ fun _ hu => hu).logEvent ..).countMismatch ..).updGroup ..)

theorem MemOk.compareIssue (ex i g hd v) (keeps : ∀ i u, MemOk u → EndsOk (ex i u)) : EndsOk (compareIssue ex i s g hd v) := by
  grind [Machine.compareIssue, EndsOk, MemOk.mismatched, MemOk.putShadow]

theorem MemOk.execShadowMismatch (core slot lane) : EndsOk (execShadowMismatch core slot lane s) := by
  have fetched := h.fetchCohort core slot lane
  unfold Machine.execShadowMismatch
  split
  · exact h
  · split
    · exact h
    · split
      · exact h
      · split
        · exact h
        next e =>
          rw [e] at fetched
          grind [EndsOk, Fetched.state, MemOk.mismatched]

/-- Every instruction and every event keeps the memories in canonical form. -/
theorem MemOk.exec (i : Instr) : EndsOk (exec i s) := by
  cases i with
  | addB32 | subB32 | mulB32 | mulhiS32 | mulhiN32 | absS32 | negS32 | minS32 | maxS32 | minN32 | maxN32 | minS64 | maxS64 | minN64 | maxN64 | addB64
    | subB64 | mulB64 | mulhiS64 | mulhiN64 | absS64 | negS64 | andB32 | orB32 | xorB32 | notB32 | popcB32 | clzB32 | ctzB32 | brevB32 | shlB32 |
    shrB32 | sraB32 | rotB32 | shlB64 | shrB64 | sraB64 | rotB64 | bfeS32 | bfeN32 | lea | cmpS32 | cmpN32 | cmpS64 | cmpN64 | addB32Imm | andB32Imm |
    orB32Imm | xorB32Imm | shlB32Imm | shrB32Imm | sraB32Imm | faddF32 | fsubF32 | fmulF32 | fminF32 | fmaxF32 | fabsF32 | fnegF32 | faddF16x2 |
    fsubF16x2 | fmulF16x2 | fminF16x2 | fmaxF16x2 | fabsF16x2 | fnegF16x2 | faddBf16x2 | fsubBf16x2 | fmulBf16x2 | fminBf16x2 | fmaxBf16x2 |
    fabsBf16x2 | fnegBf16x2 | fcmpF32 | frndF32 | rcpx | rsqx | sqrtx | divx | exp2x | log2x | sinx | cosx | tanhx | rng | rngnBm | rngnInv | rngk |
    resn | madB32 | madB64 | fmaF32 | fmaF16x2 | bfiB32 | selB32 | fclampF32 | cvt | resu | resm => exact h.laneCompute ..
  | rcp | rsq | sqrt | div | exp2 | log2 | sin | cos | tanh | cvtq => exact h.laneComputeWith ..
  | shflIdx | shflUp | shflDown | shflXor | voteAny | voteAll | voteBallot | reduxInt | reduxF32 | scanInt | scanF32 | expand =>
    exact h.crossCompute ..
  | compress => exact h.execCompress ..
  | ldLsB32 => exact h.execLdLsB32 ..
  | ldLsB64 => exact h.execLdLsB64 ..
  | stLsB32 => exact h.execStLsB32 ..
  | stLsB64 => exact h.execStLsB64 ..
  | ldSpB32 => exact h.execLdSpB32 ..
  | ldSpB64 => exact h.execLdSpB64 ..
  | stSpB32 => exact h.execStSpB32 ..
  | stSpB64 => exact h.execStSpB64 ..
  | ldGmB32 => exact h.execLdGmB32 ..
  | ldGmB64 => exact h.execLdGmB64 ..
  | stGmB32 => exact h.execStGmB32 ..
  | stGmB64 => exact h.execStGmB64 ..
  | resld => exact h.execResld ..
  | resst => exact h.execResst ..
  | hitattr => exact h.execHitattr ..
  | hitattrPg => exact h.execHitattrPg ..
  | accept | term => exact h.shaderReturn ..
  | ignore => exact h.execIgnore ..
  | lwalk => exact h.execLwalk ..
  | ldLx => exact h.execLdLx ..
  | stLx => exact h.execStLx ..
  | atomAdd | atomMin | atomMax | atomAnd | atomOr | atomXor | atomExch | cas => exact h.atomLanes ..
  | ldg => exact h.execLdg ..
  | stg => exact h.execStg ..
  | prefetch => exact h.execPrefetch ..
  | dqv => exact h.execDqv ..
  | mxsign | mxsignWait => exact h.mxSign ..
  | mxdrain => exact h.execMxdrain ..
  | neval => exact h.execNeval ..
  | ksign => exact h.execKsign ..
  | ksignWait => exact h.execKsignWait ..
  | ksignDecl => exact h.execKsignDecl ..
  | trace | occl => exact h.sendRays ..
  | march => exact h.execMarch ..
  | marchRes => exact h.execMarchRes ..
  | gadd | gsub | gmul | gand | gor | gxor | gshl | gshr => exact h.uniform2 ..
  | gmov | gcmp | gbc | rcvSet | rcvJoin | rtime | csrw => exact h.groupCompute ..
  | gmovImm => exact h.execGmovImm ..
  | gaddImm => exact h.execGaddImm ..
  | gorImm => exact h.execGorImm ..
  | gshlImm => exact h.execGshlImm ..
  | gld => exact h.execGld ..
  | gst => exact h.execGst ..
  | br => exact h.execBr ..
  | jmp => exact h.execJmp ..
  | call => exact h.execCall ..
  | ret => exact h.execRet ..
  | loop => exact h.execLoop ..
  | endloop => exact h.execEndloop ..
  | yield => exact h.execYield ..
  | exit => exact h.execExit ..
  | segw => exact h.execSegw ..
  | view => exact h.execView ..
  | grow => exact h.execGrow ..
  | shrink => exact h.execShrink ..
  | wait => exact h.execWait ..
  | xfence => exact h.execXfence ..
  | barTeam => exact h.execBarTeam ..
  | barCl => exact h.execBarCl ..
  | tdec => exact h.execTdec ..
  | twait => exact h.execTwait ..
  | wtime => exact h.execWtime ..
  | csrr => exact h.execCsrr ..
  | trap q code => exact h.execTrap q code
  | tret => exact h.execTret ..
  | tmask => exact h.execTmask ..
  | tunmask => exact h.execTunmask ..
  | brk => exact h.execBrk ..
  | launch => exact h.execLaunch ..
  | copyBlockCmd => exact h.execCopyBlockCmd ..
  | copyDirect => exact h.execCopyDirect ..
  | coll => exact h.execColl ..
  | strn => exact h.execStrn ..
  | chain => exact h.execChain ..
  | hingeReadRequest | hingeReadData | hingeWrite | hingeWriteAcknowledge | hingeAtomic | hingeAtomicResult | hingeHaloWrite | hingeTimeSideband =>
    exact h.hingeArrives ..
  | stampedMessageApply => exact h.execStampedMessageApply ..
  | hingeLaneRepair => exact h.execHingeLaneRepair ..
  | hingeModuleRetire | hngCrcerrClear | scaleupPortRetrain | scaleupPortDown | cxlPortTrained | cxlPortDown | pkgScreenWrite | resGeomWrite |
    timAdjWrite | timStepWrite | ppsEdge | pkgPwrcapWrite | caddyLockstepMismatch | pfivmapWrite | fbheadWrite | tlbinvAll | tlbinvPage | odrHeadWrite
    | rfHeadWrite | qctlDisable | qctlZero | hingeCrcRetry | hingeModuleRetrained | powerFail => exact h
  | domainRequestArrival => exact h.execDomainRequestArrival ..
  | hostLinkTrained => exact h.execHostLinkTrained ..
  | hostLinkDown => exact h.execHostLinkDown ..
  | hostMemAccess => exact h.execHostMemAccess ..
  | deviceTimeTick => exact h.execDeviceTimeTick ..
  | ptpMessage => exact h.execPtpMessage ..
  | sensorRefresh => exact h.execSensorRefresh ..
  | clockStep => exact h.execClockStep ..
  | logFlush => exact h.execLogFlush ..
  | logRead => exact h.execLogRead ..
  | attestRequest => exact h.execAttestRequest ..
  | attestReport => exact h.execAttestReport ..
  | firmwareUpdate => exact h.execFirmwareUpdate ..
  | moduleReset => exact h.resetModule ..
  | bringupStepComplete => exact h.execBringupStepComplete ..
  | scrubPeriod => exact h.execScrubPeriod ..
  | coreRetire => exact h.execCoreRetire ..
  | l2SliceRetire => exact h.execL2SliceRetire ..
  | partitionCreate => exact h.execPartitionCreate ..
  | partitionResize => exact h.execPartitionResize ..
  | partitionReset => exact h.execPartitionReset ..
  | partitionDestroy => exact h.execPartitionDestroy ..
  | partitionCmdBadOp => exact h.execPartitionCmdBadOp ..
  | partitionApplyComplete => exact h.execPartitionApplyComplete ..
  | partitionResetComplete => exact h.execPartitionResetComplete ..
  | partitionFlr => exact h.execPartitionFlr ..
  | pfFlr => exact h.execPfFlr ..
  | fltreplayAll | fltreplayToken => exact h.replay ..
  | fltreplayUnrecoverable => exact h.endWork ..
  | tlbinvComplete => exact h.execTlbinvComplete ..
  | schAreaWrite => exact h.writeArea ..
  | memRfareaWrite => exact h.writeRfArea ..
  | schPreemptWrite => exact h.writePreempt ..
  | registerWrite => exact h.execRegisterWrite ..
  | doorbell => exact h.writeTail ..
  | tailWordChange => exact h.watchTail ..
  | qctlEnable => exact h.enableStream ..
  | statResume => exact h.resumeStream ..
  | statSkip => exact h.skipPacket ..
  | headerReread => exact h.execHeaderReread ..
  | nopPacket => exact h.execNopPacket ..
  | launchPacket => exact h.execLaunchPacket ..
  | graphPacket => exact h.execGraphPacket ..
  | copyPacket => exact h.execCopyPacket ..
  | collPacket => exact h.execCollPacket ..
  | semwaitPacket => exact h.execSemwaitPacket ..
  | semsigPacket => exact h.execSemsigPacket ..
  | timewaitPacket => exact h.execTimewaitPacket ..
  | fencePacket => exact h.execFencePacket ..
  | jumpPacket => exact h.execJumpPacket ..
  | waitConditionMet => exact h.execWaitConditionMet ..
  | tumblerPoll => exact h.execTumblerPoll ..
  | gridComplete => exact h.execGridComplete ..
  | nodeDispatch => exact h.execNodeDispatch ..
  | nodeComplete => exact h.execNodeComplete ..
  | teamPlace => exact h.execTeamPlace ..
  | groupEnd => exact h.execGroupEnd ..
  | chainTailSeen => exact h.chainMove ..
  | chainBlockComplete => exact h.execChainBlockComplete ..
  | chainResume => exact h.execChainResume ..
  | copyBlockCopy | copyBlockFill | copyBlockHalo => exact h.startCopy ..
  | copyChunk => exact h.execCopyChunk ..
  | collAllReduce | collReduceScatter | collAllGather | collBroadcast => exact h.startColl ..
  | collMessageIngress => exact h.execCollMessageIngress ..
  | collAbortToken => exact h.execCollAbortToken ..
  | collAttemptTimeout => exact h.execCollAttemptTimeout ..
  | matrixBlock => exact h.execMatrixBlock ..
  | matrixKstep => exact h.execMatrixKstep ..
  | matrixJobComplete => exact h.execMatrixJobComplete ..
  | blendTileClose => exact h.execBlendTileClose ..
  | blendRowWriteback => exact h.execBlendRowWriteback ..
  | strainerPass => exact h.execStrainerPass ..
  | strainerPixel => exact h.execStrainerPixel ..
  | strainerVisRayResult => exact h.execStrainerVisRayResult ..
  | strainerPassComplete => exact h.execStrainerPassComplete ..
  | strainerAdvance => exact h.execStrainerAdvance ..
  | rayNodeRead => exact h.execRayNodeRead ..
  | rayResultWrite => exact h.execRayResultWrite ..
  | marchEvent => exact h.execMarchEvent ..
  | lwalkNodeRead => exact h.execLwalkNodeRead ..
  | laneSwap => exact h.execLaneSwap ..
  | orderedAccessArrival => exact h.execOrderedAccessArrival ..
  | orderedAccessRelease => exact h.execOrderedAccessRelease ..
  | pageWalkComplete => exact h.execPageWalkComplete ..
  | loadDataReturn => exact h.execLoadDataReturn ..
  | poisonReturn => exact h.execPoisonReturn ..
  | writePerformed => exact h.execWritePerformed ..
  | storeBufferDrain => exact h.execStoreBufferDrain ..
  | sliceMove => exact h.execSliceMove ..
  | loopEndStep => exact h.execLoopEndStep ..
  | growGrant => exact h.execGrowGrant ..
  | allocatorImpasse => exact h.execAllocatorImpasse ..
  | activeSetRotate => exact h.execActiveSetRotate ..
  | groupEnterActive => exact h.execGroupEnterActive ..
  | wtimeRelease => exact h.execWtimeRelease ..
  | wtimePreentry => exact h.execWtimePreentry ..
  | periodBoundary => exact h.execPeriodBoundary ..
  | migrationStart => exact h.execMigrationStart ..
  | migrationCopyDone => exact h.execMigrationCopyDone ..
  | forwardEntryExpire => exact h.execForwardEntryExpire ..
  | forwardedMessage => exact h.execForwardedMessage ..
  | preemptClassTrigger => exact h.execPreemptClassTrigger ..
  | preemptDeadlineExpire => exact h.execPreemptDeadlineExpire ..
  | withholdExpire => exact h.execWithholdExpire ..
  | saveAreaAvailable => exact h.execSaveAreaAvailable ..
  | deadboltRequest => exact h.execDeadboltRequest ..
  | shadowQueuesEmpty => exact h.execShadowQueuesEmpty ..
  | deadboltFreeze => exact h.execDeadboltFreeze ..
  | deadboltScanDone => exact h.execDeadboltScanDone ..
  | deadboltDrainDone => exact h.execDeadboltDrainDone ..
  | shadowMismatch => exact h.execShadowMismatch ..
  | asyncErrorDelivery => exact h.execAsyncErrorDelivery ..
  | hostCacheSnoop => exact h.performWrite ..
  | hingeRequestTimeout => exact h.execHingeRequestTimeout ..
  | caddyRestartComplete => exact h.execCaddyRestartComplete ..

end

/-! ## A step -/

/-- An event that keeps the memories in canonical form. -/
def Keeps (m : Happening) : Prop := ∀ s, MemOk s → EndsOk (m s)

/-- Events that are meanings of instructions. -/
def Meanings (l : List Happening) : Prop := ∀ m ∈ l, ∃ i, m = exec i

namespace Meanings

theorem nil : Meanings [] := fun _ hm => nomatch hm

theorem one (i : Instr) : Meanings [exec i] := by
  intro m hm
  exact ⟨i, List.mem_singleton.1 hm⟩

theorem append {l k : List Happening} (hl : Meanings l) (hk : Meanings k) : Meanings (l ++ k) := List.forall_mem_append.2 ⟨hl, hk⟩

theorem cons (i : Instr) {l : List Happening} (hl : Meanings l) : Meanings (exec i :: l) := (one i).append hl

theorem map {α : Type} (l : List α) (f : α → Instr) : Meanings (l.map fun x => exec (f x)) := List.forall_mem_map.2 fun x _ => ⟨f x, rfl⟩

theorem flatMap {α : Type} {l : List α} {f : α → List Happening} (h : ∀ x, Meanings (f x)) : Meanings (l.flatMap f) := by
  intro m hm
  obtain ⟨x, -, hx⟩ := List.mem_flatMap.1 hm
  exact h x m hx

theorem onlyIf (c : Bool) (i : Instr) : Meanings (onlyIf c (exec i)) := by
  cases c
  · exact nil
  · exact one i

end Meanings

theorem flightEvents_meanings (s : State) (f : Flight) : Meanings (flightEvents s f) := by
  unfold flightEvents
  split
  · exact .nil
  · exact .nil
  · exact .one (.hingeRequestTimeout _)
  iterate 2
    · split
      · exact .one (.poisonReturn _)
      · exact .one (.loadDataReturn ..)
  · exact .one (.writePerformed ..)
  all_goals
    split
    · refine .flatMap fun r => ?_
      split
      · exact .one (.forwardedMessage ..)
      · exact .nil
    · split
      · exact .onlyIf _ (.hingeReadRequest _)
      · exact .onlyIf _ (.hingeReadData _)
      · exact .onlyIf _ (.hingeWrite _)
      · exact .onlyIf _ (.hingeWriteAcknowledge _)
      · exact .onlyIf _ (.hingeAtomic _)
      · exact .onlyIf _ (.hingeAtomicResult _)
      · exact .onlyIf _ (.hingeHaloWrite _)
      · exact .onlyIf _ (.hingeTimeSideband _)

theorem memEvents_meanings (s : State) : Meanings (memEvents s) := by
  refine .append (.append (.append (.flatMap (flightEvents_meanings s)) (.map _ fun e : BufEntry => .storeBufferDrain e.id))
    (.map _ fun w : Walk => .pageWalkComplete w.id)) (List.forall_mem_map.2 fun p _ => ?_)
  split
  · exact ⟨.orderedAccessRelease p.id, rfl⟩
  · exact ⟨.orderedAccessArrival p.id, rfl⟩

theorem laneEvents_meanings (s : State) (g : Group) (l : Nat) : Meanings (laneEvents s g l) := by
  refine .append (.append (.onlyIf _ (.asyncErrorDelivery ..)) ?wait) ?home
  case wait =>
    split
    · exact .onlyIf _ (.wtimeRelease ..)
    · exact .one (.tumblerPoll ..)
    · exact .nil
  case home =>
    split
    · exact .onlyIf _ (.laneSwap ..)
    · split
      · exact .map _ fun h : Group => .laneSwap g.core g.slot h.slot l
      · exact .nil

theorem groupEvents_meanings (s : State) (g : Group) : Meanings (groupEvents s g) := by
  unfold groupEvents
  split
  · exact .nil
  · have always : Meanings [execLoopEndStep g.core g.slot, execGrowGrant g.core g.slot] := .cons (.loopEndStep ..) (.one (.growGrant ..))
    exact ((((((always.append (.onlyIf _ (.activeSetRotate ..))).append (.onlyIf _ (.groupEnterActive ..))).append
      (.onlyIf _ (.wtimePreentry ..))).append (.onlyIf _ (.groupEnd ..))).append (.onlyIf _ (.sliceMove ..))).append
      (.onlyIf _ (.allocatorImpasse _))).append (.flatMap (laneEvents_meanings s g))

theorem packetEvent_meanings (typ p st : Nat) : Meanings (packetEvent typ p st) := by
  unfold packetEvent
  split
  · exact .one (.nopPacket ..)
  · exact .one (.launchPacket ..)
  · exact .one (.graphPacket ..)
  · exact .one (.copyPacket ..)
  · exact .one (.collPacket ..)
  · exact .one (.semwaitPacket ..)
  · exact .one (.semsigPacket ..)
  · exact .one (.timewaitPacket ..)
  · exact .one (.fencePacket ..)
  · exact .one (.jumpPacket ..)
  · exact .nil

theorem streamEvents_meanings (p : Nat) (x : Stream) : Meanings (streamEvents p x) := by
  unfold streamEvents
  split
  · exact .nil
  · refine .append (.onlyIf _ (.tailWordChange ..)) ?_
    split
    · exact .one (.headerReread ..)
    · exact packetEvent_meanings _ _ _
    · exact .one (.waitConditionMet ..)
    · exact .nil

theorem partEvents_meanings (s : State) (q : Partition) : Meanings (partEvents s q) :=
  have triggers : Meanings ((readyGrids s q.num).flatMap fun g => onlyIf (classTriggers s g) (execPreemptClassTrigger q.num g.slot)) :=
    .flatMap fun g => .onlyIf _ (.preemptClassTrigger q.num g.slot)
  (((((triggers.append (.onlyIf _ (.periodBoundary _))).append (.onlyIf _ (.withholdExpire _))).append
    (.onlyIf _ (.partitionApplyComplete _))).append (.onlyIf _ (.partitionResetComplete _))).append (.onlyIf _ (.tlbinvComplete _))).append
    (.flatMap (streamEvents_meanings q.num))

theorem gridEvents_meanings (s : State) (g : Grid) : Meanings (gridEvents s g) :=
  (Meanings.cons (.teamPlace ..) (.one (.gridComplete ..))).append (.onlyIf _ (.preemptClassTrigger ..))

theorem graphEvents_meanings (g : Graph) : Meanings (graphEvents g) := by
  refine .flatMap fun n => ?_
  split
  · exact .one (.nodeDispatch ..)
  · exact .one (.nodeComplete ..)
  · exact .nil

theorem teamEvents_meanings (s : State) (t : Team) : Meanings (teamEvents s t) := by
  unfold teamEvents
  split
  · refine .append (.append (.onlyIf _ (.deadboltRequest ..)) ?_) (.map _ fun c => .migrationStart t.id c)
    split
    · exact .append (.onlyIf _ (.deadboltRequest ..)) (.onlyIf _ (.preemptDeadlineExpire _))
    · exact .onlyIf _ (.deadboltRequest ..)
  · exact .one (.shadowQueuesEmpty _)
  · exact .one (.deadboltFreeze _)
  · exact .one (.deadboltScanDone _)
  · exact .one (.deadboltDrainDone _)
  · exact .one (.migrationCopyDone _)

theorem cmdEvents_meanings (c : EngCmd) : Meanings (cmdEvents c) := by
  unfold cmdEvents
  split
  · split
    · exact .cons (.copyChunk _) (.one (.chainBlockComplete _))
    · split
      · exact .one (.copyBlockCopy _)
      · exact .one (.copyBlockFill _)
      · exact .one (.copyBlockHalo _)
  · split
    · exact .cons (.copyChunk _) (.cons (.chainBlockComplete _) (.one (.collAttemptTimeout _)))
    · split
      · exact .one (.collAllReduce _)
      · exact .one (.collReduceScatter _)
      · exact .one (.collAllGather _)
      · exact .one (.collBroadcast _)
  · exact .cons (.strainerPass _) (.cons (.strainerAdvance _) (.cons (.strainerPixel _) (.cons (.strainerPassComplete _)
      (.one (.chainBlockComplete _)))))
  · exact .cons (.matrixBlock _) (.one (.chainBlockComplete _))

theorem rayEvents_meanings (r : RaySlot) : Meanings (rayEvents r) := by
  unfold rayEvents
  split
  · exact .one (.rayNodeRead _)
  · exact .one (.rayResultWrite _)
  · exact .one (.strainerVisRayResult _)
  · exact .nil

theorem unitEvents_meanings (s : State) : Meanings (unitEvents s) := by
  have chains : Meanings (s.eng.chains.map fun c => if c.halted then execChainResume c.id else execChainTailSeen c.id) := by
    refine List.forall_mem_map.2 fun c _ => ?_
    split
    · exact ⟨.chainResume c.id, rfl⟩
    · exact ⟨.chainTailSeen c.id, rfl⟩
  have marches : Meanings (s.render.marches.map fun m => execMarchEvent m.id) := .map _ fun m : MarchSlot => .marchEvent m.id
  have walks : Meanings (s.render.walks.map fun w => execLwalkNodeRead w.id) := .map _ fun w : LightWalk => .lwalkNodeRead w.id
  have jobs : Meanings (s.render.jobs.flatMap fun j => [execMatrixKstep j.id, execMatrixJobComplete j.id]) :=
    .flatMap fun j => .cons (.matrixKstep j.id) (.one (.matrixJobComplete j.id))
  have tiles : Meanings (s.render.tiles.flatMap fun t => execBlendTileClose t.id :: t.rows.map fun r => execBlendRowWriteback r.id) :=
    .flatMap fun t => .cons (.blendTileClose t.id) (.map _ fun r : BlendRow => .blendRowWriteback r.id)
  exact (((((chains.append (.flatMap cmdEvents_meanings)).append (.flatMap rayEvents_meanings)).append marches).append walks).append
    jobs).append tiles

theorem expiredEntries_meanings (s : State) : Meanings (expiredEntries s) := by
  refine .flatMap fun c m hm => ?_
  obtain ⟨l, hl, hm⟩ := List.mem_flatten.1 hm
  obtain ⟨i, _, rfl⟩ := List.mem_mapIdx.1 hl
  exact Meanings.onlyIf _ (.forwardEntryExpire c i) m hm

theorem caddyEvents_meanings (s : State) : Meanings (caddyEvents s) := by
  unfold caddyEvents
  split
  · exact .nil
  · exact (((Meanings.onlyIf _ .logFlush).append (.onlyIf _ .attestReport)).append (.onlyIf _ .clockStep)).append (.map _ fun c => .coreRetire c)

/-- The events that can happen by themselves are meanings of instructions. -/
theorem enabled_meanings (s : State) : Meanings (enabled s) :=
  ((((((((memEvents_meanings s).append (.flatMap (groupEvents_meanings s))).append (unitEvents_meanings s)).append
    (.flatMap (partEvents_meanings s))).append (.flatMap graphEvents_meanings)).append (.flatMap (gridEvents_meanings s))).append
    (.flatMap (teamEvents_meanings s))).append (expiredEntries_meanings s)).append (caddyEvents_meanings s)

theorem Meanings.keeps {l : List Happening} (h : Meanings l) : ∀ m ∈ l, Keeps m := by
  intro m hm
  obtain ⟨i, rfl⟩ := h m hm
  exact fun s hs => hs.exec i

theorem keeps_pickFrom {l : List Happening} (h : ∀ m ∈ l, Keeps m) (n : Nat) : ∀ m ∈ pickFrom l n, Keeps m :=
  fun m hm => h m (List.mem_of_getElem? hm)

theorem keeps_or {a b : Option Happening} (ha : ∀ m ∈ a, Keeps m) (hb : ∀ m ∈ b, Keeps m) : ∀ m ∈ a.or b, Keeps m := by
  cases a
  · exact hb
  · exact ha

theorem keeps_getD {a : Option Happening} (ha : ∀ m ∈ a, Keeps m) {m : Happening} (h : Keeps m) : Keeps (a.getD m) := by
  cases a with
  | none => exact h
  | some k => exact ha k rfl

/-- The default move is an issue, an enabled event, or a tick of device time. -/
theorem keeps_defaultMove {issue : Nat → Nat → Nat → Happening} (h : ∀ core slot lane, Keeps (issue core slot lane)) (s : State) :
    Keeps (defaultMove issue s) := by
  have lanes (l : List (Nat × Nat × Nat)) : ∀ m ∈ pickFrom (l.map fun x => issue x.1 x.2.1 x.2.2) (s.turn / 4), Keeps m :=
    keeps_pickFrom (List.forall_mem_map.2 fun x _ => h x.1 x.2.1 x.2.2) _
  have work : ∀ m ∈ pickFrom (enabled s) (s.turn / 4), Keeps m := keeps_pickFrom (enabled_meanings s).keeps _
  refine keeps_getD ?first fun s hs => hs.exec .deviceTimeTick
  split
  · exact keeps_or (keeps_or (lanes _) work) (lanes _)
  · exact keeps_or (keeps_or work (lanes _)) (lanes _)
  · exact keeps_or (keeps_or (lanes _) work) (lanes _)
  · exact fun _ hm => nomatch hm

theorem EndsOk.onNext {f : State → State} {r : Result} (h : EndsOk r) (keeps : ∀ t, MemOk t → MemOk (f t)) : EndsOk (onNext f r) := by
  cases r with
  | next t => exact keeps t h
  | _ => trivial

theorem keeps_issueShadowed (i : Instr) : Keeps (issueShadowed Machine.exec i) := by
  intro s h
  unfold issueShadowed
  split
  · exact h.exec i
  next g _ =>
    split
    · exact h.exec i
    · split
      · exact h
      · split
        · split
          · exact h.compareIssue _ _ _ _ _ fun i u hu => hu.exec i
          · exact h
        · exact .onNext (h.exec i) fun t ht => ht.noteIssue ..

theorem keeps_stepIssue (core slot lane : Nat) : Keeps fun s => stepIssue s core slot lane := by
  intro s h
  have fetched := h.fetchCohort core slot lane
  simp only [stepIssue]
  split
  · exact h.shadowStep ..
  · split
    next e => exact (e ▸ fetched :)
    next e =>
      rw [e] at fetched
      split
      · exact keeps_issueShadowed _ _ fetched
      · exact MemOk.reservedWord fetched

theorem keeps_stepAct (a : Act) : Keeps fun s => stepAct s a := by
  intro s h
  cases a with
  | issue core slot lane => exact keeps_stepIssue core slot lane s h
  | event i =>
    simp only [stepAct]
    split
    · exact h.exec i
    · exact h

/-- Settles O5: every instruction, and with it every move, keeps the memories in canonical form, and settling leaves them as they are. -/
theorem memoryStaysCanonical : Obligations.MemoryStaysCanonical := by
  intro s t h run
  obtain ⟨u, rfl, ⟨a, rest, -, move⟩ | ⟨-, -, move⟩⟩ := step_cases run
  · have keeps : EndsOk (stepAct { s with agenda := rest } a) := keeps_stepAct a _ h
    rw [move] at keeps
    exact keeps
  · have keeps := keeps_defaultMove keeps_stepIssue s { s with turn := s.turn + 1 } h
    rw [move] at keeps
    exact keeps

end Sys2Proof.Machine

/-!
The statement on prefetches and the memory words of groups fails where memory is not in canonical form (`MemOk`), since it gives the bytes after a
decrement for every state.
-/
namespace Sys2Proof.Machine

section tumbler
open Sys2Proof.Tests

/-- A group with the address of a tumbler in G8 and 256 in G9. The tumbler is 256, and byte 0x1FFF0 stands behind its byte 0x20001 in memory. -/
def withTumblerOutOfOrder : State :=
  let s := withG fun g => { g with g := (g.g.set 8 0x20000).set 9 256 }
  { s with mem := s.mem ++ [(0x20001, 1), (0x1FFF0, 2)] }

/-- The state after the access of a `tdec` by that group at scope `cluster` has been checked. -/
def tumblerChecked : State :=
  let s := withTumblerOutOfOrder
  (checkAddr (releaseDrain (advance s) (grp s) (effScope 0x20000 5)) (grp s) (s.issue.lanes.headD 0) 4 0x20000 8 .atomic 0).1

/-- Refutes O34: the decrement to 0 clears byte 0x20001 of the tumbler and so takes away the cell that hides byte 0x1FFF0, which then shows 2. The
state's memory is not in canonical form, which the statement does not ask for. -/
theorem not_prefetchAndGroupMemory : ¬ Obligations.PrefetchAndGroupMemory := by
  rintro ⟨-, groupMemory⟩
  obtain ⟨-, -, tdec, -⟩ := groupMemory withTumblerOutOfOrder tumblerChecked (grp withTumblerOutOfOrder) 7 0 8 9 5 0 (.phys 0x20000)
    (by unfold GroupFits; decide +kernel)
  have noStores : tumblerChecked.ms.sb = [] := by decide +kernel
  obtain ⟨t, ht, -, performed⟩ := tdec (by decide +kernel) (by decide +kernel) (eq_mk_of_snd (by decide +kernel)) (by decide +kernel)
    (noStores ▸ List.forall_mem_nil _)
  have inGddr (a : Nat) (ha : a < gddrSize) : (Place.phys a).own tumblerChecked := fun d => by
    rw [regionOf, if_pos ha]; nofun
  obtain ⟨-, bytes⟩ := performed (by decide +kernel) (by decide +kernel) fun k hk => inGddr _ (by unfold gddrSize; omega)
  have kept : readByte t (.phys 0x1FFF0) = 0 := (bytes _ (inGddr _ (by unfold gddrSize; omega))).trans (by decide +kernel)
  exact byteAfter_ne ht kept (by decide +kernel)

end tumbler
end Sys2Proof.Machine
